-- ==== Sys2Proof/Word.lean ====
section
/-!
DEFINITION. The word types of the machine and their plainest arithmetic.
-/

namespace Sys2Proof

/-- A 64-bit register or address (03 R54). -/
abbrev Word := BitVec 64

/-- A byte of memory (00 R2). -/
abbrev Byte := BitVec 8

/-- A vector register of 2,048 bits (08 R181). -/
abbrev VReg := BitVec 2048

/-- A lane mask of 256 bits (03 R70). -/
abbrev Mask := BitVec 256

end Sys2Proof
end

