-- ==== Sys2Proof/Syntax.lean ====
section
/-!
DEFINITION. The instructions and events of the Z8, one constructor per row of the opcode table.

A constructor of an instruction word carries the fields of its encoding (02 R27 to R29, R48, R49), named as the
table names them; `h` is the stall hint (R30). A literal pair carries its literal `k` (R32).
A constructor of an EVENT (spec/95) carries what the environment decides about it: which unit it happens at, and
the data that arrives or is measured.
-/

namespace Sys2Proof

/-- What an instruction fetch can find wrong (02 R36 order 1 to 3; 04 R98; 14 R350). -/
inductive FetchCause where
  | tnc | tnv | tres | tuser | tperm | tnomem | pcaln | littgt | runreach | rtimeo
  deriving DecidableEq, Repr

/-- Where a soft error strikes (15 R389). -/
inductive SoftSite where
  | sram
  /-- A register of a slot: 0 to 31 a g register, 32 to 159 a vector register, 160 to 167 a lane mask. -/
  | registerFile (slot reg : Nat)
  | secondLevel | hbm | deviceState
  deriving DecidableEq, Repr

/-- Why a visit of a slot passes it without an issue (03 R50; 15 R400): vacant; skipped under a hint; held by the interlock;
waiting for the divider or the vector unit; on memory, or on a fetch from another device; on synchronisation; on a message; on an engine; out a control transfer's
delay; or stopped with a frozen context. -/
inductive SlotPass where
  | vacant | skip | interlock | unit | memory | drain | reply | fetch | sync | message | engine | control | stopped
  deriving DecidableEq, Repr

/-- Why a migration packet came back (14 R355). -/
inductive MigFail where
  | refused | timedOut | unreachable
  deriving DecidableEq, Repr

/-- The traffic classes of the fabric (14 R360). -/
inductive FabClass where
  | req | rsp | msg | coll | ctrl
  deriving DecidableEq, Repr

/-- A chunk transfer of a collective (14 R370): the sender, the version of the agreed table it belongs to, whether it
travels up (a partial) or down (a result), the reduction pass of DET mode (14 R372), and its elements. -/
structure ChunkXfer where
  chunk   : Nat
  dev     : BitVec 11
  version : Nat
  down    : Bool
  pass    : Nat
  elems   : List (BitVec 64)
  aux     : List Nat
  deriving DecidableEq, Repr

/-- A group of a link as a receiver meets it (14 R358, R359): its sequence number, whether its tag checks, the message
lines it carries to this module (256 bytes each, 13 R317), its data flits, the acknowledgement in its trailer, which of its six
slots fail their lane check (the trailer is slot 5), the chunk transfer of a DET collective that it carries a part of, with
its CID (14 R360), the cancels of strands that have migrated here: level, PID, address and the devices that have it (14 R355),
and the device that its packet is for, none for this one (14 R361). -/
structure LinkGroup where
  seq    : BitVec 16
  tagOk  : Bool
  cls    : FabClass
  pid    : BitVec 12
  lines  : List (BitVec 2048)
  flits  : Nat
  ack    : Option (BitVec 16)
  checks : List Nat := []
  chunk  : Option (BitVec 16 × ChunkXfer) := none
  cancels : List (BitVec 2 × BitVec 12 × BitVec 64 × List Nat) := []
  dest   : Option (BitVec 11) := none
  deriving DecidableEq, Repr

/-- A record of the link table (14 R367): the link (lower endpoint and its port), UP or DOWN, and its version. -/
structure LinkRec where
  dev      : BitVec 11
  port     : BitVec 3
  up       : Bool
  epoch    : Nat
  reporter : BitVec 11
  deriving DecidableEq, Repr

/-- The kinds of a remote access (14 R350). -/
inductive RemoteKind where
  | load | store
  | amo (op : BitVec 4) (dbl : Bool) (isRed : Bool)
  deriving DecidableEq, Repr

/-- A remote access at its target (14 R349 to R352). `data` are the bytes to store, or the operand (8 bytes) and
the compare value (8 bytes) of an atomic; `logs` are the offsets of the doublewords whose old bytes the reply brings for the
pentimento log of a logical process (13 R325). -/
structure RemoteReq where
  src    : BitVec 11
  tag    : BitVec 16
  pid    : BitVec 12
  kind   : RemoteKind
  offset : BitVec 40
  len    : Nat
  data   : List (BitVec 8)
  logs   : List (BitVec 40) := []
  deriving DecidableEq, Repr

/-- A migration packet (14 R355 step 3): the record and the public frame words, without v and p registers. -/
structure MigPacket where
  src      : BitVec 11
  tag      : BitVec 16
  record   : BitVec 512
  gregs    : List (BitVec 64)
  special  : List (BitVec 64)
  loops    : List (BitVec 64)
  status   : BitVec 64
  target   : BitVec 40
  deriving DecidableEq, Repr

/-- The rows of the opcode table. -/
inductive Instr where
  /-- ADD (R55): Writes the 64-bit wrapped sum of ga and gb to gd. -/
  | add (d : BitVec 5) (a : BitVec 5) (b : BitVec 5) (h : BitVec 2)
  /-- SUB (R55): Writes the 64-bit wrapped difference ga minus gb to gd. -/
  | sub (d : BitVec 5) (a : BitVec 5) (b : BitVec 5) (h : BitVec 2)
  /-- AND (R55): Writes the bitwise AND of ga and gb to gd. -/
  | and (d : BitVec 5) (a : BitVec 5) (b : BitVec 5) (h : BitVec 2)
  /-- OR (R55): Writes the bitwise OR of ga and gb to gd. -/
  | or (d : BitVec 5) (a : BitVec 5) (b : BitVec 5) (h : BitVec 2)
  /-- XOR (R55): Writes the bitwise XOR of ga and gb to gd. -/
  | xor (d : BitVec 5) (a : BitVec 5) (b : BitVec 5) (h : BitVec 2)
  /-- ANDN (R55): Writes ga AND NOT gb to gd. -/
  | andn (d : BitVec 5) (a : BitVec 5) (b : BitVec 5) (h : BitVec 2)
  /-- ORN (R55): Writes ga OR NOT gb to gd. -/
  | orn (d : BitVec 5) (a : BitVec 5) (b : BitVec 5) (h : BitVec 2)
  /-- XNOR (R55): Writes NOT (ga XOR gb) to gd. -/
  | xnor (d : BitVec 5) (a : BitVec 5) (b : BitVec 5) (h : BitVec 2)
  /-- SLL (R57): Shifts ga left by gb[5:0] into gd. -/
  | sll (d : BitVec 5) (a : BitVec 5) (b : BitVec 5) (h : BitVec 2)
  /-- SRL (R57): Shifts ga right logically by gb[5:0] into gd. -/
  | srl (d : BitVec 5) (a : BitVec 5) (b : BitVec 5) (h : BitVec 2)
  /-- SRA (R57): Shifts ga right arithmetically by gb[5:0] into gd. -/
  | sra (d : BitVec 5) (a : BitVec 5) (b : BitVec 5) (h : BitVec 2)
  /-- ROL (R57): Rotates ga left by gb[5:0] into gd. -/
  | rol (d : BitVec 5) (a : BitVec 5) (b : BitVec 5) (h : BitVec 2)
  /-- MUL (R55): Writes the low 64 bits of ga times gb to gd. -/
  | mul (d : BitVec 5) (a : BitVec 5) (b : BitVec 5) (h : BitVec 2)
  /-- MULH (R55): Writes the high 64 bits of the signed 128-bit product to gd. -/
  | mulh (d : BitVec 5) (a : BitVec 5) (b : BitVec 5) (h : BitVec 2)
  /-- MULHN (R55): Writes the high 64 bits of the unsigned 128-bit product to gd. -/
  | mulhn (d : BitVec 5) (a : BitVec 5) (b : BitVec 5) (h : BitVec 2)
  /-- DIV (R56): Signed division truncated toward zero, with defined results for a zero divisor and overflow, on the shared divider. -/
  | div (d : BitVec 5) (a : BitVec 5) (b : BitVec 5) (h : BitVec 2)
  /-- DIVN (R56): Unsigned division with defined result for a zero divisor. -/
  | divn (d : BitVec 5) (a : BitVec 5) (b : BitVec 5) (h : BitVec 2)
  /-- REM (R56): Signed remainder with the sign of the dividend. -/
  | rem (d : BitVec 5) (a : BitVec 5) (b : BitVec 5) (h : BitVec 2)
  /-- REMN (R56): Unsigned remainder. -/
  | remn (d : BitVec 5) (a : BitVec 5) (b : BitVec 5) (h : BitVec 2)
  /-- MIN (R55): Writes the signed lesser of ga and gb. -/
  | min (d : BitVec 5) (a : BitVec 5) (b : BitVec 5) (h : BitVec 2)
  /-- MAX (R55): Writes the signed greater of ga and gb. -/
  | max (d : BitVec 5) (a : BitVec 5) (b : BitVec 5) (h : BitVec 2)
  /-- MINN (R55): Writes the unsigned lesser of ga and gb. -/
  | minn (d : BitVec 5) (a : BitVec 5) (b : BitVec 5) (h : BitVec 2)
  /-- MAXN (R55): Writes the unsigned greater of ga and gb. -/
  | maxn (d : BitVec 5) (a : BitVec 5) (b : BitVec 5) (h : BitVec 2)
  /-- ADDS (R59): Signed saturating addition, setting FXF.SAT when clamped. -/
  | adds (d : BitVec 5) (a : BitVec 5) (b : BitVec 5) (h : BitVec 2)
  /-- SUBS (R59): Signed saturating subtraction, setting FXF.SAT when clamped. -/
  | subs (d : BitVec 5) (a : BitVec 5) (b : BitVec 5) (h : BitVec 2)
  /-- ADDSN (R59): Unsigned saturating addition, setting FXF.SAT when clamped. -/
  | addsn (d : BitVec 5) (a : BitVec 5) (b : BitVec 5) (h : BitVec 2)
  /-- SUBSN (R59): Unsigned saturating subtraction, setting FXF.SAT when clamped. -/
  | subsn (d : BitVec 5) (a : BitVec 5) (b : BitVec 5) (h : BitVec 2)
  /-- CLZ (R55): Counts leading zero bits of ga. -/
  | clz (d : BitVec 5) (a : BitVec 5) (h : BitVec 2)
  /-- CTZ (R55): Counts trailing zero bits of ga. -/
  | ctz (d : BitVec 5) (a : BitVec 5) (h : BitVec 2)
  /-- POPC (R55): Counts set bits of ga. -/
  | popc (d : BitVec 5) (a : BitVec 5) (h : BitVec 2)
  /-- BREV (R55): Reverses the bit order of ga. -/
  | brev (d : BitVec 5) (a : BitVec 5) (h : BitVec 2)
  /-- BSWAP (R55): Reverses the byte order of ga. -/
  | bswap (d : BitVec 5) (a : BitVec 5) (h : BitVec 2)
  /-- SEXT_B (R55): Sign-extends ga[7:0] to 64 bits. -/
  | sextB (d : BitVec 5) (a : BitVec 5) (h : BitVec 2)
  /-- SEXT_H (R55): Sign-extends ga[15:0] to 64 bits. -/
  | sextH (d : BitVec 5) (a : BitVec 5) (h : BitVec 2)
  /-- SEXT_W (R55): Sign-extends ga[31:0] to 64 bits. -/
  | sextW (d : BitVec 5) (a : BitVec 5) (h : BitVec 2)
  /-- ZEXT_B (R55): Zero-extends ga[7:0] to 64 bits. -/
  | zextB (d : BitVec 5) (a : BitVec 5) (h : BitVec 2)
  /-- ZEXT_H (R55): Zero-extends ga[15:0] to 64 bits. -/
  | zextH (d : BitVec 5) (a : BitVec 5) (h : BitVec 2)
  /-- ZEXT_W (R55): Zero-extends ga[31:0] to 64 bits. -/
  | zextW (d : BitVec 5) (a : BitVec 5) (h : BitVec 2)
  /-- CMP_EQ (R55): Writes 1 if ga equals gb, else 0. -/
  | cmpEq (d : BitVec 5) (a : BitVec 5) (b : BitVec 5) (h : BitVec 2)
  /-- CMP_NE (R55): Writes 1 if ga differs from gb, else 0. -/
  | cmpNe (d : BitVec 5) (a : BitVec 5) (b : BitVec 5) (h : BitVec 2)
  /-- CMP_LT (R55): Writes 1 if ga is less than gb as signed, else 0. -/
  | cmpLt (d : BitVec 5) (a : BitVec 5) (b : BitVec 5) (h : BitVec 2)
  /-- CMP_GE (R55): Writes 1 if ga is at least gb as signed, else 0. -/
  | cmpGe (d : BitVec 5) (a : BitVec 5) (b : BitVec 5) (h : BitVec 2)
  /-- CMP_LTN (R55): Writes 1 if ga is less than gb as unsigned, else 0. -/
  | cmpLtn (d : BitVec 5) (a : BitVec 5) (b : BitVec 5) (h : BitVec 2)
  /-- CMP_GEN (R55): Writes 1 if ga is at least gb as unsigned, else 0. -/
  | cmpGen (d : BitVec 5) (a : BitVec 5) (b : BitVec 5) (h : BitVec 2)
  /-- SEL (R55): Writes ga to gd if gd is non-zero, else gb. -/
  | sel (d : BitVec 5) (a : BitVec 5) (b : BitVec 5) (h : BitVec 2)
  /-- SLL_IMM (R57): Shifts ga left by an encoded count 0 to 63. -/
  | sllImm (d : BitVec 5) (a : BitVec 5) (n : BitVec 5) (m : BitVec 1) (h : BitVec 2)
  /-- SRL_IMM (R57): Shifts ga right logically by an encoded count 0 to 63. -/
  | srlImm (d : BitVec 5) (a : BitVec 5) (n : BitVec 5) (m : BitVec 1) (h : BitVec 2)
  /-- SRA_IMM (R57): Shifts ga right arithmetically by an encoded count 0 to 63. -/
  | sraImm (d : BitVec 5) (a : BitVec 5) (n : BitVec 5) (m : BitVec 1) (h : BitVec 2)
  /-- ROL_IMM (R57): Rotates ga left by an encoded count 0 to 63. -/
  | rolImm (d : BitVec 5) (a : BitVec 5) (n : BitVec 5) (m : BitVec 1) (h : BitVec 2)
  /-- ADD_W (R58): 32-bit addition, result sign-extended. -/
  | addW (d : BitVec 5) (a : BitVec 5) (b : BitVec 5) (h : BitVec 2)
  /-- SUB_W (R58): 32-bit subtraction, result sign-extended. -/
  | subW (d : BitVec 5) (a : BitVec 5) (b : BitVec 5) (h : BitVec 2)
  /-- SLL_W (R58): 32-bit left shift by gb[4:0], result sign-extended. -/
  | sllW (d : BitVec 5) (a : BitVec 5) (b : BitVec 5) (h : BitVec 2)
  /-- SRL_W (R58): 32-bit logical right shift by gb[4:0], result sign-extended. -/
  | srlW (d : BitVec 5) (a : BitVec 5) (b : BitVec 5) (h : BitVec 2)
  /-- SRA_W (R58): 32-bit arithmetic right shift by gb[4:0], result sign-extended. -/
  | sraW (d : BitVec 5) (a : BitVec 5) (b : BitVec 5) (h : BitVec 2)
  /-- ROL_W (R58): 32-bit rotate left by gb[4:0], result sign-extended. -/
  | rolW (d : BitVec 5) (a : BitVec 5) (b : BitVec 5) (h : BitVec 2)
  /-- MUL_W (R58): 32-bit multiply keeping the low 32 bits, sign-extended. -/
  | mulW (d : BitVec 5) (a : BitVec 5) (b : BitVec 5) (h : BitVec 2)
  /-- DIV_W (R58): 32-bit signed division under the rules of R56. -/
  | divW (d : BitVec 5) (a : BitVec 5) (b : BitVec 5) (h : BitVec 2)
  /-- DIVN_W (R58): 32-bit unsigned division, result sign-extended. -/
  | divnW (d : BitVec 5) (a : BitVec 5) (b : BitVec 5) (h : BitVec 2)
  /-- REM_W (R58): 32-bit signed remainder. -/
  | remW (d : BitVec 5) (a : BitVec 5) (b : BitVec 5) (h : BitVec 2)
  /-- REMN_W (R58): 32-bit unsigned remainder, result sign-extended. -/
  | remnW (d : BitVec 5) (a : BitVec 5) (b : BitVec 5) (h : BitVec 2)
  /-- SLL_W_IMM (R58): 32-bit left shift by an encoded count 0 to 31. -/
  | sllWImm (d : BitVec 5) (a : BitVec 5) (n : BitVec 5) (h : BitVec 2)
  /-- SRL_W_IMM (R58): 32-bit logical right shift by an encoded count 0 to 31. -/
  | srlWImm (d : BitVec 5) (a : BitVec 5) (n : BitVec 5) (h : BitVec 2)
  /-- SRA_W_IMM (R58): 32-bit arithmetic right shift by an encoded count 0 to 31. -/
  | sraWImm (d : BitVec 5) (a : BitVec 5) (n : BitVec 5) (h : BitVec 2)
  /-- ROL_W_IMM (R58): 32-bit rotate left by an encoded count 0 to 31. -/
  | rolWImm (d : BitVec 5) (a : BitVec 5) (n : BitVec 5) (h : BitVec 2)
  /-- ADD_IMM (R60): Adds the sign-extended 14-bit immediate to ga. -/
  | addImm (d : BitVec 5) (a : BitVec 5) (imm : BitVec 14) (h : BitVec 2)
  /-- AND_IMM (R60): ANDs ga with the sign-extended immediate. -/
  | andImm (d : BitVec 5) (a : BitVec 5) (imm : BitVec 14) (h : BitVec 2)
  /-- OR_IMM (R60): ORs ga with the sign-extended immediate. -/
  | orImm (d : BitVec 5) (a : BitVec 5) (imm : BitVec 14) (h : BitVec 2)
  /-- XOR_IMM (R60): XORs ga with the sign-extended immediate. -/
  | xorImm (d : BitVec 5) (a : BitVec 5) (imm : BitVec 14) (h : BitVec 2)
  /-- CMP_LT_IMM (R60): Writes 1 if ga is signed-less than the immediate. -/
  | cmpLtImm (d : BitVec 5) (a : BitVec 5) (imm : BitVec 14) (h : BitVec 2)
  /-- CMP_LTN_IMM (R60): Writes 1 if ga is unsigned-less than the sign-extended immediate. -/
  | cmpLtnImm (d : BitVec 5) (a : BitVec 5) (imm : BitVec 14) (h : BitVec 2)
  /-- FADD (R62): FP32 addition rounded once under rm, flags to FXF. -/
  | fadd (d : BitVec 5) (a : BitVec 5) (b : BitVec 5) (r : BitVec 2) (h : BitVec 2)
  /-- FSUB (R62): FP32 subtraction rounded under rm. -/
  | fsub (d : BitVec 5) (a : BitVec 5) (b : BitVec 5) (r : BitVec 2) (h : BitVec 2)
  /-- FMUL (R62): FP32 multiplication rounded under rm. -/
  | fmul (d : BitVec 5) (a : BitVec 5) (b : BitVec 5) (r : BitVec 2) (h : BitVec 2)
  /-- FDIV (R62): FP32 division on the shared divider, rounded under rm. -/
  | fdiv (d : BitVec 5) (a : BitVec 5) (b : BitVec 5) (r : BitVec 2) (h : BitVec 2)
  /-- FMA (R62): Fused gd plus ga times gb, rounded once. -/
  | fma (d : BitVec 5) (a : BitVec 5) (b : BitVec 5) (r : BitVec 2) (h : BitVec 2)
  /-- FNMA (R62): Fused gd minus ga times gb, rounded once. -/
  | fnma (d : BitVec 5) (a : BitVec 5) (b : BitVec 5) (r : BitVec 2) (h : BitVec 2)
  /-- FSQRT (R62): FP32 square root on the shared divider, rounded under rm. -/
  | fsqrt (d : BitVec 5) (a : BitVec 5) (r : BitVec 2) (h : BitVec 2)
  /-- FMIN (R65): Returns the lesser FP32 operand with NaN preference rules. -/
  | fmin (d : BitVec 5) (a : BitVec 5) (b : BitVec 5) (h : BitVec 2)
  /-- FMAX (R65): Returns the greater FP32 operand with NaN preference rules. -/
  | fmax (d : BitVec 5) (a : BitVec 5) (b : BitVec 5) (h : BitVec 2)
  /-- FABS (R62): Clears bit 31 of ga without flags. -/
  | fabs (d : BitVec 5) (a : BitVec 5) (h : BitVec 2)
  /-- FNEG (R62): Inverts bit 31 of ga without flags. -/
  | fneg (d : BitVec 5) (a : BitVec 5) (h : BitVec 2)
  /-- FCMP_EQ (R66): Writes 1 if the FP32 operands are equal. -/
  | fcmpEq (d : BitVec 5) (a : BitVec 5) (b : BitVec 5) (h : BitVec 2)
  /-- FCMP_LT (R66): Writes 1 if ga is less than gb, NV for any NaN. -/
  | fcmpLt (d : BitVec 5) (a : BitVec 5) (b : BitVec 5) (h : BitVec 2)
  /-- FCMP_LE (R66): Writes 1 if ga is at most gb, NV for any NaN. -/
  | fcmpLe (d : BitVec 5) (a : BitVec 5) (b : BitVec 5) (h : BitVec 2)
  /-- FCMP_UN (R66): Writes 1 if either operand is a NaN. -/
  | fcmpUn (d : BitVec 5) (a : BitVec 5) (b : BitVec 5) (h : BitVec 2)
  /-- FCVT_I32_F (R175): Converts FP32 to a signed 32-bit integer, sign-extended. -/
  | fcvtI32F (d : BitVec 5) (a : BitVec 5) (r : BitVec 2) (h : BitVec 2)
  /-- FCVT_I64_F (R175): Converts FP32 to a signed 64-bit integer. -/
  | fcvtI64F (d : BitVec 5) (a : BitVec 5) (r : BitVec 2) (h : BitVec 2)
  /-- FCVT_N32_F (R175): Converts FP32 to an unsigned 32-bit integer, zero-extended. -/
  | fcvtN32F (d : BitVec 5) (a : BitVec 5) (r : BitVec 2) (h : BitVec 2)
  /-- FCVT_N64_F (R175): Converts FP32 to an unsigned 64-bit integer. -/
  | fcvtN64F (d : BitVec 5) (a : BitVec 5) (r : BitVec 2) (h : BitVec 2)
  /-- FCVT_F_I32 (R175): Converts a signed 32-bit integer to FP32. -/
  | fcvtFI32 (d : BitVec 5) (a : BitVec 5) (r : BitVec 2) (h : BitVec 2)
  /-- FCVT_F_I64 (R175): Converts a signed 64-bit integer to FP32. -/
  | fcvtFI64 (d : BitVec 5) (a : BitVec 5) (r : BitVec 2) (h : BitVec 2)
  /-- FCVT_F_N32 (R175): Converts an unsigned 32-bit integer to FP32. -/
  | fcvtFN32 (d : BitVec 5) (a : BitVec 5) (r : BitVec 2) (h : BitVec 2)
  /-- FCVT_F_N64 (R175): Converts an unsigned 64-bit integer to FP32. -/
  | fcvtFN64 (d : BitVec 5) (a : BitVec 5) (r : BitVec 2) (h : BitVec 2)
  /-- FMOV (R67): Writes a 20-bit-significand FP32 immediate to gd. -/
  | fmov (d : BitVec 5) (imm : BitVec 20)
  /-- FADD_K (R69): FP32 addition of ga and constant-bank word kk. -/
  | faddK (d : BitVec 5) (a : BitVec 5) (k : BitVec 8) (h : BitVec 2)
  /-- FSUB_K (R69): FP32 ga minus constant kk. -/
  | fsubK (d : BitVec 5) (a : BitVec 5) (k : BitVec 8) (h : BitVec 2)
  /-- FMUL_K (R69): FP32 ga times constant kk. -/
  | fmulK (d : BitVec 5) (a : BitVec 5) (k : BitVec 8) (h : BitVec 2)
  /-- FMA_K (R69): Fused gd plus ga times constant kk. -/
  | fmaK (d : BitVec 5) (a : BitVec 5) (k : BitVec 8) (h : BitVec 2)
  /-- FNMA_K (R69): Fused gd minus ga times constant kk. -/
  | fnmaK (d : BitVec 5) (a : BitVec 5) (k : BitVec 8) (h : BitVec 2)
  /-- FMIN_K (R69): FP32 minimum of ga and constant kk. -/
  | fminK (d : BitVec 5) (a : BitVec 5) (k : BitVec 8) (h : BitVec 2)
  /-- FMAX_K (R69): FP32 maximum of ga and constant kk. -/
  | fmaxK (d : BitVec 5) (a : BitVec 5) (k : BitVec 8) (h : BitVec 2)
  /-- FMOV_K (R69): Writes constant kk zero-extended to gd. -/
  | fmovK (d : BitVec 5) (k : BitVec 8) (h : BitVec 2)
  /-- ADD_K (R69): Adds sign-extended constant kk to ga. -/
  | addK (d : BitVec 5) (a : BitVec 5) (k : BitVec 8) (h : BitVec 2)
  /-- AND_K (R69): ANDs ga with sign-extended constant kk. -/
  | andK (d : BitVec 5) (a : BitVec 5) (k : BitVec 8) (h : BitVec 2)
  /-- OR_K (R69): ORs ga with sign-extended constant kk. -/
  | orK (d : BitVec 5) (a : BitVec 5) (k : BitVec 8) (h : BitVec 2)
  /-- XOR_K (R69): XORs ga with sign-extended constant kk. -/
  | xorK (d : BitVec 5) (a : BitVec 5) (k : BitVec 8) (h : BitVec 2)
  /-- MOV_K (R69): Writes constant kk sign-extended to gd. -/
  | movK (d : BitVec 5) (k : BitVec 8) (h : BitVec 2)
  /-- MOVN_K (R69): Writes constant kk zero-extended to gd. -/
  | movnK (d : BitVec 5) (k : BitVec 8) (h : BitVec 2)
  /-- CMP_EQ_K (R69): Writes 1 if ga equals sign-extended constant kk. -/
  | cmpEqK (d : BitVec 5) (a : BitVec 5) (k : BitVec 8) (h : BitVec 2)
  /-- CMP_LT_K (R69): Writes 1 if ga is signed-less than constant kk. -/
  | cmpLtK (d : BitVec 5) (a : BitVec 5) (k : BitVec 8) (h : BitVec 2)
  /-- FADD_LIT (R69): Literal pair: FP32 addition of ga and the literal word. -/
  | faddLit (d : BitVec 5) (a : BitVec 5) (k : BitVec 32) (h : BitVec 2)
  /-- FSUB_LIT (R69): Literal pair: FP32 ga minus the literal. -/
  | fsubLit (d : BitVec 5) (a : BitVec 5) (k : BitVec 32) (h : BitVec 2)
  /-- FMUL_LIT (R69): Literal pair: FP32 ga times the literal. -/
  | fmulLit (d : BitVec 5) (a : BitVec 5) (k : BitVec 32) (h : BitVec 2)
  /-- FMA_LIT (R69): Literal pair: fused gd plus ga times the literal. -/
  | fmaLit (d : BitVec 5) (a : BitVec 5) (k : BitVec 32) (h : BitVec 2)
  /-- FNMA_LIT (R69): Literal pair: fused gd minus ga times the literal. -/
  | fnmaLit (d : BitVec 5) (a : BitVec 5) (k : BitVec 32) (h : BitVec 2)
  /-- FMIN_LIT (R69): Literal pair: FP32 minimum of ga and the literal. -/
  | fminLit (d : BitVec 5) (a : BitVec 5) (k : BitVec 32) (h : BitVec 2)
  /-- FMAX_LIT (R69): Literal pair: FP32 maximum of ga and the literal. -/
  | fmaxLit (d : BitVec 5) (a : BitVec 5) (k : BitVec 32) (h : BitVec 2)
  /-- FMOV_LIT (R69): Literal pair: writes the literal zero-extended to gd. -/
  | fmovLit (d : BitVec 5) (k : BitVec 32) (h : BitVec 2)
  /-- ADD_LIT (R69): Literal pair: adds the sign-extended literal to ga. -/
  | addLit (d : BitVec 5) (a : BitVec 5) (k : BitVec 32) (h : BitVec 2)
  /-- AND_LIT (R69): Literal pair: ANDs ga with the sign-extended literal. -/
  | andLit (d : BitVec 5) (a : BitVec 5) (k : BitVec 32) (h : BitVec 2)
  /-- OR_LIT (R69): Literal pair: ORs ga with the sign-extended literal. -/
  | orLit (d : BitVec 5) (a : BitVec 5) (k : BitVec 32) (h : BitVec 2)
  /-- XOR_LIT (R69): Literal pair: XORs ga with the sign-extended literal. -/
  | xorLit (d : BitVec 5) (a : BitVec 5) (k : BitVec 32) (h : BitVec 2)
  /-- MOV_LIT (R69): Literal pair: writes the literal sign-extended to gd. -/
  | movLit (d : BitVec 5) (k : BitVec 32) (h : BitVec 2)
  /-- MOVN_LIT (R69): Literal pair: writes the literal zero-extended to gd. -/
  | movnLit (d : BitVec 5) (k : BitVec 32) (h : BitVec 2)
  /-- CMP_EQ_LIT (R69): Literal pair: writes 1 if ga equals the sign-extended literal. -/
  | cmpEqLit (d : BitVec 5) (a : BitVec 5) (k : BitVec 32) (h : BitVec 2)
  /-- CMP_LT_LIT (R69): Literal pair: writes 1 if ga is signed-less than the literal. -/
  | cmpLtLit (d : BitVec 5) (a : BitVec 5) (k : BitVec 32) (h : BitVec 2)
  /-- BEQZ (R70): Branches if ga is zero. -/
  | beqz (a : BitVec 5) (imm : BitVec 14) (h : BitVec 2)
  /-- BNEZ (R70): Branches if ga is non-zero. -/
  | bnez (a : BitVec 5) (imm : BitVec 14) (h : BitVec 2)
  /-- BLTZ (R70): Branches if ga is negative. -/
  | bltz (a : BitVec 5) (imm : BitVec 14) (h : BitVec 2)
  /-- BGEZ (R70): Branches if ga is at least zero. -/
  | bgez (a : BitVec 5) (imm : BitVec 14) (h : BitVec 2)
  /-- BGTZ (R70): Branches if ga is positive. -/
  | bgtz (a : BitVec 5) (imm : BitVec 14) (h : BitVec 2)
  /-- BLEZ (R70): Branches if ga is at most zero. -/
  | blez (a : BitVec 5) (imm : BitVec 14) (h : BitVec 2)
  /-- BANY (R70): Branches if any of the first L bits of pa is set. -/
  | bany (p : BitVec 3) (imm : BitVec 14) (h : BitVec 2)
  /-- BALL (R70): Branches if every one of the first L bits of pa is set. -/
  | ball (p : BitVec 3) (imm : BitVec 14) (h : BitVec 2)
  /-- BNONE (R70): Branches if none of the first L bits of pa is set. -/
  | bnone (p : BitVec 3) (imm : BitVec 14) (h : BitVec 2)
  /-- J (R71): Jumps PC-relative by off19 words. -/
  | j (imm : BitVec 19) (h : BitVec 2)
  /-- CALL (R71): Writes PC+4 to gl and jumps PC-relative. -/
  | call (l : BitVec 5) (imm : BitVec 19) (h : BitVec 2)
  /-- JR (R71): Jumps to the address in ga after target checks. -/
  | jr (a : BitVec 5) (h : BitVec 2)
  /-- CALLR (R71): Writes PC+4 to gd and jumps to the old ga. -/
  | callr (d : BitVec 5) (a : BitVec 5) (h : BitVec 2)
  /-- LOOP (R74): Starts a hardware loop on lcN with count ga, or skips the body when ga is zero. -/
  | loop (n : BitVec 5) (a : BitVec 5) (m : BitVec 14) (h : BitVec 2)
  /-- LOOPI (R74): Starts a hardware loop with an immediate count 0 to 31. -/
  | loopi (n : BitVec 5) (c : BitVec 5) (m : BitVec 14) (h : BitVec 2)
  /-- NOP (R37): Does nothing except apply its stall hint. -/
  | nop (h : BitVec 2)
  /-- LD_L (R100): Loads from local store, zero-extended, with fixed latency. -/
  | ldL (d : BitVec 5) (b : BitVec 5) (o : BitVec 11) (z : BitVec 2) (h : BitVec 2)
  /-- ST_L (R100): Stores gd to local store, performed at issue. -/
  | stL (d : BitVec 5) (b : BitVec 5) (o : BitVec 11) (z : BitVec 2) (h : BitVec 2)
  /-- LD_S (R100): Loads from scratchpad, a FIFO bank or a control word, after owner and mode checks. -/
  | ldS (d : BitVec 5) (b : BitVec 5) (o : BitVec 11) (z : BitVec 2) (r : BitVec 1) (h : BitVec 2)
  /-- ST_S (R100): Stores to scratchpad, a FIFO bank or an executive status word. -/
  | stS (d : BitVec 5) (b : BitVec 5) (o : BitVec 11) (z : BitVec 2) (r : BitVec 1) (h : BitVec 2)
  /-- LD_G (R100): Translated global load, zero-extended. -/
  | ldG (d : BitVec 5) (b : BitVec 5) (o : BitVec 11) (z : BitVec 2) (r : BitVec 1) (h : BitVec 2)
  /-- ST_G (R100): Translated global store; logged when an LP stores to a timed page. -/
  | stG (d : BitVec 5) (b : BitVec 5) (o : BitVec 11) (z : BitVec 2) (r : BitVec 1) (h : BitVec 2)
  /-- VLD_L (R102): Loads a 256-byte vector from local store under a lane mask. -/
  | vldL (v : BitVec 5) (a : BitVec 5) (b : BitVec 5) (p : BitVec 3) (h : BitVec 2)
  /-- VST_L (R102): Stores a vector to local store under a lane mask. -/
  | vstL (v : BitVec 5) (a : BitVec 5) (b : BitVec 5) (p : BitVec 3) (h : BitVec 2)
  /-- VLD_S (R102): Loads a vector from scratchpad or dequeues 32 words from a FIFO bank. -/
  | vldS (v : BitVec 5) (a : BitVec 5) (b : BitVec 5) (p : BitVec 3) (r : BitVec 1) (h : BitVec 2)
  /-- VST_S (R102): Stores a vector to scratchpad or enqueues 32 words to a FIFO bank. -/
  | vstS (v : BitVec 5) (a : BitVec 5) (b : BitVec 5) (p : BitVec 3) (r : BitVec 1) (h : BitVec 2)
  /-- VLD_G (R102): Loads a vector from global memory. -/
  | vldG (v : BitVec 5) (a : BitVec 5) (b : BitVec 5) (p : BitVec 3) (r : BitVec 1) (h : BitVec 2)
  /-- VST_G (R102): Stores a vector to global memory, optionally non-temporal. -/
  | vstG (v : BitVec 5) (a : BitVec 5) (b : BitVec 5) (p : BitVec 3) (r : BitVec 1) (t : BitVec 1) (h : BitVec 2)
  /-- VGTH_S (R103): Gathers elements from scratchpad at ga plus vector offsets. -/
  | vgthS (v : BitVec 5) (a : BitVec 5) (b : BitVec 5) (p : BitVec 3) (r : BitVec 1) (h : BitVec 2)
  /-- VSCT_S (R103): Scatters elements to scratchpad at ga plus vector offsets. -/
  | vsctS (v : BitVec 5) (a : BitVec 5) (b : BitVec 5) (p : BitVec 3) (r : BitVec 1) (h : BitVec 2)
  /-- VGTH_G (R103): Gathers elements from global memory. -/
  | vgthG (v : BitVec 5) (a : BitVec 5) (b : BitVec 5) (p : BitVec 3) (r : BitVec 1) (h : BitVec 2)
  /-- VSCT_G (R103): Scatters elements to global memory, optionally non-temporal. -/
  | vsctG (v : BitVec 5) (a : BitVec 5) (b : BitVec 5) (p : BitVec 3) (r : BitVec 1) (t : BitVec 1) (h : BitVec 2)
  /-- PF_G (R105): Prefetches the line at ga+gb into the tile cache or second level; never faults. -/
  | pfG (a : BitVec 5) (b : BitVec 5) (h : BitVec 2)
  /-- CWB (R106): Writes back the dirty sectors of the tile-cache line holding ga. -/
  | cwb (a : BitVec 5) (h : BitVec 2)
  /-- CINV (R106): Invalidates the tile-cache line holding ga, discarding dirty sectors. -/
  | cinv (a : BitVec 5) (h : BitVec 2)
  /-- CWBI (R106): Writes back and invalidates the tile-cache line holding ga. -/
  | cwbi (a : BitVec 5) (h : BitVec 2)
  /-- BANKCFG (R85): Requests a tile SRAM bank mode switch and parks until it ends. -/
  | bankcfg (a : BitVec 5) (b : BitVec 5) (h : BitVec 2)
  /-- BANK_SWITCH (R85): Once earlier switches end and accepted accesses drain, the bank writes back, releases waiters with BANKSW, resets and takes the new mode. -/
  | bankSwitch (tile bank : Nat)
  /-- ST_G_B_NT (R104): Non-temporal 1-byte store into a write-combining buffer. -/
  | stGBNt (a : BitVec 5) (b : BitVec 5) (h : BitVec 2)
  /-- ST_G_H_NT (R104): Non-temporal 2-byte store into a write-combining buffer. -/
  | stGHNt (a : BitVec 5) (b : BitVec 5) (h : BitVec 2)
  /-- ST_G_W_NT (R104): Non-temporal 4-byte store into a write-combining buffer. -/
  | stGWNt (a : BitVec 5) (b : BitVec 5) (h : BitVec 2)
  /-- ST_G_D_NT (R104): Non-temporal 8-byte store into a write-combining buffer. -/
  | stGDNt (a : BitVec 5) (b : BitVec 5) (h : BitVec 2)
  /-- VADD (R189): Float element-wise addition under rm. -/
  | vadd (v : BitVec 5) (a : BitVec 5) (b : BitVec 5) (p : BitVec 3) (r : BitVec 2) (h : BitVec 2)
  /-- VSUB (R189): Float element-wise subtraction under rm. -/
  | vsub (v : BitVec 5) (a : BitVec 5) (b : BitVec 5) (p : BitVec 3) (r : BitVec 2) (h : BitVec 2)
  /-- VMUL (R189): Float element-wise multiplication under rm. -/
  | vmul (v : BitVec 5) (a : BitVec 5) (b : BitVec 5) (p : BitVec 3) (r : BitVec 2) (h : BitVec 2)
  /-- VFMA (R189): Float element-wise fused vd plus va times vb. -/
  | vfma (v : BitVec 5) (a : BitVec 5) (b : BitVec 5) (p : BitVec 3) (r : BitVec 2) (h : BitVec 2)
  /-- VFNMA (R189): Float element-wise fused vd minus va times vb. -/
  | vfnma (v : BitVec 5) (a : BitVec 5) (b : BitVec 5) (p : BitVec 3) (r : BitVec 2) (h : BitVec 2)
  /-- VMIN (R189): Float element-wise minimum. -/
  | vmin (v : BitVec 5) (a : BitVec 5) (b : BitVec 5) (p : BitVec 3) (h : BitVec 2)
  /-- VMAX (R189): Float element-wise maximum. -/
  | vmax (v : BitVec 5) (a : BitVec 5) (b : BitVec 5) (p : BitVec 3) (h : BitVec 2)
  /-- VABS (R189): Float element-wise sign clear. -/
  | vabs (v : BitVec 5) (a : BitVec 5) (p : BitVec 3) (h : BitVec 2)
  /-- VNEG (R189): Float element-wise sign inversion. -/
  | vneg (v : BitVec 5) (a : BitVec 5) (p : BitVec 3) (h : BitVec 2)
  /-- VDIV (R189): Float element-wise correctly rounded division. -/
  | vdiv (v : BitVec 5) (a : BitVec 5) (b : BitVec 5) (p : BitVec 3) (r : BitVec 2) (h : BitVec 2)
  /-- VSQRT (R189): Float element-wise correctly rounded square root. -/
  | vsqrt (v : BitVec 5) (a : BitVec 5) (p : BitVec 3) (r : BitVec 2) (h : BitVec 2)
  /-- VRCP (R192): Element-wise reciprocal approximation. -/
  | vrcp (v : BitVec 5) (a : BitVec 5) (p : BitVec 3) (h : BitVec 2)
  /-- VRSQRT (R192): Element-wise reciprocal square root approximation. -/
  | vrsqrt (v : BitVec 5) (a : BitVec 5) (p : BitVec 3) (h : BitVec 2)
  /-- VEXP2 (R192): Element-wise base-2 exponential approximation. -/
  | vexp2 (v : BitVec 5) (a : BitVec 5) (p : BitVec 3) (h : BitVec 2)
  /-- VLOG2 (R192): Element-wise base-2 logarithm approximation. -/
  | vlog2 (v : BitVec 5) (a : BitVec 5) (p : BitVec 3) (h : BitVec 2)
  /-- VSCALE (R193): Multiplies each element by 2 to the integer in vb. -/
  | vscale (v : BitVec 5) (a : BitVec 5) (b : BitVec 5) (p : BitVec 3) (r : BitVec 2) (h : BitVec 2)
  /-- VADD_I (R194): Integer element-wise wrapping addition. -/
  | vaddI (v : BitVec 5) (a : BitVec 5) (b : BitVec 5) (p : BitVec 3) (h : BitVec 2)
  /-- VSUB_I (R194): Integer element-wise wrapping subtraction. -/
  | vsubI (v : BitVec 5) (a : BitVec 5) (b : BitVec 5) (p : BitVec 3) (h : BitVec 2)
  /-- VMUL_I (R194): Integer element-wise low multiplication. -/
  | vmulI (v : BitVec 5) (a : BitVec 5) (b : BitVec 5) (p : BitVec 3) (h : BitVec 2)
  /-- VMLA_I (R194): Integer element-wise multiply-accumulate into vd. -/
  | vmlaI (v : BitVec 5) (a : BitVec 5) (b : BitVec 5) (p : BitVec 3) (h : BitVec 2)
  /-- VMIN_I (R194): Integer element-wise signed minimum. -/
  | vminI (v : BitVec 5) (a : BitVec 5) (b : BitVec 5) (p : BitVec 3) (h : BitVec 2)
  /-- VMIN_N (R194): Integer element-wise unsigned minimum. -/
  | vminN (v : BitVec 5) (a : BitVec 5) (b : BitVec 5) (p : BitVec 3) (h : BitVec 2)
  /-- VMAX_I (R194): Integer element-wise signed maximum. -/
  | vmaxI (v : BitVec 5) (a : BitVec 5) (b : BitVec 5) (p : BitVec 3) (h : BitVec 2)
  /-- VMAX_N (R194): Integer element-wise unsigned maximum. -/
  | vmaxN (v : BitVec 5) (a : BitVec 5) (b : BitVec 5) (p : BitVec 3) (h : BitVec 2)
  /-- VAND_I (R194): Element-wise bitwise AND. -/
  | vandI (v : BitVec 5) (a : BitVec 5) (b : BitVec 5) (p : BitVec 3) (h : BitVec 2)
  /-- VOR_I (R194): Element-wise bitwise OR. -/
  | vorI (v : BitVec 5) (a : BitVec 5) (b : BitVec 5) (p : BitVec 3) (h : BitVec 2)
  /-- VXOR_I (R194): Element-wise bitwise XOR. -/
  | vxorI (v : BitVec 5) (a : BitVec 5) (b : BitVec 5) (p : BitVec 3) (h : BitVec 2)
  /-- VSLL_I (R194): Element-wise left shift. -/
  | vsllI (v : BitVec 5) (a : BitVec 5) (b : BitVec 5) (p : BitVec 3) (h : BitVec 2)
  /-- VSRL_I (R194): Element-wise logical right shift. -/
  | vsrlI (v : BitVec 5) (a : BitVec 5) (b : BitVec 5) (p : BitVec 3) (h : BitVec 2)
  /-- VSRA_I (R194): Element-wise arithmetic right shift. -/
  | vsraI (v : BitVec 5) (a : BitVec 5) (b : BitVec 5) (p : BitVec 3) (h : BitVec 2)
  /-- VADDS_I (R194): Element-wise signed saturating addition. -/
  | vaddsI (v : BitVec 5) (a : BitVec 5) (b : BitVec 5) (p : BitVec 3) (h : BitVec 2)
  /-- VADDS_N (R194): Element-wise unsigned saturating addition. -/
  | vaddsN (v : BitVec 5) (a : BitVec 5) (b : BitVec 5) (p : BitVec 3) (h : BitVec 2)
  /-- VSUBS_I (R194): Element-wise signed saturating subtraction. -/
  | vsubsI (v : BitVec 5) (a : BitVec 5) (b : BitVec 5) (p : BitVec 3) (h : BitVec 2)
  /-- VSUBS_N (R194): Element-wise unsigned saturating subtraction. -/
  | vsubsN (v : BitVec 5) (a : BitVec 5) (b : BitVec 5) (p : BitVec 3) (h : BitVec 2)
  /-- VABS_I (R194): Element-wise signed absolute value. -/
  | vabsI (v : BitVec 5) (a : BitVec 5) (p : BitVec 3) (h : BitVec 2)
  /-- VMULH_I (R194): Element-wise signed high multiplication. -/
  | vmulhI (v : BitVec 5) (a : BitVec 5) (b : BitVec 5) (p : BitVec 3) (h : BitVec 2)
  /-- VMULH_N (R194): Element-wise unsigned high multiplication. -/
  | vmulhN (v : BitVec 5) (a : BitVec 5) (b : BitVec 5) (p : BitVec 3) (h : BitVec 2)
  /-- VCMP_EQ (R196): Float element compare equal into mask pd. -/
  | vcmpEq (d : BitVec 3) (a : BitVec 5) (b : BitVec 5) (p : BitVec 3) (h : BitVec 2)
  /-- VCMP_NE (R196): Float element compare not equal into pd. -/
  | vcmpNe (d : BitVec 3) (a : BitVec 5) (b : BitVec 5) (p : BitVec 3) (h : BitVec 2)
  /-- VCMP_LT (R196): Float element compare less than into pd. -/
  | vcmpLt (d : BitVec 3) (a : BitVec 5) (b : BitVec 5) (p : BitVec 3) (h : BitVec 2)
  /-- VCMP_LE (R196): Float element compare at most into pd. -/
  | vcmpLe (d : BitVec 3) (a : BitVec 5) (b : BitVec 5) (p : BitVec 3) (h : BitVec 2)
  /-- VCMP_GT (R196): Float element compare greater than into pd. -/
  | vcmpGt (d : BitVec 3) (a : BitVec 5) (b : BitVec 5) (p : BitVec 3) (h : BitVec 2)
  /-- VCMP_GE (R196): Float element compare at least into pd. -/
  | vcmpGe (d : BitVec 3) (a : BitVec 5) (b : BitVec 5) (p : BitVec 3) (h : BitVec 2)
  /-- VCMP_UN (R196): Float element unordered test into pd. -/
  | vcmpUn (d : BitVec 3) (a : BitVec 5) (b : BitVec 5) (p : BitVec 3) (h : BitVec 2)
  /-- VCMP_EQ_I (R196): Signed integer element compare equal. -/
  | vcmpEqI (d : BitVec 3) (a : BitVec 5) (b : BitVec 5) (p : BitVec 3) (h : BitVec 2)
  /-- VCMP_NE_I (R196): Signed integer element compare not equal. -/
  | vcmpNeI (d : BitVec 3) (a : BitVec 5) (b : BitVec 5) (p : BitVec 3) (h : BitVec 2)
  /-- VCMP_LT_I (R196): Signed integer element compare less than. -/
  | vcmpLtI (d : BitVec 3) (a : BitVec 5) (b : BitVec 5) (p : BitVec 3) (h : BitVec 2)
  /-- VCMP_LE_I (R196): Signed integer element compare at most. -/
  | vcmpLeI (d : BitVec 3) (a : BitVec 5) (b : BitVec 5) (p : BitVec 3) (h : BitVec 2)
  /-- VCMP_GT_I (R196): Signed integer element compare greater than. -/
  | vcmpGtI (d : BitVec 3) (a : BitVec 5) (b : BitVec 5) (p : BitVec 3) (h : BitVec 2)
  /-- VCMP_GE_I (R196): Signed integer element compare at least. -/
  | vcmpGeI (d : BitVec 3) (a : BitVec 5) (b : BitVec 5) (p : BitVec 3) (h : BitVec 2)
  /-- VCMP_EQ_N (R196): Unsigned integer element compare equal. -/
  | vcmpEqN (d : BitVec 3) (a : BitVec 5) (b : BitVec 5) (p : BitVec 3) (h : BitVec 2)
  /-- VCMP_NE_N (R196): Unsigned integer element compare not equal. -/
  | vcmpNeN (d : BitVec 3) (a : BitVec 5) (b : BitVec 5) (p : BitVec 3) (h : BitVec 2)
  /-- VCMP_LT_N (R196): Unsigned integer element compare less than. -/
  | vcmpLtN (d : BitVec 3) (a : BitVec 5) (b : BitVec 5) (p : BitVec 3) (h : BitVec 2)
  /-- VCMP_LE_N (R196): Unsigned integer element compare at most. -/
  | vcmpLeN (d : BitVec 3) (a : BitVec 5) (b : BitVec 5) (p : BitVec 3) (h : BitVec 2)
  /-- VCMP_GT_N (R196): Unsigned integer element compare greater than. -/
  | vcmpGtN (d : BitVec 3) (a : BitVec 5) (b : BitVec 5) (p : BitVec 3) (h : BitVec 2)
  /-- VCMP_GE_N (R196): Unsigned integer element compare at least. -/
  | vcmpGeN (d : BitVec 3) (a : BitVec 5) (b : BitVec 5) (p : BitVec 3) (h : BitVec 2)
  /-- VRSUM (R201): Pairwise FP32 sum of each row into vd elements. -/
  | vrsum (v : BitVec 5) (a : BitVec 5) (p : BitVec 3) (h : BitVec 2)
  /-- VCSUM (R201): Pairwise FP32 sum of each column. -/
  | vcsum (v : BitVec 5) (a : BitVec 5) (p : BitVec 3) (h : BitVec 2)
  /-- VRMAX (R201): Maximum of each row. -/
  | vrmax (v : BitVec 5) (a : BitVec 5) (p : BitVec 3) (h : BitVec 2)
  /-- VCMAX (R201): Maximum of each column. -/
  | vcmax (v : BitVec 5) (a : BitVec 5) (p : BitVec 3) (h : BitVec 2)
  /-- VRMIN (R201): Minimum of each row. -/
  | vrmin (v : BitVec 5) (a : BitVec 5) (p : BitVec 3) (h : BitVec 2)
  /-- VCMIN (R201): Minimum of each column. -/
  | vcmin (v : BitVec 5) (a : BitVec 5) (p : BitVec 3) (h : BitVec 2)
  /-- VDOT (R201): Pairwise FP32 dot product of each row of va and vb. -/
  | vdot (v : BitVec 5) (a : BitVec 5) (b : BitVec 5) (p : BitVec 3) (h : BitVec 2)
  /-- VTRN (R202): Writes the transpose of va into vd. -/
  | vtrn (v : BitVec 5) (a : BitVec 5) (p : BitVec 3) (h : BitVec 2)
  /-- PAND (R197): ANDs two mask registers. -/
  | pand (d : BitVec 3) (a : BitVec 3) (b : BitVec 3) (h : BitVec 2)
  /-- POR (R197): ORs two mask registers. -/
  | por (d : BitVec 3) (a : BitVec 3) (b : BitVec 3) (h : BitVec 2)
  /-- PXOR (R197): XORs two mask registers. -/
  | pxor (d : BitVec 3) (a : BitVec 3) (b : BitVec 3) (h : BitVec 2)
  /-- PANDN (R197): Computes pa AND NOT pb. -/
  | pandn (d : BitVec 3) (a : BitVec 3) (b : BitVec 3) (h : BitVec 2)
  /-- PNOT (R197): Inverts all 256 bits of pa. -/
  | pnot (d : BitVec 3) (a : BitVec 3) (h : BitVec 2)
  /-- PFIRST (R197): Keeps only the lowest set bit of pa below L. -/
  | pfirst (d : BitVec 3) (a : BitVec 3) (h : BitVec 2)
  /-- PCNT (R197): Counts set bits of pa below L into gd. -/
  | pcnt (d : BitVec 5) (a : BitVec 3) (h : BitVec 2)
  /-- PSET (R197): Sets the first min(ga, 256) bits of pd. -/
  | pset (d : BitVec 3) (a : BitVec 5) (h : BitVec 2)
  /-- VCVT (R176): Converts active elements between formats, one part at a time, flags to VXF. -/
  | vcvt (v : BitVec 5) (a : BitVec 5) (q : BitVec 2) (p : BitVec 3) (t : BitVec 3) (f : BitVec 3) (h : BitVec 2)
  /-- VPK_BFP8 (R177): Packs 64 FP32 elements into one BFP8 vector and its scale byte in gs. -/
  | vpkBfp8 (v : BitVec 5) (a : BitVec 5) (g : BitVec 5) (q : BitVec 2) (h : BitVec 2)
  /-- VUPK_BFP8 (R177): Unpacks one BFP8 vector to 64 FP32 elements exactly. -/
  | vupkBfp8 (v : BitVec 5) (a : BitVec 5) (g : BitVec 5) (q : BitVec 2) (h : BitVec 2)
  /-- VPK (R178): Narrows va and vb to half width with signed clamping. -/
  | vpk (v : BitVec 5) (a : BitVec 5) (b : BitVec 5) (h : BitVec 2)
  /-- VUPK (R178): Widens one part of va by sign extension. -/
  | vupk (v : BitVec 5) (a : BitVec 5) (q : BitVec 1) (h : BitVec 2)
  /-- VBCAST (R198): Broadcasts the low bits of ga to active elements. -/
  | vbcast (v : BitVec 5) (a : BitVec 5) (p : BitVec 3) (h : BitVec 2)
  /-- VINS (R198): Inserts ga into element gb mod L. -/
  | vins (v : BitVec 5) (a : BitVec 5) (b : BitVec 5) (h : BitVec 2)
  /-- VEXT (R198): Extracts element gb mod L of va into gd. -/
  | vext (d : BitVec 5) (a : BitVec 5) (b : BitVec 5) (h : BitVec 2)
  /-- VPERM (R198): Permutes elements of va by indices in vb. -/
  | vperm (v : BitVec 5) (a : BitVec 5) (b : BitVec 5) (p : BitVec 3) (h : BitVec 2)
  /-- VMOV (R198): Copies active elements of va into vd. -/
  | vmov (v : BitVec 5) (a : BitVec 5) (p : BitVec 3) (h : BitVec 2)
  /-- VSEL (R198): Selects va in masked lanes and vb elsewhere. -/
  | vsel (v : BitVec 5) (a : BitVec 5) (b : BitVec 5) (p : BitVec 3) (h : BitVec 2)
  /-- VZERO (R198): Clears all 2,048 bits of vd. -/
  | vzero (v : BitVec 5) (h : BitVec 2)
  /-- VRNG (R204): Writes counter-based random bits from key ga and base index gb. -/
  | vrng (v : BitVec 5) (a : BitVec 5) (b : BitVec 5) (p : BitVec 3) (h : BitVec 2)
  /-- VRNGF (R204): Writes exact uniform floats in [0,1) from key ga and base index gb. -/
  | vrngf (v : BitVec 5) (a : BitVec 5) (b : BitVec 5) (p : BitVec 3) (h : BitVec 2)
  /-- VSHAPE (R183): Sets VSHAPE element width and row count. -/
  | vshape (w : BitVec 2) (l : BitVec 4) (h : BitVec 2)
  /-- VWIN (R184): Sets the vector register window bank. -/
  | vwin (b : BitVec 2) (h : BitVec 2)
  /-- VFMOV (R199): Writes a converted FP32 immediate to every element. -/
  | vfmov (v : BitVec 5) (imm : BitVec 20)
  /-- SETFMT (R171): Loads FMT and SCL from a 16-byte descriptor, checking reserved bits. -/
  | setfmt (a : BitVec 5) (h : BitVec 2)
  /-- STFMT (R171): Stores FMT and SCL as one 16-byte plain store. -/
  | stfmt (a : BitVec 5) (h : BitVec 2)
  /-- CP (R107): Reads a copy descriptor and sends the command to a copy engine's queue, parking if full. -/
  | cp (a : BitVec 5) (b : BitVec 5) (h : BitVec 2)
  /-- CPSTAT (R108): Returns the slot's outstanding copy count and first failure code, clearing the latter. -/
  | cpstat (d : BitVec 5) (h : BitVec 2)
  /-- COPY_START (R108): A copy engine takes a queued command and checks its descriptor, translation and slab owners. -/
  | copyStart (tile : Nat)
  /-- COPY_COMPLETE (R108): The copy engine finishes moving data, writes the status area and flips slab owners. -/
  | copyComplete (tile : Nat)
  /-- PASS (R243): Reads a pass descriptor and queues a forward optical pass. -/
  | pass (a : BitVec 5) (h : BitVec 2)
  /-- PASS_ACK (R244): Queues a forward pass whose reply goes to gd at its end. -/
  | passAck (d : BitVec 5) (a : BitVec 5) (h : BitVec 2)
  /-- PASSR (R243): Queues a reverse optical pass applying the transpose. -/
  | passr (a : BitVec 5) (h : BitVec 2)
  /-- PASSR_ACK (R244): Queues a reverse pass with a reply to gd. -/
  | passrAck (d : BitVec 5) (a : BitVec 5) (h : BitVec 2)
  /-- PEBC (R263): Waits for the slot's passes to end and returns and clears the pass summary. -/
  | pebc (d : BitVec 5) (h : BitVec 2)
  /-- PFLR (R262): Sets the slot's EBC floor and policy. -/
  | pflr (a : BitVec 5) (h : BitVec 2)
  /-- PTKT (R264): Waits for acceptance of earlier optical commands and returns the last ticket and PCNT. -/
  | ptkt (d : BitVec 5) (h : BitVec 2)
  /-- PHLD (R221): Queues a palette load from a memory image. -/
  | phld (a : BitVec 5) (b : BitVec 5) (h : BitVec 2)
  /-- PHLD_ACK (R219): Queues a palette load with a reply to gd. -/
  | phldAck (d : BitVec 5) (a : BitVec 5) (b : BitVec 5) (h : BitVec 2)
  /-- PHST (R222): Queues a store of a palette's content to a memory image. -/
  | phst (a : BitVec 5) (b : BitVec 5) (h : BitVec 2)
  /-- PHST_ACK (R222): Queues a palette store with a reply that acquires the image. -/
  | phstAck (d : BitVec 5) (a : BitVec 5) (b : BitVec 5) (h : BitVec 2)
  /-- PSEL (R223): Queues selection of the active palette. -/
  | psel (a : BitVec 5) (h : BitVec 2)
  /-- PSEL_ACK (R223): Queues palette selection with a reply to gd. -/
  | pselAck (d : BitVec 5) (a : BitVec 5) (h : BitVec 2)
  /-- DCMP (R224): Queues decomposition of an n-by-n scratchpad block into a palette. -/
  | dcmp (a : BitVec 5) (b : BitVec 5) (h : BitVec 2)
  /-- DCMP_ACK (R224): Queues decomposition with a reply carrying FEBC and status. -/
  | dcmpAck (d : BitVec 5) (a : BitVec 5) (b : BitVec 5) (h : BitVec 2)
  /-- PALETTE_LOAD_START (R221): The palette loader takes a queued phld and begins reading the image. -/
  | paletteLoadStart (tile : Nat)
  /-- PALETTE_LOAD_DONE (R221): The image has been read; if well-formed the palette takes it, is converted and derives PEBC0. -/
  | paletteLoadDone (tile : Nat) (pebc : BitVec 7)
  /-- PALETTE_STORE_START (R222): The palette loader takes a queued phst and begins writing the image. -/
  | paletteStoreStart (tile : Nat)
  /-- PALETTE_STORE_DONE (R222): The image writes reach their home copies and the command ends with its status. -/
  | paletteStoreDone (tile : Nat)
  /-- PALETTE_SWITCH (R223): A psel takes effect at its queue point, converting a stale palette and loading the latches. -/
  | paletteSwitch (tile : Nat) (pebc : BitVec 7)
  /-- DECOMP_START (R224): The decomposition engine takes a queued dcmp and checks the block slab owner. -/
  | decompStart (tile : Nat)
  /-- DECOMP_DONE (R225): The Jacobi and nulling stages end; the palette is written and converted, status returned and the slab flipped to 0. -/
  | decompDone (tile : Nat) (pebc : BitVec 7)
  /-- XMM (R274): Reads a descriptor and queues an exact sparse block multiply. -/
  | xmm (a : BitVec 5) (h : BitVec 2)
  /-- XMM_ACK (R277): Queues an exact multiply with a reply to gd. -/
  | xmmAck (d : BitVec 5) (a : BitVec 5) (h : BitVec 2)
  /-- XMM_STRICT (R274): Queues an exact multiply that poisons outputs with skipped non-finite operands. -/
  | xmmStrict (a : BitVec 5) (h : BitVec 2)
  /-- XMM_STRICT_ACK (R274): Queues a strict exact multiply with a reply to gd. -/
  | xmmStrictAck (d : BitVec 5) (a : BitVec 5) (h : BitVec 2)
  /-- XMM_START (R276): The exact matrix unit takes a command and checks descriptor, banks and slab owners. -/
  | xmmStart (tile : Nat)
  /-- XMM_COMPLETE (R276): The unit writes C, the status area, flips slabs and returns the reply. -/
  | xmmComplete (tile : Nat)
  /-- COLL (R368): Reads a collective descriptor and starts a collective, parking if 16 run. -/
  | coll (a : BitVec 5) (h : BitVec 2)
  /-- CSTAT (R371): Returns the state and progress of a collective by CID. -/
  | cstat (d : BitVec 5) (a : BitVec 5) (h : BitVec 2)
  /-- MIGR (R354): Migrates the strand to the device holding the translated address, or does nothing if local. -/
  | migr (a : BitVec 5) (h : BitVec 2)
  /-- SPAWN (R290): Releases, reads a template and launches a group or defers it while dependences are unmet. -/
  | spawn (a : BitVec 5) (h : BitVec 2)
  /-- EXIT (R293): Ends the strand, revokes reservations, releases and counts its completion. -/
  | exit (h : BitVec 2)
  /-- CANCEL_G (R304): Posts a cancel of a group. -/
  | cancelG (a : BitVec 5) (h : BitVec 2)
  /-- CANCEL_GR (R304): Posts a cancel of a graph. -/
  | cancelGr (a : BitVec 5) (h : BitVec 2)
  /-- CANCEL_J (R304): Posts a cancel of a job. -/
  | cancelJ (a : BitVec 5) (h : BitVec 2)
  /-- PRMT (R307): Reserves masked cores at a priority and writes back lower-priority strands, or releases reservations. -/
  | prmt (a : BitVec 5) (b : BitVec 5) (h : BitVec 2)
  /-- GDEP (R291): Records a dependence of one group on another at the predecessor's home slice. -/
  | gdep (a : BitVec 5) (b : BitVec 5) (h : BitVec 2)
  /-- GCNT (R292): Reads a group, graph or job counter. -/
  | gcnt (d : BitVec 5) (a : BitVec 5) (h : BitVec 2)
  /-- AMO_ADD (R140): Atomic add at the home slice, returning the old value. -/
  | amoAdd (d : BitVec 5) (a : BitVec 5) (b : BitVec 5) (w : BitVec 1) (h : BitVec 2)
  /-- AMO_AND (R140): Atomic AND returning the old value. -/
  | amoAnd (d : BitVec 5) (a : BitVec 5) (b : BitVec 5) (w : BitVec 1) (h : BitVec 2)
  /-- AMO_OR (R140): Atomic OR returning the old value. -/
  | amoOr (d : BitVec 5) (a : BitVec 5) (b : BitVec 5) (w : BitVec 1) (h : BitVec 2)
  /-- AMO_XOR (R140): Atomic XOR returning the old value. -/
  | amoXor (d : BitVec 5) (a : BitVec 5) (b : BitVec 5) (w : BitVec 1) (h : BitVec 2)
  /-- AMO_MIN (R140): Atomic signed minimum returning the old value. -/
  | amoMin (d : BitVec 5) (a : BitVec 5) (b : BitVec 5) (w : BitVec 1) (h : BitVec 2)
  /-- AMO_MAX (R140): Atomic signed maximum returning the old value. -/
  | amoMax (d : BitVec 5) (a : BitVec 5) (b : BitVec 5) (w : BitVec 1) (h : BitVec 2)
  /-- AMO_MINN (R140): Atomic unsigned minimum returning the old value. -/
  | amoMinn (d : BitVec 5) (a : BitVec 5) (b : BitVec 5) (w : BitVec 1) (h : BitVec 2)
  /-- AMO_MAXN (R140): Atomic unsigned maximum returning the old value. -/
  | amoMaxn (d : BitVec 5) (a : BitVec 5) (b : BitVec 5) (w : BitVec 1) (h : BitVec 2)
  /-- AMO_SWAP (R140): Atomic swap returning the old value. -/
  | amoSwap (d : BitVec 5) (a : BitVec 5) (b : BitVec 5) (w : BitVec 1) (h : BitVec 2)
  /-- AMO_CAS (R140): Atomic compare-and-swap against gd, returning the old value. -/
  | amoCas (d : BitVec 5) (a : BitVec 5) (b : BitVec 5) (w : BitVec 1) (h : BitVec 2)
  /-- AMO_FADD (R141): Atomic FP32 add returning the old value and ORing flags into FXF. -/
  | amoFadd (d : BitVec 5) (a : BitVec 5) (b : BitVec 5) (h : BitVec 2)
  /-- RED_ADD (R140): Reduction add at the home slice with no reply. -/
  | redAdd (a : BitVec 5) (b : BitVec 5) (w : BitVec 1) (h : BitVec 2)
  /-- RED_AND (R140): Reduction AND with no reply. -/
  | redAnd (a : BitVec 5) (b : BitVec 5) (w : BitVec 1) (h : BitVec 2)
  /-- RED_OR (R140): Reduction OR with no reply. -/
  | redOr (a : BitVec 5) (b : BitVec 5) (w : BitVec 1) (h : BitVec 2)
  /-- RED_XOR (R140): Reduction XOR with no reply. -/
  | redXor (a : BitVec 5) (b : BitVec 5) (w : BitVec 1) (h : BitVec 2)
  /-- RED_MIN (R140): Reduction signed minimum. -/
  | redMin (a : BitVec 5) (b : BitVec 5) (w : BitVec 1) (h : BitVec 2)
  /-- RED_MAX (R140): Reduction signed maximum. -/
  | redMax (a : BitVec 5) (b : BitVec 5) (w : BitVec 1) (h : BitVec 2)
  /-- RED_MINN (R140): Reduction unsigned minimum. -/
  | redMinn (a : BitVec 5) (b : BitVec 5) (w : BitVec 1) (h : BitVec 2)
  /-- RED_MAXN (R140): Reduction unsigned maximum. -/
  | redMaxn (a : BitVec 5) (b : BitVec 5) (w : BitVec 1) (h : BitVec 2)
  /-- RED_FADD (R141): Reduction FP32 add whose flags are discarded. -/
  | redFadd (a : BitVec 5) (b : BitVec 5) (h : BitVec 2)
  /-- AMO_HOME_PERFORM (R140): An atomic or reduction arrives at its home slice and is performed indivisibly in arrival order, with a reply for amo. -/
  | amoHomePerform (slot idx : Nat)
  /-- LRW (R146): Enqueues for the line's reservation and parks until granted. -/
  | lrw (d : BitVec 5) (a : BitVec 5) (h : BitVec 2)
  /-- SCR (R146): Stores if the slot holds the reservation, passes it on, and returns a status. -/
  | scr (d : BitVec 5) (a : BitVec 5) (b : BitVec 5) (h : BitVec 2)
  /-- RESERVATION_GRANT (R146): A queued entry reaches the head of the line's queue, starts its timer and reads the word. -/
  | reservationGrant (line : Nat)
  /-- RESERVATION_TIMEOUT (R147): A reservation held more than 64 µs is revoked and passed to the next entry. -/
  | reservationTimeout (line : Nat)
  /-- LDE (R150): Reads a full word and empties it, parking while it is empty. -/
  | lde (d : BitVec 5) (a : BitVec 5) (h : BitVec 2)
  /-- STF (R150): Writes an empty word and fills it, parking while it is full. -/
  | stf (a : BitVec 5) (b : BitVec 5) (h : BitVec 2)
  /-- LDEW (R150): Non-waiting take of a full word with a success flag in gb. -/
  | ldew (d : BitVec 5) (a : BitVec 5) (b : BitVec 5) (h : BitVec 2)
  /-- STFW (R150): Non-waiting fill of an empty word with a success flag in gd. -/
  | stfw (d : BitVec 5) (a : BitVec 5) (b : BitVec 5) (h : BitVec 2)
  /-- FEQ (R150): Returns whether a word is full. -/
  | feq (d : BitVec 5) (a : BitVec 5) (h : BitVec 2)
  /-- GIVE (R152): Releases the slot's accesses to a slab or half and sets its owner code. -/
  | give (a : BitVec 5) (b : BitVec 5) (h : BitVec 2)
  /-- OWNW (R153): Returns when the slab's owner is 0, parking otherwise; acquires its contents. -/
  | ownw (a : BitVec 5) (h : BitVec 2)
  /-- BAR (R153): Fences, counts an arrival at the group barrier and parks until the generation opens. -/
  | bar (h : BitVec 2)
  /-- FENCE (R118): Waits for earlier accesses, performs scope actions and holds every later access. -/
  | fence (sc : BitVec 3) (h : BitVec 2)
  /-- REL (R118): Waits for earlier accesses and writes back at the scope, holding later writes. -/
  | rel (sc : BitVec 3) (h : BitVec 2)
  /-- ACQ (R118): Waits for earlier values and invalidates the named classes, holding later accesses. -/
  | acq (m : BitVec 2) (sc : BitVec 3) (h : BitVec 2)
  /-- ORDERING_ACTIONS_DONE (R118): The waits, write-back, invalidation, drains and acknowledgements of an ordering instruction complete and held accesses are released. -/
  | orderingActionsDone (slot : Nat)
  /-- MSEND (R320): Checks and stamps a message line, logs the send for an LP and hands it to the tile message unit. -/
  | msend (a : BitVec 5) (h : BitVec 2)
  /-- MRECV (R321): Ends any open handler, waits for the lowest-keyed message within the window, checkpoints and begins a handler. -/
  | mrecv (h : BitVec 2)
  /-- MEND (R322): Ends the handler after earlier accesses are performed, revoking reservations. -/
  | mend (h : BitVec 2)
  /-- VARN (R336): Checks and logs an irrevocable action and places it in the varnish queue at the LP's LVT. -/
  | varn (a : BitVec 5) (h : BitVec 2)
  /-- SRR (R380): Reads a system register into gd. -/
  | srr (d : BitVec 5) (sr : BitVec 12) (h : BitVec 2)
  /-- SRW (R380): Writes ga to a system register's writable fields. -/
  | srw (a : BitVec 5) (sr : BitVec 12) (h : BitVec 2)
  /-- SRSET (R380): Sets bits of a system register's RW fields. -/
  | srset (a : BitVec 5) (sr : BitVec 12) (h : BitVec 2)
  /-- SRCLR (R380): Clears bits of a system register's RW fields. -/
  | srclr (a : BitVec 5) (sr : BitVec 12) (h : BitVec 2)
  /-- RTX (R385): Returns from a trap handler restoring STATUS from XSW and jumping to XPC. -/
  | rtx (h : BitVec 2)
  /-- SYS (R386): Takes a SYS trap with XPC at the next instruction. -/
  | sys (h : BitVec 2)
  /-- BRK (R386): Takes a BRK trap with XPC at the instruction. -/
  | brk (h : BitVec 2)
  /-- CLKM (R396): Requests fixed-timing or elastic mode for the context, reserving leave and pinning tiles. -/
  | clkm (a : BitVec 5) (h : BitVec 2)
  /-- LOAD_RETURN (R111): Data of a load beyond local store returns and the load is performed. -/
  | loadReturn (slot idx : Nat)
  /-- STORE_PERFORM (R111): A store is written to its home copy or tile cache, or sent on PCIe. -/
  | storePerform (slot idx : Nat)
  /-- TRANSLATION_WALK_DONE (R97): A station's page-table walk ends with a translation or a fault. -/
  | translationWalkDone (station : Nat) (pid : BitVec 12) (va : BitVec 64)
  /-- WC_DRAIN (R104): A write-combining buffer drains its line to the second level, host or remote device. -/
  | wcDrain (core idx : Nat)
  /-- SYSREG_EFFECT_DONE (R380): A system-register write side effect, such as a TSINV invalidation, completes and the parked slot resumes. -/
  | sysregEffectDone (slot : Nat)
  /-- TSINV_PAGE (R99): Invalidates station entries covering one page of a PID. -/
  | tsinvPage (pid : BitVec 12) (vpn : BitVec 41)
  /-- TSINV_PID (R99): Invalidates all station entries of a PID. -/
  | tsinvPid (pid : BitVec 12)
  /-- TSINV_ALL (R99): Invalidates all station entries. -/
  | tsinvAll
  /-- ELEVATOR_RETIRE (R93): On an elevator test failure the executive marks it retiring, reroutes cores with HOLD and drains or returns its packets. -/
  | elevatorRetire (elev : Nat)
  /-- ELEVATOR_REISSUE (R93): Once a held core's old packets complete or return, it reissues them in order and clears HOLD. -/
  | elevatorReissue (core : Nat)
  /-- PASS_START (R248): A pass reaches the head of the sequence and checks descriptor, halves, palette and LP state. -/
  | passStart (tile : Nat) (pebc : BitVec 7)
  /-- LEAVE_GRANT (R399): The tile power governor grants a waiting leave request once power fits the budget. -/
  | leaveGrant (tile : Nat)
  /-- GROUP_ENTRY (R254): A group of vectors enters the meshes after its floor test, or is emulated or ends the pass. -/
  | groupEntry (tile : Nat)
  /-- GROUP_OUTPUT (R251): Detector codes of a group are rescaled, rounded or accumulated and written 64 cycles after entry. -/
  | groupOutput (tile : Nat) (codes : List (BitVec 10))
  /-- GROUP_EMULATE (R255): The exact matrix unit computes an emulated group's vectors, after any running xmm. -/
  | groupEmulate (tile : Nat)
  /-- PASS_END (R256): The pass writes its header, flips its halves, increments PCNT and returns its reply. -/
  | passEnd (tile : Nat)
  /-- SWATCH_INJECT (R231): On every 4,096 vectors or 25 µs idle, a swatch is sent on a wavelength and its mismatch updates drift state. -/
  | swatchInject (tile lane mismatch quad dm : Nat)
  /-- THERMAL_LOOP (R232): The 10 kHz loop sets trim heaters from swatch mismatches and sensors; `temps` are the greatest
  temperature and the span, `live` the wavelengths still in service. -/
  | thermalLoop (tile : Nat) (temps : Nat × Nat) (live : BitVec 8)
  /-- DEBC_EVAL (R233): At least every 10 µs the tile evaluates the detector EBC for each gain. -/
  | debcEval (tile : Nat) (debc : BitVec 28)
  /-- OTCTL_CLR (R218): A write of OTCTL.CLR enters the optical queue as one entry. -/
  | otctlClr (tile : Nat)
  /-- OTCTL_CLR_EFFECT (R218): After earlier commands complete, every palette of the tile becomes EMPTY. -/
  | otctlClrEffect (tile : Nat)
  /-- OTCTL_CAL (R218): A write of OTCTL.CAL requests calibration. -/
  | otctlCal (tile : Nat)
  /-- CALIB_ENTER (R218): Once modulated vectors are detected the tile enters CALIB. -/
  | calibEnter (tile : Nat)
  /-- OTCTL_OFF (R218): A write of OTCTL.OFF makes the tile DARK or, if calibrated, READY. -/
  | otctlOff (tile : Nat) (off : Bool)
  /-- TILE_CALIB_DONE (R217): Calibration ends: CALGEN rises, the active palette is reconverted and the tile becomes READY or DIGITAL;
  `found` are the wavelengths in service and the drift rate. -/
  | tileCalibDone (tile : Nat) (ok : Bool) (found : BitVec 8 × BitVec 16) (pebc : BitVec 7)
  /-- MESSAGE_ARRIVE (R316): A message enters its destination LP's queue, completing a waiting mrecv or starting a rollback if a straggler. -/
  | messageArrive (idx : Nat)
  /-- ANTI_MESSAGE_ARRIVE (R329): An anti-message arrives and annihilates, rolls back, waits or goes to dead letters. -/
  | antiMessageArrive (idx : Nat)
  /-- MSGFULL (R320): A pool full for 1 ms raises the executive event MSGFULL. -/
  | msgfull (pid : BitVec 12)
  /-- ROLLBACK (R327): The rollback sequencer stops the LP, undoes logged stores, sends anti-messages, removes varnish actions and restores the target checkpoint. -/
  | rollback (pid : BitVec 12) (lp : BitVec 32)
  /-- VP_ROUND (R332): Every 8 µs the vanishing-point unit runs two-colour counting and publishes VPT for local jobs. -/
  | vpRound (pid : BitVec 12)
  /-- VP_ROUND_ABANDON (R332): A round not balanced within 100 µs is abandoned and begun again. -/
  | vpRoundAbandon (pid : BitVec 12)
  /-- FABRIC_VP_ROUND (R333): Every 64 µs devices flip fabric colour and reduce minima and counts to set VPT; `others` are the least G of
  the other devices, and their least term without LVTs of held faults. -/
  | fabricVpRound (pid : BitVec 12) (others : BitVec 64 × BitVec 64) (othersSum : Int)
  /-- FABRIC_VP_RETRY (R333): An unbalanced fabric round repeats after 8 µs. -/
  | fabricVpRetry (pid : BitVec 12)
  /-- VARNISH_PERFORM (R338): The varnish stage performs a queued action once VPT exceeds its vtime, in key order. -/
  | varnishPerform
  /-- VJBSET_WRITE (R315): Registers or removes a PID's virtual-time job block after reading and checking it. -/
  | vjbsetWrite (v : BitVec 64)
  /-- MPSET_WRITE (R356): Registers or removes a PID's migration frame pool. -/
  | mpsetWrite (v : BitVec 64)
  /-- ITEM_HOP (R296): A work item reaches a core on its walk or ring and is taken or moves on. -/
  | itemHop (item : Nat)
  /-- RING_RADIUS_GROW (R296): After 2 µs circling, an item's radius grows by one up to RMAX. -/
  | ringRadiusGrow (item : Nat)
  /-- OVERFLOW_PARK (R296): An item at RMAX for 2 µs more parks in its hint tile's overflow queue. -/
  | overflowPark (item : Nat)
  /-- PICKUP (R299): A core takes an item into a slot, invalidates the tile cache, initialises or restores state and reads the constant bank. -/
  | pickup (item : Nat)
  /-- PARK_EVICT (R301): A strand parked longer than PKEV is written back WAITING and its slot freed. -/
  | parkEvict (slot : Nat)
  /-- DEFERRED_LAUNCH (R300): A successor whose dependences are met reads its template and launches its strands, or fails and completes CANCELLED. -/
  | deferredLaunch (idx : Nat)
  /-- HOST_ADDITION (R142): A device-performed addition to host memory reads the word, computes and posts the result. -/
  | hostAddition
  /-- CANCEL_SWEEP (R304): The device discards or traps every strand of the cancelled level and ends its groups and engine commands. -/
  | cancelSweep
  /-- CANCEL_TRAP (R304): A resident cancelled strand takes CANCEL at its next safe point. -/
  | cancelTrap (slot : Nat)
  /-- CANCEL_STOP_TIMEOUT (R304): A cancelled strand without a safe point within 40 µs is stopped and counted. -/
  | cancelStopTimeout (slot : Nat)
  /-- PREEMPT_WRITEBACK (R307): A strand driven by prmt reaches a safe point and is written back and re-entered. -/
  | preemptWriteback (slot : Nat)
  /-- PRMTO (R308): At the 40 µs bound a strand without a safe point takes PRMTO or has its parked instruction abandoned. -/
  | prmto (slot : Nat)
  /-- TILE_PIN (R397): A tile stops issue, relocks to the comb at 2.000 GHz and resumes with OFTC zero. -/
  | tilePin (tile : Nat)
  /-- TILE_UNPIN (R397): When no fixed-timing strand remains, the tile returns to elastic clocking. -/
  | tileUnpin (tile : Nat)
  /-- DROOP_DETECT (R394): A droop detector stretches the next cycle or counts in FDET when pinned. -/
  | droopDetect (tile pct : Nat)
  /-- GOVERNOR_ADJUST (R420): Governors lower elastic frequencies and withhold leave when estimated power or junction temperature exceeds limits;
  `freq` is the base frequency and whether the limits are exceeded. -/
  | governorAdjust (tile : Nat) (freq : Nat × Bool)
  /-- JUNCTION_OVERTEMP (R420): A junction above 110 °C makes the device device-fatal. -/
  | junctionOvertemp
  /-- XHOLD_WRITE (R387): Performs the rtx checks and writes the strand back HELD. -/
  | xholdWrite (v : BitVec 64)
  /-- XFATAL_WRITE (R387): Makes the context fatal with cause XREQ. -/
  | xfatalWrite (v : BitVec 64)
  /-- SRESUME_WRITE (R387): Makes a HELD strand named by frame RUNNABLE. -/
  | sresumeWrite (v : BitVec 64)
  /-- FTSET_WRITE (R395): Allows or refuses a PID fixed-timing mode, taking it out if refused. -/
  | ftsetWrite (v : BitVec 64)
  /-- DUMPSET_WRITE (R390): Registers or removes a dump area for a PID. -/
  | dumpsetWrite (v : BitVec 64)
  /-- DUMP_SEQUENCE (R390): After strands settle and engine commands end, the dump sequencer writes the dump, releases resources and reports DUMPED. -/
  | dumpSequence
  /-- COMPAT_ENGINE_RESET (R393): In compatibility mode each engine resets the context once in-flight requests of the PID drain. -/
  | compatEngineReset
  /-- DBGSTOP_STOP (R404): Stops the strand in a named slot and writes it back HELD, optionally keeping the slot vacant. -/
  | dbgstopStop (slot : Nat)
  /-- DBGSTOP_FREE (R404): Makes a kept slot available to placement again. -/
  | dbgstopFree (core slot : Nat)
  /-- PROFCTL_WRITE (R400): Configures profiling; clearing EN spills the whole table. -/
  | profctlWrite (tile : Nat) (v : BitVec 64)
  /-- PROFILE_COUNTER_CLEAR (R402): An executive write to an SLC or RDYH counter sets it to 0. -/
  | profileCounterClear (core : Nat) (n : BitVec 12)
  /-- EVPOP_READ (R406): Removes and returns the oldest executive event. -/
  | evpopRead (core : Nat) (d : BitVec 5)
  /-- REGISTER_WRITE (R380): Writes a register that has no behaviour of its own, including W1C clears. -/
  | registerWrite (off : Nat) (v : BitVec 64)
  /-- COLD_RESET (R412): PERST#, power-on or DEVCTL.COLD discards all state, clears keys and the sketchbook and scrubs SRAM. -/
  | coldReset
  /-- WARM_RESET (R412): A hot reset, FLR or DEVCTL.WARM discards state but keeps TIME, the sketchbook, FABCFG and the core map. -/
  | warmReset
  /-- BOOT_SEQUENCE (R413): After reset the service core verifies firmware, initialises memory, tests cores and starts the executive;
  `coreMap` are the cores and the elevators that pass their tests or fail them, `tables` the capacities of the column slices and the
  slices of the home-slice table. -/
  | bootSequence (err : BitVec 8) (version : Nat) (coreMap : BitVec 256 × List (BitVec 6)) (tables : List Nat × List Nat)
    (starts : List (BitVec 2 × BitVec 512))
  /-- APERTURES_OPEN (R413): At about 300 ms the launch apertures open and SVC becomes 1. -/
  | aperturesOpen
  /-- TIMEADJ_WRITE (R413): Adds an offset to TIME once between boot steps 3 and 4. -/
  | timeadjWrite (v : BitVec 64)
  /-- FABCFG_WRITE (R410): Accepts the device number and torus size and enables the ports. -/
  | fabcfgWrite (v : BitVec 64)
  /-- LINK_TRAIN_DONE (R413): A port finishes training and its link becomes UP; `peer` is the neighbour and its
  port, `farLit` how many wavelengths its laser lights. -/
  | linkTrainDone (port : Nat) (peer : BitVec 11 × BitVec 3) (farLit : Nat)
  /-- KEYCTL_GENERATE (R418): Starts generation of a new key for a PID. -/
  | keyctlGenerate (pid : BitVec 12)
  /-- KEYCTL_ERASE (R418): Starts write-back of the PID's dirty sectors and erasure of its key. -/
  | keyctlErase (pid : BitVec 12)
  /-- KEYCTL_DONE (R418): A key operation completes and BUSY clears. -/
  | keyctlDone
  /-- WINDOW_READ (R411): A host read through BAR 2 is served from local HBM4 or refused with 0xFF. -/
  | windowRead (off len : Nat)
  /-- WINDOW_WRITE (R411): A host write through BAR 2 is served at the home copy or discarded. -/
  | windowWrite (off : Nat) (data : List (BitVec 8))
  /-- LAUNCH_RECORD_WRITE (R309): A PCIe write to an aperture delivers launch records into the queue FIFO or is dropped. -/
  | launchRecordWrite (queue off : Nat) (data : List (BitVec 8))
  /-- SERVICE_LAUNCH (R309): The queue's service core takes a record from the FIFO and launches it as spawn would. -/
  | serviceLaunch (queue : Nat)
  /-- QCTL_WRITE (R310): Sets a launch queue's enable and, when idle, its PID, PMAX and QUAD. -/
  | qctlWrite (queue : Nat) (v : BitVec 64)
  /-- QCTL_TEAR (R311): Disables the queue, discards its FIFO and advances QGEN. -/
  | qctlTear (queue : Nat)
  /-- ATTEST (R417): Produces a signed attestation report over the nonce. -/
  | attest
  /-- IDENT (R417): Returns the identity public keys and certificates. -/
  | ident
  /-- FWWRITE (R417): Writes a staged block to module flash. -/
  | fwwrite
  /-- MAILBOX_COMMAND_DONE (R417): A mailbox command completes and sets status DONE with its result. -/
  | mailboxCommandDone (flashOk : Bool)
  /-- SCAN_START (R419): Begins an in-field test of a core or elevator, draining its work. -/
  | scanStart (v : BitVec 64)
  /-- SCAN_DRAIN_TIMEOUT (R419): A strand missing the 40 µs drain bound ends the test REFUSED. -/
  | scanDrainTimeout
  /-- SCAN_ABORT (R419): A work item of priority at least APRIO aborts the test and is taken. -/
  | scanAbort (item : Nat)
  /-- SCAN_PATTERN_DONE (R419): The 200 µs pattern ends and the signature decides pass or failure and retirement. -/
  | scanPatternDone (pass : Bool)
  /-- LASER_SWITCHOVER (R7): The active laser fails; tiles enter HOLD and links replay. -/
  | laserSwitchover
  /-- LASER_SWITCHOVER_DONE (R7): The standby laser carries all lines, HOLD ends and the switch-over is recorded. -/
  | laserSwitchoverDone
  /-- LASER_REQUEST (R365): The executive requests a laser power state. -/
  | laserRequest (req : BitVec 2)
  /-- LASER_TRANSITION_DONE (R365): A laser state transition completes and CUR takes the new state. -/
  | laserTransitionDone
  /-- LASER_WAKE (R365): A packet queued for a sleeping port returns the module from L2 to L0. -/
  | laserWake
  /-- LCTL_RETRAIN (R364): Renegotiates a port's transmit width to the widest the healthy lanes allow. -/
  | lctlRetrain (port : Nat)
  /-- LCTL_ENABLE (R362): Turns a port on or OFF, taking its link down when off. -/
  | lctlEnable (port : Nat) (en : Bool)
  /-- LANE_FAILING_REPORT (R364): A failing-lane report freezes the lane, stops injection and begins width negotiation. -/
  | laneFailingReport (port lane : Nat)
  /-- NARROW_NEGOTIATE_DONE (R364): The receiver's answer fixes the new width and map; groups are replayed and injection resumes;
  `dir` is the port and, of its receive direction, the far end's lane map and lit wavelengths. -/
  | narrowNegotiateDone (dir : Nat × Option (List Nat × Nat))
  /-- LANE_HEALTH_UPDATE (R363): Every 10 ms lane BER estimates are updated and failing lanes reported. -/
  | laneHealthUpdate (port lane : Nat) (power margin : BitVec 12) (fails slots recent : Nat)
  /-- LANE_RECOVER (R363): A FAILED lane not failing for 100 ms becomes SPARE. -/
  | laneRecover (port lane : Nat)
  /-- LUTIL_WINDOW (R362): At the end of each 100 µs window the port's flit counts are latched. -/
  | lutilWindow (port : Nat)
  /-- GROUP_RECEIVE (R359): A receiver accepts a link group whose tag checks in sequence, or sends NAK. -/
  | groupReceive (port : Nat) (grp : LinkGroup)
  /-- NAK_RECEIVE (R359): A sender receiving NAK replays every group from the named sequence. -/
  | nakReceive (port : Nat) (seq : BitVec 16)
  /-- LINK_RECORD_RECEIVE (R367): A flooded link record of higher version replaces the held record and is flooded on. -/
  | linkRecordReceive (record : LinkRec)
  /-- TABLE_AGREE (R367): After 50 µs quiet with matching digests the device agrees the table, recomputes routes and raises FABCHG;
  `digests` are the own one and those that ports have received. -/
  | tableAgree (digests : BitVec 64 × List (Nat × BitVec 64))
  /-- REMOTE_REQUEST_ARRIVE (R349): A remote access arrives at its target and is performed, refused or answered from the reply cache. -/
  | remoteRequestArrive (req : RemoteReq)
  /-- REMOTE_REPLY_ARRIVE (R350): A reply or refusal of a remote access returns to the source. -/
  | remoteReplyArrive (tag : BitVec 16) (refused : Bool) (data : List (BitVec 8))
  /-- REMOTE_REISSUE (R350): After 250 µs without reply the source reissues, or after four attempts fails with RTIMEO. -/
  | remoteReissue (tag : BitVec 16)
  /-- REQUEST_AGE_DISCARD (R350): A router discards a request whose age exceeds 100 µs. -/
  | requestAgeDiscard (tag : BitVec 16)
  /-- REPLY_CACHE_RETRY (R352): An attempt answered BUSY is retried after 1 µs. -/
  | replyCacheRetry (tag : BitVec 16)
  /-- MIGRATION_ARRIVE (R355): A migration packet arrives; the destination takes a pool frame and places the strand, or refuses. -/
  | migrationArrive (packet : MigPacket)
  /-- MIGRATION_ACK (R355): The source receives acknowledgement and marks the old frame MIGRATED. -/
  | migrationAck (tag : BitVec 16)
  /-- MIGRATION_REFUSED (R355): A refusal or delivery failure re-places the strand at the source with a fault. -/
  | migrationRefused (tag : BitVec 16) (why : MigFail)
  /-- COLL_START (R369): The collective engine makes its start checks, reading the member table. -/
  | collStart (cid : BitVec 16)
  /-- COLL_JOINED (R369): Every member has joined; digests are compared and trees built. -/
  | collJoined (cid : BitVec 16) (digestsEqual : Bool)
  /-- CHUNK_RECEIVE (R370): A collective chunk transfer arrives and is reduced, forwarded or written, updating marks. -/
  | chunkReceive (cid : BitVec 16) (xfer : ChunkXfer)
  /-- CHUNK_ACK_RECEIVE (R370): An acknowledgement of a chunk contribution arrives and advances the mark. -/
  | chunkAckReceive (cid : BitVec 16) (chunk : Nat) (dev : BitVec 11) (version : Nat)
  /-- COMPLETION_WAVE (R370): When all chunks are DOWNDONE the wave marks them COMPLETE; members write status and flip slabs; `cid`
  also gives a part of the wave that arrives: its sender, whether it comes down, and the version of the table. -/
  | completionWave (cid : BitVec 16 × Option (BitVec 11 × Bool × Nat))
  /-- COLL_RESTART (R370): After agreeing a new table and exchanging marks, members rebuild trees and resume or redo each chunk. -/
  | collRestart (cid : BitVec 16) (marks : List (BitVec 11 × List Nat))
  /-- IDLE_ROUND (R50): A round of a core's rotation in which no slot issues costs one idle cycle, consumes stall-hint opportunities and advances the profile and slot-class counters. -/
  | idleRound (core : Nat) (passes : List (Nat × SlotPass))
  /-- ILLEGAL_INSTRUCTION (R35): A fetched word that is no instruction, such as 0x0000_0000 or an unassigned opcode, raises ZWORD or ILLOP at its own address. -/
  | illegalInstruction (word : BitVec 32)
  /-- FETCH_FAULT (R36): An instruction fetch that fails translation or finds no executable attribute traps at the PC before any word is known. -/
  | fetchFault (cause : FetchCause) (va : BitVec 64)
  /-- PREFETCH_FILL (R105): The line requested by pf.g arrives and is filled into the tile cache or the second level. -/
  | prefetchFill (idx : Nat)
  /-- REPLY_CACHE_EXPIRY (R352): A reply-cache entry whose reply was sent at least 2 ms ago is freed, making room for new atomics. -/
  | replyCacheExpiry (src : BitVec 11) (tag : BitVec 16)
  /-- SOFT_ERROR (R389): A soft error strikes SRAM, a register file, the second level or HBM4 and is corrected and counted in SERRC, or left uncorrectable for the first consumer or made device-fatal. -/
  | softError (site : SoftSite) (correctable : Bool) (pid : BitVec 12) (addr : BitVec 64)
  deriving DecidableEq, Repr

end Sys2Proof
end

