-- ==== Sys2Proof/WellFormed.lean ====
section
/-!
DEFINITION. Which instruction terms are well formed: the range checks of 02 R35 that the widths of the fields do not
already make. An event is no instruction word, so no event is well formed.
-/

namespace Sys2Proof

/-- Width in bits of a `vcvt` format code; `none` for codes 5 and 6, whose width VSHAPE gives (07 R176). -/
def vcvtWidth (c : BitVec 3) : Option Nat :=
  match c.toNat with
  | 0 => some 32
  | 1 => some 16
  | 2 => some 16
  | 3 => some 8
  | 4 => some 8
  | _ => none

/-- The checks of 07 R176 that do not need VSHAPE: codes 0 to 6, `to` differs from `from`, and a part below the ratio of
two fixed widths. The part of a form with codes 5 or 6 is checked at issue. -/
def vcvtPartOk (t f : BitVec 3) (q : BitVec 2) : Bool :=
  decide (t.toNat ≤ 6) && decide (f.toNat ≤ 6) && decide (t ≠ f) &&
    match vcvtWidth t, vcvtWidth f with
    | some wt, some wf => decide (q.toNat < max wt wf / min wt wf)
    | _, _ => true

/-- The instruction has an encoding (02 R35). -/
def Instr.wf : Instr → Bool
  | .add _ _ _ _ => true
  | .sub _ _ _ _ => true
  | .and _ _ _ _ => true
  | .or _ _ _ _ => true
  | .xor _ _ _ _ => true
  | .andn _ _ _ _ => true
  | .orn _ _ _ _ => true
  | .xnor _ _ _ _ => true
  | .sll _ _ _ _ => true
  | .srl _ _ _ _ => true
  | .sra _ _ _ _ => true
  | .rol _ _ _ _ => true
  | .mul _ _ _ _ => true
  | .mulh _ _ _ _ => true
  | .mulhn _ _ _ _ => true
  | .div _ _ _ _ => true
  | .divn _ _ _ _ => true
  | .rem _ _ _ _ => true
  | .remn _ _ _ _ => true
  | .min _ _ _ _ => true
  | .max _ _ _ _ => true
  | .minn _ _ _ _ => true
  | .maxn _ _ _ _ => true
  | .adds _ _ _ _ => true
  | .subs _ _ _ _ => true
  | .addsn _ _ _ _ => true
  | .subsn _ _ _ _ => true
  | .clz _ _ _ => true
  | .ctz _ _ _ => true
  | .popc _ _ _ => true
  | .brev _ _ _ => true
  | .bswap _ _ _ => true
  | .sextB _ _ _ => true
  | .sextH _ _ _ => true
  | .sextW _ _ _ => true
  | .zextB _ _ _ => true
  | .zextH _ _ _ => true
  | .zextW _ _ _ => true
  | .cmpEq _ _ _ _ => true
  | .cmpNe _ _ _ _ => true
  | .cmpLt _ _ _ _ => true
  | .cmpGe _ _ _ _ => true
  | .cmpLtn _ _ _ _ => true
  | .cmpGen _ _ _ _ => true
  | .sel _ _ _ _ => true
  | .sllImm _ _ _ _ _ => true
  | .srlImm _ _ _ _ _ => true
  | .sraImm _ _ _ _ _ => true
  | .rolImm _ _ _ _ _ => true
  | .addW _ _ _ _ => true
  | .subW _ _ _ _ => true
  | .sllW _ _ _ _ => true
  | .srlW _ _ _ _ => true
  | .sraW _ _ _ _ => true
  | .rolW _ _ _ _ => true
  | .mulW _ _ _ _ => true
  | .divW _ _ _ _ => true
  | .divnW _ _ _ _ => true
  | .remW _ _ _ _ => true
  | .remnW _ _ _ _ => true
  | .sllWImm _ _ _ _ => true
  | .srlWImm _ _ _ _ => true
  | .sraWImm _ _ _ _ => true
  | .rolWImm _ _ _ _ => true
  | .addImm _ _ _ _ => true
  | .andImm _ _ _ _ => true
  | .orImm _ _ _ _ => true
  | .xorImm _ _ _ _ => true
  | .cmpLtImm _ _ _ _ => true
  | .cmpLtnImm _ _ _ _ => true
  | .fadd _ _ _ _ _ => true
  | .fsub _ _ _ _ _ => true
  | .fmul _ _ _ _ _ => true
  | .fdiv _ _ _ _ _ => true
  | .fma _ _ _ _ _ => true
  | .fnma _ _ _ _ _ => true
  | .fsqrt _ _ _ _ => true
  | .fmin _ _ _ _ => true
  | .fmax _ _ _ _ => true
  | .fabs _ _ _ => true
  | .fneg _ _ _ => true
  | .fcmpEq _ _ _ _ => true
  | .fcmpLt _ _ _ _ => true
  | .fcmpLe _ _ _ _ => true
  | .fcmpUn _ _ _ _ => true
  | .fcvtI32F _ _ _ _ => true
  | .fcvtI64F _ _ _ _ => true
  | .fcvtN32F _ _ _ _ => true
  | .fcvtN64F _ _ _ _ => true
  | .fcvtFI32 _ _ _ _ => true
  | .fcvtFI64 _ _ _ _ => true
  | .fcvtFN32 _ _ _ _ => true
  | .fcvtFN64 _ _ _ _ => true
  | .fmov _ _ => true
  | .faddK _ _ _ _ => true
  | .fsubK _ _ _ _ => true
  | .fmulK _ _ _ _ => true
  | .fmaK _ _ _ _ => true
  | .fnmaK _ _ _ _ => true
  | .fminK _ _ _ _ => true
  | .fmaxK _ _ _ _ => true
  | .fmovK _ _ _ => true
  | .addK _ _ _ _ => true
  | .andK _ _ _ _ => true
  | .orK _ _ _ _ => true
  | .xorK _ _ _ _ => true
  | .movK _ _ _ => true
  | .movnK _ _ _ => true
  | .cmpEqK _ _ _ _ => true
  | .cmpLtK _ _ _ _ => true
  | .faddLit _ _ _ _ => true
  | .fsubLit _ _ _ _ => true
  | .fmulLit _ _ _ _ => true
  | .fmaLit _ _ _ _ => true
  | .fnmaLit _ _ _ _ => true
  | .fminLit _ _ _ _ => true
  | .fmaxLit _ _ _ _ => true
  | .fmovLit _ _ _ => true
  | .addLit _ _ _ _ => true
  | .andLit _ _ _ _ => true
  | .orLit _ _ _ _ => true
  | .xorLit _ _ _ _ => true
  | .movLit _ _ _ => true
  | .movnLit _ _ _ => true
  | .cmpEqLit _ _ _ _ => true
  | .cmpLtLit _ _ _ _ => true
  | .beqz _ _ _ => true
  | .bnez _ _ _ => true
  | .bltz _ _ _ => true
  | .bgez _ _ _ => true
  | .bgtz _ _ _ => true
  | .blez _ _ _ => true
  | .bany _ _ _ => true
  | .ball _ _ _ => true
  | .bnone _ _ _ => true
  | .j _ _ => true
  | .call _ _ _ => true
  | .jr _ _ => true
  | .callr _ _ _ => true
  -- 03 R73: N 0 to 2, m 1 to 256
  | .loop n _ m _ => decide (n.toNat ≤ 2 ∧ 1 ≤ m.toNat ∧ m.toNat ≤ 256)
  -- 03 R73: N 0 to 2, m 1 to 256
  | .loopi n _ m _ => decide (n.toNat ≤ 2 ∧ 1 ≤ m.toNat ∧ m.toNat ≤ 256)
  | .nop _ => true
  | .ldL _ _ _ _ _ => true
  | .stL _ _ _ _ _ => true
  | .ldS _ _ _ _ _ _ => true
  | .stS _ _ _ _ _ _ => true
  | .ldG _ _ _ _ _ _ => true
  | .stG _ _ _ _ _ _ => true
  | .vldL _ _ _ _ _ => true
  | .vstL _ _ _ _ _ => true
  | .vldS _ _ _ _ _ _ => true
  | .vstS _ _ _ _ _ _ => true
  | .vldG _ _ _ _ _ _ => true
  | .vstG _ _ _ _ _ _ _ => true
  | .vgthS _ _ _ _ _ _ => true
  | .vsctS _ _ _ _ _ _ => true
  | .vgthG _ _ _ _ _ _ => true
  | .vsctG _ _ _ _ _ _ _ => true
  | .pfG _ _ _ => true
  | .cwb _ _ => true
  | .cinv _ _ => true
  | .cwbi _ _ => true
  | .bankcfg _ _ _ => true
  | .bankSwitch _ _ => false
  | .stGBNt _ _ _ => true
  | .stGHNt _ _ _ => true
  | .stGWNt _ _ _ => true
  | .stGDNt _ _ _ => true
  | .vadd _ _ _ _ _ _ => true
  | .vsub _ _ _ _ _ _ => true
  | .vmul _ _ _ _ _ _ => true
  | .vfma _ _ _ _ _ _ => true
  | .vfnma _ _ _ _ _ _ => true
  | .vmin _ _ _ _ _ => true
  | .vmax _ _ _ _ _ => true
  | .vabs _ _ _ _ => true
  | .vneg _ _ _ _ => true
  | .vdiv _ _ _ _ _ _ => true
  | .vsqrt _ _ _ _ _ => true
  | .vrcp _ _ _ _ => true
  | .vrsqrt _ _ _ _ => true
  | .vexp2 _ _ _ _ => true
  | .vlog2 _ _ _ _ => true
  | .vscale _ _ _ _ _ _ => true
  | .vaddI _ _ _ _ _ => true
  | .vsubI _ _ _ _ _ => true
  | .vmulI _ _ _ _ _ => true
  | .vmlaI _ _ _ _ _ => true
  | .vminI _ _ _ _ _ => true
  | .vminN _ _ _ _ _ => true
  | .vmaxI _ _ _ _ _ => true
  | .vmaxN _ _ _ _ _ => true
  | .vandI _ _ _ _ _ => true
  | .vorI _ _ _ _ _ => true
  | .vxorI _ _ _ _ _ => true
  | .vsllI _ _ _ _ _ => true
  | .vsrlI _ _ _ _ _ => true
  | .vsraI _ _ _ _ _ => true
  | .vaddsI _ _ _ _ _ => true
  | .vaddsN _ _ _ _ _ => true
  | .vsubsI _ _ _ _ _ => true
  | .vsubsN _ _ _ _ _ => true
  | .vabsI _ _ _ _ => true
  | .vmulhI _ _ _ _ _ => true
  | .vmulhN _ _ _ _ _ => true
  | .vcmpEq _ _ _ _ _ => true
  | .vcmpNe _ _ _ _ _ => true
  | .vcmpLt _ _ _ _ _ => true
  | .vcmpLe _ _ _ _ _ => true
  | .vcmpGt _ _ _ _ _ => true
  | .vcmpGe _ _ _ _ _ => true
  | .vcmpUn _ _ _ _ _ => true
  | .vcmpEqI _ _ _ _ _ => true
  | .vcmpNeI _ _ _ _ _ => true
  | .vcmpLtI _ _ _ _ _ => true
  | .vcmpLeI _ _ _ _ _ => true
  | .vcmpGtI _ _ _ _ _ => true
  | .vcmpGeI _ _ _ _ _ => true
  | .vcmpEqN _ _ _ _ _ => true
  | .vcmpNeN _ _ _ _ _ => true
  | .vcmpLtN _ _ _ _ _ => true
  | .vcmpLeN _ _ _ _ _ => true
  | .vcmpGtN _ _ _ _ _ => true
  | .vcmpGeN _ _ _ _ _ => true
  | .vrsum _ _ _ _ => true
  | .vcsum _ _ _ _ => true
  | .vrmax _ _ _ _ => true
  | .vcmax _ _ _ _ => true
  | .vrmin _ _ _ _ => true
  | .vcmin _ _ _ _ => true
  | .vdot _ _ _ _ _ => true
  | .vtrn _ _ _ _ => true
  | .pand _ _ _ _ => true
  | .por _ _ _ _ => true
  | .pxor _ _ _ _ => true
  | .pandn _ _ _ _ => true
  | .pnot _ _ _ => true
  | .pfirst _ _ _ => true
  | .pcnt _ _ _ => true
  | .pset _ _ _ => true
  -- 07 R176: codes 0 to 6, to differs from from, part allowed by the widths where both are fixed
  | .vcvt _ _ q _ t f _ => vcvtPartOk t f q
  | .vpkBfp8 _ _ _ _ _ => true
  | .vupkBfp8 _ _ _ _ _ => true
  | .vpk _ _ _ _ => true
  | .vupk _ _ _ _ => true
  | .vbcast _ _ _ _ => true
  | .vins _ _ _ _ => true
  | .vext _ _ _ _ => true
  | .vperm _ _ _ _ _ => true
  | .vmov _ _ _ _ => true
  | .vsel _ _ _ _ _ => true
  | .vzero _ _ => true
  | .vrng _ _ _ _ _ => true
  | .vrngf _ _ _ _ _ => true
  -- 08 R183: LR at most log2(2048/w)
  | .vshape w l _ => decide (l.toNat ≤ 8 - w.toNat)
  | .vwin _ _ => true
  | .vfmov _ _ => true
  | .setfmt _ _ => true
  | .stfmt _ _ => true
  | .cp _ _ _ => true
  | .cpstat _ _ => true
  | .copyStart _ => false
  | .copyComplete _ => false
  | .pass _ _ => true
  | .passAck _ _ _ => true
  | .passr _ _ => true
  | .passrAck _ _ _ => true
  | .pebc _ _ => true
  | .pflr _ _ => true
  | .ptkt _ _ => true
  | .phld _ _ _ => true
  | .phldAck _ _ _ _ => true
  | .phst _ _ _ => true
  | .phstAck _ _ _ _ => true
  | .psel _ _ => true
  | .pselAck _ _ _ => true
  | .dcmp _ _ _ => true
  | .dcmpAck _ _ _ _ => true
  | .paletteLoadStart _ => false
  | .paletteLoadDone _ _ => false
  | .paletteStoreStart _ => false
  | .paletteStoreDone _ => false
  | .paletteSwitch _ _ => false
  | .decompStart _ => false
  | .decompDone _ _ => false
  | .xmm _ _ => true
  | .xmmAck _ _ _ => true
  | .xmmStrict _ _ => true
  | .xmmStrictAck _ _ _ => true
  | .xmmStart _ => false
  | .xmmComplete _ => false
  | .coll _ _ => true
  | .cstat _ _ _ => true
  | .migr _ _ => true
  | .spawn _ _ => true
  | .exit _ => true
  | .cancelG _ _ => true
  | .cancelGr _ _ => true
  | .cancelJ _ _ => true
  | .prmt _ _ _ => true
  | .gdep _ _ _ => true
  | .gcnt _ _ _ => true
  | .amoAdd _ _ _ _ _ => true
  | .amoAnd _ _ _ _ _ => true
  | .amoOr _ _ _ _ _ => true
  | .amoXor _ _ _ _ _ => true
  | .amoMin _ _ _ _ _ => true
  | .amoMax _ _ _ _ _ => true
  | .amoMinn _ _ _ _ _ => true
  | .amoMaxn _ _ _ _ _ => true
  | .amoSwap _ _ _ _ _ => true
  | .amoCas _ _ _ _ _ => true
  | .amoFadd _ _ _ _ => true
  | .redAdd _ _ _ _ => true
  | .redAnd _ _ _ _ => true
  | .redOr _ _ _ _ => true
  | .redXor _ _ _ _ => true
  | .redMin _ _ _ _ => true
  | .redMax _ _ _ _ => true
  | .redMinn _ _ _ _ => true
  | .redMaxn _ _ _ _ => true
  | .redFadd _ _ _ => true
  | .amoHomePerform _ _ => false
  | .lrw _ _ _ => true
  | .scr _ _ _ _ => true
  | .reservationGrant _ => false
  | .reservationTimeout _ => false
  | .lde _ _ _ => true
  | .stf _ _ _ => true
  | .ldew _ _ _ _ => true
  | .stfw _ _ _ _ => true
  | .feq _ _ _ => true
  | .give _ _ _ => true
  | .ownw _ _ => true
  | .bar _ => true
  | .fence _ _ => true
  | .rel _ _ => true
  | .acq _ _ _ => true
  | .orderingActionsDone _ => false
  | .msend _ _ => true
  | .mrecv _ => true
  | .mend _ => true
  | .varn _ _ => true
  | .srr _ _ _ => true
  | .srw _ _ _ => true
  | .srset _ _ _ => true
  | .srclr _ _ _ => true
  | .rtx _ => true
  | .sys _ => true
  | .brk _ => true
  | .clkm _ _ => true
  | .loadReturn _ _ => false
  | .storePerform _ _ => false
  | .translationWalkDone _ _ _ => false
  | .wcDrain _ _ => false
  | .sysregEffectDone _ => false
  | .tsinvPage _ _ => false
  | .tsinvPid _ => false
  | .tsinvAll => false
  | .elevatorRetire _ => false
  | .elevatorReissue _ => false
  | .passStart _ _ => false
  | .leaveGrant _ => false
  | .groupEntry _ => false
  | .groupOutput _ _ => false
  | .groupEmulate _ => false
  | .passEnd _ => false
  | .swatchInject _ _ _ _ _ => false
  | .thermalLoop _ _ _ => false
  | .debcEval _ _ => false
  | .otctlClr _ => false
  | .otctlClrEffect _ => false
  | .otctlCal _ => false
  | .calibEnter _ => false
  | .otctlOff _ _ => false
  | .tileCalibDone _ _ _ _ => false
  | .messageArrive _ => false
  | .antiMessageArrive _ => false
  | .msgfull _ => false
  | .rollback _ _ => false
  | .vpRound _ => false
  | .vpRoundAbandon _ => false
  | .fabricVpRound _ _ _ => false
  | .fabricVpRetry _ => false
  | .varnishPerform => false
  | .vjbsetWrite _ => false
  | .mpsetWrite _ => false
  | .itemHop _ => false
  | .ringRadiusGrow _ => false
  | .overflowPark _ => false
  | .pickup _ => false
  | .parkEvict _ => false
  | .deferredLaunch _ => false
  | .hostAddition => false
  | .cancelSweep => false
  | .cancelTrap _ => false
  | .cancelStopTimeout _ => false
  | .preemptWriteback _ => false
  | .prmto _ => false
  | .tilePin _ => false
  | .tileUnpin _ => false
  | .droopDetect _ _ => false
  | .governorAdjust _ _ => false
  | .junctionOvertemp => false
  | .xholdWrite _ => false
  | .xfatalWrite _ => false
  | .sresumeWrite _ => false
  | .ftsetWrite _ => false
  | .dumpsetWrite _ => false
  | .dumpSequence => false
  | .compatEngineReset => false
  | .dbgstopStop _ => false
  | .dbgstopFree _ _ => false
  | .profctlWrite _ _ => false
  | .profileCounterClear _ _ => false
  | .evpopRead _ _ => false
  | .registerWrite _ _ => false
  | .coldReset => false
  | .warmReset => false
  | .bootSequence _ _ _ _ _ => false
  | .aperturesOpen => false
  | .timeadjWrite _ => false
  | .fabcfgWrite _ => false
  | .linkTrainDone _ _ _ => false
  | .keyctlGenerate _ => false
  | .keyctlErase _ => false
  | .keyctlDone => false
  | .windowRead _ _ => false
  | .windowWrite _ _ => false
  | .launchRecordWrite _ _ _ => false
  | .serviceLaunch _ => false
  | .qctlWrite _ _ => false
  | .qctlTear _ => false
  | .attest => false
  | .ident => false
  | .fwwrite => false
  | .mailboxCommandDone _ => false
  | .scanStart _ => false
  | .scanDrainTimeout => false
  | .scanAbort _ => false
  | .scanPatternDone _ => false
  | .laserSwitchover => false
  | .laserSwitchoverDone => false
  | .laserRequest _ => false
  | .laserTransitionDone => false
  | .laserWake => false
  | .lctlRetrain _ => false
  | .lctlEnable _ _ => false
  | .laneFailingReport _ _ => false
  | .narrowNegotiateDone _ => false
  | .laneHealthUpdate _ _ _ _ _ _ _ => false
  | .laneRecover _ _ => false
  | .lutilWindow _ => false
  | .groupReceive _ _ => false
  | .nakReceive _ _ => false
  | .linkRecordReceive _ => false
  | .tableAgree _ => false
  | .remoteRequestArrive _ => false
  | .remoteReplyArrive _ _ _ => false
  | .remoteReissue _ => false
  | .requestAgeDiscard _ => false
  | .replyCacheRetry _ => false
  | .migrationArrive _ => false
  | .migrationAck _ => false
  | .migrationRefused _ _ => false
  | .collStart _ => false
  | .collJoined _ _ => false
  | .chunkReceive _ _ => false
  | .chunkAckReceive _ _ _ _ => false
  | .completionWave _ => false
  | .collRestart _ _ => false
  | .idleRound _ _ => false
  | .illegalInstruction _ => false
  | .fetchFault _ _ => false
  | .prefetchFill _ => false
  | .replyCacheExpiry _ _ => false
  | .softError _ _ _ _ => false

end Sys2Proof
end

