-- ==== Sys2Proof/Decode.lean ====
section
/-!
DEFINITION. The decoder, total on any bytes, and the encoder after it (02 R25 to R35, R48, R49).

A word is split into the fields of its major opcode's one format; a function code, a reserved field or a range that
the map does not allow is refused by name. The encoder lays the same fields out again.
-/

namespace Sys2Proof

/-- Why bytes are no instruction (02 R35). -/
inductive DecodeError where
  /-- Fewer bytes than a word. -/
  | short
  /-- The all-zero word. -/
  | zword
  /-- Unassigned or reserved. -/
  | illop
  /-- A carrier whose literal is missing. -/
  | noLiteral
  deriving DecidableEq, Repr

/-! ## Words of the formats (02 R27), fields from the most significant -/

/-- RR. -/
def packRr (op : BitVec 6) (d : BitVec 5) (a : BitVec 5) (b : BitVec 5) (fn : BitVec 9) (h : BitVec 2) : BitVec 32 :=
  op ++ d ++ a ++ b ++ fn ++ h

/-- RR with fn9 split as rounding and function (03 R62). -/
def packRrR (op : BitVec 6) (d : BitVec 5) (a : BitVec 5) (b : BitVec 5) (r : BitVec 2) (fn : BitVec 7) (h : BitVec 2) : BitVec 32 :=
  op ++ d ++ a ++ b ++ r ++ fn ++ h

/-- RR with fn9 split as width bit and function (06 R139). -/
def packRrW (op : BitVec 6) (d : BitVec 5) (a : BitVec 5) (b : BitVec 5) (w : BitVec 1) (fn : BitVec 8) (h : BitVec 2) : BitVec 32 :=
  op ++ d ++ a ++ b ++ w ++ fn ++ h

/-- RR with fn9 split as reserved bits, class mask, kind and scope (05 R117). -/
def packRrO (op : BitVec 6) (d : BitVec 5) (a : BitVec 5) (b : BitVec 5) (x : BitVec 2) (m : BitVec 2) (fn : BitVec 2) (sc : BitVec 3) (h : BitVec 2) : BitVec 32 :=
  op ++ d ++ a ++ b ++ x ++ m ++ fn ++ sc ++ h

/-- RI. -/
def packRi (op : BitVec 6) (d : BitVec 5) (a : BitVec 5) (imm : BitVec 14) (h : BitVec 2) : BitVec 32 :=
  op ++ d ++ a ++ imm ++ h

/-- RI with imm14 split as fn6 and k index (03 R69). -/
def packRiK (op : BitVec 6) (d : BitVec 5) (a : BitVec 5) (fn : BitVec 6) (k : BitVec 8) (h : BitVec 2) : BitVec 32 :=
  op ++ d ++ a ++ fn ++ k ++ h

/-- RI with imm14 split as width, log2 rows and reserved bits (08 R183). -/
def packRiS (op : BitVec 6) (d : BitVec 5) (a : BitVec 5) (w : BitVec 2) (l : BitVec 4) (x : BitVec 8) (h : BitVec 2) : BitVec 32 :=
  op ++ d ++ a ++ w ++ l ++ x ++ h

/-- RI with imm14 split as reserved bits and bank (08 R184). -/
def packRiB (op : BitVec 6) (d : BitVec 5) (a : BitVec 5) (x : BitVec 12) (b : BitVec 2) (h : BitVec 2) : BitVec 32 :=
  op ++ d ++ a ++ x ++ b ++ h

/-- FI. -/
def packFi (op : BitVec 6) (d : BitVec 5) (imm : BitVec 20) (x : BitVec 1) : BitVec 32 :=
  op ++ d ++ imm ++ x

/-- CB. -/
def packCb (op : BitVec 6) (fn : BitVec 5) (a : BitVec 5) (imm : BitVec 14) (h : BitVec 2) : BitVec 32 :=
  op ++ fn ++ a ++ imm ++ h

/-- LB. -/
def packLb (op : BitVec 6) (l : BitVec 5) (imm : BitVec 19) (h : BitVec 2) : BitVec 32 :=
  op ++ l ++ imm ++ h

/-- MM. -/
def packMm (op : BitVec 6) (d : BitVec 5) (b : BitVec 5) (o : BitVec 11) (z : BitVec 2) (r : BitVec 1) (h : BitVec 2) : BitVec 32 :=
  op ++ d ++ b ++ o ++ z ++ r ++ h

/-- VV. -/
def packVv (op : BitVec 6) (v : BitVec 5) (a : BitVec 5) (b : BitVec 5) (p : BitVec 3) (fn : BitVec 6) (h : BitVec 2) : BitVec 32 :=
  op ++ v ++ a ++ b ++ p ++ fn ++ h

/-- VV with fn6 split as rounding and function (08 R189). -/
def packVvR (op : BitVec 6) (v : BitVec 5) (a : BitVec 5) (b : BitVec 5) (p : BitVec 3) (r : BitVec 2) (fn : BitVec 4) (h : BitVec 2) : BitVec 32 :=
  op ++ v ++ a ++ b ++ p ++ r ++ fn ++ h

/-- VV with fn6 split as relaxed, non-temporal and function (04 R102). -/
def packVvM (op : BitVec 6) (v : BitVec 5) (a : BitVec 5) (b : BitVec 5) (p : BitVec 3) (r : BitVec 1) (t : BitVec 1) (fn : BitVec 4) (h : BitVec 2) : BitVec 32 :=
  op ++ v ++ a ++ b ++ p ++ r ++ t ++ fn ++ h

/-- VV with fn6 split as to and from (07 R176). -/
def packVvC (op : BitVec 6) (v : BitVec 5) (a : BitVec 5) (b : BitVec 5) (p : BitVec 3) (t : BitVec 3) (f : BitVec 3) (h : BitVec 2) : BitVec 32 :=
  op ++ v ++ a ++ b ++ p ++ t ++ f ++ h

/-- EC, the function code with its reply bit. -/
def packEc (op : BitVec 6) (d : BitVec 5) (a : BitVec 5) (b : BitVec 5) (fn : BitVec 8) (x : BitVec 1) (h : BitVec 2) : BitVec 32 :=
  op ++ d ++ a ++ b ++ fn ++ x ++ h

/-- SY. -/
def packSy (op : BitVec 6) (d : BitVec 5) (a : BitVec 5) (sr : BitVec 12) (fn : BitVec 2) (h : BitVec 2) : BitVec 32 :=
  op ++ d ++ a ++ sr ++ fn ++ h

/-! ## One function a major opcode -/

/-- Major opcode 0x01. -/
noncomputable def decode01 (d : BitVec 5) (a : BitVec 5) (b : BitVec 5) (fn : BitVec 9) (h : BitVec 2) : Option Instr :=
  match fn.toNat with
  | 0x00 => some (.add d a b h)
  | 0x01 => some (.sub d a b h)
  | 0x02 => some (.and d a b h)
  | 0x03 => some (.or d a b h)
  | 0x04 => some (.xor d a b h)
  | 0x05 => some (.andn d a b h)
  | 0x06 => some (.orn d a b h)
  | 0x07 => some (.xnor d a b h)
  | 0x08 => some (.sll d a b h)
  | 0x09 => some (.srl d a b h)
  | 0x0A => some (.sra d a b h)
  | 0x0B => some (.rol d a b h)
  | 0x10 => some (.mul d a b h)
  | 0x11 => some (.mulh d a b h)
  | 0x12 => some (.mulhn d a b h)
  | 0x13 => some (.div d a b h)
  | 0x14 => some (.divn d a b h)
  | 0x15 => some (.rem d a b h)
  | 0x16 => some (.remn d a b h)
  | 0x18 => some (.min d a b h)
  | 0x19 => some (.max d a b h)
  | 0x1A => some (.minn d a b h)
  | 0x1B => some (.maxn d a b h)
  | 0x20 => some (.adds d a b h)
  | 0x21 => some (.subs d a b h)
  | 0x22 => some (.addsn d a b h)
  | 0x23 => some (.subsn d a b h)
  | 0x28 => if b = 0 then some (.clz d a h) else none
  | 0x29 => if b = 0 then some (.ctz d a h) else none
  | 0x2A => if b = 0 then some (.popc d a h) else none
  | 0x2B => if b = 0 then some (.brev d a h) else none
  | 0x2C => if b = 0 then some (.bswap d a h) else none
  | 0x30 => if b = 0 then some (.sextB d a h) else none
  | 0x31 => if b = 0 then some (.sextH d a h) else none
  | 0x32 => if b = 0 then some (.sextW d a h) else none
  | 0x33 => if b = 0 then some (.zextB d a h) else none
  | 0x34 => if b = 0 then some (.zextH d a h) else none
  | 0x35 => if b = 0 then some (.zextW d a h) else none
  | 0x38 => some (.cmpEq d a b h)
  | 0x39 => some (.cmpNe d a b h)
  | 0x3A => some (.cmpLt d a b h)
  | 0x3B => some (.cmpGe d a b h)
  | 0x3C => some (.cmpLtn d a b h)
  | 0x3D => some (.cmpGen d a b h)
  | 0x3E => some (.sel d a b h)
  | 0x60 => some (.sllImm d a b 0 h)
  | 0x61 => some (.sllImm d a b 1 h)
  | 0x62 => some (.srlImm d a b 0 h)
  | 0x63 => some (.srlImm d a b 1 h)
  | 0x64 => some (.sraImm d a b 0 h)
  | 0x65 => some (.sraImm d a b 1 h)
  | 0x66 => some (.rolImm d a b 0 h)
  | 0x67 => some (.rolImm d a b 1 h)
  | 0x80 => some (.addW d a b h)
  | 0x81 => some (.subW d a b h)
  | 0x88 => some (.sllW d a b h)
  | 0x89 => some (.srlW d a b h)
  | 0x8A => some (.sraW d a b h)
  | 0x8B => some (.rolW d a b h)
  | 0x90 => some (.mulW d a b h)
  | 0x93 => some (.divW d a b h)
  | 0x94 => some (.divnW d a b h)
  | 0x95 => some (.remW d a b h)
  | 0x96 => some (.remnW d a b h)
  | 0xE0 => some (.sllWImm d a b h)
  | 0xE2 => some (.srlWImm d a b h)
  | 0xE4 => some (.sraWImm d a b h)
  | 0xE6 => some (.rolWImm d a b h)
  | _ => none

/-- Major opcode 0x02. -/
noncomputable def decode02 (d : BitVec 5) (a : BitVec 5) (imm : BitVec 14) (h : BitVec 2) : Option Instr :=
  some (.addImm d a imm h)

/-- Major opcode 0x03. -/
noncomputable def decode03 (d : BitVec 5) (a : BitVec 5) (imm : BitVec 14) (h : BitVec 2) : Option Instr :=
  some (.andImm d a imm h)

/-- Major opcode 0x04. -/
noncomputable def decode04 (d : BitVec 5) (a : BitVec 5) (imm : BitVec 14) (h : BitVec 2) : Option Instr :=
  some (.orImm d a imm h)

/-- Major opcode 0x05. -/
noncomputable def decode05 (d : BitVec 5) (a : BitVec 5) (imm : BitVec 14) (h : BitVec 2) : Option Instr :=
  some (.xorImm d a imm h)

/-- Major opcode 0x06. -/
noncomputable def decode06 (d : BitVec 5) (a : BitVec 5) (imm : BitVec 14) (h : BitVec 2) : Option Instr :=
  some (.cmpLtImm d a imm h)

/-- Major opcode 0x07. -/
noncomputable def decode07 (d : BitVec 5) (a : BitVec 5) (imm : BitVec 14) (h : BitVec 2) : Option Instr :=
  some (.cmpLtnImm d a imm h)

/-- Major opcode 0x08. -/
noncomputable def decode08 (d : BitVec 5) (a : BitVec 5) (b : BitVec 5) (r : BitVec 2) (fn : BitVec 7) (h : BitVec 2) : Option Instr :=
  match fn.toNat with
  | 0x00 => some (.fadd d a b r h)
  | 0x01 => some (.fsub d a b r h)
  | 0x02 => some (.fmul d a b r h)
  | 0x03 => some (.fdiv d a b r h)
  | 0x04 => some (.fma d a b r h)
  | 0x05 => some (.fnma d a b r h)
  | 0x06 => if b = 0 then some (.fsqrt d a r h) else none
  | 0x08 => if r = 0 then some (.fmin d a b h) else none
  | 0x09 => if r = 0 then some (.fmax d a b h) else none
  | 0x0A => if b = 0 ∧ r = 0 then some (.fabs d a h) else none
  | 0x0B => if b = 0 ∧ r = 0 then some (.fneg d a h) else none
  | 0x10 => if r = 0 then some (.fcmpEq d a b h) else none
  | 0x11 => if r = 0 then some (.fcmpLt d a b h) else none
  | 0x12 => if r = 0 then some (.fcmpLe d a b h) else none
  | 0x13 => if r = 0 then some (.fcmpUn d a b h) else none
  | 0x20 => if b = 0 then some (.fcvtI32F d a r h) else none
  | 0x21 => if b = 0 then some (.fcvtI64F d a r h) else none
  | 0x22 => if b = 0 then some (.fcvtN32F d a r h) else none
  | 0x23 => if b = 0 then some (.fcvtN64F d a r h) else none
  | 0x24 => if b = 0 then some (.fcvtFI32 d a r h) else none
  | 0x25 => if b = 0 then some (.fcvtFI64 d a r h) else none
  | 0x26 => if b = 0 then some (.fcvtFN32 d a r h) else none
  | 0x27 => if b = 0 then some (.fcvtFN64 d a r h) else none
  | _ => none

/-- Major opcode 0x09. -/
noncomputable def decode09 (d : BitVec 5) (imm : BitVec 20) (x : BitVec 1) : Option Instr :=
  if x = 0 then some (.fmov d imm) else none

/-- Major opcode 0x0A. -/
noncomputable def decode0A (d : BitVec 5) (a : BitVec 5) (fn : BitVec 6) (k : BitVec 8) (h : BitVec 2) : Option Instr :=
  match fn.toNat with
  | 0x00 => some (.faddK d a k h)
  | 0x01 => some (.fsubK d a k h)
  | 0x02 => some (.fmulK d a k h)
  | 0x03 => some (.fmaK d a k h)
  | 0x04 => some (.fnmaK d a k h)
  | 0x05 => some (.fminK d a k h)
  | 0x06 => some (.fmaxK d a k h)
  | 0x07 => if a = 0 then some (.fmovK d k h) else none
  | 0x10 => some (.addK d a k h)
  | 0x11 => some (.andK d a k h)
  | 0x12 => some (.orK d a k h)
  | 0x13 => some (.xorK d a k h)
  | 0x14 => if a = 0 then some (.movK d k h) else none
  | 0x15 => if a = 0 then some (.movnK d k h) else none
  | 0x16 => some (.cmpEqK d a k h)
  | 0x17 => some (.cmpLtK d a k h)
  | _ => none

/-- Major opcode 0x0E. -/
noncomputable def decode0E (d : BitVec 5) (a : BitVec 5) (fn : BitVec 6) (k : BitVec 8) (h : BitVec 2) (lit : BitVec 32) : Option Instr :=
  match fn.toNat with
  | 0x00 => if k = 0 then some (.faddLit d a lit h) else none
  | 0x01 => if k = 0 then some (.fsubLit d a lit h) else none
  | 0x02 => if k = 0 then some (.fmulLit d a lit h) else none
  | 0x03 => if k = 0 then some (.fmaLit d a lit h) else none
  | 0x04 => if k = 0 then some (.fnmaLit d a lit h) else none
  | 0x05 => if k = 0 then some (.fminLit d a lit h) else none
  | 0x06 => if k = 0 then some (.fmaxLit d a lit h) else none
  | 0x07 => if a = 0 ∧ k = 0 then some (.fmovLit d lit h) else none
  | 0x10 => if k = 0 then some (.addLit d a lit h) else none
  | 0x11 => if k = 0 then some (.andLit d a lit h) else none
  | 0x12 => if k = 0 then some (.orLit d a lit h) else none
  | 0x13 => if k = 0 then some (.xorLit d a lit h) else none
  | 0x14 => if a = 0 ∧ k = 0 then some (.movLit d lit h) else none
  | 0x15 => if a = 0 ∧ k = 0 then some (.movnLit d lit h) else none
  | 0x16 => if k = 0 then some (.cmpEqLit d a lit h) else none
  | 0x17 => if k = 0 then some (.cmpLtLit d a lit h) else none
  | _ => none

/-- Major opcode 0x10. -/
noncomputable def decode10 (fn : BitVec 5) (a : BitVec 5) (imm : BitVec 14) (h : BitVec 2) : Option Instr :=
  match fn.toNat with
  | 0x00 => some (.beqz a imm h)
  | 0x01 => some (.bnez a imm h)
  | 0x02 => some (.bltz a imm h)
  | 0x03 => some (.bgez a imm h)
  | 0x04 => some (.bgtz a imm h)
  | 0x05 => some (.blez a imm h)
  | 0x10 => if a.toNat < 8 then some (.bany (a.setWidth 3) imm h) else none
  | 0x11 => if a.toNat < 8 then some (.ball (a.setWidth 3) imm h) else none
  | 0x12 => if a.toNat < 8 then some (.bnone (a.setWidth 3) imm h) else none
  | _ => none

/-- Major opcode 0x11. -/
noncomputable def decode11 (l : BitVec 5) (imm : BitVec 19) (h : BitVec 2) : Option Instr :=
  if l = 0 then some (.j imm h) else none

/-- Major opcode 0x12. -/
noncomputable def decode12 (l : BitVec 5) (imm : BitVec 19) (h : BitVec 2) : Option Instr :=
  some (.call l imm h)

/-- Major opcode 0x13. -/
noncomputable def decode13 (d : BitVec 5) (a : BitVec 5) (b : BitVec 5) (fn : BitVec 9) (h : BitVec 2) : Option Instr :=
  match fn.toNat with
  | 0x00 => if d = 0 ∧ b = 0 then some (.jr a h) else none
  | 0x01 => if b = 0 then some (.callr d a h) else none
  | _ => none

/-- Major opcode 0x14. -/
noncomputable def decode14 (d : BitVec 5) (a : BitVec 5) (imm : BitVec 14) (h : BitVec 2) : Option Instr :=
  if (d.toNat ≤ 2 ∧ 1 ≤ imm.toNat ∧ imm.toNat ≤ 256) then some (.loop d a imm h) else none

/-- Major opcode 0x15. -/
noncomputable def decode15 (d : BitVec 5) (a : BitVec 5) (imm : BitVec 14) (h : BitVec 2) : Option Instr :=
  if (d.toNat ≤ 2 ∧ 1 ≤ imm.toNat ∧ imm.toNat ≤ 256) then some (.loopi d a imm h) else none

/-- Major opcode 0x16. -/
noncomputable def decode16 (d : BitVec 5) (a : BitVec 5) (b : BitVec 5) (fn : BitVec 9) (h : BitVec 2) : Option Instr :=
  match fn.toNat with
  | 0x00 => if d = 0 ∧ a = 0 ∧ b = 0 then some (.nop h) else none
  | _ => none

/-- Major opcode 0x18. -/
noncomputable def decode18 (d : BitVec 5) (b : BitVec 5) (o : BitVec 11) (z : BitVec 2) (r : BitVec 1) (h : BitVec 2) : Option Instr :=
  if r = 0 then some (.ldL d b o z h) else none

/-- Major opcode 0x19. -/
noncomputable def decode19 (d : BitVec 5) (b : BitVec 5) (o : BitVec 11) (z : BitVec 2) (r : BitVec 1) (h : BitVec 2) : Option Instr :=
  if r = 0 then some (.stL d b o z h) else none

/-- Major opcode 0x1A. -/
noncomputable def decode1A (d : BitVec 5) (b : BitVec 5) (o : BitVec 11) (z : BitVec 2) (r : BitVec 1) (h : BitVec 2) : Option Instr :=
  some (.ldS d b o z r h)

/-- Major opcode 0x1B. -/
noncomputable def decode1B (d : BitVec 5) (b : BitVec 5) (o : BitVec 11) (z : BitVec 2) (r : BitVec 1) (h : BitVec 2) : Option Instr :=
  some (.stS d b o z r h)

/-- Major opcode 0x1C. -/
noncomputable def decode1C (d : BitVec 5) (b : BitVec 5) (o : BitVec 11) (z : BitVec 2) (r : BitVec 1) (h : BitVec 2) : Option Instr :=
  some (.ldG d b o z r h)

/-- Major opcode 0x1D. -/
noncomputable def decode1D (d : BitVec 5) (b : BitVec 5) (o : BitVec 11) (z : BitVec 2) (r : BitVec 1) (h : BitVec 2) : Option Instr :=
  some (.stG d b o z r h)

/-- Major opcode 0x1E. -/
noncomputable def decode1E (v : BitVec 5) (a : BitVec 5) (b : BitVec 5) (p : BitVec 3) (r : BitVec 1) (t : BitVec 1) (fn : BitVec 4) (h : BitVec 2) : Option Instr :=
  match fn.toNat with
  | 0x00 => if r = 0 ∧ t = 0 then some (.vldL v a b p h) else none
  | 0x01 => if r = 0 ∧ t = 0 then some (.vstL v a b p h) else none
  | 0x02 => if t = 0 then some (.vldS v a b p r h) else none
  | 0x03 => if t = 0 then some (.vstS v a b p r h) else none
  | 0x04 => if t = 0 then some (.vldG v a b p r h) else none
  | 0x05 => some (.vstG v a b p r t h)
  | 0x08 => if t = 0 then some (.vgthS v a b p r h) else none
  | 0x09 => if t = 0 then some (.vsctS v a b p r h) else none
  | 0x0A => if t = 0 then some (.vgthG v a b p r h) else none
  | 0x0B => some (.vsctG v a b p r t h)
  | _ => none

/-- Major opcode 0x1F. -/
noncomputable def decode1F (d : BitVec 5) (a : BitVec 5) (b : BitVec 5) (fn : BitVec 9) (h : BitVec 2) : Option Instr :=
  match fn.toNat with
  | 0x00 => if d = 0 then some (.pfG a b h) else none
  | 0x08 => if d = 0 ∧ b = 0 then some (.cwb a h) else none
  | 0x09 => if d = 0 ∧ b = 0 then some (.cinv a h) else none
  | 0x0A => if d = 0 ∧ b = 0 then some (.cwbi a h) else none
  | 0x10 => if d = 0 then some (.bankcfg a b h) else none
  | 0x20 => if d = 0 then some (.stGBNt a b h) else none
  | 0x21 => if d = 0 then some (.stGHNt a b h) else none
  | 0x22 => if d = 0 then some (.stGWNt a b h) else none
  | 0x23 => if d = 0 then some (.stGDNt a b h) else none
  | _ => none

/-- Major opcode 0x20. -/
noncomputable def decode20 (v : BitVec 5) (a : BitVec 5) (b : BitVec 5) (p : BitVec 3) (r : BitVec 2) (fn : BitVec 4) (h : BitVec 2) : Option Instr :=
  match fn.toNat with
  | 0x00 => some (.vadd v a b p r h)
  | 0x01 => some (.vsub v a b p r h)
  | 0x02 => some (.vmul v a b p r h)
  | 0x03 => some (.vfma v a b p r h)
  | 0x04 => some (.vfnma v a b p r h)
  | 0x05 => if r = 0 then some (.vmin v a b p h) else none
  | 0x06 => if r = 0 then some (.vmax v a b p h) else none
  | 0x07 => if b = 0 ∧ r = 0 then some (.vabs v a p h) else none
  | 0x08 => if b = 0 ∧ r = 0 then some (.vneg v a p h) else none
  | 0x09 => some (.vdiv v a b p r h)
  | 0x0A => if b = 0 then some (.vsqrt v a p r h) else none
  | 0x0B => if b = 0 ∧ r = 0 then some (.vrcp v a p h) else none
  | 0x0C => if b = 0 ∧ r = 0 then some (.vrsqrt v a p h) else none
  | 0x0D => if b = 0 ∧ r = 0 then some (.vexp2 v a p h) else none
  | 0x0E => if b = 0 ∧ r = 0 then some (.vlog2 v a p h) else none
  | 0x0F => some (.vscale v a b p r h)
  | _ => none

/-- Major opcode 0x21. -/
noncomputable def decode21 (v : BitVec 5) (a : BitVec 5) (b : BitVec 5) (p : BitVec 3) (fn : BitVec 6) (h : BitVec 2) : Option Instr :=
  match fn.toNat with
  | 0x00 => some (.vaddI v a b p h)
  | 0x01 => some (.vsubI v a b p h)
  | 0x02 => some (.vmulI v a b p h)
  | 0x03 => some (.vmlaI v a b p h)
  | 0x04 => some (.vminI v a b p h)
  | 0x14 => some (.vminN v a b p h)
  | 0x05 => some (.vmaxI v a b p h)
  | 0x15 => some (.vmaxN v a b p h)
  | 0x06 => some (.vandI v a b p h)
  | 0x07 => some (.vorI v a b p h)
  | 0x08 => some (.vxorI v a b p h)
  | 0x09 => some (.vsllI v a b p h)
  | 0x0A => some (.vsrlI v a b p h)
  | 0x0B => some (.vsraI v a b p h)
  | 0x0C => some (.vaddsI v a b p h)
  | 0x1C => some (.vaddsN v a b p h)
  | 0x0D => some (.vsubsI v a b p h)
  | 0x1D => some (.vsubsN v a b p h)
  | 0x0E => if b = 0 then some (.vabsI v a p h) else none
  | 0x0F => some (.vmulhI v a b p h)
  | 0x1F => some (.vmulhN v a b p h)
  | _ => none

/-- Major opcode 0x22. -/
noncomputable def decode22 (v : BitVec 5) (a : BitVec 5) (b : BitVec 5) (p : BitVec 3) (fn : BitVec 6) (h : BitVec 2) : Option Instr :=
  match fn.toNat with
  | 0x00 => if v.toNat < 8 then some (.vcmpEq (v.setWidth 3) a b p h) else none
  | 0x01 => if v.toNat < 8 then some (.vcmpNe (v.setWidth 3) a b p h) else none
  | 0x02 => if v.toNat < 8 then some (.vcmpLt (v.setWidth 3) a b p h) else none
  | 0x03 => if v.toNat < 8 then some (.vcmpLe (v.setWidth 3) a b p h) else none
  | 0x04 => if v.toNat < 8 then some (.vcmpGt (v.setWidth 3) a b p h) else none
  | 0x05 => if v.toNat < 8 then some (.vcmpGe (v.setWidth 3) a b p h) else none
  | 0x06 => if v.toNat < 8 then some (.vcmpUn (v.setWidth 3) a b p h) else none
  | 0x20 => if v.toNat < 8 then some (.vcmpEqI (v.setWidth 3) a b p h) else none
  | 0x21 => if v.toNat < 8 then some (.vcmpNeI (v.setWidth 3) a b p h) else none
  | 0x22 => if v.toNat < 8 then some (.vcmpLtI (v.setWidth 3) a b p h) else none
  | 0x23 => if v.toNat < 8 then some (.vcmpLeI (v.setWidth 3) a b p h) else none
  | 0x24 => if v.toNat < 8 then some (.vcmpGtI (v.setWidth 3) a b p h) else none
  | 0x25 => if v.toNat < 8 then some (.vcmpGeI (v.setWidth 3) a b p h) else none
  | 0x30 => if v.toNat < 8 then some (.vcmpEqN (v.setWidth 3) a b p h) else none
  | 0x31 => if v.toNat < 8 then some (.vcmpNeN (v.setWidth 3) a b p h) else none
  | 0x32 => if v.toNat < 8 then some (.vcmpLtN (v.setWidth 3) a b p h) else none
  | 0x33 => if v.toNat < 8 then some (.vcmpLeN (v.setWidth 3) a b p h) else none
  | 0x34 => if v.toNat < 8 then some (.vcmpGtN (v.setWidth 3) a b p h) else none
  | 0x35 => if v.toNat < 8 then some (.vcmpGeN (v.setWidth 3) a b p h) else none
  | _ => none

/-- Major opcode 0x23. -/
noncomputable def decode23 (v : BitVec 5) (a : BitVec 5) (b : BitVec 5) (p : BitVec 3) (fn : BitVec 6) (h : BitVec 2) : Option Instr :=
  match fn.toNat with
  | 0x00 => if b = 0 then some (.vrsum v a p h) else none
  | 0x01 => if b = 0 then some (.vcsum v a p h) else none
  | 0x02 => if b = 0 then some (.vrmax v a p h) else none
  | 0x03 => if b = 0 then some (.vcmax v a p h) else none
  | 0x04 => if b = 0 then some (.vrmin v a p h) else none
  | 0x05 => if b = 0 then some (.vcmin v a p h) else none
  | 0x06 => some (.vdot v a b p h)
  | 0x08 => if b = 0 then some (.vtrn v a p h) else none
  | _ => none

/-- Major opcode 0x24. -/
noncomputable def decode24 (v : BitVec 5) (a : BitVec 5) (b : BitVec 5) (p : BitVec 3) (fn : BitVec 6) (h : BitVec 2) : Option Instr :=
  match fn.toNat with
  | 0x00 => if v.toNat < 8 ∧ a.toNat < 8 ∧ b.toNat < 8 ∧ p = 0 then some (.pand (v.setWidth 3) (a.setWidth 3) (b.setWidth 3) h) else none
  | 0x01 => if v.toNat < 8 ∧ a.toNat < 8 ∧ b.toNat < 8 ∧ p = 0 then some (.por (v.setWidth 3) (a.setWidth 3) (b.setWidth 3) h) else none
  | 0x02 => if v.toNat < 8 ∧ a.toNat < 8 ∧ b.toNat < 8 ∧ p = 0 then some (.pxor (v.setWidth 3) (a.setWidth 3) (b.setWidth 3) h) else none
  | 0x03 => if v.toNat < 8 ∧ a.toNat < 8 ∧ b.toNat < 8 ∧ p = 0 then some (.pandn (v.setWidth 3) (a.setWidth 3) (b.setWidth 3) h) else none
  | 0x04 => if v.toNat < 8 ∧ a.toNat < 8 ∧ b = 0 ∧ p = 0 then some (.pnot (v.setWidth 3) (a.setWidth 3) h) else none
  | 0x08 => if v.toNat < 8 ∧ a.toNat < 8 ∧ b = 0 ∧ p = 0 then some (.pfirst (v.setWidth 3) (a.setWidth 3) h) else none
  | 0x09 => if a.toNat < 8 ∧ b = 0 ∧ p = 0 then some (.pcnt v (a.setWidth 3) h) else none
  | 0x0A => if v.toNat < 8 ∧ b = 0 ∧ p = 0 then some (.pset (v.setWidth 3) a h) else none
  | _ => none

/-- Major opcode 0x25. -/
noncomputable def decode25 (v : BitVec 5) (a : BitVec 5) (b : BitVec 5) (p : BitVec 3) (t : BitVec 3) (f : BitVec 3) (h : BitVec 2) : Option Instr :=
  if b.toNat < 4 ∧ vcvtPartOk t f (b.setWidth 2) = true then some (.vcvt v a (b.setWidth 2) p t f h) else none

/-- Major opcode 0x26. -/
noncomputable def decode26 (v : BitVec 5) (a : BitVec 5) (b : BitVec 5) (p : BitVec 3) (fn : BitVec 6) (h : BitVec 2) : Option Instr :=
  match fn.toNat with
  | 0x00 => if p.toNat < 4 then some (.vpkBfp8 v a b (p.setWidth 2) h) else none
  | 0x01 => if p.toNat < 4 then some (.vupkBfp8 v a b (p.setWidth 2) h) else none
  | 0x02 => if p = 0 then some (.vpk v a b h) else none
  | 0x03 => if b.toNat < 2 ∧ p = 0 then some (.vupk v a (b.setWidth 1) h) else none
  | 0x04 => if b = 0 then some (.vbcast v a p h) else none
  | 0x05 => if p = 0 then some (.vins v a b h) else none
  | 0x06 => if p = 0 then some (.vext v a b h) else none
  | 0x07 => some (.vperm v a b p h)
  | _ => none

/-- Major opcode 0x27. -/
noncomputable def decode27 (v : BitVec 5) (a : BitVec 5) (b : BitVec 5) (p : BitVec 3) (fn : BitVec 6) (h : BitVec 2) : Option Instr :=
  match fn.toNat with
  | 0x00 => if b = 0 then some (.vmov v a p h) else none
  | 0x01 => some (.vsel v a b p h)
  | 0x02 => if a = 0 ∧ b = 0 ∧ p = 0 then some (.vzero v h) else none
  | _ => none

/-- Major opcode 0x28. -/
noncomputable def decode28 (v : BitVec 5) (a : BitVec 5) (b : BitVec 5) (p : BitVec 3) (fn : BitVec 6) (h : BitVec 2) : Option Instr :=
  match fn.toNat with
  | 0x00 => some (.vrng v a b p h)
  | 0x01 => some (.vrngf v a b p h)
  | _ => none

/-- Major opcode 0x29. -/
noncomputable def decode29 (d : BitVec 5) (a : BitVec 5) (w : BitVec 2) (l : BitVec 4) (x : BitVec 8) (h : BitVec 2) : Option Instr :=
  if d = 0 ∧ a = 0 ∧ x = 0 ∧ (l.toNat ≤ 8 - w.toNat) then some (.vshape w l h) else none

/-- Major opcode 0x2A. -/
noncomputable def decode2A (d : BitVec 5) (a : BitVec 5) (x : BitVec 12) (b : BitVec 2) (h : BitVec 2) : Option Instr :=
  if d = 0 ∧ a = 0 ∧ x = 0 then some (.vwin b h) else none

/-- Major opcode 0x2B. -/
noncomputable def decode2B (d : BitVec 5) (imm : BitVec 20) (x : BitVec 1) : Option Instr :=
  if x = 0 then some (.vfmov d imm) else none

/-- Major opcode 0x2C. -/
noncomputable def decode2C (d : BitVec 5) (a : BitVec 5) (b : BitVec 5) (fn : BitVec 9) (h : BitVec 2) : Option Instr :=
  match fn.toNat with
  | 0x00 => if d = 0 ∧ b = 0 then some (.setfmt a h) else none
  | 0x01 => if d = 0 ∧ b = 0 then some (.stfmt a h) else none
  | _ => none

/-- Major opcode 0x30. -/
noncomputable def decode30 (d : BitVec 5) (a : BitVec 5) (b : BitVec 5) (fn : BitVec 8) (x : BitVec 1) (h : BitVec 2) : Option Instr :=
  match fn.toNat with
  | 0x00 => if d = 0 ∧ x = 0 then some (.cp a b h) else none
  | 0x03 => if a = 0 ∧ b = 0 ∧ x = 0 then some (.cpstat d h) else none
  | _ => none

/-- Major opcode 0x31. -/
noncomputable def decode31 (d : BitVec 5) (a : BitVec 5) (b : BitVec 5) (fn : BitVec 8) (x : BitVec 1) (h : BitVec 2) : Option Instr :=
  match fn.toNat with
  | 0x00 => if d = 0 ∧ b = 0 ∧ x = 0 then some (.pass a h) else none
  | 0x01 => if b = 0 ∧ x = 0 then some (.passAck d a h) else none
  | 0x02 => if d = 0 ∧ b = 0 ∧ x = 0 then some (.passr a h) else none
  | 0x03 => if b = 0 ∧ x = 0 then some (.passrAck d a h) else none
  | 0x05 => if a = 0 ∧ b = 0 ∧ x = 0 then some (.pebc d h) else none
  | 0x06 => if d = 0 ∧ b = 0 ∧ x = 0 then some (.pflr a h) else none
  | 0x09 => if a = 0 ∧ b = 0 ∧ x = 0 then some (.ptkt d h) else none
  | _ => none

/-- Major opcode 0x32. -/
noncomputable def decode32 (d : BitVec 5) (a : BitVec 5) (b : BitVec 5) (fn : BitVec 8) (x : BitVec 1) (h : BitVec 2) : Option Instr :=
  match fn.toNat with
  | 0x00 => if d = 0 ∧ x = 0 then some (.phld a b h) else none
  | 0x01 => if x = 0 then some (.phldAck d a b h) else none
  | 0x02 => if d = 0 ∧ x = 0 then some (.phst a b h) else none
  | 0x03 => if x = 0 then some (.phstAck d a b h) else none
  | 0x04 => if d = 0 ∧ b = 0 ∧ x = 0 then some (.psel a h) else none
  | 0x05 => if b = 0 ∧ x = 0 then some (.pselAck d a h) else none
  | 0x06 => if d = 0 ∧ x = 0 then some (.dcmp a b h) else none
  | 0x07 => if x = 0 then some (.dcmpAck d a b h) else none
  | _ => none

/-- Major opcode 0x33. -/
noncomputable def decode33 (d : BitVec 5) (a : BitVec 5) (b : BitVec 5) (fn : BitVec 8) (x : BitVec 1) (h : BitVec 2) : Option Instr :=
  match fn.toNat with
  | 0x00 => if d = 0 ∧ b = 0 ∧ x = 0 then some (.xmm a h) else none
  | 0x01 => if b = 0 ∧ x = 0 then some (.xmmAck d a h) else none
  | 0x02 => if d = 0 ∧ b = 0 ∧ x = 0 then some (.xmmStrict a h) else none
  | 0x03 => if b = 0 ∧ x = 0 then some (.xmmStrictAck d a h) else none
  | _ => none

/-- Major opcode 0x34. -/
noncomputable def decode34 (d : BitVec 5) (a : BitVec 5) (b : BitVec 5) (fn : BitVec 8) (x : BitVec 1) (h : BitVec 2) : Option Instr :=
  match fn.toNat with
  | 0x00 => if d = 0 ∧ b = 0 ∧ x = 0 then some (.coll a h) else none
  | 0x03 => if b = 0 ∧ x = 0 then some (.cstat d a h) else none
  | _ => none

/-- Major opcode 0x35. -/
noncomputable def decode35 (d : BitVec 5) (a : BitVec 5) (b : BitVec 5) (fn : BitVec 8) (x : BitVec 1) (h : BitVec 2) : Option Instr :=
  match fn.toNat with
  | 0x00 => if d = 0 ∧ b = 0 ∧ x = 0 then some (.migr a h) else none
  | _ => none

/-- Major opcode 0x36. -/
noncomputable def decode36 (d : BitVec 5) (a : BitVec 5) (b : BitVec 5) (fn : BitVec 8) (x : BitVec 1) (h : BitVec 2) : Option Instr :=
  match fn.toNat with
  | 0x00 => if d = 0 ∧ b = 0 ∧ x = 0 then some (.spawn a h) else none
  | 0x02 => if d = 0 ∧ a = 0 ∧ b = 0 ∧ x = 0 then some (.exit h) else none
  | 0x10 => if d = 0 ∧ b = 0 ∧ x = 0 then some (.cancelG a h) else none
  | 0x12 => if d = 0 ∧ b = 0 ∧ x = 0 then some (.cancelGr a h) else none
  | 0x14 => if d = 0 ∧ b = 0 ∧ x = 0 then some (.cancelJ a h) else none
  | 0x20 => if d = 0 ∧ x = 0 then some (.prmt a b h) else none
  | 0x22 => if d = 0 ∧ x = 0 then some (.gdep a b h) else none
  | 0x25 => if b = 0 ∧ x = 0 then some (.gcnt d a h) else none
  | _ => none

/-- Major opcode 0x38. -/
noncomputable def decode38 (d : BitVec 5) (a : BitVec 5) (b : BitVec 5) (w : BitVec 1) (fn : BitVec 8) (h : BitVec 2) : Option Instr :=
  match fn.toNat with
  | 0x00 => some (.amoAdd d a b w h)
  | 0x01 => some (.amoAnd d a b w h)
  | 0x02 => some (.amoOr d a b w h)
  | 0x03 => some (.amoXor d a b w h)
  | 0x04 => some (.amoMin d a b w h)
  | 0x05 => some (.amoMax d a b w h)
  | 0x06 => some (.amoMinn d a b w h)
  | 0x07 => some (.amoMaxn d a b w h)
  | 0x08 => some (.amoSwap d a b w h)
  | 0x09 => some (.amoCas d a b w h)
  | 0x0A => if w = 0 then some (.amoFadd d a b h) else none
  | 0x10 => if d = 0 then some (.redAdd a b w h) else none
  | 0x11 => if d = 0 then some (.redAnd a b w h) else none
  | 0x12 => if d = 0 then some (.redOr a b w h) else none
  | 0x13 => if d = 0 then some (.redXor a b w h) else none
  | 0x14 => if d = 0 then some (.redMin a b w h) else none
  | 0x15 => if d = 0 then some (.redMax a b w h) else none
  | 0x16 => if d = 0 then some (.redMinn a b w h) else none
  | 0x17 => if d = 0 then some (.redMaxn a b w h) else none
  | 0x1A => if d = 0 ∧ w = 0 then some (.redFadd a b h) else none
  | _ => none

/-- Major opcode 0x39. -/
noncomputable def decode39 (d : BitVec 5) (a : BitVec 5) (b : BitVec 5) (fn : BitVec 9) (h : BitVec 2) : Option Instr :=
  match fn.toNat with
  | 0x00 => if b = 0 then some (.lrw d a h) else none
  | 0x01 => some (.scr d a b h)
  | 0x08 => if b = 0 then some (.lde d a h) else none
  | 0x09 => if d = 0 then some (.stf a b h) else none
  | 0x0A => some (.ldew d a b h)
  | 0x0B => some (.stfw d a b h)
  | 0x0C => if b = 0 then some (.feq d a h) else none
  | 0x10 => if d = 0 then some (.give a b h) else none
  | 0x11 => if d = 0 ∧ b = 0 then some (.ownw a h) else none
  | 0x18 => if d = 0 ∧ a = 0 ∧ b = 0 then some (.bar h) else none
  | _ => none

/-- Major opcode 0x3A. -/
noncomputable def decode3A (d : BitVec 5) (a : BitVec 5) (b : BitVec 5) (x : BitVec 2) (m : BitVec 2) (fn : BitVec 2) (sc : BitVec 3) (h : BitVec 2) : Option Instr :=
  match fn.toNat with
  | 0x00 => if d = 0 ∧ a = 0 ∧ b = 0 ∧ x = 0 ∧ m = 0 then some (.fence sc h) else none
  | 0x01 => if d = 0 ∧ a = 0 ∧ b = 0 ∧ x = 0 ∧ m = 0 then some (.rel sc h) else none
  | 0x02 => if d = 0 ∧ a = 0 ∧ b = 0 ∧ x = 0 then some (.acq m sc h) else none
  | _ => none

/-- Major opcode 0x3B. -/
noncomputable def decode3B (d : BitVec 5) (a : BitVec 5) (b : BitVec 5) (fn : BitVec 9) (h : BitVec 2) : Option Instr :=
  match fn.toNat with
  | 0x00 => if d = 0 ∧ b = 0 then some (.msend a h) else none
  | 0x01 => if d = 0 ∧ a = 0 ∧ b = 0 then some (.mrecv h) else none
  | 0x02 => if d = 0 ∧ a = 0 ∧ b = 0 then some (.mend h) else none
  | 0x03 => if d = 0 ∧ b = 0 then some (.varn a h) else none
  | _ => none

/-- Major opcode 0x3C. -/
noncomputable def decode3C (d : BitVec 5) (a : BitVec 5) (sr : BitVec 12) (fn : BitVec 2) (h : BitVec 2) : Option Instr :=
  match fn.toNat with
  | 0x00 => if a = 0 then some (.srr d sr h) else none
  | 0x01 => if d = 0 then some (.srw a sr h) else none
  | 0x02 => if d = 0 then some (.srset a sr h) else none
  | 0x03 => if d = 0 then some (.srclr a sr h) else none
  | _ => none

/-- Major opcode 0x3D. -/
noncomputable def decode3D (d : BitVec 5) (a : BitVec 5) (b : BitVec 5) (fn : BitVec 9) (h : BitVec 2) : Option Instr :=
  match fn.toNat with
  | 0x00 => if d = 0 ∧ a = 0 ∧ b = 0 then some (.rtx h) else none
  | 0x01 => if d = 0 ∧ a = 0 ∧ b = 0 then some (.sys h) else none
  | 0x02 => if d = 0 ∧ a = 0 ∧ b = 0 then some (.brk h) else none
  | 0x08 => if d = 0 ∧ b = 0 then some (.clkm a h) else none
  | _ => none

/-- The field of `n` bits of a word whose lowest bit is `lo`. -/
def wordField (w : BitVec 32) (lo n : Nat) : BitVec n := w.extractLsb' lo n

/-- The major opcode of a word (02 R27). -/
def majorOp (w : BitVec 32) : BitVec 6 := wordField w 26 6

/-- The word is a literal carrier (02 R32). -/
def isCarrier (w : BitVec 32) : Bool := (majorOp w).toNat == 0x0E

/-- The instruction of a word, with the literal `lit` where the word is a carrier (02 R35: every word not listed is
ILLOP, 0x0000_0000 apart). -/
noncomputable def decodeWord (w lit : BitVec 32) : Option Instr :=
  match (majorOp w).toNat with
  | 0x01 => decode01 (wordField w 21 5) (wordField w 16 5) (wordField w 11 5) (wordField w 2 9) (wordField w 0 2)
  | 0x02 => decode02 (wordField w 21 5) (wordField w 16 5) (wordField w 2 14) (wordField w 0 2)
  | 0x03 => decode03 (wordField w 21 5) (wordField w 16 5) (wordField w 2 14) (wordField w 0 2)
  | 0x04 => decode04 (wordField w 21 5) (wordField w 16 5) (wordField w 2 14) (wordField w 0 2)
  | 0x05 => decode05 (wordField w 21 5) (wordField w 16 5) (wordField w 2 14) (wordField w 0 2)
  | 0x06 => decode06 (wordField w 21 5) (wordField w 16 5) (wordField w 2 14) (wordField w 0 2)
  | 0x07 => decode07 (wordField w 21 5) (wordField w 16 5) (wordField w 2 14) (wordField w 0 2)
  | 0x08 => decode08 (wordField w 21 5) (wordField w 16 5) (wordField w 11 5) (wordField w 9 2) (wordField w 2 7) (wordField w 0 2)
  | 0x09 => decode09 (wordField w 21 5) (wordField w 1 20) (wordField w 0 1)
  | 0x0A => decode0A (wordField w 21 5) (wordField w 16 5) (wordField w 10 6) (wordField w 2 8) (wordField w 0 2)
  | 0x0E => decode0E (wordField w 21 5) (wordField w 16 5) (wordField w 10 6) (wordField w 2 8) (wordField w 0 2) lit
  | 0x10 => decode10 (wordField w 21 5) (wordField w 16 5) (wordField w 2 14) (wordField w 0 2)
  | 0x11 => decode11 (wordField w 21 5) (wordField w 2 19) (wordField w 0 2)
  | 0x12 => decode12 (wordField w 21 5) (wordField w 2 19) (wordField w 0 2)
  | 0x13 => decode13 (wordField w 21 5) (wordField w 16 5) (wordField w 11 5) (wordField w 2 9) (wordField w 0 2)
  | 0x14 => decode14 (wordField w 21 5) (wordField w 16 5) (wordField w 2 14) (wordField w 0 2)
  | 0x15 => decode15 (wordField w 21 5) (wordField w 16 5) (wordField w 2 14) (wordField w 0 2)
  | 0x16 => decode16 (wordField w 21 5) (wordField w 16 5) (wordField w 11 5) (wordField w 2 9) (wordField w 0 2)
  | 0x18 => decode18 (wordField w 21 5) (wordField w 16 5) (wordField w 5 11) (wordField w 3 2) (wordField w 2 1) (wordField w 0 2)
  | 0x19 => decode19 (wordField w 21 5) (wordField w 16 5) (wordField w 5 11) (wordField w 3 2) (wordField w 2 1) (wordField w 0 2)
  | 0x1A => decode1A (wordField w 21 5) (wordField w 16 5) (wordField w 5 11) (wordField w 3 2) (wordField w 2 1) (wordField w 0 2)
  | 0x1B => decode1B (wordField w 21 5) (wordField w 16 5) (wordField w 5 11) (wordField w 3 2) (wordField w 2 1) (wordField w 0 2)
  | 0x1C => decode1C (wordField w 21 5) (wordField w 16 5) (wordField w 5 11) (wordField w 3 2) (wordField w 2 1) (wordField w 0 2)
  | 0x1D => decode1D (wordField w 21 5) (wordField w 16 5) (wordField w 5 11) (wordField w 3 2) (wordField w 2 1) (wordField w 0 2)
  | 0x1E => decode1E (wordField w 21 5) (wordField w 16 5) (wordField w 11 5) (wordField w 8 3) (wordField w 7 1) (wordField w 6 1) (wordField w 2 4) (wordField w 0 2)
  | 0x1F => decode1F (wordField w 21 5) (wordField w 16 5) (wordField w 11 5) (wordField w 2 9) (wordField w 0 2)
  | 0x20 => decode20 (wordField w 21 5) (wordField w 16 5) (wordField w 11 5) (wordField w 8 3) (wordField w 6 2) (wordField w 2 4) (wordField w 0 2)
  | 0x21 => decode21 (wordField w 21 5) (wordField w 16 5) (wordField w 11 5) (wordField w 8 3) (wordField w 2 6) (wordField w 0 2)
  | 0x22 => decode22 (wordField w 21 5) (wordField w 16 5) (wordField w 11 5) (wordField w 8 3) (wordField w 2 6) (wordField w 0 2)
  | 0x23 => decode23 (wordField w 21 5) (wordField w 16 5) (wordField w 11 5) (wordField w 8 3) (wordField w 2 6) (wordField w 0 2)
  | 0x24 => decode24 (wordField w 21 5) (wordField w 16 5) (wordField w 11 5) (wordField w 8 3) (wordField w 2 6) (wordField w 0 2)
  | 0x25 => decode25 (wordField w 21 5) (wordField w 16 5) (wordField w 11 5) (wordField w 8 3) (wordField w 5 3) (wordField w 2 3) (wordField w 0 2)
  | 0x26 => decode26 (wordField w 21 5) (wordField w 16 5) (wordField w 11 5) (wordField w 8 3) (wordField w 2 6) (wordField w 0 2)
  | 0x27 => decode27 (wordField w 21 5) (wordField w 16 5) (wordField w 11 5) (wordField w 8 3) (wordField w 2 6) (wordField w 0 2)
  | 0x28 => decode28 (wordField w 21 5) (wordField w 16 5) (wordField w 11 5) (wordField w 8 3) (wordField w 2 6) (wordField w 0 2)
  | 0x29 => decode29 (wordField w 21 5) (wordField w 16 5) (wordField w 14 2) (wordField w 10 4) (wordField w 2 8) (wordField w 0 2)
  | 0x2A => decode2A (wordField w 21 5) (wordField w 16 5) (wordField w 4 12) (wordField w 2 2) (wordField w 0 2)
  | 0x2B => decode2B (wordField w 21 5) (wordField w 1 20) (wordField w 0 1)
  | 0x2C => decode2C (wordField w 21 5) (wordField w 16 5) (wordField w 11 5) (wordField w 2 9) (wordField w 0 2)
  | 0x30 => decode30 (wordField w 21 5) (wordField w 16 5) (wordField w 11 5) (wordField w 3 8) (wordField w 2 1) (wordField w 0 2)
  | 0x31 => decode31 (wordField w 21 5) (wordField w 16 5) (wordField w 11 5) (wordField w 3 8) (wordField w 2 1) (wordField w 0 2)
  | 0x32 => decode32 (wordField w 21 5) (wordField w 16 5) (wordField w 11 5) (wordField w 3 8) (wordField w 2 1) (wordField w 0 2)
  | 0x33 => decode33 (wordField w 21 5) (wordField w 16 5) (wordField w 11 5) (wordField w 3 8) (wordField w 2 1) (wordField w 0 2)
  | 0x34 => decode34 (wordField w 21 5) (wordField w 16 5) (wordField w 11 5) (wordField w 3 8) (wordField w 2 1) (wordField w 0 2)
  | 0x35 => decode35 (wordField w 21 5) (wordField w 16 5) (wordField w 11 5) (wordField w 3 8) (wordField w 2 1) (wordField w 0 2)
  | 0x36 => decode36 (wordField w 21 5) (wordField w 16 5) (wordField w 11 5) (wordField w 3 8) (wordField w 2 1) (wordField w 0 2)
  | 0x38 => decode38 (wordField w 21 5) (wordField w 16 5) (wordField w 11 5) (wordField w 10 1) (wordField w 2 8) (wordField w 0 2)
  | 0x39 => decode39 (wordField w 21 5) (wordField w 16 5) (wordField w 11 5) (wordField w 2 9) (wordField w 0 2)
  | 0x3A => decode3A (wordField w 21 5) (wordField w 16 5) (wordField w 11 5) (wordField w 9 2) (wordField w 7 2) (wordField w 5 2) (wordField w 2 3) (wordField w 0 2)
  | 0x3B => decode3B (wordField w 21 5) (wordField w 16 5) (wordField w 11 5) (wordField w 2 9) (wordField w 0 2)
  | 0x3C => decode3C (wordField w 21 5) (wordField w 16 5) (wordField w 4 12) (wordField w 2 2) (wordField w 0 2)
  | 0x3D => decode3D (wordField w 21 5) (wordField w 16 5) (wordField w 11 5) (wordField w 2 9) (wordField w 0 2)
  | _ => none

/-- Decode the first instruction of a list of words. -/
noncomputable def decodeWords : List (BitVec 32) → Except DecodeError (Instr × List (BitVec 32))
  | [] => .error .short
  | w :: rest =>
    if w = 0 then .error .zword
    else if isCarrier w then
      match rest with
      | [] => if (decodeWord w 0).isSome then .error .noLiteral else .error .illop
      | k :: rest' =>
        match decodeWord w k with
        | some i => .ok (i, rest')
        | none => .error .illop
    else
      match decodeWord w 0 with
      | some i => .ok (i, rest)
      | none => .error .illop

/-- A word from its four bytes, the first at the lowest address (00 R2). -/
def wordOfBytes (b0 b1 b2 b3 : Byte) : BitVec 32 := b3 ++ b2 ++ b1 ++ b0

/-- The four bytes of a word, the first for the lowest address (00 R2). -/
def bytesOfWord (w : BitVec 32) : List Byte :=
  [w.extractLsb' 0 8, w.extractLsb' 8 8, w.extractLsb' 16 8, w.extractLsb' 24 8]

/-- Bytes as words; a tail shorter than a word is dropped. -/
def wordsOfBytes : List Byte → List (BitVec 32)
  | b0 :: b1 :: b2 :: b3 :: rest => wordOfBytes b0 b1 b2 b3 :: wordsOfBytes rest
  | _ => []

/-- Decode the first instruction of a list of bytes: the instruction and how many bytes it takes. -/
noncomputable def decode (bs : List Byte) : Except DecodeError (Instr × Nat) :=
  match decodeWords (wordsOfBytes bs) with
  | .ok (i, rest) => .ok (i, 4 * ((wordsOfBytes bs).length - rest.length))
  | .error e => .error e

/-! ## The encoder -/

/-- The words of an instruction; none for an event. -/
def encode : Instr → List (BitVec 32)
  | .add d a b h => [packRr 0x01 d a b 0 h]
  | .sub d a b h => [packRr 0x01 d a b 0x1 h]
  | .and d a b h => [packRr 0x01 d a b 0x2 h]
  | .or d a b h => [packRr 0x01 d a b 0x3 h]
  | .xor d a b h => [packRr 0x01 d a b 0x4 h]
  | .andn d a b h => [packRr 0x01 d a b 0x5 h]
  | .orn d a b h => [packRr 0x01 d a b 0x6 h]
  | .xnor d a b h => [packRr 0x01 d a b 0x7 h]
  | .sll d a b h => [packRr 0x01 d a b 0x8 h]
  | .srl d a b h => [packRr 0x01 d a b 0x9 h]
  | .sra d a b h => [packRr 0x01 d a b 0xa h]
  | .rol d a b h => [packRr 0x01 d a b 0xb h]
  | .mul d a b h => [packRr 0x01 d a b 0x10 h]
  | .mulh d a b h => [packRr 0x01 d a b 0x11 h]
  | .mulhn d a b h => [packRr 0x01 d a b 0x12 h]
  | .div d a b h => [packRr 0x01 d a b 0x13 h]
  | .divn d a b h => [packRr 0x01 d a b 0x14 h]
  | .rem d a b h => [packRr 0x01 d a b 0x15 h]
  | .remn d a b h => [packRr 0x01 d a b 0x16 h]
  | .min d a b h => [packRr 0x01 d a b 0x18 h]
  | .max d a b h => [packRr 0x01 d a b 0x19 h]
  | .minn d a b h => [packRr 0x01 d a b 0x1a h]
  | .maxn d a b h => [packRr 0x01 d a b 0x1b h]
  | .adds d a b h => [packRr 0x01 d a b 0x20 h]
  | .subs d a b h => [packRr 0x01 d a b 0x21 h]
  | .addsn d a b h => [packRr 0x01 d a b 0x22 h]
  | .subsn d a b h => [packRr 0x01 d a b 0x23 h]
  | .clz d a h => [packRr 0x01 d a 0 0x28 h]
  | .ctz d a h => [packRr 0x01 d a 0 0x29 h]
  | .popc d a h => [packRr 0x01 d a 0 0x2a h]
  | .brev d a h => [packRr 0x01 d a 0 0x2b h]
  | .bswap d a h => [packRr 0x01 d a 0 0x2c h]
  | .sextB d a h => [packRr 0x01 d a 0 0x30 h]
  | .sextH d a h => [packRr 0x01 d a 0 0x31 h]
  | .sextW d a h => [packRr 0x01 d a 0 0x32 h]
  | .zextB d a h => [packRr 0x01 d a 0 0x33 h]
  | .zextH d a h => [packRr 0x01 d a 0 0x34 h]
  | .zextW d a h => [packRr 0x01 d a 0 0x35 h]
  | .cmpEq d a b h => [packRr 0x01 d a b 0x38 h]
  | .cmpNe d a b h => [packRr 0x01 d a b 0x39 h]
  | .cmpLt d a b h => [packRr 0x01 d a b 0x3a h]
  | .cmpGe d a b h => [packRr 0x01 d a b 0x3b h]
  | .cmpLtn d a b h => [packRr 0x01 d a b 0x3c h]
  | .cmpGen d a b h => [packRr 0x01 d a b 0x3d h]
  | .sel d a b h => [packRr 0x01 d a b 0x3e h]
  | .sllImm d a n m h => [packRr 0x01 d a n (0x30#8 ++ m) h]
  | .srlImm d a n m h => [packRr 0x01 d a n (0x31#8 ++ m) h]
  | .sraImm d a n m h => [packRr 0x01 d a n (0x32#8 ++ m) h]
  | .rolImm d a n m h => [packRr 0x01 d a n (0x33#8 ++ m) h]
  | .addW d a b h => [packRr 0x01 d a b 0x80 h]
  | .subW d a b h => [packRr 0x01 d a b 0x81 h]
  | .sllW d a b h => [packRr 0x01 d a b 0x88 h]
  | .srlW d a b h => [packRr 0x01 d a b 0x89 h]
  | .sraW d a b h => [packRr 0x01 d a b 0x8a h]
  | .rolW d a b h => [packRr 0x01 d a b 0x8b h]
  | .mulW d a b h => [packRr 0x01 d a b 0x90 h]
  | .divW d a b h => [packRr 0x01 d a b 0x93 h]
  | .divnW d a b h => [packRr 0x01 d a b 0x94 h]
  | .remW d a b h => [packRr 0x01 d a b 0x95 h]
  | .remnW d a b h => [packRr 0x01 d a b 0x96 h]
  | .sllWImm d a n h => [packRr 0x01 d a n 0xe0 h]
  | .srlWImm d a n h => [packRr 0x01 d a n 0xe2 h]
  | .sraWImm d a n h => [packRr 0x01 d a n 0xe4 h]
  | .rolWImm d a n h => [packRr 0x01 d a n 0xe6 h]
  | .addImm d a imm h => [packRi 0x02 d a imm h]
  | .andImm d a imm h => [packRi 0x03 d a imm h]
  | .orImm d a imm h => [packRi 0x04 d a imm h]
  | .xorImm d a imm h => [packRi 0x05 d a imm h]
  | .cmpLtImm d a imm h => [packRi 0x06 d a imm h]
  | .cmpLtnImm d a imm h => [packRi 0x07 d a imm h]
  | .fadd d a b r h => [packRrR 0x08 d a b r 0 h]
  | .fsub d a b r h => [packRrR 0x08 d a b r 0x1 h]
  | .fmul d a b r h => [packRrR 0x08 d a b r 0x2 h]
  | .fdiv d a b r h => [packRrR 0x08 d a b r 0x3 h]
  | .fma d a b r h => [packRrR 0x08 d a b r 0x4 h]
  | .fnma d a b r h => [packRrR 0x08 d a b r 0x5 h]
  | .fsqrt d a r h => [packRrR 0x08 d a 0 r 0x6 h]
  | .fmin d a b h => [packRrR 0x08 d a b 0 0x8 h]
  | .fmax d a b h => [packRrR 0x08 d a b 0 0x9 h]
  | .fabs d a h => [packRrR 0x08 d a 0 0 0xa h]
  | .fneg d a h => [packRrR 0x08 d a 0 0 0xb h]
  | .fcmpEq d a b h => [packRrR 0x08 d a b 0 0x10 h]
  | .fcmpLt d a b h => [packRrR 0x08 d a b 0 0x11 h]
  | .fcmpLe d a b h => [packRrR 0x08 d a b 0 0x12 h]
  | .fcmpUn d a b h => [packRrR 0x08 d a b 0 0x13 h]
  | .fcvtI32F d a r h => [packRrR 0x08 d a 0 r 0x20 h]
  | .fcvtI64F d a r h => [packRrR 0x08 d a 0 r 0x21 h]
  | .fcvtN32F d a r h => [packRrR 0x08 d a 0 r 0x22 h]
  | .fcvtN64F d a r h => [packRrR 0x08 d a 0 r 0x23 h]
  | .fcvtFI32 d a r h => [packRrR 0x08 d a 0 r 0x24 h]
  | .fcvtFI64 d a r h => [packRrR 0x08 d a 0 r 0x25 h]
  | .fcvtFN32 d a r h => [packRrR 0x08 d a 0 r 0x26 h]
  | .fcvtFN64 d a r h => [packRrR 0x08 d a 0 r 0x27 h]
  | .fmov d imm => [packFi 0x09 d imm 0]
  | .faddK d a k h => [packRiK 0x0A d a 0 k h]
  | .fsubK d a k h => [packRiK 0x0A d a 0x1 k h]
  | .fmulK d a k h => [packRiK 0x0A d a 0x2 k h]
  | .fmaK d a k h => [packRiK 0x0A d a 0x3 k h]
  | .fnmaK d a k h => [packRiK 0x0A d a 0x4 k h]
  | .fminK d a k h => [packRiK 0x0A d a 0x5 k h]
  | .fmaxK d a k h => [packRiK 0x0A d a 0x6 k h]
  | .fmovK d k h => [packRiK 0x0A d 0 0x7 k h]
  | .addK d a k h => [packRiK 0x0A d a 0x10 k h]
  | .andK d a k h => [packRiK 0x0A d a 0x11 k h]
  | .orK d a k h => [packRiK 0x0A d a 0x12 k h]
  | .xorK d a k h => [packRiK 0x0A d a 0x13 k h]
  | .movK d k h => [packRiK 0x0A d 0 0x14 k h]
  | .movnK d k h => [packRiK 0x0A d 0 0x15 k h]
  | .cmpEqK d a k h => [packRiK 0x0A d a 0x16 k h]
  | .cmpLtK d a k h => [packRiK 0x0A d a 0x17 k h]
  | .faddLit d a k h => [packRiK 0x0E d a 0 0 h, k]
  | .fsubLit d a k h => [packRiK 0x0E d a 0x1 0 h, k]
  | .fmulLit d a k h => [packRiK 0x0E d a 0x2 0 h, k]
  | .fmaLit d a k h => [packRiK 0x0E d a 0x3 0 h, k]
  | .fnmaLit d a k h => [packRiK 0x0E d a 0x4 0 h, k]
  | .fminLit d a k h => [packRiK 0x0E d a 0x5 0 h, k]
  | .fmaxLit d a k h => [packRiK 0x0E d a 0x6 0 h, k]
  | .fmovLit d k h => [packRiK 0x0E d 0 0x7 0 h, k]
  | .addLit d a k h => [packRiK 0x0E d a 0x10 0 h, k]
  | .andLit d a k h => [packRiK 0x0E d a 0x11 0 h, k]
  | .orLit d a k h => [packRiK 0x0E d a 0x12 0 h, k]
  | .xorLit d a k h => [packRiK 0x0E d a 0x13 0 h, k]
  | .movLit d k h => [packRiK 0x0E d 0 0x14 0 h, k]
  | .movnLit d k h => [packRiK 0x0E d 0 0x15 0 h, k]
  | .cmpEqLit d a k h => [packRiK 0x0E d a 0x16 0 h, k]
  | .cmpLtLit d a k h => [packRiK 0x0E d a 0x17 0 h, k]
  | .beqz a imm h => [packCb 0x10 0 a imm h]
  | .bnez a imm h => [packCb 0x10 0x1 a imm h]
  | .bltz a imm h => [packCb 0x10 0x2 a imm h]
  | .bgez a imm h => [packCb 0x10 0x3 a imm h]
  | .bgtz a imm h => [packCb 0x10 0x4 a imm h]
  | .blez a imm h => [packCb 0x10 0x5 a imm h]
  | .bany p imm h => [packCb 0x10 0x10 (p.setWidth 5) imm h]
  | .ball p imm h => [packCb 0x10 0x11 (p.setWidth 5) imm h]
  | .bnone p imm h => [packCb 0x10 0x12 (p.setWidth 5) imm h]
  | .j imm h => [packLb 0x11 0 imm h]
  | .call l imm h => [packLb 0x12 l imm h]
  | .jr a h => [packRr 0x13 0 a 0 0 h]
  | .callr d a h => [packRr 0x13 d a 0 0x1 h]
  | .loop n a m h => [packRi 0x14 n a m h]
  | .loopi n c m h => [packRi 0x15 n c m h]
  | .nop h => [packRr 0x16 0 0 0 0 h]
  | .ldL d b o z h => [packMm 0x18 d b o z 0 h]
  | .stL d b o z h => [packMm 0x19 d b o z 0 h]
  | .ldS d b o z r h => [packMm 0x1A d b o z r h]
  | .stS d b o z r h => [packMm 0x1B d b o z r h]
  | .ldG d b o z r h => [packMm 0x1C d b o z r h]
  | .stG d b o z r h => [packMm 0x1D d b o z r h]
  | .vldL v a b p h => [packVvM 0x1E v a b p 0 0 0 h]
  | .vstL v a b p h => [packVvM 0x1E v a b p 0 0 0x1 h]
  | .vldS v a b p r h => [packVvM 0x1E v a b p r 0 0x2 h]
  | .vstS v a b p r h => [packVvM 0x1E v a b p r 0 0x3 h]
  | .vldG v a b p r h => [packVvM 0x1E v a b p r 0 0x4 h]
  | .vstG v a b p r t h => [packVvM 0x1E v a b p r t 0x5 h]
  | .vgthS v a b p r h => [packVvM 0x1E v a b p r 0 0x8 h]
  | .vsctS v a b p r h => [packVvM 0x1E v a b p r 0 0x9 h]
  | .vgthG v a b p r h => [packVvM 0x1E v a b p r 0 0xa h]
  | .vsctG v a b p r t h => [packVvM 0x1E v a b p r t 0xb h]
  | .pfG a b h => [packRr 0x1F 0 a b 0 h]
  | .cwb a h => [packRr 0x1F 0 a 0 0x8 h]
  | .cinv a h => [packRr 0x1F 0 a 0 0x9 h]
  | .cwbi a h => [packRr 0x1F 0 a 0 0xa h]
  | .bankcfg a b h => [packRr 0x1F 0 a b 0x10 h]
  | .bankSwitch _ _ => []
  | .stGBNt a b h => [packRr 0x1F 0 a b 0x20 h]
  | .stGHNt a b h => [packRr 0x1F 0 a b 0x21 h]
  | .stGWNt a b h => [packRr 0x1F 0 a b 0x22 h]
  | .stGDNt a b h => [packRr 0x1F 0 a b 0x23 h]
  | .vadd v a b p r h => [packVvR 0x20 v a b p r 0 h]
  | .vsub v a b p r h => [packVvR 0x20 v a b p r 0x1 h]
  | .vmul v a b p r h => [packVvR 0x20 v a b p r 0x2 h]
  | .vfma v a b p r h => [packVvR 0x20 v a b p r 0x3 h]
  | .vfnma v a b p r h => [packVvR 0x20 v a b p r 0x4 h]
  | .vmin v a b p h => [packVvR 0x20 v a b p 0 0x5 h]
  | .vmax v a b p h => [packVvR 0x20 v a b p 0 0x6 h]
  | .vabs v a p h => [packVvR 0x20 v a 0 p 0 0x7 h]
  | .vneg v a p h => [packVvR 0x20 v a 0 p 0 0x8 h]
  | .vdiv v a b p r h => [packVvR 0x20 v a b p r 0x9 h]
  | .vsqrt v a p r h => [packVvR 0x20 v a 0 p r 0xa h]
  | .vrcp v a p h => [packVvR 0x20 v a 0 p 0 0xb h]
  | .vrsqrt v a p h => [packVvR 0x20 v a 0 p 0 0xc h]
  | .vexp2 v a p h => [packVvR 0x20 v a 0 p 0 0xd h]
  | .vlog2 v a p h => [packVvR 0x20 v a 0 p 0 0xe h]
  | .vscale v a b p r h => [packVvR 0x20 v a b p r 0xf h]
  | .vaddI v a b p h => [packVv 0x21 v a b p 0 h]
  | .vsubI v a b p h => [packVv 0x21 v a b p 0x1 h]
  | .vmulI v a b p h => [packVv 0x21 v a b p 0x2 h]
  | .vmlaI v a b p h => [packVv 0x21 v a b p 0x3 h]
  | .vminI v a b p h => [packVv 0x21 v a b p 0x4 h]
  | .vminN v a b p h => [packVv 0x21 v a b p 0x14 h]
  | .vmaxI v a b p h => [packVv 0x21 v a b p 0x5 h]
  | .vmaxN v a b p h => [packVv 0x21 v a b p 0x15 h]
  | .vandI v a b p h => [packVv 0x21 v a b p 0x6 h]
  | .vorI v a b p h => [packVv 0x21 v a b p 0x7 h]
  | .vxorI v a b p h => [packVv 0x21 v a b p 0x8 h]
  | .vsllI v a b p h => [packVv 0x21 v a b p 0x9 h]
  | .vsrlI v a b p h => [packVv 0x21 v a b p 0xa h]
  | .vsraI v a b p h => [packVv 0x21 v a b p 0xb h]
  | .vaddsI v a b p h => [packVv 0x21 v a b p 0xc h]
  | .vaddsN v a b p h => [packVv 0x21 v a b p 0x1c h]
  | .vsubsI v a b p h => [packVv 0x21 v a b p 0xd h]
  | .vsubsN v a b p h => [packVv 0x21 v a b p 0x1d h]
  | .vabsI v a p h => [packVv 0x21 v a 0 p 0xe h]
  | .vmulhI v a b p h => [packVv 0x21 v a b p 0xf h]
  | .vmulhN v a b p h => [packVv 0x21 v a b p 0x1f h]
  | .vcmpEq d a b p h => [packVv 0x22 (d.setWidth 5) a b p 0 h]
  | .vcmpNe d a b p h => [packVv 0x22 (d.setWidth 5) a b p 0x1 h]
  | .vcmpLt d a b p h => [packVv 0x22 (d.setWidth 5) a b p 0x2 h]
  | .vcmpLe d a b p h => [packVv 0x22 (d.setWidth 5) a b p 0x3 h]
  | .vcmpGt d a b p h => [packVv 0x22 (d.setWidth 5) a b p 0x4 h]
  | .vcmpGe d a b p h => [packVv 0x22 (d.setWidth 5) a b p 0x5 h]
  | .vcmpUn d a b p h => [packVv 0x22 (d.setWidth 5) a b p 0x6 h]
  | .vcmpEqI d a b p h => [packVv 0x22 (d.setWidth 5) a b p 0x20 h]
  | .vcmpNeI d a b p h => [packVv 0x22 (d.setWidth 5) a b p 0x21 h]
  | .vcmpLtI d a b p h => [packVv 0x22 (d.setWidth 5) a b p 0x22 h]
  | .vcmpLeI d a b p h => [packVv 0x22 (d.setWidth 5) a b p 0x23 h]
  | .vcmpGtI d a b p h => [packVv 0x22 (d.setWidth 5) a b p 0x24 h]
  | .vcmpGeI d a b p h => [packVv 0x22 (d.setWidth 5) a b p 0x25 h]
  | .vcmpEqN d a b p h => [packVv 0x22 (d.setWidth 5) a b p 0x30 h]
  | .vcmpNeN d a b p h => [packVv 0x22 (d.setWidth 5) a b p 0x31 h]
  | .vcmpLtN d a b p h => [packVv 0x22 (d.setWidth 5) a b p 0x32 h]
  | .vcmpLeN d a b p h => [packVv 0x22 (d.setWidth 5) a b p 0x33 h]
  | .vcmpGtN d a b p h => [packVv 0x22 (d.setWidth 5) a b p 0x34 h]
  | .vcmpGeN d a b p h => [packVv 0x22 (d.setWidth 5) a b p 0x35 h]
  | .vrsum v a p h => [packVv 0x23 v a 0 p 0 h]
  | .vcsum v a p h => [packVv 0x23 v a 0 p 0x1 h]
  | .vrmax v a p h => [packVv 0x23 v a 0 p 0x2 h]
  | .vcmax v a p h => [packVv 0x23 v a 0 p 0x3 h]
  | .vrmin v a p h => [packVv 0x23 v a 0 p 0x4 h]
  | .vcmin v a p h => [packVv 0x23 v a 0 p 0x5 h]
  | .vdot v a b p h => [packVv 0x23 v a b p 0x6 h]
  | .vtrn v a p h => [packVv 0x23 v a 0 p 0x8 h]
  | .pand d a b h => [packVv 0x24 (d.setWidth 5) (a.setWidth 5) (b.setWidth 5) 0 0 h]
  | .por d a b h => [packVv 0x24 (d.setWidth 5) (a.setWidth 5) (b.setWidth 5) 0 0x1 h]
  | .pxor d a b h => [packVv 0x24 (d.setWidth 5) (a.setWidth 5) (b.setWidth 5) 0 0x2 h]
  | .pandn d a b h => [packVv 0x24 (d.setWidth 5) (a.setWidth 5) (b.setWidth 5) 0 0x3 h]
  | .pnot d a h => [packVv 0x24 (d.setWidth 5) (a.setWidth 5) 0 0 0x4 h]
  | .pfirst d a h => [packVv 0x24 (d.setWidth 5) (a.setWidth 5) 0 0 0x8 h]
  | .pcnt d a h => [packVv 0x24 d (a.setWidth 5) 0 0 0x9 h]
  | .pset d a h => [packVv 0x24 (d.setWidth 5) a 0 0 0xa h]
  | .vcvt v a q p t f h => [packVvC 0x25 v a (q.setWidth 5) p t f h]
  | .vpkBfp8 v a g q h => [packVv 0x26 v a g (q.setWidth 3) 0 h]
  | .vupkBfp8 v a g q h => [packVv 0x26 v a g (q.setWidth 3) 0x1 h]
  | .vpk v a b h => [packVv 0x26 v a b 0 0x2 h]
  | .vupk v a q h => [packVv 0x26 v a (q.setWidth 5) 0 0x3 h]
  | .vbcast v a p h => [packVv 0x26 v a 0 p 0x4 h]
  | .vins v a b h => [packVv 0x26 v a b 0 0x5 h]
  | .vext d a b h => [packVv 0x26 d a b 0 0x6 h]
  | .vperm v a b p h => [packVv 0x26 v a b p 0x7 h]
  | .vmov v a p h => [packVv 0x27 v a 0 p 0 h]
  | .vsel v a b p h => [packVv 0x27 v a b p 0x1 h]
  | .vzero v h => [packVv 0x27 v 0 0 0 0x2 h]
  | .vrng v a b p h => [packVv 0x28 v a b p 0 h]
  | .vrngf v a b p h => [packVv 0x28 v a b p 0x1 h]
  | .vshape w l h => [packRiS 0x29 0 0 w l 0 h]
  | .vwin b h => [packRiB 0x2A 0 0 0 b h]
  | .vfmov v imm => [packFi 0x2B v imm 0]
  | .setfmt a h => [packRr 0x2C 0 a 0 0 h]
  | .stfmt a h => [packRr 0x2C 0 a 0 0x1 h]
  | .cp a b h => [packEc 0x30 0 a b 0 0 h]
  | .cpstat d h => [packEc 0x30 d 0 0 0x3 0 h]
  | .copyStart _ => []
  | .copyComplete _ => []
  | .pass a h => [packEc 0x31 0 a 0 0 0 h]
  | .passAck d a h => [packEc 0x31 d a 0 0x1 0 h]
  | .passr a h => [packEc 0x31 0 a 0 0x2 0 h]
  | .passrAck d a h => [packEc 0x31 d a 0 0x3 0 h]
  | .pebc d h => [packEc 0x31 d 0 0 0x5 0 h]
  | .pflr a h => [packEc 0x31 0 a 0 0x6 0 h]
  | .ptkt d h => [packEc 0x31 d 0 0 0x9 0 h]
  | .phld a b h => [packEc 0x32 0 a b 0 0 h]
  | .phldAck d a b h => [packEc 0x32 d a b 0x1 0 h]
  | .phst a b h => [packEc 0x32 0 a b 0x2 0 h]
  | .phstAck d a b h => [packEc 0x32 d a b 0x3 0 h]
  | .psel a h => [packEc 0x32 0 a 0 0x4 0 h]
  | .pselAck d a h => [packEc 0x32 d a 0 0x5 0 h]
  | .dcmp a b h => [packEc 0x32 0 a b 0x6 0 h]
  | .dcmpAck d a b h => [packEc 0x32 d a b 0x7 0 h]
  | .paletteLoadStart _ => []
  | .paletteLoadDone _ _ => []
  | .paletteStoreStart _ => []
  | .paletteStoreDone _ => []
  | .paletteSwitch _ _ => []
  | .decompStart _ => []
  | .decompDone _ _ => []
  | .xmm a h => [packEc 0x33 0 a 0 0 0 h]
  | .xmmAck d a h => [packEc 0x33 d a 0 0x1 0 h]
  | .xmmStrict a h => [packEc 0x33 0 a 0 0x2 0 h]
  | .xmmStrictAck d a h => [packEc 0x33 d a 0 0x3 0 h]
  | .xmmStart _ => []
  | .xmmComplete _ => []
  | .coll a h => [packEc 0x34 0 a 0 0 0 h]
  | .cstat d a h => [packEc 0x34 d a 0 0x3 0 h]
  | .migr a h => [packEc 0x35 0 a 0 0 0 h]
  | .spawn a h => [packEc 0x36 0 a 0 0 0 h]
  | .exit h => [packEc 0x36 0 0 0 0x2 0 h]
  | .cancelG a h => [packEc 0x36 0 a 0 0x10 0 h]
  | .cancelGr a h => [packEc 0x36 0 a 0 0x12 0 h]
  | .cancelJ a h => [packEc 0x36 0 a 0 0x14 0 h]
  | .prmt a b h => [packEc 0x36 0 a b 0x20 0 h]
  | .gdep a b h => [packEc 0x36 0 a b 0x22 0 h]
  | .gcnt d a h => [packEc 0x36 d a 0 0x25 0 h]
  | .amoAdd d a b w h => [packRrW 0x38 d a b w 0 h]
  | .amoAnd d a b w h => [packRrW 0x38 d a b w 0x1 h]
  | .amoOr d a b w h => [packRrW 0x38 d a b w 0x2 h]
  | .amoXor d a b w h => [packRrW 0x38 d a b w 0x3 h]
  | .amoMin d a b w h => [packRrW 0x38 d a b w 0x4 h]
  | .amoMax d a b w h => [packRrW 0x38 d a b w 0x5 h]
  | .amoMinn d a b w h => [packRrW 0x38 d a b w 0x6 h]
  | .amoMaxn d a b w h => [packRrW 0x38 d a b w 0x7 h]
  | .amoSwap d a b w h => [packRrW 0x38 d a b w 0x8 h]
  | .amoCas d a b w h => [packRrW 0x38 d a b w 0x9 h]
  | .amoFadd d a b h => [packRrW 0x38 d a b 0 0xa h]
  | .redAdd a b w h => [packRrW 0x38 0 a b w 0x10 h]
  | .redAnd a b w h => [packRrW 0x38 0 a b w 0x11 h]
  | .redOr a b w h => [packRrW 0x38 0 a b w 0x12 h]
  | .redXor a b w h => [packRrW 0x38 0 a b w 0x13 h]
  | .redMin a b w h => [packRrW 0x38 0 a b w 0x14 h]
  | .redMax a b w h => [packRrW 0x38 0 a b w 0x15 h]
  | .redMinn a b w h => [packRrW 0x38 0 a b w 0x16 h]
  | .redMaxn a b w h => [packRrW 0x38 0 a b w 0x17 h]
  | .redFadd a b h => [packRrW 0x38 0 a b 0 0x1a h]
  | .amoHomePerform _ _ => []
  | .lrw d a h => [packRr 0x39 d a 0 0 h]
  | .scr d a b h => [packRr 0x39 d a b 0x1 h]
  | .reservationGrant _ => []
  | .reservationTimeout _ => []
  | .lde d a h => [packRr 0x39 d a 0 0x8 h]
  | .stf a b h => [packRr 0x39 0 a b 0x9 h]
  | .ldew d a b h => [packRr 0x39 d a b 0xa h]
  | .stfw d a b h => [packRr 0x39 d a b 0xb h]
  | .feq d a h => [packRr 0x39 d a 0 0xc h]
  | .give a b h => [packRr 0x39 0 a b 0x10 h]
  | .ownw a h => [packRr 0x39 0 a 0 0x11 h]
  | .bar h => [packRr 0x39 0 0 0 0x18 h]
  | .fence sc h => [packRrO 0x3A 0 0 0 0 0 0 sc h]
  | .rel sc h => [packRrO 0x3A 0 0 0 0 0 0x1 sc h]
  | .acq m sc h => [packRrO 0x3A 0 0 0 0 m 0x2 sc h]
  | .orderingActionsDone _ => []
  | .msend a h => [packRr 0x3B 0 a 0 0 h]
  | .mrecv h => [packRr 0x3B 0 0 0 0x1 h]
  | .mend h => [packRr 0x3B 0 0 0 0x2 h]
  | .varn a h => [packRr 0x3B 0 a 0 0x3 h]
  | .srr d sr h => [packSy 0x3C d 0 sr 0 h]
  | .srw a sr h => [packSy 0x3C 0 a sr 0x1 h]
  | .srset a sr h => [packSy 0x3C 0 a sr 0x2 h]
  | .srclr a sr h => [packSy 0x3C 0 a sr 0x3 h]
  | .rtx h => [packRr 0x3D 0 0 0 0 h]
  | .sys h => [packRr 0x3D 0 0 0 0x1 h]
  | .brk h => [packRr 0x3D 0 0 0 0x2 h]
  | .clkm a h => [packRr 0x3D 0 a 0 0x8 h]
  | .loadReturn _ _ => []
  | .storePerform _ _ => []
  | .translationWalkDone _ _ _ => []
  | .wcDrain _ _ => []
  | .sysregEffectDone _ => []
  | .tsinvPage _ _ => []
  | .tsinvPid _ => []
  | .tsinvAll => []
  | .elevatorRetire _ => []
  | .elevatorReissue _ => []
  | .passStart _ _ => []
  | .leaveGrant _ => []
  | .groupEntry _ => []
  | .groupOutput _ _ => []
  | .groupEmulate _ => []
  | .passEnd _ => []
  | .swatchInject _ _ _ _ _ => []
  | .thermalLoop _ _ _ => []
  | .debcEval _ _ => []
  | .otctlClr _ => []
  | .otctlClrEffect _ => []
  | .otctlCal _ => []
  | .calibEnter _ => []
  | .otctlOff _ _ => []
  | .tileCalibDone _ _ _ _ => []
  | .messageArrive _ => []
  | .antiMessageArrive _ => []
  | .msgfull _ => []
  | .rollback _ _ => []
  | .vpRound _ => []
  | .vpRoundAbandon _ => []
  | .fabricVpRound _ _ _ => []
  | .fabricVpRetry _ => []
  | .varnishPerform => []
  | .vjbsetWrite _ => []
  | .mpsetWrite _ => []
  | .itemHop _ => []
  | .ringRadiusGrow _ => []
  | .overflowPark _ => []
  | .pickup _ => []
  | .parkEvict _ => []
  | .deferredLaunch _ => []
  | .hostAddition => []
  | .cancelSweep => []
  | .cancelTrap _ => []
  | .cancelStopTimeout _ => []
  | .preemptWriteback _ => []
  | .prmto _ => []
  | .tilePin _ => []
  | .tileUnpin _ => []
  | .droopDetect _ _ => []
  | .governorAdjust _ _ => []
  | .junctionOvertemp => []
  | .xholdWrite _ => []
  | .xfatalWrite _ => []
  | .sresumeWrite _ => []
  | .ftsetWrite _ => []
  | .dumpsetWrite _ => []
  | .dumpSequence => []
  | .compatEngineReset => []
  | .dbgstopStop _ => []
  | .dbgstopFree _ _ => []
  | .profctlWrite _ _ => []
  | .profileCounterClear _ _ => []
  | .evpopRead _ _ => []
  | .registerWrite _ _ => []
  | .coldReset => []
  | .warmReset => []
  | .bootSequence _ _ _ _ _ => []
  | .aperturesOpen => []
  | .timeadjWrite _ => []
  | .fabcfgWrite _ => []
  | .linkTrainDone _ _ _ => []
  | .keyctlGenerate _ => []
  | .keyctlErase _ => []
  | .keyctlDone => []
  | .windowRead _ _ => []
  | .windowWrite _ _ => []
  | .launchRecordWrite _ _ _ => []
  | .serviceLaunch _ => []
  | .qctlWrite _ _ => []
  | .qctlTear _ => []
  | .attest => []
  | .ident => []
  | .fwwrite => []
  | .mailboxCommandDone _ => []
  | .scanStart _ => []
  | .scanDrainTimeout => []
  | .scanAbort _ => []
  | .scanPatternDone _ => []
  | .laserSwitchover => []
  | .laserSwitchoverDone => []
  | .laserRequest _ => []
  | .laserTransitionDone => []
  | .laserWake => []
  | .lctlRetrain _ => []
  | .lctlEnable _ _ => []
  | .laneFailingReport _ _ => []
  | .narrowNegotiateDone _ => []
  | .laneHealthUpdate _ _ _ _ _ _ _ => []
  | .laneRecover _ _ => []
  | .lutilWindow _ => []
  | .groupReceive _ _ => []
  | .nakReceive _ _ => []
  | .linkRecordReceive _ => []
  | .tableAgree _ => []
  | .remoteRequestArrive _ => []
  | .remoteReplyArrive _ _ _ => []
  | .remoteReissue _ => []
  | .requestAgeDiscard _ => []
  | .replyCacheRetry _ => []
  | .migrationArrive _ => []
  | .migrationAck _ => []
  | .migrationRefused _ _ => []
  | .collStart _ => []
  | .collJoined _ _ => []
  | .chunkReceive _ _ => []
  | .chunkAckReceive _ _ _ _ => []
  | .completionWave _ => []
  | .collRestart _ _ => []
  | .idleRound _ _ => []
  | .illegalInstruction _ => []
  | .fetchFault _ _ => []
  | .prefetchFill _ => []
  | .replyCacheExpiry _ _ => []
  | .softError _ _ _ _ => []

/-- The bytes of an instruction, the first for the lowest address. -/
def encodeBytes (i : Instr) : List Byte := (encode i).flatMap bytesOfWord

/-- The instruction the decoder reads from an instruction whose bits are `w`, bit 0 the least significant bit of the
first word; the bits from `nbits` on are zero (02 R25, R32). -/
noncomputable def decodeTableWord (nbits w : Nat) : Option Instr :=
  let v : BitVec 64 := BitVec.ofNat 64 (w % 2 ^ nbits)
  match decode (bytesOfWord (v.extractLsb' 0 32) ++ bytesOfWord (v.extractLsb' 32 32)) with
  | .ok (i, _) => some i
  | .error _ => none

end Sys2Proof
end

