-- ==== Sys2Proof/Config.lean ====
section
/-!
DEFINITION. What an implementation fixes, and the free values: opaque constants applied to a counter of the state
(`State.freeCtr`) or to operands. Nothing can evaluate them, so a statement that mentions one holds for every value.
-/

namespace Sys2Proof.Config

/-- The bit a free choice of the device takes (assumption 4). -/
opaque freeBit : Nat → Bool

/-- A free byte: HBM4 read under a key that did not write it (04 R95; assumption 5). -/
opaque freeByte : Nat → BitVec 8

/-- A free 64-bit value (assumption 4). -/
opaque freeWord : Nat → BitVec 64

/-- A free vector register: v in a handler after a rollback is the rolled-back execution's own (08 R188), so this is
used only where a rule says a value is unspecified (assumption 4). -/
opaque freeVReg : Nat → BitVec 2048

/-- The detector code of output mode `m` of the `c`-th optical vector (10 R250; assumption 6). -/
opaque freeCode : Nat → Nat → BitVec 10

/-- The calibrated precision a tile derives for a palette, which only its calibration map fixes (09 R234; assumption 7). -/
opaque freePebc : Nat → BitVec 7

/-- Which way of the tile cache a fill replaces: the replacement history is not promised (04 R90; assumption 8). -/
opaque freeWay : Nat → Nat

/-- The free bytes of the attestation mailbox: keys, certificates and signatures (16 R417; assumption 9). -/
opaque freeMailbox : Nat → Nat → BitVec 8

/-- Byte `k` of what IDENT returns of the `n`-th identity key pairs, the public keys and their certificates: always the same
(16 R415, R417; assumption 9). -/
opaque freeIdent : Nat → Nat → BitVec 8

/-- The home-slice table of the part, an assignment made at manufacture (04 R91): the boot sequence may replace it. -/
def homeSlices : List Nat := (List.range 48).map (· / 3)

/-- The capacities of the column slices in units of 32 MiB (04 R91, 16 R414; assumption 10). -/
def sliceUnits : List Nat := List.replicate 16 3

/-- Bytes of local HBM4, 768 GiB (04 R94). -/
def hbmBytes : Nat := 0xC000000000

/-- Fractional bits of the fixed-point series behind the approximated functions (08 R192, 09 R224; assumption 11). -/
def seriesBits : Nat := 256

/-- Terms of those series (assumption 11). -/
def seriesTerms : Nat := 180

end Sys2Proof.Config
end

