-- ==== Sys2Proof/Machine/State.lean ====
section
/-!
DEFINITION. The state of one Z8 module as plain data, and its reset. Every field's docstring names the rule of spec/
that gives it and its reset value; DESIGN CHOICE <n> names the log entry where the spec gives none.
-/

namespace Sys2Proof.Machine

/-- Why the machine can stop. -/
inductive Fault where
  /-- Raised by `step` when the device is device-fatal and no reset is on the agenda (15 R392: only a reset recovers
  the device). Safe: the hardware does nothing there either. -/
  | deviceFatal
  deriving DecidableEq, Repr

/-- Why an instruction has no meaning here. -/
inductive Refusal where
  /-- An instruction not modelled; no arm of `exec` answers it now. Safe. -/
  | notModelled (mnemonic : String)
  deriving DecidableEq, Repr

/-! ## The strand in a slot -/

/-- A register that an instruction reads or writes, for the interlock (03 R51, 02 R31). -/
inductive RegName where
  | g (n : Nat) | v (n : Nat) | p (n : Nat) | sysreg
  deriving DecidableEq, Repr

/-- The fields of a continuation record beside the PC (12 R283). -/
structure Rec where
  /-- Process identity, 12 bits (12 R283). -/
  pid    : BitVec 12
  /-- Priority, 4 bits (12 R283). -/
  prio   : BitVec 4
  /-- Thread-count mode code, 2 bits (12 R283). -/
  mode   : BitVec 2
  /-- The strand is a logical process (12 R283). -/
  opt    : Bool
  /-- The strand runs at executive level throughout (12 R283). -/
  exec   : Bool
  /-- Set until the first pick-up (12 R283). -/
  new    : Bool
  /-- Placement radius, 5 bits (12 R283). -/
  hrad   : BitVec 5
  /-- Placement hint row, 4 bits (12 R283). -/
  hy     : BitVec 4
  /-- Placement hint column, 4 bits (12 R283). -/
  hx     : BitVec 4
  /-- Index within the group, 24 bits (12 R283). -/
  gidx   : BitVec 24
  /-- Virtual time of the record, 64 bits (12 R283). -/
  vtime  : Word
  /-- Frame base (12 R283). -/
  frame  : Word
  /-- Format/scale descriptor address or 0 (12 R283). -/
  fmtp   : Word
  /-- Constant-bank image address or 0 (12 R283). -/
  kbank  : Word
  /-- Group control block address or 0 (12 R283). -/
  gcb    : Word
  deriving DecidableEq, Repr

/-- A strand's STATUS bits that are not in its record (15 R377). -/
structure Status where
  /-- UNWR, reset 0 (15 R377). -/
  unwr  : Bool
  /-- STEP, reset 0 (15 R377). -/
  step  : Bool
  /-- SBCHK, reset 0 (15 R377). -/
  sbchk : Bool
  /-- TRAP, reset 0 (15 R377). -/
  trap  : Bool
  /-- EXEC, reset the record's EXEC (15 R377). -/
  exec  : Bool
  deriving DecidableEq, Repr

/-- An entry of the loop stack (03 R74): counter, start and final word. -/
structure LoopEntry where
  n     : BitVec 2
  start : Word
  fin   : Word
  deriving DecidableEq, Repr

/-- One element of an access that is performed later (05 R116): flat address, bytes, element index, data. -/
structure PendElem where
  addr : Nat
  len  : Nat
  idx  : Nat
  data : Word
  deriving DecidableEq, Repr

/-- What a deferred access does when it is performed (05 R116, 06 R140). -/
inductive PendKind where
  | loadG (d : BitVec 5)
  | loadV (phys width : Nat)
  | store
  | red (op : BitVec 4) (dbl : Bool)
  | fmt
  /-- The arrival of a strand at a barrier that another device keeps (06 R153; 14 R355). -/
  | bar
  /-- The template of a `spawn` that another device holds (12 R290; 14 R349). -/
  | spawn
  deriving DecidableEq, Repr

/-- An access issued and not yet performed (05 R116). -/
structure Pend where
  kind      : PendKind
  scratch   : Bool
  /-- The address that a late fault reports; none: the element's own. -/
  va        : Option Word
  elems     : List PendElem
  cacheable : Bool
  hint      : BitVec 2
  /-- A store to a host-order page, which keeps program order with the slot's other ones (05 R128). -/
  hostOrd   : Bool
  /-- A plain store to a host page without host-order, which only later stores of the slot to host memory pass (04 R100;
  05 R113, R128). -/
  plain     : Bool := false
  deriving DecidableEq, Repr

/-- An ordering instruction whose actions are not yet complete (05 R118). -/
structure Ordering where
  kind  : BitVec 2
  scope : BitVec 3
  mask  : BitVec 2
  deriving DecidableEq, Repr

/-! ## Engine commands -/

/-- A copy command (04 R107). -/
structure CopyCmd where
  strand : Nat
  pid    : BitVec 12
  exec   : Bool
  isLp   : Bool
  core   : Nat
  /-- The tile whose engine has the command. -/
  tile   : Nat
  src    : Word
  dst    : Word
  word2  : Word
  word3  : Word
  stat   : Nat
  bad    : Bool
  running : Bool
  cancel : Bool
  /-- The bytes of a source in another device have been asked for (14 R349). -/
  asked  : Bool
  /-- A remote access of the command failed, at this address (14 R350, R351). -/
  failed : Option Word
  /-- The data have moved, or the command has stopped: status code, translation cause, address (04 R108). -/
  moved  : Option (Nat × Nat × Word)
  deriving DecidableEq, Repr

/-- The optical commands (09 R219, R218; 10 R243). -/
inductive OptKind where
  | pass | passr | phld | phst | psel | dcmp | clr
  deriving DecidableEq, Repr

/-- A command of a tile's optical queue (09 R220). -/
structure OptCmd where
  kind    : OptKind
  /-- The tile whose queue has the command. -/
  tile    : Nat
  strand  : Nat
  pid     : BitVec 12
  exec    : Bool
  isLp    : Bool
  /-- Number of the handler that issued it (10 R267). -/
  handler : Nat
  ack     : Option (BitVec 5)
  pal     : BitVec 2
  addr    : Word
  n       : Nat
  desc0   : Word
  desc1   : Word
  floor   : BitVec 7
  emulate : Bool
  ticket  : BitVec 32
  /-- The command is an action of the varnish stage (13 R338). -/
  varn    : Bool
  running : Bool
  cancel  : Bool
  /-- The loader has asked other devices for the bytes of its image that they hold (14 R349). -/
  asked   : Bool := false
  /-- Address of the first access to another device that failed (14 R350). -/
  failed  : Option Word := none
  /-- The loader has written its image and awaits other devices' acknowledgements: status, cause and address. -/
  moved   : Option (Nat × Nat × Word) := none
  deriving DecidableEq, Repr

/-- What a slab or half is: the thing that an owner field governs (04 R87). -/
inductive Owned where
  | slab (tile n : Nat)
  | half (tile h : Nat)
  deriving DecidableEq, Repr

/-- An exact-matrix command (11 R272, R273). -/
structure XmmCmd where
  strand : Nat
  pid    : BitVec 12
  ack    : Option (BitVec 5)
  strict : Bool
  core   : Nat
  d0     : Word
  d1     : Word
  d2     : Word
  d3     : Word
  running : Bool
  leave  : Bool
  cancel : Bool
  status : BitVec 8
  /-- The slabs that it flips at its end, as it found them at its start (11 R276). -/
  slabs  : List Owned := []
  /-- It is in its write phase, with C written (11 R275, R281). -/
  writing : Bool := false
  /-- Products, flags and replaced outputs, from the write phase on (11 R277). -/
  prods  : Nat := 0
  flags  : BitVec 6 := 0
  npois  : Nat := 0
  deriving DecidableEq, Repr

/-- What a parked strand waits for (12 R301; 06 R148). -/
inductive Park where
  | lde (d : BitVec 5) (addr : Nat)
  | stf (addr : Nat) (v : Word)
  | fifoLd (bank : Nat) (d : BitVec 5)
  | fifoSt (bank : Nat) (v : Word)
  | fifoVld (bank : Nat) (phys : Nat)
  | fifoVst (bank : Nat) (v : VReg)
  | ownw (addr : Nat)
  | lrw (d : BitVec 5) (addr : Nat)
  | bar (gcb : Word) (gen : BitVec 16)
  | bankcfg (bank : Nat)
  | bankHeld (bank : Nat)
  | optQueue (c : OptCmd)
  | copyQueue (c : CopyCmd)
  | xmmQueue (c : XmmCmd)
  | collQueue (d0 d1 d2 d3 : Word)
  | pebc (d : BitVec 5)
  | clkm
  | prmt
  | mrecv
  | logRoom (bytes : Nat)
  | held
  | remote (tag : BitVec 16)
  | again
  | sysreg
  | frozen
  deriving DecidableEq, Repr

/-- A fault that a logical process holds (13 R339): cause, XPC, XVAL, LATE. -/
structure HeldFault where
  cause : BitVec 16
  xpc   : Word
  xval  : Word
  late  : Bool
  /-- It is delivered, so it is taken as a trap even in a handler (13 R339). -/
  final : Bool
  /-- Number of the handler that raised it; none for the strand's present one (10 R267). -/
  hno   : Option Nat := none
  deriving DecidableEq, Repr

/-- A trap that a strand still has to take at a boundary (15 R384). -/
structure Bound where
  /-- STEP is due for the instruction just completed (15 R384). -/
  step   : Bool
  /-- CANCEL is due (12 R304). -/
  cancel : Bool
  /-- TIME in half ns since when it is due (12 R304). -/
  cancelAt : Nat
  /-- PRMTO is due (12 R308). -/
  prmto  : Bool
  /-- A debug stop is due, with its KEEP bit (15 R404). -/
  stop   : Option Bool
  /-- The strand is driven to a safe point by `prmt` (12 R307). -/
  preempt : Bool
  /-- A fault of an earlier access, to be taken late (15 R382). -/
  late   : Option HeldFault
  deriving DecidableEq, Repr

/-- A strand's place as a logical process (13 R313, R321, R334). -/
structure LpCtx where
  /-- LP identifier (13 R313). Reset 0. -/
  lpid  : BitVec 32
  /-- Local virtual time, initially VTIME (13 R323). Reset 0. -/
  lvt   : Word
  /-- SEQ of the last message sent (13 R334). Reset 0. -/
  lpseq : Word
  /-- Incarnation (13 R327). Reset 0. -/
  inc   : BitVec 16
  /-- In a handler (13 R323). Reset false. -/
  inh   : Bool
  /-- Handlers begun and not undone, which numbers them; the model's own field (10 R267). Reset 0. -/
  hno   : Nat
  /-- The held fault, if any (13 R339). Reset none. -/
  held  : Option HeldFault
  /-- In EXITP (13 R340). Reset false. -/
  exitp : Bool
  deriving DecidableEq, Repr

/-- The pass summary of a strand (10 R263). -/
structure PassSummary where
  npass  : BitVec 16
  status : BitVec 8
  ebc    : BitVec 7
  deriving DecidableEq, Repr

/-- One of a core's 16 slots with the strand it holds (01 R13; 03 R54; 12 R285). -/
structure Slot where
  /-- The slot holds a strand (01 R13). Reset false. -/
  occ     : Bool
  /-- Address of the next instruction, 57 bits in a 64-bit word (12 R283). Reset 0, DESIGN CHOICE 3. -/
  pc      : Word
  /-- The record's fields (12 R283). Reset zero, DESIGN CHOICE 3. -/
  record  : Rec
  /-- g0 to g31, 64 bits each (03 R54). Reset zero (16 R412: register files are scrubbed). -/
  g       : Vector Word 32
  /-- The slot's vector registers, 2,048 bits each, 16 to 128 by mode (01 R13). Reset zero (08 R188). -/
  v       : Vector VReg 128
  /-- p0 to p7, 256 bits each; p0 reads as ones (02 R28, 08 R186). Reset zero (08 R188). -/
  p       : Vector Mask 8
  /-- The constant-bank view k0 to k255, 256 words of 32 bits (03 R68). Reset zero. -/
  kbank   : BitVec 8192
  /-- lc0 to lc2, 64 bits each (03 R74). Reset zero (16 R412). -/
  lc      : Vector Word 3
  /-- The loop stack, top first, at most three entries (03 R74). Reset empty. -/
  loops   : List LoopEntry
  /-- The loop entries at and past DEPTH as LSTS and LSTE read them: executive writes only (15 R388). Reset zero. -/
  loopSpare : Vector LoopEntry 3
  /-- FXF, 6 bits (03 R54). Reset 0. -/
  fxf     : BitVec 6
  /-- VXF, 6 bits (08 R187). Reset 0. -/
  vxf     : BitVec 6
  /-- VSHAPE.W, 2 bits (08 R182). Reset 0b10. -/
  vw      : BitVec 2
  /-- VSHAPE.LR, 4 bits (08 R182). Reset 0. -/
  vlr     : BitVec 4
  /-- VWIN, 2 bits (02 R39). Reset 0. -/
  vwin    : BitVec 2
  /-- FMT, bits [3:0] (07 R168). Reset 0. -/
  fmt     : BitVec 4
  /-- SCL, 64 bits with its reserved bits zero (07 R169). Reset 0. -/
  scl     : Word
  /-- PFLOOR's floor F, 7 bits (10 R262). Reset 0. -/
  floor   : BitVec 7
  /-- PFLOOR's policy, true for EMULATE (10 R262). Reset true. -/
  emulate : Bool
  /-- The pass summary (10 R263). Reset 0, 0, 127. -/
  psum    : PassSummary
  /-- The generation at which the strand has arrived at a barrier that another device keeps (06 R153; 14 R355). Reset none. -/
  barGen  : Option (BitVec 16) := none
  /-- The pending floor fault: first ticket and the number of the handler that issued the pass (10 R266, R267). Reset
  none. -/
  floorPend : Option (BitVec 32 × Nat)
  /-- STATUS (15 R377). Reset zero. -/
  status  : Status
  /-- XPC, 64 bits (15 R382). Reset 0. -/
  xpc     : Word
  /-- XSW, 64 bits (15 R382). Reset 0. -/
  xsw     : Word
  /-- XCAUSE, bits [16:0] (15 R382). Reset 0. -/
  xcause  : BitVec 17
  /-- XVAL, 64 bits (15 R382). Reset 0. -/
  xval    : Word
  /-- XTMP0 to XTMP3, 64 bits each (15 R382, R387). Reset 0. -/
  xtmp    : Vector Word 4
  /-- What the strand waits for while parked (12 R301). Reset none. -/
  park    : Option Park
  /-- TIME in half ns when the strand parked (12 R301). Reset 0. -/
  since   : Nat
  /-- The stall hint of the parked instruction, applied when it completes (02 R30). Reset 0, DESIGN CHOICE 3. -/
  parkSh  : BitVec 2
  /-- Deferred accesses, oldest first (05 R116). Reset empty. -/
  pend    : List Pend
  /-- The ordering instruction still waiting (05 R118). Reset none. -/
  ordr    : Option Ordering
  /-- The line whose reservation the slot holds or awaits (06 R146). Reset none. -/
  rsvLine : Option Nat
  /-- A reservation was revoked since the last `lrw` (06 R146). Reset false. -/
  revoked : Bool
  /-- The slot's copy commands not yet complete (04 R108). Reset 0. -/
  cpOut   : Nat
  /-- The code of the first failed copy command since `cpstat` (04 R108). Reset 0. -/
  cpFail  : BitVec 8
  /-- Ticket of the last pass accepted since pick-up (10 R264). Reset none. -/
  ticket  : Option (BitVec 32)
  /-- The last accepted pass has OKEEP = 1 (12 R306). Reset false. -/
  okeep   : Bool
  /-- The last accepted `xmm` has KEEP = 1 (12 R306). Reset false. -/
  xkeep   : Bool
  /-- The passes of the strand accepted and not ended (10 R263). Reset 0. -/
  passOut : Nat
  /-- The g registers that await an engine's reply (09 R219; 10 R244; 11 R272). Reset none. -/
  acks    : List (BitVec 5)
  /-- Faults of relaxed remote loads, by destination, in order (14 R350). Reset none. -/
  lateLoad : List (RegName × HeldFault)
  /-- The first fault of a relaxed remote store (14 R350). Reset none. -/
  lateStore : Option HeldFault
  /-- The `xmm` commands of the strand accepted and not ended (11 R281). Reset 0. -/
  xmmOut  : Nat
  /-- The frame came from the migration frame pool registered under this number (14 R356). Reset none. -/
  pooled  : Option Nat
  /-- STATE of the record in the frame (12 R284): 1 while the strand is in a slot. Reset 0. -/
  rstate  : BitVec 4
  /-- RMAX of the strand's group as its launch read it, 15 after a migration: the limit of its radius whenever it is placed
  again (12 R286, R296; 14 R355). Reset 0. -/
  rmax    : Nat := 0
  /-- Registers with uncorrectable data that nothing has consumed, and the address that the error reports (15 R389). Reset none. -/
  badRegs : List (RegName × Word) := []
  /-- A cancel has counted the strand as ended (12 R304). Reset false. -/
  counted : Bool
  /-- Traps due at the next boundary (15 R384). Reset none due. -/
  bound   : Bound
  /-- The strand as a logical process (13 R313). Reset zero. -/
  lp      : LpCtx
  /-- Issue opportunities still to skip (02 R30). Reset 0. -/
  skips   : Nat
  /-- Cycle before which a control transfer keeps the slot from issuing (03 R53). Reset 0. -/
  notBefore : Nat
  /-- Registers with a fixed-latency result and the cycle it is available (03 R51). Reset empty. -/
  ready   : List (RegName × Nat)
  /-- The boundary found the hint too small with SBCHK set (02 R31): the next issue raises SBHINT. Reset false. -/
  sbHint  : Bool
  /-- The loop buffer: addresses and words captured since the loops began (03 R76). Reset empty. -/
  lbuf    : List (Word × BitVec 32)
  /-- The PC was reached by a transfer, `rtx` or a pick-up, so LITTGT is still to be checked (02 R33). Reset false. -/
  landed  : Bool
  deriving DecidableEq, Repr

/-! ## Tiles -/

/-- One line held in a tile cache (04 R90; 05 R111). -/
structure CLine where
  /-- The bank that holds the line: its way (04 R90). -/
  way    : Nat
  /-- The physical line number PA / 256. -/
  line   : Nat
  /-- The PID under whose key the line is read and written back (04 R95). -/
  pid    : BitVec 12
  /-- The recorded hint of the page it was filled through (05 R111). -/
  hint   : BitVec 2
  /-- Valid 64-byte sectors (04 R90). -/
  valid  : BitVec 4
  /-- Dirty bytes (05 R111). -/
  dirty  : BitVec 256
  /-- The line's 256 bytes. -/
  data   : VReg
  deriving DecidableEq, Repr

/-- A strand waiting at a bank, in arrival order (06 R148). -/
structure WaitEntry where
  /-- The strand's identity: PID and frame. -/
  strand : Nat
  /-- What it waits for. -/
  what   : Park
  /-- It waits in the overflow chain, past the list's 64 entries (06 R148). -/
  chained : Bool
  deriving DecidableEq, Repr

/-- One bank of a tile's SRAM (04 R82 to R86). -/
structure Bank where
  /-- PID the bank is assigned to, 12 bits (04 R83). Reset 0. -/
  pid   : BitVec 12
  /-- MODE: 0 cache, 1 scratchpad, 2 FIFO (04 R82). Reset 0. -/
  mode  : BitVec 2
  /-- SW: a switch is in progress (04 R83). Reset false. -/
  sw    : Bool
  /-- Pending `bankcfg` requests in arrival order: strand identity, new mode (04 R85). Reset empty. -/
  queue : List (Nat × BitVec 2)
  /-- Strands whose access the bank holds, in arrival order (04 R85). Reset empty. -/
  held  : List Nat
  /-- FIFO words queued, oldest first (04 R86). Reset empty. -/
  fifo  : List Word
  /-- HEAD, 17 bits (04 R83). Reset 0. -/
  head  : BitVec 17
  /-- The bank's wait list with its overflow chain (06 R148). Reset empty. -/
  waits : List WaitEntry
  deriving DecidableEq, Repr

/-- The content of a palette (09 R212). -/
structure Palette where
  /-- V and U mesh codes, θ and φ in image order, 16 bits each, as forced (09 R210, R214). -/
  mesh   : List (BitVec 16)
  /-- 64 attenuator codes (09 R212). -/
  att    : List (BitVec 16)
  /-- 64 screen codes (09 R212). -/
  screen : List (BitVec 16)
  /-- s_w (09 R212). -/
  sw     : BitVec 8
  /-- n (09 R212). -/
  n      : BitVec 7
  /-- FEBC (09 R212). -/
  febc   : BitVec 7
  /-- TAG (09 R212). -/
  tag    : Word
  /-- Owner PID (09 R212). -/
  pid    : BitVec 12
  /-- PEBC0 (09 R234). -/
  pebc0  : BitVec 7
  /-- CALGEN of the conversion (09 R216); none: stale from the start. -/
  conv   : Option (BitVec 16)
  deriving DecidableEq, Repr

/-- A group of vectors that has entered (10 R249, R254). -/
structure PassGroup where
  first : Nat
  count : Nat
  emu   : Bool
  /-- Declared EBC (10 R254). -/
  ebc   : Nat
  deriving DecidableEq, Repr

/-- A pass that has started (10 R247 to R256). -/
structure PassRun where
  cmd    : OptCmd
  /-- The start checks passed (10 R248). -/
  ok     : Bool
  /-- Next vector to enter (10 R249). -/
  next   : Nat
  /-- Groups entered and not written (10 R258). -/
  groups : List PassGroup
  leave  : Bool
  status : BitVec 8
  ending : Bool
  ebc    : BitVec 7
  flags  : BitVec 6
  done   : Nat
  nemu   : Nat
  nsat   : Nat
  nnan   : Nat
  inOwned  : Bool
  outOwned : Bool
  deriving DecidableEq, Repr

/-- The state of an optical tile (09 R217). -/
inductive TileState where
  | dark | calib | ready | hold | digital
  deriving DecidableEq, Repr

/-- An optical tile (09 R207 to R242; 10 R256). -/
structure Optics where
  /-- State (09 R217). Reset DARK. -/
  state   : TileState
  /-- Palettes 0 to 3, none when EMPTY (09 R212, R213). Reset EMPTY. -/
  pals    : Vector (Option Palette) 4
  /-- Active palette (09 R213). Reset 0. -/
  active  : BitVec 2
  /-- The optical queue, in acceptance order, running commands included (09 R220). Reset empty. -/
  queue   : List OptCmd
  /-- The passes that have started and not ended, oldest first (10 R248, R260). Reset none. -/
  runs    : List PassRun
  /-- Acceptance counter, 32 bits (10 R256). Reset 0. -/
  acc     : BitVec 32
  /-- PCNT, 32 bits (10 R256). Reset 0. -/
  pcnt    : BitVec 32
  /-- OTCTL.OFF (09 R218). Reset true. -/
  off     : Bool
  /-- OTCTL.CAL was written and calibration has not begun (09 R218). Reset false. -/
  calReq  : Bool
  /-- A calibration of the tile stands (09 R217, R218). Reset false. -/
  calibrated : Bool
  /-- CALGEN, 16 bits (09 R216, R235). Reset 0. -/
  calgen  : BitVec 16
  /-- TIME in half ns of the last calibration, from which CALAGE follows; none before the first (09 R237). Reset none. -/
  calAt   : Option Nat
  /-- DEBC fields, 28 bits (09 R236). Reset 0. -/
  debc    : BitVec 28
  /-- D_m, 16 bits (09 R237). Reset 0xFFFF. -/
  dm      : BitVec 16
  /-- DRATE, 16 bits (09 R237). Reset 0. -/
  drate   : BitVec 16
  /-- TIME in half ns of the last swatch of each wavelength since the tile entered READY, from which SWAGE follows
  (09 R237). Reset none. -/
  lastSw  : Vector (Option Nat) 8
  /-- Vectors that each wavelength has carried since its last swatch (09 R231). Reset 0. -/
  laneVec : Vector Nat 8
  /-- TEMPMAX, 8 bits (09 R237). Reset 0. -/
  tempMax : BitVec 8
  /-- TEMPSPAN, 8 bits (09 R237). Reset 0. -/
  tempSpan : BitVec 8
  /-- QMON, 8 bits (09 R237). Reset 0. -/
  qmon    : BitVec 8
  /-- LIVE, 8 bits (09 R237). Reset 0. -/
  live    : BitVec 8
  /-- OSWM, 64 bits (09 R237). Reset 0. -/
  oswm    : Word
  /-- A swatch has been sent since the tile entered READY (09 R237). Reset false. -/
  swatched : Bool
  /-- Next swatch number per rotation, 0 to 63 (09 R231). Reset 0. -/
  swatch  : BitVec 6
  /-- OERR, 64 bits with reserved bits zero (09 R238). Reset 0. -/
  oerr    : Word
  /-- PEBC0 for n = 64 at the last calibration, for the discovery table (16 R414). Reset 0. -/
  pebc64  : BitVec 7
  deriving DecidableEq, Repr

/-- An entry of a tile's profile table (15 R400). -/
structure ProfEntry where
  idx    : Nat
  pc     : Word
  reason : Nat
  pid    : BitVec 12
  count  : Nat
  deriving DecidableEq, Repr

/-- A tile (01 R8, R14, R15). -/
structure Tile where
  /-- Banks 0 to 15 (04 R82). Reset cache mode. -/
  banks   : Vector Bank 16
  /-- Owner codes of slabs that are not 0: (slab number, code) (04 R88). Reset none. -/
  owners  : List (Nat × BitVec 3)
  /-- Owner codes of I0, I1, O0, O1 (04 R87, R88). Reset 0. -/
  halves  : Vector (BitVec 3) 4
  /-- PID of the pass-buffer halves (04 R84). Reset 0. -/
  pbPid   : BitVec 12
  /-- The wait list the halves share (06 R148). Reset empty. -/
  pbWaits : List WaitEntry
  /-- Scratchpad word addresses whose full/empty bit is EMPTY (04 R89). Reset none. -/
  empties : List Nat
  /-- Scratchpad word addresses whose written bit is set (04 R89). Reset none. -/
  written : List Nat
  /-- The tile cache's lines (04 R90). Reset none. -/
  cache   : List CLine
  /-- The copy engine's commands, oldest first (04 R107). Reset empty. -/
  copies  : List CopyCmd
  /-- The exact matrix unit's commands, oldest first (11 R272). Reset empty. -/
  xmms    : List XmmCmd
  /-- The optical tile (09 R207). -/
  opt     : Optics
  /-- PKEV, 16 bits (12 R301). Reset 20. -/
  pkev    : BitVec 16
  /-- The tile is pinned (15 R397). Reset false. -/
  pinned  : Bool
  /-- TIME in half ns of the first pinned cycle, from which OFTC follows while the tile is pinned (10 R259; 15 R397).
  Reset 0. -/
  pinnedAt : Nat
  /-- A pin was requested and has not happened (15 R396). Reset false. -/
  pinReq  : Bool
  /-- Base frequency in MHz (15 R394). Reset 1600. -/
  freq    : BitVec 16
  /-- DROOP.STRETCH, 32 bits (15 R394). Reset 0. -/
  stretch : BitVec 32
  /-- DROOP.MAXS, 8 bits (15 R394). Reset 0. -/
  maxs    : BitVec 8
  /-- DROOP.FDET, 8 bits (15 R394). Reset 0. -/
  fdet    : BitVec 8
  /-- LEAVE.GRANTS, 32 bits (15 R399). Reset 0. -/
  grants  : BitVec 32
  /-- PIDs that hold a leave reservation on the tile, at most four (15 R399). Reset none. -/
  rsvs    : List (BitVec 12)
  /-- Leave requests that wait: 0 pass, 1 xmm, 2 collective chunk (15 R399). Reset none. -/
  leaveQ  : List Nat
  /-- The module's estimated power would exceed the envelope, or a junction of the tile is above 100 °C, so that its governor
  withholds leave (16 R420). Reset false. -/
  tight   : Bool := false
  /-- PROFCTL, 64 bits (15 R400). Reset 0. -/
  profctl : Word
  /-- The profile table (15 R400). Reset empty. -/
  prof    : List ProfEntry
  deriving DecidableEq, Repr

/-! ## Cores -/

/-- A write-combining buffer (04 R104). -/
structure WcBuf where
  /-- The slot it serves (strand identity). -/
  strand : Nat
  /-- Its PID. -/
  pid    : BitVec 12
  /-- Physical line number. -/
  line   : Nat
  /-- Virtual address of the line's first byte, under which its latest store named it (14 R350). -/
  va     : Word
  /-- Bytes written. -/
  mask   : BitVec 256
  data   : VReg
  deriving DecidableEq, Repr

/-- A core (01 R13; 03 R50 to R52; 15 R402). -/
structure Core where
  /-- Thread-count mode code (01 R13). Reset 0, mode 16, DESIGN CHOICE 3. -/
  mode    : BitVec 2
  /-- RSV, the priority the core is reserved at (12 R307). Reset 0. -/
  rsv     : BitVec 4
  /-- ROUTE.HOLD (04 R92). Reset false. -/
  hold    : Bool
  /-- ROUTE.ELEV, none while it holds its reset value 4t + (core div 4) (04 R92). Reset none. -/
  elev    : Option (BitVec 6)
  /-- Cycles of the core (03 R51). Reset 0. -/
  cycle   : Nat
  /-- Next slot of the round (03 R50). Reset 0. -/
  rot     : Nat
  /-- A slot has issued in this round (03 R50). Reset false. -/
  issued  : Bool
  /-- Cycle from which the divider is free (03 R52). Reset 0. -/
  divFree : Nat
  /-- Cycle from which the vector unit is free (08 R205). Reset 0. -/
  vecFree : Nat
  /-- Write-combining buffers, least recently written first, at most 8 (04 R104). Reset none. -/
  wc      : List WcBuf
  /-- SLC0 to SLC4 (15 R402). Reset 0. -/
  slc     : Vector Word 5
  /-- The 17 bins of RDYH0 to RDYH8, 32 bits each (15 R402). Reset 0. -/
  rdyh    : Vector (BitVec 32) 17
  /-- Slots kept vacant by a debug stop (15 R404). Reset none. -/
  kept    : List Nat
  /-- Executive events of a service core, oldest first (15 R406). Reset empty. -/
  events  : List (BitVec 16 × BitVec 48)
  deriving DecidableEq, Repr

/-! ## Work, jobs and virtual time -/

/-- A work item in placement (12 R296). -/
structure Item where
  /-- The strand's record. -/
  record  : Rec
  /-- Its PC. -/
  pc      : Word
  /-- Position on the grid. -/
  x       : Nat
  y       : Nat
  /-- Current radius and its limit RMAX (12 R296). -/
  radius  : Nat
  rmax    : Nat
  /-- Step along the ring once it circles (12 R296). -/
  ring    : Option Nat
  /-- The tile in whose overflow queue it waits (12 R296). -/
  ovq : Option Nat
  /-- The core and slot that have taken it, until the pick-up (12 R299). -/
  taken   : Option (Nat × Nat)
  /-- N of its group at launch, for g1 (12 R299). -/
  total   : Nat
  /-- TIME in half ns since when it circles at its radius (12 R296). -/
  since   : Nat
  /-- The identifier of a logical process at its launch, LPBASE + GIDX (13 R313). -/
  lpid    : Nat := 0
  /-- A stamp of its arrival where it is now, rising over all items (12 R297). -/
  arrived : Nat := 0
  deriving DecidableEq, Repr

/-- A message or anti-message (13 R317, R318). -/
structure Msg where
  pid     : BitVec 12
  dest    : BitVec 32
  sender  : BitVec 32
  vrt     : Word
  seq     : Word
  inc     : BitVec 16
  sel     : BitVec 16
  size    : BitVec 16
  anti    : Bool
  colour  : Bool
  nolp    : Bool
  svt     : Word
  /-- It came over the fabric (13 R333). -/
  fabric  : Bool
  /-- It was released in skid mode from a group whose tag failed, so it is not counted (13 R330). -/
  skid    : Bool
  payload : BitVec 1536
  deriving DecidableEq, Repr

/-- A message in an LP's queue (13 R316, R321). -/
structure QMsg where
  msg       : Msg
  processed : Bool
  /-- Pool line that holds it (13 R317). -/
  line      : Nat
  deriving DecidableEq, Repr

/-- A handler-start checkpoint (13 R323). -/
structure Ckpt where
  vrt    : Word
  sender : BitVec 32
  seq    : Word
  minc   : BitVec 16
  lvt    : Word
  lpseq  : Word
  pc     : Word
  g      : Vector Word 32
  fxf    : BitVec 6
  lc     : Vector Word 3
  loops  : List LoopEntry
  fmt    : BitVec 4
  scl    : Word
  vw     : BitVec 2
  vlr    : BitVec 4
  vwin   : BitVec 2
  vxf    : BitVec 6
  floor  : BitVec 7
  emulate : Bool
  hno    : Nat
  deriving DecidableEq, Repr

/-- A dead letter in its ring slot, and whether it is final (13 R341). -/
structure DeadLetter where
  slot  : Nat
  msg   : Msg
  final : Bool
  deriving DecidableEq, Repr

/-- An irrevocable action queued by `varn` (13 R337). -/
structure Action where
  d0    : Word
  a     : Word
  b     : Word
  vtime : Word
  lp    : BitVec 32
  idx   : Nat
  prio  : BitVec 4
  deriving DecidableEq, Repr

/-- An entry of a pentimento log (13 R324). -/
inductive LogEntry where
  | ckpt (c : Ckpt)
  | store (addr : Nat) (old : Word) (vtime : Word)
  | send (dest : BitVec 32) (seq : Word) (inc : BitVec 16) (vrt : Word)
  | varn (a : Action)
  deriving DecidableEq, Repr

/-- The states of an LP identifier (13 R316). -/
inductive LpState where
  | unused | live | exitp | exited
  deriving DecidableEq, Repr

/-- An LP's entry in the LP table with its queue and log (13 R316, R324). -/
structure Lp where
  /-- State of the identifier (13 R316). Reset UNUSED. -/
  state  : LpState
  /-- The strand's identity. -/
  strand : Nat
  /-- Queued positive messages (13 R316). Reset empty. -/
  queue  : List QMsg
  /-- Held anti-messages (13 R329). Reset empty. -/
  antis  : List Msg
  /-- The log, newest first (13 R324). Reset empty. -/
  log    : List LogEntry
  /-- Varnish-queue index of the next `varn` (13 R338). Reset 0. -/
  nvarn  : Nat
  /-- A rollback is due with this trigger key (13 R326). Reset none. -/
  due    : Option (Word × BitVec 32 × Word × BitVec 16)
  deriving DecidableEq, Repr

/-- A cause entry of a fatal context (15 R391). -/
structure CauseEntry where
  cause : BitVec 16
  src   : BitVec 16
  flags : BitVec 32
  xpc   : Word
  xval  : Word
  time  : Word
  deriving DecidableEq, Repr

/-- What the device holds for one PID (12 R288; 13 R314, R315; 15 R389, R395; 16 R418). -/
structure Job where
  /-- The job counter (12 R288). Reset 0. -/
  count   : Nat
  /-- Generation of the PID's valid key (16 R418). Reset none. -/
  key     : Option Nat
  /-- FTSET allows the PID (15 R395). Reset false. -/
  ftOk    : Bool
  /-- The context is in fixed-timing mode (15 R395). Reset false. -/
  ft      : Bool
  /-- Registered VJB address (13 R315). Reset none. -/
  vjb     : Option Word
  /-- VPT (13 R334). Reset 0. -/
  vpt     : Word
  /-- The job's current colour (13 R332). Reset false. -/
  colour  : Bool
  /-- Messages sent and received by colour, and over the fabric by fabric colour (13 R332, R333). Reset 0. -/
  sent    : Vector Nat 2
  recvd   : Vector Nat 2
  fsent   : Vector Nat 2
  frecvd  : Vector Nat 2
  /-- Fabric colour (13 R333). Reset false. -/
  fcolour : Bool
  /-- The fabric round: 0 none, 1 the colour has flipped, 2 a device round has followed, 3 unbalanced (13 R333). Reset 0. -/
  fround  : Nat
  /-- Lowest VRT of the fabric messages stamped in the new fabric colour (13 R333). Reset none. -/
  fmred   : Option Word
  /-- Lowest VRT stamped in the new colour since the flip (13 R332). Reset none. -/
  mred    : Option Word
  /-- A round is in progress: the colour has flipped and the counts have not balanced (13 R332). Reset false. -/
  round   : Bool
  /-- The latest local minimum G (13 R333). Reset 0. -/
  gmin    : Word
  /-- The same without the LVTs of processes that hold held faults (13 R339). Reset 0. -/
  gfree   : Word := 0
  /-- Fabric messages of the old fabric colour sent less received, at the moment of G (13 R333). Reset 0. -/
  gsum    : Int := 0
  /-- LP entries by identifier (13 R316). Reset none. -/
  lps     : List (Nat × Lp)
  /-- The varnish queue (13 R336). Reset empty. -/
  varnish : List Action
  /-- Pool lines in use (13 R317). Reset none. -/
  lines   : List Nat
  /-- Dead letters in arrival order (13 R341). Reset empty. -/
  dead    : List DeadLetter
  /-- Ring slot of the next dead letter (13 R341). Reset 0. -/
  deadPut : Nat
  /-- DEADLTR has been raised since the executive last cleared DLCNT (13 R341). Reset false. -/
  deadEvt : Bool := false
  /-- TIME in half ns since when a message waits for a full pool, and whether MSGFULL was raised for it (13 R320). Reset
  none, false. -/
  fullAt  : Option Nat
  fullEvt : Bool
  /-- Physical address of the migration frame pool and registrations made so far (14 R356). Reset none, 0. -/
  pool    : Option Nat
  poolGen : Nat
  /-- Devices to which strands of the PID have migrated, which a cancel has to reach (14 R355). Reset none. -/
  farDevs : List Nat := []
  /-- The device map as the registration read it, where another device holds it (13 R316; 14 R349). Reset empty. -/
  dmapFar : List Byte := []
  /-- STATE of the context's strands at its freeze, by identity (15 R391). Reset none. -/
  snap    : List (Nat × BitVec 4) := []
  /-- Dump area and compatibility bit (15 R390). Reset none. -/
  dump    : Option (Nat × Bool)
  /-- Causes of a fatal context, first first; nonempty from the fatal event until its release (15 R389). Reset empty. -/
  causes  : List CauseEntry
  /-- Step of the dump sequence: 0 freeze, 1 settle and write, 2 the compatibility-mode reset (15 R390). Reset 0. -/
  dumping : Nat
  /-- TRUNC of the dump written (15 R391). Reset false. -/
  trunc   : Bool
  /-- Steps of the compatibility-mode reset done (15 R393). Reset 0. -/
  compat  : Nat
  deriving DecidableEq, Repr

/-- A reservation queue of a line (06 R146): strand identities, head first, and whether the head has its grant. -/
structure RsvQueue where
  line    : Nat
  waiters : List Nat
  granted : Bool
  /-- TIME in half ns of the grant (06 R147). -/
  since   : Nat
  deriving DecidableEq, Repr

/-- A cancel under way (12 R304): level 0 group, 1 graph, 2 job. -/
structure CancelReq where
  level : BitVec 2
  pid   : BitVec 12
  addr  : Word
  /-- STATE of the named block before the cancel. -/
  prior : Nat
  /-- The sweep is done; a job's cancel still waits for its resident strands. -/
  swept : Bool
  /-- Devices that have it already, which it is not sent to again (14 R355). -/
  via   : List Nat := []
  deriving DecidableEq, Repr

/-- A group that the device knows (12 R304): named by a `spawn`, a launch or a `gdep`. -/
structure Known where
  pid     : BitVec 12
  gcb     : Word
  /-- Spawned or launched. -/
  spawned : Bool
  /-- Level and priority cap of the launch, for a deferred one (12 R290, R294). -/
  exec    : Bool
  prio    : BitVec 4
  /-- Cancelled with its graph or job: it fires no signal of its own (12 R304). -/
  quiet   : Bool
  /-- The group has completed since its launch (12 R304). -/
  done    : Bool := false
  /-- It completes, and this is the next successor to be released: the list lies in another device, which is asked for it
  (12 R294; 14 R349). -/
  ending  : Option Nat := none
  deriving DecidableEq, Repr

/-- A pre-emption under way (12 R307): the issuer, and the strands not yet resolved. -/
structure Preempt where
  issuer : Nat
  left   : List Nat
  /-- TIME in half ns of the request (12 R308). -/
  since  : Nat
  deriving DecidableEq, Repr

/-! ## Fabric, host and platform -/

/-- A collective (14 R369 to R371). -/
structure Coll where
  strand  : Nat
  pid     : BitVec 12
  exec    : Bool
  d0      : Word
  d1      : Word
  d2      : Word
  d3      : Word
  /-- STATE of `cstat` (14 R371): 1 JOINING, 2 RUNNING, 3 RESTART, 4 DONE. -/
  state   : BitVec 8
  status  : BitVec 8
  cancel  : Bool
  members : List Nat
  /-- Trees with their roots: edges as (parent, child) (14 R370). -/
  trees   : List (Nat × List (Nat × Nat))
  restarts : Nat
  /-- Number of the agreed table that the trees belong to (14 R370). -/
  version : Nat
  /-- Marks by chunk: 0 PENDING, 1 UPDONE, 2 DOWNDONE, 3 COMPLETE (14 R370). -/
  marks   : List Nat
  /-- Chunks for which leave was asked and granted (14 R370; 15 R399). -/
  asked   : Nat
  granted : Nat
  /-- Flags so far, for the sketchbook (14 R372). -/
  flags   : BitVec 6
  /-- Transfers received, and the own ones made, by chunk (14 R370). -/
  inbox   : List ChunkXfer
  /-- Chunk transfers this module has sent and that are not acknowledged, with their destination. -/
  outbox  : List (Nat × ChunkXfer)
  /-- The completion wave on tree 0: the members whose part of it has come, and whether it came down (14 R370). -/
  waves   : List (Nat × Bool) := []
  /-- This member has sent its own part of the wave to its parent. -/
  waved   : Bool := false
  deriving DecidableEq, Repr

/-- A remote access awaiting its reply (14 R350). -/
structure RemoteOut where
  tag     : BitVec 16
  strand  : Nat
  dev     : BitVec 11
  offset  : Nat
  len     : Nat
  va      : Word
  kind    : RemoteKind
  data    : List Byte
  /-- Where the reply goes. -/
  dst     : PendKind
  elems   : List PendElem
  relaxed : Bool
  /-- The aligned doublewords that a logical process logs when the reply brings their old bytes, with LVT (13 R325). -/
  logs    : List Nat
  lvt     : Word
  /-- Attempts made so far, the first included; 0 while it waits for an overlapping request of its strand (14 R353). -/
  attempts : Nat
  /-- TIME in half ns of the last attempt. -/
  since   : Nat
  /-- The last attempt has not been discarded in the fabric. -/
  inFlight : Bool
  /-- The bytes of an answered access that waits for the others of its plain instruction. -/
  reply   : Option (List Byte)
  /-- Why a request of the device itself failed; its reply is then empty (14 R350, R351). -/
  fault   : Option MigFail := none
  deriving DecidableEq, Repr

/-- A migration packet sent and not acknowledged, with the strand's content (14 R355). -/
structure MigOut where
  tag    : BitVec 16
  strand : Nat
  dev    : BitVec 11
  va     : Word
  slot   : Slot
  /-- TIME in half ns of the last attempt, and attempts made. -/
  since  : Nat
  attempts : Nat
  deriving DecidableEq, Repr

/-- A lane's health (14 R363). -/
structure Lane where
  /-- LHW.STATE, 3 bits (14 R363). Reset 4, DARK. -/
  state  : BitVec 3
  /-- LHW.POWER, 12 bits (14 R363). Reset 0x800. -/
  power  : BitVec 12
  /-- LHW.MARGIN, 12 bits (14 R363). Reset 0. -/
  margin : BitVec 12
  /-- LHW.BER, 8 bits (14 R363). Reset 0xFF. -/
  ber    : BitVec 8
  /-- LHW.LCERR, 16 bits (14 R363). Reset 0. -/
  lcerr  : BitVec 16
  /-- TIME in half ns when the lane was last failing, while FAILED (14 R363). Reset 0. -/
  badAt  : Nat
  /-- It is SPARE again after a failure, and returns to the width only at a RETRAIN or a laser-state change (14 R363). Reset
  false. -/
  back   : Bool := false
  deriving DecidableEq, Repr

/-- A fabric port (14 R358 to R364). -/
structure Port where
  /-- LCTL.EN (14 R362). Reset true. -/
  en     : Bool
  /-- LCTL.SKID (14 R362). Reset false. -/
  skid   : Bool
  /-- LCTL.MAXW, 3 bits (14 R362). Reset 0b100. -/
  maxw   : BitVec 3
  /-- LSTAT.STATE, 3 bits (14 R362). Reset 0, OFF. -/
  state  : BitVec 3
  /-- LSTAT.PEER, 11 bits (14 R362). Reset 0. -/
  peer   : BitVec 11
  /-- LSTAT.PPORT, 3 bits (14 R362). Reset 0. -/
  pport  : BitVec 3
  /-- LSTAT.TXW, 3 bits (14 R362). Reset 0. -/
  txw    : BitVec 3
  /-- LSTAT.RXW, 3 bits (14 R362). Reset 0. -/
  rxw    : BitVec 3
  /-- LSTAT.REPLAY, 32 bits (14 R362). Reset 0. -/
  replay : BitVec 32
  /-- LUTIL.TXF and RXF of the last completed window, 32 bits each (14 R362). Reset 0. -/
  txf    : BitVec 32
  rxf    : BitVec 32
  /-- Flits of the current window, and the number of the last completed one (14 R362). Reset 0. -/
  txNow  : Nat
  rxNow  : Nat
  window : Nat
  /-- Lanes 0 to 15 (14 R363). -/
  lanes  : Vector Lane 16
  /-- The lane map of the transmit direction (14 R358). Reset empty. -/
  lmap   : List Nat
  /-- Next sequence number to send and next expected (14 R359). Reset 0. -/
  txSeq  : BitVec 16
  rxSeq  : BitVec 16
  /-- Groups not acknowledged, oldest first, by number and the device that their packet goes to, 2,048 for one that every
  neighbour gets: those sent are in the replay buffer, the rest wait to be sent (14 R359). Reset empty. -/
  unacked : List (BitVec 16 × Nat)
  /-- How many of them have been sent, at most 2,048 (14 R359). Reset 0. -/
  out     : Nat := 0
  /-- The next slot of the transmit and of the receive direction, counted from their last width negotiation (14 R358).
  Reset 0. -/
  txSlot  : Nat := 0
  rxSlot  : Nat := 0
  /-- The lane map of the receive direction (14 R358). Reset empty. -/
  rmap    : List Nat := []
  /-- Transmit lanes that have recovered and return to the width at the next RETRAIN or laser-state change (14 R363). Reset
  none. -/
  txIdle  : List Nat := []
  /-- A NAK was sent and its number has not come again (14 R359). Reset false. -/
  nakked : Bool
  /-- RETRAIN was written while the transmit direction sleeps, and is due when it wakes (14 R362). Reset false. -/
  retrainDue : Bool := false
  /-- Transmit lanes reported failing, with TIME in half ns of the report (14 R364). Reset none. -/
  txBad  : List (Nat × Nat)
  deriving DecidableEq, Repr

/-- A host launch queue (12 R309 to R311). -/
structure LaunchQueue where
  /-- QCTL.SDROP, 12 bits (12 R310). Reset 0. -/
  sdrop : BitVec 12
  /-- QCTL.LDROP, 12 bits (12 R310). Reset 0. -/
  ldrop : BitVec 12
  /-- QCTL.QGEN, 4 bits (12 R310). Reset 0. -/
  qgen  : BitVec 4
  /-- QCTL.PID, 12 bits (12 R310). Reset 0. -/
  pid   : BitVec 12
  /-- QCTL.PMAX, 4 bits (12 R310). Reset 0. -/
  pmax  : BitVec 4
  /-- QCTL.QUAD, 2 bits (12 R310). Reset 0. -/
  quad  : BitVec 2
  /-- QCTL.EN (12 R310). Reset false. -/
  en    : Bool
  /-- Records in the FIFO, oldest first, at most 256 (12 R309). Reset empty. -/
  fifo  : List (BitVec 512)
  /-- Torn down, and EN not set since (12 R311). Reset false. -/
  torn  : Bool := false
  deriving DecidableEq, Repr

/-- The boot state of the device and its platform registers (16 R410 to R419). -/
structure Platform where
  /-- DEVST.SVC, 2 bits (16 R410). Reset 0. -/
  svc     : BitVec 2
  /-- DEVST.BOOTERR, 8 bits (16 R410). Reset 0. -/
  bootErr : BitVec 8
  /-- The device is device-fatal: DEVST.FATAL (15 R392; 16 R410). Reset false. -/
  fatal   : Bool
  /-- Boot step reached, 0 to 6 (16 R413). Reset 0. -/
  boot    : Nat
  /-- TIMEADJ has been written (16 R413). Reset false. -/
  adjusted : Bool
  /-- Half ns by which TIME is ahead of the cores' cycle counters: what TIMEADJ has added, and TIME at the last warm reset
  (16 R412, R413). Reset 0. -/
  timeOff : Nat
  /-- FABV: FABCFG accepted (16 R410). Reset false. -/
  fabv    : Bool
  /-- FABCFG's DEV, NCM1, NDM1, fixed once accepted (16 R410). Reset 0. -/
  dev     : BitVec 11
  ncm1    : BitVec 4
  ndm1    : BitVec 4
  /-- WINCTL.PID, WERR, EN (16 R410). Reset 0. -/
  winPid  : BitVec 12
  werr    : BitVec 20
  winEn   : Bool
  /-- Bytes of the last window read (16 R411). Reset empty. -/
  winData : List Byte
  /-- KEYCTL.PID, the operation in progress (0 none), the next key generation (16 R418). Reset 0. -/
  keyPid  : BitVec 12
  keyOp   : BitVec 2
  keyGen  : Nat
  /-- SCANCTL.ELEV, APRIO, TARGET (16 R419). Reset 0, 15, 0. -/
  scElev  : Bool
  scPrio  : BitVec 4
  scTarget : BitVec 8
  /-- SCANST.RUNS, RESULT, STATE (16 R419). Reset 0. -/
  scRuns  : BitVec 32
  scResult : BitVec 4
  scState : BitVec 2
  /-- The test under way: of an elevator, its target, TIME in half ns of its start (16 R419). Reset false, 0, 0. -/
  runElev : Bool
  runTarget : Nat
  scAt : Nat
  /-- Mailbox: command, argument, status, response and staging bytes written (16 R417). Reset zero, but the status 1, DONE: DESIGN
  CHOICE 109. -/
  mbCmd   : Word
  mbArg   : BitVec 384
  mbStat  : Word
  /-- The result of the mailbox command in progress, once it has been performed (16 R417). Reset none. -/
  mbRes   : Option (BitVec 8)
  mbResp  : List Byte
  mbStage : List (Nat × Byte)
  /-- LMS one-time keys left (16 R417). Reset 2^20. -/
  lmsLeft : Nat
  /-- Blocks written to module flash: offset and bytes (16 R416, R417). Reset none. -/
  flash   : List (Nat × List Byte)
  /-- The blocks that the flash held at the last cold reset, whose image is in effect (16 R416). Reset none. -/
  image   : List (Nat × List Byte) := []
  /-- What the verification of that image has found: error and security version; none before it (16 R416). Reset none. -/
  verified : Option (BitVec 8 × Nat) := none
  /-- Security version of the firmware that runs, 0 before a boot (16 R416, R417). Reset 0, DESIGN CHOICE 3. -/
  fwVer   : Nat := 0
  /-- Number of the module's identity key pairs, one of each scheme, which stay in the module for good (16 R415; assumption 9).
  Reset 0, DESIGN CHOICE 3. -/
  identKey : Nat := 0
  /-- The MSI-X vectors signalled to the host, in order: 0 for DEVST.FATAL, 1 for an executive event (16 R408). Reset none. -/
  msix    : List (BitVec 6) := []
  /-- Fused minimum firmware version (16 R416). Reset 0, DESIGN CHOICE 3. -/
  minVer  : Nat
  /-- Logical core map (01 R12). Reset all ones, DESIGN CHOICE 3. -/
  coreMap : Mask
  /-- SLICE and HST of the discovery table (04 R91, 16 R414). Reset the part's, DESIGN CHOICE 10. -/
  slices  : List Nat
  hst     : List Nat
  /-- Elevators: 0 healthy, 1 retiring, 2 retired (04 R93). Reset healthy. -/
  elevs   : List (Nat × Nat)
  /-- Held cores whose packets a dead elevator has returned and that have not reissued them (04 R93). Reset none. -/
  returned : List Nat
  /-- GEN of the discovery table (16 R414). Reset 0. -/
  gen     : Word
  /-- Laser: SPARE, SRC, CUR, BUSY, REQ, and the state that a transition in progress leads to (14 R365, R366). Reset 1, 0,
  0b11, 0, 0b11, none. -/
  spare   : Bool
  src     : Bool
  cur     : BitVec 2
  busy    : Bool
  req     : BitVec 2
  target  : Option (BitVec 2)
  /-- A switch-over is in progress (01 R7). Reset false. -/
  switching : Bool
  /-- Tiles that wait for their bring-up calibration, in order (16 R413). Reset none. -/
  calQueue : List Nat
  /-- LTHR's PFAIL, MFAIL, BFAIL (14 R363). Reset 0xF88, 0x014, 0x78. -/
  pfail   : BitVec 12
  mfail   : BitVec 12
  bfail   : BitVec 8
  deriving DecidableEq, Repr

/-- A sketchbook record (15 R405). -/
structure SkRec where
  time : Word
  code : BitVec 16
  kind : BitVec 8
  src  : BitVec 16
  pid  : BitVec 12
  a0   : Word
  a1   : Word
  deriving DecidableEq, Repr

/-- A cached translation (04 R96): the leaf that a walk of a PID found, and what the path allows. -/
structure TlbEntry where
  station : Nat
  pid     : BitVec 12
  /-- First 64 KiB page covered and how many the leaf covers: 1, 32 or 16,384. -/
  vpn     : Nat
  span    : Nat
  /-- Physical address of the leaf. -/
  base    : Nat
  w       : Bool
  x       : Bool
  u       : Bool
  timed   : Bool
  hostOrd : Bool
  cached  : Bool
  hint    : BitVec 2
  migrate : Bool
  deriving DecidableEq, Repr

/-- An entry of the reply cache (14 R352). -/
structure ReplyEntry where
  src   : BitVec 11
  pid   : BitVec 12
  tag   : BitVec 16
  reply : List Byte
  /-- TIME in half ns of the reply. -/
  since : Nat
  deriving DecidableEq, Repr

/-- A prefetch under way (04 R105): the tile whose cache it fills, none for the second level alone. -/
structure Prefetch where
  tile : Option Nat
  line : Nat
  pid  : BitVec 12
  hint : BitVec 2
  deriving DecidableEq, Repr

/-- An addition to host memory that the device performs itself, in two requests: its read, then its write (06 R142). -/
structure DevAdd where
  pa   : Nat
  dbl  : Bool
  op   : BitVec 4
  v    : Word
  /-- What the read returned; none before it. -/
  old  : Option Nat
  /-- A varnished RED of this PID waits for the end of the addition (13 R338). -/
  varn : Option (BitVec 12)
  deriving DecidableEq, Repr

/-- What the model's schedule does next when the agenda is not empty: an event, or the core whose round goes on. -/
inductive Turn where
  | event (i : Instr)
  | core (n : Nat)
  deriving DecidableEq, Repr

/-- The state of the module. -/
structure State where
  /-- The slot that executes: 16 * core + slot, cores 0 to 255 as 16y + x, service cores 256 to 259 (01 R8, R10). The
  model's own field. Reset 0, DESIGN CHOICE 1. -/
  hid     : Nat
  /-- The strand in that slot (01 R13). Reset vacant. -/
  hart    : Slot
  /-- The other slots that have held a strand (01 R13). Reset none. -/
  others  : List (Nat × Slot)
  /-- Cores that differ from their reset value, by number (01 R8, R10). Reset none. -/
  cores   : List (Nat × Core)
  /-- Tiles that differ from their reset value, by number (01 R8). Reset none. -/
  tiles   : List (Nat × Tile)
  /-- Every byte of memory that is not 0: physical addresses below 2^52, local stores from 2^52, scratchpad from 2^53
  (04 R80, R81, R94). Reset empty (16 R412), DESIGN CHOICE 2 for HBM4. -/
  mem     : List Host.Cell
  /-- For each 64-byte sector of HBM4 written, the key generation it was written under (04 R95). Reset none. -/
  sectors : List (Nat × Nat)
  /-- The stations' cached translations (04 R96). Reset none. -/
  tlb     : List TlbEntry
  /-- PIDTB, 64 bits (04 R97). Reset 0, DESIGN CHOICE 3. -/
  pidtb   : Word
  /-- XVEC, bits [56:10] (15 R382). Reset 0. -/
  xvec    : Word
  /-- PROFBUF, 64 bits (15 R400). Reset LOG2 12, BASE 0. -/
  profbuf : Word
  /-- Next record offset and wrap count of the profile ring (15 R401). Reset 64, 0. -/
  profPos : Nat
  profWrap : Nat
  /-- SERRC.CORR and UNCORR, 32 bits each (15 R389). Reset 0. -/
  corr    : BitVec 32
  uncorr  : BitVec 32
  /-- Poisoned locations: PID and address of uncorrectable data not yet consumed (15 R389). Reset none. -/
  poison  : List (BitVec 12 × Nat)
  /-- PIDs of fatal contexts whose dump has not ended, in order of arrival (15 R392). Reset none. -/
  dumpQ   : List (BitVec 12)
  /-- What the device holds by PID (12 R288). Reset none. -/
  jobs    : List (Nat × Job)
  /-- Work items in placement, in order of entry (12 R296). Reset none. -/
  items   : List Item
  /-- Strands out of a slot with the private part of their frames, by identity (12 R284, R285). Reset none. -/
  away    : List (Nat × Slot)
  /-- Reservation queues (06 R146). Reset none. -/
  rsvqs   : List RsvQueue
  /-- Barrier waiters by group: strand identity, GCB, PID (06 R153). Reset none. -/
  barriers : List (Nat × Word × BitVec 12)
  /-- Deferred launches due: PID and GCB address (12 R294, R300). Reset none. -/
  deferred : List (BitVec 12 × Word)
  /-- Cancels under way (12 R304). Reset none. -/
  cancels : List CancelReq
  /-- Pre-emptions under way (12 R307). Reset none. -/
  preempts : List Preempt
  /-- Groups known to the device: PID, GCB (12 R304). Reset none. -/
  known   : List Known
  /-- Messages in transit, in order of sending (13 R320). Reset none. -/
  transit : List Msg
  /-- Prefetches under way (04 R105). Reset none. -/
  prefetch : List Prefetch
  /-- Additions to host memory under way (06 R142). Reset none. -/
  hostAdds : List DevAdd
  /-- The action of the varnish stage that is under way: its PID, and whether it waits for its end or for its template
  (13 R338). Reset none. -/
  varnNow : Option (BitVec 12 × Action × Bool) := none
  /-- Remote accesses awaiting a reply (14 R350). Reset none. -/
  remote  : List RemoteOut
  /-- The bytes of the last reply to another device's access (14 R349). Reset empty. -/
  fabReply : List Byte := []
  /-- Cancels that other devices of a job have sent here and that no sweep has met yet (14 R355; assumption 93). -/
  farCancels : List CancelReq := []
  /-- Destinations of the groups that were queued or unacknowledged at a port whose link went down, one for each group: they go
  by the new routes once a table is agreed (14 R361, R364, R366). Reset none. -/
  reroute : List Nat := []
  /-- Migration packets sent and not acknowledged (14 R355). Reset none. -/
  migOut  : List MigOut
  /-- Next source tag (14 R350). Reset 0, DESIGN CHOICE 3. -/
  nextTag : BitVec 16
  /-- The reply cache (14 R352). Reset empty. -/
  replies : List ReplyEntry
  /-- Collectives that have passed their start checks, or ended, by CID (14 R368 to R371). Reset none. -/
  colls   : List (Nat × Coll)
  /-- Collectives issued whose start checks are still to be made, in order (14 R369). Reset none. -/
  collQ   : List Coll
  /-- The link table and the last agreed one, from which routes and trees follow, and the number of tables agreed
  (14 R361, R367). Reset empty, empty, 0. -/
  links   : List LinkRec
  table   : List LinkRec
  agreed  : Nat
  changing : Bool
  /-- TIME in half ns of the newest link record (14 R367). Reset 0. -/
  lastRec : Nat
  /-- Ports 0 to 7 (14 R347). -/
  ports   : Vector Port 8
  /-- Launch queues that differ from reset, by number (12 R309). Reset none. -/
  queues  : List (Nat × LaunchQueue)
  /-- The sketchbook's records, newest first, at most 4,096 (15 R405). Reset none. -/
  sketch  : List SkRec
  /-- SKCTL.HEAD, 12 bits, and FREEZE (15 R405). Reset 0. -/
  skHead  : BitVec 12
  skFreeze : Bool
  /-- SKCTL.FROZEN: set when the device becomes device-fatal, cleared by a cold reset (15 R405). Reset false. -/
  skFrozen : Bool
  /-- TIME in half ns since cold reset (15 R405). Reset 0. -/
  ticks   : Nat
  /-- Boot state and platform registers (16 R410). -/
  plat    : Platform
  /-- What happens next, before the model's own schedule: plain data, the environment's choices. The model's own field.
  Reset empty, DESIGN CHOICE 1. -/
  agenda  : List Turn
  /-- Stores to device registers on their way, oldest first: offset and doubleword (16 R409; 05 R111). Reset empty. -/
  regq    : List (Nat × Word)
  /-- Counter of free values taken. The model's own field. Reset 0, DESIGN CHOICE 4. -/
  freeCtr : Nat
  deriving DecidableEq, Repr

/-! ## Reset (16 R412; the reset columns of the field maps) -/

/-- A record of zeros. -/
def Rec.zero : Rec :=
  { pid := 0, prio := 0, mode := 0, opt := false, exec := false, new := false, hrad := 0, hy := 0, hx := 0, gidx := 0,
    vtime := 0, frame := 0, fmtp := 0, kbank := 0, gcb := 0 }

/-- A vacant slot. -/
def Slot.vacant : Slot :=
  { occ := false, pc := 0, record := Rec.zero, g := Vector.replicate 32 0, v := Vector.replicate 128 0,
    p := Vector.replicate 8 0, kbank := 0, lc := Vector.replicate 3 0, loops := [],
    loopSpare := Vector.replicate 3 { n := 0, start := 0, fin := 0 }, fxf := 0, vxf := 0, vw := 2, vlr := 0,
    vwin := 0, fmt := 0, scl := 0, floor := 0, emulate := true, psum := { npass := 0, status := 0, ebc := 127 },
    floorPend := none, status := { unwr := false, step := false, sbchk := false, trap := false, exec := false },
    xpc := 0, xsw := 0, xcause := 0, xval := 0, xtmp := Vector.replicate 4 0, park := none, since := 0, parkSh := 0, pend := [],
    ordr := none, rsvLine := none, revoked := false, cpOut := 0, cpFail := 0, ticket := none, okeep := false,
    xkeep := false, passOut := 0, acks := [], lateLoad := [], lateStore := none, xmmOut := 0, pooled := none, rstate := 0, counted := false,
    bound := { step := false, cancel := false, cancelAt := 0, prmto := false, stop := none, preempt := false, late := none },
    lp := { lpid := 0, lvt := 0, lpseq := 0, inc := 0, inh := false, hno := 0, held := none, exitp := false },
    skips := 0, notBefore := 0, ready := [], sbHint := false, lbuf := [], landed := false }

/-- A bank after reset: cache mode, no PID (04 R82, R83). -/
def Bank.reset : Bank :=
  { pid := 0, mode := 0, sw := false, queue := [], held := [], fifo := [], head := 0, waits := [] }

/-- An optical tile after reset: DARK, every palette EMPTY (09 R213, R217, R218, R235 to R238). -/
def Optics.reset : Optics :=
  { state := .dark, pals := Vector.replicate 4 none, active := 0, queue := [], runs := [], acc := 0, pcnt := 0,
    off := true, calReq := false, calibrated := false, calgen := 0, calAt := none, debc := 0, dm := 0xFFFF, drate := 0,
    lastSw := Vector.replicate 8 none, laneVec := Vector.replicate 8 0, tempMax := 0, tempSpan := 0, qmon := 0, live := 0, oswm := 0, swatched := false,
    swatch := 0, oerr := 0, pebc64 := 0 }

/-- A tile after reset. -/
def Tile.reset : Tile :=
  { banks := Vector.replicate 16 Bank.reset, owners := [], halves := Vector.replicate 4 0, pbPid := 0, pbWaits := [],
    empties := [], written := [], cache := [], copies := [], xmms := [], opt := Optics.reset, pkev := 20, pinned := false,
    pinnedAt := 0, pinReq := false, freq := 1600, stretch := 0, maxs := 0, fdet := 0, grants := 0, rsvs := [], leaveQ := [],
    profctl := 0, prof := [] }

/-- A core after reset: vacant, mode 16. -/
def Core.reset : Core :=
  { mode := 0, rsv := 0, hold := false, elev := none, cycle := 0, rot := 0, issued := false, divFree := 0, vecFree := 0,
    wc := [], slc := Vector.replicate 5 0, rdyh := Vector.replicate 17 0, kept := [], events := [] }

/-- What the device holds for a PID after reset: nothing. -/
def Job.reset : Job :=
  { count := 0, key := none, ftOk := false, ft := false, vjb := none, vpt := 0, colour := false,
    sent := Vector.replicate 2 0, recvd := Vector.replicate 2 0, fsent := Vector.replicate 2 0,
    frecvd := Vector.replicate 2 0, fcolour := false, fround := 0, fmred := none, mred := none, round := false, gmin := 0, lps := [], varnish := [],
    lines := [], dead := [], deadPut := 0, fullAt := none, fullEvt := false, pool := none, poolGen := 0, dump := none, causes := [],
    dumping := 0, trunc := false, compat := 0 }

/-- An LP identifier that was never launched (13 R316). -/
def Lp.unused : Lp :=
  { state := .unused, strand := 0, queue := [], antis := [], log := [], nvarn := 0, due := none }

/-- A lane after reset (14 R363). -/
def Lane.reset : Lane := { state := 4, power := 0x800, margin := 0, ber := 0xFF, lcerr := 0, badAt := 0 }

/-- A port after reset (14 R362). -/
def Port.reset : Port :=
  { en := true, skid := false, maxw := 4, state := 0, peer := 0, pport := 0, txw := 0, rxw := 0, replay := 0, txf := 0,
    rxf := 0, txNow := 0, rxNow := 0, window := 0, lanes := Vector.replicate 16 Lane.reset, lmap := [], txSeq := 0, rxSeq := 0,
    unacked := [], nakked := false, txBad := [] }

/-- A launch queue after reset (12 R310). -/
def LaunchQueue.reset : LaunchQueue :=
  { sdrop := 0, ldrop := 0, qgen := 0, pid := 0, pmax := 0, quad := 0, en := false, fifo := [] }

/-- The platform after reset (16 R410, R418, R419; 14 R363, R365). -/
def Platform.reset : Platform :=
  { svc := 0, bootErr := 0, fatal := false, boot := 0, adjusted := false, timeOff := 0, fabv := false, dev := 0, ncm1 := 0, ndm1 := 0,
    winPid := 0, werr := 0, winEn := false, winData := [], keyPid := 0, keyOp := 0, keyGen := 0, scElev := false,
    scPrio := 15, scTarget := 0, scRuns := 0, scResult := 0, scState := 0, runElev := false, runTarget := 0, scAt := 0, mbCmd := 0, mbArg := 0, mbStat := 1, mbRes := none,
    mbResp := [], mbStage := [], lmsLeft := 0x100000, flash := [], minVer := 0, coreMap := BitVec.allOnes 256,
    slices := Config.sliceUnits, hst := Config.homeSlices, elevs := [], returned := [], gen := 0, spare := true,
    src := false, cur := 3, busy := false, req := 3, target := none, calQueue := [], switching := false, pfail := 0xF88, mfail := 0x014,
    bfail := 0x78 }

/-- The module right after a cold reset (16 R412): every strand, queue, context and command discarded, SRAM zero. -/
def State.reset : State :=
  { hid := 0, hart := Slot.vacant, others := [], cores := [], tiles := [], mem := [], sectors := [], tlb := [], pidtb := 0,
    xvec := 0, profbuf := 0x3000000000000000, profPos := 64, profWrap := 0, corr := 0, uncorr := 0, poison := [], dumpQ := [],
    jobs := [], items := [], away := [], rsvqs := [], barriers := [], deferred := [], cancels := [], preempts := [],
    known := [], transit := [], prefetch := [], hostAdds := [], remote := [], migOut := [], nextTag := 0, replies := [],
    colls := [], collQ := [], links := [], table := [], agreed := 0, changing := false, lastRec := 0, ports := Vector.replicate 8 Port.reset, queues := [],
    sketch := [], skHead := 0, skFreeze := false, skFrozen := false, ticks := 0, plat := Platform.reset, agenda := [], regq := [], freeCtr := 0 }

end Sys2Proof.Machine
end

