-- ==== Sys2Proof/Machine/Base.lean ====
section
/-!
DEFINITION. The plainest operations over the state: lists keyed by numbers, bit fields, the numbering of cores and tiles
(01 R8 to R10), the registers of a slot (03 R54; 02 R28, R39), and the accessors of slots, cores, tiles and jobs.
-/

namespace Sys2Proof.Machine

/-- What every meaning answers. -/
abbrev Result := Host.Outcome State Fault Refusal

/-! ## Lists keyed by a number -/

/-- The value at a key of a list sorted by key. -/
def alGet {α : Type} (l : List (Nat × α)) (k : Nat) : Option α :=
  match l with
  | [] => none
  | (n, v) :: r => if n = k then some v else alGet r k

/-- Set the value at a key, keeping keys strictly rising. -/
def alSet {α : Type} (l : List (Nat × α)) (k : Nat) (v : α) : List (Nat × α) :=
  match l with
  | [] => [(k, v)]
  | (n, w) :: r => if k < n then (k, v) :: (n, w) :: r else if n = k then (k, v) :: r else (n, w) :: alSet r k v

/-- Remove a key. -/
def alDel {α : Type} (l : List (Nat × α)) (k : Nat) : List (Nat × α) := l.filter (fun e => e.1 ≠ k)

/-- Replace the element at an index of a list. -/
def listSet {α : Type} (l : List α) (n : Nat) (v : α) : List α := l.set n v

/-- Insert a number into a strictly rising list. -/
def setInsert (l : List Nat) (k : Nat) : List Nat :=
  match l with
  | [] => [k]
  | n :: r => if k < n then k :: n :: r else if n = k then n :: r else n :: setInsert r k

/-! ## Bit fields -/

/-- Bits hi down to lo of a 64-bit word, as a number. -/
def fld (w : Word) (hi lo : Nat) : Nat := w.toNat / 2 ^ lo % 2 ^ (hi + 1 - lo)

/-- One bit of a 64-bit word. -/
def bitOf (w : Word) (n : Nat) : Bool := w.getLsbD n

/-- The word with bits hi down to lo replaced by the low bits of `v`. -/
def setFld (w : Word) (hi lo : Nat) (v : Nat) : Word :=
  let m : Word := BitVec.ofNat 64 ((2 ^ (hi + 1 - lo) - 1) * 2 ^ lo)
  (w &&& ~~~m) ||| (BitVec.ofNat 64 (v * 2 ^ lo) &&& m)

/-- A Boolean as a bit. -/
def b2n (b : Bool) : Nat := if b then 1 else 0

/-- A 64-bit word from fields given as (value, lowest bit). -/
def packFields (l : List (Nat × Nat)) : Word := BitVec.ofNat 64 (l.foldl (fun acc e => acc + e.1 * 2 ^ e.2) 0)

/-- The 64-bit word of a Boolean. -/
def boolWord (b : Bool) : Word := if b then 1 else 0

/-- Sign extension to 64 bits of the low `n` bits. -/
def sext64 {n : Nat} (v : BitVec n) : Word := v.signExtend 64

/-- Signed value of the low `n` bits of a number. -/
def toSigned (n v : Nat) : Int := let u := v % 2 ^ n; if u < 2 ^ (n - 1) then (u : Int) else (u : Int) - 2 ^ n

/-- The `n` low bits of an integer as a number. -/
def ofSigned (n : Nat) (v : Int) : Nat := (v % (2 ^ n : Int)).toNat

/-- An address with its 57 significant bits (04 R80). -/
def va57 (w : Word) : Nat := w.toNat % 2 ^ 57

/-- Bits [56:0] of a doubleword, an address. -/
def addr57 (w : Word) : Word := BitVec.ofNat 64 (va57 w)

/-! ## Numbers of cores and tiles (01 R8 to R10) -/

/-- Grid column and row of a core numbered 16y + x. -/
def coreX (core : Nat) : Nat := core % 16
/-- Grid row. -/
def coreY (core : Nat) : Nat := core / 16

/-- The core is one of the four service cores (01 R10). -/
def isService (core : Nat) : Bool := decide (256 ≤ core)

/-- The tile of a core. A service core has none of its own; the tile beside its port on the mesh stands for it where an
instruction needs one (01 R10; assumption 12). -/
def tileOf (core : Nat) : Nat :=
  if core < 256 then 4 * (core / 16 / 4) + core % 16 / 4
  else match core - 256 with
    | 0 => 0
    | 1 => 3
    | 2 => 12
    | _ => 15

/-- Index of a core in its tile (01 R8). -/
def coreIdx (core : Nat) : Nat := 4 * (core / 16 % 4) + core % 16 % 4

/-- Quadrant of a tile (01 R8). -/
def quadOfTile (t : Nat) : Nat := 2 * (t / 4 / 2) + t % 4 / 2

/-- Quadrant of a core (01 R8, R10). -/
def quadOf (core : Nat) : Nat := if core < 256 then quadOfTile (tileOf core) else core - 256

/-- Core number from tile and index in the tile (01 R8). -/
def coreAt (t i : Nat) : Nat := 16 * (4 * (t / 4) + i / 4) + (4 * (t % 4) + i % 4)

/-- The issuing core of a tile (01 R9). -/
def issuingCore (t : Nat) : Nat := coreAt t 15

/-- The core is an issuing core (01 R9). -/
def isIssuing (core : Nat) : Bool := decide (core < 256) && decide (coreIdx core = 15)

/-- Active slots of a core in a mode code: 16, 8, 4, 2 (01 R13; 12 R283). -/
def modeSlots (m : BitVec 2) : Nat :=
  match m.toNat with
  | 0 => 16
  | 1 => 8
  | 2 => 4
  | _ => 2

/-- Vector registers per slot in a mode code (01 R13). -/
def modeRegs (m : BitVec 2) : Nat :=
  match m.toNat with
  | 0 => 16
  | 1 => 32
  | 2 => 64
  | _ => 128

/-! ## Registers of a slot -/

/-- Read g register `n`. -/
def Slot.getG (x : Slot) (n : BitVec 5) : Word := x.g[n.toNat]'(show n.toNat < 32 from n.isLt)

/-- Write g register `n`; there is no hard-wired zero (03 R54). -/
def Slot.setG (x : Slot) (n : BitVec 5) (v : Word) : Slot :=
  { x with g := x.g.set n.toNat v (show n.toNat < 32 from n.isLt) }

/-- The low 32 bits of a g register (03 R61). -/
def Slot.getW (x : Slot) (n : BitVec 5) : BitVec 32 := (x.getG n).setWidth 32

/-- Read a lane mask; p0 selects every lane (02 R28). -/
def Slot.getP (x : Slot) (n : BitVec 3) : Mask :=
  if n = 0 then BitVec.allOnes 256 else x.p[n.toNat]'(show n.toNat < 8 from n.isLt)

/-- Write a lane mask; a write to p0 is ignored (08 R186). -/
def Slot.setP (x : Slot) (n : BitVec 3) (v : Mask) : Slot :=
  if n = 0 then x else { x with p := x.p.set n.toNat v (show n.toNat < 8 from n.isLt) }

/-- The physical vector register a name means under VWIN (02 R39). -/
def physV (w : BitVec 2) (n : BitVec 5) : Nat := 32 * w.toNat + n.toNat

theorem physV_lt (w : BitVec 2) (n : BitVec 5) : physV w n < 128 := by
  have h1 : w.toNat < 4 := w.isLt
  have h2 : n.toNat < 32 := n.isLt
  unfold physV
  omega

/-- Read a vector register through VWIN. -/
def Slot.getV (x : Slot) (n : BitVec 5) : VReg := x.v[physV x.vwin n]'(physV_lt _ _)

/-- Write a vector register through VWIN. -/
def Slot.setV (x : Slot) (n : BitVec 5) (v : VReg) : Slot :=
  { x with v := x.v.set (physV x.vwin n) v (physV_lt _ _) }

/-- Write a physical vector register; a number past 127 names none. -/
def Slot.setPhysV (x : Slot) (n : Nat) (v : VReg) : Slot := { x with v := x.v.setIfInBounds n v }

/-- Read a physical vector register. -/
def Slot.getPhysV (x : Slot) (n : Nat) : VReg := x.v[n]?.getD 0

/-- Word k of the constant bank (03 R68). -/
def Slot.getK (x : Slot) (k : BitVec 8) : BitVec 32 := x.kbank.extractLsb' (32 * k.toNat) 32

/-- The element width in bits under VSHAPE (08 R182). -/
def Slot.ew (x : Slot) : Nat := 8 * 2 ^ x.vw.toNat

/-- The number of elements of a vector register under VSHAPE (03 R70). -/
def Slot.lanes (x : Slot) : Nat := 2048 / x.ew

/-- Process identity. -/
def Slot.pid (x : Slot) : BitVec 12 := x.record.pid

/-- The identity of a strand on the device: its PID and its frame. -/
def strandId (pid : BitVec 12) (frame : Word) : Nat := pid.toNat * 2 ^ 57 + frame.toNat % 2 ^ 57

/-- The identity of the strand in a slot. -/
def Slot.sid (x : Slot) : Nat := strandId x.record.pid x.record.frame

/-- The strand is a logical process that runs a handler (13 R323). -/
def Slot.inHandler (x : Slot) : Bool := x.record.opt && x.lp.inh

/-- OR flags into FXF (03 R54). -/
def Slot.orFxf (x : Slot) (f : BitVec 6) : Slot := { x with fxf := x.fxf ||| f }

/-- OR flags into VXF (08 R187). -/
def Slot.orVxf (x : Slot) (f : BitVec 6) : Slot := { x with vxf := x.vxf ||| f }

/-- STATUS as the 64-bit register of 15 R377. -/
def Slot.statusWord (x : Slot) : Word :=
  packFields [(x.record.mode.toNat, 11), (b2n x.record.opt, 10), (b2n x.status.unwr, 4), (b2n x.status.step, 3),
    (b2n x.status.sbchk, 2), (b2n x.status.trap, 1), (b2n x.status.exec, 0)]

/-- The sticky flag bits of FXF and VXF: SAT, NV, DZ, OF, UF, NX (03 R54). -/
def flagNX : BitVec 6 := 1
/-- Underflow. -/
def flagUF : BitVec 6 := 2
/-- Overflow. -/
def flagOF : BitVec 6 := 4
/-- Division by zero. -/
def flagDZ : BitVec 6 := 8
/-- Invalid. -/
def flagNV : BitVec 6 := 16
/-- Saturation. -/
def flagSAT : BitVec 6 := 32

/-! ## Parts of the state -/

/-- The core of the executing slot. -/
def State.coreNo (s : State) : Nat := s.hid / 16
/-- The index of the executing slot in its core. -/
def State.slotNo (s : State) : Nat := s.hid % 16
/-- The tile of the executing slot. -/
def State.tileNo (s : State) : Nat := tileOf s.coreNo

/-- A slot by number. -/
def State.slotAt (s : State) (n : Nat) : Slot := if n = s.hid then s.hart else (alGet s.others n).getD Slot.vacant

/-- Replace a slot by number. -/
def State.setSlot (s : State) (n : Nat) (x : Slot) : State :=
  if n = s.hid then { s with hart := x } else { s with others := alSet s.others n x }

/-- Change a slot by number. -/
def State.modSlot (s : State) (n : Nat) (f : Slot → Slot) : State := s.setSlot n (f (s.slotAt n))

/-- Change the executing slot. -/
def State.modHart (s : State) (f : Slot → Slot) : State := { s with hart := f s.hart }

/-- Every slot that holds or has held a strand, with its number. -/
def State.allSlots (s : State) : List (Nat × Slot) := alSet s.others s.hid s.hart

/-- The slots that hold a strand. -/
def State.occSlots (s : State) : List (Nat × Slot) := s.allSlots.filter (fun e => e.2.occ)

/-- Make slot `n` the executing one. -/
def State.setFocus (s : State) (n : Nat) : State :=
  if n = s.hid then s
  else { s with hid := n, hart := s.slotAt n, others := alSet (alDel s.others n) s.hid s.hart }

/-- The slot number of a resident strand. -/
def State.findSlot (s : State) (sid : Nat) : Option Nat :=
  (s.occSlots.find? (fun e => e.2.sid = sid)).map (·.1)

/-- A strand's slot content wherever it is: in a slot, or away with its frame. -/
def State.strandOf (s : State) (sid : Nat) : Option Slot :=
  match s.occSlots.find? (fun e => e.2.sid = sid) with
  | some e => some e.2
  | none => alGet s.away sid

/-- Change a strand wherever it is. -/
def State.modStrand (s : State) (sid : Nat) (f : Slot → Slot) : State :=
  match s.findSlot sid with
  | some n => s.modSlot n f
  | none =>
    match alGet s.away sid with
    | some x => { s with away := alSet s.away sid (f x) }
    | none => s

/-- A core by number. -/
def State.core (s : State) (n : Nat) : Core := (alGet s.cores n).getD Core.reset
/-- Replace a core. -/
def State.setCore (s : State) (n : Nat) (c : Core) : State := { s with cores := alSet s.cores n c }
/-- Change a core. -/
def State.modCore (s : State) (n : Nat) (f : Core → Core) : State := s.setCore n (f (s.core n))

/-- A tile by number. -/
def State.tile (s : State) (n : Nat) : Tile := (alGet s.tiles n).getD Tile.reset
/-- Replace a tile. -/
def State.setTile (s : State) (n : Nat) (t : Tile) : State := { s with tiles := alSet s.tiles n t }
/-- Change a tile. -/
def State.modTile (s : State) (n : Nat) (f : Tile → Tile) : State := s.setTile n (f (s.tile n))
/-- Change the optical tile under a tile. -/
def State.modOpt (s : State) (n : Nat) (f : Optics → Optics) : State :=
  s.modTile n (fun t => { t with opt := f t.opt })

/-- What the device holds for a PID. -/
def State.job (s : State) (pid : BitVec 12) : Job := (alGet s.jobs pid.toNat).getD Job.reset
/-- Replace it. -/
def State.setJob (s : State) (pid : BitVec 12) (j : Job) : State := { s with jobs := alSet s.jobs pid.toNat j }
/-- Change it. -/
def State.modJob (s : State) (pid : BitVec 12) (f : Job → Job) : State := s.setJob pid (f (s.job pid))

/-- An LP's entry (13 R316). -/
def Job.lp (j : Job) (id : Nat) : Lp := (alGet j.lps id).getD Lp.unused
/-- Change an LP's entry. -/
def Job.modLp (j : Job) (id : Nat) (f : Lp → Lp) : Job := { j with lps := alSet j.lps id (f (j.lp id)) }
/-- Change the LP entry of the executing device. -/
def State.modLp (s : State) (pid : BitVec 12) (id : Nat) (f : Lp → Lp) : State := s.modJob pid (fun j => j.modLp id f)

/-- A launch queue by number. -/
def State.queue (s : State) (n : Nat) : LaunchQueue := (alGet s.queues n).getD LaunchQueue.reset
/-- Change a launch queue. -/
def State.modQueue (s : State) (n : Nat) (f : LaunchQueue → LaunchQueue) : State :=
  { s with queues := alSet s.queues n (f (s.queue n)) }

/-- A port. -/
def State.modPort (s : State) (n : Nat) (f : Port → Port) : State :=
  if h : n < 8 then { s with ports := s.ports.set n (f (s.ports[n]'h)) h } else s

/-- The platform. -/
def State.modPlat (s : State) (f : Platform → Platform) : State := { s with plat := f s.plat }

/-- The discovery table changes: GEN is incremented before and after (16 R414). -/
def State.tableChange (s : State) : State := s.modPlat (fun p => { p with gen := p.gen + 2 })

/-- The cycle of the executing slot's core (03 R51). -/
def State.now (s : State) : Nat := (s.core s.coreNo).cycle

/-- A fresh number for a free value (assumption 4). -/
def State.tickFree (s : State) : State := { s with freeCtr := s.freeCtr + 1 }

/-! ## The sketchbook and executive events (15 R405, R406) -/

/-- TIME in ns (15 R405): `ticks` counts half ns. -/
def State.timeNs (s : State) : Word := BitVec.ofNat 64 (s.ticks / 2)

/-- Write a sketchbook record; nothing while frozen (15 R405). -/
def State.sketchAdd (s : State) (r : SkRec) : State :=
  if s.skFreeze || s.skFrozen then s
  else { s with sketch := (r :: s.sketch).take 4096, skHead := s.skHead + 1 }

/-- A record with a source kind (0 slot, 1 engine, 2 port, 3 device) and a source (15 R391, R405). -/
def State.noteFrom (s : State) (kind : BitVec 8) (src : BitVec 16) (code : Nat) (pid : BitVec 12) (a0 a1 : Word) : State :=
  s.sketchAdd { time := s.timeNs, code := BitVec.ofNat 16 code, kind := kind, src := src, pid := pid, a0 := a0, a1 := a1 }

/-- A record with source kind `device` (15 R405). -/
def State.note (s : State) (code : Nat) (pid : BitVec 12) (a0 a1 : Word) : State := s.noteFrom 3 0xFFFF code pid a0 a1

/-- A record with source kind `engine` (15 R391, R405). -/
def State.noteEngine (s : State) (code : Nat) (pid : BitVec 12) (a0 a1 : Word) : State := s.noteFrom 1 0xFFFF code pid a0 a1

/-- Signal an MSI-X vector to the host (16 R408). -/
def State.signalHost (s : State) (v : BitVec 6) : State := s.modPlat (fun p => { p with msix := p.msix ++ [v] })

/-- Raise an executive event on the service core of a quadrant, which vector 1 signals to the host (16 R408); an event that finds
the queue of 256 full is lost and recorded as 0x16. Every event is also recorded (15 R406). -/
def State.execEvent (s : State) (q : Nat) (code : Nat) (arg : Nat) (pid : BitVec 12) : State :=
  let c := s.core (256 + q)
  let s1 := (s.note code pid (BitVec.ofNat 64 arg) 0).signalHost 1
  if c.events.length < 256 then
    s1.setCore (256 + q) { c with events := c.events ++ [(BitVec.ofNat 16 code, BitVec.ofNat 48 arg)] }
  else s1.note 0x16 pid (BitVec.ofNat 64 code) (BitVec.ofNat 64 arg)

end Sys2Proof.Machine
end

