-- ==== Sys2Proof/Machine/Cause.lean ====
section
/-!
DEFINITION. The causes of traps and fatal events with their class and code (15 R383).
-/

namespace Sys2Proof.Machine

/-- The causes of 15 R383. -/
inductive Cause where
  | zword | illop | vregn | looplen | loopnest | notrap
  | pcaln | littgt | litaln | maln
  | priv | notiss | optim | optst | clkperm | clkdeny
  | tnc | tnv | tres | tuser | tperm | tnomem | lsrange | sprange | amospace
  | spro | spmode | fifosz | sppid | owner | bankbusy | banksw | bankarg | unwr
  | fmtw | fmtres | palarg | pflarg | ebcflr | givearg | resheld | collarg | clkarg
  | scharg | spawnrec | gcbbad | gstate | gdepfull
  | vtjob | lpdup | mseq | marg | mvrt | varg | logfull
  | runreach | rtimeo | migspace | miglp | migbusy | migref
  | sys | brk
  | sbhint | step
  | cancel | prmto
  | framef | xnest | badsw | xreq | softerr | dumpf
  deriving DecidableEq, Repr

/-- Class in bits [15:8] and code in bits [7:0] (15 R382, R383). -/
def Cause.code : Cause → BitVec 16
  | .zword => 0x0000
  | .illop => 0x0001
  | .vregn => 0x0002
  | .looplen => 0x0003
  | .loopnest => 0x0004
  | .notrap => 0x0005
  | .pcaln => 0x0100
  | .littgt => 0x0101
  | .litaln => 0x0102
  | .maln => 0x0103
  | .priv => 0x0200
  | .notiss => 0x0201
  | .optim => 0x0202
  | .optst => 0x0203
  | .clkperm => 0x0204
  | .clkdeny => 0x0205
  | .tnc => 0x0300
  | .tnv => 0x0301
  | .tres => 0x0302
  | .tuser => 0x0303
  | .tperm => 0x0304
  | .tnomem => 0x0305
  | .lsrange => 0x0306
  | .sprange => 0x0307
  | .amospace => 0x0308
  | .spro => 0x0400
  | .spmode => 0x0401
  | .fifosz => 0x0402
  | .sppid => 0x0403
  | .owner => 0x0404
  | .bankbusy => 0x0405
  | .banksw => 0x0406
  | .bankarg => 0x0407
  | .unwr => 0x0408
  | .fmtw => 0x0500
  | .fmtres => 0x0501
  | .palarg => 0x0502
  | .pflarg => 0x0503
  | .ebcflr => 0x0504
  | .givearg => 0x0505
  | .resheld => 0x0506
  | .collarg => 0x0507
  | .clkarg => 0x0508
  | .scharg => 0x0600
  | .spawnrec => 0x0601
  | .gcbbad => 0x0602
  | .gstate => 0x0603
  | .gdepfull => 0x0604
  | .vtjob => 0x0700
  | .lpdup => 0x0701
  | .mseq => 0x0702
  | .marg => 0x0703
  | .mvrt => 0x0704
  | .varg => 0x0705
  | .logfull => 0x0706
  | .runreach => 0x0800
  | .rtimeo => 0x0801
  | .migspace => 0x0802
  | .miglp => 0x0803
  | .migbusy => 0x0804
  | .migref => 0x0805
  | .sys => 0x0900
  | .brk => 0x0901
  | .sbhint => 0x0A00
  | .step => 0x0A01
  | .cancel => 0x0B00
  | .prmto => 0x0B01
  | .framef => 0x0C00
  | .xnest => 0x0C01
  | .badsw => 0x0C02
  | .xreq => 0x0C03
  | .softerr => 0x0C04
  | .dumpf => 0x0C05

/-- The class of a cause. -/
def Cause.cls (c : Cause) : Nat := c.code.toNat / 256

end Sys2Proof.Machine
end

