-- ==== Sys2Proof/Machine/Links.lean ====
section
/-!
DEFINITION. Coordinates, links, routes and the sending of groups on ports (14 R346, R347, R358, R359, R361, R367).
-/

namespace Sys2Proof.Machine

/-! ## Coordinates and links (14 R346, R347, R361, R367) -/

/-- A device number from its coordinates. -/
def devAt (a b c d : Nat) : Nat := a + 4 * b + 8 * c + 128 * d

/-- The module that port `p` of module `u` connects to (14 R347). -/
def State.neighbour (s : State) (u p : Nat) : Option Nat :=
  let a := u % 4
  let b := u / 4 % 2
  let c := u / 8 % 16
  let d := u / 128
  let nc := s.plat.ncm1.toNat + 1
  let nd := s.plat.ndm1.toNat + 1
  match p with
  | 0 => if a < 3 then some (devAt (a + 1) b c d) else none
  | 1 => if 0 < a then some (devAt (a - 1) b c d) else none
  | 2 => if b = 0 then some (devAt a 1 c d) else none
  | 3 => if b = 1 then some (devAt a 0 c d) else none
  | 4 => if nc = 1 then none else some (devAt a b ((c + 1) % nc) d)
  | 5 => if nc = 1 then none else some (devAt a b ((c + nc - 1) % nc) d)
  | 6 => if nd = 1 then none else some (devAt a b c ((d + 1) % nd))
  | 7 => if nd = 1 then none else some (devAt a b c ((d + nd - 1) % nd))
  | _ => none

/-- The name of the link at a port: its lower-numbered endpoint and that endpoint's port (14 R367). -/
def linkName (u p v : Nat) : Nat × Nat := if u < v then (u, p) else (v, if p % 2 = 0 then p + 1 else p - 1)

/-- The link of that name is UP in a table. -/
def linkUp (table : List LinkRec) (n : Nat × Nat) : Bool :=
  table.any (fun l => decide (l.dev.toNat = n.1) && decide (l.port.toNat = n.2) && l.up)

/-- The modules that UP links of the agreed table join to a module, in port order. -/
def State.upNeighbours (s : State) (u : Nat) : List Nat :=
  (List.range 8).filterMap (fun p =>
    match s.neighbour u p with
    | some v => if linkUp s.table (linkName u p v) then some v else none
    | none => none)

/-- Everything reachable from a frontier. -/
def State.reachFrom (s : State) (seen front : List Nat) : Nat → List Nat
  | 0 => seen
  | n + 1 =>
    let new := (front.flatMap s.upNeighbours).foldl (fun acc v => if seen.contains v || acc.contains v then acc else acc ++ [v]) []
    if new.isEmpty then seen else s.reachFrom (seen ++ new) new n

/-- The agreed link table reaches a device (14 R350). -/
def State.reach (s : State) (dev : Nat) : Bool :=
  s.plat.fabv && (s.reachFrom [s.plat.dev.toNat] [s.plat.dev.toNat] 2048).contains dev

/-! ## Routes and sending (14 R358, R359, R361) -/

/-- Hops from a frontier to a device, at most `fuel` more. -/
def State.hopsFrom (s : State) (seen front : List Nat) (dev k : Nat) : Nat → Option Nat
  | 0 => none
  | n + 1 =>
    if front.contains dev then some k
    else
      let new := (front.flatMap s.upNeighbours).foldl (fun acc v => if seen.contains v || acc.contains v then acc else acc ++ [v]) []
      if new.isEmpty then none else s.hopsFrom (seen ++ new) new dev (k + 1) n

/-- The number of links on a shortest path over UP links of the agreed table. -/
def State.hops (s : State) (u dev : Nat) : Option Nat := s.hopsFrom [u] [u] dev 0 2049

/-- The port toward a device: the lowest whose far end lies on a shortest path (14 R361). -/
def State.route (s : State) (dev : Nat) : Option Nat :=
  let u := s.plat.dev.toNat
  match s.hops u dev with
  | none => none
  | some k =>
    (List.range 8).find? (fun p =>
      match s.neighbour u p with
      | some v => linkUp s.table (linkName u p v) && decide ((s.hops v dev).map (· + 1) = some k)
      | none => false)

/-- The destination of a group that every neighbour gets: no device has this number. -/
def everyone : Nat := 2048

/-- A port takes `n` more groups of five flits for a device to send, in order. -/
def Port.enqueue (p : Port) (dev : Nat) : Nat → Port
  | 0 => p
  | n + 1 => ({ p with unacked := p.unacked ++ [(p.txSeq, dev)], txSeq := p.txSeq + 1 } : Port).enqueue dev n

/-- Groups that the replay buffer of a port holds (14 R359). -/
def replayRoom : Nat := 2048

/-- An UP port sends the groups that wait, as far as its replay buffer has room: five flits and six slots each (14 R358,
R359, R362). -/
def Port.pump (p : Port) : Port :=
  if p.state = 2 then
    let n := Nat.min p.unacked.length replayRoom - p.out
    { p with out := p.out + n, txNow := p.txNow + 5 * n, txSlot := p.txSlot + 6 * n }
  else p

/-- Groups that a packet of some bytes takes; how packets are laid into flits is the model's choice. -/
def groupsOf (bytes : Nat) : Nat := Nat.max 1 ((bytes + 319) / 320)

/-- A packet for a device enters the port toward it; without a route it goes nowhere. -/
def State.inject (s : State) (dev bytes : Nat) : State :=
  match s.route dev with
  | some p => s.modPort p (fun k => (k.enqueue dev (groupsOf bytes)).pump)
  | none => s

/-- The groups that a link left behind when it went down go by the routes of the agreed table; one without a route waits on
(14 R361, R366). -/
def State.sendRerouted (s : State) : State :=
  s.reroute.foldl (fun (t : State) d =>
    match t.route d with
    | some p => t.modPort p (fun k => (k.enqueue d 1).pump)
    | none => { t with reroute := t.reroute ++ [d] }) { s with reroute := [] }

end Sys2Proof.Machine
end

