-- ==== Sys2Proof/Machine/Mem.lean ====
section
/-!
DEFINITION. Memory: bytes in one canonical list, the home copies with the key each HBM4 sector was written under
(04 R94, R95; 05 R111), the tile caches (04 R90), the write-combining buffers (04 R104), and translation (04 R96 to R98).
-/

namespace Sys2Proof.Machine

/-! ## Bytes -/

/-- The canonical form of memory: addresses strictly rising from `lo`, and no byte equal to what an unlisted address
reads as, which is 0 (assumption 2). -/
def Memory.wfFrom (lo : Nat) : List Host.Cell → Bool
  | [] => true
  | (a, b) :: r => decide (lo ≤ a) && decide (b ≠ 0) && Memory.wfFrom (a + 1) r

/-- Memory is in its canonical form. -/
def Memory.wf (m : List Host.Cell) : Bool := Memory.wfFrom 0 m

/-- The byte at an address; an unlisted address reads 0 (16 R412; assumption 2). -/
def memGet (m : List Host.Cell) (a : Nat) : Byte :=
  match m with
  | [] => 0
  | (k, v) :: r => if k = a then v else if a < k then 0 else memGet r a

/-- Write a byte, keeping the canonical form. -/
def memSet (m : List Host.Cell) (a : Nat) (b : Byte) : List Host.Cell :=
  match m with
  | [] => if b = 0 then [] else [(a, b)]
  | (k, v) :: r =>
    if a < k then (if b = 0 then (k, v) :: r else (a, b) :: (k, v) :: r)
    else if k = a then (if b = 0 then r else (a, b) :: r)
    else (k, v) :: memSet r a b

/-- `n` bytes from address `a`. -/
def memBytes (m : List Host.Cell) (a : Nat) : Nat → List Byte
  | 0 => []
  | n + 1 => memGet m a :: memBytes m (a + 1) n

/-- Write bytes from address `a`. -/
def memPut (m : List Host.Cell) (a : Nat) : List Byte → List Host.Cell
  | [] => m
  | b :: bs => memPut (memSet m a b) (a + 1) bs

/-- Little-endian value of bytes (00 R2). -/
def leNat : List Byte → Nat
  | [] => 0
  | b :: bs => b.toNat + 256 * leNat bs

/-- The `n` little-endian bytes of a number. -/
def natLe : Nat → Nat → List Byte
  | 0, _ => []
  | n + 1, v => BitVec.ofNat 8 v :: natLe n (v / 256)

/-- A 64-bit word at a flat address. -/
def memWord (m : List Host.Cell) (a : Nat) : Word := BitVec.ofNat 64 (leNat (memBytes m a 8))

/-- Flat address of a byte of a core's local store (04 R80). -/
def localBase (core : Nat) : Nat := 2 ^ 52 + core * 2 ^ 18

/-- Flat address of a scratchpad address (04 R81). -/
def spBase (a : Nat) : Nat := 2 ^ 53 + a

/-- Byte `i` of a 2,048-bit value. -/
def vByte (v : VReg) (i : Nat) : Byte := v.extractLsb' (8 * i) 8

/-- `n` bytes of a 2,048-bit value from byte `off`. -/
def vBytes (v : VReg) (off : Nat) : Nat → List Byte
  | 0 => []
  | n + 1 => vByte v off :: vBytes v (off + 1) n

/-- Replace byte `i`. -/
def vSetByte (v : VReg) (i : Nat) (b : Byte) : VReg :=
  (v &&& ~~~((0xFF : VReg) <<< (8 * i))) ||| (b.setWidth 2048 <<< (8 * i))

/-- Replace bytes from byte `off`. -/
def vPut (v : VReg) (off : Nat) : List Byte → VReg
  | [] => v
  | b :: bs => vPut (vSetByte v off b) (off + 1) bs

/-- The value of 256 bytes. -/
def bytesV (bs : List Byte) : VReg := BitVec.ofNat 2048 (leNat bs)

/-- A mask of `n` ones from bit `off`. -/
def ones256 (off n : Nat) : Mask := BitVec.ofNat 256 ((2 ^ n - 1) * 2 ^ off)

/-! ## Home copies -/

/-- The regions of physical memory (04 R94). -/
inductive Region where
  | hbm
  | host
  | devreg (off : Nat)
  | remote (dev : Nat) (off : Nat)
  | nomem
  deriving DecidableEq, Repr

/-- The region of a physical address; a remote address of the own device number is local (04 R94). -/
def State.region (s : State) (pa : Nat) : Region :=
  let top := pa / 2 ^ 48 % 16
  if top = 0 then (if pa < Config.hbmBytes then .hbm else .nomem)
  else if top = 1 then .host
  else if top = 2 then .devreg (pa % 2 ^ 48)
  else if top < 8 then .nomem
  else
    let dev := pa / 2 ^ 40 % 2 ^ 11
    if s.plat.fabv && dev = s.plat.dev.toNat then (if pa % 2 ^ 40 < Config.hbmBytes then .hbm else .nomem)
    else .remote dev (pa % 2 ^ 40)

/-- A physical address of the remote half of the space, whichever device it names (04 R94). -/
def farPa (pa : Nat) : Bool := decide (pa / 2 ^ 51 % 2 = 1)

/-- The local physical address that a remote address of the own device number means (04 R94). -/
def localPa (pa : Nat) : Nat := if farPa pa then pa % 2 ^ 40 else pa

/-- The number of a PID's key generation, 0 without a key (16 R418). -/
def State.keyOf (s : State) (pid : BitVec 12) : Nat :=
  match (s.job pid).key with
  | none => 0
  | some g => g + 1

/-- What a byte reads as under a key other than its writer's: free (04 R95; assumption 5). -/
def garbage (pa writer reader : Nat) : Byte := Config.freeByte (pa * 2 ^ 40 + writer * 2 ^ 20 + reader)

/-- A byte of a home copy, read under the key of a PID (04 R95). -/
def State.homeByte (s : State) (pid : BitVec 12) (pa : Nat) : Byte :=
  if pa < Config.hbmBytes then
    match alGet s.sectors (pa / 64) with
    | none => memGet s.mem pa
    | some g => if g = s.keyOf pid then memGet s.mem pa else garbage pa g (s.keyOf pid)
  else memGet s.mem pa

/-- Bytes of a home copy. -/
def State.homeBytes (s : State) (pid : BitVec 12) (pa : Nat) : Nat → List Byte
  | 0 => []
  | n + 1 => s.homeByte pid pa :: s.homeBytes pid (pa + 1) n

/-- Bring a sector under a PID's key: what another key wrote becomes the free bytes it decrypts to (04 R95). -/
def State.claim (s : State) (pid : BitVec 12) (sec : Nat) : State :=
  if 64 * sec < Config.hbmBytes then
    match alGet s.sectors sec with
    | none => { s with sectors := alSet s.sectors sec (s.keyOf pid) }
    | some g =>
      if g = s.keyOf pid then s
      else { s with mem := memPut s.mem (64 * sec) (s.homeBytes pid (64 * sec) 64),
                    sectors := alSet s.sectors sec (s.keyOf pid) }
  else s

/-- Write one byte of a home copy under a PID's key. -/
def State.homePutByte (s : State) (pid : BitVec 12) (pa : Nat) (b : Byte) : State :=
  let s1 := s.claim pid (pa / 64)
  { s1 with mem := memSet s1.mem pa b }

/-- Write bytes of a home copy under a PID's key. -/
def State.homePut (s : State) (pid : BitVec 12) (pa : Nat) : List Byte → State
  | [] => s
  | b :: bs => (s.homePutByte pid pa b).homePut pid (pa + 1) bs

/-- Write the bytes of a 256-byte line that a mask selects, from byte `i` on. -/
def State.homePutMask (s : State) (pid : BitVec 12) (line : Nat) (mask : Mask) (data : VReg) (i : Nat) : Nat → State
  | 0 => s
  | n + 1 =>
    let s1 := if mask.getLsbD i then s.homePutByte pid (256 * line + i) (vByte data i) else s
    s1.homePutMask pid line mask data (i + 1) n

/-! ## Tile caches (04 R90) -/

/-- The banks into which lines may be filled: cache mode and no switch in progress (04 R85). -/
def Tile.ways (t : Tile) : List Nat :=
  (List.range 16).filter (fun b => match t.banks[b]? with | some k => k.mode = 0 && !k.sw | none => false)

/-- The tile has a tile cache: some bank is in cache mode, also while it switches, when its lines still stand (04 R85,
R90). -/
def Tile.hasCache (t : Tile) : Bool := t.banks.toList.any (fun k => k.mode = 0)

/-- The cached copy of a line. -/
def Tile.findLine (t : Tile) (line : Nat) : Option CLine := t.cache.find? (fun c => c.line = line)

/-- Put a line into the cache in place of its earlier copy. -/
def Tile.putLine (t : Tile) (c : CLine) : Tile := { t with cache := c :: t.cache.filter (fun k => k.line ≠ c.line) }

/-- Remove a line. -/
def Tile.dropLine (t : Tile) (line : Nat) : Tile := { t with cache := t.cache.filter (fun k => k.line ≠ line) }

/-- Write the dirty bytes of a line to its home copy; only the bytes that the tile wrote (05 R111). -/
def State.flushLine (s : State) (c : CLine) : State := s.homePutMask c.pid c.line c.dirty c.data 0 256

/-- Write back one line of a tile; it stays valid and becomes clean (04 R106). -/
def State.writeBackLine (s : State) (t line : Nat) : State :=
  match (s.tile t).findLine line with
  | none => s
  | some c => (s.flushLine c).modTile t (fun k => k.putLine { c with dirty := 0 })

/-- Write back one line, then invalidate it. -/
def State.dropCached (s : State) (t line : Nat) : State :=
  match (s.tile t).findLine line with
  | none => s
  | some c => (s.flushLine c).modTile t (fun k => k.dropLine line)

/-- WriteBackTile of 05 R118: every dirty byte to its home copy; lines stay valid and become clean. -/
def State.writeBackTile (s : State) (t : Nat) : State :=
  let s1 := (s.tile t).cache.foldl (fun a c => a.flushLine c) s
  s1.modTile t (fun k => { k with cache := k.cache.map (fun c => { c with dirty := 0 }) })

/-- The class mask names a line of this hint, or the line is a bypass line (05 R117, R118). -/
def maskNames (mask : BitVec 2) (hint : BitVec 2) : Bool :=
  hint = 3 || mask = 0 || (if hint = 1 then mask.getLsbD 0 else mask.getLsbD 1)

/-- InvalidateTile(mask) of 05 R118: the named lines are written back, then invalidated. -/
def State.invalidateTile (s : State) (t : Nat) (mask : BitVec 2) : State :=
  let s1 := (s.tile t).cache.foldl (fun a c => if maskNames mask c.hint then a.flushLine c else a) s
  s1.modTile t (fun k => { k with cache := k.cache.filter (fun c => !maskNames mask c.hint) })

/-- Write back and invalidate the lines one bank holds as its way (04 R85). -/
def State.dropWay (s : State) (t way : Nat) : State :=
  let s1 := (s.tile t).cache.foldl (fun a c => if c.way = way then a.flushLine c else a) s
  s1.modTile t (fun k => { k with cache := k.cache.filter (fun c => c.way ≠ way) })

/-- The way a new line takes and the line it replaces: a way with no line in the set, else a stream line of the set, else
a free choice (04 R90; assumption 8). -/
def Tile.victim (t : Tile) (line ctr : Nat) : Nat × Option CLine :=
  let inSet := t.cache.filter (fun c => c.line % 4096 = line % 4096)
  match t.ways.find? (fun w => (inSet.find? (fun c => c.way = w)).isNone) with
  | some w => (w, none)
  | none =>
    match inSet.find? (fun c => c.hint = 1) with
    | some c => (c.way, some c)
    | none =>
      match inSet[Config.freeWay ctr % inSet.length]? with
      | some c => (c.way, some c)
      | none => (0, none)

/-- Make one sector of a line valid in a tile's cache; a new line needs a bank that takes lines (04 R90). A line that two
PIDs share is filled and written back under the key of the PID that filled it first, and another PID's hit returns its
bytes as they stand (04 R95; assumption 82). -/
def State.fillSector (s : State) (t : Nat) (pid : BitVec 12) (hint : BitVec 2) (line sec : Nat) : State :=
  match (s.tile t).findLine line with
  | some c =>
    if c.valid.getLsbD sec then s
    else
      s.modTile t (fun k => k.putLine { c with
        valid := c.valid ||| BitVec.ofNat 4 (2 ^ sec),
        data := vPut c.data (64 * sec) (s.homeBytes c.pid (256 * line + 64 * sec) 64) })
  | none =>
    if (s.tile t).ways.isEmpty then s
    else
    let (w, old) := (s.tile t).victim line s.freeCtr
    let s1 := match old with
      | some c => (s.dropCached t c.line).tickFree
      | none => s
    s1.modTile t (fun k => k.putLine
      { way := w, line := line, pid := pid, hint := hint, valid := BitVec.ofNat 4 (2 ^ sec), dirty := 0,
        data := vPut 0 (64 * sec) (s1.homeBytes pid (256 * line + 64 * sec) 64) })

/-- How a party reaches local HBM4: through which tile's cache, if any, with which key and page hint. -/
structure Path where
  tile : Option Nat
  pid  : BitVec 12
  hint : BitVec 2
  deriving DecidableEq, Repr

/-- Read bytes within one sector along a path (04 R90). -/
def State.readSector (s : State) (p : Path) (pa n : Nat) : List Byte × State :=
  match p.tile with
  | none => (s.homeBytes p.pid pa n, s)
  | some t =>
    let line := pa / 256
    let sec := pa / 64 % 4
    match (s.tile t).findLine line with
    | some c =>
      if c.valid.getLsbD sec then
        (vBytes c.data (pa % 256) n, if p.hint = 3 then s.dropCached t line else s)
      else if p.hint = 3 then (s.homeBytes p.pid pa n, s)
      else (s.homeBytes c.pid pa n, s.fillSector t p.pid p.hint line sec)
    | none =>
      if p.hint = 3 then (s.homeBytes p.pid pa n, s)
      else (s.homeBytes p.pid pa n, s.fillSector t p.pid p.hint line sec)

/-- Write bytes within one sector along a path (04 R90; 05 R111). -/
def State.writeSector (s : State) (p : Path) (pa : Nat) (bs : List Byte) : State :=
  match p.tile with
  | none => s.homePut p.pid pa bs
  | some t =>
    let line := pa / 256
    let sec := pa / 64 % 4
    let merge (a : State) : State :=
      match (a.tile t).findLine line with
      | some c => a.modTile t (fun k => k.putLine { c with
          dirty := c.dirty ||| ones256 (pa % 256) bs.length, data := vPut c.data (pa % 256) bs })
      | none => a
    match (s.tile t).findLine line with
    | some c =>
      if p.hint = 3 then
        (if c.valid.getLsbD sec then (merge s).dropCached t line else s.homePut p.pid pa bs)
      else merge (s.fillSector t p.pid p.hint line sec)
    | none =>
      if p.hint = 3 || (s.tile t).ways.isEmpty then s.homePut p.pid pa bs
      else merge (s.fillSector t p.pid p.hint line sec)

/-- Read bytes along a path, sector by sector. -/
def State.readPath (s : State) (p : Path) (pa n : Nat) : Nat → List Byte × State
  | 0 => ([], s)
  | fuel + 1 =>
    if n = 0 then ([], s)
    else
      let k := Nat.min n (64 - pa % 64)
      let (b1, s1) := s.readSector p pa k
      let (b2, s2) := s1.readPath p (pa + k) (n - k) fuel
      (b1 ++ b2, s2)

/-- Write bytes along a path, sector by sector. -/
def State.writePath (s : State) (p : Path) (pa : Nat) (bs : List Byte) : Nat → State
  | 0 => s
  | fuel + 1 =>
    if bs.isEmpty then s
    else
      let k := Nat.min bs.length (64 - pa % 64)
      (s.writeSector p pa (bs.take k)).writePath p (pa + k) (bs.drop k) fuel

/-! ## Translation (04 R96 to R98) -/

/-- The kinds of access that translation distinguishes. -/
inductive Acc where
  | read | write | fetch
  deriving DecidableEq, Repr

/-- What a translation gives: the address, a remote-numbered one of the own device made local, and the leaf's attributes.
`far` says that the leaf has a remote address, which no tile cache takes and no prefetch fills (04 R90, R94, R105). -/
structure Xlate where
  pa      : Nat
  far     : Bool
  timed   : Bool
  hostOrd : Bool
  cached  : Bool
  hint    : BitVec 2
  migrate : Bool
  deriving DecidableEq, Repr

/-- The station that serves an address for a quadrant (04 R96). -/
def stationOf (q va : Nat) : Nat := 2 * q + (va / 2 ^ 21 + va / 2 ^ 30 + va / 2 ^ 39) % 2

/-- Shift, index width and page size in 64 KiB pages of the five levels (04 R97). -/
def walkLevels : List (Nat × Nat × Nat) :=
  [(48, 512, 0), (39, 512, 0), (30, 512, 16384), (21, 512, 32), (16, 32, 1)]

/-- A cached translation from a leaf entry. -/
def leafEntry (station : Nat) (pid : BitVec 12) (va span : Nat) (e : Word) (w x u : Bool) : TlbEntry :=
  { station := station, pid := pid, vpn := va / 2 ^ 16 / span * span, span := span,
    base := fld e 51 12 * 4096, w := w, x := x, u := u, timed := bitOf e 5, hostOrd := bitOf e 6,
    cached := bitOf e 7, hint := BitVec.ofNat 2 (fld e 9 8), migrate := bitOf e 10 }

/-- A word of a translation table as the second level holds it, or host memory; a table elsewhere gives free words
(04 R97; assumption 13). -/
def State.tableWord (s : State) (pa : Nat) : Word :=
  match s.region pa with
  | .hbm => memWord s.mem (localPa pa)
  | .host => memWord s.mem pa
  | _ => Config.freeWord pa

/-- One walk from a table at `base` over the remaining levels (04 R97, R98). -/
def State.walkFrom (s : State) (station : Nat) (pid : BitVec 12) (va base : Nat) (w x u : Bool) :
    List (Nat × Nat × Nat) → Except Cause TlbEntry
  | [] => .error .tres
  | (sh, entries, span) :: rest =>
    let e := s.tableWord (base + 8 * (va / 2 ^ sh % entries))
    let w1 := w && bitOf e 2
    let x1 := x && bitOf e 3
    let u1 := u && bitOf e 4
    let leaf := rest.isEmpty || bitOf e 1
    if !bitOf e 0 then .error .tnv
    else if fld e 63 52 ≠ 0 || bitOf e 11 then .error .tres
    else if leaf then
      if span = 0 then .error .tres
      else if fld e 51 12 % (span * 16) ≠ 0 then .error .tres
      else if bitOf e 5 && bitOf e 6 then .error .tres
      else .ok (leafEntry station pid va span e w1 x1 u1)
    else
      match s.region (fld e 51 12 * 4096) with
      | .nomem => .error .tnomem
      | _ => s.walkFrom station pid va (fld e 51 12 * 4096) w1 x1 u1 rest

/-- A whole walk of a PID's tree (04 R97). The tables are read as the second level holds them, under no PID's key
(assumption 13). PIDTB is taken with all its 64 bits (assumption 83). -/
def State.walk (s : State) (station : Nat) (pid : BitVec 12) (va : Nat) : Except Cause TlbEntry :=
  let at_ := s.pidtb.toNat + 16 * pid.toNat
  let e := s.tableWord at_
  if !bitOf e 0 then .error .tnv
  else if fld e 63 52 ≠ 0 || fld e 11 1 ≠ 0 || s.tableWord (at_ + 8) ≠ 0 then .error .tres
  else
    match s.region (fld e 51 12 * 4096) with
    | .nomem => .error .tnomem
    | _ => s.walkFrom station pid va (fld e 51 12 * 4096) true true true walkLevels

/-- The entry a station holds for an address (04 R96). -/
def State.tlbFind (s : State) (station : Nat) (pid : BitVec 12) (va : Nat) : Option TlbEntry :=
  s.tlb.find? (fun e => e.station = station && e.pid = pid && decide (e.vpn ≤ va / 2 ^ 16) &&
    decide (va / 2 ^ 16 < e.vpn + e.span))

/-- Translations that a station holds: 4,096 first-level and 65,536 second-level entries (04 R96). -/
def tlbCapacity : Nat := 4096 + 65536

/-- A station caches an entry; past its capacity the oldest of its entries goes (04 R96; assumption 14). -/
def State.tlbAdd (s : State) (e : TlbEntry) : State :=
  let l := s.tlb ++ [e]
  let full := decide (tlbCapacity ≤ (s.tlb.filter (fun k => k.station = e.station)).length)
  { s with tlb := if full then l.eraseP (fun k => k.station = e.station) else l }

/-- The checks of an access against a translation, in the order of 04 R98. -/
def State.checkXlate (s : State) (pid : BitVec 12) (exec : Bool) (acc : Acc) (va : Nat) (e : TlbEntry) :
    Except Cause Xlate :=
  let pa := e.base + va % (e.span * 2 ^ 16)
  let reg := s.region pa
  let isDev := match reg with | .devreg _ => true | _ => false
  if !exec && (!e.u || isDev) then .error .tuser
  else if (acc = .write && !e.w) || (acc = .fetch && !e.x) then .error .tperm
  else if reg = .nomem || (reg = .hbm && (s.job pid).key.isNone) then .error .tnomem
  else .ok { pa := if reg = .hbm then localPa pa else pa, far := farPa pa, timed := e.timed, hostOrd := e.hostOrd,
             cached := e.cached && reg = .hbm && !farPa pa, hint := e.hint, migrate := e.migrate }

/-- Translate an address for a PID from a quadrant (04 R96 to R98): the answer, and the state with what the station now
caches (assumption 14). -/
def State.translate (s : State) (q : Nat) (pid : BitVec 12) (exec : Bool) (va : Word) (acc : Acc) :
    Except Cause Xlate × State :=
  if fld va 63 57 ≠ 0 then (.error .tnc, s)
  else
    let a := va.toNat
    match s.tlbFind (stationOf q a) pid a with
    | some e => (s.checkXlate pid exec acc a e, s)
    | none =>
      match s.walk (stationOf q a) pid a with
      | .error c => (.error c, s)
      | .ok e => (s.checkXlate pid exec acc a e, s.tlbAdd e)

/-! ## Remote requests and write-combining buffers -/

/-- The strand number of a request that the device itself makes. -/
def noStrand : Nat := 2 ^ 69

/-- The bytes of two ranges overlap. -/
def overlaps (a n b m : Nat) : Bool := decide (a < b + m) && decide (b < a + n)

/-- An unanswered request and another of its strand name a byte in common (14 R353). -/
def RemoteOut.meets (r q : RemoteOut) : Bool :=
  r.reply.isNone && decide (r.strand = q.strand) && decide (r.dev = q.dev) && overlaps r.offset r.len q.offset q.len

/-- Put a remote request out: it takes the next tag and waits for its reply (14 R350). One that overlaps an unanswered
request of its strand is not sent before that one is answered (14 R353). -/
def State.remoteSend (s : State) (r : RemoteOut) : State :=
  let wait := s.remote.any (fun q => q.meets r)
  let q : RemoteOut :=
    { r with tag := s.nextTag, attempts := if wait then 0 else 1, since := s.ticks, inFlight := !wait }
  let s1 : State := { s with remote := s.remote ++ [q], nextTag := s.nextTag + 1 }
  if wait then s1 else s1.inject r.dev.toNat r.data.length

/-- Send the requests that wait for none any more (14 R353); `before` holds the earlier ones. -/
def State.remoteRelease (s : State) (before : List RemoteOut) : List RemoteOut → State
  | [] => { s with remote := before }
  | r :: rest =>
    if r.attempts = 0 && r.reply.isNone && !before.any (fun q => q.meets r) then
      (s.inject r.dev.toNat r.data.length).remoteRelease
        (before ++ [{ r with attempts := 1, since := s.ticks, inFlight := true }]) rest
    else s.remoteRelease (before ++ [r]) rest

/-- The remote requests that a test selects are over; those that waited for them are sent. -/
def State.remoteEnd (s : State) (sel : RemoteOut → Bool) : State :=
  s.remoteRelease [] (s.remote.filter (fun r => !sel r))

/-- A late fault of a relaxed access: of a load at its destination, of a store at the first ordering instruction wide
enough (14 R350; 15 R403). -/
def Slot.remoteLate (x : Slot) (dst : PendKind) (c : Cause) (va : Word) : Slot :=
  let f : HeldFault := { cause := c.code, xpc := 0, xval := va, late := true, final := false }
  match dst with
  | .loadG d => { x with lateLoad := x.lateLoad ++ [(.g d.toNat, f)] }
  | .loadV v _ => { x with lateLoad := x.lateLoad ++ [(.v v, f)] }
  | _ => if x.lateStore.isSome then x else { x with lateStore := some f }

/-- A request for a relaxed or a plain store of some bytes. -/
def storeRequest (strand dev off : Nat) (va : Word) (bs : List Byte) (relaxed : Bool) : RemoteOut :=
  { tag := 0, strand := strand, dev := BitVec.ofNat 11 dev, offset := off, len := bs.length, va := va, kind := .store,
    data := bs, dst := .store, elems := [], relaxed := relaxed, logs := [], lvt := 0, attempts := 1, since := 0,
    inFlight := true, reply := none }

/-- A store that needs no register: to local HBM4 or host memory at its home copy, to a device register in its queue, to
a remote device as a request, or its late fault where the device is unreachable (04 R94; 05 R111; 14 R350). -/
def State.homeStore (s : State) (strand : Nat) (pid : BitVec 12) (va : Word) (pa : Nat) (bs : List Byte) : State :=
  match s.region pa with
  | .hbm => s.homePut pid pa bs
  | .host => { s with mem := memPut s.mem pa bs }
  | .devreg off =>
    if bs.length = 8 && off % 8 = 0 then { s with regq := s.regq ++ [(off, BitVec.ofNat 64 (leNat bs))] } else s
  | .remote dev off =>
    if s.reach dev then s.remoteSend (storeRequest strand dev off va bs true)
    else s.modStrand strand (fun x => x.remoteLate .store .runreach va)
  | .nomem => s

/-- Write the bytes a mask selects of a line, one store for each run of bytes; `va` is the line's first address. -/
def State.storeRuns (s : State) (strand : Nat) (pid : BitVec 12) (va : Word) (line : Nat) (mask : Mask) (data : VReg)
    (i : Nat) (run : List Byte) : Nat → State
  | 0 =>
    if run.isEmpty then s
    else s.homeStore strand pid (va + BitVec.ofNat 64 (i - run.length)) (256 * line + i - run.length) run
  | n + 1 =>
    if mask.getLsbD i then s.storeRuns strand pid va line mask data (i + 1) (run ++ [vByte data i]) n
    else
      let s1 :=
        if run.isEmpty then s
        else s.homeStore strand pid (va + BitVec.ofNat 64 (i - run.length)) (256 * line + i - run.length) run
      s1.storeRuns strand pid va line mask data (i + 1) [] n

/-- Drain one write-combining buffer of a core (04 R104). Non-temporal stores never enter the tile cache: a copy of the
line that the core's tile caches goes home first, so that the slot's later loads see the bytes (05 R116 item 1). -/
def State.drainBuf (s : State) (core : Nat) (b : WcBuf) : State :=
  match s.region (256 * b.line) with
  | .hbm => (s.dropCached (tileOf core) b.line).homePutMask b.pid b.line b.mask b.data 0 256
  | _ => s.storeRuns b.strand b.pid b.va b.line b.mask b.data 0 [] 256

/-- Drain the buffer at an index of a core. -/
def State.drainAt (s : State) (core idx : Nat) : State :=
  match (s.core core).wc[idx]? with
  | none => s
  | some b => (s.drainBuf core b).modCore core (fun c => { c with wc := c.wc.eraseIdx idx })

/-- Drain every buffer of a strand on a core that a test selects (04 R104). -/
def State.drainWcIf (s : State) (core : Nat) (sel : WcBuf → Bool) : State :=
  let s1 := ((s.core core).wc.filter sel).foldl (fun a b => a.drainBuf core b) s
  s1.modCore core (fun c => { c with wc := c.wc.filter (fun b => !sel b) })

/-- DrainWC of 05 R118: every write-combining buffer of a strand. -/
def State.drainWc (s : State) (core strand : Nat) : State := s.drainWcIf core (fun b => b.strand = strand)

/-- A write-combining buffer of a strand that holds a line of another device (04 R104; 14 R349). -/
def State.farLine (s : State) (strand : Nat) (b : WcBuf) : Bool :=
  decide (b.strand = strand) && (match s.region (256 * b.line) with | .remote _ _ => true | _ => false)

/-- A strand's non-temporal stores to other devices are still in write-combining buffers of a core. -/
def State.farBuffered (s : State) (core strand : Nat) : Bool := (s.core core).wc.any (fun b => s.farLine strand b)

/-- They are sent: an ordering instruction of chassis scope or wider, a trap and a departure await their acknowledgements
(05 R118, R123). -/
def State.drainFar (s : State) (core strand : Nat) : State :=
  if s.farBuffered core strand then s.drainWcIf core (fun b => s.farLine strand b) else s

/-- ROUTE.HOLD keeps a strand's buffered stores to local HBM4 from draining (04 R92, R104). -/
def State.holdsBuffers (s : State) (core strand : Nat) : Bool :=
  (s.core core).hold && (s.core core).wc.any (fun b => decide (b.strand = strand) && decide (s.region (256 * b.line) = .hbm))

/-- A buffer of a strand holds bytes of a range within one line. -/
def WcBuf.covers (b : WcBuf) (strand pa n : Nat) : Bool :=
  decide (b.strand = strand) && decide (b.line = pa / 256) && decide (b.mask &&& ones256 (pa % 256) n ≠ 0)

/-- A non-temporal store enters a buffer: merged into the slot's buffer of the line, else into a new one, for which the
buffer written longest ago drains when all eight hold lines; a full buffer drains (04 R104). -/
def State.wcStore (s : State) (core strand : Nat) (pid : BitVec 12) (va : Word) (pa : Nat) (bs : List Byte) : State :=
  let line := pa / 256
  let wc := (s.core core).wc
  let old := wc.find? (fun b => b.strand = strand && b.line = line)
  let base : WcBuf := old.getD { strand := strand, pid := pid, line := line, va := 0, mask := 0, data := 0 }
  let new : WcBuf :=
    { base with va := va - BitVec.ofNat 64 (pa % 256), mask := base.mask ||| ones256 (pa % 256) bs.length,
                data := vPut base.data (pa % 256) bs }
  let s1 := if old.isNone && decide (8 ≤ wc.length) then s.drainAt core 0 else s
  if new.mask = BitVec.allOnes 256 then
    (s1.drainBuf core new).modCore core (fun c => { c with wc := c.wc.filter (fun b => !(b.strand = strand && b.line = line)) })
  else
    s1.modCore core (fun c => { c with wc := c.wc.filter (fun b => !(b.strand = strand && b.line = line)) ++ [new] })

end Sys2Proof.Machine
end

