-- ==== Sys2Proof/Machine/DevRegs.lean ====
section
/-!
DEFINITION. Reading the device registers of BAR 0 and of the device-register region (16 R409 to R419; 12 R310; 14 R362
to R365; 15 R405). Writes are in Platform.
-/

namespace Sys2Proof.Machine

/-- DEVST (16 R410): architecture level 1, stepping 0xB0. -/
def State.devst (s : State) : Word :=
  packFields [(s.plat.bootErr.toNat, 24), (1, 16), (0xB0, 8), (b2n s.plat.fatal, 3), (b2n s.plat.fabv, 2),
    (s.plat.svc.toNat, 0)]

/-- FABCFG (16 R410); VALID reads as accepted. -/
def State.fabcfg (s : State) : Word :=
  packFields [(b2n s.plat.fabv, 30), (s.plat.ndm1.toNat, 26), (s.plat.ncm1.toNat, 22), (s.plat.dev.toNat, 0)]

/-- WINCTL (16 R410). -/
def State.winctl (s : State) : Word :=
  packFields [(s.plat.winPid.toNat, 52), (s.plat.werr.toNat, 32), (b2n s.plat.winEn, 0)]

/-- KEYCTL (16 R418): OP is write only. -/
def State.keyctl (s : State) : Word :=
  packFields [(s.plat.keyPid.toNat, 52), (b2n (s.job s.plat.keyPid).key.isSome, 3), (b2n (s.plat.keyOp ≠ 0), 2)]

/-- SCANCTL (16 R419): START is write only. -/
def State.scanctl (s : State) : Word :=
  packFields [(b2n s.plat.scElev, 20), (s.plat.scPrio.toNat, 16), (s.plat.scTarget.toNat, 8)]

/-- SCANST (16 R419). -/
def State.scanst (s : State) : Word :=
  packFields [(s.plat.scRuns.toNat, 32), (s.plat.scResult.toNat, 4), (s.plat.scState.toNat, 0)]

/-- FABID (14 R348): taken from FABCFG at acceptance. -/
def State.fabid (s : State) : Word :=
  if s.plat.fabv then packFields [(s.plat.ndm1.toNat, 28), (s.plat.ncm1.toNat, 24), (s.plat.dev.toNat, 0)] else 0

/-- QCTL of a queue (12 R310). -/
def State.qctl (s : State) (n : Nat) : Word :=
  let q := s.queue n
  packFields [(q.sdrop.toNat, 52), (q.ldrop.toNat, 40), (q.qgen.toNat, 36), (q.pid.toNat, 24), (q.pmax.toNat, 20),
    (q.quad.toNat, 18), (q.fifo.length, 9), (b2n q.en, 0)]

/-- LCTL of a port (14 R362). -/
def Port.lctl (p : Port) : Word := packFields [(p.maxw.toNat, 3), (b2n p.skid, 2), (b2n p.en, 0)]

/-- LSTAT of a port (14 R362). -/
def Port.lstat (p : Port) : Word :=
  packFields [(p.peer.toNat, 53), (p.pport.toNat, 50), (p.state.toNat, 47), (p.txw.toNat, 44), (p.rxw.toNat, 41),
    (p.replay.toNat, 0)]

/-- LUTIL of a port (14 R362). -/
def Port.lutil (p : Port) : Word := packFields [(p.txf.toNat, 32), (p.rxf.toNat, 0)]

/-- LHW of a lane (14 R363). -/
def Lane.lhw (l : Lane) : Word :=
  packFields [(l.state.toNat, 61), (l.power.toNat, 36), (l.margin.toNat, 24), (l.ber.toNat, 16), (l.lcerr.toNat, 0)]

/-- LTHR (14 R363). -/
def State.lthr (s : State) : Word :=
  packFields [(s.plat.pfail.toNat, 32), (s.plat.mfail.toNat, 20), (s.plat.bfail.toNat, 12)]

/-- LASER (14 R365). -/
def State.laser (s : State) : Word :=
  packFields [(b2n s.plat.spare, 9), (b2n s.plat.src, 8), (s.plat.cur.toNat, 4), (b2n s.plat.busy, 3),
    (s.plat.req.toNat, 0)]

/-- SKCTL (15 R405): FROZEN while device-fatal. -/
def State.skctl (s : State) : Word :=
  packFields [(b2n s.skFreeze, 13), (b2n s.skFrozen, 12), (s.skHead.toNat, 0)]

/-- Doubleword `k` of a sketchbook record (15 R405). -/
def SkRec.word (r : SkRec) (k : Nat) : Word :=
  match k with
  | 0 => r.time
  | 1 => packFields [(r.code.toNat, 0), (r.kind.toNat, 16), (r.src.toNat, 32), (r.pid.toNat, 48)]
  | 2 => r.a0
  | _ => r.a1

/-- Doubleword of the sketchbook window: record i of the ring, zero where none was written (15 R405). -/
def State.sketchWord (s : State) (off : Nat) : Word :=
  let i := off / 32
  let age := (s.skHead.toNat + 4095 - i) % 4096
  match s.sketch[age]? with
  | some r => r.word (off / 8 % 4)
  | none => 0

/-- The byte of a tile in the discovery table (16 R414): full, digital only, calibrating, DARK. -/
def State.tileByte (s : State) (t : Nat) : Nat :=
  if !s.plat.coreMap.getLsbD (issuingCore t) then 1
  else match (s.tile t).opt.state with
    | .dark => 3
    | .calib => 2
    | .ready => 0
    | .hold => 0
    | .digital => 1

/-- State of an elevator: 0 healthy, 1 retiring, 2 retired (04 R93). -/
def State.elevState (s : State) (e : Nat) : Nat := (alGet s.plat.elevs e).getD 0

/-- A byte of the discovery table (16 R414). The spec says nothing of it before boot step 3 writes it: the model shows its fields
from reset on (assumption 110). -/
def State.discByte (s : State) (i : Nat) : Nat :=
  if i < 4 then 0x3153445A / 256 ^ i % 256
  else if i = 4 then 1
  else if i = 6 then 0xB0
  else if 8 ≤ i && i < 0x10 then s.plat.gen.toNat / 256 ^ (i - 8) % 256
  else if i = 0x10 then (if s.plat.fabv then s.plat.dev.toNat % 256 else 0xFF)
  else if i = 0x11 then (if s.plat.fabv then s.plat.dev.toNat / 256 else 0xFF)
  else if i = 0x12 then b2n s.plat.spare + 2 * b2n s.plat.src
  else if i = 0x13 then s.plat.svc.toNat
  else if 0x20 ≤ i && i < 0x40 then (s.plat.coreMap.extractLsb' (8 * (i - 0x20)) 8).toNat
  else if 0x40 ≤ i && i < 0x50 then s.tileByte (i - 0x40)
  else if 0x50 ≤ i && i < 0x60 then s.plat.slices[i - 0x50]?.getD 0
  else if 0x60 ≤ i && i < 0x90 then s.plat.hst[i - 0x60]?.getD 0
  else if 0x90 ≤ i && i < 0xD0 then s.elevState (i - 0x90)
  else if 0xD0 ≤ i && i < 0xF0 then (s.tile ((i - 0xD0) / 2)).opt.calgen.toNat / 256 ^ ((i - 0xD0) % 2) % 256
  else if 0xF0 ≤ i && i < 0x100 then (s.tile (i - 0xF0)).opt.pebc64.toNat
  else if i = 0x101 then 0x10
  else 0

/-- Eight bytes given by a function, as a doubleword. -/
def word8 (f : Nat → Nat) (i : Nat) : Word :=
  BitVec.ofNat 64 ((List.range 8).foldl (fun acc k => acc + f (i + k) % 256 * 256 ^ k) 0)

/-- A byte of the mailbox (16 R417). -/
def State.mailByte (s : State) (i : Nat) : Nat :=
  if i < 8 then s.plat.mbCmd.toNat / 256 ^ i % 256
  else if i < 0x38 then s.plat.mbArg.toNat / 256 ^ (i - 8) % 256
  else if 0x40 ≤ i && i < 0x48 then s.plat.mbStat.toNat / 256 ^ (i - 0x40) % 256
  else if 0x100 ≤ i && i < 0x1000 then (s.plat.mbResp[i - 0x100]?.getD 0).toNat
  else if 0x1000 ≤ i && i < 0x2000 then ((alGet s.plat.mbStage (i - 0x1000)).getD 0).toNat
  else 0

/-- Read a device register: an aligned doubleword of the map of 16 R409; an offset the map leaves out reads 0. -/
def State.regRead (s : State) (off : Nat) : Word :=
  if off % 8 ≠ 0 then 0
  else if off < 0x40 then
    match off / 8 with
    | 0 => s.devst
    | 1 => 0
    | 2 => s.fabcfg
    | 3 => s.winctl
    | 4 => s.keyctl
    | 5 => s.scanctl
    | 6 => s.scanst
    | _ => s.timeNs
  else if 0x10000 ≤ off && off < 0x11000 then word8 s.discByte (off - 0x10000)
  else if 0x20000 ≤ off && off < 0x28000 then s.qctl ((off - 0x20000) / 8)
  else if 0x30000 ≤ off && off < 0x30800 then
    let p := (off - 0x30000) / 0x100
    let k := off % 0x100
    match s.ports[p]? with
    | none => 0
    | some q =>
      if k = 0 then q.lctl
      else if k = 8 then q.lstat
      else if k = 16 then q.lutil
      else if 0x40 ≤ k && k < 0xC0 then
        (match q.lanes[(k - 0x40) / 8]? with | some l => l.lhw | none => 0)
      else 0
  else if off = 0x30800 then s.lthr
  else if off = 0x30808 then s.laser
  else if 0x40000 ≤ off && off < 0x60000 then s.sketchWord (off - 0x40000)
  else if off = 0x60000 then s.skctl
  else if 0x70000 ≤ off && off < 0x72000 then word8 s.mailByte (off - 0x70000)
  else 0

end Sys2Proof.Machine
end

