-- ==== Sys2Proof/Machine/Float.lean ====
section
/-!
DEFINITION. Number formats: the IEEE-style formats (07 R156 to R158), the tapered formats (07 R160 to R164), E5M3 scales
(07 R165, R166), arithmetic rounded once (03 R62 to R66; 08 R190 to R193), Convert and FloatToInt (07 R172 to R174),
pairwise sums (08 R201) and the functions computed by series (08 R192; 09 R224; assumption 11).
-/

namespace Sys2Proof.Machine

/-! ## Formats and values -/

/-- An IEEE-style format: exponent bits and fraction bits (07 R156). -/
structure Fmt where
  eb : Nat
  fb : Nat
  deriving DecidableEq, Repr

/-- FP32. -/
def fmt32 : Fmt := { eb := 8, fb := 23 }
/-- BF16. -/
def fmtBf : Fmt := { eb := 8, fb := 7 }
/-- binary16. -/
def fmt16 : Fmt := { eb := 5, fb := 10 }
/-- binary64, inside the decomposition engine only (09 R224). -/
def fmt64 : Fmt := { eb := 11, fb := 52 }

/-- The largest exponent field, Emax (07 R156). -/
def Fmt.top (f : Fmt) : Nat := 2 ^ f.eb - 1
/-- The bias (07 R156). -/
def Fmt.bias (f : Fmt) : Nat := 2 ^ (f.eb - 1) - 1
/-- Exponent of the smallest normal number. -/
def Fmt.emin (f : Fmt) : Int := 1 - (f.bias : Int)
/-- Weight of the sign bit. -/
def Fmt.sgn (f : Fmt) : Nat := 2 ^ (f.eb + f.fb)
/-- The quiet bit (07 R156). -/
def Fmt.quiet (f : Fmt) : Nat := 2 ^ (f.fb - 1)
/-- The default NaN (07 R157). -/
def Fmt.defNan (f : Fmt) : Nat := f.top * 2 ^ f.fb + f.quiet

/-- A decoded value: a NaN with its fraction field, an infinity, or (-1)^neg * man * 2^exp. A result that is not dyadic
carries its first 66 bits and a last bit that is 1, so that it rounds as the exact one does. -/
inductive FVal where
  | nan (neg : Bool) (frac : Nat)
  | inf (neg : Bool)
  | num (neg : Bool) (man : Nat) (exp : Int)
  deriving DecidableEq, Repr

/-- A value with the flags its computation raised. -/
abbrev FRes := FVal × BitVec 6

/-- Decode an encoding (07 R156). -/
def Fmt.decode (f : Fmt) (c : Nat) : FVal :=
  let neg := decide (c / f.sgn % 2 = 1)
  let e := c / 2 ^ f.fb % 2 ^ f.eb
  let m := c % 2 ^ f.fb
  if e = f.top then (if m = 0 then .inf neg else .nan neg m)
  else if e = 0 then .num neg m (f.emin - f.fb)
  else .num neg (2 ^ f.fb + m) (f.emin - f.fb + (e - 1 : Nat))

/-- The value is a NaN. -/
def FVal.isNan : FVal → Bool
  | .nan _ _ => true
  | _ => false

/-- The value is a NaN whose quiet bit is clear (07 R156). -/
def FVal.isSnan (f : Fmt) : FVal → Bool
  | .nan _ m => decide (m / f.quiet % 2 = 0)
  | _ => false

/-- The value is zero. -/
def FVal.isZero : FVal → Bool
  | .num _ m _ => decide (m = 0)
  | _ => false

/-- The value is an infinity. -/
def FVal.isInf : FVal → Bool
  | .inf _ => true
  | _ => false

/-- Sign of a value. -/
def FVal.neg : FVal → Bool
  | .nan n _ => n
  | .inf n => n
  | .num n _ _ => n

/-- The value with its sign inverted. -/
def FVal.flip : FVal → FVal
  | .nan n m => .nan (!n) m
  | .inf n => .inf (!n)
  | .num n m e => .num (!n) m e

/-- A NaN made quiet (03 R64). -/
def FVal.hush (f : Fmt) : FVal → FVal
  | .nan n m => .nan n (if m / f.quiet % 2 = 0 then m + f.quiet else m)
  | v => v

/-- The default NaN as a value. -/
def Fmt.nanVal (f : Fmt) : FVal := .nan false f.quiet

/-- NV where an operand is a signalling NaN (03 R63). -/
def snanFlags (f : Fmt) (l : List FVal) : BitVec 6 := if l.any (FVal.isSnan f) then flagNV else 0

/-- The first NaN operand, made quiet (03 R64). -/
def pickNan (f : Fmt) (l : List FVal) : Option FVal := (l.find? FVal.isNan).map (FVal.hush f)

/-! ## Rounding -/

/-- Whether rounding m + rem/2^sh adds one to m, for a mode (07 R158). -/
def roundsUp (rm : Nat) (neg : Bool) (m rem sh : Nat) : Bool :=
  if rem = 0 then false
  else match rm with
    | 0 => decide (2 ^ sh < 2 * rem) || (decide (2 * rem = 2 ^ sh) && decide (m % 2 = 1))
    | 1 => false
    | 2 => !neg
    | _ => neg

/-- man * 2^exp rounded to a multiple of 2^q: the multiple, and whether it is inexact. -/
def roundAt (rm : Nat) (neg : Bool) (man : Nat) (exp q : Int) : Nat × Bool :=
  if q ≤ exp then (man * 2 ^ (exp - q).toNat, false)
  else
    let sh := Nat.min (q - exp).toNat (Nat.log2 man + 3)
    let m := man / 2 ^ sh
    let rem := man % 2 ^ sh
    (m + (if roundsUp rm neg m rem sh then 1 else 0), decide (rem ≠ 0))

/-- The infinity or largest finite encoding of an overflow (03 R63; 07 R158). -/
def Fmt.overflow (f : Fmt) (rm : Nat) (neg : Bool) : Nat :=
  let toInf := match rm with
    | 0 => true
    | 1 => false
    | 2 => !neg
    | _ => neg
  b2n neg * f.sgn + f.top * 2 ^ f.fb - (if toInf then 0 else 1)

/-- Round a non-zero exact value to `p` significant bits on the format's grid: encoding and flags OF, UF, NX, tiny after
rounding (03 R62, R63; 08 R192). -/
def Fmt.round (f : Fmt) (p rm : Nat) (neg : Bool) (man : Nat) (exp : Int) : Nat × BitVec 6 :=
  let e := exp + Nat.log2 man
  let q := max (e - ((p : Int) - 1)) (f.emin - f.fb)
  let (m, inex) := roundAt rm neg man exp q
  let e1 := q + Nat.log2 m
  if m ≠ 0 ∧ f.emin + (f.top - 1 : Nat) ≤ e1 then (f.overflow rm neg, flagOF ||| flagNX)
  else
    let (mu, _) := roundAt rm neg man exp (e - ((p : Int) - 1))
    let tiny := decide (e - ((p : Int) - 1) + Nat.log2 mu < f.emin)
    let body :=
      if m = 0 then 0
      else if e1 < f.emin then m * 2 ^ (q - (f.emin - f.fb)).toNat
      else (e1 - f.emin + 1).toNat * 2 ^ f.fb + (m * 2 ^ f.fb / 2 ^ Nat.log2 m - 2 ^ f.fb)
    (b2n neg * f.sgn + body,
     (if inex then flagNX else 0) ||| (if inex && tiny then flagUF else 0))

/-! ## Tapered formats -/

/-- Number of leading bits equal to `b` among the low `n` bits of `u`. -/
def runLen (u : Nat) (b : Nat) : Nat → Nat
  | 0 => 0
  | n + 1 => if u / 2 ^ n % 2 = b then runLen u b n + 1 else 0

/-- TaperDecode (07 R160); NaR becomes a quiet NaN with no payload (07 R163; 08 R191). -/
def taperDecode (n c : Nat) : FVal :=
  let c := c % 2 ^ n
  if c = 0 then .num false 0 0
  else if c = 2 ^ (n - 1) then fmt32.nanVal
  else
    let neg := decide (2 ^ (n - 1) ≤ c)
    let u := (if neg then 2 ^ n - c else c) % 2 ^ (n - 1)
    let r0 := u / 2 ^ (n - 2) % 2
    let run := runLen u r0 (n - 1)
    let k : Int := if r0 = 1 then (run : Int) - 1 else -(run : Int)
    let left := n - 1 - run - 1
    let rest := u % 2 ^ left
    let e := if left = 0 then 0 else rest / 2 ^ (left - 1)
    let fl := left - 1
    .num neg (2 ^ fl + rest % 2 ^ fl) (2 * k + e - fl)

/-- TaperEncode of a non-zero exact value (07 R164). -/
def taperEncode (n : Nat) (neg : Bool) (man : Nat) (exp : Int) : Nat × BitVec 6 :=
  let len := Nat.log2 man
  let ee := exp + len
  let k := ee / 2
  let e := (ee - 2 * k).toNat
  let (c, fl) : Nat × BitVec 6 :=
    if (n : Int) - 2 ≤ k then
      (2 ^ (n - 1) - 1,
       if 2 * ((n : Int) - 2) < ee || decide (2 ^ len < man) then flagOF ||| flagNX else 0)
    else if k ≤ 1 - (n : Int) then (1, flagUF ||| flagNX)
    else
      let (reg, rl) : Nat × Nat :=
        if 0 ≤ k then (2 * (2 ^ (k.toNat + 1) - 1), k.toNat + 2) else (1, (-k).toNat + 1)
      let bits := ((reg * 2 + e) * 2 ^ len + (man - 2 ^ len)) * 2 ^ n
      let cut := rl + 1 + len + n - (n - 1)
      let c0 := bits / 2 ^ cut
      let g := bits / 2 ^ (cut - 1) % 2
      let st := decide (bits % 2 ^ (cut - 1) ≠ 0)
      let c1 := if g = 1 && (st || c0 % 2 = 1) then c0 + 1 else c0
      (c1, if g = 1 || st then flagNX else 0)
  (if neg then 2 ^ n - c else c, fl)

/-! ## Element formats -/

/-- The format in which an instruction reads and writes an element. -/
inductive Elt where
  | ieee (f : Fmt)
  | taper (n : Nat)
  deriving DecidableEq, Repr

/-- The floating-point format of a width under FMT (08 R185); none at width 64. -/
def eltOf (w : Nat) (fmt : BitVec 4) : Option Elt :=
  if w = 32 then some (.ieee fmt32)
  else if w = 16 then some (.ieee (if fmt.getLsbD 2 then fmt16 else fmtBf))
  else if w = 8 then some (.taper (if fmt.getLsbD 3 then 6 else 8))
  else none

/-- Decode an element. -/
def Elt.decode : Elt → Nat → FVal
  | .ieee f, c => f.decode c
  | .taper n, c => taperDecode n c

/-- The format whose quiet bit and default NaN govern (08 R190, R191). -/
def Elt.nanFmt : Elt → Fmt
  | .ieee f => f
  | .taper _ => fmt32

/-- Encode a result: rounded once under `rm` to `p` bits, or by TaperEncode, where an infinity sets NV and becomes NaR
(07 R172; 08 R190, R191). -/
def Elt.encodeP (t : Elt) (p rm : Nat) (r : FRes) : Nat × BitVec 6 :=
  match t, r with
  | .ieee f, (.nan n m, fl) => (b2n n * f.sgn + f.top * 2 ^ f.fb + m, fl)
  | .ieee f, (.inf n, fl) => (b2n n * f.sgn + f.top * 2 ^ f.fb, fl)
  | .ieee f, (.num n m e, fl) =>
    if m = 0 then (b2n n * f.sgn, fl)
    else let (c, g) := f.round p rm n m e; (c, fl ||| g)
  | .taper n, (.nan _ _, fl) => (2 ^ (n - 1), fl)
  | .taper n, (.inf _, fl) => (2 ^ (n - 1), fl ||| flagNV)
  | .taper n, (.num s m e, fl) =>
    if m = 0 then (0, fl)
    else let (c, g) := taperEncode n s m e; (c, fl ||| g)

/-- Encode a result at the full precision of the format. -/
def Elt.encode (t : Elt) (rm : Nat) (r : FRes) : Nat × BitVec 6 :=
  t.encodeP (match t with | .ieee f => f.fb + 1 | .taper _ => 0) rm r

/-! ## Exact operations -/

/-- Exact signed value at a common exponent. -/
def scaled (neg : Bool) (man : Nat) (sh : Nat) : Int := if neg then -((man * 2 ^ sh : Nat) : Int) else ((man * 2 ^ sh : Nat) : Int)

/-- The exact sum of two finite values; an exact zero takes the common sign, else + except under mode 3 (07 R158). -/
def addNum (rm : Nat) (s1 : Bool) (m1 : Nat) (e1 : Int) (s2 : Bool) (m2 : Nat) (e2 : Int) : FVal :=
  if m1 = 0 ∧ m2 = 0 then .num (if s1 = s2 then s1 else decide (rm = 3)) 0 0
  else if m1 = 0 then .num s2 m2 e2
  else if m2 = 0 then .num s1 m1 e1
  else
    let e := min e1 e2
    let v := scaled s1 m1 (e1 - e).toNat + scaled s2 m2 (e2 - e).toNat
    if v = 0 then .num (decide (rm = 3)) 0 0
    else .num (decide (v < 0)) v.natAbs e

/-- Addition of values that are not NaN. -/
def addVal (f : Fmt) (rm : Nat) (a b : FVal) : FRes :=
  match a, b with
  | .inf s1, .inf s2 => if s1 = s2 then (.inf s1, 0) else (f.nanVal, flagNV)
  | .inf s1, _ => (.inf s1, 0)
  | _, .inf s2 => (.inf s2, 0)
  | .num s1 m1 e1, .num s2 m2 e2 => (addNum rm s1 m1 e1 s2 m2 e2, 0)
  | a, _ => (a, 0)

/-- Multiplication of values that are not NaN. -/
def mulVal (f : Fmt) (a b : FVal) : FRes :=
  match a, b with
  | .inf s1, .inf s2 => (.inf (s1 != s2), 0)
  | .inf s1, .num s2 m2 _ => if m2 = 0 then (f.nanVal, flagNV) else (.inf (s1 != s2), 0)
  | .num s1 m1 _, .inf s2 => if m1 = 0 then (f.nanVal, flagNV) else (.inf (s1 != s2), 0)
  | .num s1 m1 e1, .num s2 m2 e2 => (.num (s1 != s2) (m1 * m2) (e1 + e2), 0)
  | a, _ => (a, 0)

/-- The quotient of two non-zero numbers: 66 bits or more and a last bit that says whether there is a remainder. -/
def divNum (m1 : Nat) (e1 : Int) (m2 : Nat) (e2 : Int) : Nat × Int :=
  let sh := 68 + Nat.log2 m2 - Nat.log2 m1
  let n := m1 * 2 ^ sh
  (2 * (n / m2) + (if n % m2 = 0 then 0 else 1), e1 - e2 - sh - 1)

/-- Division of values that are not NaN (03 R63). -/
def divVal (f : Fmt) (a b : FVal) : FRes :=
  match a, b with
  | .inf _, .inf _ => (f.nanVal, flagNV)
  | .inf s1, .num s2 _ _ => (.inf (s1 != s2), 0)
  | .num s1 _ _, .inf s2 => (.num (s1 != s2) 0 0, 0)
  | .num s1 m1 e1, .num s2 m2 e2 =>
    if m2 = 0 then (if m1 = 0 then (f.nanVal, flagNV) else (.inf (s1 != s2), flagDZ))
    else if m1 = 0 then (.num (s1 != s2) 0 0, 0)
    else let (q, e) := divNum m1 e1 m2 e2; (.num (s1 != s2) q e, 0)
  | a, _ => (a, 0)

/-- Integer square root of `n` below 2^(2k), bit by bit. -/
def isqrt (n r : Nat) : Nat → Nat
  | 0 => r
  | k + 1 => if (r + 2 ^ k) * (r + 2 ^ k) ≤ n then isqrt n (r + 2 ^ k) k else isqrt n r k

/-- Square root of a non-zero number, as `divNum` gives quotients. -/
def sqrtNum (m : Nat) (e : Int) : Nat × Int :=
  let sh := 140 + (e % 2).toNat
  let n := m * 2 ^ sh
  let r := isqrt n 0 (Nat.log2 n / 2 + 1)
  (2 * r + (if r * r = n then 0 else 1), (e - sh) / 2 - 1)

/-- Square root of a value that is not NaN (03 R63). -/
def sqrtVal (f : Fmt) (a : FVal) : FRes :=
  match a with
  | .inf s => if s then (f.nanVal, flagNV) else (.inf false, 0)
  | .num s m e =>
    if m = 0 then (.num s 0 0, 0)
    else if s then (f.nanVal, flagNV)
    else let (r, x) := sqrtNum m e; (.num false r x, 0)
  | .nan n m => (.nan n m, 0)

/-- A two-operand operation with the NaN rules of 03 R63 and R64 around it. -/
def withNan (f : Fmt) (l : List FVal) (r : FRes) : FRes :=
  match pickNan f l with
  | some v => (v, snanFlags f l)
  | none => r

/-- ga + gb. -/
def fAdd (f : Fmt) (rm : Nat) (a b : FVal) : FRes := withNan f [a, b] (addVal f rm a b)
/-- ga - gb. -/
def fSub (f : Fmt) (rm : Nat) (a b : FVal) : FRes := withNan f [a, b] (addVal f rm a b.flip)
/-- ga * gb. -/
def fMul (f : Fmt) (a b : FVal) : FRes := withNan f [a, b] (mulVal f a b)
/-- ga / gb. -/
def fDiv (f : Fmt) (a b : FVal) : FRes := withNan f [a, b] (divVal f a b)
/-- The square root of ga. -/
def fSqrt (f : Fmt) (a : FVal) : FRes := withNan f [a] (sqrtVal f a)

/-- d + a * b, or d - a * b when `sub`, with the product exact (03 R62 to R64). -/
def fFma (f : Fmt) (rm : Nat) (sub : Bool) (d a b : FVal) : FRes :=
  let l := [a, b, d]
  if a.isNan || b.isNan then withNan f l (d, 0)
  else
    let (p, fl) := mulVal f a b
    if p.isNan then (if d.isNan then (d.hush f, fl) else (f.nanVal, fl))
    else withNan f l (addVal f rm d (if sub then p.flip else p))

/-- Exact comparison of values that are not NaN: a < b. Zeros of either sign are equal. -/
def FVal.lt (a b : FVal) : Bool :=
  match a, b with
  | .inf s1, .inf s2 => s1 && !s2
  | .inf s1, _ => s1
  | _, .inf s2 => !s2
  | .num s1 m1 e1, .num s2 m2 e2 =>
    let e := min e1 e2
    decide (scaled s1 m1 (e1 - e).toNat < scaled s2 m2 (e2 - e).toNat)
  | _, _ => false

/-- Order of 03 R65: -0 is below +0. -/
def FVal.below (a b : FVal) : Bool := a.lt b || (a.isZero && b.isZero && a.neg && !b.neg)

/-- fmin and fmax (03 R65). -/
def fMinMax (f : Fmt) (isMax : Bool) (a b : FVal) : FRes :=
  let fl := snanFlags f [a, b]
  if a.isNan && b.isNan then (a.hush f, fl)
  else if a.isNan then (b, fl)
  else if b.isNan then (a, fl)
  else (if a.below b != isMax then a else b, fl)

/-- The relations of compares (03 R66; 08 R196): 0 eq, 1 ne, 2 lt, 3 le, 4 gt, 5 ge, 6 un. NV as there. -/
def fRel (f : Fmt) (c : Nat) (a b : FVal) : Bool × BitVec 6 :=
  let nan := a.isNan || b.isNan
  let quietRel := c = 0 || c = 1 || c = 6
  let fl := if quietRel then snanFlags f [a, b] else if nan then flagNV else 0
  if nan then (c = 1 || c = 6, fl)
  else
    let lt := a.lt b
    let gt := b.lt a
    (match c with
     | 0 => !lt && !gt
     | 1 => lt || gt
     | 2 => lt
     | 3 => !gt
     | 4 => gt
     | 5 => !lt
     | _ => false, fl)

/-! ## Conversions -/

/-- A value rounded to an integer, and whether it changed (07 R174). -/
def FVal.toInt (rm : Nat) (neg : Bool) (man : Nat) (exp : Int) : Int × Bool :=
  let (m, inex) := roundAt rm neg man exp 0
  (if neg then -(m : Int) else (m : Int), inex)

/-- FloatToInt (07 R174). -/
def floatToInt (v : FVal) (n : Nat) (signed : Bool) (rm : Nat) : Int × BitVec 6 :=
  let lo : Int := if signed then -(2 ^ (n - 1) : Nat) else 0
  let hi : Int := if signed then ((2 ^ (n - 1) : Nat) : Int) - 1 else ((2 ^ n : Nat) : Int) - 1
  match v with
  | .nan _ _ => (0, flagNV)
  | .inf s => (if s then lo else hi, flagNV)
  | .num s m e =>
    let (y, inex) := FVal.toInt rm s m e
    if y < lo then (lo, flagNV)
    else if hi < y then (hi, flagNV)
    else (y, if inex then flagNX else 0)

/-- An integer as a value. -/
def FVal.ofInt (v : Int) : FVal := .num (decide (v < 0)) v.natAbs 0

/-- A NaN passing from one IEEE-style format to another (07 R173). -/
def moveNan (src dst : Fmt) (neg : Bool) (frac : Nat) : FVal :=
  FVal.hush dst (.nan neg (frac * 2 ^ (23 - src.fb) / 2 ^ (23 - dst.fb) % dst.quiet + dst.quiet))

/-- An element type of `vcvt` and `fcvt`: a floating-point format or an integer (07 R172, R176). -/
inductive CvtTy where
  | flt (e : Elt)
  | int (n : Nat) (signed : Bool)
  deriving DecidableEq, Repr

/-- Clamp an integer to a range, with SAT when it changes (07 R172). -/
def clampInt (n : Nat) (signed : Bool) (v : Int) : Int × BitVec 6 :=
  let lo : Int := if signed then -(2 ^ (n - 1) : Nat) else 0
  let hi : Int := if signed then ((2 ^ (n - 1) : Nat) : Int) - 1 else ((2 ^ n : Nat) : Int) - 1
  if v < lo then (lo, flagSAT) else if hi < v then (hi, flagSAT) else (v, 0)

/-- Convert(x, from, to, rm) on encodings (07 R172). -/
def convert (x : Nat) (src dst : CvtTy) (rm : Nat) : Nat × BitVec 6 :=
  match src, dst with
  | .flt (.ieee f), .flt (.ieee g) =>
    (match f.decode x with
     | .nan s m => (Elt.ieee g).encode rm (moveNan f g s m, snanFlags f [.nan s m])
     | v => (Elt.ieee g).encode rm (v, 0))
  | .flt (.ieee f), .flt (.taper n) =>
    let v := f.decode x
    (Elt.taper n).encode rm (v, snanFlags f [v])
  | .flt (.taper n), .flt (.ieee g) =>
    (match taperDecode n x with
     | .nan _ _ => (g.defNan, 0)
     | v => (Elt.ieee g).encode rm (v, 0))
  | .flt (.taper n), .flt (.taper k) =>
    if n = 6 ∧ k = 8 then (x % 64 * 4, 0) else (Elt.taper k).encode rm (taperDecode n x, 0)
  | .flt e, .int n sg => let (v, fl) := floatToInt (e.decode x) n sg rm; (ofSigned n v, fl)
  | .int n sg, .flt e => e.encode rm (FVal.ofInt (if sg then toSigned n x else (x % 2 ^ n : Nat)), 0)
  | .int n sg, .int k sk =>
    let (v, fl) := clampInt k sk (if sg then toSigned n x else (x % 2 ^ n : Nat))
    (ofSigned k v, fl)

/-! ## E5M3 scales (07 R165, R166) -/

/-- value(code) as man * 2^exp. -/
def e5m3 (c : Nat) : Nat × Int :=
  let e := c / 8 % 32
  let m := c % 8
  if e = 0 then (m, -17) else (8 + m, (e : Int) - 18)

/-- m1 * 2^e1 ≤ m2 * 2^e2. -/
def dyLe (m1 : Nat) (e1 : Int) (m2 : Nat) (e2 : Int) : Bool :=
  let e := min e1 e2
  decide (m1 * 2 ^ (e1 - e).toNat ≤ m2 * 2 ^ (e2 - e).toNat)

/-- The smallest finite code whose value times `num`/2^`sh` is at least a, else 0xFE and overflow. -/
def e5m3Least (num sh : Nat) (man : Nat) (exp : Int) : Nat × Bool :=
  match (List.range 255).find? (fun c => let (m, e) := e5m3 c; dyLe man exp (m * num) (e - sh)) with
  | some c => (c, false)
  | none => (0xFE, true)

/-- E5M3Up(a), with whether a is above 114,688. -/
def e5m3Up (man : Nat) (exp : Int) : Nat × Bool := e5m3Least 1 0 man exp

/-! ## FP32 encodings -/

/-- FP32 operations on encodings, rounded once under rm. -/
def f32 (rm : Nat) (r : FRes) : Nat × BitVec 6 := (Elt.ieee fmt32).encode rm r

/-- FP32 decoding. -/
def d32 (c : Nat) : FVal := fmt32.decode c

/-- FP32 addition under nearest-even. -/
def f32Add (a b : Nat) : Nat × BitVec 6 := f32 0 (fAdd fmt32 0 (d32 a) (d32 b))

/-- FP32 multiplication under nearest-even. -/
def f32Mul (a b : Nat) : Nat × BitVec 6 := f32 0 (fMul fmt32 (d32 a) (d32 b))

/-- One level of the pairing of 08 R201. -/
def pairStep (op : Nat → Nat → Nat × BitVec 6) : List Nat → List Nat × BitVec 6
  | a :: b :: r =>
    let (c, f) := op a b
    let (l, g) := pairStep op r
    (c :: l, f ||| g)
  | l => (l, 0)

/-- The pairwise reduction of 08 R201 over encodings, `fuel` levels at most; `none` for no operands. -/
def pairFold (op : Nat → Nat → Nat × BitVec 6) (l : List Nat) (fl : BitVec 6) : Nat → Option Nat × BitVec 6
  | 0 => (l.head?, fl)
  | n + 1 =>
    match l with
    | [] => (none, fl)
    | [a] => (some a, fl)
    | _ => let (m, g) := pairStep op l; pairFold op m (fl ||| g) n

/-- PairSum in FP32 (08 R201): +0 for no operands; a signalling NaN sets NV and a NaN result is quiet. -/
def pairSum (l : List Nat) : Nat × BitVec 6 :=
  let (r, fl) := pairFold f32Add l (snanFlags fmt32 (l.map d32)) l.length
  match r with
  | none => (0, fl)
  | some c => (f32 0 ((d32 c).hush fmt32, fl))

/-- The greatest or least of FP32 operands (08 R201). -/
def pairMinMax (isMax : Bool) (l : List Nat) : Nat × BitVec 6 :=
  let fl := snanFlags fmt32 (l.map d32)
  match pickNan fmt32 (l.map d32) with
  | some v => f32 0 (v, fl)
  | none =>
    match (pairFold (fun a b => f32 0 (fMinMax fmt32 isMax (d32 a) (d32 b))) l 0 l.length).1 with
    | none => (fmt32.defNan, fl)
    | some c => (c, fl)

/-! ## Functions by series (assumption 11): fixed point with `Config.seriesBits` fractional bits -/

/-- One in fixed point. -/
def fxOne : Nat := 2 ^ Config.seriesBits

/-- Sum of y^(2k+1)/(2k+1), with alternating signs when `alt`, from the term `t` = y^(2k+1). -/
def oddSeries (alt : Bool) (y2 : Nat) (t k : Nat) : Nat → Int
  | 0 => 0
  | n + 1 =>
    let term : Int := (t / (2 * k + 1) : Nat)
    (if alt && k % 2 = 1 then -term else term) + oddSeries alt y2 (t * y2 / fxOne) (k + 1) n

/-- atanh(y) for y below 1/2 in fixed point. -/
def fxAtanh (y : Nat) : Nat := (oddSeries false (y * y / fxOne) y 0 Config.seriesTerms).toNat

/-- atan(y) for y below 1/2 in fixed point. -/
def fxAtanSmall (y : Nat) : Nat := (oddSeries true (y * y / fxOne) y 0 Config.seriesTerms).toNat

/-- ln 2. -/
def fxLn2 : Nat := 2 * fxAtanh (fxOne / 3)

/-- pi, by Machin's formula. -/
def fxPi : Nat := 16 * fxAtanSmall (fxOne / 5) - 4 * fxAtanSmall (fxOne / 239)

/-- e^x for 0 ≤ x < 1 in fixed point, from the term `t` = x^k/k!. -/
def expSeries (x t k : Nat) : Nat → Nat
  | 0 => 0
  | n + 1 => t + expSeries x (t * x / fxOne / (k + 1)) (k + 1) n

/-- Square root in fixed point. -/
def fxSqrt (x : Nat) : Nat := isqrt (x * fxOne) 0 (Nat.log2 (x * fxOne) / 2 + 1)

/-- Halve an angle: tan(a/2) from tan a. -/
def fxHalf (y : Nat) : Nat := y * fxOne / (fxOne + fxSqrt (fxOne + y * y / fxOne))

/-- atan(y) for 0 ≤ y ≤ 1 in fixed point. -/
def fxAtan (y : Nat) : Nat := 4 * fxAtanSmall (fxHalf (fxHalf y))

/-- 2^x of a finite non-zero x: exact for integers, else irrational (08 R192). -/
def exp2Val (neg : Bool) (man : Nat) (exp : Int) : FVal :=
  if 20 ≤ exp + Nat.log2 man then .num false 1 (if neg then -1048576 else 1048576)
  else if exp + Nat.log2 man < -200 then
    (if neg then .num false (2 ^ 70 - 1) (-70) else .num false (2 ^ 70 + 1) (-70))
  else
    -- x * 2^256 as an integer
    let v : Int := scaled neg man (exp + Config.seriesBits).toNat
    let whole := v / (fxOne : Int)
    let frac := (v % (fxOne : Int)).toNat
    if frac = 0 then .num false 1 whole
    else
      .num false (2 * expSeries (frac * fxLn2 / fxOne) fxOne 0 Config.seriesTerms + 1)
        (whole - Config.seriesBits - 1)

/-- log2 of a positive finite number: exact for powers of two, else irrational (08 R192). -/
def log2Val (man : Nat) (exp : Int) : FVal :=
  let l := Nat.log2 man
  let e := exp + l
  if man = 2 ^ l then (if e = 0 then .num false 0 0 else FVal.ofInt e)
  else
    let y := (man - 2 ^ l) * fxOne / (man + 2 ^ l)
    let v : Int := e * (fxOne : Int) + ((2 * fxAtanh y * fxOne / fxLn2 : Nat) : Int)
    .num (decide (v < 0)) (2 * v.natAbs + 1) (-(Config.seriesBits : Int) - 1)

/-- The reciprocal square root of a positive number, with a last bit for inexactness. -/
def rsqrtNum (m : Nat) (e : Int) : Nat × Int :=
  let odd := (e % 2).toNat
  let m1 := m * 2 ^ odd
  let sh := 2 * (Nat.log2 m1 / 2 + 70)
  let n := 2 ^ sh / m1
  let r := isqrt n 0 (Nat.log2 n / 2 + 1)
  (2 * r + (if r * r * m1 = 2 ^ sh then 0 else 1), -((e - odd) / 2) - (sh / 2 : Nat) - 1)

/-- The approximations vrcp, vrsqrt, vexp2, vlog2 (08 R192): 0, 1, 2, 3. -/
def fApprox (f : Fmt) (op : Nat) (a : FVal) : FRes :=
  withNan f [a]
    (match op, a with
     | 0, .inf s => (.num s 0 0, 0)
     | 0, .num s m e =>
       if m = 0 then (.inf s, flagDZ) else let (q, x) := divNum 1 0 m e; (.num s q x, 0)
     | 1, .inf s => if s then (f.nanVal, flagNV) else (.num false 0 0, 0)
     | 1, .num s m e =>
       if m = 0 then (.inf s, flagDZ)
       else if s then (f.nanVal, flagNV)
       else let (q, x) := rsqrtNum m e; (.num false q x, 0)
     | 2, .inf s => if s then (.num false 0 0, 0) else (.inf false, 0)
     | 2, .num s m e => if m = 0 then (.num false 1 0, 0) else (exp2Val s m e, 0)
     | _, .inf s => if s then (f.nanVal, flagNV) else (.inf false, 0)
     | _, .num s m e =>
       if m = 0 then (.inf true, flagDZ)
       else if s then (f.nanVal, flagNV)
       else (log2Val m e, 0)
     | _, a => (a, 0))

/-- va * 2^k (08 R193): infinities, zeros and NaNs pass, a signalling NaN made quiet with NV. -/
def fScale (f : Fmt) (a : FVal) (k : Int) : FRes :=
  match a with
  | .nan n m => (FVal.hush f (.nan n m), snanFlags f [.nan n m])
  | .inf s => (.inf s, 0)
  | .num s m e => (.num s m (if m = 0 then 0 else e + k), 0)

/-! ## Random numbers (08 R203) -/

/-- One step of Vrng64. -/
def vrngStep (x : Word) : Word :=
  let a := x ^^^ (x >>> 31)
  let b := a * 0xE29D05B37A4CF861
  let c := b ^^^ (b >>> 27)
  c * 0xA7C13E5B96D824F7

/-- Vrng64(key, n). -/
def vrng64 (key n : Word) : Word :=
  let x := (n * 0x8F3A61C5D2B74E19 + key) ^^^ 0x6B43A9B5C1D2E3F7
  let y := vrngStep (vrngStep (vrngStep x))
  y ^^^ (y >>> 33)

end Sys2Proof.Machine
end

