-- ==== Sys2Proof/Machine/Scratch.lean ====
section
/-!
DEFINITION. Scratchpad: the address map (04 R81), banks and halves with their status and owner words (04 R82 to R84, R87,
R88), full/empty and written bits (04 R89), and the checks of an access in the order of 04 R109.
-/

namespace Sys2Proof.Machine

/-- Where a scratchpad address leads (04 R81). -/
inductive SpLoc where
  | sram (tile bank off : Nat)
  | half (tile half : Nat) (scales : Bool) (off : Nat)
  | ctl (tile n : Nat)
  deriving DecidableEq, Repr

/-- Decode a scratchpad address; none raises SPRANGE (04 R81). -/
def spLoc (a : Word) : Option SpLoc :=
  let tile := fld a 27 24
  if fld a 63 30 ≠ 0 then none
  else
    match fld a 29 28 with
    | 0 => some (.sram tile (fld a 23 20) (fld a 19 0))
    | 1 =>
      if bitOf a 21 then none
      else if bitOf a 20 then
        (if fld a 23 22 < 2 && fld a 19 0 < 0x4000 then some (.half tile (fld a 23 22) true (fld a 19 0)) else none)
      else some (.half tile (fld a 23 22) false (fld a 19 0))
    | 2 =>
      let n := fld a 23 3
      if n ≤ 1028 || (1040 ≤ n && n ≤ 1055) then some (.ctl tile n) else none
    | _ => none

/-- The tile that an address of the map names. -/
def SpLoc.tile : SpLoc → Nat
  | .sram t _ _ => t
  | .half t _ _ _ => t
  | .ctl t _ => t

/-- A bank of a tile. -/
def Tile.bank (t : Tile) (b : Nat) : Bank := t.banks[b]?.getD Bank.reset

/-- Change a bank. -/
def Tile.modBank (t : Tile) (b : Nat) (f : Bank → Bank) : Tile :=
  { t with banks := t.banks.setIfInBounds b (f (t.bank b)) }

/-- Change a bank of a tile of the device. -/
def State.modBank (s : State) (t b : Nat) (f : Bank → Bank) : State := s.modTile t (fun k => k.modBank b f)

/-- Owner code of a slab (04 R87). -/
def Tile.ownerOf (t : Tile) (slab : Nat) : BitVec 3 := (alGet t.owners slab).getD 0

/-- Set the owner code of a slab. -/
def Tile.setOwner (t : Tile) (slab : Nat) (c : BitVec 3) : Tile :=
  { t with owners := if c = 0 then alDel t.owners slab else alSet t.owners slab c }

/-- Owner code of a pass-buffer half (04 R87). -/
def Tile.halfOwner (t : Tile) (h : Nat) : BitVec 3 := t.halves[h]?.getD 0

/-- Set the owner code of a half. -/
def Tile.setHalf (t : Tile) (h : Nat) (c : BitVec 3) : Tile := { t with halves := t.halves.setIfInBounds h c }

/-- The slab of a bank address (04 R81). -/
def slabOf (bank off : Nat) : Nat := 64 * bank + off / 16384

/-- The owner code of a slab or half. -/
def State.ownerGet (s : State) : Owned → BitVec 3
  | .slab t n => (s.tile t).ownerOf n
  | .half t h => (s.tile t).halfOwner h

/-- Set it. -/
def State.ownerPut (s : State) (o : Owned) (c : BitVec 3) : State :=
  match o with
  | .slab t n => s.modTile t (fun k => k.setOwner n c)
  | .half t h => s.modTile t (fun k => k.setHalf h c)

/-- BUSY of the pass-buffer status word (04 R84). -/
def Tile.busy (t : Tile) : Nat :=
  b2n (t.halfOwner 0 ≠ 0) + 2 * b2n (t.halfOwner 1 ≠ 0) + 4 * b2n (t.halfOwner 2 ≠ 0) + 8 * b2n (t.halfOwner 3 ≠ 0)

/-- Status word of a bank (04 R83). -/
def Bank.statusWord (b : Bank) : Word :=
  packFields [(b.pid.toNat, 38), (b.mode.toNat, 36), (b2n b.sw, 35), (b.fifo.length, 17), (b.head.toNat, 0)]

/-- A control word (04 R83, R84, R88). -/
def Tile.ctlWord (t : Tile) (n : Nat) : Word :=
  if n < 1024 then (t.ownerOf n).setWidth 64
  else if n < 1028 then (t.halfOwner (n - 1024)).setWidth 64
  else if n = 1028 then packFields [(t.pbPid.toNat, 38), (t.busy, 0)]
  else (t.bank (n - 1040)).statusWord

/-- An executive store to a status word: the PID field, which the pass-buffer word keeps while BUSY (04 R83, R84). -/
def Tile.ctlPut (t : Tile) (n : Nat) (v : Word) : Tile :=
  if n = 1028 then (if t.busy = 0 then { t with pbPid := BitVec.ofNat 12 (fld v 49 38) } else t)
  else if 1040 ≤ n then t.modBank (n - 1040) (fun b => { b with pid := BitVec.ofNat 12 (fld v 49 38) })
  else t

/-- The word of a scratchpad address is EMPTY (04 R89). -/
def Tile.isEmptyWord (t : Tile) (a : Nat) : Bool := t.empties.contains a
/-- Make a word EMPTY. -/
def Tile.setEmptyWord (t : Tile) (a : Nat) : Tile := { t with empties := setInsert t.empties a }
/-- Make a word FULL. -/
def Tile.setFullWord (t : Tile) (a : Nat) : Tile := { t with empties := t.empties.filter (fun n => n ≠ a) }

/-- Mark written the words that bytes at a scratchpad address touch (04 R89). -/
def Tile.markWritten (t : Tile) (a n : Nat) : Tile :=
  { t with written := (List.range ((a % 8 + n + 7) / 8)).foldl (fun l k => setInsert l (a / 8 * 8 + 8 * k)) t.written }

/-- Bytes of a bank or half. -/
def State.spRead (s : State) (a n : Nat) : List Byte := memBytes s.mem (spBase a) n

/-- Write bytes of a bank or half; a bank's words become written (04 R89). -/
def State.spWrite (s : State) (a : Nat) (bs : List Byte) : State :=
  let s1 : State := { s with mem := memPut s.mem (spBase a) bs }
  if a < 2 ^ 28 then s1.modTile (a / 2 ^ 24) (fun t => t.markWritten a bs.length) else s1

/-- The forms of a scratchpad access that its checks distinguish. -/
inductive SpForm where
  | scalar (size : Nat)
  | vector (mask0 : Bool)
  | element (size : Nat)
  | fullEmpty
  deriving DecidableEq, Repr

/-- What a scratchpad access does. -/
structure SpReq where
  addr  : Word
  write : Bool
  form  : SpForm
  pid   : BitVec 12
  exec  : Bool
  deriving DecidableEq, Repr

/-- The alignment an access needs. -/
def SpForm.align : SpForm → Nat
  | .scalar n => n
  | .vector _ => 256
  | .element n => n
  | .fullEmpty => 8

/-- The access is to a FIFO bank. -/
def State.isFifo (s : State) (l : SpLoc) : Bool :=
  match l with
  | .sram t b _ => decide (((s.tile t).bank b).mode = 2)
  | _ => false

/-- Strands whose access a bank holds arrived before this strand's, and still wait (04 R85). -/
def State.heldBefore (s : State) (t b sid : Nat) : Bool :=
  (((s.tile t).bank b).held.takeWhile (fun k => k ≠ sid)).any (fun k =>
    match s.strandOf k with
    | some x => decide (x.park = some (.bankHeld (16 * t + b)))
    | none => false)

/-- The bank of an address is switching, or holds accesses that arrived before this strand's, so the access is held
(04 R85). -/
def State.bankBusy (s : State) (sid : Nat) (a : Word) : Option (Nat × Nat) :=
  match spLoc a with
  | some (.sram t b _) => if ((s.tile t).bank b).sw || s.heldBefore t b sid then some (t, b) else none
  | _ => none

/-- A strand's access to the bank of an address is held no longer (04 R85). -/
def State.bankPass (s : State) (sid : Nat) (a : Word) : State :=
  match spLoc a with
  | some (.sram t b _) =>
    if ((s.tile t).bank b).held.contains sid then
      s.modBank t b (fun k => { k with held := k.held.filter (fun n => n ≠ sid) })
    else s
  | _ => s

/-- The checks of a scratchpad access, causes 2, 3, 5 to 8 of 04 R109; of a full/empty form, 06 R155. -/
def State.spCheck (s : State) (r : SpReq) : Except Cause SpLoc :=
  match spLoc r.addr with
  | none => .error .sprange
  | some l =>
    if r.addr.toNat % r.form.align ≠ 0 then .error .maln
    else
      match l with
      | .ctl t n =>
        (match r.form with
         | .fullEmpty => .error .spmode
         | .scalar 8 => if r.write && !(r.exec && decide (1028 ≤ n)) then .error .spro else .ok (.ctl t n)
         | _ => .error .spro)
      | .half t h sc off =>
        if r.form = .fullEmpty then .error .spmode
        else if !r.exec && decide ((s.tile t).pbPid ≠ r.pid) then .error .sppid
        else if (s.tile t).halfOwner h ≠ 0 then .error .owner
        else .ok (.half t h sc off)
      | .sram t b off =>
        let k := (s.tile t).bank b
        let modeFault : Option Cause :=
          if k.mode = 1 then none
          else if k.mode = 2 then
            (match r.form with
             | .scalar n => if n = 8 then none else some .fifosz
             | .vector m => if m then none else some .fifosz
             | _ => some .spmode)
          else some .spmode
        match modeFault with
        | some c => .error c
        | none =>
          if !r.exec && decide (k.pid ≠ r.pid) then .error .sppid
          else if k.mode = 1 && decide ((s.tile t).ownerOf (slabOf b off) ≠ 0) then .error .owner
          else .ok (.sram t b off)

/-- A read of scratchpad words that UNWR traps: the first never-written word of a bank (15 R403). -/
def State.unwrittenIn (s : State) (a n : Nat) : Option Nat :=
  if a < 2 ^ 28 then
    ((List.range ((a % 8 + n + 7) / 8)).map (fun k => a / 8 * 8 + 8 * k)).find?
      (fun w => !(s.tile (a / 2 ^ 24)).written.contains w)
  else none

/-- The slab or half that holds an address, for `give` and `ownw`: none raises SPMODE (06 R152, R153). -/
def State.ownedAt (s : State) (l : SpLoc) : Option Owned :=
  match l with
  | .sram t b off => if ((s.tile t).bank b).mode = 1 then some (.slab t (slabOf b off)) else none
  | .half t h _ _ => some (.half t h)
  | .ctl _ _ => none

/-- The PID to which the bank of a slab, or the halves of a tile, are assigned (04 R83, R84). -/
def State.ownedPid (s : State) : Owned → BitVec 12
  | .slab t n => ((s.tile t).bank (n / 64)).pid
  | .half t _ => (s.tile t).pbPid

/-- The wait list that serves a slab or half: its bank, or none for the halves' list (06 R148). -/
def Owned.waitBank : Owned → Nat × Option Nat
  | .slab t n => (t, some (n / 64))
  | .half t _ => (t, none)

/-- The slabs and halves that an extent of scratchpad touches, in address order. -/
def ownedIn (a n : Nat) : List Owned :=
  if n = 0 then []
  else
    (List.range ((a + n - 1) / 16384 - a / 16384 + 1)).filterMap (fun k =>
      match spLoc (BitVec.ofNat 64 (a / 16384 * 16384 + 16384 * k)) with
      | some (.sram t b off) => some (.slab t (slabOf b off))
      | some (.half t h _ _) => some (.half t h)
      | _ => none)

/-- A wait list of a tile: a bank's, or the halves' (06 R148). -/
def Tile.waitsAt (t : Tile) : Option Nat → List WaitEntry
  | some b => (t.bank b).waits
  | none => t.pbWaits

/-- Move the oldest chained entries into a list that has `room` places (06 R148). -/
def unchain : Nat → List WaitEntry → List WaitEntry
  | _, [] => []
  | room, e :: r =>
    if e.chained then
      (match room with
       | 0 => e :: unchain 0 r
       | k + 1 => { e with chained := false } :: unchain k r)
    else e :: unchain room r

/-- Replace a wait list; the oldest entry of the chain moves into the list while it has room for 64 (06 R148). -/
def Tile.putWaits (t : Tile) (b : Option Nat) (l : List WaitEntry) : Tile :=
  let l1 := unchain (64 - (l.filter (fun e => !e.chained)).length) l
  match b with
  | some k => t.modBank k (fun x => { x with waits := l1 })
  | none => { t with pbWaits := l1 }

/-- Remove every wait entry of a strand, and every access of its that is held, from every bank of the device (04 R85;
12 R304; 13 R327). -/
def State.dropWaits (s : State) (sid : Nat) : State :=
  { s with tiles := s.tiles.map (fun e =>
      let t1 := (List.range 16).foldl
        (fun t b => (t.putWaits (some b) ((t.waitsAt (some b)).filter (fun w => w.strand ≠ sid))).modBank b
          (fun k => { k with held := k.held.filter (fun n => n ≠ sid) })) e.2
      (e.1, t1.putWaits none (t1.pbWaits.filter (fun w => w.strand ≠ sid)))) }

end Sys2Proof.Machine
end

