-- ==== Sys2Proof/Machine/Ops.lean ====
section
/-!
DEFINITION. The named operations that meanings share: completion of an instruction with the loop-end step (03 R74),
performing deferred accesses (05 R116, R123), taking an exception (15 R381) and returning from one (15 R385), control
transfers (03 R72, R75), the checks every instruction begins with (02 R36), frames (12 R284, R285), leaving a slot
(05 R123), and waking a strand that waits (06 R148).
-/

namespace Sys2Proof.Machine

/-! ## Completion -/

/-- STEP is due at the slot's boundary, before anything else (15 R384). -/
def Slot.stepDue (x : Slot) : Bool := x.bound.step && x.park.isNone

/-- Issue opportunities that a stall hint skips (02 R30). -/
def skipsOf (h : BitVec 2) : Nat :=
  match h.toNat with
  | 0 => 0
  | 1 => 1
  | 2 => 3
  | _ => 7

/-- lcN; a counter number 3, which only an executive write can make, names none and reads 0. -/
def lcGet (lc : Vector Word 3) (n : BitVec 2) : Word := lc[n.toNat]?.getD 0

/-- Write lcN. -/
def lcSet (lc : Vector Word 3) (n : BitVec 2) (v : Word) : Vector Word 3 := lc.setIfInBounds n.toNat v

/-- The loop-end step of 03 R74 for the final word `fin`: counters, loop stack and next PC. -/
def loopEnd (lc : Vector Word 3) (fin next : Word) : List LoopEntry → Vector Word 3 × List LoopEntry × Word
  | [] => (lc, [], next)
  | e :: r =>
    if e.fin = fin then
      let v := lcGet lc e.n - 1
      if v ≠ 0 then (lcSet lc e.n v, e :: r, e.start) else loopEnd (lcSet lc e.n v) fin next r
    else (lc, e :: r, next)

/-- Complete the instruction of `len` bytes at the PC with stall hint `h`: the PC advances with the loop-end step, which
does nothing while TRAP = 1 (03 R74; 15 R381). -/
def Slot.finish (x : Slot) (len : Nat) (h : BitVec 2) : Slot :=
  let next := x.pc + BitVec.ofNat 64 len
  let fin := x.pc + BitVec.ofNat 64 (len - 4)
  let r := if x.status.trap then (x.lc, x.loops, next) else loopEnd x.lc fin next x.loops
  { x with
    pc := r.2.2
    lc := r.1
    loops := r.2.1
    skips := skipsOf h
    landed := false
    sbHint := false
    park := none
    bound := { x.bound with step := x.status.step } }

/-- The executing strand changes by `f` and its instruction completes. -/
def State.done (s : State) (h : BitVec 2) (f : Slot → Slot) : Result := .next (s.modHart (fun x => (f x).finish 4 h))

/-- The executing instruction writes a g register and completes. -/
def State.doneG (s : State) (h : BitVec 2) (d : BitVec 5) (v : Word) : Result := s.done h (fun x => x.setG d v)

/-- The executing strand parks at its instruction (12 R301). -/
def State.parkAt (s : State) (h : BitVec 2) (p : Park) : State :=
  s.modHart (fun x => { x with park := some p, parkSh := h, since := s.ticks })

/-! ## Fatal contexts (15 R389) -/

/-- Source field of a slot: [11:8] tile, [7:4] core in the tile, [3:0] slot; service cores as the engine value
(15 R391, R405). -/
def slotSource (n : Nat) : BitVec 16 :=
  if n / 16 < 256 then BitVec.ofNat 16 (256 * tileOf (n / 16) + 16 * coreIdx (n / 16) + n % 16) else 0xFFFF

/-- The context of a PID is fatal and frozen, from the fatal event until its release (15 R390). -/
def State.isFrozen (s : State) (pid : BitVec 12) : Bool := !(s.job pid).causes.isEmpty

/-- Append a cause to the chain of a context, which makes it fatal and queues its dump (15 R389, R392). -/
def State.chainCause (s : State) (pid : BitVec 12) (e : CauseEntry) : State :=
  let s1 : State := { s with dumpQ := if s.dumpQ.contains pid then s.dumpQ else s.dumpQ ++ [pid] }
  s1.modJob pid (fun j => { j with causes := j.causes ++ [e] })

/-- The sketchbook record 0x10 of a fatal cause: its code and XVAL (15 R389, R405). -/
def State.fatalRecord (s : State) (pid : BitVec 12) (src : BitVec 16) (a0 a1 : Word) : State :=
  s.sketchAdd { time := s.timeNs, code := 0x10, kind := if src = 0xFFFF then 1 else 0, src := src, pid := pid, a0 := a0, a1 := a1 }

/-- A fatal event: its cause joins the chain and is recorded in the sketchbook (15 R389, R392, R405). -/
def State.fatalCause (s : State) (pid : BitVec 12) (e : CauseEntry) : State :=
  (s.chainCause pid e).fatalRecord pid e.src (e.cause.setWidth 64) e.xval

/-- The cause entry of the strand in a slot. -/
def State.slotCause (s : State) (n : Nat) (cause : BitVec 16) (xval : Word) (flags : BitVec 32) : CauseEntry :=
  { cause := cause, src := slotSource n, flags := flags, xpc := (s.slotAt n).pc, xval := xval, time := s.timeNs }

/-- A fatal event of the strand in a slot. -/
def State.fatalSlot (s : State) (n : Nat) (cause : BitVec 16) (xval : Word) (flags : BitVec 32) : State :=
  s.fatalCause (s.slotAt n).pid (s.slotCause n cause xval flags)

/-- A fault inside a trap handler: the context is fatal with XNEST; the chain holds the trap being handled and then the new
cause, and one record gives XNEST with both codes (15 R381, R389, R405). -/
def State.fatalNested (s : State) (n : Nat) (code : BitVec 16) (xval : Word) : State :=
  let x := s.slotAt n
  let first : BitVec 16 := x.xcause.setWidth 16
  ((s.chainCause x.pid { s.slotCause n first x.xval 0 with xpc := x.xpc }).chainCause x.pid (s.slotCause n code xval 0)).fatalRecord x.pid
    (slotSource n) (packFields [(code.toNat, 32), (first.toNat, 16), (Cause.xnest.code.toNat, 0)]) xval

/-- The address that a flat number of the model stands for in its own space (15 R389). -/
def flatAddr (a : Nat) : Word :=
  BitVec.ofNat 64 (if 2 ^ 53 ≤ a then a - 2 ^ 53 else if 2 ^ 52 ≤ a then (a - 2 ^ 52) % 2 ^ 18 else a)

/-- A party of a PID consumes `n` bytes at a flat address: uncorrectable data there make its context fatal with SOFTERR,
once (15 R389). The source is a slot's, or 0xFFFF for an engine; the PC is the slot's. -/
def State.consume (s : State) (slot : Option Nat) (pid : BitVec 12) (a n : Nat) : State :=
  match s.poison.find? (fun e => e.1 = pid && decide (a ≤ e.2) && decide (e.2 < a + n)) with
  | none => s
  | some e =>
    let s1 : State := { s with poison := s.poison.erase e }
    let (src, pc) := match slot with | some k => (slotSource k, (s.slotAt k).pc) | none => ((0xFFFF : BitVec 16), (0 : Word))
    s1.fatalCause pid
      { cause := Cause.softerr.code, src := src, flags := 0, xpc := pc, xval := flatAddr e.2, time := s.timeNs }

/-- The executing strand consumes `n` bytes at a flat address. -/
def State.consumeHart (s : State) (a n : Nat) : State := s.consume (some s.hid) s.hart.pid a n

/-- The first register with uncorrectable data that a test selects is consumed: the context is fatal with SOFTERR (15 R389). -/
def State.consumeRegs (s : State) (n : Nat) (sel : RegName → Bool) : State :=
  match (s.slotAt n).badRegs.find? (fun e => sel e.1) with
  | none => s
  | some e =>
    (s.modSlot n (fun x => { x with badRegs := x.badRegs.filter (fun k => !sel k.1) })).fatalSlot n Cause.softerr.code e.2 0

/-! ## Accesses made by the device itself -/

/-- `n` free bytes (assumption 4). -/
def freeBytes (ctr : Nat) : Nat → List Byte
  | 0 => []
  | n + 1 => (Config.freeWord ctr).setWidth 8 :: freeBytes (ctr + 1) n

/-- Read a physical address along a path; a remote address, which only a request of its own reads, gives free bytes. -/
def State.paRead (s : State) (p : Path) (pa n : Nat) : List Byte × State :=
  match s.region pa with
  | .hbm => s.readPath p pa n (n + 1)
  | .host => (memBytes s.mem pa n, s)
  | .devreg off => (if n = 8 then natLe 8 (s.regRead off).toNat else List.replicate n 0, s)
  | _ => (freeBytes s.freeCtr n, { s with freeCtr := s.freeCtr + n })

/-- Write a physical address along a path, for a strand. -/
def State.paWrite (s : State) (p : Path) (strand : Nat) (va : Word) (pa : Nat) (bs : List Byte) : State :=
  match s.region pa with
  | .hbm => s.writePath p pa bs (bs.length + 1)
  | _ => s.homeStore strand p.pid va pa bs

/-- The path of a strand's access through a translation: the tile cache serves cacheable pages of HBM4 (04 R90). -/
def State.pathOf (s : State) (core : Nat) (pid : BitVec 12) (cached : Bool) (hint : BitVec 2) : Path :=
  { tile := if cached && !isService core && (s.tile (tileOf core)).hasCache then some (tileOf core) else none,
    pid := pid, hint := hint }

/-- Read `n` bytes within one page at their home copies, for a PID. -/
def State.vaGet (s : State) (q : Nat) (pid : BitVec 12) (exec : Bool) (va : Word) (n : Nat) :
    Except Cause (List Byte) × State :=
  match s.translate q pid exec va .read with
  | (.error c, s1) => (.error c, s1)
  | (.ok x, s1) =>
    let (bs, s2) := (s1.consume none pid x.pa n).paRead { tile := none, pid := pid, hint := x.hint } x.pa n
    (.ok bs, s2)

/-- Write bytes within one page at their home copies, for a PID. -/
def State.vaPut (s : State) (q : Nat) (pid : BitVec 12) (exec : Bool) (va : Word) (bs : List Byte) :
    Except Cause State :=
  match s.translate q pid exec va .write with
  | (.error c, _) => .error c
  | (.ok x, s1) => .ok (s1.paWrite { tile := none, pid := pid, hint := x.hint } noStrand va x.pa bs)

/-- A doubleword of a block at its home copy, through the stations of a quadrant (01 R11; 12 R286): none where it cannot
be read. -/
def State.vaWordAt (s : State) (q : Nat) (pid : BitVec 12) (va : Word) : Option Word :=
  match (s.vaGet q pid true va 8).1 with
  | .ok bs => some (BitVec.ofNat 64 (leNat bs))
  | .error _ => none

/-- The same for an access that no core makes: through the stations of quadrant 0 (assumption 84). -/
def State.vaWord (s : State) (pid : BitVec 12) (va : Word) : Option Word := s.vaWordAt 0 pid va

/-- Write a doubleword of a block at its home copy; nothing where it cannot be written. -/
def State.vaSetWordAt (s : State) (q : Nat) (pid : BitVec 12) (va : Word) (v : Word) : State :=
  match s.vaPut q pid true va (natLe 8 v.toNat) with
  | .ok s1 => s1
  | .error _ => s

/-- The same for an access that no core makes (assumption 84). -/
def State.vaSetWord (s : State) (pid : BitVec 12) (va : Word) (v : Word) : State := s.vaSetWordAt 0 pid va v

/-- Another device that holds a block of a PID, and the offset there (14 R349, R355). -/
def State.farBlock (s : State) (q : Nat) (pid : BitVec 12) (va : Word) : Option (Nat × Nat) :=
  match (s.translate q pid true va .write).1 with
  | .ok x => (match s.region x.pa with | .remote dev off => some (dev, off) | _ => none)
  | .error _ => none

/-- The device adds to a doubleword of a block that another device holds, as `red` (14 R355). -/
def State.farAdd (s : State) (dev off : Nat) (va : Word) (op : BitVec 4) (dbl : Bool) (v : Word) : State :=
  if s.reach dev then
    s.remoteSend { storeRequest noStrand dev off va (natLe 8 v.toNat ++ natLe 8 0) true with
      kind := .amo op dbl true, len := if dbl then 8 else 4 }
  else s

/-! ## What the device itself asks of another one (14 R349, R350) -/

/-- One element that takes the whole reply. -/
def wholeReply (len idx : Nat) : List PendElem := [{ addr := 0, len := len, idx := idx, data := 0 }]

/-- The request of the device itself for bytes of another one. -/
def State.engineAnswer (s : State) (id dev off n : Nat) : Option RemoteOut :=
  s.remote.find? (fun r => decide (r.strand = id) && decide (r.dev.toNat = dev) && decide (r.offset = off) && decide (r.len = n))

/-- The cause of a failed access to another device (14 R350, R351). -/
def farWhy : MigFail → Cause
  | .refused => .tnomem
  | .timedOut => .rtimeo
  | .unreachable => .runreach

/-- Bytes of another device that an engine has been answered: none where the request failed. -/
def State.engineGot (s : State) (id dev off n : Nat) : Option (List Byte) :=
  match s.engineAnswer id dev off n with
  | some r => if r.fault.isNone then r.reply else none
  | none => none

/-- An engine awaits answers of other devices. -/
def State.engineAwaits (s : State) (id : Nat) : Bool := s.remote.any (fun r => decide (r.strand = id) && r.reply.isNone)

/-- The answered requests of an engine are forgotten. -/
def State.engineForget (s : State) (id : Nat) : State :=
  let gone (q : RemoteOut) : Bool := decide (q.strand = id) && q.reply.isSome
  if s.remote.any gone then s.remoteEnd gone else s

/-- The device itself asks another one for a piece of memory that it holds, through the stations of a quadrant
(14 R349). -/
def State.engineAsk (s : State) (id q : Nat) (pid : BitVec 12) (exec : Bool) (a : Word) (n : Nat) : State :=
  match s.translate q pid exec a .read with
  | (.error _, s1) => s1
  | (.ok x, s1) =>
    match s1.region x.pa with
    | .remote dev off =>
      if s1.reach dev then
        s1.remoteSend { storeRequest id dev off a [] false with kind := .load, len := n, elems := wholeReply n 0 }
      else s1
    | _ => s1

/-- Bytes within one page that the device itself reads, wherever they lie: from another device by a request of the requester
`id`, none before its answer (14 R349, R350). -/
def State.engineRead (s : State) (id q : Nat) (pid : BitVec 12) (exec : Bool) (a : Word) (n : Nat) :
    Except Cause (Option (List Byte)) × State :=
  match s.translate q pid exec a .read with
  | (.error c, s1) => (.error c, s1)
  | (.ok x, s1) =>
    match s1.region x.pa with
    | .remote dev off =>
      (match s1.engineAnswer id dev off n with
       | some r =>
         (match r.fault, r.reply with
          | some w, _ => (.error (farWhy w), s1)
          | none, some bs => (.ok (some bs), s1)
          | none, none => (.ok none, s1))
       | none => if s1.reach dev then (.ok none, s1.engineAsk id q pid exec a n) else (.error .runreach, s1))
    | _ =>
      let (bs, s2) := (s1.consume none pid x.pa n).paRead { tile := none, pid := pid, hint := x.hint } x.pa n
      (.ok (some bs), s2)

/-- The device reads `n` bytes of a block for a PID: uncorrectable data there make its context fatal (15 R389). -/
def State.probe (s : State) (q : Nat) (pid : BitVec 12) (va : Word) (n : Nat) : State := (s.vaGet q pid true va n).2

/-! ## Deferred accesses -/

/-- Atomic arithmetic at a home slice (06 R140, R141): the new value, whether it is written, and the flags. -/
def amoNew (op : Nat) (n : Nat) (old s cmp : Nat) : Nat × Bool × BitVec 6 :=
  let so := toSigned n old
  let ss := toSigned n s
  match op with
  | 0 => ((old + s) % 2 ^ n, true, 0)
  | 1 => (old &&& s, true, 0)
  | 2 => (old ||| s, true, 0)
  | 3 => (old ^^^ s, true, 0)
  | 4 => (if ss < so then s else old, true, 0)
  | 5 => (if so < ss then s else old, true, 0)
  | 6 => (if s < old then s else old, true, 0)
  | 7 => (if old < s then s else old, true, 0)
  | 8 => (s, true, 0)
  | 9 => (s, decide (old = cmp), 0)
  | _ => let (c, f) := f32Add old s; (c, true, f)

/-- Read a place that a deferred access names: a scratchpad address or a physical address. -/
def State.placeRead (s : State) (core : Nat) (pid : BitVec 12) (p : Pend) (a n : Nat) : List Byte × State :=
  if p.scratch then
    match spLoc (BitVec.ofNat 64 a) with
    | some (.ctl t k) => (natLe n ((s.tile t).ctlWord k).toNat, s)
    | _ => (s.spRead a n, s)
  else s.paRead (s.pathOf core pid p.cacheable p.hint) a n

/-- Write a place that a deferred access names. -/
def State.placeWrite (s : State) (core strand : Nat) (pid : BitVec 12) (p : Pend) (a : Nat) (bs : List Byte) : State :=
  if p.scratch then
    match spLoc (BitVec.ofNat 64 a) with
    | some (.ctl t k) => s.modTile t (fun x => x.ctlPut k (BitVec.ofNat 64 (leNat bs)))
    | _ => s.spWrite a bs
  else s.paWrite (s.pathOf core pid p.cacheable p.hint) strand (p.va.getD 0) a bs

/-- The fault that a relaxed scratchpad access meets when it is performed, and the address it reports: OWNER, or UNWR for
a load (04 R87; 15 R403). -/
def State.pendFault (s : State) (unwr : Bool) (p : Pend) (e : PendElem) : Option (Cause × Word) :=
  if !p.scratch then none
  else
    let at_ := p.va.getD (BitVec.ofNat 64 e.addr)
    match spLoc (BitVec.ofNat 64 e.addr) with
    | some (.sram t b off) =>
      if (s.tile t).ownerOf (slabOf b off) ≠ 0 then some (.owner, at_)
      else
        let load := match p.kind with | .loadG _ => true | .loadV _ _ => true | _ => false
        if load && unwr then (s.unwrittenIn e.addr e.len).map (fun w => (.unwr, BitVec.ofNat 64 w)) else none
    | some (.half t h _ _) => if (s.tile t).halfOwner h ≠ 0 then some (.owner, at_) else none
    | _ => none

/-- Perform one `red` at its home slice (06 R140): the tile's own copy of the line goes home first (05 R125). -/
def State.redAt (s : State) (tile : Option Nat) (pid : BitVec 12) (pa : Nat) (op : Nat) (dbl : Bool) (v : Word) : State :=
  let s1 := match tile with | some t => s.dropCached t (pa / 256) | none => s
  let k := if dbl then 8 else 4
  let old := leNat (s1.homeBytes pid pa k)
  s1.homePut pid pa (natLe k (amoNew op (8 * k) old (v.toNat % 2 ^ (8 * k)) 0).1)

/-- Record a late fault of a slot; the first one stays (15 R382). -/
def Slot.lateFault (x : Slot) (c : Cause) (va : Word) : Slot :=
  if x.bound.late.isSome then x
  else { x with bound := { x.bound with late := some { cause := c.code, xpc := 0, xval := va, late := true, final := false } } }

/-- Put a loaded element where it belongs. -/
def Slot.landElem (x : Slot) (k : PendKind) (idx : Nat) (bs : List Byte) : Slot :=
  match k with
  | .loadG d => x.setG d (BitVec.ofNat 64 (leNat bs))
  | .loadV phys w => x.setPhysV phys (vPut (x.getPhysV phys) (w * idx) bs)
  | _ => x

/-- Perform one element of a deferred access of slot `n`. -/
def State.performElem (s : State) (n : Nat) (p : Pend) (e : PendElem) : State :=
  let x := s.slotAt n
  match s.pendFault x.status.unwr p e with
  | some (c, va) => s.modSlot n (fun y => if c = .unwr then y.remoteLate p.kind c va else y.lateFault c va)
  | none =>
    match p.kind with
    | .store => s.placeWrite (n / 16) x.sid x.pid p e.addr (natLe e.len e.data.toNat)
    | .red op dbl =>
      (s.consume (some n) x.pid e.addr e.len).redAt (if p.cacheable && !isService (n / 16) then some (tileOf (n / 16)) else none) x.pid e.addr op.toNat dbl
        e.data
    | k =>
      let flat := if p.scratch then spBase e.addr else e.addr
      let (bs, s1) := (s.consume (some n) x.pid flat e.len).placeRead (n / 16) x.pid p e.addr e.len
      s1.modSlot n (fun y => y.landElem k e.idx bs)

/-- Perform a deferred access. -/
def State.performPend (s : State) (n : Nat) (p : Pend) : State := p.elems.foldl (fun a e => a.performElem n p e) s

/-- The access is a `red`. -/
def Pend.isRed (p : Pend) : Bool := match p.kind with | .red _ _ => true | _ => false

/-- The access returns a value. -/
def Pend.isLoad (p : Pend) : Bool :=
  match p.kind with
  | .store => false
  | .red _ _ => false
  | _ => true

/-- Two deferred accesses keep program order: they touch a byte in common (05 R116 item 1), are both operations at the home
slice of one line (06 R144), or both stores to host-order pages (05 R128). -/
def Pend.meets (p r : Pend) : Bool :=
  (p.hostOrd && r.hostOrd) ||
  (p.scratch == r.scratch && p.elems.any (fun e => r.elems.any (fun f =>
    overlaps e.addr e.len f.addr f.len || (p.isRed && r.isRed && decide (e.addr / 256 = f.addr / 256)))))

/-- Perform the deferred access at an index of a slot's list (spec/95: LOAD_RETURN, STORE_PERFORM), unless it has to follow
an earlier one (05 R116 item 1, R128; 06 R144). -/
def State.performAt (s : State) (n idx : Nat) : State :=
  match (s.slotAt n).pend[idx]? with
  | none => s
  | some p =>
    if ((s.slotAt n).pend.take idx).any (fun r => r.meets p) then s
    else (s.modSlot n (fun x => { x with pend := x.pend.eraseIdx idx })).performPend n p

/-- The deferred access at an index is performed, unless a dead elevator has returned its packet, which its core is to
issue again first (04 R93). -/
def State.packetPerform (s : State) (n idx : Nat) : State :=
  let far := match (s.slotAt n).pend[idx]? with
    | some p => !p.scratch && p.elems.any (fun x => decide (s.region x.addr = .hbm))
    | none => false
  if far && s.plat.returned.contains (n / 16) then s else s.performAt n idx

/-- Perform every deferred access of a slot, oldest first (05 R116, R123). -/
def State.performAll (s : State) (n : Nat) : State :=
  (s.slotAt n).pend.foldl (fun a p => a.performPend n p) (s.modSlot n (fun x => { x with pend := [] }))

/-- Mark, in a list of deferred accesses, oldest first, those that a test selects and those that these have to follow. -/
def needed (sel : Pend → Bool) : List Pend → List (Pend × Bool)
  | [] => []
  | p :: r => let l := needed sel r; (p, sel p || l.any (fun e => e.2 && p.meets e.1)) :: l

/-- Perform the deferred accesses of a slot that a test selects, with the earlier ones they have to follow, oldest first. -/
def State.performIf (s : State) (n : Nat) (sel : Pend → Bool) : State :=
  let l := needed sel (s.slotAt n).pend
  ((l.filter (fun e => e.2)).map (fun e => e.1)).foldl (fun a p => a.performPend n p)
    (s.modSlot n (fun x => { x with pend := (l.filter (fun e => !e.2)).map (fun e => e.1) }))

/-- Perform what a test selects, if it selects anything. -/
def State.settleIf (s : State) (n : Nat) (sel : Pend → Bool) : State :=
  if (s.slotAt n).pend.any sel then s.performIf n sel else s

/-- A deferred access touches a range. -/
def Pend.touches (p : Pend) (scratch : Bool) (a len : Nat) : Bool :=
  p.scratch == scratch && p.elems.any (fun e => overlaps a len e.addr e.len)

/-- The slot's deferred accesses that overlap a range are performed before a new access to it (05 R116 item 1). -/
def State.settleRange (s : State) (n : Nat) (scratch : Bool) (a len : Nat) : State :=
  s.settleIf n (fun p => p.touches scratch a len)

/-- The slot's own write-combining buffers that hold bytes of a range drain before it accesses the range (05 R116 item 1;
04 R104). -/
def State.settleLine (s : State) (n : Nat) (a len : Nat) : State :=
  if (s.core (n / 16)).wc.any (fun b => b.covers (s.slotAt n).sid a len) then
    s.drainWcIf (n / 16) (fun b => b.covers (s.slotAt n).sid a len)
  else s

/-! ## Ordering (05 R118) -/

/-- The tile whose cache a core's ordering instructions act on; a service core has none. -/
def cacheTile (core : Nat) : Option Nat := if isService core then none else some (tileOf core)

/-- WriteBackTile for a core. -/
def State.coreWriteBack (s : State) (core : Nat) : State :=
  match cacheTile core with | some t => s.writeBackTile t | none => s

/-- InvalidateTile for a core. -/
def State.coreInvalidate (s : State) (core : Nat) (mask : BitVec 2) : State :=
  match cacheTile core with | some t => s.invalidateTile t mask | none => s

/-- The release actions of scope `x` for slot `n` (05 R118). -/
def State.releaseActions (s : State) (n x : Nat) : State :=
  let s1 := s.performAll n
  let s2 := if 2 ≤ x then s1.coreWriteBack (n / 16) else s1
  if 5 ≤ x then s2.drainWc (n / 16) (s2.slotAt n).sid else s2

/-- The acquire actions of scope `x` for slot `n` (05 R118): earlier accesses that return a value have returned; earlier
stores are not waited for. -/
def State.acquireActions (s : State) (n x : Nat) (mask : BitVec 2) : State :=
  let s1 := s.settleIf n Pend.isLoad
  if 2 ≤ x then s1.coreInvalidate (n / 16) mask else s1

/-- The remaining actions of the slot's ordering instruction, which then holds nothing any more (05 R118). -/
def State.orderingDone (s : State) (n : Nat) : State :=
  match (s.slotAt n).ordr with
  | none => s
  | some o =>
    let s1 := if o.kind = 2 then s else s.releaseActions n o.scope.toNat
    let s2 := if o.kind = 1 then s1 else s1.acquireActions n o.scope.toNat (if o.kind = 2 then o.mask else 0)
    s2.modSlot n (fun x => { x with ordr := none })

/-- What an ordering instruction holds: every later access, or for `rel` every one that writes (05 R118). -/
def Ordering.holds (o : Ordering) (writes : Bool) : Bool := o.kind ≠ 1 || writes

/-- Before the executing slot's next access issues, an ordering instruction that holds it completes (05 R118). -/
def State.orderedBefore (s : State) (writes : Bool) : State :=
  match s.hart.ordr with
  | some o => if o.holds writes then s.orderingDone s.hid else s
  | none => s

/-- Before the executing slot's next access issues, its plain stores to host memory that have not been sent are sent (04
R100; 05 R113), and an ordering instruction that holds it completes. -/
def State.beforeAccess (s : State) (writes : Bool) : State := (s.settleIf s.hid (fun p => p.plain)).orderedBefore writes

/-- Before a store to translated places: later stores of the slot to host memory may pass the unsent ones (05 R128). -/
def State.beforeStore (s : State) (l : List Nat) : State :=
  if l.all (fun pa => decide (s.region pa = .host)) then s.orderedBefore true else s.beforeAccess true

/-! ## Traps (15 R381 to R385) -/

/-- Trap entry on the registers of a slot: XCAUSE, XPC, XVAL, XSW := STATUS, EXEC := 1, TRAP := 1, STEP := 0, and the PC
at XVEC.BASE + 64 * class; the handler's first instruction issues no earlier than 8 cycles later (15 R381). Opportunities
still to skip are dropped (02 R30; assumption 85). -/
def Slot.takeTrap (x : Slot) (xvec : Word) (cycle : Nat) (code : BitVec 16) (xpc xval : Word) (late : Bool) : Slot :=
  { x with
    xcause := (if late then 0x10000 else 0) ||| code.setWidth 17
    xpc := xpc
    xval := xval
    xsw := x.statusWord
    status := { x.status with exec := true, trap := true, step := false }
    pc := xvec + BitVec.ofNat 64 (64 * (code.toNat / 256))
    notBefore := cycle + 8
    skips := 0
    park := none
    ordr := none
    landed := false
    sbHint := false }

/-- Take a trap in a slot: every earlier access is performed, the write-combining buffers drain and an ordering
instruction still waiting completes (05 R123), then trap entry. -/
def State.takeTrap (s : State) (n : Nat) (code : BitVec 16) (xpc xval : Word) (late : Bool) : State :=
  let s1 := ((s.orderingDone n).performAll n).drainWc (n / 16) (s.slotAt n).sid
  s1.modSlot n (fun x => x.takeTrap s1.xvec (s1.core (n / 16)).cycle code xpc xval late)

/-- The strand has a remote access that is not answered. -/
def State.remoteBusy (s : State) (sid : Nat) : Bool := s.remote.any (fun r => r.strand = sid)

/-- A trap of the strand in slot `n` still waits: for the answers to its remote accesses, non-temporal stores among them, or,
under ROUTE.HOLD, for its write-combining buffers to drain (04 R92; 05 R123). -/
def State.trapWaits (s : State) (n : Nat) : Bool :=
  let sid := (s.slotAt n).sid
  s.remoteBusy sid || s.farBuffered (n / 16) sid || s.holdsBuffers (n / 16) sid

/-- The strand in slot `n` sends what its write-combining buffers hold for other devices. -/
def State.sendBuffers (s : State) (n : Nat) : State := s.drainFar (n / 16) (s.slotAt n).sid

/-- A logical process holds this fault: any in a handler, and LOGFULL at a boundary too, but for LOGFULL with VPT = LVT,
which is real at once (13 R325, R339). -/
def State.holdsFault (s : State) (x : Slot) (code : BitVec 16) : Bool :=
  x.record.opt && (x.lp.inh || decide (code = Cause.logfull.code) || decide (code = Cause.ebcflr.code)) &&
    !(decide (code = Cause.logfull.code) && decide ((s.job x.pid).vpt = x.lp.lvt))

/-- A fault of the strand in slot `n`. While TRAP = 1 it makes the context fatal, the chain holding the trap being
handled and then the new cause (15 R381). Otherwise, once the strand's earlier accesses are performed (05 R123), a logical
process holds it (13 R339) or it is taken as a trap. -/
def State.raiseFault (s : State) (n : Nat) (f : HeldFault) : State :=
  let x := s.slotAt n
  if x.status.trap then
    s.fatalNested n f.cause f.xval
  else if s.trapWaits n then
    (s.sendBuffers n).modSlot n (fun y => { y with bound := { y.bound with late := some f }, park := none })
  else if s.holdsFault x f.cause then
    s.modSlot n (fun y => { y with lp := { y.lp with held := some f }, park := some .held })
  else s.takeTrap n f.cause f.xpc f.xval f.late

/-- A fault of the present handler of the strand in slot `n`, by its parts. -/
def State.raiseAt (s : State) (n : Nat) (code : BitVec 16) (xpc xval : Word) (late : Bool) : State :=
  s.raiseFault n { cause := code, xpc := xpc, xval := xval, late := late, final := false }

/-- The executing instruction raises a fault at its own address. -/
def State.raise (s : State) (c : Cause) (xval : Word) : Result := .next (s.raiseAt s.hid c.code s.hart.pc xval false)

/-- Which control-register word `rtx` may restore: reserved bits zero, TRAP = 0, MODE and OPT as in STATUS (15 R385). -/
def Slot.xswOk (x : Slot) : Bool :=
  decide (fld x.xsw 63 13 = 0) && decide (fld x.xsw 9 5 = 0) && !bitOf x.xsw 1 &&
    decide (fld x.xsw 12 11 = x.record.mode.toNat) && (bitOf x.xsw 10 == x.record.opt)

/-- STATUS := XSW and PC := XPC (15 R385). -/
def Slot.returnFromTrap (x : Slot) (cycle : Nat) : Slot :=
  { x with
    status := { unwr := bitOf x.xsw 4, step := bitOf x.xsw 3, sbchk := bitOf x.xsw 2, trap := false,
                exec := bitOf x.xsw 0 }
    pc := x.xpc
    landed := true
    sbHint := false
    notBefore := cycle + 4 }

/-! ## Fetch and control transfers -/

/-- The quadrant of a slot. -/
def slotQuad (n : Nat) : Nat := quadOf (n / 16)

/-- The requester number under which a slot fetches from other devices. -/
def fetchId (n : Nat) : Nat := noStrand + 5000 + n

/-- The requester number under which a slot reads the last word of a loop body there. -/
def loopId (n : Nat) : Nat := noStrand + 10000 + n

/-- A word that another device holds, from the answer to a request for the doubleword around it: none before the answer, or
the fault of the request (14 R349, R350). -/
def State.farWord (s : State) (id dev off : Nat) : Except Cause (Option (BitVec 32)) :=
  match s.engineAnswer id dev (off / 8 * 8) 8 with
  | some r =>
    (match r.fault, r.reply with
     | some w, _ => .error (farWhy w)
     | none, some bs => .ok (some (BitVec.ofNat 32 (leNat ((bs.drop (off % 8)).take 4))))
     | none, none => .ok none)
  | none => if s.reach dev then .ok none else .error .runreach

/-- Fetch the word at an address for the strand in slot `n` through translation; fetches read home copies (02 R25, R26;
04 R98). The answer is none while another device that holds the word has not sent it for the requester `id`. -/
def State.fetchBy (s : State) (id n : Nat) (a : Word) : Except Cause (Option (BitVec 32)) × State :=
  let x := s.slotAt n
  match s.translate (slotQuad n) x.pid x.status.exec a .fetch with
  | (.error c, s1) => (.error c, s1)
  | (.ok t, s1) =>
    match s1.region t.pa with
    | .remote dev off => (s1.farWord id dev off, s1)
    | _ =>
      let (bs, s2) := (s1.consume (some n) x.pid t.pa 4).paRead { tile := none, pid := x.pid, hint := 0 } t.pa 4
      (.ok (some (BitVec.ofNat 32 (leNat bs))), s2)

/-- The requester number under which a slot's pick-up asks other devices. -/
def pickId (n : Nat) : Nat := noStrand + 256 + n

/-- The requester number under which a transfer reads the word below its target there. -/
def targetId (n : Nat) : Nat := noStrand + 15000 + n

/-- Fetch a word of the instruction stream of slot `n`. -/
def State.fetchWord (s : State) (n : Nat) (a : Word) : Except Cause (Option (BitVec 32)) × State := s.fetchBy (fetchId n) n a

/-- Ask the device that holds the word at an address for the doubleword around it, one request of a requester at a time. -/
def State.fetchAsk (s : State) (id n : Nat) (va : Word) : State :=
  let x := s.slotAt n
  if s.engineAwaits id then s
  else
    let a := va - BitVec.ofNat 64 (va.toNat % 8)
    match s.translate (slotQuad n) x.pid x.status.exec a .fetch with
    | (.error _, s1) => s1
    | (.ok t, s1) =>
      match s1.region t.pa with
      | .remote dev off =>
        if s1.reach dev then
          (s1.engineForget id).remoteSend { storeRequest id dev off a [] false with kind := .load, len := 8, elems := wholeReply 8 0 }
        else s1
      | _ => s1

/-- The major opcode of a word is the literal carrier's (02 R32). -/
def isLitCarrier (w : BitVec 32) : Bool := w.extractLsb' 26 6 = 0x0E

/-- The target checks of a transfer, which follow its fetch faults: PCALN, then LITTGT (02 R25, R33, R36), of a word below
the target that the device has or another one has sent for the requester `id`. -/
def State.targetBy (s : State) (id n : Nat) (a : Word) : Option Cause × State :=
  let x := s.slotAt n
  match s.translate (slotQuad n) x.pid x.status.exec a .fetch with
  | (.error _, s1) => (none, s1)
  | (.ok _, s0) =>
    if a.toNat % 4 ≠ 0 then (some .pcaln, s0)
    else if a.toNat % 8 = 4 then
      match s0.fetchBy id n (a - 4) with
      | (.ok (some w), s1) => (if isLitCarrier w then some .littgt else none, s1)
      | (_, s1) => (none, s1)
    else (none, s0)

/-- The target checks of a transfer that issues. -/
def State.targetFault (s : State) (n : Nat) (a : Word) : Option Cause × State := s.targetBy (targetId n) n a

/-- The word below a target lies in another device, which has not sent it for the requester `id` (14 R349). -/
def State.targetFar (s : State) (id n : Nat) (a : Word) : Bool :=
  decide (a.toNat % 8 = 4) && decide ((s.fetchBy id n (a - 4)).1 = .ok none)

/-- The address lies in the body of a loop entry (03 R75). -/
def LoopEntry.has (e : LoopEntry) (a : Word) : Bool := decide (e.start.toNat ≤ a.toNat) && decide (a.toNat ≤ e.fin.toNat)

/-- The loop stack after a transfer: unchanged where the target lies in the body of the top entry, else without every entry
whose body does not contain it (03 R75). -/
def popLoops (a : Word) (l : List LoopEntry) : List LoopEntry :=
  match l with
  | [] => []
  | e :: r => if e.has a then e :: r else r.filter (fun k => k.has a)

/-- A taken transfer to `a`, writing the link register `l` if the target passes PCALN and LITTGT (03 R71, R72, R75); while
TRAP = 1 it pops nothing (15 R381). The target's own checks are made before a word there issues; where the fetch there meets
a translation fault, the transfer has taken effect, link and loop entries included (assumption 21). Where another device holds
the word below the target, the transfer waits for it and issues again (14 R349). -/
def State.jump (s : State) (h : BitVec 2) (a : Word) (l : Option (BitVec 5)) : Result :=
  if s.targetFar (targetId s.hid) s.hid a then .next ((s.fetchAsk (targetId s.hid) s.hid (a - 4)).parkAt h .again)
  else
  let (bad, s1) := s.targetFault s.hid a
  let cyc := s1.now
  .next ((s1.engineForget (targetId s.hid)).modHart (fun x =>
    let y : Slot := { x with
      pc := a
      landed := true
      skips := skipsOf h
      sbHint := false
      notBefore := cyc + 4
      bound := { x.bound with step := x.status.step } }
    if bad.isSome then y
    else
      let z : Slot := { y with loops := if x.status.trap then x.loops else popLoops a x.loops }
      match l with
      | some d => z.setG d (x.pc + 4)
      | none => z))

/-! ## What every instruction checks first (02 R36, orders 7 to 11 and MSEQ) -/

/-- What an instruction needs: the v names it uses, executive level, the issuing core, that no logical process runs it,
and that a logical process runs it in a handler only (13 R323). -/
structure Need where
  vs   : List (BitVec 5)
  priv : Bool
  iss  : Bool
  opt  : Bool
  mem  : Bool
  deriving DecidableEq, Repr

/-- Nothing needed. -/
def Need.any : Need := { vs := [], priv := false, iss := false, opt := false, mem := false }
/-- Only v names. -/
def Need.vec (l : List (BitVec 5)) : Need := { Need.any with vs := l }
/-- A memory access or command. -/
def Need.access : Need := { Need.any with mem := true }
/-- A command of the issuing core (02 R48, mark I). -/
def Need.command : Need := { Need.any with mem := true, iss := true }

/-- A v name does not exist for the slot's mode and VWIN (02 R39). -/
def Slot.vregMissing (x : Slot) (n : BitVec 5) : Bool := decide (modeRegs x.record.mode ≤ physV x.vwin n)

/-- The first fault of an instruction among orders 7 to 11 and MSEQ of 02 R36. -/
def State.needFault (s : State) (c : Need) : Option Cause :=
  let x := s.hart
  if c.vs.any x.vregMissing then some .vregn
  else if c.priv && !x.status.exec then some .priv
  else if c.iss && !isIssuing s.coreNo then some .notiss
  else if c.opt && x.record.opt then some .optim
  else if x.sbHint then some .sbhint
  else if c.mem && x.record.opt && !x.lp.inh then some .mseq
  else none

/-- An instruction: its checks, then its effect. -/
def State.issue (s : State) (c : Need) (k : Result) : Result :=
  match s.needFault c with
  | some f => s.raise f 0
  | none => k

/-! ## Records and frames (12 R283 to R285) -/

/-- The record as eight doublewords, with PC, STATE and LINK (12 R283). -/
def Rec.words (r : Rec) (pc : Word) (st link : Nat) : List Word :=
  [BitVec.ofNat 64 (pc.toNat % 2 ^ 57),
   packFields [(r.pid.toNat, 52), (r.prio.toNat, 48), (r.mode.toNat, 46), (b2n r.opt, 45), (b2n r.exec, 44),
     (b2n r.new, 43), (r.hrad.toNat, 32), (r.hy.toNat, 28), (r.hx.toNat, 24), (r.gidx.toNat, 0)],
   r.vtime, r.frame, r.fmtp, r.kbank, r.gcb, packFields [(st, 60), (link, 0)]]

/-- Bytes of doublewords. -/
def wordsBytes (l : List Word) : List Byte := l.flatMap (fun w => natLe 8 w.toNat)

/-- Doublewords of bytes. -/
def bytesWords : List Byte → Nat → List Word
  | _, 0 => []
  | bs, n + 1 => BitVec.ofNat 64 (leNat (bs.take 8)) :: bytesWords (bs.drop 8) n

/-- The n-th of a list of doublewords. -/
def nthW (l : List Word) (n : Nat) : Word := l[n]?.getD 0

/-- The record that eight doublewords hold (12 R283). -/
def Rec.ofWords (l : List Word) : Rec :=
  let w := nthW l 1
  { pid := BitVec.ofNat 12 (fld w 63 52), prio := BitVec.ofNat 4 (fld w 51 48), mode := BitVec.ofNat 2 (fld w 47 46),
    opt := bitOf w 45, exec := bitOf w 44, new := bitOf w 43, hrad := BitVec.ofNat 5 (fld w 36 32),
    hy := BitVec.ofNat 4 (fld w 31 28), hx := BitVec.ofNat 4 (fld w 27 24), gidx := BitVec.ofNat 24 (fld w 23 0),
    vtime := nthW l 2, frame := nthW l 3, fmtp := nthW l 4, kbank := nthW l 5, gcb := nthW l 6 }

/-- A reserved bit of a record is set (12 R283). -/
def recReserved (l : List Word) : Bool :=
  fld (nthW l 0) 63 57 ≠ 0 || fld (nthW l 1) 42 37 ≠ 0 || fld (nthW l 3) 63 57 ≠ 0 || fld (nthW l 4) 63 57 ≠ 0 ||
    fld (nthW l 5) 63 57 ≠ 0 || fld (nthW l 6) 63 57 ≠ 0 || fld (nthW l 7) 59 57 ≠ 0

/-- Bytes of a frame by mode: 5, 9, 17 and 33 KiB (12 R285). -/
def frameSize (m : BitVec 2) : Nat := 1024 + 256 * modeRegs m

/-- VSHAPE as its register (08 R182). -/
def Slot.vshapeWord (x : Slot) : Word := packFields [(x.vw.toNat, 4), (x.vlr.toNat, 0)]

/-- PFLOOR as its register (10 R262): F in [6:0], policy in [8], 1 for EMULATE. -/
def Slot.pfloorWord (x : Slot) : Word := packFields [(b2n x.emulate, 8), (x.floor.toNat, 0)]

/-- The pass summary as a doubleword: NPASS, STATUS and EBC (10 R263). -/
def Slot.summaryWord (x : Slot) : Word :=
  packFields [(x.psum.npass.toNat, 16), (x.psum.status.toNat, 8), (x.psum.ebc.toNat, 0)]

/-- The k-th loop-stack entry from the outermost (15 R388). -/
def Slot.loopAt (x : Slot) (k : Nat) : LoopEntry :=
  match x.loops.reverse[k]? with
  | some e => e
  | none => x.loopSpare[k]?.getD { n := 0, start := 0, fin := 0 }

/-- LSTS of an entry: N in [58:57], START in [56:0] (15 R388). -/
def LoopEntry.startWord (e : LoopEntry) : Word := packFields [(e.n.toNat, 57), (e.start.toNat % 2 ^ 57, 0)]

/-- The doublewords of a frame from 0x040 to 0x2A7 (12 R285). -/
def Slot.frameWords (x : Slot) : List Word :=
  x.g.toList ++
  ((List.range 7).flatMap (fun j =>
    (List.range 4).map (fun k => (x.p[j + 1]?.getD 0).extractLsb' (64 * k) 64))) ++
  [x.fxf.setWidth 64, x.vxf.setWidth 64, x.vshapeWord, x.vwin.setWidth 64, x.fmt.setWidth 64, x.scl, x.pfloorWord,
   x.summaryWord] ++ x.lc.toList ++
  (List.range 3).flatMap (fun k => [(x.loopAt k).startWord, (x.loopAt k).fin])

/-- The first KiB of a frame after the record: its words, then 43 doublewords private to the device, here free
(12 R285; assumption 4). -/
def Slot.frameHead (x : Slot) (ctr : Nat) : List Byte :=
  wordsBytes (x.frameWords ++ (List.range 43).map (fun k => Config.freeWord (ctr + k)))

/-- Write the vector registers from number `v` on at a frame address. -/
def State.frameVecs (s : State) (q : Nat) (x : Slot) (v : Nat) : Nat → Except Cause State
  | 0 => .ok s
  | n + 1 =>
    match s.vaPut q x.pid x.record.exec (x.record.frame + BitVec.ofNat 64 (0x400 + 256 * v)) (vBytes (x.getPhysV v) 0 256) with
    | .error c => .error c
    | .ok s1 => s1.frameVecs q x (v + 1) n

/-- An address of a strand's frame lies in local HBM4. -/
def State.frameByteInHbm (s : State) (q : Nat) (x : Slot) (va : Word) : Bool :=
  match (s.translate q x.pid x.record.exec va .write).1 with
  | .ok t => decide (s.region t.pa = .hbm)
  | .error _ => false

/-- Bytes that a strand's frame has to have: those of its mode, and 33 KiB of a frame from a migration frame pool (12 R285;
14 R356). -/
def Slot.frameBytes (x : Slot) : Nat := if x.pooled.isSome then frameSize 3 else frameSize x.record.mode

/-- A frame has to lie in local HBM4 (12 R285): its first byte and its last, which no more than one page boundary
separates. -/
def State.frameInHbm (s : State) (q : Nat) (x : Slot) : Bool :=
  s.frameByteInHbm q x x.record.frame &&
    s.frameByteInHbm q x (x.record.frame + BitVec.ofNat 64 (x.frameBytes - 1))

/-- Write a strand's record into its frame (12 R284). -/
def State.recordWrite (s : State) (q : Nat) (x : Slot) (st link : Nat) : Except Cause State :=
  if !s.frameInHbm q x then .error .framef
  else s.vaPut q x.pid x.record.exec x.record.frame (wordsBytes (x.record.words x.pc st link))

/-- Write a frame but for its record (12 R285). -/
def State.frameBody (s : State) (q : Nat) (x : Slot) : Except Cause State :=
  if !s.frameInHbm q x then .error .framef
  else
    match s.vaPut q x.pid x.record.exec (x.record.frame + 0x40) (x.frameHead s.freeCtr) with
    | .error c => .error c
    | .ok s1 => ({ s1 with freeCtr := s1.freeCtr + 43 } : State).frameVecs q x 0 (modeRegs x.record.mode)

/-- Write a whole frame, the record last (12 R302). -/
def State.frameWrite (s : State) (q : Nat) (x : Slot) (st : Nat) : Except Cause State :=
  match s.frameBody q x with
  | .error c => .error c
  | .ok s1 => s1.recordWrite q x st 0

/-- Restore the public part of a frame from its doublewords from 0x040 on (12 R285, R299). -/
def Slot.ofFrame (x : Slot) (l : List Word) : Slot :=
  let depth := x.loops.length
  let entry (k : Nat) : LoopEntry :=
    { n := BitVec.ofNat 2 (fld (nthW l (71 + 2 * k)) 58 57), start := BitVec.ofNat 64 (va57 (nthW l (71 + 2 * k))),
      fin := nthW l (72 + 2 * k) }
  { x with
    g := Vector.ofFn (fun i : Fin 32 => nthW l i.val)
    p := Vector.ofFn (fun i : Fin 8 =>
      if i.val = 0 then 0
      else (List.range 4).foldl (fun (m : Mask) k => m ||| ((nthW l (32 + 4 * (i.val - 1) + k)).setWidth 256 <<< (64 * k))) 0)
    fxf := (nthW l 60).setWidth 6
    vxf := (nthW l 61).setWidth 6
    vw := BitVec.ofNat 2 (fld (nthW l 62) 5 4)
    vlr := BitVec.ofNat 4 (fld (nthW l 62) 3 0)
    vwin := (nthW l 63).setWidth 2
    fmt := (nthW l 64).setWidth 4
    scl := nthW l 65
    floor := (nthW l 66).setWidth 7
    emulate := bitOf (nthW l 66) 8
    psum := { npass := BitVec.ofNat 16 (fld (nthW l 67) 31 16), status := BitVec.ofNat 8 (fld (nthW l 67) 15 8),
              ebc := BitVec.ofNat 7 (fld (nthW l 67) 6 0) }
    lc := Vector.ofFn (fun i : Fin 3 => nthW l (68 + i.val))
    loops := ((List.range depth).map entry).reverse
    loopSpare := Vector.ofFn (fun i : Fin 3 => entry i.val) }

/-- Read the vector registers of a frame (12 R285). -/
def State.frameReadVecs (s : State) (q : Nat) (x : Slot) (v : Nat) : Nat → Slot × State
  | 0 => (x, s)
  | n + 1 =>
    match s.vaGet q x.pid x.record.exec (x.record.frame + BitVec.ofNat 64 (0x400 + 256 * v)) 256 with
    | (.ok bs, s1) => s1.frameReadVecs q (x.setPhysV v (bytesV bs)) (v + 1) n
    | (.error _, s1) => s1.frameReadVecs q x (v + 1) n

/-- Restore everything of 12 R285 from the frame; what cannot be read keeps what the device holds. -/
def State.frameRead (s : State) (q : Nat) (x : Slot) : Slot × State :=
  let (y, s1) := match s.vaGet q x.pid x.record.exec (x.record.frame + 0x40) 0x268 with
    | (.ok bs, s1) => (x.ofFrame (bytesWords bs 77), s1)
    | (.error _, s1) => (x, s1)
  s1.frameReadVecs q y 0 (modeRegs y.record.mode)

/-! ## Placement entry -/

/-- The stamp of the next arrival of an item at a place (12 R297). -/
def State.nextArrival (s : State) : Nat := s.items.foldl (fun m i => Nat.max m i.arrived) 0 + 1

/-- The limit of the radius: RMAX of the group, or HRAD where it is larger (12 R286). -/
def Rec.limit (r : Rec) (rmax : Nat) : Nat := Nat.max rmax r.hrad.toNat

/-- Enter a strand into placement at a router (12 R296), with RMAX of its group; `lpid` is the identifier of a logical process
at its launch. -/
def State.enterItem (s : State) (r : Rec) (pc : Word) (x y total rmax : Nat) (lpid : Nat := 0) : State :=
  { s with items := s.items ++
      [{ record := r, pc := pc, x := x, y := y, radius := r.hrad.toNat, rmax := r.limit rmax, ring := none, ovq := none,
         taken := none, total := total, since := s.ticks, lpid := lpid, arrived := s.nextArrival }] }

/-- Manhattan distance on the grid. -/
def gridDist (x y hx hy : Nat) : Nat := (x - hx) + (hx - x) + ((y - hy) + (hy - y))

/-- The slots of a core that hold a strand or are taken by an item (12 R296, R299). -/
def State.usedSlots (s : State) (core : Nat) : List Nat :=
  ((s.occSlots.filter (fun e => decide (e.1 / 16 = core))).map (fun e => e.1 % 16)) ++
    s.items.filterMap (fun i => match i.taken with | some (c, k) => if c = core then some k else none | none => none)

/-- The core is under in-field test, draining or running (16 R419). -/
def State.underTest (s : State) (core : Nat) : Bool :=
  decide (s.plat.scState ≠ 0) && !s.plat.runElev && decide (s.plat.runTarget = core)

/-- A core whose drain has left it empty runs the pattern (16 R419). -/
def State.scanEmpty (s : State) : State :=
  if s.plat.scState = 1 && (s.usedSlots s.plat.runTarget).isEmpty then
    (s.modPlat (fun p => { p with scState := 2 })).modCore s.plat.runTarget (fun c => { c with mode := 0 })
  else s

/-- A strand of a context may come to a tile: the context is elastic, holds one of the tile's leave reservations, or finds fewer
than four contexts that hold one or are about to (15 R396). -/
def State.ftRoom (s : State) (t : Nat) (pid : BitVec 12) : Bool :=
  let rs := (s.tile t).rsvs
  !(s.job pid).ft || rs.contains pid || decide (rs.length < 4)

/-- The slot in which a core can take a record: the core is in service and no service core, no in-field test holds it, its
reservation admits the priority, its tile has a leave reservation for a fixed-timing context, and it has a vacant slot in the record's mode or only
vacant slots (12 R296, R307; 15 R396). -/
def State.roomFor (s : State) (core : Nat) (r : Rec) : Option Nat :=
  let c := s.core core
  let used := s.usedSlots core
  if 256 ≤ core || !s.plat.coreMap.getLsbD core || s.underTest core || r.prio.toNat < c.rsv.toNat || !(s.job r.pid).causes.isEmpty then none
  else if !s.ftRoom (tileOf core) r.pid then none
  else if c.mode = r.mode || used.isEmpty then
    (List.range (modeSlots r.mode)).find? (fun k => !used.contains k && !c.kept.contains k)
  else none

/-- Core number of grid coordinates. -/
def gridCore (x y : Nat) : Nat := 16 * y + x

/-- Of two items the one served first: higher priority, then the earlier arrival (12 R297). -/
def betterItem (a b : Nat × Item) : Nat × Item :=
  if a.2.record.prio.toNat < b.2.record.prio.toNat then b
  else if b.2.record.prio.toNat < a.2.record.prio.toNat then a
  else if b.2.arrived < a.2.arrived then b else a

/-- The placement overflow queue of a tile for a priority, in arrival order (12 R297, R298). -/
def State.overflowList (s : State) (tile : Nat) (prio : BitVec 4) : List Item :=
  let l := s.items.filter (fun k => decide (k.ovq = some tile) && decide (k.record.prio = prio) && k.taken.isNone)
  l.foldl (fun acc i => acc.takeWhile (fun k => decide (k.arrived ≤ i.arrived)) ++ [i] ++
    acc.dropWhile (fun k => decide (k.arrived ≤ i.arrived))) []

/-- Chain an item's record to the next of its queue through LINK (12 R283, R298). -/
def State.chainItem (s : State) (i : Item) (next : Word) : State :=
  s.vaSetWord i.record.pid (i.record.frame + 56) (packFields [(if i.record.new then 0 else 3, 60), (va57 next, 0)])

/-- The records of a queue form a chain in its order; the last one's LINK is 0. -/
def State.chainItems (s : State) : List Item → State
  | [] => s
  | a :: r => (s.chainItem a (match r with | b :: _ => b.record.frame | [] => 0)).chainItems r

/-- An item has left an overflow queue, whose records are chained anew (12 R298). -/
def State.leaveOverflow (s : State) (i : Item) : State :=
  match i.ovq with
  | some t => s.chainItems (s.overflowList t i.record.prio)
  | none => s

/-- A core takes the item at an index into a slot (12 R296); for a fixed-timing context its tile reserves leave (15 R396,
R399). -/
def State.takeItem (s : State) (idx core slot : Nat) : State :=
  match s.items[idx]? with
  | none => s
  | some it =>
    let s1 := ({ s with items := s.items.set idx { it with taken := some (core, slot) } } : State).modCore core (fun c =>
      { c with mode := it.record.mode })
    let s2 :=
      if (s.job it.record.pid).ft then
        s1.modTile (tileOf core) (fun t => if t.rsvs.contains it.record.pid then t else { t with rsvs := t.rsvs ++ [it.record.pid] })
      else s1
    s2.leaveOverflow it

/-- Offer a core's vacant slots to the overflow items in reach (12 R296). -/
def State.offerOverflow (s : State) (core : Nat) : State :=
  let can (e : Nat × Item) : Bool :=
    e.2.ovq.isSome && e.2.taken.isNone &&
      decide (gridDist (coreX core) (coreY core) e.2.record.hx.toNat e.2.record.hy.toNat ≤ e.2.rmax) &&
      (s.roomFor core e.2.record).isSome
  match (s.items.zipIdx.map (fun e => (e.2, e.1))).filter can with
  | [] => s
  | e :: r =>
    let b := r.foldl betterItem e
    match s.roomFor core b.2.record with
    | some k => s.takeItem b.1 core k
    | none => s

/-! ## Reservations (06 R146, R147) -/

/-- Remove a strand's entry from the reservation queues; a held one is passed on, marked revoked for the strand. -/
def State.dropReservation (s : State) (sid : Nat) : State :=
  let held := s.rsvqs.any (fun q => q.granted && q.waiters.head? = some sid)
  let cut (q : RsvQueue) : RsvQueue :=
    if q.waiters.contains sid then
      { q with waiters := q.waiters.filter (fun w => w ≠ sid), granted := q.granted && q.waiters.head? ≠ some sid }
    else q
  let s1 : State := { s with rsvqs := (s.rsvqs.map cut).filter (fun q => !q.waiters.isEmpty) }
  s1.modStrand sid (fun x => { x with rsvLine := none, revoked := x.revoked || held })

/-- Revoke the reservation a strand holds; a queued entry keeps its place (06 R147). -/
def State.revokeHeld (s : State) (sid : Nat) : State :=
  if s.rsvqs.any (fun q => q.granted && q.waiters.head? = some sid) then s.dropReservation sid else s

/-! ## Strands out of their slots (12 R284, R298, R302) -/

/-- Write the record of a strand that is out of its slot again, after its state changed. -/
def State.awayRecord (s : State) (sid st : Nat) : State :=
  match alGet s.away sid with
  | none => s
  | some x =>
    match s.recordWrite 0 x st 0 with
    | .ok s1 => { s1 with away := alSet s1.away sid { x with rstate := BitVec.ofNat 4 st } }
    | .error _ =>
      s.fatalCause x.pid
        { cause := Cause.framef.code, src := 0xFFFF, flags := 0, xpc := x.pc, xval := x.record.frame, time := s.timeNs }

/-- Write the whole frame of a strand out of its slot again (06 R148). -/
def State.awayFrame (s : State) (sid st : Nat) : State :=
  match alGet s.away sid with
  | none => s
  | some x =>
    match s.frameWrite 0 x st with
    | .ok s1 => { s1 with away := alSet s1.away sid { x with rstate := BitVec.ofNat 4 st } }
    | .error _ =>
      s.fatalCause x.pid
        { cause := Cause.framef.code, src := 0xFFFF, flags := 0, xpc := x.pc, xval := x.record.frame, time := s.timeNs }

/-- Chain a record to the next one of its list through LINK (12 R283, R298). -/
def State.setLink (s : State) (sid : Nat) (next : Word) : State :=
  match alGet s.away sid with
  | some x => s.vaSetWord x.pid (x.record.frame + 56) (packFields [(x.rstate.toNat, 60), (va57 next, 0)])
  | none => s

/-- The records of strands out of their slots, in this order, form a chain through LINK; the last one's is 0 (06 R148;
12 R298). -/
def State.linkAll (s : State) : List Nat → State
  | [] => s
  | a :: r =>
    let next : Word := match r with | b :: _ => BitVec.ofNat 64 (b % 2 ^ 57) | [] => 0
    (s.setLink a next).linkAll r

/-! ## Waking (06 R148; 12 R301) -/

/-- Router of bank `b` of a tile, or of the tile's issuing core for the halves (12 R301). -/
def bankRouter (t : Nat) (b : Option Nat) : Nat × Nat :=
  let c := coreAt t (b.getD 15)
  (coreX c, coreY c)

/-- Router of the home slice of a physical address: core (c, 7) (04 R91; 12 R301). -/
def State.sliceRouter (s : State) (pa : Nat) : Nat × Nat :=
  let x := pa / 256 % 2 ^ 44
  let h := (x % 65536 ^^^ x / 65536 % 65536 ^^^ x / 2 ^ 32 % 4096) % 48
  (s.plat.hst[h]?.getD 0, 7)

/-- A strand out of its slot whose content changed becomes RUNNABLE and re-enters placement at a router, its whole frame
written again or its record only (06 R148); a HELD strand stays HELD (15 R404), and one that is in placement stays there. -/
def State.reenter (s : State) (y : Slot) (router : Nat × Nat) (whole : Bool) : State :=
  let sid := y.sid
  let st := if y.rstate = 6 then 6 else 3
  let s1 : State := { s with away := alSet s.away sid y }
  let s2 := if whole then s1.awayFrame sid st else s1.awayRecord sid st
  if y.rstate = 6 || s.items.any (fun i => decide (strandId i.record.pid i.record.frame = sid)) then s2
  else s2.enterItem y.record y.pc router.1 router.2 1 y.rmax

/-- A waiting instruction completes for its strand: in its slot it resumes, with the result `f` writes and the PC past the
instruction; out of its slot this is done in the frame (06 R148). -/
def State.wake (s : State) (sid : Nat) (router : Nat × Nat) (f : Slot → Slot) : State :=
  match s.findSlot sid with
  | some n => s.modSlot n (fun x => (f x).finish 4 x.parkSh)
  | none =>
    match alGet s.away sid with
    | none => s
    | some x => s.reenter ((f x).finish 4 x.parkSh) router true

/-- `wake` for a strand that still waits in the way a test selects. -/
def State.wakeIf (s : State) (sid : Nat) (router : Nat × Nat) (sel : Park → Bool) : State :=
  match s.strandOf sid with
  | some x => if (match x.park with | some p => sel p | none => false) then s.wake sid router id else s
  | none => s

/-- A waiting instruction is to be issued again: the strand stops waiting and keeps its PC. -/
def State.unpark (s : State) (sid : Nat) (router : Nat × Nat) : State :=
  match s.findSlot sid with
  | some n => s.modSlot n (fun x => { x with park := none })
  | none =>
    match alGet s.away sid with
    | none => s
    | some x => s.reenter { x with park := none } router false

/-- A waiting instruction takes a fault at its address: at once in a slot, at the next pick-up out of it; a logical process
out of its slot that holds the fault stays there (13 R339). -/
def State.wakeFault (s : State) (sid : Nat) (router : Nat × Nat) (c : Cause) (xval : Word) : State :=
  match s.findSlot sid with
  | some n => (s.modSlot n (fun x => { x with park := none })).raiseAt n c.code (s.slotAt n).pc xval false
  | none =>
    match alGet s.away sid with
    | none => s
    | some x =>
      let lf : HeldFault := { cause := c.code, xpc := x.pc, xval := xval, late := false, final := false }
      if s.holdsFault x c.code then
        { s with away := alSet s.away sid { x with park := some .held, lp := { x.lp with held := some lf } } }
      else s.reenter { x with park := none, bound := { x.bound with late := some lf } } router false

/-- The strand of a packet under way has changed. -/
def State.modLeaving (s : State) (sid : Nat) (f : Slot → Slot) : State :=
  { s with migOut := s.migOut.map (fun m => if m.strand = sid then { m with slot := f m.slot } else m) }

/-- Change a strand wherever it is, in its frame too when it is out of its slot (15 R404; 06 R148); one whose packet is not
yet acknowledged changes in the packet, from which a refusal brings it back (14 R355). -/
def State.modStrandKept (s : State) (sid : Nat) (f : Slot → Slot) : State :=
  match s.findSlot sid with
  | some n => s.modSlot n f
  | none =>
    match alGet s.away sid with
    | none => s.modLeaving sid f
    | some x =>
      let y := f x
      let s1 : State := { s with away := alSet s.away sid y }
      match s1.frameBody 0 y with
      | .ok s2 => s2
      | .error _ =>
        s1.fatalCause x.pid
          { cause := Cause.framef.code, src := 0xFFFF, flags := 0, xpc := x.pc, xval := x.record.frame, time := s.timeNs }

/-- The resident strand that has been parked longest among those a test selects. -/
def State.oldestParked (s : State) (sel : Park → Bool) : Option (Nat × Slot) :=
  (s.occSlots.filter (fun e => match e.2.park with | some p => sel p | none => false)).foldl
    (fun acc e => match acc with
      | none => some e
      | some f => if e.2.since < f.2.since then some e else some f) none

/-! ## Leaving a slot (05 R123; 12 R302) -/

/-- A strand is resolved for every pre-emption that waits for it; an issuer whose last strand it was goes on (12 R307). -/
def State.resolve (s : State) (sid : Nat) : State :=
  let cut (p : Preempt) : Preempt := { p with left := p.left.filter (fun k => k ≠ sid) }
  let l := s.preempts.map cut
  let s1 : State := { s with preempts := l.filter (fun p => !p.left.isEmpty) }
  (l.filter (fun p => p.left.isEmpty)).foldl (fun (c : State) p =>
    c.wakeIf p.issuer (0, 0) (fun k => match k with | .prmt => true | _ => false)) s1

/-- A strand has left its slot, which is offered to the overflow queues in reach (12 R296); no pre-emption waits for it any
more (12 R307). -/
def State.vacate (s : State) (n : Nat) : State :=
  ((s.setSlot n Slot.vacant).scanEmpty.offerOverflow (n / 16)).resolve (s.slotAt n).sid

/-- The fault of a relaxed remote store is due when the strand leaves its slot: it is taken when the strand is back
(14 R350). -/
def Slot.lateOnLeaving (x : Slot) : Slot :=
  match x.lateStore with
  | some f => { x with lateStore := none, bound := { x.bound with late := if x.bound.late.isSome then x.bound.late else some f } }
  | none => x

/-- A strand may not leave slot `n` yet: its remote accesses are not all answered, or ROUTE.HOLD keeps the core from sending
its frame to the second level (04 R92; 05 R123). -/
def State.leaveHeld (s : State) (n : Nat) : Bool :=
  let sid := (s.slotAt n).sid
  (s.core (n / 16)).hold || s.remoteBusy sid || s.farBuffered (n / 16) sid

/-- The actions of 05 R123 before a strand leaves slot `n`. -/
def State.leaveActions (s : State) (n : Nat) : State :=
  let sid := (s.slotAt n).sid
  (((((s.orderingDone n).performAll n).drainWc (n / 16) sid).coreWriteBack (n / 16)).revokeHeld sid).modSlot n Slot.lateOnLeaving

/-- Write back the strand of slot `n` with a STATE: its content is kept by identity, its frame written, the slot vacant.
A frame that cannot be written makes the context fatal with FRAMEF (12 R285, R302). -/
def State.writeBackStrand (s : State) (n st : Nat) : State :=
  let s1 := (s.leaveActions n).consumeRegs n (fun _ => true)
  let x := s1.slotAt n
  match s1.frameWrite (slotQuad n) x st with
  | .ok s2 => 
    let y : Slot := { x with occ := false, rstate := BitVec.ofNat 4 st, ready := [], lbuf := [], skips := 0 }
    ({ s2 with away := alSet s2.away x.sid y } : State).vacate n
  | .error _ => s1.fatalSlot n Cause.framef.code x.record.frame 0

end Sys2Proof.Machine
end

