-- ==== Sys2Proof/Machine/Remote.lean ====
section
/-!
DEFINITION. What an access needs to know of the fabric: the job block (13 R314), remote requests
of a strand with their late faults (14 R349, R350, R353), and migration out (14 R354, R355, R357).
-/

namespace Sys2Proof.Machine

/-! ## The job block and the device of a logical process (13 R314, R316) -/

/-- Doubleword `k` of the PID's registered job block; 0 without one (13 R314). -/
def State.vjbWord (s : State) (pid : BitVec 12) (k : Nat) : Word :=
  match (s.job pid).vjb with
  | none => 0
  | some a => (s.vaWord pid (a + BitVec.ofNat 64 (8 * k))).getD 0

/-- The requester number of the reading of a PID's device map. -/
def mapId (pid : BitVec 12) : Nat := noStrand + 120000 + pid.toNat

/-- The reading of some device map waits for another device. -/
def State.mapsAwaited (s : State) : Bool :=
  s.remote.any (fun r => decide (noStrand + 120000 ≤ r.strand) && decide (r.strand < noStrand + 124096) && r.reply.isNone)

/-- The device that holds an LP; none: this one (13 R316). A map that another device holds was read when the block was
registered. -/
def State.lpDevice (s : State) (pid : BitVec 12) (lp : BitVec 32) : Option (BitVec 11) :=
  let dmap := addr57 (s.vjbWord pid 12)
  if dmap = 0 then none
  else
    let far := (s.job pid).dmapFar
    let at_ := 2 * (lp.toNat / 2 ^ 20)
    let got : Except Cause (List Byte) :=
      if far.isEmpty then (s.vaGet 0 pid true (dmap + BitVec.ofNat 64 at_) 2).1 else .ok ((far.drop at_).take 2)
    match got with
    | .ok bs =>
      let d := BitVec.ofNat 11 (leNat bs)
      if s.plat.fabv && d = s.plat.dev then none else some d
    | .error _ => none

/-! ## Requests of a strand (14 R349 to R353) -/

/-- A request of the executing strand: sent, or for an unreachable device a late fault; only relaxed accesses come here
unreachable (14 R350). `elems` places the reply's bytes from their addresses counted from the start of the data; `logs` are
the doublewords whose old bytes the reply brings for the pentimento log (13 R325). -/
def State.sendRemote (s : State) (dev off len : Nat) (va : Word) (kind : RemoteKind) (data : List Byte) (dst : PendKind)
    (elems : List PendElem) (relaxed : Bool) (logs : List Nat) : State :=
  if s.reach dev then
    s.remoteSend
      { tag := 0, strand := s.hart.sid, dev := BitVec.ofNat 11 dev, offset := off, len := len, va := va, kind := kind,
        data := data, dst := dst, elems := elems, relaxed := relaxed, logs := logs, lvt := s.hart.lp.lvt, attempts := 1,
        since := s.ticks, inFlight := true, reply := none }
  else s.modHart (fun x => x.remoteLate dst .runreach va)

/-- A local element of a plain gather that also has remote ones: its bytes wait with the replies, so that no register is
written before every element has come. -/
def State.heldRead (s : State) (va : Word) (bs : List Byte) (dst : PendKind) (idx : Nat) : State :=
  { s with remote := s.remote ++
      [{ tag := 0, strand := s.hart.sid, dev := 0, offset := 0, len := 0, va := va, kind := .load, data := [], dst := dst,
         elems := wholeReply bs.length idx, relaxed := false, logs := [], lvt := 0, attempts := 0, since := s.ticks,
         inFlight := false, reply := some bs }] }

/-- The strand waits for its remote accesses; with relaxed ones the instruction is complete. -/
def State.awaitRemote (s : State) (h : BitVec 2) (relaxed : Bool) : Result :=
  if relaxed then s.done h id else .next (s.parkAt h (.remote (s.nextTag - 1)))

/-- A remote access of the strand that awaits its reply overlaps these bytes (14 R353). -/
def State.remoteMeets (s : State) (sid dev off len : Nat) : Bool :=
  s.remote.any (fun r => decide (r.strand = sid) && decide (r.dev.toNat = dev) && overlaps off len r.offset r.len)

/-! ## Migration out (14 R354, R355) -/

/-- The executing strand migrates to a device: MIGLP, MIGBUSY, its wait for replies and copies and for a rollback that is due (13 R330), RUNREACH; then it leaves its
slot and its content is sent (14 R355 steps 1 to 3). -/
def State.migrateTo (s : State) (h : BitVec 2) (dev : Nat) (va : Word) : Result :=
  let x := s.hart
  let sid := x.sid
  if x.record.opt && decide (s.lpDevice x.pid x.lp.lpid ≠ some (BitVec.ofNat 11 dev)) then s.raise .miglp va
  else if x.okeep || x.xkeep then s.raise .migbusy va
  else if !x.acks.isEmpty || x.cpOut ≠ 0 || s.leaveHeld s.hid || ((s.job x.pid).lp x.lp.lpid.toNat).due.isSome then
    .next ((s.sendBuffers s.hid).parkAt h .again)
  else if !s.reach dev then s.raise .runreach va
  else
    let s1 := (s.leaveActions s.hid).dropReservation sid
    let y : Slot := { s1.slotAt s.hid with occ := false, v := Vector.replicate 128 0, p := Vector.replicate 8 0, ready := [] }
    let m : MigOut :=
      { tag := s1.nextTag, strand := sid, dev := BitVec.ofNat 11 dev, va := va, slot := y, since := s1.ticks, attempts := 1 }
    .next ((({ s1 with migOut := s1.migOut ++ [m], nextTag := s1.nextTag + 1 } : State).inject dev 1024).vacate s.hid)

/-- The checks of a global access to a place that may be remote: a user strand's access to an M page moves the strand first;
an access that overlaps one still unanswered is held, and so is one that overlaps bytes in the strand's own
write-combining buffers, which drain (05 R116 item 1); a plain access to an unreachable device faults (14 R350, R353, R354). -/
def State.remoteGate (s : State) (h : BitVec 2) (x : Xlate) (va : Word) (len : Nat) (relaxed : Bool) (k : Result) : Result :=
  match s.region x.pa with
  | .remote dev off =>
    if x.migrate && !s.hart.status.exec then s.migrateTo h dev va
    else if s.remoteMeets s.hart.sid dev off len then .next (s.parkAt h .again)
    else if (s.core s.coreNo).wc.any (fun b => b.covers s.hart.sid x.pa len) then
      .next ((s.settleLine s.hid x.pa len).parkAt h .again)
    else if !relaxed && !s.reach dev then s.raise .runreach va
    else k
  | _ => k

end Sys2Proof.Machine
end

