-- ==== Sys2Proof/Machine/Access.lean ====
section
/-!
DEFINITION. Memory accesses of a strand: local store, scratchpad with its FIFO banks, and global memory; plain, relaxed and
non-temporal; scalar, contiguous and gathered (04 R100 to R104, R86; 05 R113 to R116), with the pentimento log of a logical
process (13 R324, R325) and wait lists (06 R148).
-/

namespace Sys2Proof.Machine

/-! ## The job block and the log of a logical process (13 R314, R324, R325) -/

/-- Bytes of a log entry (13 R324). -/
def LogEntry.size : LogEntry → Nat
  | .ckpt _ => 512
  | .store _ _ _ => 32
  | .send _ _ _ _ => 32
  | .varn _ => 64

/-- Bytes in use in a log. -/
def logUse (l : List LogEntry) : Nat := l.foldl (fun n e => n + e.size) 0

/-- A varnish action of a PID failed with a status: the first failure fills VKIND, VSTAT and VADDR of the job block, and
every one raises VARNF (13 R338). -/
def State.varnFail (s : State) (pid : BitVec 12) (kind : Nat) (a : Word) (st : Nat) : State :=
  let s1 :=
    match (s.job pid).vjb with
    | some v =>
      if fld (s.vjbWord pid 10) 7 0 = 0 then
        (s.vaSetWord pid (v + 80) (packFields [(kind, 8), (st, 0)])).vaSetWord pid (v + 88) a
      else s
    | none => s
  s1.execEvent 0 0x0A (pid.toNat + 2 ^ 12 * st + 2 ^ 20 * kind) pid

/-- LOGSZ and LOGWAIT (13 R314). -/
def State.logSize (s : State) (pid : BitVec 12) : Nat := fld (s.vjbWord pid 5) 31 0
/-- LOGWAIT. -/
def State.logWait (s : State) (pid : BitVec 12) : Bool := bitOf (s.vjbWord pid 5) 32

/-- Entries that the replies to a strand's remote requests will bring (13 R325). -/
def State.logDue (s : State) (sid : Nat) : Nat :=
  (s.remote.filter (fun r => decide (r.strand = sid))).foldl (fun n r => n + r.logs.length) 0

/-- The ring has room for entries, and for `later` ones that the replies to remote requests will bring (13 R325). -/
def State.logFits (s : State) (x : Slot) (l : List LogEntry) (later : Nat) : Bool :=
  decide (logUse ((s.job x.pid).lp x.lp.lpid.toNat).log + logUse l + 32 * (s.logDue x.sid + later) ≤ s.logSize x.pid)

/-- Append entries, oldest first, to an LP's log. -/
def State.logPush (s : State) (x : Slot) (l : List LogEntry) : State :=
  s.modLp x.pid x.lp.lpid.toNat (fun p => { p with log := l.reverse ++ p.log })

/-- LogAppend of the executing LP, then the rest of the instruction: without room the strand parks, or LOGFULL is raised
(13 R325). `later` entries come with the replies to remote requests. -/
def State.logThenFar (s : State) (h : BitVec 2) (l : List LogEntry) (later : Nat) (k : State → Result) : Result :=
  if l.isEmpty && later = 0 then k s
  else if s.logFits s.hart l later then k (s.logPush s.hart l)
  else if s.logWait s.hart.pid then .next (s.parkAt h (.logRoom (logUse l + 32 * later)))
  else s.raise .logfull 0

/-- LogAppend without remote entries. -/
def State.logThen (s : State) (h : BitVec 2) (l : List LogEntry) (k : State → Result) : Result := s.logThenFar h l 0 k

/-! ## Wait lists (06 R148) -/

/-- The strands chained behind a wait list, in arrival order. -/
def State.chainOf (s : State) (t : Nat) (b : Option Nat) : List Nat :=
  (((s.tile t).waitsAt b).filter (fun e => e.chained)).map (fun e => e.strand)

/-- A strand whose entry is chained behind a full wait list is written back at once, its record linked into the chain
(06 R148), once it may leave its slot (04 R92; 05 R123). -/
def State.writeBackChained (s : State) (n t : Nat) (b : Option Nat) : State :=
  if s.leaveHeld n then s.sendBuffers n
  else
    let s1 := s.writeBackStrand n 2
    s1.linkAll (s1.chainOf t b)

/-- Join a wait list: past 64 entries the record is chained and the strand written back at once (06 R148). -/
def State.waitJoin (s : State) (h : BitVec 2) (t : Nat) (b : Option Nat) (p : Park) : State :=
  let l := (s.tile t).waitsAt b
  let full := decide (64 ≤ (l.filter (fun e => !e.chained)).length)
  let s1 := (s.parkAt h p).modTile t (fun k =>
    k.putWaits b (k.waitsAt b ++ [{ strand := s.hart.sid, what := p, chained := full }]))
  if full then s1.writeBackChained s1.hid t b else s1

/-- Remove the entry of a strand from a wait list; what is left of the chain is linked anew. -/
def State.waitLeave (s : State) (t : Nat) (b : Option Nat) (sid : Nat) : State :=
  let s1 := s.modTile t (fun k => k.putWaits b ((k.waitsAt b).filter (fun e => e.strand ≠ sid)))
  s1.linkAll (s1.chainOf t b)

/-! ## FIFO banks (04 R86) -/

/-- Capacity of a FIFO bank in doublewords. -/
def fifoCap : Nat := 131072

/-- Enqueue doublewords at the tail. -/
def Bank.push (b : Bank) (l : List Word) : Bank := { b with fifo := b.fifo ++ l }

/-- Dequeue `n` doublewords from the head. -/
def Bank.pop (b : Bank) (n : Nat) : Bank :=
  { b with fifo := b.fifo.drop n, head := b.head + BitVec.ofNat 17 n }

/-- The waiting entry is a FIFO load. -/
def Park.isFifoLoad : Park → Bool
  | .fifoLd _ _ => true
  | .fifoVld _ _ => true
  | _ => false

/-- The waiting entry is a FIFO store. -/
def Park.isFifoStore : Park → Bool
  | .fifoSt _ _ => true
  | .fifoVst _ _ => true
  | _ => false

/-- The 32 doublewords of a vector register, ascending. -/
def vWords (v : VReg) : List Word := (List.range 32).map (fun k => v.extractLsb' (64 * k) 64)

/-- The vector register of 32 doublewords. -/
def wordsV (l : List Word) : VReg := bytesV (wordsBytes l)

/-- Serve the waiting loads, then the waiting stores, of a FIFO bank, each kind in arrival order and each whole
(04 R86); `fuel` services at most. -/
def State.serveFifo (s : State) (t b : Nat) : Nat → State
  | 0 => s
  | fuel + 1 =>
    let k := (s.tile t).bank b
    let r := bankRouter t (some b)
    let ld := k.waits.find? (fun e => e.what.isFifoLoad)
    let st := k.waits.find? (fun e => e.what.isFifoStore)
    let tryStore : State :=
      match st with
      | some e =>
        (match e.what with
         | .fifoSt _ v =>
           if k.fifo.length + 1 ≤ fifoCap then
             (((s.modBank t b (fun x => x.push [v])).waitLeave t (some b) e.strand).wake e.strand r id).serveFifo t b fuel
           else s
         | .fifoVst _ v =>
           if k.fifo.length + 32 ≤ fifoCap then
             (((s.modBank t b (fun x => x.push (vWords v))).waitLeave t (some b) e.strand).wake e.strand r id).serveFifo t b fuel
           else s
         | _ => s)
      | none => s
    match ld with
    | some e =>
      (match e.what with
       | .fifoLd _ d =>
         if 1 ≤ k.fifo.length then
           (((s.modBank t b (fun x => x.pop 1)).waitLeave t (some b) e.strand).wake e.strand r
             (fun x => x.setG d (nthW k.fifo 0))).serveFifo t b fuel
         else tryStore
       | .fifoVld _ phys =>
         if 32 ≤ k.fifo.length then
           (((s.modBank t b (fun x => x.pop 32)).waitLeave t (some b) e.strand).wake e.strand r
             (fun x => x.setPhysV phys (wordsV (k.fifo.take 32)))).serveFifo t b fuel
         else tryStore
       | _ => tryStore)
    | none => tryStore

/-- Serve a FIFO bank until nothing can proceed. -/
def State.serveFifoAll (s : State) (t b : Nat) : State := s.serveFifo t b (((s.tile t).bank b).waits.length + 1)

/-- A FIFO access of the executing strand: it queues behind the waiting ones of its kind, and proceeds whole. -/
def State.fifoAccess (s : State) (h : BitVec 2) (t b : Nat) (p : Park) : Result :=
  let s1 := s.modTile t (fun k => k.putWaits (some b)
    (k.waitsAt (some b) ++ [{ strand := s.hart.sid, what := p, chained := false }]))
  let s2 := (s1.parkAt h p).serveFifoAll t b
  if ((s2.tile t).bank b).waits.any (fun e => e.strand = s.hart.sid) then
    .next ((s2.waitLeave t (some b) s.hart.sid).waitJoin h t (some b) p)
  else .next s2

/-! ## One access to local store -/

/-- The local-store check of 04 R109: LSRANGE, then MALN. -/
def localCheck (a : Word) (align : Nat) : Option Cause :=
  if 0x40000 ≤ a.toNat then some .lsrange else if a.toNat % align ≠ 0 then some .maln else none

/-- Bytes of the executing core's local store. -/
def State.localRead (s : State) (a n : Nat) : List Byte := memBytes s.mem (localBase s.coreNo + a) n

/-- Write the executing core's local store. -/
def State.localWrite (s : State) (a : Nat) (bs : List Byte) : State :=
  { s with mem := memPut s.mem (localBase s.coreNo + a) bs }

/-! ## One access to global memory -/

/-- MALN, then translation, for an access of the executing strand (04 R109). -/
def State.globalCheck (s : State) (a : Word) (align : Nat) (acc : Acc) : Except Cause Xlate × State :=
  if a.toNat % align ≠ 0 then (.error .maln, s)
  else s.translate (slotQuad s.hid) s.hart.pid s.hart.status.exec a acc

/-- OPTST: a logical process stores to a page without T (04 R100). -/
def State.optstAt (s : State) (x : Xlate) : Bool := s.hart.record.opt && !x.timed

/-- The aligned doublewords that bytes at an address touch. -/
def dwordsOf (a n : Nat) : List Nat := (List.range ((a % 8 + n + 7) / 8)).map (fun k => a / 8 * 8 + 8 * k)

/-- A physical address is another device's. -/
def State.isRemote (s : State) (pa : Nat) : Bool := match s.region pa with | .remote _ _ => true | _ => false

/-- The doublewords that a write of the executing LP in a handler to a timed page logs (13 R325). -/
def State.loggedWords (s : State) (x : Xlate) (pa n : Nat) : List Nat :=
  if s.hart.inHandler && x.timed then dwordsOf pa n else []

/-- STORE entries for such a write: the old bytes as its tile observes them (13 R325); of another device's memory the reply
brings them. -/
def State.storeEntries (s : State) (x : Xlate) (pa n : Nat) : List LogEntry :=
  if s.isRemote pa then []
  else
    (s.loggedWords x pa n).map (fun d =>
      .store d (BitVec.ofNat 64 (leNat (s.paRead (s.pathOf s.coreNo s.hart.pid x.cached x.hint) d 8).1)) s.hart.lp.lvt)

/-- The doublewords that such a write to another device logs when its reply comes (13 R325). -/
def State.farWords (s : State) (x : Xlate) (pa n : Nat) : List Nat := if s.isRemote pa then s.loggedWords x pa n else []

/-- The slot's earlier deferred accesses and non-temporal stores that overlap an access are performed first (05 R116). -/
def State.settle (s : State) (pa n : Nat) : State := (s.settleRange s.hid false pa n).settleLine s.hid pa n

/-! ## Scalar accesses (04 R100) -/

/-- Effective address of the MM format (04 R100). -/
def State.eaOf (s : State) (b : BitVec 5) (o : BitVec 11) (z : BitVec 2) : Word :=
  s.hart.getG b + (sext64 o <<< z.toNat)

/-- Bytes of an access of size code `z`. -/
def sizeOf_ (z : BitVec 2) : Nat := 2 ^ z.toNat

/-- A scalar load from local store. -/
def State.scalarLdL (s : State) (d b : BitVec 5) (o : BitVec 11) (z h : BitVec 2) : Result :=
  let ea := s.eaOf b o z
  s.issue Need.access
    (match localCheck ea (sizeOf_ z) with
     | some c => s.raise c ea
     | none =>
       let s1 := (s.beforeAccess false).consumeHart (localBase s.coreNo + ea.toNat) (sizeOf_ z)
       s1.doneG h d (BitVec.ofNat 64 (leNat (s1.localRead ea.toNat (sizeOf_ z)))))

/-- A scalar store to local store. -/
def State.scalarStL (s : State) (d b : BitVec 5) (o : BitVec 11) (z h : BitVec 2) : Result :=
  let ea := s.eaOf b o z
  s.issue Need.access
    (match localCheck ea (sizeOf_ z) with
     | some c => s.raise c ea
     | none => ((s.beforeAccess true).localWrite ea.toNat (natLe (sizeOf_ z) (s.hart.getG d).toNat)).done h id)

/-- The scratchpad request of the executing strand. -/
def State.spReq (s : State) (a : Word) (write : Bool) (f : SpForm) : SpReq :=
  { addr := a, write := write, form := f, pid := s.hart.pid, exec := s.hart.status.exec }

/-- The executing strand's access is held at a bank, behind those held before (04 R85). -/
def State.bankWait (s : State) (h : BitVec 2) (t b : Nat) : State :=
  (s.parkAt h (.bankHeld (16 * t + b))).modBank t b (fun k =>
    { k with held := k.held.filter (fun n => n ≠ s.hart.sid) ++ [s.hart.sid] })

/-- A scratchpad access that meets a switching bank is held until the switch ends and those held before are performed
(04 R85). -/
def State.bankGate (s : State) (h : BitVec 2) (a : Word) (k : State → Result) : Result :=
  match s.bankBusy s.hart.sid a with
  | some (t, b) => .next (s.bankWait h t b)
  | none => k (s.bankPass s.hart.sid a)

/-- Queue a deferred access of the executing strand and complete the instruction (05 R116). -/
def State.deferPend (s : State) (h : BitVec 2) (p : Pend) : Result :=
  s.done h (fun x => { x with pend := x.pend ++ [p] })

/-- A scalar load from scratchpad. A relaxed one, of an owner word too, is performed when it returns; as a branch on its
register waits for it, a later access that the branch guards never precedes it here (05 R137; assumption 86). -/
def State.scalarLdS (s : State) (d b : BitVec 5) (o : BitVec 11) (z : BitVec 2) (r : BitVec 1) (h : BitVec 2) : Result :=
  let ea := s.eaOf b o z
  let n := sizeOf_ z
  s.issue Need.access (s.bankGate h ea (fun s =>
     match s.spCheck (s.spReq ea false (.scalar n)) with
     | .error c => s.raise c ea
     | .ok l =>
       let s1 := s.beforeAccess false
       if s1.isFifo l then s1.fifoAccess h l.tile (fld ea 23 20) (.fifoLd (fld ea 23 20) d)
       else if r = 1 then
         s1.deferPend h { kind := .loadG d, scratch := true, va := none,
                          elems := [{ addr := ea.toNat, len := n, idx := 0, data := 0 }], cacheable := false, hint := 0,
                          hostOrd := false }
       else
         let s2 := s1.settleRange s1.hid true ea.toNat n
         match l with
         | .ctl t k => s2.doneG h d ((s2.tile t).ctlWord k)
         | _ =>
           match (if s2.hart.status.unwr then s2.unwrittenIn ea.toNat n else none) with
           | some w => s2.raise .unwr (BitVec.ofNat 64 w)
           | none => (s2.consumeHart (spBase ea.toNat) n).doneG h d (BitVec.ofNat 64 (leNat (s2.spRead ea.toNat n)))))

/-- A scalar store to scratchpad. -/
def State.scalarStS (s : State) (d b : BitVec 5) (o : BitVec 11) (z : BitVec 2) (r : BitVec 1) (h : BitVec 2) : Result :=
  let ea := s.eaOf b o z
  let n := sizeOf_ z
  let v := s.hart.getG d
  s.issue Need.access (s.bankGate h ea (fun s =>
     match s.spCheck (s.spReq ea true (.scalar n)) with
     | .error c => s.raise c ea
     | .ok l =>
       let s1 := s.beforeAccess true
       if s1.isFifo l then s1.fifoAccess h l.tile (fld ea 23 20) (.fifoSt (fld ea 23 20) v)
       else if r = 1 then
         s1.deferPend h { kind := .store, scratch := true, va := none,
                          elems := [{ addr := ea.toNat, len := n, idx := 0, data := v }], cacheable := false, hint := 0,
                          hostOrd := false }
       else
         let s2 := s1.settleRange s1.hid true ea.toNat n
         match l with
         | .ctl t k => (s2.modTile t (fun x => x.ctlPut k v)).done h id
         | _ => (s2.spWrite ea.toNat (natLe n v.toNat)).done h id))

/-- A load of `n` bytes from a translated address by the executing strand, performed now: local HBM4 through the tile
cache, host memory, or a device register. -/
def State.loadNow (s : State) (x : Xlate) (pa n : Nat) : List Byte × State :=
  ((s.settle pa n).consumeHart pa n).paRead (s.pathOf s.coreNo s.hart.pid x.cached x.hint) pa n

/-- A store to a translated address by the executing strand, performed now. -/
def State.storeNow (s : State) (x : Xlate) (va : Word) (pa : Nat) (bs : List Byte) : State :=
  (s.settle pa bs.length).paWrite (s.pathOf s.coreNo s.hart.pid x.cached x.hint) s.hart.sid va pa bs

/-- Queue a deferred global access at one translated place, once the slot's own non-temporal stores to its bytes have
drained (05 R116). -/
def State.deferGlobal (s : State) (x : Xlate) (kind : PendKind) (va : Word) (n : Nat) (elems : List PendElem)
    (plain : Bool := false) : State :=
  (s.settleLine s.hid x.pa n).modHart (fun y =>
    { y with pend := y.pend ++
        [{ kind := kind, scratch := false, va := some va, elems := elems, cacheable := x.cached, hint := x.hint,
           hostOrd := (match kind with | .store => x.hostOrd && decide (s.region x.pa = .host) | _ => false), plain := plain }] })

/-- A scalar load from global memory. -/
def State.scalarLdG (s : State) (d b : BitVec 5) (o : BitVec 11) (z : BitVec 2) (r : BitVec 1) (h : BitVec 2) : Result :=
  let ea := s.eaOf b o z
  let n := sizeOf_ z
  s.issue Need.access
    (match s.globalCheck ea n .read with
     | (.error c, s1) => s1.raise c ea
     | (.ok x, s0) =>
       s0.remoteGate h x ea n (r = 1)
         (let s1 := s0.beforeAccess false
          match s1.region x.pa with
          | .remote dev off =>
            (s1.sendRemote dev off n ea .load [] (.loadG d) (wholeReply n 0) (r = 1) []).awaitRemote h (r = 1)
          | _ =>
            if r = 1 then
              (s1.deferGlobal x (.loadG d) ea n [{ addr := x.pa, len := n, idx := 0, data := 0 }]).done h id
            else
              let (bs, s2) := s1.loadNow x x.pa n
              s2.doneG h d (BitVec.ofNat 64 (leNat bs))))

/-- A global store is performed later: a relaxed one, and any to a host page without host-order, which may be sent after
later stores of the slot, but before its next other access (05 R113, R116, R128; assumption 96). -/
def State.storeLater (s : State) (x : Xlate) (relaxed : Bool) : Bool :=
  relaxed || (decide (s.region x.pa = .host) && !x.hostOrd)

/-- The pieces of at most 8 bytes, aligned as the whole, in which a deferred store of bytes is kept; `w` divides their
number. -/
def pieces (pa w idx : Nat) (bs : List Byte) : List PendElem :=
  (List.range (bs.length / w)).map (fun k =>
    { addr := pa + w * k, len := w, idx := idx + k, data := BitVec.ofNat 64 (leNat ((bs.drop (w * k)).take w)) })

/-- A global store of bytes by the executing strand at one translated place, with its local log entries already made:
remote, performed later, or now; before one to a host-order page the earlier ones are sent (05 R128). -/
def State.putPlace (s : State) (x : Xlate) (va : Word) (w idx : Nat) (bs : List Byte) (relaxed : Bool) : State :=
  match s.region x.pa with
  | .remote dev off => s.sendRemote dev off bs.length va .store bs .store [] relaxed (s.farWords x x.pa bs.length)
  | .host =>
    if s.storeLater x relaxed then s.deferGlobal x .store va bs.length (pieces x.pa w idx bs) (!relaxed)
    else (s.settleIf s.hid (fun p => p.hostOrd)).storeNow x va x.pa bs
  | _ =>
    if relaxed then s.deferGlobal x .store va bs.length (pieces x.pa w idx bs) else s.storeNow x va x.pa bs

/-- The strand's store is out: a plain one to another device waits for its reply. -/
def State.putDone (s : State) (far relaxed : Bool) (h : BitVec 2) : Result :=
  if far && !relaxed then s.awaitRemote h false else s.done h id

/-- A scalar store of bytes at one translated place. -/
def State.putOut (s : State) (x : Xlate) (va : Word) (bs : List Byte) (relaxed : Bool) (h : BitVec 2) : Result :=
  (s.putPlace x va (Nat.min 8 bs.length) 0 bs relaxed).putDone (s.isRemote x.pa) relaxed h

/-- A scalar store to global memory. -/
def State.scalarStG (s : State) (d b : BitVec 5) (o : BitVec 11) (z : BitVec 2) (r : BitVec 1) (h : BitVec 2) : Result :=
  let ea := s.eaOf b o z
  let n := sizeOf_ z
  let bs := natLe n (s.hart.getG d).toNat
  s.issue Need.access
    (match s.globalCheck ea n .write with
     | (.error c, s1) => s1.raise c ea
     | (.ok x, s0) =>
       if s0.optstAt x then s0.raise .optst 0
       else
         s0.remoteGate h x ea n (r = 1)
           (let s1 := s0.beforeStore [x.pa]
            s1.logThenFar h (s1.storeEntries x x.pa n) (s1.farWords x x.pa n).length (fun s2 => s2.putOut x ea bs (r = 1) h)))

/-- A non-temporal store of bytes at one translated place enters its write-combining buffer, after the slot's deferred
accesses to its bytes (04 R104; 05 R116). A logical process in a handler sends one to a timed page of another device at
once, so that the reply brings the old bytes for its log (13 R325; assumption 87). -/
def State.ntPlace (s : State) (x : Xlate) (va : Word) (bs : List Byte) : State :=
  let s1 := s.settleRange s.hid false x.pa bs.length
  match s1.region x.pa, s1.farWords x x.pa bs.length with
  | .remote dev off, l@(_ :: _) => s1.sendRemote dev off bs.length va .store bs .store [] true l
  | _, _ => s1.wcStore s1.coreNo s1.hart.sid s1.hart.pid va x.pa bs

/-- A non-temporal scalar store (04 R104). -/
def State.scalarNt (s : State) (a b : BitVec 5) (n : Nat) (h : BitVec 2) : Result :=
  let ea := s.hart.getG a
  let bs := natLe n (s.hart.getG b).toNat
  s.issue Need.access
    (match s.globalCheck ea n .write with
     | (.error c, s1) => s1.raise c ea
     | (.ok x, s0) =>
       if s0.optstAt x then s0.raise .optst 0
       else
         s0.remoteGate h x ea n true
           (let s1 := s0.beforeStore [x.pa]
            s1.logThenFar h (s1.storeEntries x x.pa n) (s1.farWords x x.pa n).length (fun s2 =>
              (s2.ntPlace x ea bs).done h id)))

/-! ## Vector accesses (04 R102, R103) -/

/-- The active elements of a mask under VSHAPE. -/
def Slot.active (x : Slot) (p : BitVec 3) : List Nat := (List.range x.lanes).filter (fun i => (x.getP p).getLsbD i)

/-- Element width in bytes. -/
def Slot.wb (x : Slot) : Nat := 2 ^ x.vw.toNat

/-- Element `i` of a register at a width of `w` bits. -/
def vElem (v : VReg) (w i : Nat) : Nat := v.toNat / 2 ^ (w * i) % 2 ^ w

/-- Replace element `i` of a register at a width of `w` bits. -/
def vSetElem (v : VReg) (w i e : Nat) : VReg :=
  (v &&& ~~~(BitVec.ofNat 2048 ((2 ^ w - 1) * 2 ^ (w * i)))) ||| BitVec.ofNat 2048 (e % 2 ^ w * 2 ^ (w * i))

/-- Merge the elements of `new` at the active indices into `old`. -/
def vMerge (old new : VReg) (wb : Nat) (l : List Nat) : VReg :=
  l.foldl (fun v i => vPut v (wb * i) (vBytes new (wb * i) wb)) old

/-- A contiguous vector load from local store. -/
def State.vecLdL (s : State) (v a b : BitVec 5) (p : BitVec 3) (h : BitVec 2) : Result :=
  let ea := s.hart.getG a + s.hart.getG b
  s.issue { Need.access with vs := [v] }
    (if (s.hart.active p).isEmpty then s.done h id
     else match localCheck ea 256 with
     | some c => s.raise c ea
     | none =>
       let s1 := (s.beforeAccess false).consumeHart (localBase s.coreNo + ea.toNat) 256
       let new := bytesV (s1.localRead ea.toNat 256)
       s1.done h (fun x => x.setV v (vMerge (x.getV v) new x.wb (x.active p))))

/-- A contiguous vector store to local store. -/
def State.vecStL (s : State) (v a b : BitVec 5) (p : BitVec 3) (h : BitVec 2) : Result :=
  let ea := s.hart.getG a + s.hart.getG b
  let x := s.hart
  s.issue { Need.access with vs := [v] }
    (if (x.active p).isEmpty then s.done h id
     else match localCheck ea 256 with
     | some c => s.raise c ea
     | none =>
       ((x.active p).foldl (fun (t : State) i => t.localWrite (ea.toNat + x.wb * i) (vBytes (x.getV v) (x.wb * i) x.wb))
         (s.beforeAccess true)).done h id)

/-- The elements of a contiguous access at a flat address. -/
def Slot.elemsAt (x : Slot) (l : List Nat) (base : Nat) (v : VReg) : List PendElem :=
  l.map (fun i => { addr := base + x.wb * i, len := x.wb, idx := i, data := BitVec.ofNat 64 (vElem v (8 * x.wb) i) })

/-- The first never-written word that the elements of a read touch, under UNWR (15 R403). -/
def State.unwrElems (s : State) (l : List PendElem) : Option Nat :=
  if s.hart.status.unwr then l.findSome? (fun e => s.unwrittenIn e.addr e.len) else none

/-- Land scratchpad bytes of elements in a vector register of the executing slot. -/
def State.landScratch (s : State) (v : BitVec 5) (l : List PendElem) : State :=
  (l.foldl (fun (t : State) e => t.consumeHart (spBase e.addr) e.len) s).modHart (fun x =>
    x.setV v (l.foldl (fun r e => vPut r (x.wb * e.idx) (s.spRead e.addr e.len)) (x.getV v)))

/-- A contiguous vector load from scratchpad. -/
def State.vecLdS (s : State) (v a b : BitVec 5) (p : BitVec 3) (r : BitVec 1) (h : BitVec 2) : Result :=
  let ea := s.hart.getG a + s.hart.getG b
  s.issue { Need.access with vs := [v] }
    (if (s.hart.active p).isEmpty then s.done h id
     else s.bankGate h ea (fun s =>
        match s.spCheck (s.spReq ea false (.vector (p = 0))) with
        | .error c => s.raise c ea
        | .ok l =>
          let s1 := s.beforeAccess false
          let el := s1.hart.elemsAt (s1.hart.active p) ea.toNat 0
          if s1.isFifo l then s1.fifoAccess h l.tile (fld ea 23 20) (.fifoVld (fld ea 23 20) (physV s1.hart.vwin v))
          else if r = 1 then
            s1.deferPend h { kind := .loadV (physV s1.hart.vwin v) s1.hart.wb, scratch := true, va := some ea, elems := el,
                             cacheable := false, hint := 0, hostOrd := false }
          else
            let s2 := s1.settleRange s1.hid true ea.toNat 256
            match s2.unwrElems el with
            | some w => s2.raise .unwr (BitVec.ofNat 64 w)
            | none => (s2.landScratch v el).done h id))

/-- A contiguous vector store to scratchpad. -/
def State.vecStS (s : State) (v a b : BitVec 5) (p : BitVec 3) (r : BitVec 1) (h : BitVec 2) : Result :=
  let ea := s.hart.getG a + s.hart.getG b
  s.issue { Need.access with vs := [v] }
    (if (s.hart.active p).isEmpty then s.done h id
     else s.bankGate h ea (fun s =>
        match s.spCheck (s.spReq ea true (.vector (p = 0))) with
        | .error c => s.raise c ea
        | .ok l =>
          let s1 := s.beforeAccess true
          let el := s1.hart.elemsAt (s1.hart.active p) ea.toNat (s1.hart.getV v)
          if s1.isFifo l then s1.fifoAccess h l.tile (fld ea 23 20) (.fifoVst (fld ea 23 20) (s1.hart.getV v))
          else if r = 1 then
            s1.deferPend h { kind := .store, scratch := true, va := some ea, elems := el, cacheable := false, hint := 0,
                             hostOrd := false }
          else
            (el.foldl (fun (t : State) e => t.spWrite e.addr (natLe e.len e.data.toNat))
              (s1.settleRange s1.hid true ea.toNat 256)).done h id))

/-- A contiguous vector load from global memory. -/
def State.vecLdG (s : State) (v a b : BitVec 5) (p : BitVec 3) (r : BitVec 1) (h : BitVec 2) : Result :=
  let ea := s.hart.getG a + s.hart.getG b
  s.issue { Need.access with vs := [v] }
    (if (s.hart.active p).isEmpty then s.done h id
     else match s.globalCheck ea 256 .read with
     | (.error c, s1) => s1.raise c ea
     | (.ok x, s0) =>
       s0.remoteGate h x ea 256 (r = 1)
         (let s1 := s0.beforeAccess false
          let el := s1.hart.elemsAt (s1.hart.active p) x.pa 0
          let k : PendKind := .loadV (physV s1.hart.vwin v) s1.hart.wb
          match s1.region x.pa with
          | .remote dev off =>
            (s1.sendRemote dev off 256 ea .load [] k (s1.hart.elemsAt (s1.hart.active p) 0 0) (r = 1) []).awaitRemote h (r = 1)
          | _ =>
            if r = 1 then (s1.deferGlobal x k ea 256 el).done h id
            else
              let (bs, s2) := s1.loadNow x x.pa 256
              s2.done h (fun y => y.setV v (vMerge (y.getV v) (bytesV bs) y.wb (y.active p)))))

/-- A place of a vector access: its first element, how many bytes it takes, virtual address and translation. A contiguous
store has one for each run of active elements, a gather or scatter one for each element. -/
structure VPlace where
  idx : Nat
  len : Nat
  va  : Word
  x   : Xlate
  deriving DecidableEq, Repr

/-- The runs of consecutive numbers of a rising list, as first number and length. -/
def runsOf : List Nat → List (Nat × Nat)
  | [] => []
  | i :: r =>
    match runsOf r with
    | (j, c) :: t => if j = i + 1 then (i, c + 1) :: t else (i, 1) :: (j, c) :: t
    | [] => [(i, 1)]

/-- The places of a contiguous store. -/
def Slot.runPlaces (y : Slot) (ea : Word) (x : Xlate) (l : List Nat) : List VPlace :=
  (runsOf l).map (fun e =>
    { idx := e.1, len := y.wb * e.2, va := ea + BitVec.ofNat 64 (y.wb * e.1), x := { x with pa := x.pa + y.wb * e.1 } })

/-- The checks of every place of a vector access that may be remote, in index order. -/
def State.remoteGates (s : State) (h : BitVec 2) (relaxed : Bool) (k : Result) : List VPlace → Result
  | [] => k
  | e :: r => s.remoteGate h e.x e.va e.len relaxed (s.remoteGates h relaxed k r)

/-- One place of a global vector store, in the form the instruction has: non-temporal, relaxed, remote, or performed now
(04 R103, R104). -/
def State.vecPlace (s : State) (e : VPlace) (v : VReg) (relaxed nt : Bool) : State :=
  let bs := vBytes v (s.hart.wb * e.idx) e.len
  if nt then s.ntPlace e.x e.va bs else s.putPlace e.x e.va s.hart.wb e.idx bs relaxed

/-- Store the places of a global vector store, in ascending index. -/
def State.vecPut (s : State) (l : List VPlace) (v : VReg) (relaxed nt : Bool) (h : BitVec 2) : Result :=
  (l.foldl (fun (t : State) e => t.vecPlace e v relaxed nt) s).putDone (l.any (fun e => s.isRemote e.x.pa)) (relaxed || nt) h

/-- STORE entries of the places of a vector store of the executing LP, one for each doubleword an access touches: a
contiguous store is one access, a scatter one for each element (13 R325). -/
def State.vecEntries (s : State) (l : List VPlace) (contiguous : Bool) : List LogEntry :=
  let all := l.flatMap (fun e => s.storeEntries e.x e.x.pa e.len)
  if contiguous then
    all.foldl (fun acc e => if acc.contains e then acc else acc ++ [e]) []
  else all

/-- How many entries the replies to the remote places of a vector store will bring. -/
def State.vecFar (s : State) (l : List VPlace) : Nat := l.foldl (fun n e => n + (s.farWords e.x e.x.pa e.len).length) 0

/-- A contiguous vector store to global memory; `t` = 1 is the non-temporal form. -/
def State.vecStG (s : State) (v a b : BitVec 5) (p : BitVec 3) (r t : BitVec 1) (h : BitVec 2) : Result :=
  let ea := s.hart.getG a + s.hart.getG b
  s.issue { Need.access with vs := [v] }
    (if (s.hart.active p).isEmpty then s.done h id
     else match s.globalCheck ea 256 .write with
     | (.error c, s1) => s1.raise c ea
     | (.ok x, s0) =>
       if s0.optstAt x then s0.raise .optst 0
       else
         s0.remoteGate h x ea 256 (r = 1 || t = 1)
           (let s1 := s0.beforeStore [x.pa]
            let l := s1.hart.runPlaces ea x (s1.hart.active p)
            s1.logThenFar h (s1.vecEntries l true) (s1.vecFar l) (fun s2 =>
              s2.vecPut l (s2.hart.getV v) (r = 1) (t = 1) h)))

/-- Address of a gathered element: ga + Sext(vb element i) (04 R102). -/
def Slot.gatherAddr (x : Slot) (a b : BitVec 5) (i : Nat) : Word :=
  x.getG a + BitVec.ofInt 64 (toSigned x.ew (vElem (x.getV b) x.ew i))

/-- The first faulting element of a scratchpad gather or scatter, in the order of 04 R109 (04 R103). -/
def State.gatherCheckS (s : State) (a b : BitVec 5) (write : Bool) : List Nat → Option (Cause × Word)
  | [] => none
  | i :: r =>
    let ea := s.hart.gatherAddr a b i
    match s.spCheck (s.spReq ea write (.element s.hart.wb)) with
    | .error c => some (c, ea)
    | .ok _ => s.gatherCheckS a b write r

/-- A bank that one of the elements names and that holds the access (04 R85). -/
def State.gatherGate (s : State) (a b : BitVec 5) (l : List Nat) : Option (Nat × Nat) :=
  l.findSome? (fun i => s.bankBusy s.hart.sid (s.hart.gatherAddr a b i))

/-- No bank that the elements name holds the access any longer. -/
def State.gatherPass (s : State) (a b : BitVec 5) (l : List Nat) : State :=
  l.foldl (fun (t : State) i => t.bankPass s.hart.sid (s.hart.gatherAddr a b i)) s

/-- The elements of a scratchpad gather or scatter. -/
def Slot.gatherElems (x : Slot) (a b : BitVec 5) (l : List Nat) (v : VReg) : List PendElem :=
  l.map (fun i => { addr := (x.gatherAddr a b i).toNat, len := x.wb, idx := i,
                    data := BitVec.ofNat 64 (vElem v (8 * x.wb) i) })

/-- The slot's deferred accesses that overlap one of the elements are performed first (05 R116 item 1). -/
def State.settleElems (s : State) (l : List PendElem) : State :=
  s.settleIf s.hid (fun p => l.any (fun e => p.touches true e.addr e.len))

/-- A gather from scratchpad. -/
def State.gatherS (s : State) (v a b : BitVec 5) (p : BitVec 3) (r : BitVec 1) (h : BitVec 2) : Result :=
  let l := s.hart.active p
  s.issue { Need.access with vs := [v, b] }
    (match s.gatherGate a b l with
     | some (t, k) => .next (s.bankWait h t k)
     | none =>
       let s := s.gatherPass a b l
       match s.gatherCheckS a b false l with
       | some (c, ea) => s.raise c ea
       | none =>
         if l.isEmpty then s.done h id
         else
           let s1 := s.beforeAccess false
           let el := s1.hart.gatherElems a b l 0
           if r = 1 then
             s1.deferPend h { kind := .loadV (physV s1.hart.vwin v) s1.hart.wb, scratch := true, va := none, elems := el,
                              cacheable := false, hint := 0, hostOrd := false }
           else
             let s2 := s1.settleElems el
             match s2.unwrElems el with
             | some w => s2.raise .unwr (BitVec.ofNat 64 w)
             | none => (s2.landScratch v el).done h id)

/-- A scatter to scratchpad, in ascending index. -/
def State.scatterS (s : State) (v a b : BitVec 5) (p : BitVec 3) (r : BitVec 1) (h : BitVec 2) : Result :=
  let l := s.hart.active p
  s.issue { Need.access with vs := [v, b] }
    (match s.gatherGate a b l with
     | some (t, k) => .next (s.bankWait h t k)
     | none =>
       let s := s.gatherPass a b l
       match s.gatherCheckS a b true l with
       | some (c, ea) => s.raise c ea
       | none =>
         if l.isEmpty then s.done h id
         else
           let s1 := s.beforeAccess true
           let el := s1.hart.gatherElems a b l (s1.hart.getV v)
           if r = 1 then
             s1.deferPend h { kind := .store, scratch := true, va := none, elems := el, cacheable := false, hint := 0,
                              hostOrd := false }
           else
             (el.foldl (fun (t : State) e => t.spWrite e.addr (natLe e.len e.data.toNat)) (s1.settleElems el)).done h id)

/-- Translate the elements of a global gather or scatter: the first fault in index order, XVAL holding the element's address
whatever its cause, or every place (04 R103). -/
def State.gatherPlaces (s : State) (a b : BitVec 5) (acc : Acc) : List Nat → Except (Cause × Word) (List VPlace) × State
  | [] => (.ok [], s)
  | i :: r =>
    let ea := s.hart.gatherAddr a b i
    match s.globalCheck ea s.hart.wb acc with
    | (.error c, s1) => (.error (c, ea), s1)
    | (.ok x, s1) =>
      if acc = .write && s1.optstAt x then (.error (.optst, ea), s1)
      else
        match s1.gatherPlaces a b acc r with
        | (.error e, s2) => (.error e, s2)
        | (.ok l, s2) => (.ok ({ idx := i, len := s.hart.wb, va := ea, x := x } :: l), s2)

/-- A gather from global memory. -/
def State.gatherG (s : State) (v a b : BitVec 5) (p : BitVec 3) (r : BitVec 1) (h : BitVec 2) : Result :=
  let l := s.hart.active p
  s.issue { Need.access with vs := [v, b] }
    (match s.gatherPlaces a b .read l with
     | (.error (c, ea), s1) => s1.raise c ea
     | (.ok pl, s0) =>
       if pl.isEmpty then s0.done h id
       else s0.remoteGates h (decide (r = 1))
         (let s1 := s0.beforeAccess false
         let wb := s1.hart.wb
         let k : PendKind := .loadV (physV s1.hart.vwin v) wb
         let relaxed := decide (r = 1)
         let far := pl.any (fun e => s1.isRemote e.x.pa)
         -- every offset is read before any element is written (08 R186)
         let step1 (t : State × VReg) (e : VPlace) : State × VReg :=
           match t.1.region e.x.pa with
           | .remote dev off => (t.1.sendRemote dev off wb e.va .load [] k (wholeReply wb e.idx) relaxed [], t.2)
           | _ =>
             if relaxed then
               (t.1.deferGlobal e.x k e.va wb [{ addr := e.x.pa, len := wb, idx := e.idx, data := 0 }], t.2)
             else
               let (bs, t1) := t.1.loadNow e.x e.x.pa wb
               if far && !relaxed then (t1.heldRead e.va bs k e.idx, t.2) else (t1, vPut t.2 (wb * e.idx) bs)
         let (s2, nv) := pl.foldl step1 (s1, s1.hart.getV v)
         let s3 := s2.modHart (fun y => y.setV v nv)
         if far then s3.awaitRemote h relaxed
         else s3.done h id) pl)

/-- A scatter to global memory; `t` = 1 is the non-temporal form. -/
def State.scatterG (s : State) (v a b : BitVec 5) (p : BitVec 3) (r t : BitVec 1) (h : BitVec 2) : Result :=
  let l := s.hart.active p
  s.issue { Need.access with vs := [v, b] }
    (match s.gatherPlaces a b .write l with
     | (.error (c, ea), s1) => s1.raise c ea
     | (.ok pl, s0) =>
       if pl.isEmpty then s0.done h id
       else
         s0.remoteGates h (r = 1 || t = 1)
           (let s1 := s0.beforeStore (pl.map (fun e => e.x.pa))
            s1.logThenFar h (s1.vecEntries pl false) (s1.vecFar pl) (fun s2 =>
              s2.vecPut pl (s2.hart.getV v) (r = 1) (t = 1) h)) pl)

end Sys2Proof.Machine
end

