-- ==== Sys2Proof/Machine/Flags.lean ====
section
/-!
DEFINITION. Results with flags: scalar floating point into FXF (03 R54, R61 to R66) and saturating sums (03 R59).
-/

namespace Sys2Proof.Machine

/-- A value and its flags go to gd and FXF, and the instruction of `len` bytes completes. -/
def State.doneFlags (s : State) (len : Nat) (h : BitVec 2) (d : BitVec 5) (v : Word) (fl : BitVec 6) : Result :=
  .next (s.modHart (fun x => ((x.orFxf fl).setG d v).finish len h))

/-- A scalar FP32 result, rounded once under `rm` and written as Zext(result, 64) (03 R61, R62). -/
def State.doneFp (s : State) (len : Nat) (h : BitVec 2) (d : BitVec 5) (rm : Nat) (r : FRes) : Result :=
  s.doneFlags len h d (BitVec.ofNat 64 (f32 rm r).1) (f32 rm r).2

/-- The FP32 operand in bits [31:0] of a g register (03 R61). -/
def Slot.getF (x : Slot) (n : BitVec 5) : FVal := d32 (x.getW n).toNat

/-- An exact sum or difference clamped to the 64-bit signed or unsigned range, with SAT where it was clamped (03 R59). -/
def satResult (signed : Bool) (v : Int) : Word × BitVec 6 :=
  let r := clampInt 64 signed v
  (BitVec.ofInt 64 r.1, r.2)

/-- An unsigned value as an integer. -/
def uInt {n : Nat} (x : BitVec n) : Int := (x.toNat : Int)

end Sys2Proof.Machine
end

