-- ==== Sys2Proof/Machine/Operands.lean ====
section
/-!
DEFINITION. Operand forms beyond registers: immediates (02 R28; 03 R60), constant-bank words and literals (03 R68, R69),
and the elements of vector registers under VSHAPE and a lane mask (08 R181, R186, R187).
-/

namespace Sys2Proof.Machine

/-- A 32-bit constant as a sign-extended word (03 R69). -/
def sextK (k : BitVec 32) : Word := k.signExtend 64

/-- A 32-bit constant as a zero-extended word (03 R69). -/
def zextK (k : BitVec 32) : Word := k.setWidth 64

/-- The shift count of an immediate form: n[5] and n[4:0] (03 R57). -/
def immCount (n : BitVec 5) (m : BitVec 1) : Nat := 32 * m.toNat + n.toNat

/-- Target of a CB branch: PC + 4 * Sext(off) (03 R70). -/
def State.cbTarget (s : State) (off : BitVec 14) : Word := s.hart.pc + (sext64 off <<< 2)

/-- Target of an LB transfer (03 R71). -/
def State.lbTarget (s : State) (off : BitVec 19) : Word := s.hart.pc + (sext64 off <<< 2)

/-- Replace the active elements of `old` by `f`, which reads the inputs as they were, and OR their flags (08 R186). -/
def vMap (l : List Nat) (w : Nat) (old : VReg) (f : Nat → Nat × BitVec 6) : VReg × BitVec 6 :=
  l.foldl (fun acc i => (vSetElem acc.1 w i (f i).1, acc.2 ||| (f i).2)) (old, 0)

/-- An element-wise instruction: the active elements of vd become `f i`, VXF takes the flags (08 R186, R187). -/
def State.vecMap (s : State) (h : BitVec 2) (v : BitVec 5) (p : BitVec 3) (f : Nat → Nat × BitVec 6) : Result :=
  s.done h (fun x =>
    let r := vMap (x.active p) x.ew (x.getV v) f
    (x.orVxf r.2).setV v r.1)

/-- Element `i` of the register a name means, under VSHAPE. -/
def Slot.el (x : Slot) (n : BitVec 5) (i : Nat) : Nat := vElem (x.getV n) x.ew i

/-- The float element format under VSHAPE and FMT (08 R185). -/
def Slot.elt (x : Slot) : Option Elt := eltOf x.ew x.fmt

/-- A floating-point element-wise instruction: FMTW at width 64 (08 R185, R206). -/
def State.vecFp (s : State) (h : BitVec 2) (v : BitVec 5) (p : BitVec 3) (f : Elt → Nat → Nat × BitVec 6) : Result :=
  match s.hart.elt with
  | none => s.raise .fmtw 0
  | some e => s.vecMap h v p (f e)

/-- A mask from a predicate on indices below `n`. -/
def maskOf (n : Nat) (f : Nat → Bool) : Mask :=
  (List.range n).foldl (fun m i => if f i then m ||| ((1 : Mask) <<< i) else m) 0

end Sys2Proof.Machine
end

