-- ==== Sys2Proof/Machine/Ordering.lean ====
section
/-!
DEFINITION. Ordering instructions (05 R117, R118, R122).
-/

namespace Sys2Proof.Machine

/-- An ordering instruction: an earlier one still waiting completes first, then this one waits and holds (05 R118). -/
def State.order (s : State) (h : BitVec 2) (o : Ordering) : Result :=
  s.issue Need.any ((s.orderingDone s.hid).done h (fun x => { x with ordr := some o }))

/-- `fence` (05 R118). -/
def execFence (sc : BitVec 3) (h : BitVec 2) (s : State) : Result := s.order h { kind := 0, scope := sc, mask := 0 }

/-- `rel` (05 R118). -/
def execRel (sc : BitVec 3) (h : BitVec 2) (s : State) : Result := s.order h { kind := 1, scope := sc, mask := 0 }

/-- `acq` (05 R118). -/
def execAcq (m : BitVec 2) (sc : BitVec 3) (h : BitVec 2) (s : State) : Result :=
  s.order h { kind := 2, scope := sc, mask := m }

/-- Remote accesses of a strand that an ordering instruction still waits for: those that return a value, and at scope
chassis or wider, unless it is an `acq`, every store (05 R118). -/
def State.orderWaits (s : State) (sid : Nat) (o : Ordering) : Bool :=
  s.remote.any (fun r => decide (r.strand = sid) &&
    (match r.kind with
     | .load => true
     | .amo _ _ isRed => !isRed || (decide (6 ≤ o.scope.toNat) && decide (o.kind ≠ 2))
     | .store => decide (6 ≤ o.scope.toNat) && decide (o.kind ≠ 2)))

/-- ROUTE.HOLD keeps an ordering instruction of slot `n` from draining the slot's write-combining buffers (04 R92, R104;
05 R118). -/
def State.drainHeld (s : State) (n : Nat) (o : Ordering) : Bool :=
  (s.core (n / 16)).hold && decide (5 ≤ o.scope.toNat) && decide (o.kind ≠ 2) &&
    (s.core (n / 16)).wc.any (fun b => decide (b.strand = (s.slotAt n).sid))

/-- An ordering instruction awaits the acknowledgements of non-temporal stores to other devices that slot `n` still has in
write-combining buffers (05 R118). -/
def State.orderSends (s : State) (n : Nat) (o : Ordering) : Bool :=
  decide (6 ≤ o.scope.toNat) && decide (o.kind ≠ 2) && s.farBuffered (n / 16) (s.slotAt n).sid

/-- The actions of an ordering instruction are not complete (05 R118). -/
def State.orderOpen (s : State) (n : Nat) (o : Ordering) : Bool :=
  s.orderWaits (s.slotAt n).sid o || s.drainHeld n o || s.orderSends n o

/-- The actions of an ordering instruction are complete (05 R118). -/
def execOrderingActionsDone (slot : Nat) (s : State) : Result :=
  match (s.slotAt slot).ordr with
  | none => .next s
  | some o =>
    if s.orderSends slot o then .next (s.sendBuffers slot)
    else if s.orderOpen slot o then .next s
    else .next (s.orderingDone slot)

end Sys2Proof.Machine
end

