-- ==== Sys2Proof/Machine/Memory.lean ====
section
/-!
DEFINITION. Memory instructions (04 R100 to R106): loads, stores, gathers and scatters in each space, non-temporal stores,
prefetch, cache-line operations, and bank-mode switching (04 R85); with the events of 04 that perform them.
-/

namespace Sys2Proof.Machine

/-- `ld.l` (04 R100). -/
def execLdL (d b : BitVec 5) (o : BitVec 11) (z h : BitVec 2) (s : State) : Result := s.scalarLdL d b o z h

/-- `st.l` (04 R100). -/
def execStL (d b : BitVec 5) (o : BitVec 11) (z h : BitVec 2) (s : State) : Result := s.scalarStL d b o z h

/-- `ld.s` (04 R100). -/
def execLdS (d b : BitVec 5) (o : BitVec 11) (z : BitVec 2) (r : BitVec 1) (h : BitVec 2) (s : State) : Result :=
  s.scalarLdS d b o z r h

/-- `st.s` (04 R100). -/
def execStS (d b : BitVec 5) (o : BitVec 11) (z : BitVec 2) (r : BitVec 1) (h : BitVec 2) (s : State) : Result :=
  s.scalarStS d b o z r h

/-- `ld.g` (04 R100). -/
def execLdG (d b : BitVec 5) (o : BitVec 11) (z : BitVec 2) (r : BitVec 1) (h : BitVec 2) (s : State) : Result :=
  s.scalarLdG d b o z r h

/-- `st.g` (04 R100). -/
def execStG (d b : BitVec 5) (o : BitVec 11) (z : BitVec 2) (r : BitVec 1) (h : BitVec 2) (s : State) : Result :=
  s.scalarStG d b o z r h

/-- `vld.l` (04 R102). -/
def execVldL (v a b : BitVec 5) (p : BitVec 3) (h : BitVec 2) (s : State) : Result := s.vecLdL v a b p h

/-- `vst.l` (04 R102). -/
def execVstL (v a b : BitVec 5) (p : BitVec 3) (h : BitVec 2) (s : State) : Result := s.vecStL v a b p h

/-- `vld.s` (04 R102). -/
def execVldS (v a b : BitVec 5) (p : BitVec 3) (r : BitVec 1) (h : BitVec 2) (s : State) : Result := s.vecLdS v a b p r h

/-- `vst.s` (04 R102). -/
def execVstS (v a b : BitVec 5) (p : BitVec 3) (r : BitVec 1) (h : BitVec 2) (s : State) : Result := s.vecStS v a b p r h

/-- `vld.g` (04 R102). -/
def execVldG (v a b : BitVec 5) (p : BitVec 3) (r : BitVec 1) (h : BitVec 2) (s : State) : Result := s.vecLdG v a b p r h

/-- `vst.g` and `vst.g.nt` (04 R102, R104). -/
def execVstG (v a b : BitVec 5) (p : BitVec 3) (r t : BitVec 1) (h : BitVec 2) (s : State) : Result :=
  s.vecStG v a b p r t h

/-- `vgth.s` (04 R102). -/
def execVgthS (v a b : BitVec 5) (p : BitVec 3) (r : BitVec 1) (h : BitVec 2) (s : State) : Result := s.gatherS v a b p r h

/-- `vsct.s` (04 R102). -/
def execVsctS (v a b : BitVec 5) (p : BitVec 3) (r : BitVec 1) (h : BitVec 2) (s : State) : Result := s.scatterS v a b p r h

/-- `vgth.g` (04 R102). -/
def execVgthG (v a b : BitVec 5) (p : BitVec 3) (r : BitVec 1) (h : BitVec 2) (s : State) : Result := s.gatherG v a b p r h

/-- `vsct.g` and `vsct.g.nt` (04 R102, R104). -/
def execVsctG (v a b : BitVec 5) (p : BitVec 3) (r t : BitVec 1) (h : BitVec 2) (s : State) : Result :=
  s.scatterG v a b p r t h

/-- `st.g.b.nt` (04 R104). -/
def execStGBNt (a b : BitVec 5) (h : BitVec 2) (s : State) : Result := s.scalarNt a b 1 h

/-- `st.g.h.nt` (04 R104). -/
def execStGHNt (a b : BitVec 5) (h : BitVec 2) (s : State) : Result := s.scalarNt a b 2 h

/-- `st.g.w.nt` (04 R104). -/
def execStGWNt (a b : BitVec 5) (h : BitVec 2) (s : State) : Result := s.scalarNt a b 4 h

/-- `st.g.d.nt` (04 R104). -/
def execStGDNt (a b : BitVec 5) (h : BitVec 2) (s : State) : Result := s.scalarNt a b 8 h

/-! ## Prefetch and cache-line operations (04 R105, R106) -/

/-- `pf.g` (04 R105): the request waits for its fill; one that would fault, or names a host, register or remote address,
does nothing. It takes no
part in ordering and is no access of a logical process (13 R323). -/
def execPfG (a b : BitVec 5) (h : BitVec 2) (s : State) : Result :=
  s.issue Need.any
    (match s.translate (slotQuad s.hid) s.hart.pid s.hart.status.exec (s.hart.getG a + s.hart.getG b) .read with
     | (.error _, s1) => s1.done h id
     | (.ok x, s1) =>
       if s1.region x.pa = .hbm && !x.far then
         ({ s1 with prefetch := s1.prefetch ++
             [{ tile := (s1.pathOf s1.coreNo s1.hart.pid x.cached x.hint).tile, line := x.pa / 256, pid := s1.hart.pid,
                hint := x.hint }] } : State).done h id
       else s1.done h id)

/-- The fill of a prefetch: every sector of the line, into the tile cache where the request goes there and the page is not
a bypass page (04 R90, R105). -/
def State.fillPrefetch (s : State) (p : Prefetch) : State :=
  match p.tile with
  | none => s
  | some t =>
    if p.hint = 3 || !(s.tile t).hasCache then s
    else (List.range 4).foldl (fun (c : State) k => c.fillSector t p.pid p.hint p.line k) s

/-- A prefetch fill arrives (04 R105). -/
def execPrefetchFill (idx : Nat) (s : State) : Result :=
  match s.prefetch[idx]? with
  | none => .next s
  | some p => .next (({ s with prefetch := s.prefetch.eraseIdx idx } : State).fillPrefetch p)

/-- Invalidate one line of a tile without writing it back (04 R106). -/
def State.discardLine (s : State) (t line : Nat) : State := s.modTile t (fun k => k.dropLine line)

/-- A cache-line operation on the executing tile (04 R106): translation, then `f` on the line's tile and number if the line
is in the cache. -/
def State.cacheOp (s : State) (a : BitVec 5) (acc : Acc) (h : BitVec 2) (f : State → Xlate → Nat → Nat → State) : Result :=
  let ea := s.hart.getG a
  s.issue Need.access
    (match s.translate (slotQuad s.hid) s.hart.pid s.hart.status.exec ea acc with
     | (.error c, s1) => s1.raise c ea
     | (.ok x, s0) =>
       let s1 := (s0.beforeAccess false).settleRange s0.hid false (x.pa / 256 * 256) 256
       match cacheTile s1.coreNo with
       | none => s1.done h id
       | some t => (if s1.region x.pa = .hbm then f s1 x t (x.pa / 256) else s1).done h id)

/-- `cwb` (04 R106). -/
def execCwb (a : BitVec 5) (h : BitVec 2) (s : State) : Result :=
  s.cacheOp a .read h (fun c _ t line => c.writeBackLine t line)

/-- `cinv` (04 R106): dirty bytes are discarded; in a logical process on a timed page it acts as `cwbi`. -/
def execCinv (a : BitVec 5) (h : BitVec 2) (s : State) : Result :=
  s.cacheOp a .write h (fun c x t line =>
    if c.hart.record.opt && x.timed then c.dropCached t line else c.discardLine t line)

/-- `cwbi` (04 R106). -/
def execCwbi (a : BitVec 5) (h : BitVec 2) (s : State) : Result :=
  s.cacheOp a .read h (fun c _ t line => c.dropCached t line)

/-! ## Bank modes (04 R85) -/

/-- Every byte of a bank becomes 0. -/
def State.clearBank (s : State) (t b : Nat) : State :=
  let lo := spBase (t * 2 ^ 24 + b * 2 ^ 20)
  { s with mem := s.mem.filter (fun c => c.1 < lo || lo + 2 ^ 20 ≤ c.1) }

/-- A word or slab number of a tile lies in a bank. -/
def inBank (t b a : Nat) : Bool := decide (a / 2 ^ 20 = 16 * t + b)

/-- The deferred scratchpad accesses that name a bank are performed before it switches (04 R85). -/
def State.settleBank (s : State) (t b : Nat) : State :=
  s.occSlots.foldl (fun (c : State) e =>
    c.settleIf e.1 (fun p => p.scratch && p.elems.any (fun x => inBank t b x.addr))) s

/-- The mode a bank has once every `bankcfg` waiting on it has ended. -/
def Bank.finalMode (b : Bank) : BitVec 2 :=
  match b.queue.getLast? with
  | some e => e.2
  | none => b.mode

/-- The part of a switch that changes the bank: waiters go with BANKSW, the contents are set up for the new mode
(04 R85). -/
def State.switchBank (s : State) (t b : Nat) (m : BitVec 2) : State :=
  let s1 := s.settleBank t b
  let k := (s1.tile t).bank b
  let s2 := if k.mode = 0 then s1.dropWay t b else s1
  let s3 := k.waits.foldl (fun (c : State) w =>
    (c.waitLeave t (some b) w.strand).wakeFault w.strand (bankRouter t (some b)) .banksw 0) s2
  let s4 :=
    if m = 1 && k.mode ≠ 1 then
      (s3.clearBank t b).modTile t (fun x =>
        { x with owners := x.owners.filter (fun e => e.1 / 64 ≠ b)
                 empties := x.empties.filter (fun a => !inBank t b a)
                 written := x.written.filter (fun a => !inBank t b a) })
    else if m = 2 then s3.modBank t b (fun x => { x with fifo := [], head := 0 })
    else s3
  s4.modBank t b (fun x => { x with mode := m, sw := false })

/-- Accesses that a bank held during its last switch are not yet performed. -/
def State.bankHolds (s : State) (t b : Nat) : Bool := !((s.tile t).bank b).sw && s.heldBefore t b noStrand

/-- The first `bankcfg` waiting on a bank ends, once the accesses held during the switch before are performed: a switch, or
nothing when the bank has the mode already. The accesses it held are then issued again in arrival order (04 R85). -/
def State.bankStep (s : State) (t b : Nat) : State :=
  match ((s.tile t).bank b).queue with
  | [] => s
  | (sid, m) :: rest =>
    if s.bankHolds t b then s
    else
    let s1 := s.modBank t b (fun x => { x with queue := rest, sw := true })
    let s2 := if m = ((s.tile t).bank b).mode && m ≠ 2 then s1.modBank t b (fun x => { x with sw := false })
      else s1.switchBank t b m
    s2.wakeIf sid (bankRouter t (some b)) (fun p => decide (p = .bankcfg (16 * t + b)))

/-- A bank switch is performed (04 R85). -/
def execBankSwitch (tile bank : Nat) (s : State) : Result := .next (s.bankStep tile bank)

/-- `bankcfg` (04 R85): BANKARG, SPPID, BANKBUSY; then the strand parks until the switch ends. -/
def execBankcfg (a b : BitVec 5) (h : BitVec 2) (s : State) : Result :=
  let ga := s.hart.getG a
  let gb := s.hart.getG b
  let t := fld ga 7 4
  let k := fld ga 3 0
  let m := BitVec.ofNat 2 gb.toNat
  s.issue Need.access
    (if fld ga 63 8 ≠ 0 || 2 < gb.toNat then s.raise .bankarg 0
     else
       let bk := (s.tile t).bank k
       if !s.hart.status.exec && decide (bk.pid ≠ s.hart.pid) then s.raise .sppid 0
       else if m ≠ 2 && m = bk.finalMode then
         (if bk.queue.isEmpty then s.done h id
          else .next ((s.parkAt h (.bankcfg (16 * t + k))).modBank t k (fun x => { x with queue := x.queue ++ [(s.hart.sid, m)] })))
       else if bk.mode = 1 && (List.range 64).any (fun n => decide ((s.tile t).ownerOf (64 * k + n) ≠ 0)) then
         s.raise .bankbusy 0
       else
         let s1 := s.beforeAccess true
         .next ((s1.parkAt h (.bankcfg (16 * t + k))).modBank t k (fun x =>
           { x with queue := x.queue ++ [(s.hart.sid, m)], sw := x.sw || (x.queue.isEmpty && !s1.bankHolds t k) })))

/-! ## Events of the hierarchy -/

/-- A relaxed load returns (05 R111, R116). -/
def execLoadReturn (slot idx : Nat) (s : State) : Result :=
  match (s.slotAt slot).pend[idx]? with
  | some p =>
    (match p.kind with
     | .loadG _ => .next (s.packetPerform slot idx)
     | .loadV _ _ => .next (s.packetPerform slot idx)
     | _ => .next s)
  | none => .next s

/-- A deferred store is performed (05 R111, R116). -/
def execStorePerform (slot idx : Nat) (s : State) : Result :=
  match (s.slotAt slot).pend[idx]? with
  | some p => (match p.kind with | .store => .next (s.packetPerform slot idx) | _ => .next s)
  | none => .next s

/-- A station ends a walk and caches what it found (04 R96, R97). -/
def execTranslationWalkDone (station : Nat) (pid : BitVec 12) (va : BitVec 64) (s : State) : Result :=
  if fld va 63 57 ≠ 0 || 8 ≤ station || (s.tlbFind station pid va.toNat).isSome then .next s
  else
    match s.walk station pid va.toNat with
    | .ok e => .next (s.tlbAdd e)
    | .error _ => .next s

/-- A write-combining buffer of a core drains (04 R104), unless ROUTE.HOLD holds the core's new requests (04 R92). -/
def execWcDrain (core idx : Nat) (s : State) : Result := .next (if (s.core core).hold then s else s.drainAt core idx)

/-- Every station drops the entries of one PID that cover a page (04 R99). -/
def State.tsinvPage (s : State) (pid : BitVec 12) (vpn : Nat) : State :=
  { s with tlb := s.tlb.filter (fun e => !(e.pid = pid && decide (e.vpn ≤ vpn) && decide (vpn < e.vpn + e.span))) }

/-- TSINV with SCOPE 0 (04 R99). -/
def execTsinvPage (pid : BitVec 12) (vpn : BitVec 41) (s : State) : Result := .next (s.tsinvPage pid vpn.toNat)

/-- TSINV with SCOPE 1 (04 R99). -/
def execTsinvPid (pid : BitVec 12) (s : State) : Result := .next { s with tlb := s.tlb.filter (fun e => e.pid ≠ pid) }

/-- TSINV with SCOPE 2 (04 R99). -/
def execTsinvAll (s : State) : Result := .next { s with tlb := [] }

/-- Cores by number whose route table names an elevator (04 R92). -/
def State.elevOf (s : State) (core : Nat) : Nat :=
  match (s.core core).elev with
  | some e => e.toNat
  | none => 4 * tileOf core + coreIdx core / 4

/-- Mesh hops from a core to an elevator: port j of a tile at the first router of the tile's row j (04 R92, R93;
assumption 15). -/
def elevHops (core e : Nat) : Nat :=
  let d (a b : Nat) : Nat := if a ≤ b then b - a else a - b
  let c := coreAt (e / 4) (4 * (e % 4))
  d (coreX core) (coreX c) + d (coreY core) (coreY c)

/-- The healthy elevator nearest to a core: those of its tile first, then by hops, then by number (04 R93). -/
def State.nearestElev (s : State) (core : Nat) : Option Nat :=
  let ok := (List.range 64).filter (fun f => decide (s.elevState f = 0))
  let key (f : Nat) : Nat := (if f / 4 = tileOf core then 0 else 1000) + elevHops core f
  ok.foldl (fun b f => match b with
    | none => some f
    | some g => if key f < key g then some f else some g) none

/-- Every elevator that is retiring is retired once no core is held any more (04 R93 step 5). -/
def State.elevatorsRetired (s : State) : State :=
  let gone := s.plat.elevs.filter (fun e => e.2 = 1)
  if gone.isEmpty || (List.range 260).any (fun n => (s.core n).hold) then s
  else
    let s1 := (s.modPlat (fun p => { p with elevs := p.elevs.map (fun e => if e.2 = 1 then (e.1, 2) else e) })).tableChange
    gone.foldl (fun (c : State) e => c.note 0x02 0 (BitVec.ofNat 64 e.1) 0) s1

/-- A strand of the core has an access to local HBM4 under way. -/
def State.packetsOut (s : State) (core : Nat) : Bool :=
  s.occSlots.any (fun e => decide (e.1 / 16 = core) &&
    e.2.pend.any (fun p => !p.scratch && p.elems.any (fun x => decide (s.region x.addr = .hbm))))

/-- An elevator fails in-field test: it is marked retiring and the event recorded, and each core that uses it is held and
moved to the nearest healthy elevator; a dead one, which is the device's own finding, returns what it holds to the issuing
cores (04 R93 steps 1 to 3). -/
def execElevatorRetire (elev : Nat) (s : State) : Result :=
  if 64 ≤ elev || s.elevState elev ≠ 0 then .next s
  else
    let dead := Config.freeBit s.freeCtr
    let s1 := ((s.tickFree.modPlat (fun p => { p with elevs := alSet p.elevs elev 1 })).tableChange).note 0x02 0
      (BitVec.ofNat 64 elev) 0
    let users := (List.range 260).filter (fun n => decide (s.elevOf n = elev))
    let s2 := users.foldl (fun (c : State) n =>
      c.modCore n (fun k =>
        { k with hold := true
                 elev := match s1.nearestElev n with | some f => some (BitVec.ofNat 6 f) | none => k.elev })) s1
    let s3 := if dead then s2.modPlat (fun p => { p with returned := p.returned ++ users.filter (fun n => s2.packetsOut n) }) else s2
    .next s3.elevatorsRetired

/-- A held core's old packets have completed or come back; it reissues what came back, in the original order, and clears
HOLD (04 R93 steps 4 and 5). -/
def execElevatorReissue (core : Nat) (s : State) : Result :=
  let retiring := s.plat.elevs.any (fun e => decide (e.2 = 1))
  let tested := s.plat.scState = 2 && s.plat.runElev && decide (s.elevOf core = s.plat.runTarget)
  if !(s.core core).hold || !retiring || tested || (s.packetsOut core && !s.plat.returned.contains core) then .next s
  else
    .next ((s.modCore core (fun k => { k with hold := false })).modPlat (fun p =>
      { p with returned := p.returned.filter (fun r => r ≠ core) })).elevatorsRetired

end Sys2Proof.Machine
end

