-- ==== Sys2Proof/Machine/Atomics.lean ====
section
/-!
DEFINITION. Atomics and reductions at home slices, and queued reservations (06 R139 to R147).
-/

namespace Sys2Proof.Machine

/-- Bits of an access of width code `w`. -/
def amoBits (w : BitVec 1) : Nat := if w = 1 then 64 else 32

/-- The value that an `amo` writes to gd (06 R140). -/
def amoResult (op n old : Nat) : Word :=
  if n = 64 then BitVec.ofNat 64 old
  else if op = 6 || op = 7 || op = 10 then BitVec.ofNat 64 old
  else BitVec.ofInt 64 (toSigned 32 old)

/-- A line of a cacheable page that the executing tile caches goes home before an operation at the home slice (05 R125). -/
def State.sendHome (s : State) (core : Nat) (x : Xlate) : State :=
  match cacheTile core with
  | some t => if x.cached then s.dropCached t (x.pa / 256) else s
  | none => s

/-- Checks of an operation at a home slice: MALN, translation for a write, AMOSPACE (06 R155); an M page moves a user strand
first (14 R354). -/
def State.amoCheck (s : State) (ea : Word) (align : Nat) (remoteOk : Bool) : Except Cause Xlate × State :=
  match s.globalCheck ea align .write with
  | (.error c, s1) => (.error c, s1)
  | (.ok x, s1) =>
    match s1.region x.pa with
    | .hbm => (.ok x, s1)
    | .remote _ _ => if remoteOk || (x.migrate && !s.hart.status.exec) then (.ok x, s1) else (.error .amospace, s1)
    | _ => (.error .amospace, s1)

/-- Before an operation at a home slice that answers: the slot's earlier operations on the line (06 R144), and its accesses
and non-temporal stores to the bytes, are performed, and the tile's copy of the line goes home (05 R116, R125). -/
def State.beforeHome (s : State) (x : Xlate) (n : Nat) : State :=
  let line := x.pa / 256
  (((s.settleIf s.hid (fun p => p.isRed && p.elems.any (fun e => decide (e.addr / 256 = line)))).settle x.pa n).sendHome
    s.coreNo x).consumeHart x.pa n

/-- `amo` with operation code `op` (06 R140 to R143). In a logical process OPTST is raised before the comparison of `cas`, also where
it would fail and count as a load (assumption 112). -/
def State.amo (s : State) (op : Nat) (d a b : BitVec 5) (w : BitVec 1) (h : BitVec 2) : Result :=
  let ea := s.hart.getG a
  let n := amoBits w
  let v := (s.hart.getG b).toNat % 2 ^ n
  let cmp := (s.hart.getG d).toNat % 2 ^ n
  s.issue Need.access
    (match s.amoCheck ea (n / 8) true with
     | (.error c, s1) => s1.raise c ea
     | (.ok x, s0) =>
       if s0.optstAt x then s0.raise .optst ea
       else
         s0.remoteGate h x ea (n / 8) false
           (let s1 := (s0.beforeAccess true).beforeHome x (n / 8)
            match s1.region x.pa with
            | .remote dev off =>
              let logs := s1.farWords x x.pa (n / 8)
              s1.logThenFar h [] logs.length (fun s2 =>
                (s2.sendRemote dev off (n / 8) ea (.amo (BitVec.ofNat 4 op) (decide (w = 1)) false)
                  (natLe 8 v ++ natLe 8 cmp) (.loadG d) (wholeReply (n / 8) 0) false logs).awaitRemote h false)
            | _ =>
              let old := leNat (s1.homeBytes s1.hart.pid x.pa (n / 8))
              let r := amoNew op n old v cmp
              s1.logThen h (if r.2.1 then s1.storeEntries x x.pa (n / 8) else []) (fun s2 =>
                (if r.2.1 then s2.homePut s2.hart.pid x.pa (natLe (n / 8) r.1) else s2).done h
                  (fun y => (y.orFxf r.2.2).setG d (amoResult op n old)))))

/-- `amo.add` (06 R140). -/
def execAmoAdd (d a b : BitVec 5) (w : BitVec 1) (h : BitVec 2) (s : State) : Result := s.amo 0 d a b w h
/-- `amo.and` (06 R140). -/
def execAmoAnd (d a b : BitVec 5) (w : BitVec 1) (h : BitVec 2) (s : State) : Result := s.amo 1 d a b w h
/-- `amo.or` (06 R140). -/
def execAmoOr (d a b : BitVec 5) (w : BitVec 1) (h : BitVec 2) (s : State) : Result := s.amo 2 d a b w h
/-- `amo.xor` (06 R140). -/
def execAmoXor (d a b : BitVec 5) (w : BitVec 1) (h : BitVec 2) (s : State) : Result := s.amo 3 d a b w h
/-- `amo.min` (06 R140). -/
def execAmoMin (d a b : BitVec 5) (w : BitVec 1) (h : BitVec 2) (s : State) : Result := s.amo 4 d a b w h
/-- `amo.max` (06 R140). -/
def execAmoMax (d a b : BitVec 5) (w : BitVec 1) (h : BitVec 2) (s : State) : Result := s.amo 5 d a b w h
/-- `amo.minn` (06 R140). -/
def execAmoMinn (d a b : BitVec 5) (w : BitVec 1) (h : BitVec 2) (s : State) : Result := s.amo 6 d a b w h
/-- `amo.maxn` (06 R140). -/
def execAmoMaxn (d a b : BitVec 5) (w : BitVec 1) (h : BitVec 2) (s : State) : Result := s.amo 7 d a b w h
/-- `amo.swap` (06 R140). -/
def execAmoSwap (d a b : BitVec 5) (w : BitVec 1) (h : BitVec 2) (s : State) : Result := s.amo 8 d a b w h
/-- `amo.cas` (06 R140). -/
def execAmoCas (d a b : BitVec 5) (w : BitVec 1) (h : BitVec 2) (s : State) : Result := s.amo 9 d a b w h
/-- `amo.fadd.w` (06 R141). -/
def execAmoFadd (d a b : BitVec 5) (h : BitVec 2) (s : State) : Result := s.amo 10 d a b 0 h

/-- `red` with operation code `op` (06 R140 to R143): it waits at its slot's list until the home slice performs it. -/
def State.red (s : State) (op : Nat) (a b : BitVec 5) (w : BitVec 1) (h : BitVec 2) : Result :=
  let ea := s.hart.getG a
  let n := amoBits w
  let v := s.hart.getG b
  s.issue Need.access
    (match s.amoCheck ea (n / 8) true with
     | (.error c, s1) => s1.raise c ea
     | (.ok x, s0) =>
       if s0.optstAt x then s0.raise .optst ea
       else
         s0.remoteGate h x ea (n / 8) true
           (let s1 := (s0.beforeAccess true).sendHome s0.coreNo x
            let logs := s1.farWords x x.pa (n / 8)
            s1.logThenFar h (s1.storeEntries x x.pa (n / 8)) logs.length (fun s2 =>
              match s2.region x.pa with
              | .remote dev off =>
                (s2.sendRemote dev off (n / 8) ea (.amo (BitVec.ofNat 4 op) (decide (w = 1)) true) (natLe 8 v.toNat ++ natLe 8 0)
                  .store [] true logs).done h id
              | _ =>
                (s2.deferGlobal x (.red (BitVec.ofNat 4 op) (decide (w = 1))) ea (n / 8)
                  [{ addr := x.pa, len := n / 8, idx := 0, data := v }]).done h id)))

/-- `red.add` (06 R140). -/
def execRedAdd (a b : BitVec 5) (w : BitVec 1) (h : BitVec 2) (s : State) : Result := s.red 0 a b w h
/-- `red.and` (06 R140). -/
def execRedAnd (a b : BitVec 5) (w : BitVec 1) (h : BitVec 2) (s : State) : Result := s.red 1 a b w h
/-- `red.or` (06 R140). -/
def execRedOr (a b : BitVec 5) (w : BitVec 1) (h : BitVec 2) (s : State) : Result := s.red 2 a b w h
/-- `red.xor` (06 R140). -/
def execRedXor (a b : BitVec 5) (w : BitVec 1) (h : BitVec 2) (s : State) : Result := s.red 3 a b w h
/-- `red.min` (06 R140). -/
def execRedMin (a b : BitVec 5) (w : BitVec 1) (h : BitVec 2) (s : State) : Result := s.red 4 a b w h
/-- `red.max` (06 R140). -/
def execRedMax (a b : BitVec 5) (w : BitVec 1) (h : BitVec 2) (s : State) : Result := s.red 5 a b w h
/-- `red.minn` (06 R140). -/
def execRedMinn (a b : BitVec 5) (w : BitVec 1) (h : BitVec 2) (s : State) : Result := s.red 6 a b w h
/-- `red.maxn` (06 R140). -/
def execRedMaxn (a b : BitVec 5) (w : BitVec 1) (h : BitVec 2) (s : State) : Result := s.red 7 a b w h
/-- `red.fadd.w` (06 R141). -/
def execRedFadd (a b : BitVec 5) (h : BitVec 2) (s : State) : Result := s.red 10 a b 0 h

/-- A home slice performs a `red` (06 R140). -/
def execAmoHomePerform (slot idx : Nat) (s : State) : Result :=
  match (s.slotAt slot).pend[idx]? with
  | some p => (match p.kind with | .red _ _ => .next (s.packetPerform slot idx) | _ => .next s)
  | none => .next s

/-! ## Reservations (06 R145 to R147) -/

/-- The queue of a line. -/
def State.rsvOf (s : State) (line : Nat) : Option RsvQueue := s.rsvqs.find? (fun q => q.line = line)

/-- The strand is the holder of a line's reservation. -/
def State.holdsLine (s : State) (sid line : Nat) : Bool :=
  match s.rsvOf line with
  | some q => q.granted && decide (q.waiters.head? = some sid)
  | none => false

/-- Append a strand to a line's queue; on an empty queue it is granted at once (06 R146). -/
def State.rsvJoin (s : State) (sid line : Nat) : State :=
  match s.rsvOf line with
  | some _ =>
    { s with rsvqs := s.rsvqs.map (fun q => if q.line = line then { q with waiters := q.waiters ++ [sid] } else q) }
  | none => { s with rsvqs := s.rsvqs ++ [{ line := line, waiters := [sid], granted := true, since := s.ticks }] }

/-- The holder of a line passes its reservation to the next entry, or frees it (06 R146). -/
def State.rsvPass (s : State) (line : Nat) : State :=
  let next (q : RsvQueue) : RsvQueue :=
    if q.line = line then { q with waiters := q.waiters.drop 1, granted := false } else q
  { s with rsvqs := (s.rsvqs.map next).filter (fun q => !q.waiters.isEmpty) }

/-- `lrw` (06 R146). -/
def execLrw (d a : BitVec 5) (h : BitVec 2) (s : State) : Result :=
  let ea := s.hart.getG a
  s.issue Need.access
    (if s.hart.rsvLine.isSome then s.raise .resheld 0
     else match s.amoCheck ea 8 false with
     | (.error c, s1) => s1.raise c ea
     | (.ok x, s0) =>
       s0.remoteGate h x ea 8 false
         (let s1 := (s0.beforeAccess false).beforeHome x 8
          let s2 := (s1.rsvJoin s1.hart.sid (x.pa / 256)).modHart (fun y =>
            { y with rsvLine := some (x.pa / 256), revoked := false })
          if s2.holdsLine s2.hart.sid (x.pa / 256) then
            s2.doneG h d (BitVec.ofNat 64 (leNat (s2.homeBytes s2.hart.pid x.pa 8)))
          else .next (s2.parkAt h (.lrw d x.pa))))

/-- `scr` (06 R146). -/
def execScr (d a b : BitVec 5) (h : BitVec 2) (s : State) : Result :=
  let ea := s.hart.getG a
  let v := s.hart.getG b
  s.issue Need.access
    (match s.amoCheck ea 8 false with
     | (.error c, s1) => s1.raise c ea
     | (.ok x, s0) =>
       if s0.optstAt x then s0.raise .optst ea
       else s0.remoteGate h x ea 8 false
         (let s1 := (((s0.beforeAccess true).settleIf s0.hid (fun p =>
            p.isRed && p.elems.any (fun e => decide (e.addr / 256 = x.pa / 256)))).settle x.pa 8).sendHome s0.coreNo x
          if !s1.holdsLine s1.hart.sid (x.pa / 256) then s1.doneG h d (if s1.hart.revoked then 2 else 1)
          else
            s1.logThen h (s1.storeEntries x x.pa 8) (fun s2 =>
              ((s2.homePut s2.hart.pid x.pa (natLe 8 v.toNat)).rsvPass (x.pa / 256)).done h
                (fun y => ({ y with rsvLine := none } : Slot).setG d 0))))

/-- What a plain load of a strand at a grant finds to be written home first: the copy of the line in the tile of its slot (05 R111,
R125). -/
def State.grantHome (s : State) (sid pa : Nat) : State :=
  match s.findSlot sid with
  | some n => if isService (n / 16) then s else s.dropCached (tileOf (n / 16)) (pa / 256)
  | none => s

/-- The head of a line's queue becomes the holder, and its `lrw` reads as a plain load and completes (06 R146). -/
def execReservationGrant (line : Nat) (s : State) : Result :=
  match s.rsvOf line with
  | none => .next s
  | some q =>
    match q.granted, q.waiters with
    | false, sid :: _ =>
      let take (k : RsvQueue) : RsvQueue := if k.line = line then { k with granted := true, since := s.ticks } else k
      let s1 : State := { s with rsvqs := s.rsvqs.map take }
      (match s.strandOf sid with
       | some x =>
         (match x.park with
          | some (.lrw d pa) =>
            let s1 := (s1.grantHome sid pa).consume (s1.findSlot sid) x.pid pa 8
            .next (s1.wake sid (s.sliceRouter pa) (fun y =>
              y.setG d (BitVec.ofNat 64 (leNat (s1.homeBytes x.pid pa 8)))))
          | _ => .next s1)
       | none => .next (s1.rsvPass line))
    | _, _ => .next s

/-- A reservation held for more than 64 µs is revoked and passed on (06 R147). -/
def execReservationTimeout (line : Nat) (s : State) : Result :=
  match s.rsvOf line with
  | none => .next s
  | some q =>
    match q.granted, q.waiters with
    | true, sid :: _ => if s.ticks ≤ q.since + 128000 then .next s else .next (s.dropReservation sid)
    | _, _ => .next s

end Sys2Proof.Machine
end

