-- ==== Sys2Proof/Machine/Formats.lean ====
section
/-!
DEFINITION. `setfmt` and `stfmt` (07 R168 to R171).
-/

namespace Sys2Proof.Machine

/-- A reserved bit of a format/scale descriptor is set (07 R168, R169). -/
def fmtReserved (f c : Word) : Bool :=
  decide (fld f 63 4 ≠ 0) || decide (fld c 63 48 ≠ 0) || decide (fld c 31 30 ≠ 0) || decide (fld c 2 0 ≠ 0)

/-- FMT and SCL take the two doublewords of a descriptor (07 R171). -/
def Slot.putFmt (x : Slot) (f c : Word) : Slot := { x with fmt := f.setWidth 4, scl := c }

/-- `setfmt` (07 R171): 16 bytes as one plain load; FMTRES when a reserved bit is set. -/
def execSetfmt (a : BitVec 5) (h : BitVec 2) (s : State) : Result :=
  let ea := s.hart.getG a
  s.issue Need.access
    (match s.globalCheck ea 16 .read with
     | (.error c, s1) => s1.raise c ea
     | (.ok x, s0) =>
       s0.remoteGate h x ea 16 false
         (let s1 := s0.beforeAccess false
          match s1.region x.pa with
          | .remote dev off => (s1.sendRemote dev off 16 ea .load [] .fmt (wholeReply 16 0) false []).awaitRemote h false
          | _ =>
            let (bs, s2) := s1.loadNow x x.pa 16
            let f := nthW (bytesWords bs 2) 0
            let c := nthW (bytesWords bs 2) 1
            if fmtReserved f c then s2.raise .fmtres ea else s2.done h (fun y => y.putFmt f c)))

/-- `stfmt` (07 R171): FMT and SCL as one plain store of 16 bytes. -/
def execStfmt (a : BitVec 5) (h : BitVec 2) (s : State) : Result :=
  let ea := s.hart.getG a
  let bs := wordsBytes [s.hart.fmt.setWidth 64, s.hart.scl]
  s.issue Need.access
    (match s.globalCheck ea 16 .write with
     | (.error c, s1) => s1.raise c ea
     | (.ok x, s0) =>
       if s0.optstAt x then s0.raise .optst ea
       else
         s0.remoteGate h x ea 16 false
           (let s1 := s0.beforeStore [x.pa]
            s1.logThenFar h (s1.storeEntries x x.pa 16) (s1.farWords x x.pa 16).length (fun s2 => s2.putOut x ea bs false h)))

end Sys2Proof.Machine
end

