-- ==== Sys2Proof/Machine/Profile.lean ====
section
/-!
DEFINITION. The profile tables of the tiles and the ring of their spilled entries (15 R400, R401).
-/

namespace Sys2Proof.Machine

/-! ## The ring (15 R401) -/

/-- LOG2 of PROFBUF, held to 12 to 30 (15 R400). -/
def State.profLog (s : State) : Nat := Nat.max 12 (Nat.min 30 (fld s.profbuf 63 58))

/-- Physical address of the ring, aligned to its size (15 R400). -/
def State.profBase (s : State) : Nat := 256 * fld s.profbuf 51 8 / 2 ^ s.profLog * 2 ^ s.profLog

/-- The device writes bytes at a physical address of local HBM4 under no PID's key (assumption 13); elsewhere nothing. -/
def State.rawPut (s : State) (pa : Nat) (bs : List Byte) : State :=
  if pa + bs.length ≤ Config.hbmBytes then { s with mem := memPut s.mem pa bs } else s

/-- The 16 bytes of a spilled entry (15 R401). -/
def ProfEntry.bytes (e : ProfEntry) (tile : Nat) : List Byte :=
  natLe 8 (packFields [(e.reason, 57), (va57 e.pc, 0)]).toNat ++ natLe 4 e.count ++ natLe 2 (4096 * tile + e.pid.toNat) ++
    natLe 2 0

/-- Spill an entry of a tile to the ring, whose first two doublewords say where the next record goes and how often the
ring has wrapped (15 R401). -/
def State.spill (s : State) (tile : Nat) (e : ProfEntry) : State :=
  let next := s.profPos + 16
  let full := decide (2 ^ s.profLog ≤ next)
  let pos := if full then 64 else next
  let wrap := if full then s.profWrap + 1 else s.profWrap
  let s1 := s.rawPut (s.profBase + s.profPos) (e.bytes tile)
  let s2 := s1.rawPut s1.profBase (natLe 8 pos ++ natLe 8 wrap)
  { s2 with profPos := pos, profWrap := wrap }

/-- Spill the entries of a tile that a test selects; they leave its table (15 R400). -/
def State.spillIf (s : State) (tile : Nat) (sel : ProfEntry → Bool) : State :=
  let l := (s.tile tile).prof.filter sel
  let s1 := if l.isEmpty then s else s.modTile tile (fun t => { t with prof := t.prof.filter (fun e => !sel e) })
  l.foldl (fun (t : State) e => t.spill tile e) s1

/-! ## Counting (15 R400) -/

/-- The counter of an address and a reason. -/
def profIndex (pc : Word) (r : Nat) : Nat := ((fld pc 13 2).xor (fld pc 25 14)).xor (r * 256) % 4096

/-- PROFCTL of a tile names the PID, with profiling on. -/
def Tile.profiles (t : Tile) (pid : BitVec 12) : Bool :=
  bitOf t.profctl 16 && (bitOf t.profctl 17 || decide (fld t.profctl 63 52 = pid.toNat))

/-- A visit of a slot of a tile is counted under a reason (15 R400). -/
def State.profVisit (s : State) (tile : Nat) (pid : BitVec 12) (pc : Word) (r : Nat) : State :=
  let t := s.tile tile
  if !(t.profiles pid && bitOf t.profctl r) then s
  else
    let i := profIndex pc r
    let put (a : State) (e : ProfEntry) : State :=
      a.modTile tile (fun k => { k with prof := k.prof.filter (fun x => x.idx ≠ i) ++ [e] })
    let new : ProfEntry := { idx := i, pc := pc, reason := r, pid := pid, count := 1 }
    match t.prof.find? (fun e => e.idx = i) with
    | none => put s new
    | some e =>
      if e.pc = pc && e.reason = r && e.pid = pid then
        (if e.count + 1 = 2 ^ 32 - 1 then put (s.spill tile { e with count := e.count + 1 }) { e with count := 0 }
         else put s { e with count := e.count + 1 })
      else put (s.spill tile e) new

/-- A group of a PID completes: if the PID is profiled, every tile spills all its entries of it (15 R400). -/
def State.spillPid (s : State) (pid : BitVec 12) : State :=
  if (List.range 16).any (fun t => (s.tile t).profiles pid) then
    (List.range 16).foldl (fun (a : State) t => a.spillIf t (fun e => e.pid = pid)) s
  else s

/-- A write of PROFCTL: its writable fields; one that clears EN spills the tile's whole table (15 R400). -/
def State.profctlPut (s : State) (tile : Nat) (v : Word) : State :=
  let w := packFields [(fld v 63 52, 52), (fld v 17 0, 0)]
  let s1 := if bitOf (s.tile tile).profctl 16 && !bitOf v 16 then s.spillIf tile (fun _ => true) else s
  s1.modTile tile (fun t => { t with profctl := w })

/-- PROFCTL is written (15 R400). -/
def execProfctlWrite (tile : Nat) (v : BitVec 64) (s : State) : Result := .next (s.profctlPut tile v)

end Sys2Proof.Machine
end

