-- ==== Sys2Proof/Machine/Sync.lean ====
section
/-!
DEFINITION. Full/empty operations, owners and group barriers (06 R148 to R153).
-/

namespace Sys2Proof.Machine

/-! ## Full/empty (06 R149 to R151) -/

/-- The bank and tile of a scratchpad address, for its wait list. -/
def spBankOf (a : Nat) : Nat × Nat := (a / 2 ^ 24 % 16, a / 2 ^ 20 % 16)

/-- The 64-bit word at a scratchpad address. -/
def State.spWord (s : State) (a : Nat) : Word := BitVec.ofNat 64 (leNat (s.spRead a 8))

/-- A word is taken: the bit becomes EMPTY (06 R150). -/
def State.takeWord (s : State) (a : Nat) : State := s.modTile (spBankOf a).1 (fun t => t.setEmptyWord a)

/-- `lde` takes a word; it sets the written bit as well (06 R150). -/
def State.ldeWord (s : State) (a : Nat) : State :=
  s.modTile (spBankOf a).1 (fun t => (t.setEmptyWord a).markWritten a 8)

/-- A word is filled: written, FULL, its written bit set (06 R150). -/
def State.fillWord (s : State) (a : Nat) (v : Word) : State :=
  (s.spWrite a (natLe 8 v.toNat)).modTile (spBankOf a).1 (fun t => t.setFullWord a)

/-- The oldest waiting entry of a kind on a word. -/
def waitingOn (l : List WaitEntry) (lde : Bool) (a : Nat) : Option WaitEntry :=
  l.find? (fun e => match e.what with
    | .lde _ x => lde && decide (x = a)
    | .stf x _ => !lde && decide (x = a)
    | _ => false)

/-- Serve the waiters of a word, `lde` when it is full and `stf` when it is empty, until none can proceed (06 R151);
`fuel` services at most. -/
def State.serveWord (s : State) (a : Nat) : Nat → State
  | 0 => s
  | fuel + 1 =>
    let t := (spBankOf a).1
    let b := (spBankOf a).2
    let l := ((s.tile t).bank b).waits
    let full := !(s.tile t).isEmptyWord a
    match waitingOn l full a with
    | none => s
    | some e =>
      (match e.what with
       | .lde d _ =>
         let v := s.spWord a
         (((s.ldeWord a).waitLeave t (some b) e.strand).wake e.strand (bankRouter t (some b))
           (fun x => x.setG d v)).serveWord a fuel
       | .stf _ v =>
         (((s.fillWord a v).waitLeave t (some b) e.strand).wake e.strand (bankRouter t (some b)) id).serveWord a fuel
       | _ => s)

/-- Serve a word until nothing waiting on it can proceed. -/
def State.serveWordAll (s : State) (a : Nat) : State :=
  s.serveWord a (((s.tile (spBankOf a).1).bank (spBankOf a).2).waits.length + 1)

/-- A full/empty instruction: its checks (06 R155), then its effect on the tile, bank and address; `reads` says whether
it reads a word that is full, and one that is empty, which UNWR may trap (06 R150; 15 R403). -/
def State.fullEmpty (s : State) (a : BitVec 5) (h : BitVec 2) (writes : Bool) (reads : Bool → Bool)
    (k : State → Nat → Bool → Result) : Result :=
  let ea := s.hart.getG a
  s.issue Need.access (s.bankGate h ea (fun s =>
     match s.spCheck (s.spReq ea writes .fullEmpty) with
     | .error c => s.raise c ea
     | .ok _ =>
       let s1 := (s.beforeAccess writes).settleRange s.hid true ea.toNat 8
       let full := !(s1.tile (spBankOf ea.toNat).1).isEmptyWord ea.toNat
       if reads full && s1.hart.status.unwr && (s1.unwrittenIn ea.toNat 8).isSome then s1.raise .unwr ea
       else k s1 ea.toNat full))

/-- `lde` (06 R150). -/
def execLde (d a : BitVec 5) (h : BitVec 2) (s : State) : Result :=
  s.fullEmpty a h true id (fun s1 ea full =>
    if full then
      let v := s1.spWord ea
      .next ((((s1.consumeHart (spBase ea) 8).ldeWord ea).modHart (fun x => (x.setG d v).finish 4 h)).serveWordAll ea)
    else .next (s1.waitJoin h (spBankOf ea).1 (some (spBankOf ea).2) (.lde d ea)))

/-- `stf` (06 R150). -/
def execStf (a b : BitVec 5) (h : BitVec 2) (s : State) : Result :=
  s.fullEmpty a h true (fun _ => false) (fun s1 ea full =>
    let v := s1.hart.getG b
    if full then .next (s1.waitJoin h (spBankOf ea).1 (some (spBankOf ea).2) (.stf ea v))
    else .next (((s1.fillWord ea v).modHart (fun x => x.finish 4 h)).serveWordAll ea))

/-- `ldew` (06 R150): gb, written last, says whether the word was taken. -/
def execLdew (d a b : BitVec 5) (h : BitVec 2) (s : State) : Result :=
  s.fullEmpty a h true (fun _ => true) (fun s1 ea full =>
    if full then
      let v := s1.spWord ea
      .next ((((s1.consumeHart (spBase ea) 8).takeWord ea).modHart (fun x => ((x.setG d v).setG b 1).finish 4 h)).serveWordAll ea)
    else s1.doneG h b 0)

/-- `stfw` (06 R150). -/
def execStfw (d a b : BitVec 5) (h : BitVec 2) (s : State) : Result :=
  s.fullEmpty a h true (fun _ => false) (fun s1 ea full =>
    let v := s1.hart.getG b
    if full then s1.doneG h d 0
    else .next (((s1.fillWord ea v).modHart (fun x => (x.setG d 1).finish 4 h)).serveWordAll ea))

/-- `feq` (06 R150). -/
def execFeq (d a : BitVec 5) (h : BitVec 2) (s : State) : Result :=
  s.fullEmpty a h false (fun _ => false) (fun s1 _ full => s1.doneG h d (boolWord full))

/-! ## Owners (06 R152, R153) -/

/-- The slab or half at a scratchpad address, with its SPRANGE, SPMODE and SPPID checks (06 R155). -/
def State.ownedCheck (s : State) (ea : Word) : Except Cause Owned :=
  match spLoc ea with
  | none => .error .sprange
  | some l =>
    match s.ownedAt l with
    | none => .error .spmode
    | some o => if !s.hart.status.exec && decide (s.ownedPid o ≠ s.hart.pid) then .error .sppid else .ok o

/-- The owned thing is a pass-buffer half. -/
def Owned.isHalf : Owned → Bool
  | .half _ _ => true
  | .slab _ _ => false

/-- The address lies in a pass-buffer half (04 R81). -/
def inHalf (ea : Word) : Bool := match spLoc ea with | some (.half _ _ _ _) => true | _ => false

/-- A scratchpad address lies in a given slab or half. -/
def State.isOwnedAt (s : State) (o : Owned) (a : Nat) : Bool :=
  match spLoc (BitVec.ofNat 64 a) with
  | some l => decide (s.ownedAt l = some o)
  | none => false

/-- `give` (06 R152): a release of the slot's accesses to the slab, then its owner code. -/
def execGive (a b : BitVec 5) (h : BitVec 2) (s : State) : Result :=
  let ea := s.hart.getG a
  let gb := s.hart.getG b
  s.issue Need.access
    (if gb = 0 || 4 < gb.toNat || (inHalf ea && decide (gb = 4)) then s.raise .givearg 0
     else s.bankGate h ea (fun s =>
        match s.ownedCheck ea with
        | .error c => s.raise c ea
        | .ok o =>
          if s.ownerGet o ≠ 0 then s.raise .owner ea
          else
            (((s.beforeAccess true).settleIf s.hid (fun p => p.scratch && p.elems.any (fun e => s.isOwnedAt o e.addr))).ownerPut o
              (BitVec.ofNat 3 gb.toNat)).done h id))

/-- Serve the strands that wait in `ownw` for a slab or half whose owner is 0 (06 R153). -/
def State.serveOwner (s : State) (o : Owned) : State :=
  if s.ownerGet o ≠ 0 then s
  else
    let (t, b) := o.waitBank
    ((s.tile t).waitsAt b).foldl (fun (c : State) e =>
      match e.what with
      | .ownw a =>
        if c.isOwnedAt o a then
          (c.waitLeave t b e.strand).wake e.strand (bankRouter t b) id
        else c
      | _ => c) s

/-- A completion flip of a slab or half to an owner code (04 R87, R108; 05 R126; 06 R153). -/
def State.flip (s : State) (o : Owned) (c : BitVec 3) : State := (s.ownerPut o c).serveOwner o

/-- Flip everything of a list that an engine's code owns. -/
def State.flipOwned (s : State) (l : List Owned) (engine c : BitVec 3) : State :=
  l.foldl (fun (t : State) o => if t.ownerGet o = engine then t.flip o c else t) s

/-- `ownw` (06 R153). -/
def execOwnw (a : BitVec 5) (h : BitVec 2) (s : State) : Result :=
  let ea := s.hart.getG a
  s.issue Need.access (s.bankGate h ea (fun s =>
     match s.ownedCheck ea with
     | .error c => s.raise c ea
     | .ok o =>
       let s1 := s.beforeAccess false
       if s1.ownerGet o = 0 then s1.done h id
       else .next (s1.waitJoin h o.waitBank.1 o.waitBank.2 (.ownw ea.toNat))))

/-! ## Barriers (06 R153) -/

/-- The physical address of a block in HBM4, for the router of its home slice. -/
def State.blockPa (s : State) (pid : BitVec 12) (va : Word) : Nat :=
  match (s.translate 0 pid true va .read).1 with
  | .ok x => x.pa
  | .error _ => 0

/-- Doubleword 1 of a GCB from GEN, ARRIV and DONE (12 R286). -/
def gcbWord1 (gen arriv dn : Nat) : Word := packFields [(gen % 65536, 48), (arriv % 2 ^ 24, 24), (dn % 2 ^ 24, 0)]

/-- Open the current generation of a group's barrier: every waiter resumes after InvalidateTile(0) in its tile
(06 R153). `q` is the quadrant of the core that opens it. -/
def State.openBarrier (s : State) (q : Nat) (pid : BitVec 12) (gcb : Word) (w1 : Word) : State :=
  let s1 := s.vaSetWordAt q pid (gcb + 8) (gcbWord1 (fld w1 63 48 + 1) 0 (fld w1 23 0))
  let go := s1.barriers.filter (fun e => decide (e.2.1 = gcb) && decide (e.2.2 = pid))
  let s2 : State := { s1 with barriers := s1.barriers.filter (fun e => !(decide (e.2.1 = gcb) && decide (e.2.2 = pid))) }
  go.foldl (fun (c : State) e =>
    let c1 := match c.findSlot e.1 with
      | some n => c.coreInvalidate (n / 16) 0
      | none => c
    c1.wake e.1 (c1.sliceRouter (c1.blockPa pid gcb)) id) s2

/-- The barrier opens if the strands that have arrived and those that have ended are all N, and one waits (06 R153). -/
def State.tryBarrier (s : State) (q : Nat) (pid : BitVec 12) (gcb : Word) : State :=
  match s.vaWordAt q pid gcb, s.vaWordAt q pid (gcb + 8) with
  | some w0, some w1 =>
    if fld w1 47 24 ≠ 0 && fld w1 47 24 + fld w1 23 0 = fld w0 23 0 then s.openBarrier q pid gcb w1 else s
  | _, _ => s

/-- The requester number under which the device reads, for a strand, the generation of a barrier that another device keeps. -/
def barId (sid : Nat) : Nat := 3 * noStrand + sid

/-- The arrival at a barrier that another device keeps: one more is added to ARRIV there (14 R355; assumption 92). -/
def State.farBar (s : State) (h : BitVec 2) (dev off : Nat) (va : Word) : Result :=
  if !s.reach dev then s.raise .runreach va
  else
    (s.sendRemote dev off 8 va (.amo 0 true false) (natLe 8 (2 ^ 24) ++ natLe 8 0) .bar (wholeReply 8 0) false []).awaitRemote h false

/-- The device reads the generation of a barrier that another device keeps, for a strand that waits in it. -/
def State.barPoll (s : State) (sid dev off : Nat) (va : Word) : State :=
  s.remoteSend { storeRequest (barId sid) dev off va [] false with kind := .load, len := 8, dst := .bar, elems := wholeReply 8 0 }

/-- The arrival has been counted in a generation: the strand waits for it to open as in any barrier, so that it may be written
back (06 R153; 12 R301), and the device reads GEN until it differs (assumption 92). -/
def State.farBarArrived (s : State) (sid dev off : Nat) (va : Word) (w : Word) : State :=
  let gen := BitVec.ofNat 16 (fld w 63 48)
  match s.findSlot sid with
  | none => s
  | some n =>
    (s.modSlot n (fun x => { x with barGen := some gen, park := some (.bar x.record.gcb gen), since := s.ticks })).barPoll sid dev off va

/-- A read of the generation has been answered: the same one is read again; another one has opened the barrier, and the strand
resumes with InvalidateTile(0) in its tile, or out of its slot. A strand that does not wait any more is not read for. -/
def State.farBarRead (s : State) (sid dev off : Nat) (va : Word) (w : Word) : State :=
  match s.strandOf sid with
  | none => s
  | some x =>
    match x.barGen with
    | none => s
    | some g =>
      if g = BitVec.ofNat 16 (fld w 63 48) then s.barPoll sid dev off va
      else
        let s1 := match s.findSlot sid with | some n => s.coreInvalidate (n / 16) 0 | none => s
        s1.wake sid (x.record.hx.toNat, x.record.hy.toNat) (fun y => { y with barGen := none })

/-- A read of the generation fails: the strand takes the fault at its `bar` (14 R350). -/
def State.farBarFailed (s : State) (sid : Nat) (c : Cause) (va : Word) : State :=
  match s.strandOf sid with
  | none => s
  | some x =>
    if x.barGen.isNone then s
    else (s.modStrand sid (fun y => { y with barGen := none })).wakeFault sid (x.record.hx.toNat, x.record.hy.toNat) c va

/-- `bar` (06 R153): `fence.d`, the arrival, and a wait until the generation opens. Where the group control block cannot be
read the arrival is counted nowhere, and the instruction completes without waiting (assumption 36). -/
def execBar (h : BitVec 2) (s : State) : Result :=
  s.issue Need.access
    (let s1 := ((s.orderingDone s.hid).releaseActions s.hid 4).acquireActions s.hid 4 0
     let r := s1.hart.record
     let q := slotQuad s1.hid
     if r.gcb = 0 then s1.done h id
     else
       match s1.farBlock q r.pid (r.gcb + 8) with
       | some (dev, off) => s1.farBar h dev off (r.gcb + 8)
       | none =>
       match s1.vaWordAt q r.pid (r.gcb + 8) with
       | none => s1.done h id
       | some w1 =>
         let s2 := s1.vaSetWordAt q r.pid (r.gcb + 8) (gcbWord1 (fld w1 63 48) (fld w1 47 24 + 1) (fld w1 23 0))
         let s3 := s2.parkAt h (.bar r.gcb (BitVec.ofNat 16 (fld w1 63 48)))
         .next (({ s3 with barriers := s3.barriers ++ [(s3.hart.sid, r.gcb, r.pid)] } : State).tryBarrier q r.pid r.gcb))

end Sys2Proof.Machine
end

