-- ==== Sys2Proof/Machine/Copy.lean ====
section
/-!
DEFINITION. The copy engine (04 R107, R108).
-/

namespace Sys2Proof.Machine

/-! ## The descriptor (04 R107) -/

/-- Row bytes. -/
def CopyCmd.rowBytes (c : CopyCmd) : Nat := fld c.word2 23 0
/-- Rows. -/
def CopyCmd.rows (c : CopyCmd) : Nat := fld c.word2 39 24
/-- The source is scratchpad. -/
def CopyCmd.srcSp (c : CopyCmd) : Bool := bitOf c.word2 40
/-- The destination is scratchpad. -/
def CopyCmd.dstSp (c : CopyCmd) : Bool := bitOf c.word2 41
/-- Owner code after completion. -/
def CopyCmd.after (c : CopyCmd) : BitVec 3 := BitVec.ofNat 3 (fld c.word2 44 42)
/-- Source stride. -/
def CopyCmd.srcStride (c : CopyCmd) : Nat := fld c.word3 31 0
/-- Destination stride. -/
def CopyCmd.dstStride (c : CopyCmd) : Nat := fld c.word3 63 32

/-- Address of byte `o` of row `r` of the source. -/
def CopyCmd.srcAt (c : CopyCmd) (r o : Nat) : Word := c.src + BitVec.ofNat 64 (r * c.srcStride + o)
/-- Address of byte `o` of row `r` of the destination. -/
def CopyCmd.dstAt (c : CopyCmd) (r o : Nat) : Word := c.dst + BitVec.ofNat 64 (r * c.dstStride + o)

/-- Some of the scratchpad extent of a row lies outside the map or in a control word; the map changes only at multiples of
16 KiB (04 R81, R108). -/
def extentBad (a n : Nat) : Bool :=
  (List.range ((a + n - 1) / 16384 - a / 16384 + 1)).any (fun k =>
    match spLoc (BitVec.ofNat 64 (a / 16384 * 16384 + 16384 * k)) with
    | none => true
    | some (.ctl _ _) => true
    | some _ => false)

/-- A scratchpad side leaves the map or names a control word (04 R108). -/
def CopyCmd.sidesBad (c : CopyCmd) : Bool :=
  (List.range c.rows).any (fun r =>
    (c.srcSp && extentBad (c.srcAt r 0).toNat c.rowBytes) || (c.dstSp && extentBad (c.dstAt r 0).toNat c.rowBytes))

/-- A field of the descriptor is out of its limits, or the two sides overlap in one space: the bounding extents of the two
whole blocks have a byte in common (04 R107, R108; assumption 88). -/
def CopyCmd.fieldsBad (c : CopyCmd) : Bool :=
  let n := c.rowBytes
  let ext (st : Nat) : Nat := (c.rows - 1) * st + n
  decide (fld c.word2 63 45 ≠ 0) || decide (n < 8) || decide (n % 8 ≠ 0) || decide (c.rows = 0) ||
    decide (c.after = 1) || decide (4 < c.after.toNat) || decide (c.src.toNat % 8 ≠ 0) || decide (c.dst.toNat % 8 ≠ 0) ||
    decide (c.srcStride % 8 ≠ 0) || decide (c.dstStride % 8 ≠ 0) ||
    ((c.srcSp == c.dstSp) && overlaps c.src.toNat (ext c.srcStride) c.dst.toNat (ext c.dstStride))

/-- The tile that a scratchpad side names, if the side lies in the map of 04 R81. -/
def sideTile (a : Word) : Option Nat := (spLoc a).map SpLoc.tile

/-- The engine that gets a command, and whether its sides make it BADDESC there (04 R107). -/
def CopyCmd.route (c : CopyCmd) (own : Nat) : Nat × Bool :=
  match c.srcSp, c.dstSp with
  | false, false => (own, false)
  | true, false => (match sideTile c.src with | some t => (t, false) | none => (own, true))
  | false, true => (match sideTile c.dst with | some t => (t, false) | none => (own, true))
  | true, true =>
    match sideTile c.src, sideTile c.dst with
    | some t, some u => if t = u then (t, false) else (own, true)
    | _, _ => (own, true)

/-- A command enters its engine's queue and counts for its slot (04 R107). -/
def State.copyAccept (s : State) (c : CopyCmd) : State :=
  (s.modTile c.tile (fun t => { t with copies := t.copies ++ [c] })).modStrand c.strand (fun x =>
    { x with cpOut := x.cpOut + 1 })

/-- The first fault of a list whose condition holds, with its XVAL. -/
def firstFault : List (Cause × Word × Bool) → Option (Cause × Word)
  | [] => none
  | (c, v, b) :: r => if b then some (c, v) else firstFault r

/-- `cp` (04 R107, R109): LSRANGE, MALN, each of ga before gb (assumption 89); the descriptor is read at issue; the command
waits for room in its engine's queue. -/
def execCp (a b : BitVec 5) (h : BitVec 2) (s : State) : Result :=
  let ga := s.hart.getG a
  let gb := s.hart.getG b
  s.issue Need.access
    (match firstFault [(.lsrange, ga, decide (0x40000 ≤ ga.toNat)), (.lsrange, gb, decide (0x40000 ≤ gb.toNat)),
       (.maln, ga, decide (ga.toNat % 32 ≠ 0)), (.maln, gb, decide (gb.toNat % 16 ≠ 0))] with
     | some (c, v) => s.raise c v
     | none =>
       let w := bytesWords (s.localRead ga.toNat 32) 4
       let c0 : CopyCmd :=
         { strand := s.hart.sid, pid := s.hart.pid, exec := s.hart.status.exec, isLp := s.hart.record.opt,
           core := s.coreNo, tile := s.tileNo, src := nthW w 0, dst := nthW w 1, word2 := nthW w 2, word3 := nthW w 3,
           stat := gb.toNat, bad := false, running := false, cancel := false, asked := false, failed := none, moved := none }
       let r := c0.route s.tileNo
       let c1 : CopyCmd := { c0 with tile := r.1, bad := r.2 }
       let s1 := (s.beforeAccess true).releaseActions s.hid (if r.1 = s.tileNo then 1 else 2)
       if (s1.tile r.1).copies.length < 64 then (s1.copyAccept c1).done h id
       else .next (s1.parkAt h (.copyQueue c1)))

/-- `cpstat` (04 R108). -/
def execCpstat (d : BitVec 5) (h : BitVec 2) (s : State) : Result :=
  s.issue Need.access
    ((s.beforeAccess false).done h (fun x =>
      ({ x with cpFail := 0 } : Slot).setG d (packFields [(x.cpOut % 256, 0), (x.cpFail.toNat, 8)])))

/-! ## The engine (04 R108) -/

/-- The engine begins the oldest command: the descriptor is checked. -/
def execCopyStart (tile : Nat) (s : State) : Result :=
  match (s.tile tile).copies with
  | [] => .next s
  | c :: r =>
    if c.running then .next s
    else .next (s.modTile tile (fun t => { t with copies := { c with running := true, bad := c.bad || c.fieldsBad || c.sidesBad } :: r }))

/-- Why a command stops: status code, translation cause, faulting address. -/
structure CopyStop where
  code  : Nat
  cause : Nat
  addr  : Word
  deriving DecidableEq, Repr

/-- A scratchpad place that a copy command may use: scratchpad mode, PID, owner code 1. -/
def State.copySp (s : State) (c : CopyCmd) (a : Word) : Option CopyStop :=
  match spLoc a with
  | none => some { code := 1, cause := 0, addr := a }
  | some (.ctl _ _) => some { code := 1, cause := 0, addr := a }
  | some l =>
    match s.ownedAt l with
    | none => some { code := 4, cause := 0, addr := a }
    | some o =>
      if !c.exec && decide (s.ownedPid o ≠ c.pid) then some { code := 4, cause := 0, addr := a }
      else if s.ownerGet o ≠ 1 then some { code := 3, cause := 0, addr := a }
      else none

/-- The strand number under which a tile's copy engine makes its remote requests. -/
def copyId (tile : Nat) : Nat := noStrand + 1 + tile

/-- Read a piece of a command's source. -/
def State.copyRead (s : State) (c : CopyCmd) (a : Word) (n : Nat) : Except CopyStop (List Byte) × State :=
  if c.srcSp then
    match s.copySp c a with
    | some e => (.error e, s)
    | none => (.ok (s.spRead a.toNat n), s.consume none c.pid (spBase a.toNat) n)
  else
    match s.translate (quadOfTile c.tile) c.pid c.exec a .read with
    | (.error f, s1) => (.error { code := 2, cause := f.code.toNat % 256, addr := a }, s1)
    | (.ok x, s1) =>
      match s1.region x.pa with
      | .remote dev off =>
        (match s1.engineGot (copyId c.tile) dev off n with
         | some bs => (.ok bs, s1)
         | none => (.error { code := 2, cause := Cause.tnomem.code.toNat % 256, addr := a }, s1))
      | _ =>
        let (bs, s2) := (s1.consume none c.pid x.pa n).paRead (s1.pathOf (coreAt c.tile 0) c.pid x.cached x.hint) x.pa n
        (.ok bs, s2)

/-- Write a piece of a command's destination; a global write ends at its home copy (05 R126). -/
def State.copyWrite (s : State) (c : CopyCmd) (a : Word) (bs : List Byte) : Except CopyStop State × State :=
  if c.dstSp then
    match s.copySp c a with
    | some e => (.error e, s)
    | none => (.ok (s.spWrite a.toNat bs), s)
  else
    match s.translate (quadOfTile c.tile) c.pid c.exec a .write with
    | (.error f, s1) => (.error { code := 2, cause := f.code.toNat % 256, addr := a }, s1)
    | (.ok x, s1) =>
      match s1.region x.pa with
      | .remote dev off =>
        if s1.reach dev then (.ok (s1.remoteSend (storeRequest (copyId c.tile) dev off a bs false)), s1)
        else (.error { code := 2, cause := Cause.tnomem.code.toNat % 256, addr := a }, s1)
      | _ =>
        let s2 := s1.paWrite (s1.pathOf (coreAt c.tile 0) c.pid x.cached x.hint) noStrand a x.pa bs
        (.ok (s2.writeBackLine c.tile (x.pa / 256)), s1)

/-- Bytes up to the next 64-byte boundary of an address. -/
def piece (a : Word) : Nat := 64 - a.toNat % 64

/-- Row `r` from byte `o` on in pieces that cross no 64-byte boundary on either side: offset and length. -/
def CopyCmd.cuts (c : CopyCmd) (r o : Nat) : Nat → List (Nat × Nat)
  | 0 => []
  | fuel + 1 =>
    if c.rowBytes ≤ o then []
    else
      let n := Nat.min (c.rowBytes - o) (Nat.min (piece (c.srcAt r o)) (piece (c.dstAt r o)))
      (o, n) :: c.cuts r (o + n) fuel

/-- Every piece of a command: row, offset and length. -/
def CopyCmd.allCuts (c : CopyCmd) : List (Nat × Nat × Nat) :=
  (List.range c.rows).flatMap (fun r => (c.cuts r 0 (c.rowBytes / 8 + 1)).map (fun e => (r, e.1, e.2)))

/-- Move pieces, in order, up to the first that stops the command. -/
def State.copyPieces (s : State) (c : CopyCmd) : List (Nat × Nat × Nat) → Except CopyStop Unit × State
  | [] => (.ok (), s)
  | (r, o, n) :: rest =>
    match s.copyRead c (c.srcAt r o) n with
    | (.error e, s1) => (.error e, s1)
    | (.ok bs, s1) =>
      match s1.copyWrite c (c.dstAt r o) bs with
      | (.error e, s2) => (.error e, s2)
      | (.ok s2, _) => s2.copyPieces c rest

/-- The slabs and halves that one side of a command names. -/
def CopyCmd.named (c : CopyCmd) (src : Bool) : List Owned :=
  if (if src then c.srcSp else c.dstSp) then
    (List.range c.rows).flatMap (fun r => ownedIn (if src then c.srcAt r 0 else c.dstAt r 0).toNat c.rowBytes)
  else []

/-- What stops a command before any byte moves (04 R108). -/
def CopyCmd.stopped (c : CopyCmd) : Option CopyStop :=
  if c.cancel then some { code := 6, cause := 0, addr := 0 }
  else if c.bad then some { code := 1, cause := 0, addr := 0 }
  else if c.isLp && !c.dstSp then some { code := 5, cause := 0, addr := 0 }
  else none

/-- A command's job: stops first, then the data (04 R108). -/
def State.copyMove (s : State) (c : CopyCmd) : Except CopyStop Unit × State :=
  match c.stopped with
  | some e => (.error e, s)
  | none => s.copyPieces c c.allCuts

/-- A bank that the command names is switching, which holds the command (04 R85). -/
def State.copyHeld (s : State) (c : CopyCmd) : Bool :=
  (c.named true ++ c.named false).any (fun o =>
    match o with
    | .slab t n => ((s.tile t).bank (n / 64)).sw
    | .half _ _ => false)

/-- Replace the running command of an engine. -/
def State.setCopy (s : State) (tile : Nat) (c : CopyCmd) : State :=
  s.modTile tile (fun t => { t with copies := c :: t.copies.drop 1 })

/-- A command whose source another device holds asks for its bytes once. -/
def State.copyAsk (s : State) (c : CopyCmd) : State :=
  if c.asked || c.srcSp || c.stopped.isSome then s
  else (c.allCuts.foldl (fun (t : State) e => t.engineAsk (copyId c.tile) (quadOfTile c.tile) c.pid c.exec (c.srcAt e.1 e.2.1) e.2.2) s).setCopy c.tile { c with asked := true }

/-- The status area takes two doublewords (04 R108). -/
def State.copyStatus (s : State) (c : CopyCmd) (e : CopyStop) : State :=
  let w := wordsBytes [packFields [(e.code, 0), (e.cause, 8)], e.addr]
  { s with mem := memPut s.mem (localBase c.core + c.stat) w }

/-- A command leaves its engine's queue; the oldest waiting `cp` then enters it and completes (04 R107). -/
def State.copyLeave (s : State) (tile : Nat) : State :=
  let s1 := s.modTile tile (fun t => { t with copies := t.copies.drop 1 })
  match s1.oldestParked (fun p => match p with | .copyQueue c => decide (c.tile = tile) | _ => false) with
  | some (n, x) =>
    (match x.park with
     | some (.copyQueue c) => (s1.copyAccept c).modSlot n (fun y => y.finish 4 y.parkSh)
     | _ => s1)
  | none => s1

/-- The end of a command: status area, owner flips, its slot's count, room in the queue (04 R108; 05 R126). -/
def State.copyEnd (s : State) (c : CopyCmd) (e : CopyStop) : State :=
  let s2 := s.copyStatus c e
  let s3 :=
    if e.code = 0 then (s2.flipOwned (c.named false) 1 c.after).flipOwned (c.named true) 1 0
    else (s2.flipOwned (c.named true) 1 0).flipOwned (c.named false) 1 0
  let s4 := s3.modStrand c.strand (fun x =>
    { x with cpOut := x.cpOut - 1, cpFail := if x.cpFail = 0 then BitVec.ofNat 8 e.code else x.cpFail })
  s4.copyLeave c.tile

/-- The engine moves its command's data and ends it; with another device's memory on a side it asks for the bytes first and
ends when its writes there are acknowledged (04 R108; 05 R126). A failed remote access is reported as TFAULT with TNOMEM
(assumption 35). -/
def execCopyComplete (tile : Nat) (s : State) : Result :=
  match (s.tile tile).copies with
  | [] => .next s
  | c :: _ =>
    if !c.running || s.copyHeld c then .next s
    else
      let s0 := s.copyAsk c
      if s0.engineAwaits (copyId tile) then .next s0
      else
        let fail (a : Word) : CopyStop := { code := 2, cause := Cause.tnomem.code.toNat % 256, addr := a }
        match c.moved with
        | some (k, f, a) =>
          .next (s0.copyEnd c (match c.failed with | some v => fail v | none => { code := k, cause := f, addr := a }))
        | none =>
          let (r, s1) := s0.copyMove c
          let e : CopyStop := match r with | .ok _ => { code := 0, cause := 0, addr := 0 } | .error e => e
          let s2 := s1.engineForget (copyId tile)
          if s2.engineAwaits (copyId tile) then .next (s2.setCopy tile { c with asked := true, moved := some (e.code, e.cause, e.addr) })
          else .next (s2.copyEnd c e)

end Sys2Proof.Machine
end

