-- ==== Sys2Proof/Machine/Decomp.lean ====
section
/-!
DEFINITION. The computation of the decomposition engine (09 R224 to R227) and the ideal matrix of a palette (09 R209 to
R211, R227): binary64 numbers as encodings, complex numbers as pairs of them.
-/

namespace Sys2Proof.Machine

/-! ## binary64 (09 R224) -/

/-- A binary64 encoding of a result, rounded to nearest-even. -/
def enc64 (r : FRes) : Nat := ((Elt.ieee fmt64).encode 0 r).1
/-- The value of a binary64 encoding. -/
def d64 (c : Nat) : FVal := fmt64.decode c

/-- Addition. -/
def fadd64 (a b : Nat) : Nat := enc64 (fAdd fmt64 0 (d64 a) (d64 b))
/-- Subtraction. -/
def fsub64 (a b : Nat) : Nat := enc64 (fSub fmt64 0 (d64 a) (d64 b))
/-- Multiplication. -/
def fmul64 (a b : Nat) : Nat := enc64 (fMul fmt64 (d64 a) (d64 b))
/-- Division. -/
def fdiv64 (a b : Nat) : Nat := enc64 (fDiv fmt64 (d64 a) (d64 b))
/-- Square root. -/
def fsqrt64 (a : Nat) : Nat := enc64 (fSqrt fmt64 (d64 a))
/-- Negation. -/
def fneg64 (a : Nat) : Nat := if a < 2 ^ 63 then a + 2 ^ 63 else a - 2 ^ 63
/-- Magnitude. -/
def fabs64 (a : Nat) : Nat := a % 2 ^ 63
/-- The value is zero. -/
def isZero64 (a : Nat) : Bool := decide (a % 2 ^ 63 = 0)
/-- One. -/
def one64 : Nat := 0x3FF0000000000000
/-- Two. -/
def two64 : Nat := 0x4000000000000000
/-- The nearest binary64 number to 65,536/(2 pi) (09 R227). -/
def k64 : Nat := 0x40C45F306DC9C883
/-- 2^-10 (09 R225). -/
def tiny64 : Nat := 0x3F50000000000000

/-- A number man * 2^exp in binary64. -/
def num64 (neg : Bool) (man : Nat) (exp : Int) : Nat := enc64 (.num neg man exp, 0)

/-- One level of the pairing. -/
def pairUp64 : List Nat → List Nat
  | a :: b :: r => fadd64 a b :: pairUp64 r
  | l => l

/-- PairSum64 (08 R201; 09 R224), `fuel` levels at most. -/
def pairSum64 (l : List Nat) : Nat → Nat
  | 0 => l.headD 0
  | n + 1 =>
    match l with
    | [] => 0
    | [a] => a
    | _ => pairSum64 (pairUp64 l) n

/-- PairSum64 of a list. -/
def psum (l : List Nat) : Nat := pairSum64 l l.length

/-! ## Complex numbers -/

/-- A complex number of two binary64 encodings. -/
structure Cx where
  re : Nat
  im : Nat
  deriving DecidableEq, Repr

/-- (ac - bd) + (ad + bc)i (09 R224). -/
def Cx.mul (x y : Cx) : Cx :=
  { re := fsub64 (fmul64 x.re y.re) (fmul64 x.im y.im), im := fadd64 (fmul64 x.re y.im) (fmul64 x.im y.re) }
/-- Sum. -/
def Cx.add (x y : Cx) : Cx := { re := fadd64 x.re y.re, im := fadd64 x.im y.im }
/-- Product with a real number. -/
def Cx.scale (x : Cx) (r : Nat) : Cx := { re := fmul64 x.re r, im := fmul64 x.im r }
/-- Quotient by a real number. -/
def Cx.over (x : Cx) (r : Nat) : Cx := { re := fdiv64 x.re r, im := fdiv64 x.im r }
/-- Conjugate. -/
def Cx.conj (x : Cx) : Cx := { x with im := fneg64 x.im }
/-- Negation. -/
def Cx.negate (x : Cx) : Cx := { re := fneg64 x.re, im := fneg64 x.im }
/-- Magnitude (09 R224). -/
def Cx.abs (x : Cx) : Nat := fsqrt64 (fadd64 (fmul64 x.re x.re) (fmul64 x.im x.im))
/-- Both parts are zero. -/
def Cx.isZero (x : Cx) : Bool := isZero64 x.re && isZero64 x.im
/-- Zero. -/
def Cx.zero : Cx := { re := 0, im := 0 }
/-- A real number. -/
def Cx.real (r : Nat) : Cx := { re := r, im := 0 }

/-! ## Angles: fixed point with `Config.seriesBits` fractional bits (assumption 11) -/

/-- The quotient of two non-negative finite numbers, the first not above the second, in fixed point. -/
def fxRatio (m1 : Nat) (e1 : Int) (m2 : Nat) (e2 : Int) : Nat :=
  let sh := e1 - e2 + Config.seriesBits
  if 0 ≤ sh then m1 * 2 ^ sh.toNat / m2 else m1 / (m2 * 2 ^ (-sh).toNat)

/-- A positive irrational number in fixed point as binary64. -/
def fx64 (neg : Bool) (v : Nat) : Nat := num64 neg (2 * v + 1) (-(Config.seriesBits : Int) - 1)

/-- Atan2 (09 R224), for finite arguments. -/
def atan2 (y x : Nat) : Nat :=
  match d64 y, d64 x with
  | .num ny my ey, .num nx mx ex =>
    if my = 0 then (if mx = 0 || !nx then 0 else fx64 false fxPi)
    else
      let flat := dyLe my ey mx ex
      let a := if flat then fxAtan (fxRatio my ey mx ex) else fxPi / 2 - fxAtan (fxRatio mx ex my ey)
      fx64 ny (if nx && decide (mx ≠ 0) then fxPi - a else a)
  | _, _ => 0

/-- The alternating series of the sine (from the term x) or the cosine (from the term 1). -/
def trigSeries (x2 t k : Nat) : Nat → Int
  | 0 => 0
  | n + 1 => (t : Int) - trigSeries x2 (t * x2 / fxOne / ((k + 1) * (k + 2))) (k + 2) n

/-- Cosine and sine of r * pi/65,536 for 0 ≤ r < 32,768, correctly rounded (09 R227). -/
def quadTrig (r : Nat) : Nat × Nat :=
  if r = 0 then (one64, 0)
  else
    let x := fxPi * r / 65536
    let x2 := x * x / fxOne
    (fx64 false (trigSeries x2 fxOne 0 45).toNat, fx64 false (trigSeries x2 x 1 45).toNat)

/-- Cosine and sine of k * pi/65,536. -/
def trig (k : Nat) : Nat × Nat :=
  let (c, s) := quadTrig (k % 32768)
  match k / 32768 % 4 with
  | 0 => (c, s)
  | 1 => (fneg64 s, c)
  | 2 => (fneg64 c, fneg64 s)
  | _ => (s, fneg64 c)

/-! ## Interferometers (09 R209, R226) -/

/-- A two by two complex matrix by rows. -/
structure M2 where
  aa : Cx
  ab : Cx
  ba : Cx
  bb : Cx
  deriving DecidableEq, Repr

/-- T(c, s, p) of 09 R226. -/
def tMat (c s : Nat) (p : Cx) : M2 :=
  let g : Cx := { re := fneg64 s, im := c }
  { aa := g.mul (p.scale s), ab := g.scale c, ba := g.mul (p.scale c), bb := g.scale (fneg64 s) }

/-- Tinv(c, s, p) of 09 R226. -/
def tInv (c s : Nat) (p : Cx) : M2 :=
  let g : Cx := { re := fneg64 s, im := fneg64 c }
  let q := p.conj
  { aa := g.mul (q.scale s), ab := g.mul (q.scale c), ba := g.scale c, bb := g.scale (fneg64 s) }

/-- idx(c, j) of 09 R209. -/
def ifIdx (c j : Nat) : Nat := 32 * ((c + 1) / 2) + 31 * (c / 2) + j

/-! ## First stage (09 R225): matrices as lists of rows -/

/-- Element of a real matrix. -/
def rowGet (r : List Nat) (k : Nat) : Nat := r[k]?.getD 0

/-- Column of a real matrix. -/
def column (m : List (List Nat)) (k : Nat) : List Nat := m.map (fun r => rowGet r k)

/-- Elementwise products summed. -/
def dot64 (x y : List Nat) : Nat := psum (List.zipWith fmul64 x y)

/-- Rotate two columns of a matrix. -/
def rotate (m : List (List Nat)) (k l c s : Nat) : List (List Nat) :=
  m.map (fun r =>
    let x := rowGet r k
    let y := rowGet r l
    (r.set k (fsub64 (fmul64 c x) (fmul64 s y))).set l (fadd64 (fmul64 s x) (fmul64 c y)))

/-- One Jacobi step on the columns k and l of A and J. -/
def jacobiStep (aj : List (List Nat) × List (List Nat)) (kl : Nat × Nat) : List (List Nat) × List (List Nat) :=
  let ck := column aj.1 kl.1
  let cl := column aj.1 kl.2
  let gm := dot64 ck cl
  if isZero64 gm then aj
  else
    let ze := fdiv64 (fsub64 (dot64 cl cl) (dot64 ck ck)) (fmul64 two64 gm)
    let sgn := if (d64 ze).neg && !isZero64 ze then fneg64 one64 else one64
    let t := fdiv64 sgn (fadd64 (fabs64 ze) (fsqrt64 (fadd64 one64 (fmul64 ze ze))))
    let c := fdiv64 one64 (fsqrt64 (fadd64 one64 (fmul64 t t)))
    let s := fmul64 c t
    (rotate aj.1 kl.1 kl.2 c s, rotate aj.2 kl.1 kl.2 c s)

/-- The column pairs of a sweep, in order. -/
def sweepPairs (n : Nat) : List (Nat × Nat) :=
  (List.range n).flatMap (fun k => ((List.range n).filter (fun l => k < l)).map (fun l => (k, l)))

/-- The identity. -/
def identity64 (n : Nat) : List (List Nat) :=
  (List.range n).map (fun i => (List.range n).map (fun k => if i = k then one64 else 0))

/-- Twelve sweeps. -/
def jacobi (a : List (List Nat)) (n : Nat) : List (List Nat) × List (List Nat) :=
  (List.range 12).foldl (fun aj _ => (sweepPairs n).foldl jacobiStep aj) (a, identity64 n)

/-- Insert an index into a list ordered by descending value, after its equals. -/
def insertBy (v : Nat → Nat) (k : Nat) : List Nat → List Nat
  | [] => [k]
  | m :: r => if v m < v k then k :: m :: r else m :: insertBy v k r

/-- Modified Gram-Schmidt of a working vector against columns. -/
def reduceBy (w : List Nat) (cols : List (List Nat)) : List Nat :=
  cols.foldl (fun w u => let d := dot64 w u; List.zipWith (fun a b => fsub64 a (fmul64 d b)) w u) w

/-- Complete(k) of 09 R225 from unit vector m on; the last resort is never reached. -/
def completeFrom (cols : List (List Nat)) (n m : Nat) : Nat → List Nat
  | 0 => List.replicate n 0
  | fuel + 1 =>
    let w := reduceBy ((List.range n).map (fun i => if i = m then one64 else 0)) cols
    let nr := fsqrt64 (dot64 w w)
    if tiny64 < nr then w.map (fun x => fdiv64 x nr) else completeFrom cols n (m + 1) fuel

/-- The singular values in order, the columns of U and the rows of V (09 R225). -/
structure Svd where
  vals : List Nat
  u    : List (List Nat)
  v    : List (List Nat)
  deriving DecidableEq, Repr

/-- The first stage on a block. -/
def svd (a : List (List Nat)) (n : Nat) : Svd :=
  let (a1, j1) := jacobi a n
  let sg := (List.range n).map (fun k => fsqrt64 (dot64 (column a1 k) (column a1 k)))
  let perm := (List.range n).foldl (fun l k => insertBy (rowGet sg) k l) []
  { vals := perm.map (rowGet sg)
    u := perm.foldl (fun cols k =>
      cols ++ [if isZero64 (rowGet sg k) then completeFrom cols n 0 n
               else (column a1 k).map (fun x => fdiv64 x (rowGet sg k))]) []
    v := perm.map (column j1) }

/-! ## Second stage (09 R226): complex matrices as lists of rows -/

/-- Element of a complex row. -/
def cxGet (r : List Cx) (k : Nat) : Cx := r[k]?.getD Cx.zero

/-- Row of a complex matrix. -/
def cxRow (m : List (List Cx)) (k : Nat) : List Cx := m[k]?.getD []

/-- rho of 09 R226. -/
def rhoOf (a b : Cx) : Nat :=
  fsqrt64 (fadd64 (fadd64 (fadd64 (fmul64 a.re a.re) (fmul64 a.im a.im)) (fmul64 b.re b.re)) (fmul64 b.im b.im))

/-- An interferometer: mode a, c, s, p. -/
structure Ifm where
  a : Nat
  c : Nat
  s : Nat
  p : Cx
  deriving DecidableEq, Repr

/-- NullRight (09 R226). -/
def nullRight (a : Nat) (u0 u1 : Cx) : Ifm :=
  let rho := rhoOf u0 u1
  if isZero64 rho then { a := a, c := one64, s := 0, p := Cx.real one64 }
  else
    { a := a, c := fdiv64 u0.abs rho, s := fdiv64 u1.abs rho
      p := if u0.isZero || u1.isZero then Cx.real one64
           else (u0.over u0.abs).negate.mul (u1.over u1.abs).conj }

/-- NullLeft (09 R226). -/
def nullLeft (a : Nat) (v0 v1 : Cx) : Ifm :=
  let rho := rhoOf v0 v1
  if isZero64 rho then { a := a, c := one64, s := 0, p := Cx.real one64 }
  else
    { a := a, c := fdiv64 v1.abs rho, s := fdiv64 v0.abs rho
      p := if v0.isZero || v1.isZero then Cx.real one64
           else (v1.over v1.abs).mul (v0.over v0.abs).conj }

/-- X := X · M on columns a and a + 1. -/
def mulCols (x : List (List Cx)) (a : Nat) (m : M2) : List (List Cx) :=
  x.map (fun r =>
    let x0 := cxGet r a
    let x1 := cxGet r (a + 1)
    (r.set a ((x0.mul m.aa).add (x1.mul m.ba))).set (a + 1) ((x0.mul m.ab).add (x1.mul m.bb)))

/-- X := M · X on rows a and a + 1. -/
def mulRows (x : List (List Cx)) (a : Nat) (m : M2) : List (List Cx) :=
  let r0 := cxRow x a
  let r1 := cxRow x (a + 1)
  (x.set a (List.zipWith (fun p q => (m.aa.mul p).add (m.ab.mul q)) r0 r1)).set (a + 1)
    (List.zipWith (fun p q => (m.ba.mul p).add (m.bb.mul q)) r0 r1)

/-- The state of Decompose: X, rlist in order, llist with the last appended first. -/
structure Dec where
  x  : List (List Cx)
  rl : List Ifm
  ll : List Ifm
  deriving DecidableEq, Repr

/-- One step of a right level. -/
def decRight (n lv : Nat) (d : Dec) (j : Nat) : Dec :=
  let row := cxRow d.x (n - 1 - j)
  let a := lv - 1 - j
  let f := nullRight a (cxGet row a) (cxGet row (a + 1))
  { d with x := mulCols d.x a (tInv f.c f.s f.p), rl := d.rl ++ [f] }

/-- One step of a left level. -/
def decLeft (n lv : Nat) (d : Dec) (j : Nat) : Dec :=
  let a := n + j - lv - 2
  let f := nullLeft a (cxGet (cxRow d.x a) (j - 1)) (cxGet (cxRow d.x (a + 1)) (j - 1))
  { d with x := mulRows d.x a (tMat f.c f.s f.p), ll := f :: d.ll }

/-- One level of Decompose. -/
def decLevel (n : Nat) (d : Dec) (lv : Nat) : Dec :=
  if lv % 2 = 1 then (List.range lv).foldl (decRight n lv) d
  else ((List.range lv).map (· + 1)).foldl (decLeft n lv) d

/-- Move one left interferometer past the screen. -/
def passScreen (acc : List Cx × List Ifm) (f : Ifm) : List Cx × List Ifm :=
  let d0 := cxGet acc.1 f.a
  let d1 := cxGet acc.1 (f.a + 1)
  let e : Cx := { re := fsub64 (fmul64 f.c f.c) (fmul64 f.s f.s), im := fmul64 (fneg64 (fmul64 two64 f.c)) f.s }
  let da := (e.negate.mul f.p.conj).mul d1
  let db := e.negate.mul d1
  ((acc.1.set f.a da).set (f.a + 1) db, acc.2 ++ [{ f with p := d0.mul d1.conj }])

/-- Decompose (09 R226): the screen, and the interferometers in light order. -/
def decompose (x : List (List Cx)) (n : Nat) : List Cx × List Ifm :=
  let d := ((List.range (n - 1)).map (· + 1)).foldl (decLevel n) { x := x, rl := [], ll := [] }
  let scr := (List.range n).map (fun m =>
    let e := cxGet (cxRow d.x m) m
    if e.isZero then Cx.real one64 else e.over e.abs)
  let r := d.ll.foldl passScreen (scr, [])
  (r.1, d.rl ++ r.2)

/-! ## Codes (09 R227) -/

/-- An integer nearest to a finite binary64 number, ties to even. -/
def roundInt64 (x : Nat) : Int :=
  match d64 x with
  | .num neg m e => (FVal.toInt 0 neg m e).1
  | _ => 0

/-- Code(x). -/
def angleCode (x : Nat) : BitVec 16 := BitVec.ofInt 16 (roundInt64 (fmul64 x k64))

/-- A mesh in image order: θ and φ of each interferometer, the bar state first (09 R210, R214). -/
def barMesh : List (BitVec 16) := List.replicate 4032 0x8000

/-- Place one interferometer: its column is the lowest of its parity after those on its modes (09 R226). -/
def placeIfm (acc : List Nat × List (BitVec 16)) (f : Ifm) : List Nat × List (BitVec 16) :=
  -- the first list holds, for each mode, the column after the last one used on it
  let c0 := Nat.max (rowGet acc.1 f.a) (rowGet acc.1 (f.a + 1))
  let c := c0 + (c0 + f.a) % 2
  let k := 2 * ifIdx c ((f.a - c % 2) / 2)
  ((acc.1.set f.a (c + 1)).set (f.a + 1) (c + 1),
   (acc.2.set k (angleCode (fmul64 two64 (atan2 f.s f.c)))).set (k + 1) (angleCode (atan2 f.p.im f.p.re)))

/-- The codes of a mesh. -/
def meshCodes (l : List Ifm) : List (BitVec 16) := (l.foldl placeIfm (List.replicate 65 0, barMesh)).2

/-- value(s_w) in binary64 (07 R165). -/
def scaleVal (sw : Nat) : Nat := let (m, e) := e5m3 sw; num64 false m e

/-! ## The ideal matrix (09 R211, R227) -/

/-- The matrix of an interferometer from its codes. -/
def codeMat (theta phi : BitVec 16) : M2 :=
  let (c, s) := trig theta.toNat
  let (pc, ps) := trig (2 * phi.toNat)
  tMat c s { re := pc, im := ps }

/-- The interferometers of the corner of a palette of size n, column by column: mode and index (09 R210). -/
def cornerIfs (n : Nat) : List (Nat × Nat) :=
  (List.range n).flatMap (fun c =>
    ((List.range 32).filter (fun j => 2 * j + c % 2 + 1 < n)).map (fun j => (2 * j + c % 2, ifIdx c j)))

/-- The matrices of the corner of a mesh, in light order. Outside the corner T(π, π) is the identity (09 R209, R210). -/
def cornerMats (codes : List (BitVec 16)) (n : Nat) : List (Nat × M2) :=
  (cornerIfs n).map (fun e => (e.1, codeMat (codes[2 * e.2]?.getD 0) (codes[2 * e.2 + 1]?.getD 0)))

/-- Light through interferometers. -/
def through (l : List (Nat × M2)) (x : List Cx) : List Cx :=
  l.foldl (fun x e =>
    let x0 := cxGet x e.1
    let x1 := cxGet x (e.1 + 1)
    (x.set e.1 ((e.2.aa.mul x0).add (e.2.ab.mul x1))).set (e.1 + 1) ((e.2.ba.mul x0).add (e.2.bb.mul x1))) x

/-- Ŵ by columns: element r of column k is binary64 (09 R211, R227). `mesh` holds V then U in image order. -/
def idealCols (mesh att scr : List (BitVec 16)) (sw n : Nat) : List (List Nat) :=
  let v := cornerMats (mesh.take 4032) n
  let u := cornerMats (mesh.drop 4032) n
  let sv := scaleVal sw
  (List.range n).map (fun k =>
    let x := through v ((List.range n).map (fun i => if i = k then Cx.real one64 else Cx.zero))
    let y := through u (List.zipWith (fun (a : BitVec 16) (z : Cx) => z.scale (num64 false a.toNat (-15))) (att.take n) x)
    List.zipWith (fun (q : BitVec 16) (z : Cx) =>
      let (c, s) := trig (2 * q.toNat)
      fmul64 sv (Cx.mul { re := c, im := s } z).re) (scr.take n) y)

/-- ⌊-8 log2 q⌋ of a positive number, held to 0 .. 127. -/
def febcOf (man : Nat) (exp : Int) : Nat :=
  let m8 := man ^ 8
  let l := Nat.log2 m8
  let up : Int := (if m8 = 2 ^ l then (l : Int) else (l : Int) + 1) + 8 * exp
  if 0 ≤ up then 0 else Nat.min 127 (-up).toNat

/-- FEBC (09 R227): `w` holds the block by columns. -/
def febc (ideal w : List (List Nat)) (sw : Nat) : Nat :=
  let es := List.zipWith (fun a b => List.zipWith (fun x y => fabs64 (fsub64 x y)) a b) ideal w
  let e := es.foldl (fun m l => l.foldl Nat.max m) 0
  if e = 0 || sw = 0 then 127
  else
    match d64 (fdiv64 e (scaleVal sw)) with
    | .num _ m x => if m = 0 then 127 else febcOf m x
    | _ => 0

/-! ## The whole computation -/

/-- What the engine computes: a status other than 0, or the content of a palette (09 R219, R227). -/
structure DecompOut where
  status : Nat
  mesh   : List (BitVec 16)
  att    : List (BitVec 16)
  screen : List (BitVec 16)
  sw     : Nat
  febc   : Nat
  deriving DecidableEq, Repr

/-- A failing decomposition. -/
def DecompOut.fail (st : Nat) : DecompOut := { status := st, mesh := [], att := [], screen := [], sw := 0, febc := 0 }

/-- Codes of 64 modes: those below n, then zeros (09 R210). -/
def pad64 (l : List (BitVec 16)) : List (BitVec 16) := (l ++ List.replicate 64 0).take 64

/-- Factorise a block given by rows of FP32 encodings (09 R224 to R227). -/
def factorise (block : List (List Nat)) (n : Nat) : DecompOut :=
  if block.any (fun r => r.any (fun c => (d32 c).isNan || (d32 c).isInf)) then DecompOut.fail 5
  else
    let a := block.map (fun r => r.map (fun c => enc64 (d32 c, 0)))
    let f := svd a n
    let s0 := rowGet f.vals 0
    if (match d64 s0 with | .num _ m e => !dyLe m e 114688 0 | _ => true) then DecompOut.fail 6
    else
      let dv := decompose (f.v.map (fun r => r.map Cx.real)) n
      let u2 := (List.range n).map (fun i =>
        List.zipWith (fun (c : List Nat) (d : Cx) => (Cx.real (rowGet c i)).mul d) f.u dv.1)
      let du := decompose u2 n
      let sw := match d64 s0 with | .num _ m e => if m = 0 then 0 else (e5m3Up m e).1 | _ => 0
      let att := f.vals.map (fun v =>
        if sw = 0 then (0 : BitVec 16)
        else BitVec.ofNat 16
          (Nat.min (roundInt64 (fmul64 (fdiv64 v (scaleVal sw)) (num64 false 1 15))).toNat 0x8000))
      let mesh := meshCodes dv.2 ++ meshCodes du.2
      let scr := du.1.map (fun d => angleCode (atan2 d.im d.re))
      { status := 0, mesh := mesh, att := pad64 att, screen := pad64 scr, sw := sw
        febc := febc (idealCols mesh att scr sw n) ((List.range n).map (column a)) sw }

end Sys2Proof.Machine
end

