-- ==== Sys2Proof/Machine/Optical.lean ====
section
/-!
DEFINITION. The optical tile (09 R207 to R242): its palettes and their images, the optical queue, `phld`, `phst`, `psel` and
`dcmp`, the states of the tile, swatches and drift, and its registers.
-/

namespace Sys2Proof.Machine

/-! ## Palettes -/

/-- A palette of a tile; none when EMPTY (09 R213). -/
def Optics.pal (o : Optics) (p : Nat) : Option Palette := (o.pals[p]?).getD none

/-- Replace a palette. -/
def Optics.setPal (o : Optics) (p : Nat) (v : Option Palette) : Optics := { o with pals := o.pals.setIfInBounds p v }

/-- A VALID palette is stale (09 R216). -/
def Optics.isStale (o : Optics) (k : Palette) : Bool := decide (k.conv ≠ some o.calgen)

/-- The palette names itself active and ready for light: VALID, active, not stale (09 R213, R216). -/
def Optics.standing (o : Optics) (p : Nat) : Bool :=
  decide (o.active.toNat = p) && (match o.pal p with | some k => !o.isStale k | none => false)

/-- CALAGE in ms, saturating (09 R237). -/
def Optics.calMs (o : Optics) (ticks : Nat) : Nat :=
  match o.calAt with
  | none => 0xFFFFFFFF
  | some t => Nat.min ((ticks - t) / 2000000) 0xFFFFFFFF

/-- A palette's current calibrated EBC (09 R234). -/
def Optics.pebcOf (o : Optics) (ticks p : Nat) : Nat :=
  match o.pal p with
  | none => 0
  | some k => if o.isStale k then 0 else k.pebc0.toNat - o.calMs ticks / 600000

/-- Column and position of interferometer `m` of a mesh (09 R209). -/
def ifAt (m : Nat) : Nat × Nat :=
  if m % 63 < 32 then (2 * (m / 63), m % 63) else (2 * (m / 63) + 1, m % 63 - 32)

/-- Interferometer `m` lies in the corner of size n (09 R210). -/
def inCorner (n m : Nat) : Bool :=
  let (c, j) := ifAt m
  decide (c < n) && decide (2 * j + c % 2 + 1 < n)

/-- Mesh codes as the tile forces them, from code number `k` on: the bar state outside the corner (09 R210). -/
def forceMesh (n : Nat) : Nat → List (BitVec 16) → List (BitVec 16)
  | _, [] => []
  | k, c :: r => (if inCorner n (k / 2 % 2016) then c else 0x8000) :: forceMesh n (k + 1) r

/-- Codes of 64 modes as the tile forces them (09 R210). -/
def forceModes (n : Nat) (l : List (BitVec 16)) : List (BitVec 16) := pad64 (l.take n)

/-- 16-bit codes of bytes. -/
def bytesCodes : List Byte → List (BitVec 16)
  | a :: b :: r => BitVec.ofNat 16 (a.toNat + 256 * b.toNat) :: bytesCodes r
  | _ => []

/-- Bytes of 16-bit codes. -/
def codesBytes (l : List (BitVec 16)) : List Byte := l.flatMap (fun c => natLe 2 c.toNat)

/-- Bytes of a palette image (09 R214). -/
def imageBytes : Nat := 16640

/-- `n` bytes of an image from an offset, as a number. -/
def imgNat (bs : List Byte) (off n : Nat) : Nat := leNat ((bs.drop off).take n)

/-- The image is well-formed (09 R215). -/
def imageOk (bs : List Byte) : Bool :=
  let n := imgNat bs 6 1
  decide (imgNat bs 0 4 = 0x31504C5A) && decide (imgNat bs 4 2 = 1) && decide (1 ≤ n) && decide (n ≤ 64) &&
    decide (imgNat bs 7 1 ≠ 0xFF) && decide (imgNat bs 8 1 < 128) && decide (imgNat bs 9 7 = 0) &&
    decide (imgNat bs 24 232 = 0) &&
    ((bytesCodes ((bs.drop 0x4000).take 128)).take n).all (fun c => decide (c.toNat ≤ 0x8000))

/-- The content of a well-formed image as a palette that no tile has converted yet (09 R214, R215, R221). -/
def imagePalette (bs : List Byte) (pid : BitVec 12) : Palette :=
  let n := imgNat bs 6 1
  { mesh := forceMesh n 0 (bytesCodes ((bs.drop 0x100).take 0x3F00)),
    att := forceModes n (bytesCodes ((bs.drop 0x4000).take 128)),
    screen := forceModes n (bytesCodes ((bs.drop 0x4080).take 128)),
    sw := BitVec.ofNat 8 (imgNat bs 7 1), n := BitVec.ofNat 7 n, febc := BitVec.ofNat 7 (imgNat bs 8 1),
    tag := BitVec.ofNat 64 (imgNat bs 16 8), pid := pid, pebc0 := 0, conv := none }

/-- The image of a palette (09 R214, R222). -/
def Palette.image (k : Palette) : List Byte :=
  natLe 4 0x31504C5A ++ natLe 2 1 ++ natLe 1 k.n.toNat ++ natLe 1 k.sw.toNat ++ natLe 1 k.febc.toNat ++
    List.replicate 7 0 ++ natLe 8 k.tag.toNat ++ List.replicate 232 0 ++ codesBytes k.mesh ++ codesBytes k.att ++
    codesBytes k.screen

/-- Convert a palette's codes under the tile's calibration: CALGEN is recorded, but in DARK and CALIB the palette is stale
from the start (09 R216); PEBC0 comes from the calibration map (09 R234; assumption 7). -/
def Optics.convert (o : Optics) (k : Palette) (pebc : BitVec 7) : Palette :=
  { k with pebc0 := pebc, conv := if o.state = .dark || o.state = .calib then none else some o.calgen }

/-- A command writes palette `p`, and the tile converts it (09 R213, R216). -/
def Optics.write (o : Optics) (p : Nat) (k : Palette) (pebc : BitVec 7) : Optics := o.setPal p (some (o.convert k pebc))

/-- Make palette `p` active, converting it first if it is stale (09 R223). -/
def Optics.activate (o : Optics) (p : Nat) (pebc : BitVec 7) : Optics :=
  let o1 : Optics :=
    match o.pal p with
    | some k => if o.isStale k then o.write p k pebc else o
    | none => o
  { o1 with active := BitVec.ofNat 2 p }

/-! ## Thermal EBC (09 R231, R232) -/

/-- Wavelengths in service. -/
def Optics.lanes (o : Optics) : List Nat := (List.range 8).filter (fun w => o.live.getLsbD w)

/-- The last swatch of a wavelength since the tile entered READY. -/
def Optics.swatchAt (o : Optics) (w : Nat) : Option Nat := (o.lastSw[w]?).getD none

/-- A wavelength in service has had no swatch since the tile entered READY: the swatch set is due (09 R217). -/
def Optics.setDue (o : Optics) : Bool := o.lanes.any (fun w => (o.swatchAt w).isNone)

/-- SWAGE: µs since the swatch of the wavelength that has waited longest, saturating; 0xFFFF before the first swatch since
the tile entered READY (09 R232, R237). -/
def Optics.swageUs (o : Optics) (ticks : Nat) : Nat :=
  if !o.swatched || o.setDue then 0xFFFF
  else o.lanes.foldl (fun m w => Nat.max m (Nat.min ((ticks - (o.swatchAt w).getD 0) / 2000) 0xFFFF)) 0

/-- The thermal EBC (09 R232): floor(8 (16 - log2 D)) with 16 D = 16 D_m + DRATE SWAGE. -/
def Optics.tebc (o : Optics) (ticks : Nat) : Nat :=
  if !o.swatched then 0
  else
    let n := 16 * o.dm.toNat + o.drate.toNat * o.swageUs ticks
    if n = 0 then 127
    else
      let m := n ^ 8
      let l := Nat.log2 m
      Nat.min 127 (160 - (if m = 2 ^ l then l else l + 1))

/-- DEBC_g, which the quantisation of a code holds to 80 (09 R233). -/
def Optics.debcOf (o : Optics) (g : Nat) : Nat := Nat.min 80 ((o.debc.extractLsb' (7 * g) 7).toNat)

/-- The declared EBC of a vector with palette p and gain exponent g at this moment (09 R240). -/
def Optics.declared (o : Optics) (ticks p g : Nat) : Nat :=
  Nat.min (o.pebcOf ticks p) (Nat.min (o.tebc ticks) (o.debcOf g))

/-! ## Registers (09 R235 to R238) -/

/-- A tile's state as OTSTAT shows it. -/
def TileState.code : TileState → Nat
  | .dark => 0
  | .calib => 1
  | .ready => 2
  | .hold => 3
  | .digital => 4

/-- A value of each palette, 0 to 3, packed at a spacing. -/
def perPalette (f : Nat → Nat) (width low : Nat) : List (Nat × Nat) :=
  (List.range 4).map (fun p => (f p, low + width * p))

/-- OTSTAT. -/
def Optics.otstat (o : Optics) : Word :=
  packFields
    (perPalette (fun p => match o.pal p with | some k => k.n.toNat | none => 0) 7 36 ++ [(o.calgen.toNat, 20)] ++
     perPalette (fun p => b2n (o.pal p).isSome) 1 16 ++
     perPalette (fun p => match o.pal p with | some k => b2n (o.isStale k) | none => 0) 1 12 ++
     [(Nat.min 64 o.queue.length, 5), (o.active.toNat, 3), (o.state.code, 0)])

/-- OEBC. -/
def Optics.oebc (o : Optics) (ticks : Nat) : Word := packFields ((o.tebc ticks, 28) :: perPalette (o.pebcOf ticks) 7 0)

/-- ODET. -/
def Optics.odet (o : Optics) : Word := packFields (perPalette o.debcOf 7 0)

/-- ODRIFT. -/
def Optics.odrift (o : Optics) (ticks : Nat) : Word :=
  packFields [(o.dm.toNat, 48), (o.drate.toNat, 32), (o.swageUs ticks, 16), (o.tempMax.toNat, 8), (o.tempSpan.toNat, 0)]

/-- OCAL. -/
def Optics.ocal (o : Optics) (ticks : Nat) : Word :=
  packFields [(o.calMs ticks, 32), (o.qmon.toNat, 24), (o.live.toNat, 16)]

/-! ## The optical queue (09 R220) -/

/-- The command is a pass. -/
def OptKind.isPass : OptKind → Bool
  | .pass => true
  | .passr => true
  | _ => false

/-- The command is the palette loader's. -/
def OptKind.isLoad : OptKind → Bool
  | .phld => true
  | .phst => true
  | _ => false

/-- The fn7 that OERR records (09 R219, R238; 10 R243). -/
def OptKind.fn7 : OptKind → Nat
  | .pass => 0
  | .passr => 1
  | .phld => 0
  | .phst => 1
  | .psel => 2
  | .dcmp => 3
  | .clr => 0

/-- Vectors of a pass's descriptor (10 R245). -/
def OptCmd.count (c : OptCmd) : Nat := fld c.desc0 30 16

/-- Every vector of a started pass that will enter has entered (09 R220; 10 R260). -/
def PassRun.allIn (r : PassRun) : Bool := !r.ok || r.ending || r.cmd.cancel || decide (r.cmd.count ≤ r.next)

/-- A queued pass has entered its last group. -/
def Optics.entered (o : Optics) (c : OptCmd) : Bool := o.runs.any (fun r => r.cmd.ticket = c.ticket && r.allIn)

/-- An earlier command `e` of the queue keeps `c` from starting (09 R218, R220; 10 R248, R260). -/
def Optics.blocks (o : Optics) (c e : OptCmd) : Bool :=
  match e.kind, c.kind with
  | .clr, _ => true
  | _, .clr => true
  | _, .psel =>
    if e.kind.isPass then !o.entered e else decide (e.kind = .psel) || decide (e.pal = c.pal)
  | _, .dcmp => decide (e.kind = .dcmp) || decide (e.pal = c.pal)
  | _, .phld => e.kind.isLoad || decide (e.pal = c.pal)
  | _, .phst => e.kind.isLoad || decide (e.pal = c.pal)
  | _, _ =>
    if e.kind.isPass then !o.entered e else decide (e.kind = .psel) || decide (e.pal = c.pal)

/-- The first command of the selected kinds that has not started, with its place, if nothing before it blocks it. -/
def Optics.startable (o : Optics) (sel : OptKind → Bool) : Option (Nat × OptCmd) :=
  match o.queue.zipIdx.find? (fun e => sel e.1.kind && !e.1.running) with
  | some (c, i) => if (o.queue.take i).any (fun e => o.blocks c e) then none else some (i, c)
  | none => none

/-- The running command of a kind, with its place. -/
def Optics.running (o : Optics) (k : OptKind) : Option (Nat × OptCmd) :=
  (o.queue.zipIdx.find? (fun e => decide (e.1.kind = k) && e.1.running)).map (fun e => (e.2, e.1))

/-- Replace the command at a place. -/
def Optics.setCmd (o : Optics) (i : Nat) (c : OptCmd) : Optics := { o with queue := o.queue.set i c }

/-- Mark the command at a place running. -/
def Optics.markRunning (o : Optics) (i : Nat) (c : OptCmd) : Optics := o.setCmd i { c with running := true }

/-- The engines of a tile are available: its issuing core has not been retired (01 R9). What has not started then waits for
the next cold reset, unless it is cancelled (assumption 90). -/
def State.engineOn (s : State) (tile : Nat) : Bool := s.plat.coreMap.getLsbD (issuingCore tile)

/-- The tile accepts a command: a pass takes its ticket (10 R256), and a register that awaits a reply is held
(09 R219, R242). -/
def State.optAccept (s : State) (c : OptCmd) : State :=
  let tk := (s.tile c.tile).opt.acc + 1
  let pass := c.kind.isPass
  let c1 : OptCmd := if pass then { c with ticket := tk } else c
  let s1 := s.modOpt c.tile (fun o => { o with acc := if pass then tk else o.acc, queue := o.queue ++ [c1] })
  if c.varn || c.kind = .clr then s1
  else
    s1.modStrand c.strand (fun x =>
      { x with
        ticket := if pass then some tk else x.ticket
        okeep := if pass then bitOf c.desc0 62 else x.okeep
        passOut := if pass then x.passOut + 1 else x.passOut
        acks := match c.ack with | some d => x.acks ++ [d] | none => x.acks })

/-- The executing strand issues an optical command: every earlier access is performed (09 R228; 10 R265), and without room
in the queue the strand parks (09 R220). -/
def State.optIssue (s : State) (h : BitVec 2) (c : OptCmd) : Result :=
  let s1 := (s.beforeAccess true).releaseActions s.hid 1
  if (s1.tile c.tile).opt.queue.length < 64 then (s1.optAccept c).done h id
  else .next (s1.parkAt h (.optQueue c))

/-- A command has left the queue: the strand that has waited longest for room has its command accepted and goes on. -/
def State.optRoom (s : State) (tile : Nat) : State :=
  if (s.tile tile).opt.queue.length < 64 then
    match s.oldestParked (fun p => match p with | .optQueue c => decide (c.tile = tile) | _ => false) with
    | some (n, x) =>
      (match x.park with
       | some (.optQueue c) => (s.optAccept c).modSlot n (fun y => y.finish 4 y.parkSh)
       | _ => s)
    | none => s
  else s

/-- An engine's reply reaches its register (09 R219). -/
def State.engineReply (s : State) (strand : Nat) (d : BitVec 5) (v : Word) : State :=
  s.modStrandKept strand (fun x => { x.setG d v with acks := x.acks.erase d })

/-- OERR records the first failure of a command without a reply; a later one is recorded in the sketchbook only, as is the
address of a TFAULT (09 R238). -/
def State.optFailure (s : State) (c : OptCmd) (status tcause : Nat) (addr : Word) : State :=
  let w := packFields [(tcause, 16), (c.pal.toNat, 14), (c.kind.fn7, 8), (status, 0)]
  let s1 :=
    if fld (s.tile c.tile).opt.oerr 7 0 = 0 then s.modOpt c.tile (fun o => { o with oerr := w })
    else s.noteEngine 0x03 c.pid w 0
  if status = 2 then s1.noteEngine 0x03 c.pid w addr else s1

/-- The varnish kind of a palette command (13 R337). -/
def OptKind.varnish : OptKind → Nat
  | .phld => 5
  | .phst => 6
  | .psel => 7
  | _ => 8

/-- The EBC of a reply, whatever its status: of `phld` and `psel` the palette's current one, of `dcmp` the FEBC of the new
palette, 0 where it made none (09 R219). -/
def State.replyEbc (s : State) (c : OptCmd) (febc : Nat) : Nat :=
  match c.kind with
  | .phld => (s.tile c.tile).opt.pebcOf s.ticks c.pal.toNat
  | .psel => (s.tile c.tile).opt.pebcOf s.ticks c.pal.toNat
  | _ => febc

/-- A command other than a pass ends: it leaves the queue, and its reply or its failure is delivered (09 R219, R238); a
failed action of the varnish stage, which has no reply, is also recorded as one (13 R338). -/
def State.optEnd (s : State) (tile idx : Nat) (c : OptCmd) (status febc tcause : Nat) (addr : Word) : State :=
  let s1 := s.modOpt tile (fun o => { o with queue := o.queue.eraseIdx idx })
  let ebc := s1.replyEbc c febc
  let s2 :=
    if c.varn then (if status = 0 then s1 else (s1.optFailure c status tcause addr).varnFail c.pid c.kind.varnish c.addr status)
    else
      match c.ack with
      | some d => s1.engineReply c.strand d (packFields [(ebc, 8), (status, 0)])
      | none => if status = 0 then s1 else s1.optFailure c status tcause addr
  s2.optRoom tile

/-- The owner check of a command on a palette (09 R213). -/
def Optics.foreign (o : Optics) (c : OptCmd) : Bool :=
  match o.pal c.pal.toNat with
  | some k => decide (k.pid ≠ c.pid)
  | none => false

/-! ## Palette instructions (09 R219, R230) -/

/-- The fields every optical command of the executing strand has. -/
def State.optCmd (s : State) (k : OptKind) (ack : Option (BitVec 5)) : OptCmd :=
  let x := s.hart
  { kind := k, tile := s.tileNo, strand := x.sid, pid := x.pid, exec := x.status.exec, isLp := x.record.opt,
    handler := x.lp.hno, ack := ack, pal := 0, addr := 0, n := 0, desc0 := 0, desc1 := 0, floor := x.floor,
    emulate := x.emulate, ticket := 0, varn := false, running := false, cancel := false }

/-- What the palette instructions need: the issuing core, and no logical process (09 R219). -/
def Need.palette : Need := { Need.command with opt := true }

/-- `phld` and `phst` (09 R219, R221, R222). -/
def State.imageCmd (s : State) (k : OptKind) (ack : Option (BitVec 5)) (a b : BitVec 5) (h : BitVec 2) : Result :=
  let ga := s.hart.getG a
  let gb := s.hart.getG b
  s.issue Need.palette
    (if 4 ≤ gb.toNat then s.raise .palarg 0
     else if ga.toNat % 256 ≠ 0 then s.raise .maln ga
     else s.optIssue h { s.optCmd k ack with pal := gb.setWidth 2, addr := ga })

/-- `psel` (09 R223). -/
def State.selCmd (s : State) (ack : Option (BitVec 5)) (a : BitVec 5) (h : BitVec 2) : Result :=
  let ga := s.hart.getG a
  s.issue Need.palette
    (if 4 ≤ ga.toNat then s.raise .palarg 0
     else s.optIssue h { s.optCmd .psel ack with pal := ga.setWidth 2 })

/-- `dcmp` (09 R224, R230). -/
def State.decompCmd (s : State) (ack : Option (BitVec 5)) (a b : BitVec 5) (h : BitVec 2) : Result :=
  let ga := s.hart.getG a
  let gb := s.hart.getG b
  let n := fld gb 14 8
  s.issue Need.palette
    (if fld gb 63 15 ≠ 0 || fld gb 7 2 ≠ 0 || n = 0 || 64 < n then s.raise .palarg 0
     else if ga.toNat % 16384 ≠ 0 then s.raise .maln ga
     else if ga.toNat / 2 ^ 24 ≠ s.tileNo then s.raise .sprange ga
     else s.optIssue h { s.optCmd .dcmp ack with pal := gb.setWidth 2, addr := ga, n := n })

/-- `phld` (09 R221). -/
def execPhld (a b : BitVec 5) (h : BitVec 2) (s : State) : Result := s.imageCmd .phld none a b h
/-- `phld.ack` (09 R221). -/
def execPhldAck (d a b : BitVec 5) (h : BitVec 2) (s : State) : Result := s.imageCmd .phld (some d) a b h
/-- `phst` (09 R222). -/
def execPhst (a b : BitVec 5) (h : BitVec 2) (s : State) : Result := s.imageCmd .phst none a b h
/-- `phst.ack` (09 R222). -/
def execPhstAck (d a b : BitVec 5) (h : BitVec 2) (s : State) : Result := s.imageCmd .phst (some d) a b h
/-- `psel` (09 R223). -/
def execPsel (a : BitVec 5) (h : BitVec 2) (s : State) : Result := s.selCmd none a h
/-- `psel.ack` (09 R223). -/
def execPselAck (d a : BitVec 5) (h : BitVec 2) (s : State) : Result := s.selCmd (some d) a h
/-- `dcmp` (09 R224). -/
def execDcmp (a b : BitVec 5) (h : BitVec 2) (s : State) : Result := s.decompCmd none a b h
/-- `dcmp.ack` (09 R224). -/
def execDcmpAck (d a b : BitVec 5) (h : BitVec 2) (s : State) : Result := s.decompCmd (some d) a b h

/-! ## The palette loader (09 R221, R222) -/

/-- The requester number under which a tile's palette loader asks other devices. -/
def loaderId (tile : Nat) : Nat := noStrand + 33 + tile

/-- A request of an engine to another device has failed (14 R350): its running command keeps the first address. -/
def State.engineFailed (s : State) (id : Nat) (va : Word) : State :=
  let k := id - (noStrand + 1)
  if k < 16 then
    s.modTile k (fun t =>
      { t with copies := match t.copies with | c :: r => { c with failed := some (c.failed.getD va) } :: r | [] => [] })
  else if k < 32 then s
  else
    s.modOpt (k - 32) (fun o =>
      { o with queue := o.queue.map (fun c => if c.running && c.kind.isLoad then { c with failed := some (c.failed.getD va) } else c) })

/-- TNOMEM as a TFAULT's cause, for an access to another device that fails (assumption 35). -/
def farCause : Cause := .tnomem

/-- Read bytes for the loader of a tile through its tile cache, in pieces that cross no 64-byte boundary; the answers of
another device have come. -/
def State.loaderRead (s : State) (tile : Nat) (pid : BitVec 12) (exec : Bool) (a : Word) (n : Nat) :
    Nat → Except (Cause × Word) (List Byte) × State
  | 0 => (.ok [], s)
  | fuel + 1 =>
    if n = 0 then (.ok [], s)
    else
      let k := Nat.min n (piece a)
      match s.translate (quadOfTile tile) pid exec a .read with
      | (.error f, s1) => (.error (f, a), s1)
      | (.ok x, s1) =>
        let (got, s2) : Option (List Byte) × State :=
          match s1.region x.pa with
          | .remote dev off => (s1.engineGot (loaderId tile) dev off k, s1)
          | _ =>
            let (bs, t) := (s1.consume none pid x.pa k).paRead (s1.pathOf (coreAt tile 0) pid x.cached x.hint) x.pa k
            (some bs, t)
        match got with
        | none => (.error (farCause, a), s2)
        | some bs =>
          match s2.loaderRead tile pid exec (a + BitVec.ofNat 64 k) (n - k) fuel with
          | (.ok r, s3) => (.ok (bs ++ r), s3)
          | (.error e, s3) => (.error e, s3)

/-- Write bytes for the loader of a tile, each piece performed at its home copy (05 R126; 09 R222). -/
def State.engineWrite (s : State) (tile : Nat) (pid : BitVec 12) (exec : Bool) (a : Word) (bs : List Byte) :
    Nat → Option (Cause × Word) × State
  | 0 => (none, s)
  | fuel + 1 =>
    if bs.isEmpty then (none, s)
    else
      let k := Nat.min bs.length (piece a)
      match s.translate (quadOfTile tile) pid exec a .write with
      | (.error f, s1) => (some (f, a), s1)
      | (.ok x, s1) =>
        match s1.region x.pa with
        | .remote dev off =>
          if s1.reach dev then
            (s1.remoteSend (storeRequest (loaderId tile) dev off a (bs.take k) false)).engineWrite tile pid exec
              (a + BitVec.ofNat 64 k) (bs.drop k) fuel
          else (some (farCause, a), s1)
        | _ =>
          let s2 := s1.paWrite (s1.pathOf (coreAt tile 0) pid x.cached x.hint) noStrand a x.pa (bs.take k)
          (s2.writeBackLine tile (x.pa / 256)).engineWrite tile pid exec (a + BitVec.ofNat 64 k) (bs.drop k) fuel

/-- The loader takes the next command of a kind. -/
def State.loaderStart (s : State) (tile : Nat) (k : OptKind) : Result :=
  match (s.tile tile).opt.startable OptKind.isLoad with
  | some (i, c) =>
    if c.kind = k && (s.engineOn tile || c.cancel) then .next (s.modOpt tile (fun o => o.markRunning i c)) else .next s
  | none => .next s

/-- The loader asks other devices once for the bytes of an image that they hold, in the pieces it reads. -/
def State.imageAsk (s : State) (tile i : Nat) (c : OptCmd) : State :=
  if c.asked then s
  else
    ((List.range (imageBytes / 64)).foldl (fun (t : State) k =>
      t.engineAsk (loaderId tile) (quadOfTile tile) c.pid c.exec (c.addr + BitVec.ofNat 64 (64 * k)) 64) s).modOpt tile (fun o =>
        o.setCmd i { c with asked := true })

/-- Status and cause of an image access that faults. -/
def tfault (c : Cause) : Nat × Nat := (2, c.code.toNat % 256)

/-- The loader begins a `phld`. -/
def execPaletteLoadStart (tile : Nat) (s : State) : Result := s.loaderStart tile .phld

/-- The loader ends a `phld`: the image read and well-formed becomes the palette (09 R221). The spec leaves the order of the
reads open: the model reads the whole image at this moment, in ascending order, so that of several faults the lowest address
is the one reported, and PALPID comes before TFAULT and BADIMG (assumption 40). Bytes that another device holds are asked for
first. -/
def execPaletteLoadDone (tile : Nat) (pebc : BitVec 7) (s : State) : Result :=
  match (s.tile tile).opt.running .phld with
  | none => .next s
  | some (i, c) =>
    if c.cancel then .next ((s.remoteEnd (fun q => decide (q.strand = loaderId tile))).optEnd tile i c 7 0 0 0)
    else if (s.tile tile).opt.foreign c then .next (s.optEnd tile i c 8 0 0 0)
    else
      let s0 := s.imageAsk tile i c
      if s0.engineAwaits (loaderId tile) then .next s0
      else
        match s0.loaderRead tile c.pid c.exec c.addr imageBytes 300 with
        | (.error e, s1) => .next ((s1.engineForget (loaderId tile)).optEnd tile i c (tfault e.1).1 0 (tfault e.1).2 e.2)
        | (.ok bs, s1) =>
          let s2 := s1.engineForget (loaderId tile)
          if !imageOk bs then .next (s2.optEnd tile i c 1 0 0 0)
          else .next ((s2.modOpt tile (fun o => o.write c.pal.toNat (imagePalette bs c.pid) pebc)).optEnd tile i c 0 0 0 0)

/-- The loader begins a `phst`. -/
def execPaletteStoreStart (tile : Nat) (s : State) : Result := s.loaderStart tile .phst

/-- The end of a `phst`: `st` is its status, cause and address, unless an access to another device failed. -/
def State.storeDone (s : State) (tile i : Nat) (c : OptCmd) (st : Nat × Nat × Word) : State :=
  match c.failed with
  | some a => s.optEnd tile i c (tfault farCause).1 0 (tfault farCause).2 a
  | none => s.optEnd tile i c st.1 0 st.2.1 st.2.2

/-- The loader ends a `phst`: the image is written at its home copy (09 R222), and what another device holds of it has been
acknowledged. -/
def execPaletteStoreDone (tile : Nat) (s : State) : Result :=
  match (s.tile tile).opt.running .phst with
  | none => .next s
  | some (i, c) =>
    if s.engineAwaits (loaderId tile) then .next s
    else if c.cancel then .next (s.optEnd tile i c 7 0 0 0)
    else
      match c.moved with
      | some st => .next (s.storeDone tile i c st)
      | none =>
        if (s.tile tile).opt.foreign c then .next (s.optEnd tile i c 8 0 0 0)
        else
          match (s.tile tile).opt.pal c.pal.toNat with
          | none => .next (s.optEnd tile i c 9 0 0 0)
          | some k =>
            let (e, s1) := s.engineWrite tile c.pid c.exec c.addr k.image 300
            let st : Nat × Nat × Word := match e with | some f => ((tfault f.1).1, (tfault f.1).2, f.2) | none => (0, 0, 0)
            if s1.engineAwaits (loaderId tile) then
              .next (s1.modOpt tile (fun o => o.setCmd i { c with moved := some st }))
            else .next (s1.storeDone tile i c st)

/-- A `psel` takes effect (09 R223). -/
def execPaletteSwitch (tile : Nat) (pebc : BitVec 7) (s : State) : Result :=
  match (s.tile tile).opt.startable (fun k => decide (k = .psel)) with
  | none => .next s
  | some (i, c) =>
    let o := (s.tile tile).opt
    if c.cancel then .next (s.optEnd tile i c 7 0 0 0)
    else if !s.engineOn tile then .next s
    else if o.foreign c then .next (s.optEnd tile i c 8 0 0 0)
    else if (o.pal c.pal.toNat).isNone then .next (s.optEnd tile i c 9 0 0 0)
    else
      let s1 := s.modOpt tile (fun o => o.activate c.pal.toNat pebc)
      .next (s1.optEnd tile i c 0 0 0 0)

/-! ## The decomposition engine (09 R224) -/

/-- The slab of a `dcmp` block. -/
def OptCmd.slab (c : OptCmd) : Owned := .slab c.tile (c.addr.toNat % 2 ^ 24 / 16384)

/-- End a `dcmp` with the slab it found owned by code 2 flipped to 0 (09 R224). -/
def State.decompEnd (s : State) (tile i : Nat) (c : OptCmd) (status febc : Nat) : State :=
  (if s.ownerGet c.slab = 2 then s.flip c.slab 0 else s).optEnd tile i c status febc 0 0

/-- The engine takes a `dcmp`: PALPID, SPMODE and OWNER, in this order, end it here (the table of 09 R219 gives no order:
assumption 40); a slab owned by another code is not touched. A command cancelled in the queue ends with no change
(09 R242). -/
def execDecompStart (tile : Nat) (s : State) : Result :=
  match (s.tile tile).opt.startable (fun k => decide (k = .dcmp)) with
  | none => .next s
  | some (i, c) =>
    let b := (s.tile tile).bank (c.addr.toNat % 2 ^ 24 / 2 ^ 20)
    if c.cancel then .next (s.optEnd tile i c 7 0 0 0)
    else if !s.engineOn tile then .next s
    else if (s.tile tile).opt.foreign c then .next (s.decompEnd tile i c 8 0)
    else if b.mode ≠ 1 || b.pid ≠ c.pid then .next (s.decompEnd tile i c 4 0)
    else if s.ownerGet c.slab ≠ 2 then .next (s.decompEnd tile i c 3 0)
    else .next (s.modOpt tile (fun o => o.markRunning i c))

/-- The block of a `dcmp` by rows of FP32 encodings (09 R224). -/
def State.decompBlock (s : State) (c : OptCmd) : List (List Nat) :=
  (List.range c.n).map (fun r => (List.range c.n).map (fun k => leNat (s.spRead (c.addr.toNat + 256 * r + 4 * k) 4)))

/-- The engine consumes the `n × n` block of a `dcmp` and nothing outside it (09 R224; 15 R389). -/
def State.decompInput (s : State) (c : OptCmd) : State :=
  (List.range c.n).foldl (fun (t : State) r => t.consume none c.pid (spBase (c.addr.toNat + 256 * r)) (4 * c.n)) s

/-- The engine ends a `dcmp`: the palette takes the factorisation (09 R224 to R227). -/
def execDecompDone (tile : Nat) (pebc : BitVec 7) (s : State) : Result :=
  match (s.tile tile).opt.running .dcmp with
  | none => .next s
  | some (i, c) =>
    if c.cancel then .next (s.decompEnd tile i c 7 0)
    else
      let s := s.decompInput c
      let f := factorise (s.decompBlock c) c.n
      if f.status ≠ 0 then .next (s.decompEnd tile i c f.status 0)
      else
        let k : Palette :=
          { mesh := f.mesh, att := f.att, screen := f.screen, sw := BitVec.ofNat 8 f.sw, n := BitVec.ofNat 7 c.n,
            febc := BitVec.ofNat 7 f.febc, tag := 0, pid := c.pid, pebc0 := 0, conv := none }
        .next ((s.modOpt tile (fun o => o.write c.pal.toNat k pebc)).decompEnd tile i c 0 f.febc)

/-! ## States of the tile (09 R217, R218) -/

/-- Entry to READY: the swatch set is due, and DM, SWAGE and TEBC hold their reset values until its first swatch
(09 R217, R237). -/
def Optics.toReady (o : Optics) : Optics :=
  { o with state := .ready, swatched := false, dm := 0xFFFF, lastSw := Vector.replicate 8 none,
           laneVec := Vector.replicate 8 0 }

/-- The compute lines are lit in the present laser power state (14 R365). -/
def State.computeLit (s : State) : Bool := decide (s.plat.cur ≠ 3)

/-- The state that a calibrated tile in service takes: DARK under OFF or without compute lines, HOLD during a laser
switch-over, else READY (09 R217, R218). -/
def State.optLight (s : State) (tile : Nat) : State :=
  let lit := s.computeLit
  let sw := s.plat.switching
  s.modOpt tile (fun o =>
    if o.off || !o.calibrated || !lit then { o with state := .dark }
    else if sw then { o with state := .hold }
    else o.toReady)

/-- The discovery table changes if a tile's byte does (16 R414). -/
def State.tileShown (s old : State) (tile : Nat) : State :=
  if s.tileByte tile = old.tileByte tile then s else s.tableChange

/-- Begin the bring-up calibration of waiting tiles, at most four at once, in ascending order (16 R413). -/
def State.calibNext (s : State) : Nat → State
  | 0 => s
  | n + 1 =>
    match s.plat.calQueue with
    | [] => s
    | t :: r =>
      let busy := ((List.range 16).filter (fun k => let o := (s.tile k).opt; o.calReq || decide (o.state = .calib))).length
      if 4 ≤ busy then s
      else ((s.modPlat (fun p => { p with calQueue := r })).modOpt t (fun o => { o with calReq := true, off := false })).calibNext n

/-- The bring-up of the tiles is over when each is READY or DIGITAL, or has no healthy issuing core: SVC becomes 2
(16 R413). -/
def State.serviceTiles (s : State) : State :=
  let settled (t : Nat) : Bool :=
    !s.plat.coreMap.getLsbD (issuingCore t) || (match (s.tile t).opt.state with | .ready => true | .digital => true | _ => false)
  if s.plat.svc = 1 && (List.range 16).all settled then (s.modPlat (fun p => { p with svc := 2 })).tableChange else s

/-- A write of OTCTL.OFF (09 R218): the tile is DARK, also out of CALIB, whose calibration is then abandoned, so that the
next waiting tile starts (16 R413); a DIGITAL tile stays so. -/
def State.optOff (s : State) (tile : Nat) (off : Bool) : State :=
  let s1 := s.modOpt tile (fun o => { o with off := off })
  let s2 :=
    match (s1.tile tile).opt.state with
    | .digital => s1
    | .dark => if off then s1 else s1.optLight tile
    | .calib => if off then (s1.modOpt tile (fun o => { o with state := .dark })).calibNext 4 else s1
    | _ => if off then s1.modOpt tile (fun o => { o with state := .dark }) else s1
  (s2.tileShown s tile).serviceTiles

/-- A write of OTCTL.CAL (09 R218). -/
def State.optCal (s : State) (tile : Nat) : State := s.modOpt tile (fun o => { o with calReq := true })

/-- The entry that a write of OTCTL.CLR puts into the queue (09 R218). -/
def clrCmd (tile : Nat) : OptCmd :=
  { kind := .clr, tile := tile, strand := 0, pid := 0, exec := true, isLp := false, handler := 0, ack := none, pal := 0,
    addr := 0, n := 0, desc0 := 0, desc1 := 0, floor := 0, emulate := true, ticket := 0, varn := false, running := false,
    cancel := false }

/-- The entry of OTCTL.CLR (09 R218); without room nothing is entered here, and the writing strand waits in its `srw`. -/
def execOtctlClr (tile : Nat) (s : State) : Result :=
  if (s.tile tile).opt.queue.length < 64 then .next (s.optAccept (clrCmd tile)) else .next s

/-- OTCTL.CLR takes effect (09 R218). -/
def execOtctlClrEffect (tile : Nat) (s : State) : Result :=
  match (s.tile tile).opt.startable (fun k => decide (k = .clr)) with
  | none => .next s
  | some (i, c) => .next ((s.modOpt tile (fun o => { o with pals := Vector.replicate 4 none })).optEnd tile i c 0 0 0 0)

/-- OTCTL.CAL (09 R218). -/
def execOtctlCal (tile : Nat) (s : State) : Result := .next (s.optCal tile)

/-- OTCTL.OFF (09 R218). -/
def execOtctlOff (tile : Nat) (off : Bool) (s : State) : Result := .next (s.optOff tile off)

/-- Vectors that were modulated await their detection. -/
def Optics.inFlight (o : Optics) : Bool := o.runs.any (fun r => r.groups.any (fun g => !g.emu))

/-- The tile enters CALIB once the vectors already modulated have been detected (09 R218); a DIGITAL tile stays so until a
cold reset, a tile in HOLD waits for its light, and under OFF a tile is DARK. -/
def execCalibEnter (tile : Nat) (s : State) : Result :=
  let o := (s.tile tile).opt
  if o.calReq && !o.off && !o.inFlight && o.state ≠ .digital && o.state ≠ .hold && s.computeLit then
    .next ((s.modOpt tile (fun o => { o with state := .calib, calReq := false })).tableChange)
  else .next s

/-- Change every optical tile. -/
def State.modOptics (s : State) (f : Optics → Optics) : State := (List.range 16).foldl (fun (t : State) n => t.modOpt n f) s

/-- The tiles of healthy issuing cores that are not DIGITAL wait for their bring-up calibration (16 R413). -/
def State.calibAll (s : State) : State :=
  let l := (List.range 16).filter (fun t => s.plat.coreMap.getLsbD (issuingCore t) && decide ((s.tile t).opt.state ≠ .digital))
  (s.modPlat (fun p => { p with calQueue := l })).calibNext 4

/-- The optical tile of an issuing core out of service is DIGITAL (01 R9; 09 R217). -/
def State.retiredDigital (s : State) : State :=
  (List.range 16).foldl (fun (t : State) k =>
    if t.engineOn k then t else t.modOpt k (fun o => { o with state := .digital, calReq := false })) s

/-- Calibration ends (09 R216, R217, R237): CALGEN rises, every VALID palette is stale, and the active one is converted
again; `found` are the wavelengths in service and the drift rate; the tile becomes READY, DARK or, where calibration failed, DIGITAL. -/
def execTileCalibDone (tile : Nat) (ok : Bool) (found : BitVec 8 × BitVec 16) (pebc : BitVec 7) (s : State) : Result :=
  if (s.tile tile).opt.state ≠ .calib then .next s
  else
    let now := s.ticks
    let p64 := Config.freePebc s.freeCtr
    let s1 := s.tickFree.modOpt tile (fun o =>
      { o with calgen := o.calgen + 1, calAt := some now, drate := found.2, qmon := 0, oswm := 0, pebc64 := p64,
               calibrated := ok, live := found.1, state := .digital })
    let s2 :=
      s1.modOpt tile (fun o =>
        match o.pal o.active.toNat with
        | some k => o.write o.active.toNat k pebc
        | none => o)
    let s3 := if ok then s2.optLight tile else s2
    .next ((s3.tableChange.calibNext 4).serviceTiles)

/-! ## Swatches and drift (09 R231 to R233) -/

/-- A number held to a field of `n` bits. -/
def satTo (n v : Nat) : Nat := Nat.min v (2 ^ n - 1)

/-- A swatch on a wavelength with its mismatch, its largest quadrature excursion, both in codes, and the drift bound the tile
measures (09 R231, R232, R237). -/
def execSwatchInject (tile lane mismatch quad dm : Nat) (s : State) : Result :=
  let o := (s.tile tile).opt
  if o.state ≠ .ready || 8 ≤ lane || !o.live.getLsbD lane then .next s
  else
    let now := s.ticks
    let p := o.pebcOf s.ticks o.active.toNat
    let miss := decide (2 ^ 72 < mismatch ^ 8 * 2 ^ p)
    let old := fld o.oswm (8 * lane + 7) (8 * lane)
    .next (s.modOpt tile (fun o =>
      { o with
        lastSw := o.lastSw.setIfInBounds lane (some now)
        laneVec := o.laneVec.setIfInBounds lane 0
        swatched := true
        dm := BitVec.ofNat 16 (satTo 16 dm)
        swatch := o.swatch + 1
        oswm := if miss then setFld o.oswm (8 * lane + 7) (8 * lane) (satTo 8 (old + 1)) else o.oswm
        qmon := if 64 < quad then BitVec.ofNat 8 (satTo 8 (o.qmon.toNat + 1)) else o.qmon }))

/-- The thermal loop reports the temperatures (09 R232, R237), and the wavelengths that it still finds in service: one that
has left stays out until a calibration (09 R237; 10 R249; assumption 91). -/
def execThermalLoop (tile : Nat) (temps : Nat × Nat) (live : BitVec 8) (s : State) : Result :=
  .next (s.modOpt tile (fun o =>
    { o with live := o.live &&& live, tempMax := BitVec.ofNat 8 (satTo 8 temps.1), tempSpan := BitVec.ofNat 8 (satTo 8 temps.2) }))

/-- An evaluation of DEBC (09 R233). -/
def execDebcEval (tile : Nat) (debc : BitVec 28) (s : State) : Result :=
  .next (s.modOpt tile (fun o => { o with debc := debc }))

end Sys2Proof.Machine
end

