-- ==== Sys2Proof/Machine/Pass.lean ====
section
/-!
DEFINITION. Optical passes (10 R243 to R269): the descriptor, the start checks, groups and their floor test, detector codes
to output, emulation, the end of a pass, `pass`, `passr`, `pebc`, `pflr`, `ptkt`.
-/

namespace Sys2Proof.Machine

/-! ## The descriptor (10 R245, R246) -/

/-- OKEEP. -/
def OptCmd.okeep (c : OptCmd) : Bool := bitOf c.desc0 62
/-- IAFTER. -/
def OptCmd.iafter (c : OptCmd) : Nat := fld c.desc0 61 60
/-- LMASK. -/
def OptCmd.lmask (c : OptCmd) : BitVec 8 := BitVec.ofNat 8 (fld c.desc0 59 52)
/-- GAIN. -/
def OptCmd.gain (c : OptCmd) : Nat := fld c.desc0 49 48
/-- ACC. -/
def OptCmd.acc (c : OptCmd) : Bool := bitOf c.desc0 47
/-- OFMT. -/
def OptCmd.ofmt (c : OptCmd) : Nat := fld c.desc0 46 45
/-- The output half, numbered as in 04 R81: 2 for O0, 3 for O1. -/
def OptCmd.oh (c : OptCmd) : Nat := 2 + b2n (bitOf c.desc0 44)
/-- OOFF. -/
def OptCmd.ooff (c : OptCmd) : Nat := fld c.desc0 43 32
/-- The input half, numbered as in 04 R81. -/
def OptCmd.ih (c : OptCmd) : Nat := b2n (bitOf c.desc0 14)
/-- IV. -/
def OptCmd.iv (c : OptCmd) : Nat := fld c.desc0 13 0

/-- Bytes of an output vector (10 R246). -/
def OptCmd.vs (c : OptCmd) : Nat :=
  match c.ofmt with
  | 0 => 256
  | 1 => 128
  | _ => 64

/-- Bytes of the scale area of TF8 output (10 R246). -/
def OptCmd.scaleArea (c : OptCmd) : Nat := if c.ofmt = 2 then (c.count + 255) / 256 * 256 else 0

/-- The descriptor is legal (10 R246). -/
def OptCmd.legal (c : OptCmd) : Bool :=
  !bitOf c.desc0 63 && !bitOf c.desc0 31 && !bitOf c.desc0 15 && decide (1 ≤ c.count) && decide (c.count ≤ 16384) &&
    decide (c.iv + c.count ≤ 16384) && decide (c.ofmt ≠ 3) && decide (c.iafter ≠ 3) && (!c.acc || decide (c.ofmt = 0)) &&
    decide (c.lmask ≠ 0) && decide (256 * c.ooff + 256 + c.count * c.vs + c.scaleArea ≤ 1048576)

/-- Scratchpad address of a byte of a half of a tile (04 R81). -/
def halfAddr (tile half off : Nat) : Nat := 0x10000000 + tile * 2 ^ 24 + half * 2 ^ 22 + off

/-- Scratchpad address of a scale byte of an input half (04 R81). -/
def scaleAddr (tile half v : Nat) : Nat := 0x10100000 + tile * 2 ^ 24 + half * 2 ^ 22 + v

/-- Scratchpad address of a byte of the output area. -/
def OptCmd.outAddr (c : OptCmd) (off : Nat) : Nat := halfAddr c.tile c.oh (256 * c.ooff + off)

/-- Scratchpad address of output vector j. -/
def OptCmd.vecAddr (c : OptCmd) (j : Nat) : Nat := c.outAddr (256 + j * c.vs)

/-- The scale byte of input vector j of a pass. -/
def State.inScale (s : State) (c : OptCmd) (j : Nat) : Nat := leNat (s.spRead (scaleAddr c.tile c.ih (c.iv + j)) 1)

/-- Mantissa k of input vector j of a pass, as a signed number (07 R167). -/
def State.inMant (s : State) (c : OptCmd) (j k : Nat) : Int :=
  toSigned 8 (leNat (s.spRead (halfAddr c.tile c.ih (64 * (c.iv + j) + k)) 1))

/-- The engine of a pass consumes `n` input vectors from vector j on, with their scales (15 R389). -/
def State.passInput (s : State) (c : OptCmd) (j n : Nat) : State :=
  (s.consume none c.pid (spBase (halfAddr c.tile c.ih (64 * (c.iv + j)))) (64 * n)).consume none c.pid
    (spBase (scaleAddr c.tile c.ih (c.iv + j))) n

/-! ## Leave (15 R399) -/

/-- Leave granted on a tile, saturating. -/
def State.leaveGranted (s : State) (tile : Nat) : State :=
  s.modTile tile (fun t => { t with grants := BitVec.ofNat 32 (satTo 32 (t.grants.toNat + 1)) })

/-- A collective of a PID has a chunk on a tile for which it was granted leave and that is not done. -/
def State.chunkUnderWay (s : State) (tile : Nat) (pid : BitVec 12) : Bool :=
  s.colls.any (fun e =>
    let c := e.2
    decide (c.pid = pid) && decide (c.state = 2) && decide (fld c.d1 29 0 / 2 ^ 24 = tile) &&
      (c.marks.take c.granted).any (fun m => decide (m < (if fld c.d0 63 62 = 1 then 1 else 2))))

/-- A request for leave: within the reservation of a fixed-timing context it is granted at once, else it waits in arrival
order. The passes of a context on a tile, which its engine takes one after another, are one stream, and so are its `xmm`
commands; of its collective chunks one at a time is within the reservation (assumption 107). The answer says whether it was
granted. Kinds: 0 pass, 1 `xmm`, 2 collective chunk. -/
def State.askLeave (s : State) (tile : Nat) (pid : BitVec 12) (kind : Nat) : Bool × State :=
  if (s.job pid).ft && (s.tile tile).rsvs.contains pid && !(kind = 2 && s.chunkUnderWay tile pid) then (true, s.leaveGranted tile)
  else (false, s.modTile tile (fun t => { t with leaveQ := t.leaveQ ++ [kind] }))

/-! ## Start (10 R248) -/

/-- Change the pass of a ticket. -/
def Optics.modRun (o : Optics) (tk : BitVec 32) (f : PassRun → PassRun) : Optics :=
  { o with runs := o.runs.map (fun r => if r.cmd.ticket = tk then f r else r) }

/-- A pass that has just started. -/
def startRun (c : OptCmd) (i o : Bool) : PassRun :=
  { cmd := c, ok := true, next := 0, groups := [], leave := false, status := 0, ending := false, ebc := 127, flags := 0,
    done := 0, nemu := 0, nsat := 0, nnan := 0, inOwned := i, outOwned := o }

/-- The status that the start checks give (10 R248); a cancelled pass ends with CANCEL (10 R268). -/
def State.startStatus (s : State) (c : OptCmd) (i o : Bool) : Nat :=
  let t := (s.tile c.tile).opt
  if c.cancel then 7
  else if !c.legal then 10
  else if !i || !o then 3
  else
    match t.pal c.pal.toNat with
    | none => 9
    | some k =>
      if k.pid ≠ c.pid then 8
      else if c.isLp && !t.standing c.pal.toNat then 12
      else 0

/-- A pass starts: its checks, its palette, its leave (10 R248). -/
def execPassStart (tile : Nat) (pebc : BitVec 7) (s : State) : Result :=
  match (s.tile tile).opt.startable OptKind.isPass with
  | none => .next s
  | some (i, c) =>
    if !s.engineOn tile && !c.cancel then .next s
    else
    let inO := decide ((s.tile tile).halfOwner c.ih = 2)
    let outO := decide ((s.tile tile).halfOwner c.oh = 2)
    let st := s.startStatus c inO outO
    let s1 := s.modOpt tile (fun o => o.markRunning i c)
    if st ≠ 0 then
      let r : PassRun := { startRun c inO outO with ok := false, ending := true, status := BitVec.ofNat 8 st }
      .next (s1.modOpt tile (fun o => { o with runs := o.runs ++ [r] }))
    else
      let s2 := s1.modOpt tile (fun o => if o.standing c.pal.toNat then o else o.activate c.pal.toNat pebc)
      if c.count ≤ 1024 then .next (s2.modOpt tile (fun o => { o with runs := o.runs ++ [startRun c inO outO] }))
      else
        let (granted, s3) := s2.askLeave tile c.pid 0
        let r : PassRun := { startRun c inO outO with leave := !granted }
        .next (s3.modOpt tile (fun o => { o with runs := o.runs ++ [r] }))

/-! ## Groups (10 R249, R254) -/

/-- The pass whose vectors enter next: the first that has some to enter. -/
def Optics.entering (o : Optics) : Option PassRun := o.runs.find? (fun r => !r.allIn)

/-- Set bits of a mask of eight. -/
def popcount8 (m : BitVec 8) : Nat := (List.range 8).foldl (fun n w => n + b2n (m.getLsbD w)) 0

/-- Vectors of the next group: 8 for each wavelength in use, or for each named one where none is in service (10 R249). -/
def OptCmd.groupSize (c : OptCmd) (live : BitVec 8) : Nat :=
  let k := popcount8 (c.lmask &&& live)
  8 * (if k = 0 then popcount8 c.lmask else k)

/-- Every vector of a group has scale 0xFF (10 R253). -/
def State.allNan (s : State) (c : OptCmd) (j n : Nat) : Bool :=
  (List.range n).all (fun q => decide (s.inScale c (j + q) = 0xFF))

/-- The wavelength of the vector at offset `q` of a group: the one at position q div 8 of the mask's set bits in ascending
order, as symbol q mod 8 (10 R249). -/
def laneOf (k : BitVec 8) (q : Nat) : Option Nat := ((List.range 8).filter (fun w => k.getLsbD w))[q / 8]?

/-- Vectors that a wavelength carries of a group of `n`. -/
def laneLoad (k : BitVec 8) (n w : Nat) : Nat := ((List.range n).filter (fun q => decide (laneOf k q = some w))).length

/-- The group would carry a wavelength past 4,096 vectors since its last swatch, so that a swatch is due first (09 R231). -/
def Optics.swatchFirst (o : Optics) (k : BitVec 8) (n : Nat) : Bool :=
  (List.range 8).any (fun w => decide (laneLoad k n w ≠ 0) && decide (4096 < (o.laneVec[w]?.getD 0) + laneLoad k n w))

/-- Count the vectors of a group of `n` that enters on the wavelengths of a mask. -/
def Optics.carry (o : Optics) (k : BitVec 8) (n : Nat) : Optics :=
  { o with laneVec := Vector.ofFn (fun w : Fin 8 => o.laneVec[w] + laneLoad k n w.val) }

/-- The engine may act for a pass: both halves are still owned by code 2 (01 R14). -/
def State.passHolds (s : State) (c : OptCmd) : Bool :=
  decide ((s.tile c.tile).halfOwner c.ih = 2) && decide ((s.tile c.tile).halfOwner c.oh = 2)

/-- A pass whose halves an earlier pass has flipped away meanwhile writes nothing more and ends with OWNER (01 R14;
assumption 39). -/
def State.passLost (s : State) (c : OptCmd) : State :=
  s.modOpt c.tile (fun o => o.modRun c.ticket (fun r => { r with status := 3, ending := true, groups := [] }))

/-- A group of vectors enters the meshes after its floor test, or is left to emulation, or ends its pass (10 R249, R253,
R254; 09 R241); from a request for calibration on it counts as below the floor (10 R268). In HOLD, before a swatch that is
due and while leave is awaited nothing enters. -/
def execGroupEntry (tile : Nat) (s : State) : Result :=
  let o := (s.tile tile).opt
  match o.entering with
  | none => .next s
  | some r =>
    let c := r.cmd
    let k := c.lmask &&& o.live
    let n := Nat.min (c.groupSize o.live) (c.count - r.next)
    if r.leave || !s.engineOn tile || o.state = .hold || (o.state = .ready && !o.calReq && (o.setDue || o.swatchFirst k n)) then .next s
    else if !s.passHolds c then .next (s.passLost c)
    else
      let nan := s.allNan c r.next n
      let e := o.declared s.ticks c.pal.toNat c.gain
      let below := !nan && (o.state ≠ .ready || o.calReq || decide (k = 0) || decide (e < c.floor.toNat))
      let dark := nan || below
      if below && !c.emulate then
        .next (s.modOpt tile (fun o => o.modRun c.ticket (fun r => { r with status := 11, ending := true })))
      else
        .next (s.modOpt tile (fun o =>
          (if dark then o else o.carry k n).modRun c.ticket (fun r =>
            { r with
              next := r.next + n
              groups := r.groups ++ [{ first := r.next, count := n, emu := dark, ebc := e }] })))

/-! ## Outputs (10 R250 to R253) -/

/-- The elements of one vector formed by a pass: 64 FP32 encodings. -/
abbrev VecOut := List Nat

/-- TF8 output of 64 FP32 elements: the scale, the codes and the flags (10 R251). -/
def tf8Out (ys : VecOut) : Nat × List Nat × BitVec 6 :=
  let dec : List (Bool × Nat × Int) :=
    ys.map (fun y => match d32 y with | .num g m e => (g, m, e) | _ => (false, 0, 0))
  let big := dec.foldl (fun (b : Nat × Int) v => if dyLe v.2.1 v.2.2 b.1 b.2 then b else (v.2.1, v.2.2)) (0, 0)
  let (o, high) := e5m3Up big.1 big.2
  let (om, oe) := e5m3 o
  let codes : List (Nat × BitVec 6) := dec.map (fun v =>
    if o = 0 || v.2.1 = 0 then (0, (0 : BitVec 6))
    else let q := divNum v.2.1 v.2.2 om oe; taperEncode 8 v.1 q.1 q.2)
  (o, codes.map (·.1), codes.foldl (fun f c => f ||| c.2) (if high then flagOF else 0))

/-- Write the elements of output vector j of a pass: `ys` as FP32, `old` accumulation under ACC (10 R251, R252); `nan` for a
vector of scale 0xFF with `n` modes (10 R253). -/
def State.putVec (s : State) (c : OptCmd) (j : Nat) (ys : VecOut) (nan : Bool) (n : Nat) : State × BitVec 6 :=
  match c.ofmt with
  | 0 =>
    if c.acc then
      let rs := ys.zipIdx.map (fun e => f32Add (leNat (s.spRead (c.vecAddr j + 4 * e.2) 4)) e.1)
      (s.spWrite (c.vecAddr j) (rs.flatMap (fun r => natLe 4 r.1)), rs.foldl (fun f r => f ||| r.2) 0)
    else (s.spWrite (c.vecAddr j) (ys.flatMap (natLe 4)), 0)
  | 1 =>
    let rs := ys.map (fun y => (Elt.ieee fmtBf).encode 0 (if nan && y ≠ 0 then (fmtBf.nanVal, 0) else (d32 y, 0)))
    (s.spWrite (c.vecAddr j) (rs.flatMap (fun r => natLe 2 r.1)), rs.foldl (fun f r => f ||| r.2) 0)
  | _ =>
    let (o, codes, fl) :=
      if nan then (0xFF, (List.range 64).map (fun i => if i < n then 0x80 else 0), 0) else tf8Out ys
    let s1 := s.spWrite (c.vecAddr j) (codes.flatMap (natLe 1))
    (s1.spWrite (c.outAddr (256 + c.count * 64 + j)) (natLe 1 o), fl)

/-- The elements of a vector of scale 0xFF (10 R253). -/
def nanVec (n : Nat) : VecOut := (List.range 64).map (fun i => if i < n then fmt32.defNan else 0)

/-- y of a detector code: c * 2^(g-9) * value(s_w) * value(scale), exact in FP32 (10 R251). -/
def codeVal (code : BitVec 10) (g sw sx : Nat) : Nat :=
  let (mw, ew) := e5m3 sw
  let (mx, ex) := e5m3 sx
  let m := code.toInt.natAbs * mw * mx
  if m = 0 then 0 else (f32 0 (.num (decide (code.toInt < 0)) m ((g : Int) - 9 + ew + ex), 0)).1

/-- A code is saturated (10 R250). -/
def codeSat (c : BitVec 10) : Bool := decide (c = 0x200) || decide (c = 0x1FF)

/-- What writing one vector adds to a pass. -/
structure VecSum where
  flags : BitVec 6
  nemu  : Nat
  nsat  : Nat
  nnan  : Nat
  deriving DecidableEq, Repr

/-- Write a vector of scale 0xFF (10 R253). -/
def State.outNan (s : State) (c : OptCmd) (j n : Nat) : State × VecSum :=
  let (s1, f) := s.putVec c j (nanVec n) true n
  (s1, { flags := f ||| flagNV, nemu := 0, nsat := 0, nnan := 1 })

/-- Write an optical vector from its 64 codes (10 R250, R251). -/
def State.outCodes (s : State) (c : OptCmd) (k : Palette) (j : Nat) (codes : Nat → BitVec 10) : State × VecSum :=
  let n := k.n.toNat
  let sx := s.inScale c j
  if sx = 0xFF then s.outNan c j n
  else
    let ys := (List.range 64).map (fun i => if i < n then codeVal (codes i) c.gain k.sw.toNat sx else 0)
    let sat := ((List.range n).filter (fun i => codeSat (codes i))).length
    let (s1, f) := s.putVec c j ys false n
    (s1, { flags := f ||| (if sat = 0 then 0 else flagSAT), nemu := 0, nsat := sat, nnan := 0 })

/-- The emulation matrix by columns: the ideal matrix rounded to FP32 (10 R255). -/
def Palette.emuCols (k : Palette) : List (List Nat) :=
  (idealCols k.mesh k.att k.screen k.sw.toNat k.n.toNat).map (fun col => col.map (fun x => (f32 0 (d64 x, 0)).1))

/-- One element of an emulated vector: PairSum of the rounded products, with their flags (10 R255). -/
def emuElem (row xs : List Nat) : Nat × BitVec 6 :=
  let ps : List (Nat × BitVec 6) := List.zipWith f32Mul row xs
  let (y, f) := pairSum (ps.map (·.1))
  (y, ps.foldl (fun g p => g ||| p.2) f)

/-- x_k of an input vector: m_k/128 * value(scale), exact in FP32 (10 R255). -/
def mantVal (m : Int) (sx : Nat) : Nat :=
  let (mx, ex) := e5m3 sx
  if m.natAbs * mx = 0 then 0 else (f32 0 (.num (decide (m < 0)) (m.natAbs * mx) (ex - 7), 0)).1

/-- Write an emulated vector: `rows` is the matrix of its direction by rows (10 R255); a scale of 0x00 makes every element
+0 (10 R253). -/
def State.outEmu (s : State) (c : OptCmd) (n : Nat) (rows : List (List Nat)) (j : Nat) : State × VecSum :=
  let sx := s.inScale c j
  if sx = 0xFF then s.outNan c j n
  else
    let xs := (List.range n).map (fun k => mantVal (s.inMant c j k) sx)
    let es : List (Nat × BitVec 6) := if sx = 0 then [] else rows.map (fun r => emuElem r xs)
    let ys := (es.map Prod.fst ++ List.replicate 64 0).take 64
    let (s1, f) := s.putVec c j ys false n
    (s1, { flags := es.foldl (fun g e => g ||| e.2) f, nemu := 1, nsat := 0, nnan := 0 })

/-- Write the vectors of a group, `w` writing one of them by its place in the group. -/
def State.outGroup (s : State) (w : State → Nat → State × VecSum) (q : Nat) : Nat → State × VecSum
  | 0 => (s, { flags := 0, nemu := 0, nsat := 0, nnan := 0 })
  | n + 1 =>
    let (s1, a) := w s q
    let (s2, b) := s1.outGroup w (q + 1) n
    (s2, { flags := a.flags ||| b.flags, nemu := a.nemu + b.nemu, nsat := a.nsat + b.nsat, nnan := a.nnan + b.nnan })

/-- The oldest group of the oldest pass has been written, with the EBC that it declared (10 R254). -/
def Optics.groupOut (o : Optics) (tk : BitVec 32) (n e : Nat) (v : VecSum) : Optics :=
  o.modRun tk (fun r =>
    { r with groups := r.groups.drop 1, ebc := BitVec.ofNat 7 (Nat.min r.ebc.toNat e), done := r.done + n, flags := r.flags ||| v.flags, nemu := r.nemu + v.nemu,
             nsat := r.nsat + v.nsat, nnan := r.nnan + v.nnan })

/-- The oldest group awaiting its output, with its pass: of the first pass only, since passes end in order (10 R256). -/
def Optics.oldestGroup (o : Optics) : Option (PassRun × PassGroup) :=
  match o.runs with
  | r :: _ => r.groups.head?.map (fun g => (r, g))
  | [] => none

/-- A binary64 number as an integer multiple of 2^-1074. -/
def int64 (x : Nat) : Int :=
  match d64 x with
  | .num g m e => let v : Nat := m * 2 ^ (e + 1074).toNat; if g then -(v : Int) else v
  | _ => 0

/-- The dot product of a row of Ŵ with the mantissas of an input vector, as a multiple of 2^-1074. -/
def idealDot (row : List Nat) (ms : List Int) : Int := (List.zipWith (fun w m => int64 w * m) row ms).foldl (· + ·) 0

/-- A detector code under the promise of its declared EBC (09 R239): a code that is not saturated and whose value is further
than 2^(-E/8) FS from the ideal product becomes the code nearest to that product. Both sides are divided by the input's scale
and multiplied by 2^1081; Ŵ is taken as 09 R227 evaluates it (assumption 6). -/
def promised (g sw e : Nat) (dot : Int) (code : BitVec 10) : BitVec 10 :=
  let (mw, ew) := e5m3 sw
  let unit : Int := mw * 2 ^ ((g : Int) + ew + 1072).toNat
  let full : Int := 512 * unit
  if codeSat code || decide ((code.toInt * unit - dot).natAbs ^ 8 * 2 ^ e ≤ full.natAbs ^ 8) then code
  else BitVec.ofInt 10 (max (-512) (min 511 ((2 * dot + unit) / (2 * unit))))

/-- Detector codes of an optical group become outputs (10 R250, R251). A code that the event does not give is a free value,
and every code keeps the promise of the group's declared EBC (09 R239; assumption 6). -/
def execGroupOutput (tile : Nat) (codes : List (BitVec 10)) (s : State) : Result :=
  match (s.tile tile).opt.oldestGroup with
  | none => .next s
  | some (r, g) =>
    match (s.tile tile).opt.pal r.cmd.pal.toNat with
    | none => .next s
    | some k =>
      if g.emu then .next s
      else if !s.passHolds r.cmd then .next (s.passLost r.cmd)
      else
        let ctr := s.freeCtr
        let n := k.n.toNat
        let cols := idealCols k.mesh k.att k.screen k.sw.toNat n
        let row (i : Nat) : List Nat := if r.cmd.kind = .passr then cols[i]?.getD [] else column cols i
        let ins (q : Nat) : List Int := (List.range n).map (s.inMant r.cmd (g.first + q))
        let code (q i : Nat) : BitVec 10 :=
          promised r.cmd.gain k.sw.toNat g.ebc (idealDot (row i) (ins q)) (codes[64 * q + i]?.getD (Config.freeCode (ctr + q) i))
        let (s1, v) := (s.passInput r.cmd g.first g.count).outGroup (fun t q => t.outCodes r.cmd k (g.first + q) (code q)) 0 g.count
        .next (({ s1 with freeCtr := ctr + g.count } : State).modOpt tile (fun o => o.groupOut r.cmd.ticket g.count g.ebc v))

/-- The exact matrix unit computes a group below the floor; vectors of scale 0xFF are written as 10 R253 gives (10 R254,
R255). -/
def execGroupEmulate (tile : Nat) (s : State) : Result :=
  match (s.tile tile).opt.oldestGroup with
  | none => .next s
  | some (r, g) =>
    match (s.tile tile).opt.pal r.cmd.pal.toNat with
    | none => .next s
    | some k =>
      if !g.emu || !s.engineOn tile || ((s.tile tile).xmms.any (fun c => c.running)) then .next s
      else if !s.passHolds r.cmd then .next (s.passLost r.cmd)
      else
        let n := k.n.toNat
        let cols := if s.allNan r.cmd g.first g.count then [] else k.emuCols
        let rows := if r.cmd.kind = .passr then cols else (List.range n).map (fun i => column cols i)
        let (s1, v) := (s.passInput r.cmd g.first g.count).outGroup (fun t q => t.outEmu r.cmd n rows (g.first + q)) 0 g.count
        .next (s1.modOpt tile (fun o => o.groupOut r.cmd.ticket g.count 127 v))

/-! ## The end of a pass (10 R256, R257) -/

/-- The header (10 R247). -/
def PassRun.header (r : PassRun) : List Byte :=
  let c := r.cmd
  let mode := c.pal.toNat + 4 * c.gain + 16 * b2n (decide (c.kind = .passr)) + 32 * c.ofmt
  natLe 8 c.desc1.toNat ++ natLe 4 c.ticket.toNat ++ natLe 1 r.status.toNat ++
    natLe 1 (r.ebc.toNat + 128 * b2n (decide (r.nemu ≠ 0))) ++ natLe 1 r.flags.toNat ++ natLe 1 mode ++ natLe 4 r.done ++
    natLe 4 r.nemu ++ natLe 4 r.nsat ++ natLe 4 r.nnan ++ List.replicate 224 0

/-- The pass summary takes an ended pass (10 R263). -/
def PassSummary.take (p : PassSummary) (st : BitVec 8) (ebc : BitVec 7) : PassSummary :=
  { npass := BitVec.ofNat 16 (satTo 16 (p.npass.toNat + 1)), status := if p.status = 0 then st else p.status,
    ebc := BitVec.ofNat 7 (Nat.min p.ebc.toNat ebc.toNat) }

/-- A floor fault of the strand waits to be taken: pending, held by its logical process, or put off until earlier accesses are
performed. Until the trap a further FLOOR changes nothing (10 R266). -/
def Slot.floorWaits (x : Slot) : Bool :=
  let isFloor (f : Option HeldFault) : Bool := match f with | some g => decide (g.cause = Cause.ebcflr.code) | none => false
  x.floorPend.isSome || isFloor x.lp.held || isFloor x.bound.late

/-- The pass's effect on its issuing strand: the summary, one pass fewer outstanding, and under FAULT without a reply the
pending floor fault, which keeps the first ticket (10 R263, R266). -/
def Slot.passEnded (x : Slot) (r : PassRun) : Slot :=
  { x with
    psum := x.psum.take r.status r.ebc
    passOut := x.passOut - 1
    floorPend :=
      if r.status = 11 && r.cmd.ack.isNone && !x.floorWaits then some (r.cmd.ticket, r.cmd.handler) else x.floorPend }

/-- The value of `pebc` (10 R263), after which the summary is clear. -/
def Slot.takeSummary (x : Slot) (d : BitVec 5) : Slot :=
  ({ x with psum := { npass := 0, status := 0, ebc := 127 } } : Slot).setG d x.summaryWord

/-- A strand that waits in `pebc` goes on once its last pass has ended (10 R263). -/
def State.pebcWake (s : State) (sid tile : Nat) : State :=
  match s.strandOf sid with
  | none => s
  | some x =>
    match x.park with
    | some (.pebc d) => if x.passOut = 0 then s.wake sid (bankRouter tile none) (fun y => y.takeSummary d) else s
    | _ => s

/-- The oldest pass ends once its groups are written: header, flips, PCNT, reply (10 R256); a half that it did not find, or
no longer finds, owned by code 2 is not touched (01 R14). -/
def execPassEnd (tile : Nat) (s : State) : Result :=
  match (s.tile tile).opt.runs with
  | [] => .next s
  | r0 :: _ =>
    if !r0.groups.isEmpty || !r0.allIn then .next s
    else
      let r : PassRun := if r0.cmd.cancel && r0.ok then { r0 with status := 7 } else r0
      let c := r.cmd
      let good := decide (r.status = 0) || decide (r.status = 11)
      let iO : Owned := .half tile c.ih
      let oO : Owned := .half tile c.oh
      let iOwned := r.inOwned && decide (s.ownerGet iO = 2)
      let oOwned := r.outOwned && decide (s.ownerGet oO = 2)
      let s1 := if oOwned && c.legal then s.spWrite (c.outAddr 0) r.header else s
      let s2 :=
        if !iOwned || (good && decide (c.iafter = 2)) then s1
        else s1.flip iO (if good then BitVec.ofNat 3 c.iafter else 0)
      let s3 := if !oOwned || (good && c.okeep) then s2 else s2.flip oO 0
      let s4 := s3.modOpt tile (fun o =>
        { o with runs := o.runs.drop 1, pcnt := o.pcnt + 1, queue := o.queue.filter (fun q => !(q.kind.isPass && q.ticket = c.ticket)) })
      let s5 := s4.modStrandKept c.strand (fun x => x.passEnded r)
      let s6 :=
        match c.ack with
        | some d => s5.engineReply c.strand d (packFields [(c.ticket.toNat, 32), (r.ebc.toNat, 8), (r.status.toNat, 0)])
        | none => if r.status = 0 then s5 else s5.optFailure c r.status.toNat 0 0
      .next ((s6.pebcWake c.strand tile).optRoom tile)

/-! ## Instructions -/

/-- A pending floor fault is taken before the optical-pass instructions and `exit` (10 R266, R269): EBCFLR, with the first
ticket in XVAL; LATE says that an earlier instruction raised it (15 R382). -/
def State.floorThen (s : State) (k : Result) : Result :=
  match s.hart.floorPend with
  | some (tk, n) =>
    let s1 := s.modHart (fun x => { x with floorPend := none })
    .next (s1.raiseFault s1.hid
      { cause := Cause.ebcflr.code, xpc := s1.hart.pc, xval := tk.setWidth 64, late := true, final := false, hno := some n })
  | none => k

/-- `pass` and `passr` (10 R243, R244, R269). -/
def State.passCmd (s : State) (k : OptKind) (ack : Option (BitVec 5)) (a : BitVec 5) (h : BitVec 2) : Result :=
  let ga := s.hart.getG a
  s.issue Need.command (s.floorThen
    (if ga.toNat % 16 ≠ 0 then s.raise .maln ga
     else if 0x3FFF0 < ga.toNat then s.raise .lsrange ga
     else
       let w := bytesWords (s.localRead ga.toNat 16) 2
       s.optIssue h { s.optCmd k ack with
         pal := BitVec.ofNat 2 (fld (nthW w 0) 51 50), desc0 := nthW w 0, desc1 := nthW w 1 }))

/-- `pass` (10 R244). -/
def execPass (a : BitVec 5) (h : BitVec 2) (s : State) : Result := s.passCmd .pass none a h
/-- `pass.ack` (10 R244). -/
def execPassAck (d a : BitVec 5) (h : BitVec 2) (s : State) : Result := s.passCmd .pass (some d) a h
/-- `passr` (10 R244). -/
def execPassr (a : BitVec 5) (h : BitVec 2) (s : State) : Result := s.passCmd .passr none a h
/-- `passr.ack` (10 R244). -/
def execPassrAck (d a : BitVec 5) (h : BitVec 2) (s : State) : Result := s.passCmd .passr (some d) a h

/-- What `pflr` needs: the issuing core. It accesses no memory and is no engine command, so a logical process may execute it
outside a handler (13 R323). `pebc` and `ptkt` reach memory as 05 R124 lists them, so that it may not (assumption 48). -/
def Need.issuing : Need := { Need.any with iss := true }

/-- `pebc` (10 R263), which a waiting acquire or fence holds as a plain load (05 R124). -/
def execPebc (d : BitVec 5) (h : BitVec 2) (s : State) : Result :=
  s.issue Need.command (s.floorThen
    (let s1 := s.beforeAccess false
     if s1.hart.passOut = 0 then s1.done h (fun x => x.takeSummary d) else .next (s1.parkAt h (.pebc d))))

/-- `pflr` (10 R262). -/
def execPflr (a : BitVec 5) (h : BitVec 2) (s : State) : Result :=
  let ga := s.hart.getG a
  s.issue Need.issuing (s.floorThen
    (if bitOf ga 7 || fld ga 63 9 ≠ 0 then s.raise .pflarg 0
     else s.done h (fun x => { x with floor := ga.setWidth 7, emulate := bitOf ga 8 })))

/-- `ptkt` (10 R264): every earlier optical command of the slot has been accepted, since one that waits parks the strand. -/
def execPtkt (d : BitVec 5) (h : BitVec 2) (s : State) : Result :=
  s.issue Need.command (s.floorThen
    (let s := s.beforeAccess false
     let p := (s.tile s.tileNo).opt.pcnt
     s.doneG h d (packFields [((s.hart.ticket.getD p).toNat, 32), (p.toNat, 0)])))

end Sys2Proof.Machine
end

