-- ==== Sys2Proof/Machine/VectorFloat.lean ====
section
/-!
DEFINITION. Vector floating point: element-wise forms (08 R189 to R193), compares (08 R196), reductions and transpose (08 R200 to R202).
-/

namespace Sys2Proof.Machine

/-- A float operation on elements of an element format, rounded once under `rm` (08 R190, R191). -/
def Elt.op1 (e : Elt) (rm : Nat) (f : Fmt → FVal → FRes) (a : Nat) : Nat × BitVec 6 := e.encode rm (f e.nanFmt (e.decode a))

/-- As `op1`, of two operands. -/
def Elt.op2 (e : Elt) (rm : Nat) (f : Fmt → FVal → FVal → FRes) (a b : Nat) : Nat × BitVec 6 :=
  e.encode rm (f e.nanFmt (e.decode a) (e.decode b))

/-- vneg on an encoding: the sign bit, or Bits(2^n - c) of a tapered code (08 R190, R191). -/
def Elt.negate (e : Elt) (c : Nat) : Nat :=
  match e with
  | .ieee f => if c / f.sgn % 2 = 1 then c - f.sgn else c + f.sgn
  | .taper n => (2 ^ n - c % 2 ^ n) % 2 ^ n

/-- vabs on an encoding (08 R190, R191). -/
def Elt.absolute (e : Elt) (c : Nat) : Nat :=
  match e with
  | .ieee f => c % f.sgn
  | .taper n => if c / 2 ^ (n - 1) % 2 = 1 then e.negate c else c % 2 ^ n

/-- An approximation: 12 bits at width 32, the element format below it (08 R192). -/
def Elt.approx (e : Elt) (op : Nat) (a : Nat) : Nat × BitVec 6 :=
  let r := fApprox e.nanFmt op (e.decode a)
  if e = .ieee fmt32 then e.encodeP 12 0 r else e.encode 0 r

/-- `vadd` (08 R189, R190). -/
def execVadd (v a b : BitVec 5) (p : BitVec 3) (r h : BitVec 2) (s : State) : Result :=
  let x := s.hart
  s.issue (Need.vec [v, a, b])
    (s.vecFp h v p (fun e i => e.op2 r.toNat (fun f x y => fAdd f r.toNat x y) (x.el a i) (x.el b i)))

/-- `vsub` (08 R189, R190). -/
def execVsub (v a b : BitVec 5) (p : BitVec 3) (r h : BitVec 2) (s : State) : Result :=
  let x := s.hart
  s.issue (Need.vec [v, a, b])
    (s.vecFp h v p (fun e i => e.op2 r.toNat (fun f x y => fSub f r.toNat x y) (x.el a i) (x.el b i)))

/-- `vmul` (08 R189, R190). -/
def execVmul (v a b : BitVec 5) (p : BitVec 3) (r h : BitVec 2) (s : State) : Result :=
  let x := s.hart
  s.issue (Need.vec [v, a, b])
    (s.vecFp h v p (fun e i => e.op2 r.toNat (fun f x y => fMul f x y) (x.el a i) (x.el b i)))

/-- `vdiv` (08 R189, R190). -/
def execVdiv (v a b : BitVec 5) (p : BitVec 3) (r h : BitVec 2) (s : State) : Result :=
  let x := s.hart
  s.issue (Need.vec [v, a, b])
    (s.vecFp h v p (fun e i => e.op2 r.toNat (fun f x y => fDiv f x y) (x.el a i) (x.el b i)))

/-- `vfma`: the product is exact (08 R189, R190). -/
def execVfma (v a b : BitVec 5) (p : BitVec 3) (r h : BitVec 2) (s : State) : Result :=
  let x := s.hart
  s.issue (Need.vec [v, a, b])
    (s.vecFp h v p (fun e i =>
      e.encode r.toNat (fFma e.nanFmt r.toNat false (e.decode (x.el v i)) (e.decode (x.el a i)) (e.decode (x.el b i)))))

/-- `vfnma`: the product is exact (08 R189, R190). -/
def execVfnma (v a b : BitVec 5) (p : BitVec 3) (r h : BitVec 2) (s : State) : Result :=
  let x := s.hart
  s.issue (Need.vec [v, a, b])
    (s.vecFp h v p (fun e i =>
      e.encode r.toNat (fFma e.nanFmt r.toNat true (e.decode (x.el v i)) (e.decode (x.el a i)) (e.decode (x.el b i)))))

/-- `vmin` (08 R189; 03 R65). -/
def execVmin (v a b : BitVec 5) (p : BitVec 3) (h : BitVec 2) (s : State) : Result :=
  let x := s.hart
  s.issue (Need.vec [v, a, b]) (s.vecFp h v p (fun e i => e.op2 0 (fun f y z => fMinMax f false y z) (x.el a i) (x.el b i)))

/-- `vmax` (08 R189; 03 R65). -/
def execVmax (v a b : BitVec 5) (p : BitVec 3) (h : BitVec 2) (s : State) : Result :=
  let x := s.hart
  s.issue (Need.vec [v, a, b]) (s.vecFp h v p (fun e i => e.op2 0 (fun f y z => fMinMax f true y z) (x.el a i) (x.el b i)))

/-- `vabs`: no flag (08 R190, R191). -/
def execVabs (v a : BitVec 5) (p : BitVec 3) (h : BitVec 2) (s : State) : Result :=
  let x := s.hart
  s.issue (Need.vec [v, a]) (s.vecFp h v p (fun e i => (e.absolute (x.el a i), 0)))

/-- `vneg`: no flag (08 R190, R191). -/
def execVneg (v a : BitVec 5) (p : BitVec 3) (h : BitVec 2) (s : State) : Result :=
  let x := s.hart
  s.issue (Need.vec [v, a]) (s.vecFp h v p (fun e i => (e.negate (x.el a i), 0)))

/-- `vsqrt` (08 R189, R190). -/
def execVsqrt (v a : BitVec 5) (p : BitVec 3) (r h : BitVec 2) (s : State) : Result :=
  let x := s.hart
  s.issue (Need.vec [v, a]) (s.vecFp h v p (fun e i => e.op1 r.toNat fSqrt (x.el a i)))

/-- `vrcp` (08 R192). -/
def execVrcp (v a : BitVec 5) (p : BitVec 3) (h : BitVec 2) (s : State) : Result :=
  let x := s.hart
  s.issue (Need.vec [v, a]) (s.vecFp h v p (fun e i => e.approx 0 (x.el a i)))

/-- `vrsqrt` (08 R192). -/
def execVrsqrt (v a : BitVec 5) (p : BitVec 3) (h : BitVec 2) (s : State) : Result :=
  let x := s.hart
  s.issue (Need.vec [v, a]) (s.vecFp h v p (fun e i => e.approx 1 (x.el a i)))

/-- `vexp2` (08 R192). -/
def execVexp2 (v a : BitVec 5) (p : BitVec 3) (h : BitVec 2) (s : State) : Result :=
  let x := s.hart
  s.issue (Need.vec [v, a]) (s.vecFp h v p (fun e i => e.approx 2 (x.el a i)))

/-- `vlog2` (08 R192). -/
def execVlog2 (v a : BitVec 5) (p : BitVec 3) (h : BitVec 2) (s : State) : Result :=
  let x := s.hart
  s.issue (Need.vec [v, a]) (s.vecFp h v p (fun e i => e.approx 3 (x.el a i)))

/-- `vscale` (08 R193). -/
def execVscale (v a b : BitVec 5) (p : BitVec 3) (r h : BitVec 2) (s : State) : Result :=
  let x := s.hart
  s.issue (Need.vec [v, a, b])
    (s.vecFp h v p (fun e i => e.encode r.toNat (fScale e.nanFmt (e.decode (x.el a i)) (toSigned x.ew (x.el b i)))))

/-- A float compare: the whole of pd is written (08 R196). -/
def State.vecCmp (s : State) (d : BitVec 3) (a b : BitVec 5) (p : BitVec 3) (c : Nat) (h : BitVec 2) : Result :=
  let x := s.hart
  s.issue (Need.vec [a, b])
    (match x.elt with
     | none => s.raise .fmtw 0
     | some e =>
       let rel (i : Nat) := fRel e.nanFmt c (e.decode (x.el a i)) (e.decode (x.el b i))
       let m := maskOf x.lanes (fun i => (x.getP p).getLsbD i && (rel i).1)
       let fl := (x.active p).foldl (fun (f : BitVec 6) i => f ||| (rel i).2) 0
       s.done h (fun y => (y.orVxf fl).setP d m))

/-- `vcmpEq` (08 R196). -/
def execVcmpEq (d : BitVec 3) (a b : BitVec 5) (p : BitVec 3) (h : BitVec 2) (s : State) : Result :=
  s.vecCmp d a b p 0 h

/-- `vcmpNe` (08 R196). -/
def execVcmpNe (d : BitVec 3) (a b : BitVec 5) (p : BitVec 3) (h : BitVec 2) (s : State) : Result :=
  s.vecCmp d a b p 1 h

/-- `vcmpLt` (08 R196). -/
def execVcmpLt (d : BitVec 3) (a b : BitVec 5) (p : BitVec 3) (h : BitVec 2) (s : State) : Result :=
  s.vecCmp d a b p 2 h

/-- `vcmpLe` (08 R196). -/
def execVcmpLe (d : BitVec 3) (a b : BitVec 5) (p : BitVec 3) (h : BitVec 2) (s : State) : Result :=
  s.vecCmp d a b p 3 h

/-- `vcmpGt` (08 R196). -/
def execVcmpGt (d : BitVec 3) (a b : BitVec 5) (p : BitVec 3) (h : BitVec 2) (s : State) : Result :=
  s.vecCmp d a b p 4 h

/-- `vcmpGe` (08 R196). -/
def execVcmpGe (d : BitVec 3) (a b : BitVec 5) (p : BitVec 3) (h : BitVec 2) (s : State) : Result :=
  s.vecCmp d a b p 5 h

/-- `vcmpUn` (08 R196). -/
def execVcmpUn (d : BitVec 3) (a b : BitVec 5) (p : BitVec 3) (h : BitVec 2) (s : State) : Result :=
  s.vecCmp d a b p 6 h

/-- Rows and columns of the grid (08 R181). -/
def Slot.rows (x : Slot) : Nat := 2 ^ x.vlr.toNat
/-- Columns of the grid. -/
def Slot.cols (x : Slot) : Nat := x.lanes / x.rows

/-- An element as FP32, exactly (08 R201). -/
def Elt.toF32 (e : Elt) (c : Nat) : Nat :=
  match e with
  | .ieee f => if f = fmt32 then c else (convert c (.flt (.ieee f)) (.flt (.ieee fmt32)) 0).1
  | .taper n => (convert c (.flt (.taper n)) (.flt (.ieee fmt32)) 0).1

/-- A signalling NaN among the elements of a narrower format sets NV, which its FP32 form no longer shows (08 R201). -/
def Elt.sigFlags (e : Elt) (c : Nat) : BitVec 6 := snanFlags e.nanFmt [e.decode c]

/-- The active element indices of row `k`, or of column `k`. -/
def Slot.lineOf (x : Slot) (p : BitVec 3) (isCol : Bool) (k : Nat) : List Nat :=
  ((List.range (if isCol then x.rows else x.cols)).map (fun j => if isCol then j * x.cols + k else k * x.cols + j)).filter
    (fun i => (x.getP p).getLsbD i)

/-- A reduction: result k is FP32 element k of vd, for K results; K above 64 raises ILLOP, width 64 FMTW (08 R200, R206). -/
def State.vecReduce (s : State) (v : BitVec 5) (vs : List (BitVec 5)) (p : BitVec 3) (isCol : Bool) (h : BitVec 2)
    (f : Elt → List Nat → Nat × BitVec 6) : Result :=
  let x := s.hart
  let n := if isCol then x.cols else x.rows
  s.issue (Need.vec vs)
    (if 64 < n then s.raise .illop 0
     else match x.elt with
     | none => s.raise .fmtw 0
     | some e =>
       s.done h (fun y =>
         let r := vMap (List.range n) 32 (y.getV v) (fun k => f e (y.lineOf p isCol k))
         (y.orVxf r.2).setV v r.1))

/-- The FP32 operands of a line of va, with the flags of signalling NaNs. -/
def Slot.operands (x : Slot) (e : Elt) (a : BitVec 5) (l : List Nat) : List Nat × BitVec 6 :=
  (l.map (fun i => e.toF32 (x.el a i)), l.foldl (fun (f : BitVec 6) i => f ||| e.sigFlags (x.el a i)) 0)

/-- A sum of a line of va (08 R201). -/
def Slot.lineSum (x : Slot) (a : BitVec 5) (e : Elt) (l : List Nat) : Nat × BitVec 6 :=
  let o := x.operands e a l
  let r := pairSum o.1
  (r.1, r.2 ||| o.2)

/-- The greatest or least of a line of va (08 R201). -/
def Slot.lineMinMax (x : Slot) (isMax : Bool) (a : BitVec 5) (e : Elt) (l : List Nat) : Nat × BitVec 6 :=
  let o := x.operands e a l
  let r := pairMinMax isMax o.1
  (r.1, r.2 ||| o.2)

/-- The dot product of a line of va and vb: products rounded to FP32, then their sum (08 R201). -/
def Slot.lineDot (x : Slot) (a b : BitVec 5) (e : Elt) (l : List Nat) : Nat × BitVec 6 :=
  let oa := x.operands e a l
  let ob := x.operands e b l
  let prods := (oa.1.zip ob.1).map (fun q => f32Mul q.1 q.2)
  let r := pairSum (prods.map (·.1))
  (r.1, r.2 ||| oa.2 ||| ob.2 ||| prods.foldl (fun (f : BitVec 6) q => f ||| q.2) 0)

/-- `vrsum` (08 R200, R201). -/
def execVrsum (v a : BitVec 5) (p : BitVec 3) (h : BitVec 2) (s : State) : Result :=
  s.vecReduce v [v, a] p false h (s.hart.lineSum a)

/-- `vcsum` (08 R200, R201). -/
def execVcsum (v a : BitVec 5) (p : BitVec 3) (h : BitVec 2) (s : State) : Result :=
  s.vecReduce v [v, a] p true h (s.hart.lineSum a)

/-- `vrmax` (08 R200, R201). -/
def execVrmax (v a : BitVec 5) (p : BitVec 3) (h : BitVec 2) (s : State) : Result :=
  s.vecReduce v [v, a] p false h (s.hart.lineMinMax true a)

/-- `vcmax` (08 R200, R201). -/
def execVcmax (v a : BitVec 5) (p : BitVec 3) (h : BitVec 2) (s : State) : Result :=
  s.vecReduce v [v, a] p true h (s.hart.lineMinMax true a)

/-- `vrmin` (08 R200, R201). -/
def execVrmin (v a : BitVec 5) (p : BitVec 3) (h : BitVec 2) (s : State) : Result :=
  s.vecReduce v [v, a] p false h (s.hart.lineMinMax false a)

/-- `vcmin` (08 R200, R201). -/
def execVcmin (v a : BitVec 5) (p : BitVec 3) (h : BitVec 2) (s : State) : Result :=
  s.vecReduce v [v, a] p true h (s.hart.lineMinMax false a)

/-- `vdot` (08 R200, R201). -/
def execVdot (v a b : BitVec 5) (p : BitVec 3) (h : BitVec 2) (s : State) : Result :=
  s.vecReduce v [v, a, b] p false h (s.hart.lineDot a b)

/-- `vtrn`: the mask governs the destination index (08 R202). -/
def execVtrn (v a : BitVec 5) (p : BitVec 3) (h : BitVec 2) (s : State) : Result :=
  let x := s.hart
  s.issue (Need.vec [v, a]) (s.vecMap h v p (fun i => (x.el a (i % x.rows * x.cols + i / x.rows), 0)))

end Sys2Proof.Machine
end

