-- ==== Sys2Proof/Machine/Xmm.lean ====
section
/-!
DEFINITION. The exact sparse matrix unit (11 R270 to R282): packed blocks, the descriptor and its checks, the product, and
`xmm` and `xmm.strict`.
-/

namespace Sys2Proof.Machine

/-! ## The descriptor (11 R273) -/

/-- The tile whose unit has the command. -/
def XmmCmd.tile (c : XmmCmd) : Nat := tileOf c.core
/-- K. -/
def XmmCmd.pairs (c : XmmCmd) : Nat := fld c.d1 39 32
/-- KEEP. -/
def XmmCmd.keep (c : XmmCmd) : Bool := bitOf c.d1 47
/-- ACC. -/
def XmmCmd.acc (c : XmmCmd) : Bool := bitOf c.d1 46
/-- AFMT. -/
def XmmCmd.afmt (c : XmmCmd) : Nat := fld c.d1 42 40
/-- BFMT. -/
def XmmCmd.bfmt (c : XmmCmd) : Nat := fld c.d1 45 43
/-- CADR. -/
def XmmCmd.cadr (c : XmmCmd) : Nat := fld c.d1 29 0
/-- Address of block A_k. -/
def XmmCmd.aAt (c : XmmCmd) (k : Nat) : Nat := fld c.d0 29 0 + k * fld c.d2 31 0
/-- Address of block B_k. -/
def XmmCmd.bAt (c : XmmCmd) (k : Nat) : Nat := fld c.d0 61 32 + k * fld c.d2 63 32
/-- STAT, held to its alignment for a descriptor that breaks it. -/
def XmmCmd.stat (c : XmmCmd) : Nat := fld c.d3 17 4 * 16

/-- The element format of a code (11 R271). -/
def xmmElt (f : Nat) : Elt :=
  match f with
  | 0 => .ieee fmt32
  | 1 => .ieee fmtBf
  | 2 => .ieee fmt16
  | 3 => .taper 8
  | _ => .taper 6

/-- Element bytes of a format code (11 R271). -/
def xmmBytes (f : Nat) : Nat :=
  match f with
  | 0 => 4
  | 1 => 2
  | 2 => 2
  | _ => 1

/-- Set bits among the low `n` bits of a number. -/
def popcountNat (v : Nat) : Nat → Nat
  | 0 => 0
  | n + 1 => v % 2 + popcountNat (v / 2) n

/-- The bitmap of a block (11 R270). -/
def State.xmmBitmap (s : State) (a : Nat) : Nat := leNat (s.spRead a 512)

/-- The extent of a block in bytes (11 R270). -/
def State.xmmExtent (s : State) (a f : Nat) : Nat := 512 + xmmBytes f * popcountNat (s.xmmBitmap a) 4096

/-- The blocks of a command: address and format code. -/
def XmmCmd.blocks (c : XmmCmd) : List (Nat × Nat) :=
  (List.range c.pairs).flatMap (fun k => [(c.aAt k, c.afmt), (c.bAt k, c.bfmt)])

/-- The range lies in one SRAM bank of the tile. -/
def inOneBank (tile a n : Nat) : Bool :=
  decide (a / 2 ^ 24 = tile) && decide (a / 2 ^ 20 = (a + n - 1) / 2 ^ 20)

/-- The descriptor is legal (11 R273). -/
def State.xmmLegal (s : State) (c : XmmCmd) : Bool :=
  decide (fld c.d0 63 62 = 0) && decide (fld c.d0 31 30 = 0) && decide (fld c.d1 63 48 = 0) &&
    decide (fld c.d1 31 30 = 0) && decide (fld c.d3 63 18 = 0) && decide (c.aAt 0 % 256 = 0) &&
    decide (c.bAt 0 % 256 = 0) && decide (fld c.d2 31 0 % 256 = 0) && decide (fld c.d2 63 32 % 256 = 0) &&
    decide (c.cadr % 16384 = 0) && decide (fld c.d3 3 0 = 0) && decide (1 ≤ c.pairs) && decide (c.pairs ≤ 64) &&
    decide (c.afmt ≤ 4) && decide (c.bfmt ≤ 4) && inOneBank c.tile c.cadr 16384 &&
    c.blocks.all (fun b =>
      inOneBank c.tile b.1 512 && inOneBank c.tile b.1 (s.xmmExtent b.1 b.2) &&
        !overlaps b.1 (s.xmmExtent b.1 b.2) c.cadr 16384)

/-- The slabs of the tile that a command touches: its blocks' extents and C (11 R276). -/
def State.xmmSlabs (s : State) (c : XmmCmd) : List Owned :=
  ((c.blocks.flatMap (fun b => ownedIn b.1 (s.xmmExtent b.1 b.2))) ++ ownedIn c.cadr 16384).filter (fun o =>
    match o with
    | .slab t _ => decide (t = c.tile)
    | .half _ _ => false)

/-- A bank that a command touches is not in scratchpad mode or is another PID's (11 R276); every command is made for its
strand's PID. -/
def State.xmmForeign (s : State) (c : XmmCmd) : Bool :=
  (s.xmmSlabs c).any (fun o =>
    match o with
    | .slab t n => decide (((s.tile t).bank (n / 64)).mode ≠ 1) || decide (((s.tile t).bank (n / 64)).pid ≠ c.pid)
    | .half _ _ => false)

/-! ## The product (11 R274) -/

/-- The present elements of the bitmap from bit `i` on: a code each, in order, the next one at place `j`. -/
def State.xmmElems (s : State) (a bits e i j : Nat) : Nat → List (Option Nat)
  | 0 => []
  | n + 1 =>
    if bits / 2 ^ i % 2 = 1 then
      some (leNat (s.spRead (a + 512 + e * j) e)) :: s.xmmElems a bits e (i + 1) (j + 1) n
    else none :: s.xmmElems a bits e (i + 1) j n

/-- The 4,096 elements of a block in row order (11 R270). -/
def State.xmmBlock (s : State) (b : Nat × Nat) : List (Option Nat) :=
  s.xmmElems b.1 (s.xmmBitmap b.1) (xmmBytes b.2) 0 0 4096

/-- Row r of a block. -/
def blockRow (l : List (Option Nat)) (r : Nat) : List (Option Nat) := (l.drop (64 * r)).take 64

/-- Column c of a block. -/
def blockCol (l : List (Option Nat)) (c : Nat) : List (Option Nat) :=
  (List.range 64).map (fun j => (l[64 * j + c]?).getD none)

/-- The products of a row of A_k and a column of B_k, each rounded to FP32 with its flags (11 R274). -/
def xmmProducts (ea eb : Elt) (row col : List (Option Nat)) : List (Nat × BitVec 6) :=
  (List.zip row col).filterMap (fun e =>
    match e with
    | (some a, some b) =>
      let p := f32Mul (ea.toF32 a) (eb.toF32 b)
      some (p.1, p.2 ||| ea.sigFlags a ||| eb.sigFlags b)
    | _ => none)

/-- An element is present and not finite. -/
def xmmWild (e : Elt) : Option Nat → Bool
  | some c => (e.decode c).isNan || (e.decode c).isInf
  | none => false

/-- A present element that is not finite meets an absent partner (11 R274). -/
def xmmPoisoned (ea eb : Elt) (row col : List (Option Nat)) : Bool :=
  (List.zip row col).any (fun e => (xmmWild ea e.1 && e.2.isNone) || (xmmWild eb e.2 && e.1.isNone))

/-- What one output element is: its encoding, its flags, the products formed, whether it was replaced. -/
structure XmmElem where
  code  : Nat
  flags : BitVec 6
  prods : Nat
  pois  : Bool
  deriving DecidableEq, Repr

/-- One output element from the row of every A_k and the column of every B_k (11 R274). -/
def xmmElem (ea eb : Elt) (strict : Bool) (old : Option Nat) (lines : List (List (Option Nat) × List (Option Nat))) :
    XmmElem :=
  let ps := lines.flatMap (fun l => xmmProducts ea eb l.1 l.2)
  let (y, f) := pairSum (ps.map (·.1))
  let fl := ps.foldl (fun g p => g ||| p.2) f
  if strict && lines.any (fun l => xmmPoisoned ea eb l.1 l.2) then
    { code := fmt32.defNan, flags := fl ||| flagNV, prods := ps.length, pois := true }
  else
    match old with
    | some o => let (z, g) := f32Add o y; { code := z, flags := fl ||| g, prods := ps.length, pois := false }
    | none => { code := y, flags := fl, prods := ps.length, pois := false }

/-- The unit consumes the slabs of a command (15 R389). -/
def State.xmmInput (s : State) (c : XmmCmd) : State :=
  (s.xmmSlabs c).foldl (fun (t : State) o =>
    match o with
    | .slab k n => t.consume none c.pid (spBase (2 ^ 24 * k + 16384 * n)) 16384
    | .half _ _ => t) s

/-- All 4,096 outputs of a command in row order (11 R274, R275). -/
def State.xmmOutputs (s : State) (c : XmmCmd) : List XmmElem :=
  let blks := (List.range c.pairs).map (fun k => (s.xmmBlock (c.aAt k, c.afmt), s.xmmBlock (c.bAt k, c.bfmt)))
  (List.range 4096).map (fun i =>
    let lines := blks.map (fun b => (blockRow b.1 (i / 64), blockCol b.2 (i % 64)))
    let old := if c.acc then some (leNat (s.spRead (c.cadr + 4 * i) 4)) else none
    xmmElem (xmmElt c.afmt) (xmmElt c.bfmt) c.strict old lines)

/-! ## The unit (11 R276, R277) -/

/-- The status that the checks of a command give. -/
def State.xmmStatus (s : State) (c : XmmCmd) : Nat :=
  if c.cancel then 7
  else if !s.xmmLegal c then 10
  else if s.xmmForeign c then 4
  else if (s.xmmSlabs c).any (fun o => decide (s.ownerGet o ≠ 3)) then 3
  else 0

/-- A group that awaits emulation goes before a waiting command (11 R280). -/
def Optics.emuWaits (o : Optics) : Bool := match o.oldestGroup with | some (_, g) => g.emu | none => false

/-- The unit takes its oldest command: the checks, then leave for K of 8 or more (11 R276). -/
def execXmmStart (tile : Nat) (s : State) : Result :=
  match (s.tile tile).xmms with
  | [] => .next s
  | c :: r =>
    if c.running || (s.tile tile).opt.emuWaits || (!s.engineOn tile && !c.cancel) then .next s
    else
      let st := s.xmmStatus c
      let slabs := if st = 0 then s.xmmSlabs c else (s.xmmSlabs c).filter (fun o => decide (s.ownerGet o = 3))
      let (granted, s1) := if st = 0 && decide (8 ≤ c.pairs) then s.askLeave tile c.pid 1 else (true, s)
      .next (s1.modTile tile (fun t =>
        { t with xmms := { c with running := true, status := BitVec.ofNat 8 st, leave := !granted, slabs := slabs } :: r }))

/-- The status area takes its two doublewords (11 R277). -/
def State.xmmReport (s : State) (c : XmmCmd) (prods : Nat) (flags : BitVec 6) (st npois : Nat) : State :=
  let w := wordsBytes [packFields [(satTo 32 prods, 32), (flags.toNat, 8), (st, 0)], packFields [(npois, 0)]]
  { s with mem := memPut s.mem (localBase c.core + c.stat) w }

/-- Room in the unit's queue: the strand that has waited longest has its command accepted and goes on. -/
def State.xmmAccept (s : State) (c : XmmCmd) : State :=
  (s.modTile c.tile (fun t => { t with xmms := t.xmms ++ [c] })).modStrand c.strand (fun x =>
    { x with xkeep := c.keep, xmmOut := x.xmmOut + 1, acks := match c.ack with | some d => x.acks ++ [d] | none => x.acks })

/-- A command leaves the unit's queue. -/
def State.xmmLeave (s : State) (tile : Nat) : State :=
  let s1 := s.modTile tile (fun t => { t with xmms := t.xmms.drop 1 })
  match s1.oldestParked (fun p => match p with | .xmmQueue c => decide (c.tile = tile) | _ => false) with
  | some (n, x) =>
    (match x.park with
     | some (.xmmQueue c) => (s1.xmmAccept c).modSlot n (fun y => y.finish 4 y.parkSh)
     | _ => s1)
  | none => s1

/-- Products of all outputs. -/
def xmmProds (out : List XmmElem) : Nat := out.foldl (fun n e => n + e.prods) 0
/-- Flags of all outputs. -/
def xmmFlags (out : List XmmElem) : BitVec 6 := out.foldl (fun (f : BitVec 6) e => f ||| e.flags) 0
/-- Outputs that `.strict` replaced. -/
def xmmPois (out : List XmmElem) : Nat := (out.filter (fun e => e.pois)).length

/-- The write phase of a command: C takes all its elements together, and the command keeps what its report will say
(11 R275, R281). -/
def State.xmmWrite (s : State) (tile : Nat) (c : XmmCmd) : State :=
  let out := s.xmmOutputs c
  let c1 : XmmCmd := { c with writing := true, prods := xmmProds out, flags := xmmFlags out, npois := xmmPois out }
  ((s.xmmInput c).spWrite c.cadr (out.flatMap (fun e => natLe 4 e.code))).modTile tile (fun t =>
    { t with xmms := c1 :: t.xmms.drop 1 })

/-- The unit ends its command: its write phase, and at the next moment the status area, the flips and the reply (11 R275 to
R277). A command cancelled before its write phase leaves C unchanged; one cancelled in it completes, and then reports CANCEL
(11 R281). -/
def execXmmComplete (tile : Nat) (s : State) : Result :=
  match (s.tile tile).xmms with
  | [] => .next s
  | c :: _ =>
    if !c.running || c.leave then .next s
    else if c.status = 0 && !c.cancel && !c.writing then .next (s.xmmWrite tile c)
    else
      let st := if c.status = 0 && c.cancel then 7 else c.status.toNat
      let s2 := s.xmmReport c c.prods c.flags st c.npois
      let s3 := if st = 0 && c.keep then s2 else s2.flipOwned c.slabs 3 0
      let s4 := s3.modStrand c.strand (fun x => { x with xmmOut := x.xmmOut - 1 })
      let s5 :=
        match c.ack with
        | some d => s4.engineReply c.strand d (packFields [(c.flags.toNat, 8), (st, 0)])
        | none => s4
      .next (s5.xmmLeave tile)

/-! ## Instructions (11 R272, R282) -/

/-- `xmm` and `xmm.strict`. -/
def State.xmmCmd (s : State) (strict : Bool) (ack : Option (BitVec 5)) (a : BitVec 5) (h : BitVec 2) : Result :=
  let ga := s.hart.getG a
  s.issue Need.command
    (if ga.toNat % 32 ≠ 0 then s.raise .maln ga
     else if 0x3FFE0 < ga.toNat then s.raise .lsrange ga
     else
       let w := bytesWords (s.localRead ga.toNat 32) 4
       let c : XmmCmd :=
         { strand := s.hart.sid, pid := s.hart.pid, ack := ack, strict := strict, core := s.coreNo, d0 := nthW w 0,
           d1 := nthW w 1, d2 := nthW w 2, d3 := nthW w 3, running := false, leave := false, cancel := false, status := 0 }
       let s1 := (s.beforeAccess true).releaseActions s.hid 1
       if (s1.tile c.tile).xmms.length < 16 then (s1.xmmAccept c).done h id
       else .next (s1.parkAt h (.xmmQueue c)))

/-- `xmm` (11 R272). -/
def execXmm (a : BitVec 5) (h : BitVec 2) (s : State) : Result := s.xmmCmd false none a h
/-- `xmm.ack` (11 R272). -/
def execXmmAck (d a : BitVec 5) (h : BitVec 2) (s : State) : Result := s.xmmCmd false (some d) a h
/-- `xmm.strict` (11 R272). -/
def execXmmStrict (a : BitVec 5) (h : BitVec 2) (s : State) : Result := s.xmmCmd true none a h
/-- `xmm.strict.ack` (11 R272). -/
def execXmmStrictAck (d a : BitVec 5) (h : BitVec 2) (s : State) : Result := s.xmmCmd true (some d) a h

end Sys2Proof.Machine
end

