-- ==== Sys2Proof/Machine/Launch.lean ====
section
/-!
DEFINITION. Groups, graphs and jobs (12 R286 to R288): the checks of their blocks, launching a template (12 R290, R313),
dependences (12 R291), counting a strand that ends and completing a group (12 R293, R294), signals and the additions the
device performs itself (06 R142).
-/

namespace Sys2Proof.Machine

/-- A cause with the value it reports. -/
abbrev Failure := Cause × Word

/-- The router of a core; a service core's port stands beside the router of a corner (01 R10). -/
def coreRouter (core : Nat) : Nat × Nat :=
  if core < 256 then (coreX core, coreY core)
  else match core - 256 with
    | 0 => (0, 0)
    | 1 => (15, 0)
    | 2 => (0, 15)
    | _ => (15, 15)

/-! ## Blocks (12 R286, R287) -/

/-- The eight doublewords of a block at its home copy, through the stations of a quadrant (01 R11). -/
def State.blockWordsAt (s : State) (q : Nat) (pid : BitVec 12) (va : Word) : List Word :=
  match (s.vaGet q pid true va 64).1 with
  | .ok bs => bytesWords bs 8
  | .error _ => []

/-- The same for an access that no core makes (assumption 84). -/
def State.blockWords (s : State) (pid : BitVec 12) (va : Word) : List Word := s.blockWordsAt 0 pid va

/-- MALN and translation of a block, and whether it lies in local HBM4 (12 R312, orders 2, 4 and 6). -/
def State.blockCheck (s : State) (q : Nat) (pid : BitVec 12) (exec : Bool) (va : Word) (write : Bool) :
    Except Failure Bool :=
  if va.toNat % 64 ≠ 0 then .error (.maln, va)
  else
    match (s.translate q pid exec va (if write then .write else .read)).1 with
    | .error c => .error (c, va)
    | .ok x => .ok (decide (s.region x.pa = .hbm))

/-- KIND of a block. -/
def blockKind (b : List Word) : Nat := fld (nthW b 0) 63 62
/-- STATE of a block: IDLE or OPEN 0, WAITING 1, RUNNING 2, DONE 3, CANCELLED 4. -/
def blockState (b : List Word) : Nat := fld (nthW b 0) 61 58
/-- N of a group. -/
def groupN (b : List Word) : Nat := fld (nthW b 0) 23 0
/-- RMAX of a group. -/
def groupRmax (b : List Word) : Nat := fld (nthW b 0) 28 24

/-- A group control block has a field out of its limits (12 R286, R312). -/
def gcbBad (b : List Word) : Bool :=
  blockKind b ≠ 0 || fld (nthW b 0) 57 32 ≠ 0 || fld (nthW b 0) 30 29 ≠ 0 || groupN b = 0 || fld (nthW b 2) 63 57 ≠ 0 ||
    fld (nthW b 4) 63 57 ≠ 0 || fld (nthW b 5) 63 57 ≠ 0 || fld (nthW b 6) 31 20 ≠ 0 || fld (nthW b 6) 15 13 ≠ 0 ||
    fld (nthW b 7) 63 57 ≠ 0

/-- A graph block has a field out of its limits (12 R287, R312). -/
def graphBad (b : List Word) : Bool :=
  blockKind b ≠ 1 || fld (nthW b 0) 57 32 ≠ 0 || fld (nthW b 1) 63 57 ≠ 0 || fld (nthW b 2) 63 20 ≠ 0 ||
    fld (nthW b 2) 15 13 ≠ 0 || (b.drop 3).any (fun w => decide (w ≠ 0))

/-- Write STATE of a block, through the stations of a quadrant. -/
def State.setBlockStateAt (s : State) (q : Nat) (pid : BitVec 12) (va : Word) (st : Nat) : State :=
  match s.vaWordAt q pid va with
  | some w => s.vaSetWordAt q pid va (setFld w 61 58 st)
  | none => s

/-- Write STATE of a block. -/
def State.setBlockState (s : State) (pid : BitVec 12) (va : Word) (st : Nat) : State := s.setBlockStateAt 0 pid va st

/-- The graph block that a group names; 0 without one. -/
def State.graphOf (s : State) (pid : BitVec 12) (gcb : Word) : Word :=
  if gcb = 0 then 0 else addr57 ((s.vaWord pid (gcb + 16)).getD 0)

/-- The entry of a group that the device knows. -/
def State.knownOf (s : State) (pid : BitVec 12) (gcb : Word) : Option Known :=
  s.known.find? (fun k => k.pid = pid && k.gcb = gcb)

/-- Change the entry of a group, which the device knows from now on (12 R304). -/
def State.knowGroup (s : State) (pid : BitVec 12) (gcb : Word) (f : Known → Known) : State :=
  let old : Known :=
    (s.knownOf pid gcb).getD { pid := pid, gcb := gcb, spawned := false, exec := false, prio := 0, quiet := false }
  { s with known := s.known.filter (fun k => !(k.pid = pid && k.gcb = gcb)) ++ [f old] }

/-- What the device knows of a group is of an earlier use of its block, which software has written anew since: the group had
completed, and the block is IDLE (12 R286, R304). -/
def State.staleGroup (s : State) (pid : BitVec 12) (gcb : Word) : Bool :=
  (match s.knownOf pid gcb with | some k => k.done | none => false) && decide (blockState (s.blockWords pid gcb) = 0)

/-- Such a group is known no more. -/
def State.freshGroup (s : State) (pid : BitVec 12) (gcb : Word) : State :=
  if s.staleGroup pid gcb then { s with known := s.known.filter (fun k => !(k.pid = pid && k.gcb = gcb)) } else s

/-! ## Additions that the device performs (06 R142) -/

/-- Add to the word at an address of a PID: at its home slice, in host memory through the queue of additions, or, where the
rule that names it allows that (`far`), in another device as `red`; anything else is dropped and recorded (06 R142;
12 R294). -/
def State.deviceAdd (s : State) (pid : BitVec 12) (va : Word) (op : BitVec 4) (dbl : Bool) (v : Word) (far : Bool) : State :=
  let n := if dbl then 8 else 4
  if va.toNat % n ≠ 0 then s.note 0x04 pid va 0
  else
    match s.translate 0 pid true va .write with
    | (.error _, s1) => s1.note 0x04 pid va 0
    | (.ok x, s1) =>
      match s1.region x.pa with
      | .hbm => s1.redAt none pid x.pa op.toNat dbl v
      | .host => { s1 with hostAdds := s1.hostAdds ++ [{ pa := x.pa, dbl := dbl, op := op, v := v, old := none, varn := none }] }
      | .remote dev off => if far then s1.farAdd dev off va op dbl v else s1.note 0x04 pid va 0
      | _ => s1.note 0x04 pid va 0

/-- The oldest addition to host memory reads the word; at its next moment it computes the result and posts it, so that the
host may write the word in between (06 R142). -/
def execHostAddition (s : State) : Result :=
  match s.hostAdds with
  | [] => .next s
  | a :: r =>
    let n := if a.dbl then 8 else 4
    match a.old with
    | none => .next { s with hostAdds := { a with old := some (leNat (memBytes s.mem a.pa n)) } :: r }
    | some old =>
      let new := (amoNew a.op.toNat (8 * n) old (a.v.toNat % 2 ^ (8 * n)) 0).1
      .next { s with hostAdds := r, mem := memPut s.mem a.pa (natLe n new) }

/-- A completion signal fires with a value: `sig` is the address, `tgt` the doubleword that names the host queue (12 R294). -/
def State.fireSignal (s : State) (pid : BitVec 12) (sig tgt : Word) (v : Nat) : State :=
  let q := fld tgt 11 0
  if va57 sig = 0 then s
  else if bitOf tgt 12 && (decide ((s.queue q).qgen.toNat ≠ fld tgt 19 16) || (s.queue q).torn) then
    s.modQueue q (fun k => { k with sdrop := BitVec.ofNat 12 (satTo 12 (k.sdrop.toNat + 1)) })
  else s.deviceAdd pid (addr57 sig) 0 true (BitVec.ofNat 64 v) false

/-- The value a signal adds: 1 for DONE, 2^32 for CANCELLED. -/
def signalValue (st : Nat) : Nat := if st = 4 then 2 ^ 32 else 1

/-! ## Completion of a group (12 R294) -/

/-- One successor of a completed group has one dependence less; a WAITING one with none left runs, its launch deferred. -/
def State.releaseSucc (s : State) (pid : BitVec 12) (succ : Word) : State :=
  let s := s.probe 0 pid succ 64
  match s.vaWord pid (succ + 24), s.vaWord pid succ with
  | some w3, some w0 =>
    let deps := fld w3 31 0 - 1
    let s1 := s.vaSetWord pid (succ + 24) (setFld w3 31 0 deps)
    if deps = 0 && fld w0 61 58 = 1 then
      let s2 := s1.vaSetWord pid succ (setFld w0 61 58 2)
      { s2 with deferred := s2.deferred ++ [(pid, succ)] }
    else s1
  | _, _ => s

/-- The requester number under which the device reads for a group: its successor list or its template (12 R286, R294). -/
def groupId (pid : BitVec 12) (gcb : Word) : Nat := 2 * noStrand + strandId pid gcb

/-- One group of a graph has ended: LIVE, and the graph's signal when none is left (12 R287, R294). -/
def State.graphEnded (s : State) (pid : BitVec 12) (g : Word) : State :=
  let s := s.probe 0 pid g 64
  let b := s.blockWords pid g
  let live := fld (nthW b 0) 31 0
  if live = 0 then s.note 0x06 pid g 0
  else
    let w := setFld (nthW b 0) 31 0 (live - 1)
    if live ≠ 1 then s.vaSetWord pid g w
    else
      let st := if blockState b = 4 then 4 else 3
      (s.vaSetWord pid g (setFld w 61 58 st)).fireSignal pid (nthW b 1) (nthW b 2) (signalValue st)

/-- The last steps of a group's completion: its graph, and its own signal, which one cancelled with its graph or job does not
fire (12 R294, R304). -/
def State.completeRest (s : State) (pid : BitVec 12) (gcb : Word) : State :=
  let b := s.blockWords pid gcb
  let g := addr57 (nthW b 2)
  let s1 := if g = 0 then s else s.graphEnded pid g
  let s2 := s1.knowGroup pid gcb (fun k => { k with done := true, ending := none })
  if (match s.knownOf pid gcb with | some k => k.quiet | none => false) then s2
  else s2.fireSignal pid (nthW b 7) (nthW b 6) (signalValue (if blockState b = 4 then 4 else 3))

/-- Release the successors of a completed group from number `k` on, then its last steps (12 R294). Where another device has not
sent an entry of the list, the device asks for it and the completion stays due. -/
def State.releaseFrom (s : State) (pid : BitVec 12) (gcb slist : Word) (k : Nat) : Nat → State
  | 0 => s.completeRest pid gcb
  | n + 1 =>
    match s.engineRead (groupId pid gcb) 0 pid true (slist + BitVec.ofNat 64 (8 * k)) 8 with
    | (.ok none, s1) =>
      let s2 := s1.knowGroup pid gcb (fun e => { e with ending := some k })
      if s2.deferred.contains (pid, gcb) then s2 else { s2 with deferred := s2.deferred ++ [(pid, gcb)] }
    | (.ok (some bs), s1) =>
      ((s1.engineForget (groupId pid gcb)).releaseSucc pid (addr57 (BitVec.ofNat 64 (leNat bs)))).releaseFrom pid gcb slist (k + 1) n
    | (.error _, s1) => (s1.engineForget (groupId pid gcb)).releaseFrom pid gcb slist (k + 1) n

/-- A group completes (12 R294); the profile entries of its PID are spilled (15 R400). -/
def State.completeGroup (s : State) (pid : BitVec 12) (gcb : Word) : State :=
  let s := s.probe 0 pid gcb 64
  let b := s.blockWords pid gcb
  ((s.setBlockState pid gcb (if blockState b = 4 then 4 else 3)).spillPid pid).releaseFrom pid gcb (addr57 (nthW b 5)) 0
    (fld (nthW b 6) 47 32)

/-- After DONE or ARRIV of a group has changed: a barrier that this opens, and the completion of the group once
(06 R153; 12 R294). -/
def State.groupMoved (s : State) (pid : BitVec 12) (gcb : Word) : State :=
  let s1 := s.tryBarrier 0 pid gcb
  match s1.vaWord pid (gcb + 8), s1.vaWord pid gcb with
  | some w1, some w0 =>
    if fld w1 23 0 = fld w0 23 0 && !(match s1.knownOf pid gcb with | some k => k.done || k.ending.isSome | none => false) then
      s1.completeGroup pid gcb
    else s1
  | _, _ => s1

/-- A strand has ended: its group's DONE, wherever the group's block is, with what follows there, and the job counter
(12 R288, R293; 06 R153; 14 R355). The addition goes through the stations of the strand's quadrant (01 R11). -/
def State.countEnd (s : State) (q : Nat) (r : Rec) : State :=
  let s1 := s.modJob r.pid (fun j => { j with count := j.count - 1 })
  if r.gcb = 0 then s1
  else
    match s1.farBlock q r.pid (r.gcb + 8) with
    | some (dev, off) => s1.farAdd dev off (r.gcb + 8) 0 true 1
    | none =>
      let s2 := s1.probe q r.pid r.gcb 64
      match s2.vaWordAt q r.pid (r.gcb + 8) with
      | some w1 => (s2.vaSetWordAt q r.pid (r.gcb + 8) (setFld w1 23 0 (fld w1 23 0 + 1))).groupMoved r.pid r.gcb
      | none => s2

/-- A counter of a known group of a PID has been changed from another device (14 R355). -/
def State.groupTouched (s : State) (pid : BitVec 12) (pa : Nat) : State :=
  match s.known.find? (fun k => decide (k.pid = pid) && decide (s.blockPa pid (k.gcb + 8) = pa)) with
  | some k => s.groupMoved pid k.gcb
  | none => s

/-- A 32-bit field of a migration frame pool. -/
def State.poolWord (s : State) (pa off : Nat) : Nat := leNat (memBytes s.mem (pa + off) 4)

/-- Write a 32-bit field of a migration frame pool. -/
def State.setPoolWord (s : State) (pa off v : Nat) : State := { s with mem := memPut s.mem (pa + off) (natLe 4 v) }

/-- A frame taken from a pool returns to it; one whose registration is gone is not returned, which is recorded
(14 R356). -/
def State.returnFrame (s : State) (x : Slot) : State :=
  match x.pooled with
  | none => s
  | some g =>
    let j := s.job x.pid
    match (if j.poolGen = g then j.pool else none) with
    | none => s.note 0x19 x.pid x.record.frame 0
    | some pa =>
      let n := s.poolWord pa 12
      let s1 : State := { s with mem := memPut s.mem (pa + 64 + 8 * n) (natLe 8 x.record.frame.toNat) }
      (s1.setPoolWord pa 12 (if n + 1 < s.poolWord pa 0 then n + 1 else 0)).setPoolWord pa 16 (s.poolWord pa 16 + 1)

/-- Write the record of a strand that has ended, and return its frame to the pool it came from; a frame that cannot be
written makes the context fatal, unless its release is under way already (12 R285; 14 R356; 15 R390). -/
def State.endRecord (s : State) (q : Nat) (x : Slot) (st : Nat) : State :=
  match s.recordWrite q x st 0 with
  | .ok s1 => s1.returnFrame x
  | .error _ =>
    if (s.job x.pid).dumping ≠ 0 then s
    else
      s.fatalCause x.pid
        { cause := Cause.framef.code, src := 0xFFFF, flags := 0, xpc := x.pc, xval := x.record.frame, time := s.timeNs }

/-! ## Launching (12 R290, R313) -/

/-- Who launches: PID, level, priority cap at user level, where items enter, the quadrant whose stations translate. -/
structure Launcher where
  pid    : BitVec 12
  exec   : Bool
  prio   : BitVec 4
  router : Nat × Nat
  quad   : Nat
  deriving DecidableEq, Repr

/-- A template that SPAWNREC refuses (12 R290, R313). -/
def templateBad (w : List Word) (exec : Bool) : Bool :=
  let t := Rec.ofWords w
  recReserved w || t.frame = 0 || decide (t.frame.toNat % 1024 ≠ 0) || decide (t.fmtp.toNat % 16 ≠ 0) ||
    decide (t.kbank.toNat % 256 ≠ 0) || decide (t.gcb.toNat % 64 ≠ 0) || decide (30 < t.hrad.toNat) ||
    (t.exec && !exec) || (t.opt && decide (t.gcb = 0))

/-- Strand i of a launch (12 R290). -/
def Rec.member (t : Rec) (l : Launcher) (i : Nat) (spread : Bool) : Rec :=
  let li := (16 * t.hy.toNat + t.hx.toNat + i) % 256
  { t with
    pid := l.pid
    prio := if !l.exec && l.prio.toNat < t.prio.toNat then l.prio else t.prio
    new := true
    gidx := BitVec.ofNat 24 i
    frame := BitVec.ofNat 64 ((t.frame.toNat + i * frameSize t.mode) % 2 ^ 57)
    hx := if spread then BitVec.ofNat 4 (li % 16) else t.hx
    hy := if spread then BitVec.ofNat 4 (li / 16) else t.hy }

/-- LPMAX of a PID's job block (13 R314). -/
def State.lpMax (s : State) (pid : BitVec 12) : Nat := fld (s.vjbWord pid 1) 30 0

/-- The identifier of strand i of a group (13 R313). -/
def lpIdent (b : List Word) (i : Nat) : Nat := (fld (nthW b 3) 63 32 + i) % 2 ^ 32

/-- An identifier cannot be launched: not below LPMAX, or not UNUSED (13 R313). -/
def State.lpTaken (s : State) (pid : BitVec 12) (id : Nat) : Bool :=
  decide (s.lpMax pid ≤ id) || decide (((s.job pid).lp id).state ≠ .unused)

/-- Some identifier of a group cannot be launched (13 R313). -/
def State.lpRangeTaken (s : State) (pid : BitVec 12) (b : List Word) : Bool :=
  let base := fld (nthW b 3) 63 32
  decide (s.lpMax pid < base + groupN b) ||
    (s.job pid).lps.any (fun e => decide (base ≤ e.1) && decide (e.1 < base + groupN b) && decide (e.2.state ≠ .unused))

/-- One strand enters placement and is counted; a logical process takes its identifier (12 R290; 13 R313). -/
def State.launchOne (s : State) (r : Rec) (pc : Word) (total rmax : Nat) (router : Nat × Nat) (lp : Option Nat) : State :=
  let s1 := s.modJob r.pid (fun j => { j with count := j.count + 1 })
  let s2 := match lp with
    | some id => s1.modLp r.pid id (fun p => { p with state := .live, strand := strandId r.pid r.frame })
    | none => s1
  s2.enterItem r pc router.1 router.2 total rmax (lp.getD 0)

/-- Launch strands i, i + 1, … of a group in ascending order (12 R290). -/
def State.launchFrom (s : State) (l : Launcher) (t : Rec) (pc : Word) (b : List Word) (i : Nat) : Nat → State
  | 0 => s
  | n + 1 =>
    let r := t.member l i (bitOf (nthW b 0) 31)
    let s1 := s.launchOne r pc (groupN b) (groupRmax b) l.router (if t.opt then some (lpIdent b i) else none)
    s1.launchFrom l t pc b (i + 1) n

/-- Launch a template whose eight doublewords are `w`, recorded as standing at `tmpl`; none of its checks changes anything
(12 R290, R312, R313). `host`: the service core first writes the record into the frame at its FRAME and records that
address (12 R309). -/
def State.spawnWords (s : State) (l : Launcher) (tmpl : Word) (w : List Word) (host : Bool) : Except Failure State :=
  let t := Rec.ofWords w
  let pc := addr57 (nthW w 0)
  let blk := if t.gcb = 0 || t.gcb.toNat % 64 ≠ 0 then .ok true else s.blockCheck l.quad l.pid l.exec t.gcb true
  match blk with
  | .error e => .error e
  | .ok inHbm =>
    if templateBad w l.exec then .error (.spawnrec, tmpl)
    else if t.gcb = 0 then .ok (s.launchOne (t.member l 0 false) pc 1 0 l.router none)
    else
      let s := s.probe l.quad l.pid t.gcb 64
      let b := s.blockWordsAt l.quad l.pid t.gcb
      if t.opt && (s.job l.pid).vjb.isNone then .error (.vtjob, tmpl)
      else if t.opt && s.lpRangeTaken l.pid b then .error (.lpdup, tmpl)
      else if !inHbm || gcbBad b then .error (.gcbbad, t.gcb)
      else if blockState b ≠ 0 then .error (.gstate, t.gcb)
      else
        let s0 : Except Failure State :=
          if host then
            match s.vaPut l.quad l.pid l.exec t.frame (wordsBytes ((t.member l 0 false).words pc 0 0)) with
            | .error c => .error (c, t.frame)
            | .ok s1 => .ok s1
          else .ok s
        match s0 with
        | .error e => .error e
        | .ok s0 =>
          let st := if fld (nthW b 3) 31 0 = 0 then 2 else 1
          let s1 := (s0.setBlockStateAt l.quad l.pid t.gcb st).vaSetWordAt l.quad l.pid (t.gcb + 32) (if host then t.frame else tmpl)
          let s2 := s1.knowGroup l.pid t.gcb (fun k =>
            { k with spawned := true, exec := l.exec, prio := l.prio, quiet := false, done := false, ending := none })
          .ok (if st = 2 then s2.launchFrom l t pc b 0 (groupN b) else s2)

/-- Launch the strands of a deferred group; a logical process whose identifier cannot be launched is dropped and counted as
ended (13 R313). -/
def State.deferredFrom (s : State) (l : Launcher) (t : Rec) (pc : Word) (b : List Word) (i : Nat) : Nat → State
  | 0 => s
  | n + 1 =>
    let r := t.member l i (bitOf (nthW b 0) 31)
    let id := lpIdent b i
    let bad := t.opt && ((s.job l.pid).vjb.isNone || s.lpTaken l.pid id)
    let s1 :=
      if bad then
        let x : Slot := { Slot.vacant with pc := pc, record := r }
        (((s.modJob l.pid (fun j => { j with count := j.count + 1 })).countEnd l.quad r).endRecord l.quad x 5).note 0x1A l.pid r.gcb
          (if (s.job l.pid).vjb.isNone then Cause.vtjob.code.setWidth 64 else Cause.lpdup.code.setWidth 64)
      else s.launchOne r pc (groupN b) (groupRmax b) l.router (if t.opt then some id else none)
    s1.deferredFrom l t pc b (i + 1) n

/-- A deferred launch fails: DONE := N, CANCELLED, and the group completes (12 R300). -/
def State.deferredFail (s : State) (pid : BitVec 12) (gcb : Word) (c : Cause) : State :=
  let b := s.blockWords pid gcb
  let s1 := (s.setBlockState pid gcb 4).vaSetWord pid (gcb + 8) (setFld (nthW b 1) 23 0 (groupN b))
  (s1.completeGroup pid gcb).note 0x1A pid gcb (c.code.setWidth 64)

/-- A deferred launch from the bytes of its template (12 R286): every strand is launched from that copy, or the template or the
block fails (12 R300). -/
def State.deferredFromCopy (s : State) (pid : BitVec 12) (gcb : Word) (b : List Word) (exec : Bool) (prio : BitVec 4)
    (inHbm : Bool) (bs : List Byte) : State :=
  let w := bytesWords bs 8
  let t := Rec.ofWords w
  let quad := quadOf (gridCore t.hx.toNat t.hy.toNat)
  let l : Launcher := { pid := pid, exec := exec, prio := prio, router := coreRouter (256 + quad), quad := quad }
  if templateBad w exec then s.deferredFail pid gcb .spawnrec
  else if !inHbm || gcbBad b then s.deferredFail pid gcb .gcbbad
  else s.deferredFrom l t (addr57 (nthW w 0)) b 0 (groupN b)

/-- A deferred launch reads its template once and launches every strand from that copy, whatever has become of it since
(12 R286); the launch fails if the read, the template or the block fails (12 R300). A template in another device is asked for,
and the launch stays due until the answer comes (14 R349). -/
def State.deferredLaunch (s : State) (pid : BitVec 12) (gcb : Word) (b : List Word) (exec : Bool) (prio : BitVec 4) : State :=
  match s.blockCheck 0 pid exec gcb true with
  | .error e => s.deferredFail pid gcb e.1
  | .ok inHbm =>
    match s.engineRead (groupId pid gcb) 0 pid exec (addr57 (nthW b 4)) 64 with
    | (.error c, s1) => (s1.engineForget (groupId pid gcb)).deferredFail pid gcb c
    | (.ok none, s1) => { s1 with deferred := s1.deferred ++ [(pid, gcb)] }
    | (.ok (some bs), s1) => (s1.engineForget (groupId pid gcb)).deferredFromCopy pid gcb b exec prio inHbm bs

/-- The oldest deferred launch, at an index of its list (12 R294, R300); one of a frozen context is dropped (15 R390). A group
that was cancelled after its last dependence was met never launches, and completes as CANCELLED (12 R305). A block that
cannot be read any more is only recorded. A completion that waits for its list goes on in the same way. -/
def execDeferredLaunch (idx : Nat) (s : State) : Result :=
  match s.deferred[idx]? with
  | none => .next s
  | some (pid, gcb) =>
    let s0 : State := { s with deferred := s.deferred.eraseIdx idx }
    let k := s.knownOf pid gcb
    if s.engineAwaits (groupId pid gcb) then .next s
    else if !(s0.job pid).causes.isEmpty then .next ((s0.engineForget (groupId pid gcb)).note 0x1A pid gcb 0)
    else
      match s0.vaGet 0 pid true gcb 64 with
      | (.error c, s1) => .next (s1.note 0x1A pid gcb (c.code.setWidth 64))
      | (.ok bs, s1) =>
        let b := bytesWords bs 8
        match (match k with | some e => e.ending | none => none) with
        | some n => .next (s1.releaseFrom pid gcb (addr57 (nthW b 5)) n (fld (nthW b 6) 47 32 - n))
        | none =>
        if blockState b = 4 then
          .next (if (match k with | some e => e.done | none => false) then s1 else (s1.engineForget (groupId pid gcb)).completeGroup pid gcb)
        else if blockState b ≠ 2 then .next s1
        else
          .next (s1.deferredLaunch pid gcb b (match k with | some e => e.exec | none => false)
            (match k with | some e => e.prio | none => 15))

/-! ## Leaving waits (06 R148, R153; 12 R304) -/

/-- The arrival of a strand at a barrier that another device keeps is taken back (14 R355). -/
def State.leaveFarBarrier (s : State) (sid : Nat) : State :=
  match s.strandOf sid with
  | none => s
  | some x =>
    if x.barGen.isNone then s
    else
      let va := x.record.gcb + 8
      let s1 := (s.modStrand sid (fun y => { y with barGen := none })).remoteEnd (fun r => decide (r.strand = barId sid))
      match s1.farBlock 0 x.pid va with
      | some (dev, off) => s1.farAdd dev off va 0 true (BitVec.ofNat 64 (2 ^ 64 - 2 ^ 24))
      | none => s1

/-- The barrier entry of a strand is removed, its arrival with it. -/
def State.leaveBarrier (s : State) (sid : Nat) : State :=
  match s.barriers.find? (fun e => e.1 = sid) with
  | none => s.leaveFarBarrier sid
  | some (_, gcb, pid) =>
    let s1 : State := { s with barriers := s.barriers.filter (fun e => e.1 ≠ sid) }
    match s1.vaWord pid (gcb + 8) with
    | some w => s1.vaSetWord pid (gcb + 8) (setFld w 47 24 (fld w 47 24 - 1))
    | none => s1

/-- The `bankcfg` of a strand that waits behind an earlier switch is withdrawn. -/
def State.leaveBankQueue (s : State) (sid : Nat) : State :=
  { s with tiles := s.tiles.map (fun e =>
      (e.1, { e.2 with banks := e.2.banks.map (fun b =>
        { b with queue := b.queue.take 1 ++ (b.queue.drop 1).filter (fun q => q.1 ≠ sid) }) })) }

/-- A strand's wait entries of every kind are removed (06 R148). -/
def State.leaveWaits (s : State) (sid : Nat) : State := ((s.dropWaits sid).leaveBarrier sid).leaveBankQueue sid

/-! ## Dependences (12 R291) -/

/-- `gdep` for a PID at a level: the group at `b` depends on the group at `a`. -/
def State.gdepFor (s : State) (q : Nat) (pid : BitVec 12) (exec : Bool) (a b : Word) : Except Failure State :=
  if a.toNat % 64 ≠ 0 then .error (.maln, a)
  else if b.toNat % 64 ≠ 0 then .error (.maln, b)
  else
    match s.blockCheck q pid exec a true, s.blockCheck q pid exec b true with
    | .error e, _ => .error e
    | .ok _, .error e => .error e
    | .ok ha, .ok hb =>
      let s := (((s.probe q pid a 64).probe q pid b 64).freshGroup pid a).freshGroup pid b
      let wa := s.blockWordsAt q pid a
      let wb := s.blockWordsAt q pid b
      if !ha || gcbBad wa then .error (.gcbbad, a)
      else if !hb || gcbBad wb then .error (.gcbbad, b)
      else if a = b || blockState wb ≠ 0 then .error (.gstate, b)
      else
        let s1 := (s.knowGroup pid a id).knowGroup pid b id
        let scnt := fld (nthW wa 6) 47 32
        if 3 ≤ blockState wa then .ok s1
        else if scnt = fld (nthW wa 6) 63 48 then .error (.gdepfull, a)
        else
          let at_ := addr57 (nthW wa 5) + BitVec.ofNat 64 (8 * scnt)
          match s1.vaPut q pid exec at_ (natLe 8 b.toNat) with
          | .error c => .error (c, at_)
          | .ok s2 =>
            let s3 := s2.vaSetWordAt q pid (b + 24) (setFld (nthW wb 3) 31 0 (fld (nthW wb 3) 31 0 + 1))
            .ok (s3.vaSetWordAt q pid (a + 48) (setFld (nthW wa 6) 47 32 (scnt + 1)))

end Sys2Proof.Machine
end

