-- ==== Sys2Proof/Machine/Vtime.lean ====
section
/-!
DEFINITION. Messages and virtual time (13 R313 to R345): message lines and keys, sending and arrival, `msend`, `mrecv`,
`mend`, `varn`, the rollback sequencer, the vanishing point with what follows its advance, dead letters and the job block.
-/

namespace Sys2Proof.Machine

/-! ## Lines and keys (13 R317, R318) -/

/-- A key as one number, in the order of 13 R318. -/
def msgKey (vrt : Word) (sender : BitVec 32) (seq : Word) (inc : BitVec 16) : Nat :=
  ((vrt.toNat * 2 ^ 32 + sender.toNat) * 2 ^ 64 + seq.toNat) * 2 ^ 16 + inc.toNat

/-- The key of a message. -/
def Msg.key (m : Msg) : Nat := msgKey m.vrt m.sender m.seq m.inc

/-- The key of a handler's message. -/
def Ckpt.key (c : Ckpt) : Nat := msgKey c.vrt c.sender c.seq c.minc

/-- Two messages are twins: one key, one destination, one positive and one anti (13 R318). -/
def Msg.twin (m n : Msg) : Bool := decide (m.key = n.key) && decide (m.dest = n.dest) && decide (m.anti ≠ n.anti)

/-- FLAGS of a line: ANTI, COLOUR, NOLP. -/
def Msg.flags (m : Msg) : Nat := b2n m.anti + 2 * b2n m.colour + 4 * b2n m.nolp

/-- The 256 bytes of a message line. -/
def Msg.line (m : Msg) : List Byte :=
  natLe 4 m.dest.toNat ++ natLe 4 m.sender.toNat ++ natLe 8 m.vrt.toNat ++ natLe 8 m.seq.toNat ++ natLe 2 m.sel.toNat ++
    natLe 2 m.size.toNat ++ natLe 1 m.flags ++ natLe 1 0 ++ natLe 2 m.inc.toNat ++ natLe 8 m.svt.toNat ++
    List.replicate 24 0 ++ natLe 192 m.payload.toNat

/-- A message from its line; the payload past SIZE is delivered as zero. -/
def Msg.ofLine (pid : BitVec 12) (fabric : Bool) (v : VReg) : Msg :=
  let f (off n : Nat) : Nat := v.toNat / 2 ^ (8 * off) % 2 ^ (8 * n)
  let size := f 26 2
  { pid := pid, dest := BitVec.ofNat 32 (f 0 4), sender := BitVec.ofNat 32 (f 4 4), vrt := BitVec.ofNat 64 (f 8 8),
    seq := BitVec.ofNat 64 (f 16 8), inc := BitVec.ofNat 16 (f 30 2), sel := BitVec.ofNat 16 (f 24 2),
    size := BitVec.ofNat 16 size, anti := decide (f 28 1 % 2 = 1), colour := decide (f 28 1 / 2 % 2 = 1),
    nolp := decide (f 28 1 / 4 % 2 = 1), svt := BitVec.ofNat 64 (f 32 8), fabric := fabric, skid := false,
    payload := BitVec.ofNat 1536 (f 64 192 % 2 ^ (8 * size)) }

/-! ## The queue of a logical process -/

/-- Of two queued messages the one of lower key. -/
def lowerMsg (a : Option QMsg) (q : QMsg) : Option QMsg :=
  match a with
  | none => some q
  | some r => if q.msg.key < r.msg.key then some q else some r

/-- The lowest-keyed unprocessed message (13 R321). -/
def Lp.nextMsg (p : Lp) : Option QMsg := (p.queue.filter (fun q => !q.processed)).foldl lowerMsg none

/-- The newest processed key, 0 without one (13 R318). -/
def Lp.newest (p : Lp) : Nat := (p.queue.filter (fun q => q.processed)).foldl (fun k q => Nat.max k q.msg.key) 0

/-- Some message was processed whose key is above a key: the key's message is a straggler (13 R318). -/
def Lp.passed (p : Lp) (k : Nat) : Bool := p.queue.any (fun q => q.processed && decide (k < q.msg.key))

/-- The due rollback's key; a second trigger with a lower key moves the target (13 R327). -/
def Lp.trigger (p : Lp) (m : Msg) : Lp :=
  let new : Word × BitVec 32 × Word × BitVec 16 := (m.vrt, m.sender, m.seq, m.inc)
  match p.due with
  | none => { p with due := some new }
  | some (v, d, q, c) => if m.key < msgKey v d q c then { p with due := some new } else p

/-- The lowest pool line not in use, from `n` on; `l` is strictly rising. -/
def freeLine (n : Nat) : List Nat → Nat
  | [] => n
  | k :: r => if k = n then freeLine (n + 1) r else n

/-- Global address of a pool line (13 R314). -/
def State.poolAddr (s : State) (pid : BitVec 12) (line : Nat) : Word :=
  addr57 (s.vjbWord pid 2) + BitVec.ofNat 64 (256 * line)

/-- The device writes bytes of a PID whatever the page's attributes (13 R314); nothing where the page is absent. -/
def State.devicePut (s : State) (pid : BitVec 12) (va : Word) (bs : List Byte) : State :=
  match s.translate 0 pid true va .read with
  | (.ok x, s1) => s1.homeStore 0 pid va x.pa bs
  | (.error _, s1) => s1

/-- Free pool lines. -/
def Job.freeLines (j : Job) (l : List Nat) : Job :=
  { j with lines := j.lines.filter (fun n => !l.contains n), fullAt := if l.isEmpty then j.fullAt else none,
           fullEvt := if l.isEmpty then j.fullEvt else false }

/-! ## Sending and counting (13 R316, R332, R333) -/

/-- One more of a colour. -/
def bumpColour (v : Vector Nat 2) (c : Bool) : Vector Nat 2 :=
  v.setIfInBounds (b2n c) ((v[b2n c]?.getD 0) + 1)

/-- The lower of a minimum and a virtual time. -/
def minTime (m : Option Word) (v : Word) : Option Word :=
  match m with
  | none => some v
  | some w => if v.toNat < w.toNat then some v else some w

/-- A message or anti-message is stamped, counted as sent and on its way (13 R320, R332, R333). -/
def State.sendMsg (s : State) (m : Msg) : State :=
  let j := s.job m.pid
  match s.lpDevice m.pid m.dest with
  | some dev =>
    let j1 : Job := { j with fsent := bumpColour j.fsent j.fcolour, fmred := if j.fround = 0 then j.fmred else minTime j.fmred m.vrt }
    let s1 := s.setJob m.pid j1
    ({ s1 with transit := s1.transit ++ [{ m with colour := j.fcolour, fabric := true }] } : State).inject dev.toNat 256
  | none =>
    let j1 : Job := { j with sent := bumpColour j.sent j.colour, mred := if j.round then minTime j.mred m.vrt else j.mred }
    { s.setJob m.pid j1 with transit := s.transit ++ [{ m with colour := j.colour, fabric := false }] }

/-- A message counts as received (13 R332, R333); a withdrawn skid-mode delivery does not (13 R330). -/
def Job.countReceived (j : Job) (m : Msg) : Job :=
  if m.skid then j
  else if m.fabric then { j with frecvd := bumpColour j.frecvd m.colour } else { j with recvd := bumpColour j.recvd m.colour }

/-! ## Dead letters (13 R341) -/

/-- The word of the job block at a doubleword changes. -/
def State.setVjbWord (s : State) (pid : BitVec 12) (k : Nat) (v : Word) : State :=
  match (s.job pid).vjb with
  | some a => s.vaSetWord pid (a + BitVec.ofNat 64 (8 * k)) v
  | none => s

/-- DLCNT counts one more; at 0 the executive has cleared it. -/
def State.countDead (s : State) (pid : BitVec 12) : State :=
  let w := s.vjbWord pid 8
  let n := fld w 63 32
  (s.modJob pid (fun j => { j with deadEvt := j.deadEvt && decide (n ≠ 0) })).setVjbWord pid 8 (setFld w 63 32 (satTo 32 (n + 1)))

/-- A dead letter becomes final: DLCNT, the signal, and for the first one since DLCNT was cleared the executive event. -/
def State.letterFinal (s : State) (pid : BitVec 12) (lp : BitVec 32) : State :=
  let s1 := s.countDead pid
  let sig := addr57 (s1.vjbWord pid 9)
  let s2 := if sig = 0 then s1 else s1.deviceAdd pid sig 0 true 1 true
  if (s2.job pid).deadEvt then s2
  else (s2.modJob pid (fun j => { j with deadEvt := true })).execEvent 0 0x18 (pid.toNat + 2 ^ 12 * lp.toNat) pid

/-- A message or anti-message reaches the dead-letter queue: with its twin both go; in a full ring it is discarded, which
only DLCNT counts. -/
def State.deadLetter (s : State) (m : Msg) : State :=
  let j := s.job m.pid
  if j.dead.any (fun d => d.msg.twin m) then
    s.setJob m.pid { j with dead := j.dead.filter (fun d => !d.msg.twin m) }
  else
    let n := fld (s.vjbWord m.pid 8) 31 0
    let k := j.deadPut
    if j.dead.any (fun d => d.slot = k) || n ≤ k then
      (s.countDead m.pid).note 0x0C m.pid (m.dest.setWidth 64) m.vrt
    else
      let s1 := s.setJob m.pid
        { j with dead := j.dead ++ [{ slot := k, msg := m, final := false }], deadPut := if k + 1 < n then k + 1 else 0 }
      s1.devicePut m.pid (addr57 (s1.vjbWord m.pid 7) + BitVec.ofNat 64 (256 * k)) m.line

/-- Dead letters below VPT become final. -/
def State.finalDead (s : State) (pid : BitVec 12) : State :=
  let j := s.job pid
  let now (d : DeadLetter) : Bool := !d.final && !d.msg.anti && decide (d.msg.vrt.toNat < j.vpt.toNat)
  let s1 := s.setJob pid { j with dead := j.dead.map (fun d => { d with final := d.final || now d }) }
  (j.dead.filter now).foldl (fun (c : State) d => c.letterFinal pid d.msg.dest) s1

/-! ## Handlers (13 R321 to R323) -/

/-- The handler-start checkpoint of a strand at its `mrecv` for a message (13 R321, R323). -/
def Slot.checkpoint (x : Slot) (m : Msg) : Ckpt :=
  { vrt := m.vrt, sender := m.sender, seq := m.seq, minc := m.inc, lvt := x.lp.lvt, lpseq := x.lp.lpseq, pc := x.pc,
    g := x.g, fxf := x.fxf, lc := x.lc, loops := x.loops, fmt := x.fmt, scl := x.scl, vw := x.vw, vlr := x.vlr,
    vwin := x.vwin, vxf := x.vxf, floor := x.floor, emulate := x.emulate, hno := x.lp.hno + 1 }

/-- A handler begins: LVT and g20 to g22 (13 R321). -/
def Slot.beginHandler (x : Slot) (m : Msg) (at_ : Word) : Slot :=
  let y : Slot := { x with lp := { x.lp with lvt := m.vrt, inh := true, hno := x.lp.hno + 1 } }
  ((y.setG 20 at_).setG 21 m.vrt).setG 22 (packFields [(m.size.toNat, 48), (m.sel.toNat, 32), (m.sender.toNat, 0)])

/-- A queued message is marked processed, or unprocessed again (13 R321, R327). -/
def Lp.mark (p : Lp) (k : Nat) (v : Bool) : Lp :=
  { p with queue := p.queue.map (fun q => if q.msg.key = k then { q with processed := v } else q) }

/-- The message that a logical process may take now: the lowest within the throttle window (13 R321). -/
def State.recvReady (s : State) (x : Slot) : Option QMsg :=
  let j := s.job x.pid
  match (j.lp x.lp.lpid.toNat).nextMsg with
  | none => none
  | some q =>
    let w := s.vjbWord x.pid 6
    if q.msg.vrt.toNat ≤ Nat.min (j.vpt.toNat + w.toNat) (2 ^ 64 - 1) then some q else none

/-- Router of the tile message unit of an LP (13 R316). -/
def unitRouter (lp : BitVec 32) : Nat × Nat := coreRouter (issuingCore (lp.toNat % 16))

/-- A strand that waits in `mrecv` begins its handler if a message is ready and its log has room; without room it waits
for room, or LOGFULL is raised (13 R321, R325). -/
def State.tryRecv (s : State) (sid : Nat) : State :=
  match s.strandOf sid with
  | none => s
  | some x =>
    if x.park ≠ some .mrecv || ((s.job x.pid).lp x.lp.lpid.toNat).due.isSome then s
    else
      match s.recvReady x with
      | none => s
      | some q =>
        let e : List LogEntry := [.ckpt (x.checkpoint q.msg)]
        let at_ := s.poolAddr x.pid q.line
        if s.logFits x e 0 then
          ((s.logPush x e).modLp x.pid x.lp.lpid.toNat (fun p => p.mark q.msg.key true)).wake sid (unitRouter x.lp.lpid)
            (fun y => y.beginHandler q.msg at_)
        else if s.logWait x.pid then s.modStrand sid (fun y => { y with park := some (.logRoom 512) })
        else s.wakeFault sid (unitRouter x.lp.lpid) .logfull 0

/-- The executing LP ends its handler: every earlier access is performed and a reservation it holds revoked (13 R322). -/
def State.endHandler (s : State) : State :=
  (((s.orderingDone s.hid).performAll s.hid).revokeHeld s.hart.sid).modHart (fun x => { x with lp := { x.lp with inh := false } })

/-- `mrecv` (13 R321). -/
def execMrecv (h : BitVec 2) (s : State) : Result :=
  s.issue Need.any
    (if !s.hart.record.opt then s.raise .mseq 0
     else
       let s1 := if s.hart.lp.inh then s.endHandler else s.beforeAccess false
       .next ((s1.parkAt h .mrecv).tryRecv s1.hart.sid))

/-- `mend` (13 R322). -/
def execMend (h : BitVec 2) (s : State) : Result :=
  s.issue Need.any
    (if !s.hart.inHandler then s.raise .mseq 0 else s.endHandler.done h id)

/-! ## `msend` (13 R320) -/

/-- A field of a sender's line is out of its limits. -/
def State.lineBad (s : State) (l : VReg) (m : Msg) : Bool :=
  let f (off n : Nat) : Nat := l.toNat / 2 ^ (8 * off) % 2 ^ (8 * n)
  decide (f 29 1 ≠ 0) || decide (f 40 24 ≠ 0) || decide (s.lpMax s.hart.pid ≤ m.dest.toNat) || decide (192 < m.size.toNat) ||
    decide (m.vrt = BitVec.allOnes 64) || (!s.hart.record.opt && decide (m.sender.toNat < 2 ^ 31))

/-- A line's send lies in the sender's past. -/
def State.sendPast (s : State) (m : Msg) : Bool :=
  let x := s.hart
  if x.record.opt then
    decide (m.vrt.toNat < x.lp.lvt.toNat) || (decide (m.vrt = x.lp.lvt) && decide (m.dest = x.lp.lpid))
  else decide (m.vrt.toNat < (s.job x.pid).vpt.toNat)

/-- What the device fills in. -/
def State.fillMsg (s : State) (m : Msg) : Msg :=
  let x := s.hart
  if x.record.opt then
    { m with sender := x.lp.lpid, seq := x.lp.lpseq + 1, inc := x.lp.inc, nolp := false, svt := x.lp.lvt, anti := false }
  else { m with inc := 0, nolp := true, svt := (s.job x.pid).vpt, anti := false }

/-- `msend` (13 R320, R345). -/
def execMsend (a : BitVec 5) (h : BitVec 2) (s : State) : Result :=
  let ga := s.hart.getG a
  s.issue Need.access
    (if ga.toNat % 256 ≠ 0 then s.raise .maln ga
     else if 0x3FF00 < ga.toNat then s.raise .lsrange ga
     else if (s.job s.hart.pid).vjb.isNone then s.raise .vtjob ga
     else
       let l := bytesV (s.localRead ga.toNat 256)
       let m0 := Msg.ofLine s.hart.pid false l
       if s.lineBad l m0 then s.raise .marg ga
       else if s.sendPast m0 then s.raise .mvrt ga
       else
         let m := s.fillMsg m0
         let s1 := s.beforeAccess true
         let log : List LogEntry := if s.hart.record.opt then [.send m.dest m.seq m.inc m.vrt] else []
         s1.logThen h log (fun s2 =>
           ((s2.releaseActions s2.hid 1).sendMsg m).done h (fun x =>
             if x.record.opt then { x with lp := { x.lp with lpseq := x.lp.lpseq + 1 } } else x)))

/-! ## `varn` (13 R336, R337) -/

/-- KIND of an action. -/
def actKind (d0 : Word) : Nat := fld d0 7 0
/-- ARG. -/
def actArg (d0 : Word) : Nat := fld d0 15 8
/-- TILE. -/
def actTile (d0 : Word) : Nat := fld d0 19 16

/-- An action that VARG refuses; the operands that its kind says are zero have to be. -/
def actionBad (w : List Word) : Bool :=
  let d0 := nthW w 0
  let a := nthW w 1
  let b := nthW w 2
  let arg := actArg d0
  let f := arg % 16
  decide (fld d0 63 20 ≠ 0) || decide (nthW w 3 ≠ 0) || (decide (actKind d0 < 5) && decide (actTile d0 ≠ 0)) ||
  (match actKind d0 with
   | 0 => decide (4 ≤ arg) || decide (a.toNat % 2 ^ (arg % 4) ≠ 0)
   | 1 =>
     decide (32 ≤ arg) || !(decide (f < 8) || decide (f = 10)) || (decide (f = 10) && decide (arg / 16 = 1)) ||
       decide (a.toNat % (if arg / 16 = 1 then 8 else 4) ≠ 0)
   | 2 => decide (arg ≠ 0) || decide (b ≠ 0)
   | 3 => decide (arg ≠ 0)
   | 4 => decide (2 < arg) || decide (b ≠ 0)
   | 5 => decide (4 ≤ arg) || decide (b ≠ 0)
   | 6 => decide (4 ≤ arg) || decide (b ≠ 0)
   | 7 => decide (4 ≤ arg) || decide (a ≠ 0) || decide (b ≠ 0)
   | 8 => decide (4 ≤ arg)
   | _ => true)

/-- `varn` (13 R336, R345). -/
def execVarn (a : BitVec 5) (h : BitVec 2) (s : State) : Result :=
  let ga := s.hart.getG a
  let x := s.hart
  s.issue Need.access
    (if !x.inHandler then s.raise .mseq 0
     else if ga.toNat % 32 ≠ 0 then s.raise .maln ga
     else if 0x40000 ≤ ga.toNat then s.raise .lsrange ga
     else
       let w := bytesWords (s.localRead ga.toNat 32) 4
       if actionBad w then s.raise .varg ga
       else
         let id := x.lp.lpid.toNat
         let act : Action :=
           { d0 := nthW w 0, a := nthW w 1, b := nthW w 2, vtime := x.lp.lvt, lp := x.lp.lpid,
             idx := ((s.job x.pid).lp id).nvarn, prio := x.record.prio }
         let s1 := s.beforeAccess true
         s1.logThen h [.varn act] (fun s2 =>
           (((s2.releaseActions s2.hid 1).modLp x.pid id (fun p => { p with nvarn := p.nvarn + 1 })).modJob x.pid (fun j =>
             { j with varnish := j.varnish ++ [act] })).done h (fun y => y)))

/-! ## Arrival (13 R316, R320, R326, R329) -/

/-- Remove a message in transit. -/
def State.dropTransit (s : State) (idx : Nat) : State := { s with transit := s.transit.eraseIdx idx }

/-- A message enters its destination's queue (13 R316, R320, R326). -/
def State.enterQueue (s : State) (idx : Nat) (m : Msg) : State :=
  let j := s.job m.pid
  let id := m.dest.toNat
  let n := freeLine 0 j.lines
  if fld (s.vjbWord m.pid 3) 31 0 ≤ n then
    (if j.fullAt.isSome then s else s.setJob m.pid { j with fullAt := some s.ticks })
  else
    let late := (j.lp id).passed m.key
    let j1 := (({ j with lines := setInsert j.lines n } : Job).countReceived m).modLp id (fun p =>
      let p1 : Lp := { p with queue := p.queue ++ [{ msg := m, processed := false, line := n }] }
      if late then p1.trigger m else p1)
    let s1 := ((s.dropTransit idx).setJob m.pid j1).devicePut m.pid (s.poolAddr m.pid n) m.line
    s1.tryRecv (j.lp id).strand

/-- In compatibility mode the message units of a PID's context have been reset (15 R393 step 4). -/
def Job.unitsReset (j : Job) : Bool := decide (j.dumping = 2) && decide (4 ≤ j.compat)

/-- A message that an engine already reset has sent is dropped and counted in the sketchbook (15 R393; assumption 101). -/
def State.dropRequest (s : State) (m : Msg) : State := s.note 0x04 m.pid (m.dest.setWidth 64) m.vrt

/-- A positive message arrives (13 R316): at an EXITED process it is a dead letter; a held anti-message removes it; else it
enters the queue. One for another device leaves over the fabric. -/
def execMessageArrive (idx : Nat) (s : State) : Result :=
  match s.transit[idx]? with
  | none => .next s
  | some m =>
    if (s.job m.pid).unitsReset then .next ((s.dropTransit idx).dropRequest m)
    else if m.anti || (s.job m.pid).vjb.isNone then .next s
    else if (s.lpDevice m.pid m.dest).isSome then .next (s.dropTransit idx)
    else
      let p := (s.job m.pid).lp m.dest.toNat
      if p.state = .exited then
        .next (((s.dropTransit idx).modJob m.pid (fun j => j.countReceived m)).deadLetter m)
      else if p.antis.any (fun a => a.twin m) then
        .next ((s.dropTransit idx).modJob m.pid (fun j =>
          (j.countReceived m).modLp m.dest.toNat (fun p => { p with antis := p.antis.filter (fun a => !a.twin m) })))
      else .next (s.enterQueue idx m)

/-- An anti-message arrives (13 R329). -/
def execAntiMessageArrive (idx : Nat) (s : State) : Result :=
  match s.transit[idx]? with
  | none => .next s
  | some m =>
    if (s.job m.pid).unitsReset then .next ((s.dropTransit idx).dropRequest m)
    else if !m.anti || (s.job m.pid).vjb.isNone then .next s
    else if (s.lpDevice m.pid m.dest).isSome then .next (s.dropTransit idx)
    else
      let id := m.dest.toNat
      let s1 := (s.dropTransit idx).modJob m.pid (fun j => j.countReceived m)
      let p := (s1.job m.pid).lp id
      if p.state = .exited then .next (s1.deadLetter m)
      else
        match p.queue.find? (fun q => q.msg.twin m) with
        | none => .next (s1.modLp m.pid id (fun p => { p with antis := p.antis ++ [m] }))
        | some q =>
          if q.processed then
            .next (s1.modLp m.pid id (fun p => ({ p with antis := p.antis ++ [m] } : Lp).trigger q.msg))
          else
            .next (s1.modJob m.pid (fun j =>
              (j.modLp id (fun p => { p with queue := p.queue.filter (fun r => r.line ≠ q.line) })).freeLines [q.line]))

/-- A pool has stayed full for 1 ms: MSGFULL, once (13 R320). -/
def execMsgfull (pid : BitVec 12) (s : State) : Result :=
  let j := s.job pid
  match j.fullAt with
  | some t =>
    if !j.fullEvt && decide (t + 2000000 ≤ s.ticks) then
      .next ((s.setJob pid { j with fullEvt := true }).execEvent 0 0x09 pid.toNat pid)
    else .next s
  | none => .next s

/-! ## Rollback (13 R326 to R330) -/

/-- A log, newest first, cut at the oldest handler whose key is at least the trigger's: the entries to undo and the rest. -/
def undoSplit (k : Nat) : List LogEntry → List LogEntry × List LogEntry
  | [] => ([], [])
  | e :: r =>
    let u := undoSplit k r
    if u.1.isEmpty then
      match e with
      | .ckpt c => if k ≤ c.key then ([e], r) else ([], e :: r)
      | _ => ([], e :: r)
    else (e :: u.1, u.2)

/-- The target's checkpoint: the oldest of the entries to undo. -/
def targetOf (l : List LogEntry) : Option Ckpt :=
  l.foldl (fun a e => match e with | .ckpt c => some c | _ => a) none

/-- Undo one entry of an LP's log (13 R327, R328). -/
def State.undoEntry (s : State) (x : Slot) (lvt : Word) (e : LogEntry) : State :=
  match e with
  | .store a old _ => s.homeStore noStrand x.pid 0 a (natLe 8 old.toNat)
  | .send dest seq inc vrt =>
    s.sendMsg { pid := x.pid, dest := dest, sender := x.lp.lpid, vrt := vrt, seq := seq, inc := inc, sel := 0, size := 0,
                anti := true, colour := false, nolp := false, svt := lvt, fabric := false, skid := false, payload := 0 }
  | .varn act =>
    s.modJob x.pid (fun j => { j with varnish := j.varnish.filter (fun v => !(v.lp = act.lp && v.idx = act.idx)) })
  | .ckpt c => s.modLp x.pid x.lp.lpid.toNat (fun p => p.mark c.key false)

/-- The pass and the handler of a fault that is a floor fault. -/
def HeldFault.floor (f : HeldFault) : Option (BitVec 32 × Nat) := f.hno.map (fun n => (f.xval.setWidth 32, n))

/-- A pending floor fault of a strand with the handler that issued the pass: held, put off, or pending still (10 R266,
R267). -/
def Slot.floorOwed (x : Slot) : Option (BitVec 32 × Nat) :=
  (x.lp.held.bind HeldFault.floor) <|> (x.bound.late.bind HeldFault.floor) <|> x.floorPend

/-- The registers that a rollback restores from the target's checkpoint, and the process outside a handler (13 R327). -/
def Slot.restore (x : Slot) (c : Ckpt) : Slot :=
  { x with
    pc := c.pc, g := c.g, fxf := c.fxf, lc := c.lc, loops := c.loops, fmt := c.fmt, scl := c.scl, vw := c.vw, vlr := c.vlr,
    vwin := c.vwin, vxf := c.vxf, floor := c.floor, emulate := c.emulate, park := none, landed := true, skips := 0,
    sbHint := false
    floorPend := (x.floorOwed).filter (fun e => decide (e.2 < c.hno))
    bound := { x.bound with step := false, late := none }
    lp := { x.lp with lvt := c.lvt, lpseq := c.lpseq, inc := x.lp.inc + 1, inh := false, hno := c.hno - 1, held := none,
                      exitp := false } }

/-- Every engine command of the strand has ended, and no access of it is under way elsewhere (13 R327). -/
def Slot.quiet (x : Slot) : Bool :=
  decide (x.passOut = 0) && decide (x.xmmOut = 0) && decide (x.cpOut = 0) && x.acks.isEmpty &&
    (match x.park with | some (.remote _) => false | _ => true)

/-- An LP of a PID is ready for its due rollback. -/
def State.rollbackReady (s : State) (pid : BitVec 12) (lp : Nat) : Bool :=
  let p := (s.job pid).lp lp
  match s.strandOf p.strand with
  | some x => p.due.isSome && x.quiet && !x.status.trap && !s.remote.any (fun r => r.strand = p.strand)
  | none => false

/-- An anti-message and its twin, unprocessed now, are removed from a queue together (13 R329). -/
def Job.settleAntis (j : Job) (lp : Nat) : Job :=
  let p := j.lp lp
  let gone := p.queue.filter (fun q => !q.processed && p.antis.any (fun a => a.twin q.msg))
  (j.modLp lp (fun p =>
    { p with queue := p.queue.filter (fun q => !gone.any (fun k => k.line = q.line)),
             antis := p.antis.filter (fun a => !gone.any (fun k => k.msg.twin a)) })).freeLines (gone.map (fun q => q.line))

/-- What a rollback stops first, where the process is in slot `n`: its accesses are performed and its tile's cache goes home
(13 R327). -/
def State.rollbackStop (s : State) (sid : Nat) : State :=
  match s.findSlot sid with
  | some n => (((s.orderingDone n).performAll n).drainWc (n / 16) sid).coreInvalidate (n / 16) 0
  | none => s

/-- The record of a written-back process after its rollback: RUNNABLE, in placement once (13 R327). -/
def State.rollbackEnter (s : State) (x : Slot) : State :=
  if (s.findSlot x.sid).isSome then s
  else
    let s1 := s.awayFrame x.sid 3
    if s1.items.any (fun i => strandId i.record.pid i.record.frame = x.sid) then s1
    else
      let r := unitRouter x.lp.lpid
      match alGet s1.away x.sid with
      | some y => s1.enterItem y.record y.pc r.1 r.2 1 y.rmax
      | none => s1

/-- The rollback sequencer performs the due rollback of an LP (13 R327). -/
def execRollback (pid : BitVec 12) (lp : BitVec 32) (s : State) : Result :=
  let id := lp.toNat
  let p := (s.job pid).lp id
  if !s.rollbackReady pid id then .next s
  else
    match p.due, s.strandOf p.strand with
    | some (v, d, q, c), some x0 =>
      let s1 := ((s.rollbackStop p.strand).leaveWaits p.strand).dropReservation p.strand
      let x := (s1.strandOf p.strand).getD x0
      let u := undoSplit (msgKey v d q c) p.log
      (match targetOf u.1 with
       | none => .next (s1.modLp pid id (fun p => { p with due := none }))
       | some t =>
         let s2 := u.1.foldl (fun (k : State) e => k.undoEntry x t.lvt e) s1
         let s3 := s2.modLp pid id (fun p => { p with log := u.2, due := none, state := if p.state = .exitp then .live else p.state })
         let s4 := s3.modStrand p.strand (fun y => y.restore t)
         let s5 := if x.lp.held.isSome then s4.note 0x0B pid (lp.setWidth 64) t.lvt else s4
         .next ((s5.modJob pid (fun j => j.settleAntis id)).rollbackEnter x))
    | _, _ => .next s

/-! ## The vanishing point (13 R331 to R333) -/

/-- The least of a list of virtual times, all ones without one. -/
def minTimes (l : List Nat) : Nat := l.foldl Nat.min (2 ^ 64 - 1)

/-- The terms of one LP in the local minimum; with `held` false the LVT of a process that holds a held fault is left out
(13 R331, R339). A rollback that is due counts with its trigger's time, which no rollback of the job may fall below (13 R329,
R330). -/
def State.lpTerms (s : State) (p : Lp) (held : Bool) : List Nat :=
  let top := p.newest
  let msgs := p.queue.filter (fun q => !q.processed && !(decide (p.state = .exitp) && decide (top < q.msg.key)))
  let own := match s.strandOf p.strand with
    | some x =>
      if !x.record.opt then []
      else if x.lp.held.isSome then (if held then [x.lp.lvt.toNat] else [])
      else if x.lp.inh then [x.lp.lvt.toNat] else []
    | none => []
  let due := match p.due with | some (v, _) => [v.toNat] | none => []
  msgs.map (fun q => q.msg.vrt.toNat) ++ own ++ due

/-- The local minimum of a job with the lowest time stamped in the new colour (13 R332). -/
def State.localMin (s : State) (pid : BitVec 12) (held : Bool) : Nat :=
  let j := s.job pid
  Nat.min (minTimes (j.lps.flatMap (fun e => s.lpTerms e.2 held)))
    (match j.mred with | some m => m.toNat | none => 2 ^ 64 - 1)

/-- The log that fossil collection keeps, newest first; `cur` while still in the entries of the handler that runs
(13 R335). -/
def keepLog (g : Nat) (cur : Bool) : List LogEntry → List LogEntry → List LogEntry
  | _, [] => []
  | acc, .ckpt c :: r =>
    if c.vrt.toNat < g && !cur then [] else acc ++ [.ckpt c] ++ keepLog g false [] r
  | acc, e :: r => keepLog g cur (acc ++ [e]) r

/-- Fossil collection of one LP (13 R335). -/
def State.fossil (s : State) (pid : BitVec 12) (g : Nat) (id : Nat) : State :=
  let p := (s.job pid).lp id
  let inh := match s.strandOf p.strand with | some x => x.record.opt && x.lp.inh | none => false
  let old := p.queue.filter (fun q => q.processed && decide (q.msg.vrt.toNat < g))
  s.modJob pid (fun j =>
    (j.modLp id (fun p =>
      { p with log := keepLog g inh [] p.log
               queue := p.queue.filter (fun q => !(q.processed && decide (q.msg.vrt.toNat < g)))
               antis := p.antis.filter (fun a => !decide (a.vrt.toNat < g)) })).freeLines (old.map (fun q => q.line)))

/-- An exit commits once VPT is above the LVT: the strand is counted, its record says EXITED, and its queue goes to the
dead letters (13 R340). -/
def State.commitExit (s : State) (pid : BitVec 12) (id : Nat) : State :=
  let p := (s.job pid).lp id
  match alGet s.away p.strand with
  | none => s
  | some x =>
    if p.state ≠ .exitp || p.due.isSome || (s.job pid).vpt.toNat ≤ x.lp.lvt.toNat then s
    else
      let s1 := (s.countEnd 0 x.record).endRecord 0 x 4
      let s2 := (s1.modJob pid (fun j =>
        (j.modLp id (fun p => { p with state := .exited, queue := [], antis := [], log := [] })).freeLines
          (p.queue.map (fun q => q.line))))
      let left := (p.queue.filter (fun q => !q.processed)).map (fun q => q.msg)
      let s3 : State := { s2 with away := alDel s2.away p.strand }
      (left ++ p.antis).foldl (fun (c : State) m => c.deadLetter m) s3

/-- A held fault of a strand is delivered: taken as a trap at once in a slot, at its pick-up out of one (13 R339), with LATE
set (15 R382). -/
def State.deliverHeld (s : State) (sid : Nat) : State :=
  match s.strandOf sid with
  | none => s
  | some x =>
    match x.lp.held with
    | none => s
    | some f =>
      match s.findSlot sid with
      | some n =>
        if s.trapWaits n then s.sendBuffers n
        else (s.modSlot n (fun y => { y with park := none, lp := { y.lp with held := none } })).takeTrap n f.cause f.xpc f.xval true
      | none =>
        (s.modStrand sid (fun y =>
          { y with lp := { y.lp with held := none }, bound := { y.bound with late := some { f with late := true, final := true } } })).unpark
          sid (unitRouter x.lp.lpid)

/-- Deliver the held faults whose LVT every other term of a round is above; `low` is the least of those (13 R339). -/
def State.deliverFaults (s : State) (pid : BitVec 12) (low : Nat) : State :=
  (s.job pid).lps.foldl (fun (c : State) e =>
    match c.strandOf e.2.strand with
    | some x => if x.lp.held.isSome && decide (x.lp.lvt.toNat < low) then c.deliverHeld e.2.strand else c
    | none => c) s

/-- A strand that waits for log room goes on once its entries fit; with VPT at its LVT and the room still missing LOGFULL is
raised (13 R325, R335). -/
def State.logRetry (s : State) (sid : Nat) : State :=
  match s.strandOf sid with
  | none => s
  | some x =>
    match x.park with
    | some (.logRoom n) =>
      if logUse ((s.job x.pid).lp x.lp.lpid.toNat).log + n ≤ s.logSize x.pid then s.unpark sid (unitRouter x.lp.lpid)
      else if (s.job x.pid).vpt = x.lp.lvt then s.wakeFault sid (unitRouter x.lp.lpid) .logfull 0
      else s
    | _ => s

/-- VPT has been computed: fossils, exits, waits for room, throttled receives, dead letters (13 R321, R335, R340, R341). -/
def State.afterVpt (s : State) (pid : BitVec 12) : State :=
  let ids := (s.job pid).lps.map (fun e => e.1)
  let g := (s.job pid).vpt.toNat
  let s1 := ids.foldl (fun (c : State) i => c.fossil pid g i) s
  let s2 := ids.foldl (fun (c : State) i => c.commitExit pid i) s1
  let s3 := ids.foldl (fun (c : State) i => c.logRetry ((c.job pid).lp i).strand) s2
  let s4 := ids.foldl (fun (c : State) i => c.tryRecv ((c.job pid).lp i).strand) s3
  s4.finalDead pid

/-- VPT takes a computed value; it never decreases (13 R331). `low` is the least term of the round other than the LVTs of
held faults. -/
def State.publish (s : State) (pid : BitVec 12) (g low : Nat) : State :=
  let s1 := s.modJob pid (fun j => if j.vpt.toNat < g then { j with vpt := BitVec.ofNat 64 g } else j)
  (s1.afterVpt pid).deliverFaults pid low

/-- Messages of a colour sent and not received. -/
def colourLeft (a b : Vector Nat 2) (c : Bool) : Int := ((a[b2n c]?.getD 0 : Nat) : Int) - ((b[b2n c]?.getD 0 : Nat) : Int)

/-- A device round (13 R332): the colour flips; once the old colour balances the local minimum is taken, and published for
a job on one device. -/
def execVpRound (pid : BitVec 12) (s : State) : Result :=
  let j0 := s.job pid
  if j0.vjb.isNone then .next s
  else
    let j : Job := if j0.round then j0 else { j0 with round := true, colour := !j0.colour, mred := none }
    let s1 := s.setJob pid j
    if colourLeft j.sent j.recvd (!j.colour) ≠ 0 then .next s1
    else
      let g := s1.localMin pid true
      let low := s1.localMin pid false
      let s2 := s1.setJob pid
        { j with gmin := BitVec.ofNat 64 g, gfree := BitVec.ofNat 64 low, gsum := colourLeft j.fsent j.frecvd (!j.fcolour)
                 fround := if j.fround = 1 then 2 else j.fround }
      let s3 := if addr57 (s2.vjbWord pid 12) = 0 then s2.publish pid g low else s2
      .next (s3.modJob pid (fun k => { k with round := false, mred := none }))

/-- A round that does not balance is abandoned and begun again with the same colour (13 R332); what was stamped meanwhile
stays in the minimum. -/
def execVpRoundAbandon (pid : BitVec 12) (s : State) : Result :=
  if (s.job pid).round then .next (s.note 0x08 pid 0 0) else .next s

/-! ## The job block (13 R314, R315) -/

/-- A field of a block is out of its limits. A block whose fields marked H the executive has not written as zero is refused
too: the spec only says that it writes them so (13 R314; assumption 98). -/
def vjbBad (w : List Word) : Bool :=
  let hi (k : Nat) : Bool := decide (fld (nthW w k) 63 57 ≠ 0)
  hi 0 || hi 2 || hi 4 || hi 7 || hi 9 || hi 12 || decide (fld (nthW w 0) 56 0 % 64 ≠ 0) ||
  decide (fld (nthW w 1) 63 31 ≠ 0) || decide (fld (nthW w 1) 30 0 = 0) || decide (fld (nthW w 2) 56 0 % 256 ≠ 0) ||
  decide (fld (nthW w 3) 63 32 ≠ 0) || decide (fld (nthW w 3) 31 0 < 1024) || decide (fld (nthW w 4) 56 0 % 4096 ≠ 0) ||
  decide (fld (nthW w 5) 63 33 ≠ 0) || decide (fld (nthW w 5) 31 0 = 0) || decide (fld (nthW w 5) 31 0 % 4096 ≠ 0) ||
  decide (fld (nthW w 7) 56 0 % 256 ≠ 0) || decide (fld (nthW w 8) 31 0 = 0) || decide (fld (nthW w 9) 56 0 % 8 ≠ 0) ||
  decide (nthW w 10 ≠ 0) || decide (nthW w 11 ≠ 0) || decide (fld (nthW w 8) 63 32 ≠ 0) || decide (nthW w 13 ≠ 0) ||
  decide (nthW w 14 ≠ 0) || decide (nthW w 15 ≠ 0)

/-- Every one of some pages of 64 KiB translates; with `user` set each is readable at user level and non-cacheable. -/
def State.pagesOk (s : State) (pid : BitVec 12) (user : Bool) (page : Nat) : Nat → Bool
  | 0 => true
  | n + 1 =>
    (match (s.translate 0 pid (!user) (BitVec.ofNat 64 (page * 2 ^ 16)) .read).1 with
     | .ok x => !(user && x.cached)
     | .error _ => false) &&
      s.pagesOk pid user (page + 1) n

/-- Every page of a region translates; an empty one has none. -/
def State.regionOk (s : State) (pid : BitVec 12) (user : Bool) (base n : Nat) : Bool :=
  decide (n = 0) || s.pagesOk pid user (base / 2 ^ 16) ((base + n - 1) / 2 ^ 16 + 1 - base / 2 ^ 16)

/-- The regions of a block; the pool's pages are those that users read (13 R314). -/
def State.vjbRegions (s : State) (pid : BitVec 12) (w : List Word) : Bool :=
  let lpmax := fld (nthW w 1) 30 0
  s.regionOk pid false (va57 (nthW w 0)) (64 * lpmax) && s.regionOk pid true (va57 (nthW w 2)) (256 * fld (nthW w 3) 31 0) &&
    s.regionOk pid false (va57 (nthW w 4)) (lpmax * fld (nthW w 5) 31 0) &&
    s.regionOk pid false (va57 (nthW w 7)) (256 * fld (nthW w 8) 31 0) &&
    (decide (va57 (nthW w 12) = 0) || s.regionOk pid false (va57 (nthW w 12)) (2 * ((lpmax - 1) / 2 ^ 20 + 1)))

/-- Bytes of the device map of a block (13 R316). -/
def mapBytes (w1 : Word) : Nat := 2 * ((fld w1 30 0 - 1) / 2 ^ 20 + 1)

/-- Read a device map in pieces, asking for what another device holds: its bytes as far as they are known, and whether some
piece cannot be read (14 R349). -/
def State.mapRead (s : State) (pid : BitVec 12) (a : Word) (n : Nat) : Nat → (Bool × List Byte) × State
  | 0 => ((false, []), s)
  | fuel + 1 =>
    if n = 0 then ((false, []), s)
    else
      let k := Nat.min n (piece a)
      match s.engineRead (mapId pid) 0 pid true a k with
      | (.error _, s1) => ((true, []), s1)
      | (.ok got, s1) =>
        let ((bad, r), s2) := s1.mapRead pid (a + BitVec.ofNat 64 k) (n - k) fuel
        ((bad, (got.getD []) ++ r), s2)

/-- The device map of a registered block, of which another device holds some piece, is kept once every answer has come; a
piece that cannot be read makes the registration fail (13 R315, R316; 14 R349; assumption 99). -/
def State.mapLand (s : State) (pid : BitVec 12) : State :=
  let d := addr57 (s.vjbWord pid 12)
  if d = 0 || s.engineAwaits (mapId pid) then s
  else
    let ((bad, bs), s1) := s.mapRead pid d (mapBytes (s.vjbWord pid 1)) 100
    if s1.engineAwaits (mapId pid) then s1
    else
      let s2 := s1.engineForget (mapId pid)
      if bad then (s2.modJob pid (fun j => { j with vjb := none })).note 0x07 pid (((s.job pid).vjb).getD 0) 0
      else if s1.remote.any (fun r => r.strand = mapId pid) then s2.modJob pid (fun j => { j with dmapFar := bs })
      else s2

/-- Register a block for a PID (13 R315): what was held for an earlier block is forgotten. -/
def State.vjbRegister (s : State) (pid : BitVec 12) (va : Word) : State :=
  let refuse := s.note 0x07 pid va 0
  match s.blockCheck 0 pid true va true with
  | .error _ => refuse
  | .ok inHbm =>
    let w := match (s.vaGet 0 pid true va 128).1 with | .ok bs => bytesWords bs 16 | .error _ => []
    let others := s.jobs.filter (fun e => e.2.vjb.isSome && decide (e.1 ≠ pid.toNat))
    if !inHbm || w.isEmpty || vjbBad w || !s.vjbRegions pid w || 64 ≤ others.length then refuse
    else
      State.mapLand ((s.remoteEnd (fun r => r.strand = mapId pid)).modJob pid (fun j =>
        { j with vjb := some va, dmapFar := [], vpt := 0, colour := false, sent := Vector.replicate 2 0, recvd := Vector.replicate 2 0,
                 fsent := Vector.replicate 2 0, frecvd := Vector.replicate 2 0, fcolour := false, fround := 0, fmred := none,
                 mred := none, round := false, gmin := 0, gfree := 0, gsum := 0, deadEvt := false, lps := [], varnish := [], lines := [], dead := [], deadPut := 0,
                 fullAt := none, fullEvt := false })) pid

/-- A write of VJBSET (13 R315). -/
def State.vjbset (s : State) (v : Word) : State :=
  let pid := BitVec.ofNat 12 (fld v 63 52)
  let va := BitVec.ofNat 64 (128 * fld v 51 2)
  if va = 0 then s.modJob pid (fun j => { j with vjb := none }) else s.vjbRegister pid va

/-- A write of VJBSET (13 R315). -/
def execVjbsetWrite (v : BitVec 64) (s : State) : Result := .next (s.vjbset v)

end Sys2Proof.Machine
end

