-- ==== Sys2Proof/Machine/Strand.lean ====
section
/-!
DEFINITION. Strands and scheduling (12 R283 to R312): `spawn`, `exit`, `gdep`, `gcnt`, cancels, `prmt`, placement, pick-up,
park eviction, pre-emption and their traps.
-/

namespace Sys2Proof.Machine

/-! ## `spawn`, `gdep`, `gcnt` (12 R289 to R292) -/

/-- An instruction that a logical process may make only through VARN: OPTST takes its place among the faults of 02 R36
(12 R289, R312). -/
def State.irrevocable (s : State) (k : Result) : Result := if s.hart.record.opt then s.raise .optst 0 else s.issue Need.access k

/-- The strand of slot `n` as a launcher. -/
def State.launcher (s : State) (n : Nat) : Launcher :=
  let x := s.slotAt n
  { pid := x.pid, exec := x.status.exec, prio := x.record.prio, router := coreRouter (n / 16), quad := slotQuad n }

/-- `spawn` (12 R290): its template is read by a plain load, which another device may answer (14 R349, R354). -/
def execSpawn (a : BitVec 5) (h : BitVec 2) (s : State) : Result :=
  let ga := s.hart.getG a
  s.irrevocable
    (match s.globalCheck ga 64 .read with
     | (.error c, s1) => s1.raise c ga
     | (.ok x, s0) =>
       s0.remoteGate h x ga 64 false
         (let s1 := (s0.beforeAccess true).releaseActions s0.hid 4
          match s1.region x.pa with
          | .remote dev off => (s1.sendRemote dev off 64 ga .load [] .spawn (wholeReply 64 0) false []).awaitRemote h false
          | _ =>
            let (bs, s2) := s1.loadNow x x.pa 64
            match s2.spawnWords (s2.launcher s2.hid) ga (bytesWords bs 8) false with
            | .error (c, v) => s2.raise c v
            | .ok s3 => s3.done h id))

/-- The template of a `spawn` has come from another device: the launch goes on, or the fault is taken (12 R290). -/
def State.spawnAnswer (s : State) (sid : Nat) (tmpl : Word) (bs : List Byte) : State :=
  match s.findSlot sid with
  | none => s
  | some n =>
    match s.spawnWords (s.launcher n) tmpl (bytesWords bs 8) false with
    | .error (c, v) => s.wakeFault sid (0, 0) c v
    | .ok s1 => s1.wake sid (0, 0) id

/-- `gdep` (12 R291). -/
def execGdep (a b : BitVec 5) (h : BitVec 2) (s : State) : Result :=
  let ga := s.hart.getG a
  let gb := s.hart.getG b
  s.irrevocable
    (let s1 := s.beforeAccess true
     match s1.gdepFor (slotQuad s1.hid) s1.hart.pid s1.hart.status.exec ga gb with
     | .error (c, v) => s1.raise c v
     | .ok s2 => s2.done h id)

/-- The counter that `gcnt` reads of a block: STATE and what is left (12 R292). -/
def blockCount (b : List Word) : Word :=
  if blockKind b = 0 then packFields [(blockState b, 60), (groupN b - fld (nthW b 1) 23 0, 0)]
  else packFields [(blockState b, 60), (fld (nthW b 0) 31 0, 0)]

/-- `gcnt` (12 R292, R312). -/
def execGcnt (d a : BitVec 5) (h : BitVec 2) (s : State) : Result :=
  let ga := s.hart.getG a
  s.issue Need.access
    (let s1 := s.beforeAccess false
     if ga = 0 then s1.doneG h d (BitVec.ofNat 64 (s1.job s1.hart.pid).count)
     else
       match s1.blockCheck (slotQuad s1.hid) s1.hart.pid s1.hart.status.exec ga false with
       | .error (c, v) => s1.raise c v
       | .ok inHbm =>
         let s1 := s1.probe (slotQuad s1.hid) s1.hart.pid ga 64
         let b := s1.blockWordsAt (slotQuad s1.hid) s1.hart.pid ga
         if !inHbm || (gcbBad b && graphBad b) then s1.raise .gcbbad ga else s1.doneG h d (blockCount b))

/-! ## `exit` (12 R293; 13 R340) -/

/-- The strand of slot `n`, which has not ended yet, is counted, unless a cancel has counted it (12 R293, R304). -/
def State.countOnce (s : State) (n : Nat) : State :=
  let x := s.slotAt n
  if x.counted then s else s.countEnd (slotQuad n) x.record

/-- A strand outside virtual time ends: it leaves its slot, its reservation is revoked, `rel.d`, the counts, its record
(12 R293). -/
def State.endStrand (s : State) : State :=
  let n := s.hid
  let s1 := (s.leaveActions n).dropReservation s.hart.sid
  let s2 := s1.countOnce n
  let x := s2.slotAt n
  (s2.endRecord (slotQuad n) x (if x.counted then 5 else 4)).vacate n

/-- A logical process enters EXITP: it leaves its slot as in write-back and keeps its queue; the exit commits at once where
VPT is above its LVT (13 R340). -/
def State.exitProcess (s : State) : State :=
  let x := s.hart
  let id := x.lp.lpid.toNat
  let s1 := s.modLp x.pid id (fun p => { p with state := .exitp })
  let s2 := (s1.modHart (fun y => { y with lp := { y.lp with exitp := true }, landed := true })).writeBackStrand s.hid 2
  s2.commitExit x.pid id

/-- `exit` (12 R293; 13 R340). -/
def execExit (_h : BitVec 2) (s : State) : Result :=
  s.issue Need.any
    (if !s.hart.record.opt then s.floorThen (.next s.endStrand)
     else
       let s1 := if s.hart.lp.inh then s.endHandler else s
       match s1.hart.floorPend with
       | some (tk, hn) =>
         let f : HeldFault :=
           { cause := Cause.ebcflr.code, xpc := s1.hart.pc, xval := tk.setWidth 64, late := true, final := false, hno := some hn }
         .next ((s1.modHart (fun x => { x with floorPend := none, lp := { x.lp with held := some f } })).parkAt 0 .held)
       | none => if s1.hart.counted then .next s1.endStrand else .next s1.exitProcess)

/-! ## Cancels (12 R303, R304) -/

/-- A cancel is under way for the job of a PID. -/
def State.jobCancelled (s : State) (pid : BitVec 12) : Bool := s.cancels.any (fun c => c.level = 2 && c.pid = pid)

/-- Cancel a group (level 0) or a graph (level 1) at an address for a PID: the block is checked, its STATE written and the
rest posted. -/
def State.cancelBlock (s : State) (q : Nat) (pid : BitVec 12) (exec : Bool) (level : BitVec 2) (a : Word) :
    Except Failure State :=
  match s.blockCheck q pid exec a true with
  | .error e => .error e
  | .ok inHbm =>
    let s := (s.probe q pid a 64).freshGroup pid a
    let b := s.blockWordsAt q pid a
    if !inHbm || (if level = 0 then gcbBad b else graphBad b) then .error (.gcbbad, a)
    else if 3 ≤ blockState b then .ok s
    else
      let s1 := s.setBlockStateAt q pid a 4
      .ok { s1 with cancels := s1.cancels ++ [{ level := level, pid := pid, addr := a, prior := blockState b, swept := false }] }

/-- Cancel the job of a PID. -/
def State.cancelJob (s : State) (pid : BitVec 12) : State :=
  if s.jobCancelled pid then s
  else { s with cancels := s.cancels ++ [{ level := 2, pid := pid, addr := 0, prior := 2, swept := false }] }

/-- `cancel.g` and `cancel.gr` (12 R303). -/
def State.cancelInstr (s : State) (level : BitVec 2) (a : BitVec 5) (h : BitVec 2) : Result :=
  let ga := s.hart.getG a
  s.irrevocable
    (let s1 := s.beforeAccess true
     match s1.cancelBlock (slotQuad s1.hid) s1.hart.pid s1.hart.status.exec level ga with
     | .error (c, v) => s1.raise c v
     | .ok s2 => s2.done h id)

/-- `cancel.g` (12 R303). -/
def execCancelG (a : BitVec 5) (h : BitVec 2) (s : State) : Result := s.cancelInstr 0 a h
/-- `cancel.gr` (12 R303). -/
def execCancelGr (a : BitVec 5) (h : BitVec 2) (s : State) : Result := s.cancelInstr 1 a h

/-- `cancel.j` (12 R303): 0 names the own job at user level, ga[11:0] a PID at executive level. -/
def execCancelJ (a : BitVec 5) (h : BitVec 2) (s : State) : Result :=
  let ga := s.hart.getG a
  s.irrevocable
    (if (if s.hart.status.exec then decide (fld ga 63 12 ≠ 0) else decide (ga ≠ 0)) then s.raise .scharg 0
     else
       let s1 := s.beforeAccess true
       (s1.cancelJob (if s1.hart.status.exec then ga.setWidth 12 else s1.hart.pid)).done h id)

/-- The requester number under which a cancel's sweep reads successor lists of other devices. -/
def sweepId : Nat := noStrand + 30000

/-- Addresses of the entries of a group's successor list. -/
def State.listPlaces (s : State) (pid : BitVec 12) (gcb : Word) : List Word :=
  let b := s.blockWords pid gcb
  (List.range (fld (nthW b 6) 47 32)).map (fun k => addr57 (nthW b 5) + BitVec.ofNat 64 (8 * k))

/-- The successors that a group's list holds; an entry that cannot be read, or that another device has not sent, names none. -/
def State.successors (s : State) (pid : BitVec 12) (gcb : Word) : List Word :=
  (s.listPlaces pid gcb).filterMap (fun a =>
    match (s.engineRead sweepId 0 pid true a 8).1 with
    | .ok (some bs) => some (addr57 (BitVec.ofNat 64 (leNat bs)))
    | _ => none)

/-- Entries of the successor lists of some groups that another device has still to send. -/
def State.farPlaces (s : State) (pid : BitVec 12) (l : List Word) : List Word :=
  (l.flatMap (s.listPlaces pid)).filter (fun a => decide ((s.engineRead sweepId 0 pid true a 8).1 = .ok none))

/-- Close a list of groups under successors. -/
def State.closeGroups (s : State) (pid : BitVec 12) (l : List Word) : Nat → List Word
  | 0 => l
  | n + 1 =>
    let new := (l.flatMap (s.successors pid)).foldl (fun acc g => if l.contains g || acc.contains g then acc else acc ++ [g]) []
    if new.isEmpty then l else s.closeGroups pid (l ++ new) n

/-- The groups of a cancel's level that the device knows (12 R304). -/
def State.cancelGroups (s : State) (c : CancelReq) : List Word :=
  if c.level = 0 then [c.addr]
  else
    let named (k : Known) : Bool :=
      k.pid = c.pid && k.spawned && !s.staleGroup k.pid k.gcb &&
        (if c.level = 1 then decide (s.graphOf c.pid k.gcb = c.addr) else !k.done)
    s.closeGroups c.pid ((s.known.filter named).map (fun k => k.gcb)) (s.known.length + 1)

/-- A cancel reaches a strand of this record. -/
def cancelHas (c : CancelReq) (groups : List Word) (r : Rec) : Bool :=
  r.pid = c.pid && (c.level = 2 || (decide (r.gcb ≠ 0) && groups.contains r.gcb))

/-- What a pick-up has asked other devices for an item is not wanted any more. -/
def State.pickOver (s : State) (i : Item) : State :=
  match i.taken with
  | some (core, slot) => s.remoteEnd (fun r => decide (r.strand = pickId (16 * core + slot)))
  | none => s

/-- A strand that is not in a slot is discarded: its entries removed, counted, its record CANCELLED (12 R304). -/
def State.discardStrand (s : State) (x : Slot) : State :=
  let sid := x.sid
  let s1 := (s.leaveWaits sid).dropReservation sid
  let mine (i : Item) : Bool := decide (strandId i.record.pid i.record.frame = sid)
  let s2 : State := { s1 with away := alDel s1.away sid, items := s1.items.filter (fun i => !mine i) }
  let s2 := (s1.items.filter mine).foldl (fun (k : State) i => (k.leaveOverflow i).pickOver i) s2
  let s3 := if x.counted then s2 else s2.countEnd 0 x.record
  s3.endRecord 0 x 5

/-- The strands out of a slot that a test selects: in placement for the first time, and written back. -/
def State.outside (s : State) (sel : Rec → Bool) : List Slot :=
  (s.items.filter (fun i => i.record.new && sel i.record)).map (fun i =>
    { Slot.vacant with pc := i.pc, record := i.record }) ++
  (s.away.filter (fun e => sel e.2.record)).map (fun e => e.2)

/-- Resident strands that a test selects take CANCEL at their next safe point, and strands whose migration fails after they
come back (12 R304; 14 R355). -/
def State.cancelResident (s : State) (sel : Rec → Bool) : State :=
  let due (x : Slot) : Slot := { x with bound := { x.bound with cancel := true, cancelAt := s.ticks } }
  let s1 : State :=
    { s with migOut := s.migOut.map (fun m => if sel m.slot.record && !m.slot.counted then { m with slot := due m.slot } else m) }
  (s.occSlots.filter (fun e => sel e.2.record && !e.2.counted && !e.2.bound.cancel)).foldl (fun (c : State) e =>
    c.modSlot e.1 due) s1

/-- The record of a strand that issued a command, wherever the strand is; of one that has ended only PID and GCB, read from
the record in its frame. -/
def State.commander (s : State) (sid : Nat) : Rec :=
  match s.strandOf sid with
  | some x => x.record
  | none =>
    match s.items.find? (fun i => strandId i.record.pid i.record.frame = sid) with
    | some i => i.record
    | none =>
      let pid := BitVec.ofNat 12 (sid / 2 ^ 57)
      { Rec.zero with pid := pid, gcb := addr57 ((s.vaWord pid (BitVec.ofNat 64 (sid % 2 ^ 57) + 48)).getD 0) }

/-- Engine commands whose issuer a test selects end with CANCEL (12 R304; 04 R108; 09 R219; 10 R257; 11 R277; 14 R371). -/
def State.cancelCommands (s : State) (sel : Rec → Bool) : State :=
  let by_ (sid : Nat) : Bool := sel (s.commander sid)
  let opt (c : OptCmd) : OptCmd :=
    if c.kind ≠ .clr && (if c.varn then sel { Rec.zero with pid := c.pid } else by_ c.strand) then { c with cancel := true } else c
  let tile (t : Tile) : Tile :=
    { t with
      copies := t.copies.map (fun c => if by_ c.strand then { c with cancel := true } else c)
      xmms := t.xmms.map (fun c => if by_ c.strand then { c with cancel := true } else c)
      opt := { t.opt with queue := t.opt.queue.map opt, runs := t.opt.runs.map (fun r => { r with cmd := opt r.cmd }) } }
  { s with tiles := s.tiles.map (fun e => (e.1, tile e.2))
           colls := s.colls.map (fun e => (e.1, if by_ e.2.strand then { e.2 with cancel := true } else e.2))
           collQ := s.collQ.map (fun c => if by_ c.strand then { c with cancel := true } else c) }

/-- Mark the groups of a level other than the named one CANCELLED and without a signal of their own; the answer lists those
that were IDLE or WAITING. -/
def State.markGroups (s : State) (pid : BitVec 12) (named : Option Word) : List Word → List Word × State
  | [] => ([], s)
  | g :: r =>
    if some g = named then s.markGroups pid named r
    else
      let st := blockState (s.blockWords pid g)
      if 3 ≤ st then s.markGroups pid named r
      else
        let s1 := (s.setBlockState pid g 4).knowGroup pid g (fun k => { k with quiet := true })
        let (l, s2) := s1.markGroups pid named r
        (if st < 2 then g :: l else l, s2)

/-- A cancel goes on to the devices to which strands of its PID have migrated and that do not have it yet (14 R355; assumption 93). -/
def State.passCancel (s : State) (c : CancelReq) : State :=
  ((s.job c.pid).farDevs.filter (fun d => !c.via.contains d)).foldl (fun (k : State) d => k.inject d 64) s

/-- The sweep of a cancel over the device (12 R304). -/
def State.sweepCancel (s : State) (c : CancelReq) : State :=
  let groups := s.cancelGroups c
  let sel := cancelHas c groups
  let (idle, s1) := s.markGroups c.pid (if c.level = 0 then some c.addr else none) groups
  let first := if c.level = 0 && c.prior < 2 then [c.addr] else []
  let s2 := s1.cancelCommands sel
  let s3 := (s2.outside sel).foldl (fun (k : State) x => k.discardStrand x) s2
  let s4 := (s3.cancelResident sel).passCancel c
  (first ++ idle).foldl (fun (k : State) g => k.completeGroup c.pid g) s4

/-- The job's cancel has come to its end: none of its strands is left to trap, and no launch of it is pending. -/
def State.jobSwept (s : State) (pid : BitVec 12) : Bool :=
  !s.occSlots.any (fun e => decide (e.2.pid = pid) && e.2.bound.cancel) && !s.deferred.any (fun e => decide (e.1 = pid))

/-- A cancel of another device of the job reaches the strands here of its level: of a group by its address, of a job by its
PID, and goes on to the devices to which strands have migrated from here (14 R355; assumption 93). -/
def State.sweepFar (s : State) (c : CancelReq) : State :=
  let sel := cancelHas c [c.addr]
  let s1 := s.cancelCommands sel
  (((s1.outside sel).foldl (fun (k : State) x => k.discardStrand x) s1).cancelResident sel).passCancel c

/-- Cancels of other devices of a job enter the device, to be swept (14 R355; assumption 93). -/
def State.cancelsIn (s : State) (l : List (BitVec 2 × BitVec 12 × Word × List Nat)) : State :=
  { s with farCancels := s.farCancels ++ l.map (fun c =>
      { level := c.1, pid := c.2.1, addr := c.2.2.1, prior := 2, swept := true, via := c.2.2.2 }) }

/-- A sweep first asks other devices for the successor lists that it follows; it waits while they have not answered (14 R349). -/
def State.sweepAsks (s : State) (c : CancelReq) : Option State :=
  if s.engineAwaits sweepId then some s
  else if c.level = 0 then none
  else
    match s.farPlaces c.pid (s.cancelGroups c) with
    | [] => none
    | l => some (l.foldl (fun (t : State) a => t.engineAsk sweepId 0 c.pid true a 8) s)

/-- The oldest cancel sweeps; the cancel of a job ends with JOBEND once its resident strands have trapped; then the cancels of
other devices sweep (12 R304; 14 R355). -/
def execCancelSweep (s : State) : Result :=
  match s.cancels.find? (fun c => !c.swept) with
  | some c =>
    match s.sweepAsks c with
    | some t => .next t
    | none =>
    let s1 := (s.sweepCancel c).engineForget sweepId
    let rest := s1.cancels.erase c
    if c.level = 2 then .next { s1 with cancels := rest ++ [{ c with swept := true }] }
    else .next { s1 with cancels := rest }
  | none =>
    match s.cancels.find? (fun c => s.jobSwept c.pid) with
    | some c => .next (({ s with cancels := s.cancels.erase c } : State).execEvent 0 0x0D c.pid.toNat c.pid)
    | none =>
      match s.farCancels with
      | [] => .next s
      | c :: rest => .next (({ s with farCancels := rest } : State).sweepFar c)

/-! ## Safe points (12 R301, R306) -/

/-- A wait in which a strand is never written back: of 12 R301, and those whose reply comes to the slot. -/
def Park.fixed : Park → Bool
  | .bankcfg _ => true
  | .bankHeld _ => true
  | .optQueue _ => true
  | .copyQueue _ => true
  | .xmmQueue _ => true
  | .collQueue _ _ _ _ => true
  | .clkm => true
  | .prmt => true
  | .remote _ => true
  | .again => true
  | .sysreg => true
  | .frozen => true
  | _ => false

/-- The strand of a slot holds a reservation. -/
def State.holdsReservation (s : State) (sid : Nat) : Bool :=
  s.rsvqs.any (fun q => q.granted && decide (q.waiters.head? = some sid))

/-- The strand's wait, if any, lets it be written back: no copy command and no reply is outstanding (12 R301). -/
def Slot.movable (x : Slot) : Bool :=
  decide (x.cpOut = 0) && x.acks.isEmpty && (match x.park with | some p => !p.fixed | none => true)

/-- The strand of slot `n` is at a safe point (12 R306). -/
def State.atSafePoint (s : State) (n : Nat) : Bool :=
  let x := s.slotAt n
  x.movable && !s.remoteBusy x.sid && !s.holdsReservation x.sid && !x.okeep && !x.xkeep && !x.inHandler && !s.isFrozen x.pid &&
    (match x.park with | some (.pebc _) => false | _ => true)

/-- A wait from which a cancel releases its strand: any but for the reply to a remote access, which is performed first, and
for the effect of a register write (12 R304; 05 R123). -/
def Park.releasable : Park → Bool
  | .remote _ => false
  | .again => false
  | .sysreg => false
  | .frozen => false
  | _ => true

/-- A cancelled strand in slot `n` traps now: at a safe point, or parked, when it is released from its wait and traps at
once (12 R304); after a STEP that is due, and not while ROUTE.HOLD keeps its record back (04 R92; 15 R384). -/
def State.cancelNow (s : State) (n : Nat) : Bool :=
  let x := s.slotAt n
  !x.stepDue && !(s.core (n / 16)).hold && !s.remoteBusy x.sid &&
    (s.atSafePoint n || ((match x.park with | some p => p.releasable | none => false) && !s.isFrozen x.pid))

/-- CANCEL in slot `n`: the strand's accesses are performed and its entries removed, it is counted, its record says CANCELLED,
and it traps (12 R295, R304). -/
def State.trapCancel (s : State) (n : Nat) : State :=
  let x := s.slotAt n
  let s1 := (((s.leaveActions n).leaveWaits x.sid).dropReservation x.sid).countOnce n
  let s2 := s1.modSlot n (fun y =>
    { y with bound := { y.bound with cancel := false, preempt := false, prmto := false, late := none }
             counted := true, rstate := 5, park := none, lp := { y.lp with held := none } })
  let s3 := (s2.endRecord (slotQuad n) (s2.slotAt n) 5).resolve x.sid
  s3.takeTrap n Cause.cancel.code x.pc 0 false

/-- A cancelled resident strand at a safe point takes CANCEL; while TRAP = 1 it waits (12 R304; 15 R384). -/
def execCancelTrap (slot : Nat) (s : State) : Result :=
  let x := s.slotAt slot
  if x.occ && x.bound.cancel && !x.status.trap && s.cancelNow slot then
    .next (if s.leaveHeld slot then s.sendBuffers slot else s.trapCancel slot)
  else .next s

/-! ## Pre-emption (12 R307, R308) -/

/-- A cancelled strand that has reached no safe point within 40 µs is stopped where it is: its accesses are performed, what
else it holds is dropped, and it is counted (12 R304). -/
def execCancelStopTimeout (slot : Nat) (s : State) : Result :=
  let x := s.slotAt slot
  if !(x.occ && !s.isFrozen x.pid && x.bound.cancel && decide (x.bound.cancelAt + 80000 < s.ticks)) then .next s
  else
    let s1 := (((s.leaveActions slot).leaveWaits x.sid).dropReservation x.sid).countOnce slot
    .next ((s1.endRecord (slotQuad slot) (s1.slotAt slot) 5).vacate slot)

/-- The slots of the cores that a mask names with a strand of priority below P; retired cores are skipped (12 R307). -/
def State.preempted (s : State) (m : Mask) (p : Nat) : List (Nat × Slot) :=
  s.occSlots.filter (fun e =>
    decide (e.1 / 16 < 256) && m.getLsbD (e.1 / 16) && s.plat.coreMap.getLsbD (e.1 / 16) && decide (e.2.record.prio.toNat < p))

/-- RSV of the cores that a mask names. -/
def State.setRsv (s : State) (m : Mask) (p : BitVec 4) : State :=
  ((List.range 256).filter (fun c => m.getLsbD c && s.plat.coreMap.getLsbD c)).foldl (fun (k : State) c =>
    k.modCore c (fun x => { x with rsv := p })) s

/-- `prmt` (12 R307, R312). -/
def execPrmt (a b : BitVec 5) (h : BitVec 2) (s : State) : Result :=
  let ga := s.hart.getG a
  let gb := s.hart.getG b
  let p := fld gb 3 0
  s.issue { Need.access with priv := true }
    (if fld gb 63 5 ≠ 0 then s.raise .scharg 0
     else if ga.toNat % 32 ≠ 0 then s.raise .maln ga
     else if 0x40000 ≤ ga.toNat then s.raise .lsrange ga
     else
       let s1 := s.beforeAccess false
       let m : Mask := BitVec.ofNat 256 (leNat (s1.localRead ga.toNat 32))
       if bitOf gb 4 then (s1.setRsv m 0).done h id
       else
         let s2 := s1.setRsv m (BitVec.ofNat 4 p)
         let l := s2.preempted m p
         if l.isEmpty then s2.done h id
         else
           let s3 := s2.parkAt h .prmt
           let s4 := l.foldl (fun (k : State) e => k.modSlot e.1 (fun x => { x with bound := { x.bound with preempt := true } })) s3
           .next { s4 with preempts := s4.preempts ++
                     [{ issuer := s4.hart.sid, left := l.map (fun e => e.2.sid), since := s4.ticks }] })

/-- A wait whose entry 06 R148 keeps when the strand is written back. -/
def Park.kept : Park → Bool
  | .lde _ _ => true
  | .stf _ _ => true
  | .fifoLd _ _ => true
  | .fifoSt _ _ => true
  | .fifoVld _ _ => true
  | .fifoVst _ _ => true
  | .ownw _ => true
  | .lrw _ _ => true
  | .bar _ _ => true
  | _ => false

/-- A strand driven to a safe point is there (12 R307); a cancel prevails (12 R305). -/
def State.preemptDue (s : State) (n : Nat) : Bool :=
  let x := s.slotAt n
  x.occ && x.bound.preempt && !x.bound.cancel && s.atSafePoint n && !(s.core (n / 16)).hold

/-- A strand driven to a safe point is there and is written back: WAITING with its wait entry kept, or RUNNABLE and in
placement at this core's router, to issue again what it waited in (12 R307); RUNNABLE always, its entry withdrawn, where its
tile has no reservation left for its context (15 R396). -/
def execPreemptWriteback (slot : Nat) (s : State) : Result :=
  let x := s.slotAt slot
  if !s.preemptDue slot then .next s
  else if s.leaveHeld slot then .next (s.sendBuffers slot)
  else
    let sid := x.sid
    let s1 := s.modSlot slot (fun y => { y with bound := { y.bound with preempt := false } })
    let s2 :=
      let full := !s.ftRoom (tileOf (slot / 16)) x.pid
      if !full && (match x.park with | some p => p.kept | none => false) then s1.writeBackStrand slot 2
      else
        let s1 := if full then s1.leaveWaits sid else s1
        let t := (s1.modSlot slot (fun y => { y with park := none })).writeBackStrand slot 3
        let r := coreRouter (slot / 16)
        match alGet t.away sid with
        | some y => t.enterItem y.record y.pc r.1 r.2 1 y.rmax
        | none => t
    .next s2

/-- The parked instruction has not yet taken effect, so that PRMTO abandons it (12 R308). -/
def State.parkAbandoned (s : State) (sid : Nat) (p : Park) : Bool :=
  match p with
  | .bankcfg k =>
    (match (((s.tile (k / 16)).bank (k % 16)).queue).head? with
     | some e => decide (e.1 ≠ sid)
     | none => true)
  | .clkm => false
  | .prmt => false
  | .remote _ => false
  | .sysreg => false
  | _ => true

/-- The strand of slot `n` waits for nothing any more: its parked instruction is abandoned, and PRMTO is due (12 R308). -/
def State.abandonPark (s : State) (n : Nat) : State :=
  let x := s.slotAt n
  let s1 := ((s.leaveWaits x.sid).remoteEnd (fun r => decide (r.strand = targetId n))).modSlot n (fun y =>
    { y with park := none, rsvLine := if s.holdsReservation x.sid then y.rsvLine else none
             bound := { y.bound with preempt := false, prmto := true } })
  if s.holdsReservation x.sid then s1 else s1.dropReservation x.sid

/-- The trap PRMTO in slot `n`: XVAL holds the frame address (12 R308). -/
def State.trapPrmto (s : State) (n : Nat) : State :=
  let x := s.slotAt n
  let s1 := (s.abandonPark n).modSlot n (fun y => { y with bound := { y.bound with prmto := false } })
  s1.takeTrap n Cause.prmto.code x.pc x.record.frame false

/-- PRMTO is taken now, or once the strand's earlier accesses are performed (05 R123; 12 R308). -/
def State.prmtoNow (s : State) (n : Nat) : State :=
  if s.trapWaits n then (s.abandonPark n).sendBuffers n else s.trapPrmto n

/-- The pre-emption bound of a strand has expired (12 R308). -/
def State.prmtoDue (s : State) (sid : Nat) : Bool :=
  s.preempts.any (fun p => p.left.contains sid && decide (p.since + 80000 < s.ticks))

/-- The pre-emption bound expires for the strand of a slot, or what it then still waited for has completed (12 R308). A strand
that is at a safe point is written back instead (12 R306, R307), and a STEP that is due goes first (15 R384). -/
def execPrmto (slot : Nat) (s : State) : Result :=
  let x := s.slotAt slot
  if !x.occ || s.isFrozen x.pid || x.status.trap || x.bound.cancel || x.stepDue then .next s
  else if x.bound.prmto then (if x.park.isNone && x.acks.isEmpty then .next (s.prmtoNow slot) else .next s)
  else if !(x.bound.preempt && s.prmtoDue x.sid) || s.atSafePoint slot then .next s
  else
    let wait :=
      match x.park with
      | some p => !s.parkAbandoned x.sid p
      | none => !x.acks.isEmpty
    if wait then
      .next ((s.modSlot slot (fun y => { y with bound := { y.bound with preempt := false, prmto := true } })).resolve x.sid)
    else .next ((s.prmtoNow slot).resolve x.sid)

/-! ## Park eviction (12 R301) -/

/-- A parked strand has waited longer than the threshold of its tile and may be written back. -/
def State.evictable (s : State) (n : Nat) : Bool :=
  let x := s.slotAt n
  let k := (s.tile (tileOf (n / 16))).pkev.toNat
  x.occ && !s.isFrozen x.pid && x.park.isSome && x.movable && !s.remoteBusy x.sid && !(s.core (n / 16)).hold && decide (k ≠ 0) && decide (x.since + 2000 * k < s.ticks) &&
    decide (n / 16 < 256) && ((s.job x.pid).lp x.lp.lpid.toNat).due.isNone

/-- The bank, or the halves, of the tile behind whose full wait list a strand's entry is chained (06 R148). -/
def State.chainedAt (s : State) (sid : Nat) : Option (Nat × Option Nat) :=
  let has (l : List WaitEntry) : Bool := l.any (fun e => e.chained && decide (e.strand = sid))
  s.tiles.findSome? (fun e =>
    if has (e.2.waitsAt none) then some (e.1, none)
    else ((List.range 16).find? (fun b => has (e.2.waitsAt (some b)))).map (fun b => (e.1, some b)))

/-- Park eviction: written back with STATE = WAITING (12 R301). A strand chained behind a full wait list is written back as
soon as its remote accesses are answered (05 R123; 06 R148). -/
def execParkEvict (slot : Nat) (s : State) : Result :=
  let x := s.slotAt slot
  if s.evictable slot then .next (if s.leaveHeld slot then s.sendBuffers slot else s.writeBackStrand slot 2)
  else if x.occ && !s.isFrozen x.pid then
    match s.chainedAt x.sid with
    | some (t, b) => .next (s.writeBackChained slot t b)
    | none => .next s
  else .next s

/-! ## Placement (12 R296 to R298) -/

/-- Position `k` of the ring of radius `r` around a hint, in circuit order, as signed coordinates. -/
def ringAt (hx hy r k : Nat) : Int × Int :=
  let x : Int := hx
  let y : Int := hy
  let q := k / r
  let j : Int := (k % r : Nat)
  let ri : Int := r
  match q with
  | 0 => (x + j, y - ri + j)
  | 1 => (x + ri - j, y + j)
  | 2 => (x - j, y + ri - j)
  | _ => (x - ri + j, y - j)

/-- A position lies on the grid. -/
def onGrid (p : Int × Int) : Bool := decide (0 ≤ p.1) && decide (p.1 < 16) && decide (0 ≤ p.2) && decide (p.2 < 16)

/-- The first position on the grid from `k` on; positions outside are passed over. -/
def ringFrom (hx hy r k : Nat) : Nat → Nat
  | 0 => k
  | n + 1 => if onGrid (ringAt hx hy r k) then k else ringFrom hx hy r ((k + 1) % (4 * r)) n

/-- Put an item at the first position on the grid of its ring from `k` on; where the whole ring lies off the grid the item
meets no core (12 R296). -/
def Item.atRing (i : Item) (k : Nat) : Item :=
  if i.radius = 0 then { i with ring := some 0, x := i.record.hx.toNat, y := i.record.hy.toNat }
  else
    let hx := i.record.hx.toNat
    let hy := i.record.hy.toNat
    let n := ringFrom hx hy i.radius (k % (4 * i.radius)) (4 * i.radius)
    let p := ringAt hx hy i.radius n
    if onGrid p then { i with ring := some n, x := p.1.toNat, y := p.2.toNat } else { i with ring := some n, x := 16, y := 16 }

/-- An item's next position: along its ring, or toward its hint, in x first and then in y. -/
def Item.hop (i : Item) (ticks : Nat) : Item :=
  match i.ring with
  | some k => i.atRing (k + 1)
  | none =>
    let hx := i.record.hx.toNat
    let hy := i.record.hy.toNat
    if i.x < hx then { i with x := i.x + 1 }
    else if hx < i.x then { i with x := i.x - 1 }
    else if i.y < hy then { i with y := i.y + 1 }
    else if hy < i.y then { i with y := i.y - 1 }
    else ({ i with since := ticks } : Item).atRing 0

/-- Replace an item. -/
def State.setItem (s : State) (idx : Nat) (i : Item) : State := { s with items := s.items.set idx i }

/-- An item moves on to its next position. -/
def State.moveItem (s : State) (idx : Nat) (i : Item) : State :=
  s.setItem idx { i.hop s.ticks with arrived := s.nextArrival }

/-- The core that an item is at is within its radius and would take it now. -/
def State.wantsHere (s : State) (i : Item) : Bool :=
  i.taken.isNone && i.ovq.isNone && decide (gridDist i.x i.y i.record.hx.toNat i.record.hy.toNat ≤ i.radius) &&
    (s.roomFor (gridCore i.x i.y) i.record).isSome

/-- Another item at the same core competes for its vacant slots and goes first (12 R297). -/
def State.outranked (s : State) (idx : Nat) (i : Item) : Bool :=
  s.items.zipIdx.any (fun e => decide (e.2 ≠ idx) && decide (e.1.x = i.x) && decide (e.1.y = i.y) && s.wantsHere e.1 &&
    decide ((betterItem (idx, i) (e.2, e.1)).1 = e.2))

/-- An item is in the queue of the router where it is: under way, or circling from one core to another. -/
def Item.queued (i : Item) : Bool := i.taken.isNone && i.ovq.isNone && !(i.ring.isSome && decide (i.radius = 0))

/-- An item heads the queue of its router: of the items there it has the highest priority and is then the earliest (12 R297). -/
def State.routerFirst (s : State) (idx : Nat) (i : Item) : Bool :=
  !i.queued || !s.items.zipIdx.any (fun e => decide (e.2 ≠ idx) && decide (e.1.x = i.x) && decide (e.1.y = i.y) && e.1.queued &&
    decide ((betterItem (idx, i) (e.2, e.1)).1 = e.2))

/-- A work item reaches a core: the core takes it, or it moves on, the first of its router's queue first; a core with a vacant slot
serves the overflow queues in reach first (12 R296), then of the items at it the one of the highest priority, then the earliest
(12 R297); a core under test is aborted first for an item of priority APRIO or above (16 R419). -/
def execItemHop (item : Nat) (s : State) : Result :=
  match s.items[item]? with
  | none => .next s
  | some i =>
    if i.taken.isSome || i.ovq.isSome then .next s
    else
      let c := gridCore i.x i.y
      let near := decide (gridDist i.x i.y i.record.hx.toNat i.record.hy.toNat ≤ i.radius)
      if near && s.underTest c && decide (s.plat.scPrio.toNat ≤ i.record.prio.toNat) then .next s
      else match (if near then s.roomFor c i.record else none) with
      | none => .next (if s.routerFirst item i then s.moveItem item i else s)
      | some _ =>
        let s1 := s.offerOverflow c
        (match s1.roomFor c i.record with
         | some k => if s1.outranked item i then .next s1 else .next (s1.takeItem item c k)
         | none => .next (if s1.routerFirst item i then s1.moveItem item i else s1))

/-- An item has circled for 2 µs at its radius, which can grow (12 R296). -/
def execRingRadiusGrow (item : Nat) (s : State) : Result :=
  match s.items[item]? with
  | none => .next s
  | some i =>
    if i.ring.isSome && i.taken.isNone && i.ovq.isNone && decide (i.radius < i.rmax) && decide (i.since + 4000 ≤ s.ticks) then
      .next (s.setItem item (({ i with radius := i.radius + 1, since := s.ticks } : Item).atRing 0))
    else .next s

/-- The slot content that an item stands for. -/
def State.itemSlot (s : State) (i : Item) : Slot :=
  if i.record.new then { Slot.vacant with pc := i.pc, record := i.record }
  else (alGet s.away (strandId i.record.pid i.record.frame)).getD { Slot.vacant with pc := i.pc, record := i.record }

/-- The record of an item that enters an overflow queue is written to its frame (12 R298). -/
def State.overflowRecord (s : State) (i : Item) : State :=
  match s.recordWrite 0 (s.itemSlot i) (if i.record.new then 0 else 3) 0 with
  | .error _ =>
    s.fatalCause i.record.pid
      { cause := Cause.framef.code, src := 0xFFFF, flags := 0, xpc := i.pc, xval := i.record.frame, time := s.timeNs }
  | .ok s1 => s1

/-- The first core within RMAX of an item's hint that would take it now. -/
def State.coreInReach (s : State) (i : Item) : Option Nat :=
  (List.range 256).find? (fun c =>
    decide (gridDist (coreX c) (coreY c) i.record.hx.toNat i.record.hy.toNat ≤ i.rmax) && (s.roomFor c i.record).isSome)

/-- An item whose radius can grow no further parks in the overflow queue of its hint's tile; a vacant slot in reach that
admits it takes it, at once or once there is one, the first of the queues going first (12 R296, R297, R298). -/
def execOverflowPark (item : Nat) (s : State) : Result :=
  match s.items[item]? with
  | none => .next s
  | some i =>
    if i.taken.isSome then .next s
    else if i.ovq.isSome then
      (match s.coreInReach i with
       | some c => .next (s.offerOverflow c)
       | none => .next s)
    else if i.ring.isSome && decide (i.rmax ≤ i.radius) && decide (i.since + 4000 ≤ s.ticks) then
      let t := tileOf (gridCore i.record.hx.toNat i.record.hy.toNat)
      let j : Item := { i with ovq := some t, arrived := s.nextArrival }
      let s1 := ((s.overflowRecord i).setItem item j).leaveOverflow j
      (match s1.coreInReach i with
       | some c => .next (s1.offerOverflow c)
       | none => .next s1)
    else .next s

/-! ## Pick-up (12 R299, R300) -/

/-- Read bytes within one page for the pick-up into slot `n`; what another device holds has been answered (12 R300;
14 R349). -/
def State.pickGet (s : State) (n : Nat) (pid : BitVec 12) (exec : Bool) (a : Word) (len : Nat) :
    Except Cause (List Byte) × State :=
  let q := slotQuad n
  match s.translate q pid exec a .read with
  | (.error c, s1) => (.error c, s1)
  | (.ok x, s1) =>
    match s1.region x.pa with
    | .remote dev off =>
      (match s1.engineAnswer (pickId n) dev off len with
       | some r => (match r.fault, r.reply with | none, some bs => .ok bs | some c, _ => .error (farWhy c) | none, none => .error .runreach)
       | none => .error .runreach, s1)
    | _ => s1.vaGet q pid exec a len

/-- Read a block of 256-byte pieces for a pick-up: the bytes, or the first failure. -/
def State.pickRead (s : State) (n : Nat) (pid : BitVec 12) (exec : Bool) (a : Word) : Nat → Except Failure (List Byte) × State
  | 0 => (.ok [], s)
  | k + 1 =>
    match s.pickGet n pid exec a 256 with
    | (.error c, s1) => (.error (c, a), s1)
    | (.ok bs, s1) =>
      match s1.pickRead n pid exec (a + 256) k with
      | (.error e, s2) => (.error e, s2)
      | (.ok r, s2) => (.ok (bs ++ r), s2)

/-- FMT and SCL at the first pick-up: from the descriptor, or 0 with the fault of its read (07 R170). -/
def State.pickFmt (s : State) (n : Nat) (x : Slot) : (Slot × Option Failure) × State :=
  let a := x.record.fmtp
  if a = 0 then ((x, none), s)
  else if a.toNat % 16 ≠ 0 then ((x, some (.maln, a)), s)
  else
    match s.pickGet n x.pid x.record.exec a 16 with
    | (.error c, s1) => ((x, some (c, a)), s1)
    | (.ok bs, s1) =>
      let f := nthW (bytesWords bs 2) 0
      let c := nthW (bytesWords bs 2) 1
      (if fmtReserved f c then (x, some (.fmtres, a)) else (x.putFmt f c, none), s1)

/-- The constant-bank view: the image, or zeros with the fault of its read (03 R68; 12 R300). -/
def State.pickBank (s : State) (n : Nat) (x : Slot) : (Slot × Option Failure) × State :=
  if x.record.kbank = 0 then (({ x with kbank := 0 }, none), s)
  else
    match s.pickRead n x.pid x.record.exec x.record.kbank 4 with
    | (.ok bs, s1) => (({ x with kbank := BitVec.ofNat 8192 (leNat bs) }, none), s1)
    | (.error e, s1) => (({ x with kbank := 0 }, some e), s1)

/-- The reads of a pick-up that other devices answer are sent once: the descriptor, and the constant-bank image. -/
def State.pickAsk (s : State) (n : Nat) (r : Rec) : State :=
  if s.remote.any (fun q => decide (q.strand = pickId n)) then s
  else
    let ask (t : State) (a : Word) (len : Nat) : State := t.engineAsk (pickId n) (slotQuad n) r.pid r.exec a len
    let s1 := if r.new && r.fmtp ≠ 0 then ask s r.fmtp 16 else s
    if r.kbank = 0 then s1
    else (List.range 4).foldl (fun (t : State) k => ask t (r.kbank + BitVec.ofNat 64 (256 * k)) 256) s1

/-- The registers of a strand at its first pick-up (12 R299; 13 R323). -/
def Item.newStrand (i : Item) : Slot :=
  let r : Rec := { i.record with new := false }
  let x : Slot :=
    { Slot.vacant with
      pc := i.pc, record := r
      status := { Slot.vacant.status with exec := r.exec }
      lp := { Slot.vacant.lp with lpid := if r.opt then BitVec.ofNat 32 i.lpid else 0, lvt := if r.opt then r.vtime else 0 } }
  ((x.setG 0 (r.gidx.setWidth 64)).setG 1 (BitVec.ofNat 64 (if r.gcb = 0 then 1 else i.total))).setG 2 r.gcb

/-- The slot content at a pick-up, before the constant bank: initialised, or restored from the frame. -/
def State.pickSlot (s : State) (n : Nat) (i : Item) : (Slot × Option Failure) × State :=
  if i.record.new then s.pickFmt n i.newStrand
  else
    let (x, s1) := s.frameRead (slotQuad n) (s.itemSlot i)
    ((x, none), s1)

/-- A core picks up the item it has taken (12 R299, R300); a logical process that holds a fault waits on (13 R339). -/
def State.pickUp (s : State) (idx : Nat) (i : Item) (core slot : Nat) : State :=
  let n := 16 * core + slot
  let ((x1, f1), s0) := (s.coreInvalidate core 0).pickSlot n i
  let ((x2, f2), s0) := s0.pickBank n x1
  let s1 := (s0.engineForget (pickId n)).remoteEnd (fun r =>
    decide (r.strand = fetchId n) || decide (r.strand = loopId n) || decide (r.strand = targetId n))
  let cyc := Nat.max (s1.core core).cycle (s1.ticks - s1.plat.timeOff)
  let x : Slot :=
    { x2 with
      occ := true, ticket := none, okeep := false, xkeep := false, rstate := 1, landed := true, ready := [], lbuf := []
      rmax := i.rmax, skips := 0, notBefore := cyc, park := if x2.lp.held.isSome then some .held else none, since := s1.ticks }
  let s2 : State := { s1 with items := s1.items.eraseIdx idx, away := alDel s1.away x.sid }
  let s3 := (s2.setSlot n x).modCore core (fun c => { c with cycle := cyc })
  match f1, f2 with
  | some (c, a), _ => s3.raiseAt n c.code x.pc a false
  | none, some (c, a) => s3.raiseAt n c.code x.pc a false
  | none, none => s3

/-- A tile reserves leave for a fixed-timing context and is asked to pin (15 R396, R399). -/
def Tile.reservePin (t : Tile) (pid : BitVec 12) : Tile :=
  { t with rsvs := if t.rsvs.contains pid then t.rsvs else t.rsvs ++ [pid], pinReq := t.pinReq || !t.pinned }

/-- Pick-up of a taken item, which ROUTE.HOLD keeps from reading the second level (04 R92): a strand of a fixed-timing context waits until the tile is pinned, and is placed again where the tile holds the reservations of
four other contexts (15 R396); a frozen context's
strand waits for its dump (15 R390). -/
def execPickup (item : Nat) (s : State) : Result :=
  match s.items[item]? with
  | none => .next s
  | some i =>
    match i.taken with
    | none => .next s
    | some (core, slot) =>
      let t := tileOf core
      let n := 16 * core + slot
      if s.isFrozen i.record.pid || (s.slotAt n).occ || (s.core core).hold then .next s
      else
      let s := s.pickAsk n i.record
      if s.engineAwaits (pickId n) then .next s
      else if !s.ftRoom t i.record.pid then
        .next ((s.engineForget (pickId n)).setItem item { i with taken := none, x := (coreRouter core).1, y := (coreRouter core).2,
                                                                 ring := none, arrived := s.nextArrival })
      else if (s.job i.record.pid).ft then
        let s1 := s.modTile t (fun k => k.reservePin i.record.pid)
        if (s1.tile t).pinned then .next (s1.pickUp item i core slot) else .next s1
      else .next (s.pickUp item i core slot)

end Sys2Proof.Machine
end

