-- ==== Sys2Proof/Machine/Varnish.lean ====
section
/-!
DEFINITION. The varnish stage (13 R336 to R338): the irrevocable actions of logical processes, performed once VPT has passed
them.
-/

namespace Sys2Proof.Machine

/-- An action is performed before another: ascending vtime, LP, queue index (13 R338). -/
def Action.before (b c : Action) : Bool :=
  decide (b.vtime.toNat < c.vtime.toNat) || (decide (b.vtime = c.vtime) && (decide (b.lp.toNat < c.lp.toNat) ||
    (decide (b.lp = c.lp) && decide (b.idx < c.idx))))

/-- Of two actions the one performed first. -/
def earlierAction (a : Option Action) (b : Action) : Option Action :=
  match a with
  | none => some b
  | some c => if b.before c then some b else some c

/-- Of two jobs' actions the one performed first; of equal ones that of the job listed first (assumption 100). -/
def earlierOf (a : Option (BitVec 12 × Action)) (b : BitVec 12 × Action) : Option (BitVec 12 × Action) :=
  match a with
  | none => some b
  | some c => if b.2.before c.2 then some b else some c

/-- The action of a job to perform next: VPT is above its vtime. -/
def Job.readyAction (j : Job) : Option Action :=
  (j.varnish.filter (fun a => decide (a.vtime.toNat < j.vpt.toNat))).foldl earlierAction none

/-- The status of a failed action that a fault gives: 2 for the translation faults and AMOSPACE of class 0x03, 14 for any
other (13 R338). -/
def failStatus (c : Cause) : Nat := if c.cls = 3 && c ≠ .sprange then 2 else 14

/-- The requester number of the varnish stage in other devices. -/
def varnId : Nat := noStrand + 64

/-- A request of the stage to a device, which has to be reachable (14 R350). -/
def State.varnSend (s : State) (dev off : Nat) (a : Action) (kind : RemoteKind) (n : Nat) (data : List Byte) : Except Cause State :=
  if s.reach dev then
    .ok (s.remoteSend { storeRequest varnId dev off a.a data false with kind := kind, len := n })
  else .error .runreach

/-- STORE (13 R337): a plain store at user level. -/
def State.varnStore (s : State) (pid : BitVec 12) (a : Action) : Except Cause State :=
  match s.translate 0 pid false a.a .write with
  | (.error c, _) => .error c
  | (.ok x, s1) =>
    let bs := natLe (2 ^ (actArg a.d0 % 4)) a.b.toNat
    match s1.region x.pa with
    | .remote dev off => s1.varnSend dev off a .store bs.length bs
    | _ => .ok (s1.homeStore noStrand pid a.a x.pa bs)

/-- RED (13 R337; 06 R142): at the home slice, at a remote module, or to host memory as an addition of the device. -/
def State.varnRed (s : State) (pid : BitVec 12) (a : Action) : Except Cause State :=
  let dbl := decide (actArg a.d0 / 16 = 1)
  let op := BitVec.ofNat 4 (actArg a.d0 % 16)
  match s.translate 0 pid false a.a .write with
  | (.error c, _) => .error c
  | (.ok x, s1) =>
    match s1.region x.pa with
    | .hbm => .ok (s1.redAt none pid x.pa op.toNat dbl a.b)
    | .host =>
      .ok { s1 with hostAdds := s1.hostAdds ++
              [{ pa := x.pa, dbl := dbl, op := op, v := a.b, old := none, varn := some pid }] }
    | .remote dev off => s1.varnSend dev off a (.amo op dbl true) (if dbl then 8 else 4) (natLe 8 a.b.toNat ++ natLe 8 0)
    | _ => .error .amospace

/-- SPAWN (13 R337, R338): at user level, with the priority of the LP that queued it as the cap. A template that another
device holds has been answered. -/
def State.varnSpawn (s : State) (pid : BitVec 12) (a : Action) : Except Cause State :=
  if a.a.toNat % 64 ≠ 0 then .error .maln
  else
    match s.translate 0 pid false a.a .read with
    | (.error c, _) => .error c
    | (.ok x, s1) =>
      let l : Launcher := { pid := pid, exec := false, prio := a.prio, router := unitRouter a.lp, quad := 0 }
      let launch (bs : List Byte) (s2 : State) : Except Cause State :=
        match s2.spawnWords l a.a (bytesWords bs 8) false with
        | .error e => .error e.1
        | .ok s3 => .ok s3
      match s1.region x.pa with
      | .remote dev off =>
        (match s1.engineAnswer varnId dev off 64 with
         | some r =>
           (match r.fault, r.reply with
            | none, some bs => launch bs (s1.engineForget varnId)
            | some c, _ => .error (farWhy c)
            | none, none => .error .runreach)
         | none => .error .runreach)
      | _ =>
        let (bs, s2) := (s1.consume none pid x.pa 64).paRead { tile := none, pid := pid, hint := x.hint } x.pa 64
        launch bs s2

/-- An answer with the cause of its failure alone. -/
def dropValue (r : Except Failure State) : Except Cause State :=
  match r with
  | .error e => .error e.1
  | .ok s => .ok s

/-- CANCEL (13 R337). -/
def State.varnCancel (s : State) (pid : BitVec 12) (a : Action) : Except Cause State :=
  if actArg a.d0 = 2 then (if a.a ≠ 0 then .error .scharg else .ok (s.cancelJob pid))
  else dropValue (s.cancelBlock 0 pid false (BitVec.ofNat 2 (actArg a.d0)) a.a)

/-- The optical command of a palette action (13 R337). -/
def palCommand (pid : BitVec 12) (a : Action) : OptCmd :=
  let k : OptKind := match actKind a.d0 with
    | 5 => .phld
    | 6 => .phst
    | 7 => .psel
    | _ => .dcmp
  { kind := k, tile := actTile a.d0, strand := 0, pid := pid, exec := false, isLp := false, handler := 0, ack := none,
    pal := BitVec.ofNat 2 (actArg a.d0), addr := a.a, n := if k = .dcmp then a.b.toNat else 0, desc0 := 0, desc1 := 0,
    floor := 0, emulate := true, ticket := 0, varn := true, running := false, cancel := false }

/-- The operand fault of a palette action (09 R230). -/
def palFault (a : Action) : Option Cause :=
  match actKind a.d0 with
  | 5 => if a.a.toNat % 256 ≠ 0 then some .maln else none
  | 6 => if a.a.toNat % 256 ≠ 0 then some .maln else none
  | 7 => none
  | _ =>
    if a.b = 0 || 64 < a.b.toNat then some .palarg
    else if a.a.toNat % 16384 ≠ 0 then some .maln
    else if a.a.toNat / 2 ^ 24 ≠ actTile a.d0 then some .sprange
    else none

/-- Perform a palette action: none while the tile's queue is full (13 R338). -/
def State.varnPalette (s : State) (pid : BitVec 12) (a : Action) : Option (Except Cause State) :=
  match palFault a with
  | some c => some (.error c)
  | none =>
    if (s.tile (actTile a.d0)).opt.queue.length < 64 then some (.ok (s.optAccept (palCommand pid a))) else none

/-- Perform an action; none while it has to wait. -/
def State.varnPerform (s : State) (pid : BitVec 12) (a : Action) : Option (Except Cause State) :=
  match actKind a.d0 with
  | 0 => some (s.varnStore pid a)
  | 1 => some (s.varnRed pid a)
  | 2 => some (s.varnSpawn pid a)
  | 3 => some (dropValue (s.gdepFor 0 pid false a.a a.b))
  | 4 => some (s.varnCancel pid a)
  | _ => s.varnPalette pid a

/-- The device's next action, over all its jobs (13 R338); the engines accept no command of a frozen context (15 R390). -/
def State.varnNext (s : State) : Option (BitVec 12 × Action) :=
  (s.jobs.filterMap (fun e =>
    if e.2.causes.isEmpty then e.2.readyAction.map (fun a => (BitVec.ofNat 12 e.1, a)) else none)).foldl earlierOf none

/-- The stage waits for the end of an addition to host memory or for the answers of other devices. -/
def State.varnWaits (s : State) : Bool := s.hostAdds.any (fun a => a.varn.isSome) || s.engineAwaits varnId

/-- The stage is free for the next action. -/
def State.varnFree (s : State) : State := { s.engineForget varnId with varnNow := none }

/-- Perform an action now, or keep it until its tile's queue has room: later actions wait behind it (13 R338). -/
def State.varnGo (s : State) (pid : BitVec 12) (a : Action) : State :=
  match s.varnPerform pid a with
  | none => { s with varnNow := some (pid, a, false) }
  | some (.ok s1) => if s1.varnWaits then { s1 with varnNow := some (pid, a, true) } else s1.varnFree
  | some (.error c) => s.varnFree.varnFail pid (actKind a.d0) a.a (failStatus c)

/-- The action under way has ended: a request to another device that failed is its failure (14 R350, R351). -/
def State.varnEnd (s : State) (pid : BitVec 12) (a : Action) : State :=
  match s.remote.findSome? (fun r => if r.strand = varnId then r.fault else none) with
  | some w => s.varnFree.varnFail pid (actKind a.d0) a.a (failStatus (farWhy w))
  | none => s.varnFree

/-- The varnish stage performs its next action, once the one before has been performed wherever it goes (13 R338). -/
def execVarnishPerform (s : State) : Result :=
  match s.varnNow with
  | some (pid, a, ending) =>
    if s.varnWaits then .next s
    else if ending then .next (s.varnEnd pid a)
    else if (s.job pid).causes.isEmpty then .next (s.varnGo pid a)
    else .next s.varnFree
  | none =>
    match s.varnNext with
    | none => .next s
    | some (pid, a) =>
      let s0 := s.modJob pid (fun j => { j with varnish := j.varnish.erase a })
      let s1 := if actKind a.d0 = 2 then s0.engineAsk varnId 0 pid false a.a 64 else s0
      if s1.varnWaits then .next { s1 with varnNow := some (pid, a, false) } else .next (s1.varnGo pid a)

end Sys2Proof.Machine
end

