-- ==== Sys2Proof/Machine/Fabric.lean ====
section
/-!
DEFINITION. Remote accesses at their target and their replies at the source (14 R349 to R352), `migr`, migration packets
and the frame pool (14 R354 to R357).
-/

namespace Sys2Proof.Machine

/-! ## At the target (14 R349, R351, R352) -/

/-- The target refuses a request (14 R351). -/
def State.reqRefused (s : State) (r : RemoteReq) : Bool :=
  decide (Config.hbmBytes ≤ r.offset.toNat) || (s.job r.pid).key.isNone

/-- The reply that the cache holds for a source and tag (14 R352). -/
def State.replied (s : State) (src : BitVec 11) (tag : BitVec 16) : Option ReplyEntry :=
  s.replies.find? (fun e => decide (e.src = src) && decide (e.tag = tag))

/-- Entries the reply cache holds (14 R352). -/
def replyCap : Nat := 65536

/-- The reply cache records a reply before it is sent. -/
def State.recordReply (s : State) (src : BitVec 11) (pid : BitVec 12) (tag : BitVec 16) (reply : List Byte) : State :=
  { s with replies := s.replies ++ [{ src := src, pid := pid, tag := tag, reply := reply, since := s.ticks }] }

/-- A reply leaves for a device; a refusal and BUSY carry no bytes. -/
def State.replyTo (s : State) (dev : BitVec 11) (bs : List Byte) : State :=
  ({ s with fabReply := bs } : State).inject dev.toNat bs.length

/-- The old bytes of the doublewords that the source logs (13 R325). -/
def State.oldBytes (s : State) (r : RemoteReq) : List Byte := r.logs.flatMap (fun a => s.homeBytes r.pid a.toNat 8)

/-- An atomic at the home copy of a target, applied once (14 R352), with what a counter of a group that it changed brings
about (14 R355); the reply holds the old value. -/
def State.remoteAtomic (s : State) (r : RemoteReq) (op : Nat) (n : Nat) : State :=
  let pa := r.offset.toNat
  let s0 := s.consume none r.pid pa (n / 8)
  let old := leNat (s0.homeBytes r.pid pa (n / 8))
  let v := leNat (r.data.take 8) % 2 ^ n
  let cmp := leNat ((r.data.drop 8).take 8) % 2 ^ n
  let k := amoNew op n old v cmp
  let bs := natLe (n / 8) old ++ s0.oldBytes r
  let s1 := if k.2.1 then s0.homePut r.pid pa (natLe (n / 8) k.1) else s0
  ((s1.recordReply r.src r.pid r.tag bs).groupTouched r.pid pa).replyTo r.src bs

/-- A remote access arrives at its target: refused, answered from the reply cache, answered BUSY, or performed at the home
copy under the target's key for the PID (14 R349, R351, R352). Its reply leaves over the fabric. -/
def execRemoteRequestArrive (req : RemoteReq) (s : State) : Result :=
  let pa := req.offset.toNat
  if s.reqRefused req then .next (s.replyTo req.src [])
  else
    match req.kind with
    | .load =>
      let s1 := s.consume none req.pid pa req.len
      .next (s1.replyTo req.src (s1.homeBytes req.pid pa req.len))
    | .store => .next ((s.homePut req.pid pa (req.data.take req.len)).replyTo req.src (s.oldBytes req))
    | .amo op dbl _ =>
      match s.replied req.src req.tag with
      | some e => .next (s.replyTo req.src e.reply)
      | none =>
        if replyCap ≤ s.replies.length then .next (s.replyTo req.src [])
        else .next (s.remoteAtomic req op.toNat (if dbl then 64 else 32))

/-- An entry of the reply cache is freed, 2 ms after its reply at the earliest (14 R352). -/
def execReplyCacheExpiry (src : BitVec 11) (tag : BitVec 16) (s : State) : Result :=
  let old (e : ReplyEntry) : Bool := decide (e.src = src) && decide (e.tag = tag) && decide (e.since + 4000000 ≤ s.ticks)
  .next { s with replies := s.replies.filter (fun e => !old e) }

/-! ## At the source (14 R350, R351) -/

/-- The unanswered request of a tag. -/
def State.request (s : State) (tag : BitVec 16) : Option RemoteOut :=
  s.remote.find? (fun r => decide (r.tag = tag) && r.reply.isNone)

/-- Change the unanswered request of a tag. -/
def State.modRequest (s : State) (tag : BitVec 16) (f : RemoteOut → RemoteOut) : State :=
  { s with remote := s.remote.map (fun r => if r.tag = tag && r.reply.isNone then f r else r) }

/-- An unanswered request is over. -/
def State.requestOver (s : State) (r : RemoteOut) : State :=
  s.remoteEnd (fun k => decide (k.tag = r.tag) && k.reply.isNone)

/-- A request of the device itself keeps its answer, or why it failed, until the unit that made it reads it. -/
def State.requestKept (s : State) (r : RemoteOut) (bs : List Byte) (w : Option MigFail) : State :=
  (s.modRequest r.tag (fun k => { k with reply := some bs, fault := w })).remoteEnd (fun _ => false)

/-- The device itself made a request; nobody reads the answers of those under `noStrand`. -/
def RemoteOut.own (r : RemoteOut) : Bool := decide (noStrand ≤ r.strand)

/-- The unit that made a request reads its answer: of a load, and of an action of the varnish stage. -/
def RemoteOut.isRead (r : RemoteOut) : Bool :=
  decide (noStrand < r.strand) && (decide (r.kind = .load) || decide (r.strand = varnId))

/-- The plain requests of a strand: those of the one instruction it waits in. -/
def State.plainOf (s : State) (sid : Nat) : List RemoteOut := s.remote.filter (fun r => decide (r.strand = sid) && !r.relaxed)

/-- They are over. -/
def State.dropPlain (s : State) (sid : Nat) : State := s.remoteEnd (fun r => decide (r.strand = sid) && !r.relaxed)

/-- An answer to the device itself has been kept: the device map that it completes is taken over (13 R316). -/
def State.answerKept (s : State) (id : Nat) : State :=
  let pid := BitVec.ofNat 12 (id - (noStrand + 120000))
  if id = mapId pid then s.mapLand pid else s

/-- A request fails: a plain one precisely at its instruction, with none of its effect on a register; a relaxed one late; one
of an engine fails the engine's command (14 R350, R351). -/
def State.remoteFail (s : State) (r : RemoteOut) (w : MigFail) : State :=
  if r.own then
    if r.dst = .bar then (s.requestOver r).farBarFailed (r.strand - 3 * noStrand) (farWhy w) r.va
    else if r.isRead then (s.requestKept r [] (some w)).answerKept r.strand
    else if r.strand = noStrand then s.requestOver r
    else (s.requestOver r).engineFailed r.strand r.va
  else if r.relaxed then (s.requestOver r).modStrand r.strand (fun x => x.remoteLate r.dst (farWhy w) r.va)
  else (s.dropPlain r.strand).wakeFault r.strand (0, 0) (farWhy w) r.va

/-- The registers take an answered access (14 R350; 06 R140, R141). -/
def Slot.landReply (x : Slot) (r : RemoteOut) (bs : List Byte) : Slot :=
  match r.kind with
  | .store => x
  | .load =>
    (match r.dst with
     | .fmt => x.putFmt (nthW (bytesWords bs 2) 0) (nthW (bytesWords bs 2) 1)
     | k => r.elems.foldl (fun (y : Slot) e => y.landElem k e.idx ((bs.drop e.addr).take e.len)) x)
  | .amo op dbl isRed =>
    if isRed then x
    else
      match r.dst with
      | .loadG d =>
        let n := if dbl then 64 else 32
        let old := leNat (bs.take (n / 8))
        let k := amoNew op.toNat n old (leNat (r.data.take 8) % 2 ^ n) (leNat ((r.data.drop 8).take 8) % 2 ^ n)
        (x.orFxf k.2.2).setG d (amoResult op.toNat n old)
      | _ => x

/-- A reply that FMTRES refuses (07 R171). -/
def RemoteOut.fmtRefused (r : RemoteOut) (bs : List Byte) : Bool :=
  r.dst == .fmt && fmtReserved (nthW (bytesWords bs 2) 0) (nthW (bytesWords bs 2) 1)

/-- Bytes of a reply before the old bytes of logged doublewords. -/
def RemoteOut.replyLen (r : RemoteOut) : Nat :=
  match r.kind with
  | .load => r.len
  | .store => 0
  | .amo _ dbl _ => if dbl then 8 else 4

/-- The reply of a `cas` whose comparison failed, which wrote nothing (06 R143). -/
def RemoteOut.casFailed (r : RemoteOut) (bs : List Byte) : Bool :=
  match r.kind with
  | .amo op _ _ => decide (op = 9) && decide (bs.take r.replyLen ≠ (r.data.drop 8).take r.replyLen)
  | _ => false

/-- The log entries of an answered access: the old bytes of the doublewords that it wrote (13 R325; 06 R143). -/
def RemoteOut.logEntries (r : RemoteOut) (bs : List Byte) : List LogEntry :=
  if r.casFailed bs then []
  else r.logs.zipIdx.map (fun e =>
    .store e.1 (BitVec.ofNat 64 (leNat ((bs.drop (r.replyLen + 8 * e.2)).take 8))) r.lvt)

/-- The log of the strand that made an access takes the entries of its answer. -/
def State.logReply (s : State) (r : RemoteOut) (bs : List Byte) : State :=
  if r.logs.isEmpty then s
  else
    match s.strandOf r.strand with
    | some x => s.logPush x (r.logEntries bs)
    | none => s

/-- A plain request of a strand is answered: the arrival at a barrier and the template of a `spawn` go their own ways; any
other takes effect with the last answer of its instruction, which then completes. -/
def State.plainAnswer (s : State) (r : RemoteOut) (bs : List Byte) : State :=
  if r.fmtRefused bs then (s.dropPlain r.strand).wakeFault r.strand (0, 0) .fmtres r.va
  else
    match r.dst with
    | .bar => (s.requestOver r).farBarArrived r.strand r.dev.toNat r.offset r.va (BitVec.ofNat 64 (leNat (bs.take 8)))
    | .spawn => (s.requestOver r).spawnAnswer r.strand r.va bs
    | _ =>
      let s1 := s.requestKept r bs none
      let l := s1.plainOf r.strand
      if l.any (fun k => k.reply.isNone) then s1
      else
        (l.foldl (fun (t : State) k => t.logReply k (k.reply.getD [])) (s1.dropPlain r.strand)).wake r.strand (0, 0) (fun x =>
          l.foldl (fun (y : Slot) k => y.landReply k (k.reply.getD [])) x)

/-- A request is answered (14 R350): one of the device itself, a relaxed one, which takes effect, or a plain one. -/
def State.remoteAnswer (s : State) (r : RemoteOut) (bs : List Byte) : State :=
  if r.own then
    if r.dst = .bar then (s.requestOver r).farBarRead (r.strand - 3 * noStrand) r.dev.toNat r.offset r.va (BitVec.ofNat 64 (leNat (bs.take 8)))
    else if r.isRead then (s.requestKept r bs none).answerKept r.strand
    else s.requestOver r
  else if r.relaxed then ((s.requestOver r).logReply r bs).modStrand r.strand (fun x => x.landReply r bs)
  else s.plainAnswer r bs

/-- A reply or a refusal comes back; one whose request is gone, or was never sent, is discarded (14 R350, R351). -/
def execRemoteReplyArrive (tag : BitVec 16) (refused : Bool) (data : List (BitVec 8)) (s : State) : Result :=
  match s.request tag with
  | none => .next s
  | some r =>
    if !r.inFlight then .next s
    else if refused then .next (s.remoteFail r .refused)
    else .next (s.remoteAnswer r data)

/-- Half nanoseconds without a reply before a reissue: 250 µs (14 R350). -/
def reissueTicks : Nat := 500000

/-- A request without a reply for 250 µs is sent again, up to four attempts; then RTIMEO, or RUNREACH where the agreed table
no longer reaches the device. A migration packet is sent again in the same way (14 R350, R355). -/
def execRemoteReissue (tag : BitVec 16) (s : State) : Result :=
  match s.request tag with
  | some r =>
    if r.attempts = 0 || s.ticks < r.since + reissueTicks then .next s
    else if !s.reach r.dev.toNat then .next (s.remoteFail r .unreachable)
    else if 4 ≤ r.attempts then .next (s.remoteFail r .timedOut)
    else
      .next ((s.modRequest tag (fun k => { k with attempts := k.attempts + 1, since := s.ticks, inFlight := true })).inject
        r.dev.toNat r.data.length)
  | none =>
    match s.migOut.find? (fun m => m.tag = tag) with
    | none => .next s
    | some m =>
      if s.ticks < m.since + reissueTicks || 4 ≤ m.attempts || !s.reach m.dev.toNat then .next s
      else
        let again (k : MigOut) : MigOut := if k.tag = tag then { k with attempts := k.attempts + 1, since := s.ticks } else k
        .next (({ s with migOut := s.migOut.map again } : State).inject m.dev.toNat 1024)

/-- A router discards a request older than 100 µs (14 R350). -/
def execRequestAgeDiscard (tag : BitVec 16) (s : State) : Result :=
  .next (s.modRequest tag (fun r => if r.attempts ≠ 0 && r.since + 200000 < s.ticks then { r with inFlight := false } else r))

/-- An atomic answered BUSY is sent again, which is not an attempt (14 R352). -/
def execReplyCacheRetry (tag : BitVec 16) (s : State) : Result :=
  match s.request tag with
  | some r =>
    if r.attempts = 0 then .next s
    else
    (match r.kind with
     | .amo _ _ _ =>
       .next ((s.modRequest tag (fun k => { k with since := s.ticks, inFlight := true })).inject r.dev.toNat r.data.length)
     | _ => .next s)
  | none => .next s

/-! ## Migration (14 R354, R355) -/

/-- `migr` (14 R354). -/
def execMigr (a : BitVec 5) (h : BitVec 2) (s : State) : Result :=
  let ga := s.hart.getG a
  s.issue Need.any
    (match s.translate (slotQuad s.hid) s.hart.pid s.hart.status.exec ga .read with
     | (.error c, s1) => s1.raise c ga
     | (.ok x, s1) =>
       match s1.region x.pa with
       | .hbm => s1.done h id
       | .remote dev _ => s1.migrateTo h dev ga
       | _ => s1.raise .migspace ga)

/-- The destination acknowledges: the strand leaves the job counter, its old frame's record says MIGRATED and names the
destination, and a frame of a pool returns to it; a cancel that reached the packet meanwhile follows the strand (14 R355). -/
def execMigrationAck (tag : BitVec 16) (s : State) : Result :=
  match s.migOut.find? (fun m => m.tag = tag) with
  | none => .next s
  | some m =>
    let x := m.slot
    let s1 : State := { s with migOut := s.migOut.filter (fun k => k.tag ≠ tag) }
    let s2 := s1.modJob x.pid (fun j => { j with count := j.count - 1, farDevs := setInsert j.farDevs m.dev.toNat })
    let s2 := if x.bound.cancel then s2.inject m.dev.toNat 64 else s2
    match s2.recordWrite 0 x 7 m.dev.toNat with
    | .ok s3 => .next (s3.returnFrame x)
    | .error _ =>
      .next (s2.fatalCause x.pid
        { cause := Cause.framef.code, src := 0xFFFF, flags := 0, xpc := x.pc, xval := x.record.frame, time := s2.timeNs })

/-- The cause that a failed migration takes at the migrating instruction (14 R355). -/
def migCause : MigFail → Cause
  | .refused => .migref
  | .timedOut => .rtimeo
  | .unreachable => .runreach

/-- A failed migration that may be reported now: four attempts and 250 µs for RTIMEO, no route for RUNREACH. -/
def State.migFailed (s : State) (m : MigOut) : MigFail → Bool
  | .refused => true
  | .timedOut => decide (4 ≤ m.attempts) && decide (m.since + reissueTicks ≤ s.ticks)
  | .unreachable => !s.reach m.dev.toNat

/-- A packet is refused, or every attempt has failed: the strand is re-placed at the source and takes its fault at the
migrating instruction (14 R355). -/
def execMigrationRefused (tag : BitVec 16) (why : MigFail) (s : State) : Result :=
  match s.migOut.find? (fun m => m.tag = tag) with
  | none => .next s
  | some m =>
    if !s.migFailed m why then .next s
    else
      let x := m.slot
      let f : HeldFault := { cause := (migCause why).code, xpc := x.pc, xval := m.va, late := false, final := false }
      let y : Slot := { x with park := none, bound := { x.bound with late := some f } }
      let s1 : State := { s with migOut := s.migOut.filter (fun k => k.tag ≠ tag), away := alSet s.away x.sid y }
      .next ((s1.awayFrame x.sid 3).enterItem y.record y.pc y.record.hx.toNat y.record.hy.toNat 1 y.rmax)

/-- The faults of relaxed loads in a migration packet: a destination with its cause, and the address, two words each. -/
def packetLoads : List Word → List (RegName × HeldFault)
  | w :: a :: r =>
    let k := fld w 7 0
    ((if bitOf w 8 then .v k else .g k),
      { cause := BitVec.ofNat 16 (fld w 31 16), xpc := 0, xval := a, late := true, final := false }) :: packetLoads r
  | _ => []

/-- The fault still to be taken late that a migration packet carries. -/
def packetLate (w xpc xval : Word) : HeldFault :=
  { cause := w.setWidth 16, xpc := xpc, xval := xval, late := bitOf w 16, final := bitOf w 18 }

/-- The strand that a migration packet carries, before its frame is known: vector registers and p1 to p7 are zero
(14 R355). The words past the public ones carry what 12 R285 keeps private: the trap state, the pending floor fault, the
place as a logical process, a fault still to be taken late, and the faults of relaxed loads. -/
def packetSlot (p : MigPacket) : Slot :=
  let w := (List.range 8).map (fun k => p.record.extractLsb' (64 * k) 64)
  let sp (k : Nat) : Word := nthW p.special k
  let x : Slot :=
    { Slot.vacant with
      pc := addr57 (nthW w 0)
      record := { Rec.ofWords w with new := false }
      loops := List.replicate (p.loops.length / 2) { n := 0, start := 0, fin := 0 }
      status := { unwr := bitOf p.status 4, step := bitOf p.status 3, sbchk := bitOf p.status 2, trap := bitOf p.status 1,
                  exec := bitOf p.status 0 }
      xpc := sp 11, xsw := sp 12, xcause := (sp 13).setWidth 17, xval := sp 14
      xtmp := Vector.ofFn (fun i : Fin 4 => sp (15 + i.val))
      floorPend := if bitOf (sp 19) 63 then some ((sp 19).setWidth 32, fld (sp 19) 62 32) else none
      cpFail := BitVec.ofNat 8 (fld (sp 23) 63 56)
      lp := { Slot.vacant.lp with
        lpid := (sp 20).setWidth 32, lvt := sp 21, lpseq := sp 22, inc := (sp 23).setWidth 16, inh := bitOf (sp 23) 16
        hno := fld (sp 23) 55 17 }
      lateLoad := packetLoads (p.special.drop 27)
      bound := { Slot.vacant.bound with
        late := if bitOf (sp 24) 17 then some (packetLate (sp 24) (sp 25) (sp 26)) else none } }
  x.ofFrame ((List.range 32).map (nthW p.gregs) ++ List.replicate 28 0 ++ (List.range 11).map sp ++ p.loops)

/-- The destination can take a strand of a PID: a key, a pool and a frame in it (14 R355 step 4). -/
def State.canArrive (s : State) (pid : BitVec 12) : Option Nat :=
  let j := s.job pid
  match j.pool with
  | none => none
  | some pa => if j.key.isSome && decide (s.poolWord pa 16 ≠ 0) then some pa else none

/-- Take the next frame of a pool (14 R356). -/
def State.takeFrame (s : State) (pa : Nat) : Word × State :=
  let k := s.poolWord pa 8
  let f := addr57 (BitVec.ofNat 64 (leNat (memBytes s.mem (pa + 64 + 8 * k) 8)))
  (f, (s.setPoolWord pa 8 (if k + 1 < s.poolWord pa 0 then k + 1 else 0)).setPoolWord pa 16 (s.poolWord pa 16 - 1))

/-- The k-th router of the edge of the grid. -/
def edgeRouter (k : Nat) : Nat × Nat :=
  if k < 16 then (k, 0) else if k < 32 then (k - 16, 15) else if k < 46 then (0, k - 31) else (15, k - 45)

/-- A migration packet arrives: refused, known already, or its strand takes a frame of the pool and enters placement at the
fabric edge, with a hint near the target line; which router of the edge it is, is free (14 R355; assumption 4). -/
def execMigrationArrive (packet : MigPacket) (s : State) : Result :=
  let x0 := packetSlot packet
  let pid := x0.pid
  let back (t : State) : Result := .next (t.inject packet.src.toNat 0)
  if (s.replied packet.src packet.tag).isSome then back s
  else
    match s.canArrive pid with
    | none => back s
    | some pa =>
      let (f, s1) := s.takeFrame pa
      let c := s1.sliceRouter packet.target.toNat
      let x : Slot :=
        { x0 with
          record := { x0.record with frame := f, hx := BitVec.ofNat 4 c.1, hy := 7, hrad := 8 }
          pooled := some (s1.job pid).poolGen, rmax := 15 }
      let s2 := (s1.modJob pid (fun j => { j with count := j.count + 1 })).recordReply packet.src pid packet.tag []
      let s3 := ({ s2 with away := alSet s2.away x.sid x } : State).awayFrame x.sid 3
      let e := edgeRouter ((Config.freeWord s3.freeCtr).toNat % 60)
      let item : Item :=
        { record := x.record, pc := x.pc, x := e.1, y := e.2, radius := 8, rmax := 15, ring := none, ovq := none,
          taken := none, total := 1, since := s3.ticks, arrived := s3.nextArrival }
      back { s3 with items := s3.items ++ [item], freeCtr := s3.freeCtr + 1 }

/-! ## The frame pool (14 R356) -/

/-- A pool block is out of its limits. -/
def State.poolBad (s : State) (pa : Nat) : Bool :=
  let cap := s.poolWord pa 0
  decide (cap = 0) || decide (1048576 < cap) || decide (s.poolWord pa 4 ≠ 0) || decide (cap < s.poolWord pa 16) ||
    (memBytes s.mem (pa + 20) 44).any (fun b => decide (b ≠ 0)) ||
    (List.range (s.poolWord pa 16)).any (fun k => decide (2 ^ 57 ≤ leNat (memBytes s.mem (pa + 64 + 8 * k) 8)))

/-- A write of MPSET: 0 removes a registration; a block is checked and registered, or refused and recorded (14 R356). -/
def State.mpset (s : State) (v : Word) : State :=
  let pid := BitVec.ofNat 12 (fld v 63 52)
  let pa := 64 * fld v 51 6
  let others := s.jobs.filter (fun e => e.2.pool.isSome && decide (e.1 ≠ pid.toNat))
  if pa = 0 then s.modJob pid (fun j => { j with pool := none, poolGen := j.poolGen + 1 })
  else if 256 ≤ others.length || decide (s.region pa ≠ .hbm) || s.poolBad pa then s.note 0x19 pid v 0
  else
    let s1 := (s.setPoolWord pa 8 0).setPoolWord pa 12 (s.poolWord pa 16 % s.poolWord pa 0)
    s1.modJob pid (fun j => { j with pool := some pa, poolGen := j.poolGen + 1 })

/-- A write of MPSET (14 R356). -/
def execMpsetWrite (v : BitVec 64) (s : State) : Result := .next (s.mpset v)

end Sys2Proof.Machine
end

