-- ==== Sys2Proof/Machine/Coll.lean ====
section
/-!
DEFINITION. The collective engine (14 R368 to R374): descriptors and their checks, trees, chunk transfers and marks,
reductions, `coll` and `cstat`.
-/

namespace Sys2Proof.Machine

/-! ## The descriptor (14 R369) -/

/-- OP: 0 ALLREDUCE, 1 REDUCE, 2 BCAST. -/
def Coll.op (c : Coll) : Nat := fld c.d0 63 62
/-- FN: 0 SUM, 1 MIN, 2 MAX. -/
def Coll.fn (c : Coll) : Nat := fld c.d0 61 60
/-- TYPE: 0 FP32, 1 .i64, 2 .n64. -/
def Coll.ty (c : Coll) : Nat := fld c.d0 59 58
/-- FAST. -/
def Coll.fast (c : Coll) : Bool := bitOf c.d0 57
/-- KMAX. -/
def Coll.kmax (c : Coll) : Nat := fld c.d0 56 55 + 1
/-- CID. -/
def Coll.cid (c : Coll) : Nat := fld c.d0 47 32
/-- LEN. -/
def Coll.len (c : Coll) : Nat := fld c.d0 31 0
/-- DST. -/
def Coll.dst (c : Coll) : Nat := fld c.d1 61 32
/-- SRC. -/
def Coll.src (c : Coll) : Nat := fld c.d1 29 0
/-- ROOT. -/
def Coll.root (c : Coll) : Nat := fld c.d3 10 0
/-- Bytes of an element. -/
def Coll.elemBytes (c : Coll) : Nat := if c.ty = 0 then 4 else 8
/-- Chunks of 65,536 bytes, the last one shorter (14 R370). -/
def Coll.chunks (c : Coll) : Nat := (c.len + 65535) / 65536
/-- Bytes of chunk i. -/
def Coll.chunkLen (c : Coll) (i : Nat) : Nat := Nat.min 65536 (c.len - 65536 * i)
/-- The tile of the buffer whose governor gives leave: that of SRC. -/
def Coll.tile (c : Coll) : Nat := c.src / 2 ^ 24

/-- A buffer's extent lies within the banks of one tile. -/
def inBanks (a n : Nat) : Bool := decide (a + n ≤ 2 ^ 28) && decide (a / 2 ^ 24 = (a + n - 1) / 2 ^ 24)

/-- A field of the descriptor is outside its limits, a reserved bit is set, or SRC and DST overlap. -/
def Coll.bad (c : Coll) : Bool :=
  decide (c.op = 3) || decide (c.fn = 3) || decide (c.ty = 3) || (decide (c.op = 2) && decide (c.fn ≠ 0)) ||
    decide (fld c.d0 54 48 ≠ 0) || decide (c.len < 4) || decide (16777216 < c.len) || decide (c.len % c.elemBytes ≠ 0) ||
    decide (fld c.d1 63 62 ≠ 0) || decide (fld c.d1 31 30 ≠ 0) || decide (fld c.d2 63 57 ≠ 0) ||
    decide (fld c.d2 2 0 ≠ 0) || decide (fld c.d3 63 11 ≠ 0) || (decide (c.op = 0) && decide (c.root ≠ 0)) ||
    !inBanks c.src c.len || !inBanks c.dst c.len || overlaps c.src c.len c.dst c.len

/-- The slabs that the buffers touch. -/
def Coll.slabs (c : Coll) : List Owned := ownedIn c.src c.len ++ ownedIn c.dst c.len

/-- The requester number of the reading of a collective's member table. -/
def tableId (cid : Nat) : Nat := noStrand + 200000 + cid

/-- Read `n` doublewords of the member table from number `k` on, wherever they lie: none while another device's answer is
awaited (14 R349). -/
def State.memberWords (s : State) (c : Coll) (k : Nat) : Nat → Except Cause (Option (List Word)) × State
  | 0 => (.ok (some []), s)
  | n + 1 =>
    match s.engineRead (tableId c.cid) 0 c.pid c.exec (addr57 c.d2 + BitVec.ofNat 64 (8 * k)) 8 with
    | (.error e, s1) => (.error e, s1)
    | (.ok got, s1) =>
      match s1.memberWords c (k + 1) n with
      | (.error e, s2) => (.error e, s2)
      | (.ok rest, s2) =>
        (.ok (match got, rest with | some bs, some r => some (BitVec.ofNat 64 (leNat bs) :: r) | _, _ => none), s2)

/-- Halfword k of a list of doublewords. -/
def halfOf (l : List Word) (k : Nat) : Nat := (nthW l (k / 4)).toNat / 2 ^ (16 * (k % 4)) % 65536

/-- Strictly ascending. -/
def ascending : List Nat → Bool
  | a :: b :: r => decide (a < b) && ascending (b :: r)
  | _ => true

/-- The members that a table's words name: M in doubleword 0, then M halfwords; none where it breaks its limits
(14 R369). -/
def State.membersOf (s : State) (c : Coll) (m : Nat) (l : List Word) : Option (List Nat) :=
  let t := (List.range m).map (halfOf l)
  if ascending t && t.all (fun d => decide (d < 2048)) && t.contains s.plat.dev.toNat &&
      (decide (c.op = 0) || t.contains c.root) then some t
  else none

/-- The member table: none while an answer of another device is awaited, else its members where it keeps its limits
(14 R369). -/
def State.memberTable (s : State) (c : Coll) : Except Cause (Option (Option (List Nat))) × State :=
  match s.memberWords c 0 1 with
  | (.error e, s1) => (.error e, s1)
  | (.ok none, s1) => (.ok none, s1)
  | (.ok (some h), s1) =>
    let m := fld (nthW h 0) 11 0
    if fld (nthW h 0) 63 12 ≠ 0 || m = 0 || 2048 < m then (.ok (some none), s1)
    else
      match s1.memberWords c 1 ((m + 3) / 4) with
      | (.error e, s2) => (.error e, s2)
      | (.ok none, s2) => (.ok none, s2)
      | (.ok (some l), s2) => (.ok (some (s2.membersOf c m l)), s2)

/-! ## Trees (14 R370) -/

/-- A tree that grows: its nodes, edges and links, and the nodes still to be expanded. -/
structure TreeGrow where
  nodes : List Nat
  edges : List (Nat × Nat)
  links : List (Nat × Nat)
  queue : List Nat
  deriving DecidableEq, Repr

/-- Node `u` takes the members that a usable link of one of its ports reaches. -/
def State.expand (s : State) (members : List Nat) (used : List (Nat × Nat)) (u : Nat) (g : TreeGrow) (p : Nat) : TreeGrow :=
  match s.neighbour u p with
  | none => g
  | some v =>
    let n := linkName u p v
    if linkUp s.table n && !used.contains n && members.contains v && !g.nodes.contains v then
      { nodes := g.nodes ++ [v], edges := g.edges ++ [(u, v)], links := g.links ++ [n], queue := g.queue ++ [v] }
    else g

/-- Grow a tree until no node is left to expand. -/
def State.growTree (s : State) (members : List Nat) (used : List (Nat × Nat)) (g : TreeGrow) : Nat → TreeGrow
  | 0 => g
  | n + 1 =>
    match g.queue with
    | [] => g
    | u :: r => s.growTree members used ((List.range 8).foldl (s.expand members used u) { g with queue := r }) n

/-- The trees of a collective over the agreed table: root and edges of each. -/
def State.buildTrees (s : State) (c : Coll) (used : List (Nat × Nat)) (t : Nat) : Nat → List (Nat × List (Nat × Nat))
  | 0 => []
  | n + 1 =>
    let m := c.members.length
    let r := if c.op = 0 then c.members[t % m]?.getD 0 else c.root
    let g := s.growTree c.members used { nodes := [r], edges := [], links := [], queue := [r] } (m + 1)
    if g.nodes.length = m then (r, g.edges) :: s.buildTrees c (used ++ g.links) (t + 1) n
    else s.buildTrees c used (t + 1) n

/-- The tree of chunk i. -/
def Coll.treeOf (c : Coll) (i : Nat) : Nat × List (Nat × Nat) := c.trees[i % c.trees.length]?.getD (0, [])

/-- Insert into an ascending list. -/
def insertNat (k : Nat) : List Nat → List Nat
  | [] => [k]
  | n :: r => if k ≤ n then k :: n :: r else n :: insertNat k r

/-- Children of a node of a tree, in ascending device number. -/
def childrenOf (e : List (Nat × Nat)) (u : Nat) : List Nat :=
  ((e.filter (fun k => k.1 = u)).map (fun k => k.2)).foldl (fun l k => insertNat k l) []

/-- Parent of a node; none for the root. -/
def parentOf (e : List (Nat × Nat)) (u : Nat) : Option Nat := (e.find? (fun k => k.2 = u)).map (fun k => k.1)

/-! ## Reductions (14 R372, R373) -/

/-- DET mode of an FP32 SUM takes two passes. -/
def Coll.twoPass (c : Coll) : Bool := c.op ≠ 2 && c.fn = 0 && c.ty = 0 && !c.fast

/-- Number of the pass that gives the result: 2 of two, else 0. -/
def Coll.lastPass (c : Coll) : Nat := if c.twoPass then 2 else 0

/-- What pass 1 reduces of an element, packed: E [7:0], NaN [8], +∞ [9], −∞ [10], only −0 [11], smallest NaN payload
[37:16]. -/
def firstOf (x : Nat) : Word :=
  let e := x / 2 ^ 23 % 256
  let f := x % 2 ^ 23
  let neg := decide (x / 2 ^ 31 % 2 = 1)
  let nan := decide (e = 255) && decide (f ≠ 0)
  let inf := decide (e = 255) && decide (f = 0)
  packFields [(Nat.max e 1, 0), (b2n nan, 8), (b2n (inf && !neg), 9), (b2n (inf && neg), 10),
    (b2n (decide (x = 2 ^ 31)), 11), (if nan then f % 2 ^ 22 else 2 ^ 22 - 1, 16)]

/-- The reduction of pass 1. -/
def firstJoin (a b : Word) : Word :=
  packFields [(Nat.max (fld a 7 0) (fld b 7 0), 0), (Nat.max (fld a 8 8) (fld b 8 8), 8),
    (Nat.max (fld a 9 9) (fld b 9 9), 9), (Nat.max (fld a 10 10) (fld b 10 10), 10),
    (Nat.min (fld a 11 11) (fld b 11 11), 11), (Nat.min (fld a 37 16) (fld b 37 16), 16)]

/-- q_m of an element under E. -/
def quotaOf (big x : Nat) : Word :=
  let e := x / 2 ^ 23 % 256
  let f := x % 2 ^ 23
  if e = 255 then 0
  else
    let sig := if e = 0 then f else 2 ^ 23 + f
    let q : Nat := sig * 2 ^ 28 / 2 ^ (big - Nat.max e 1)
    if x / 2 ^ 31 % 2 = 1 then BitVec.ofInt 64 (-(q : Int)) else BitVec.ofNat 64 q

/-- The result of a DET sum from what both passes gave. -/
def sumResult (w1 s : Word) : Nat × BitVec 6 :=
  if bitOf w1 8 then (0x7FC00000 + fld w1 37 16, 0)
  else if bitOf w1 9 && bitOf w1 10 then (0x7FC00001, flagNV)
  else if bitOf w1 9 then (0x7F800000, 0)
  else if bitOf w1 10 then (0xFF800000, 0)
  else
    let v := s.toInt
    if v = 0 then (if bitOf w1 11 then 0x80000000 else 0, 0)
    else f32 0 (.num (decide (v < 0)) v.natAbs ((fld w1 7 0 : Int) - 178), 0)

/-- An FP32 value as MIN and MAX reduce it: a NaN with its payload alone. -/
def nanForm (x : Nat) : Nat := if (d32 x).isNan then 0x7FC00000 + x % 2 ^ 22 else x

/-- MIN or MAX of two FP32 values: the NaN of smallest payload, else the least or greatest with −0 below +0. -/
def f32Extreme (isMax : Bool) (a b : Nat) : Nat :=
  match (d32 a).isNan, (d32 b).isNan with
  | true, true => Nat.min a b
  | true, false => a
  | false, true => b
  | false, false => if ((d32 a).below (d32 b)) == isMax then b else a

/-- A member's own element in a pass; `first` is what pass 1 gave. -/
def Coll.own (c : Coll) (pass x : Nat) (first : Word) : Word :=
  if pass = 1 then firstOf x
  else if pass = 2 then quotaOf (fld first 7 0) x
  else if c.ty = 0 && c.fn ≠ 0 then BitVec.ofNat 64 (nanForm x)
  else BitVec.ofNat 64 x

/-- Two partials of an element. A FAST sum adds as 14 R373 says: where infinities of both signs meet before a NaN it gives the
NaN of 02 R63, although 19 R433 says that its example's result is that of DET (assumption 105). -/
def Coll.join (c : Coll) (pass : Nat) (a b : Word) : Word × BitVec 6 :=
  if pass = 1 then (firstJoin a b, 0)
  else if pass = 2 then (a + b, 0)
  else if c.ty = 0 then
    (if c.fn = 0 then let (r, f) := f32Add a.toNat b.toNat; (BitVec.ofNat 64 r, f)
     else (BitVec.ofNat 64 (f32Extreme (decide (c.fn = 2)) a.toNat b.toNat), 0))
  else if c.fn = 0 then (a + b, 0)
  else
    let less := if c.ty = 1 then a.slt b else a.ult b
    (if less == decide (c.fn = 2) then b else a, 0)

/-- Two lists of partials, element by element. -/
def Coll.joinAll (c : Coll) (pass : Nat) (a b : List Word × BitVec 6) : List Word × BitVec 6 :=
  let l := (List.zip a.1 b.1).map (fun e => c.join pass e.1 e.2)
  (l.map (fun e => e.1), l.foldl (fun f e => f ||| e.2) (a.2 ||| b.2))

/-! ## Chunks (14 R370) -/

/-- The collective engine runs or checks fewer than 16 collectives. -/
def State.collFree (s : State) : Bool :=
  decide (s.collQ.length + (s.colls.filter (fun e => decide (e.2.state ≠ 4))).length < 16)

/-- A collective by CID. -/
def State.coll (s : State) (cid : Nat) : Option Coll := alGet s.colls cid
/-- Replace it. -/
def State.setColl (s : State) (cid : Nat) (c : Coll) : State := { s with colls := alSet s.colls cid c }

/-- The elements of chunk i at an address. -/
def State.chunkElems (s : State) (c : Coll) (i a : Nat) : List Nat :=
  (List.range (c.chunkLen i / c.elemBytes)).map (fun j =>
    leNat (s.spRead (a + 65536 * i + c.elemBytes * j) c.elemBytes))

/-- The engine consumes chunk i at an address (15 R389). -/
def State.chunkInput (s : State) (c : Coll) (i a : Nat) : State := s.consume none c.pid (spBase (a + 65536 * i)) (c.chunkLen i)

/-- DST takes the result of chunk i. -/
def State.chunkWrite (s : State) (c : Coll) (i : Nat) (l : List Word) : State :=
  s.spWrite (c.dst + 65536 * i) (l.flatMap (fun w => natLe c.elemBytes w.toNat))

/-- A transfer of a chunk, pass, direction and sender that stands in the inbox. -/
def Coll.got (c : Coll) (i pass : Nat) (down : Bool) (dev : Nat) : Option ChunkXfer :=
  c.inbox.find? (fun x => decide (x.chunk = i) && decide (x.pass = pass) && x.down == down && decide (x.dev.toNat = dev))

/-- Some transfer of a chunk came down in a pass. -/
def Coll.gotDown (c : Coll) (i pass : Nat) : Option ChunkXfer :=
  c.inbox.find? (fun x => decide (x.chunk = i) && decide (x.pass = pass) && x.down)

/-- Mark of chunk i. -/
def Coll.mark (c : Coll) (i : Nat) : Nat := c.marks[i]?.getD 0
/-- Raise a mark. -/
def Coll.raise (c : Coll) (i m : Nat) : Coll := { c with marks := c.marks.set i (Nat.max (c.mark i) m) }

/-- An own transfer is made: it stands in the inbox as made, and leaves for every destination. -/
def State.chunkSend (s : State) (c : Coll) (x : ChunkXfer) (dests : List Nat) : State × Coll :=
  (dests.foldl (fun (t : State) d => t.inject d (8 * x.elems.length)) s,
   { c with inbox := c.inbox ++ [x], outbox := c.outbox ++ dests.map (fun d => (d, x)) })

/-- The partial of a node: its own elements, then each child's in ascending device number; none until every child's has
come. -/
def State.partialOf (s : State) (c : Coll) (i pass : Nat) (kids : List Nat) (first : List Word) : Option (List Word × BitVec 6) :=
  let parts := kids.map (fun k => c.got i pass false k)
  if parts.any (fun p => p.isNone) then none
  else
    let own := (s.chunkElems c i c.src).zipIdx.map (fun e => c.own pass e.1 (nthW first e.2))
    some (parts.foldl (fun a p => match p with | some x => c.joinAll pass a (x.elems, 0) | none => a) (own, 0))

/-- The result of a chunk at the root of its tree from the partial of the last pass. -/
def Coll.result (c : Coll) (first : List Word) (p : List Word × BitVec 6) : List Word × BitVec 6 :=
  if c.twoPass then
    let l := p.1.zipIdx.map (fun e => sumResult (nthW first e.2) e.1)
    (l.map (fun e => BitVec.ofNat 64 e.1), l.foldl (fun f e => f ||| e.2) p.2)
  else p

/-- One pass of the up phase of a chunk at this member, if every child's partial has come and it is not made yet. -/
def State.upPass (s : State) (c : Coll) (i pass : Nat) : State × Coll :=
  let me := s.plat.dev.toNat
  let (root, edges) := c.treeOf i
  let first := match c.gotDown i 1 with | some x => x.elems | none => []
  let mine (down : Bool) (l : List Word) : ChunkXfer :=
    { chunk := i, dev := s.plat.dev, version := c.version, down := down, pass := pass, elems := l, aux := [] }
  if (c.got i pass false me).isSome || (pass = 2 && (c.gotDown i 1).isNone) then (s, c)
  else
    match s.partialOf c i pass (childrenOf edges me) first with
    | none => (s, c)
    | some p =>
      let s := s.chunkInput c i c.src
      let c1 : Coll := { c with flags := c.flags ||| p.2 }
      if me ≠ root then s.chunkSend c1 (mine false p.1) (match parentOf edges me with | some u => [u] | none => [])
      else
        let c2 : Coll := { c1 with inbox := c1.inbox ++ [mine false p.1] }
        if pass = 1 then s.chunkSend c2 (mine true p.1) (childrenOf edges me)
        else
          let (r, f) := c.result first p
          let c3 : Coll := { c2 with flags := c2.flags ||| f }
          let s1 := s.chunkWrite c i r
          if c.op = 1 then (s1, c3.raise i 1) else s1.chunkSend (c3.raise i 2) (mine true r) (childrenOf edges me)

/-- A result, or what pass 1 gave, came down: DST takes a result it does not hold, and it goes on along the tree. -/
def State.downPass (s : State) (c : Coll) (i pass : Nat) : State × Coll :=
  let me := s.plat.dev.toNat
  let edges := (c.treeOf i).2
  match c.gotDown i pass with
  | none => (s, c)
  | some x =>
    if (c.got i pass true me).isSome then (s, c)
    else
      let write := pass = c.lastPass && decide (c.mark i < 2)
      let s1 := if write then s.chunkWrite c i x.elems else s
      let c1 := if write then c.raise i 2 else c
      let next := (childrenOf edges me ++ (match parentOf edges me with | some u => [u] | none => [])).filter
        (fun d => decide (d ≠ x.dev.toNat) && (pass = c.lastPass || (childrenOf edges me).contains d))
      s1.chunkSend c1 { x with dev := s.plat.dev } next

/-- The root of a broadcast sends a chunk of its SRC that no member holds yet. -/
def State.castChunk (s : State) (c : Coll) (i : Nat) : State × Coll :=
  let me := s.plat.dev.toNat
  let (root, edges) := c.treeOf i
  if me ≠ root || (c.got i 0 true me).isSome || 2 ≤ c.mark i then (s, c)
  else
    let s := s.chunkInput c i c.src
    let l := (s.chunkElems c i c.src).map (BitVec.ofNat 64)
    (s.chunkWrite c i l).chunkSend (c.raise i 2)
      { chunk := i, dev := s.plat.dev, version := c.version, down := true, pass := 0, elems := l, aux := [] }
      (childrenOf edges me)

/-- Everything that this member can do for a chunk now. -/
def State.chunkRun (s : State) (c : Coll) (i : Nat) : State × Coll :=
  if c.op = 2 then
    let a := s.castChunk c i
    a.1.downPass a.2 i 0
  else
    let a := if c.twoPass then s.upPass c i 1 else (s, c)
    let b := if c.twoPass then a.1.downPass a.2 i 1 else a
    let d := b.1.upPass b.2 i c.lastPass
    d.1.downPass d.2 i c.lastPass

/-! ## The end of a collective (14 R369, R370) -/

/-- The parts of an extent of scratchpad that lie in slabs owned by code 4, slab by slab: address and length. -/
def State.heldParts (s : State) (a n : Nat) : List (Nat × Nat) :=
  (List.range ((a + n - 1) / 16384 - a / 16384 + 1)).filterMap (fun k =>
    let lo := Nat.max a ((a / 16384 + k) * 16384)
    let hi := Nat.min (a + n) ((a / 16384 + k + 1) * 16384)
    if (ownedIn lo (hi - lo)).all (fun o => decide (s.ownerGet o = 4)) then some (lo, hi - lo) else none)

/-- DST chunks that hold no result of a collective that fails after it has begun to run hold unspecified values, here free
ones; a slab that is no longer owned by code 4 is not touched. -/
def State.chunksOpen (s : State) (c : Coll) : State :=
  ((List.range c.marks.length).filter (fun i => decide (c.mark i < 2))).foldl (fun (t : State) i =>
    (t.heldParts (c.dst + 65536 * i) (c.chunkLen i)).foldl (fun (u : State) e =>
      { u.spWrite e.1 (freeBytes u.freeCtr e.2) with freeCtr := u.freeCtr + e.2 }) t) s

/-- Room in the engine: the strand that has waited longest has its collective taken and goes on (14 R368). -/
def State.collRoom (s : State) : State :=
  match s.oldestParked (fun p => match p with | .collQueue _ _ _ _ => true | _ => false) with
  | none => s
  | some (n, x) =>
    match x.park with
    | some (.collQueue d0 d1 d2 d3) =>
      let c : Coll :=
        { strand := x.sid, pid := x.pid, exec := x.status.exec, d0 := d0, d1 := d1, d2 := d2, d3 := d3, state := 1,
          status := 0, cancel := false, members := [], trees := [], restarts := 0, version := 0, marks := [], asked := 0,
          granted := 0, flags := 0, inbox := [], outbox := [] }
      let old : List (Nat × Coll) := s.colls.filter (fun e => !(decide (e.1 = c.cid) && decide (e.2.state = 4)))
      ({ s with colls := old, collQ := s.collQ ++ [c] } : State).modSlot n (fun y => y.finish 4 y.parkSh)
    | _ => s

/-- A collective ends with a status: its slabs that code 4 owns flip to 0, and its flags go to the sketchbook. -/
def State.collEnd (s : State) (c : Coll) (st : Nat) (shown : Bool) : State :=
  let s1 := if st ≠ 0 && 2 ≤ c.state.toNat then s.chunksOpen c else s
  let s2 := if shown then
      s1.setColl c.cid { c with state := 4, status := BitVec.ofNat 8 st, inbox := [], outbox := [] }
    else s1
  let s3 := s2.flipOwned c.slabs 4 0
  (if st = 0 then s3.noteEngine 0x0F c.pid (BitVec.ofNat 64 c.cid) (c.flags.setWidth 64) else s3).collRoom

/-! ## Running (14 R370) -/

/-- The engine may act on a collective's buffers: code 4 still owns every slab they touch (01 R14). -/
def State.collHolds (s : State) (c : Coll) : Bool := c.slabs.all (fun o => decide (s.ownerGet o = 4))

/-- Everything that this member can do for the chunks it has leave for. A collective whose slabs another one's end has flipped
away writes nothing more and ends with OWNER (01 R14; assumption 39). -/
def State.collRun (s : State) (cid : Nat) : State :=
  match s.coll cid with
  | none => s
  | some c =>
    if c.state ≠ 2 then s
    else if !s.collHolds c then s.collEnd c 3 true
    else
      let r := (List.range c.granted).foldl (fun (a : State × Coll) i => a.1.chunkRun a.2 i) (s, c)
      r.1.setColl cid r.2

/-- Ask leave for the next chunk once that of the one before is granted (14 R370; 15 R399). -/
def State.collLeave (s : State) (cid : Nat) : Nat → State
  | 0 => s
  | n + 1 =>
    match s.coll cid with
    | none => s
    | some c =>
      if c.state ≠ 2 || c.asked ≠ c.granted || c.chunks ≤ c.asked then s
      else
        let (ok, s1) := s.askLeave c.tile c.pid 2
        if ok then (s1.setColl cid { c with asked := c.asked + 1, granted := c.granted + 1 }).collLeave cid n
        else s1.setColl cid { c with asked := c.asked + 1 }

/-- The engine goes on with a collective. -/
def State.collGo (s : State) (cid : Nat) : State := (s.collLeave cid 257).collRun cid

/-! ## Joining (14 R369, R370) -/

/-- A bank that the buffers touch is not in scratchpad mode or is another PID's. -/
def State.collForeign (s : State) (c : Coll) : Bool :=
  c.slabs.any (fun o =>
    match o with
    | .slab t n => decide (((s.tile t).bank (n / 64)).mode ≠ 1) || decide (((s.tile t).bank (n / 64)).pid ≠ c.pid)
    | .half _ _ => true)

/-- The start checks of a collective before its table is read: CANCEL, BADDESC, CIDBUSY (14 R369). -/
def State.collEarly (s : State) (c : Coll) : Option Nat :=
  if c.cancel then some 7
  else if c.bad then some 10
  else if (match s.coll c.cid with | some k => decide (k.state ≠ 4) | none => false) then some 16
  else none

/-- The start checks of a collective: none while its member table is being read from another device, else a status or its
members (14 R369). -/
def State.collCheck (s : State) (c : Coll) : Option (Except Nat (List Nat)) × State :=
  match s.collEarly c with
  | some st => (some (.error st), s)
  | none =>
    match s.memberTable c with
    | (.error _, s1) => (some (.error 2), s1)
    | (.ok none, s1) => (none, s1)
    | (.ok (some none), s1) => (some (.error 10), s1)
    | (.ok (some (some m)), s1) =>
      (some (if s1.collForeign c then .error 4 else if !s1.collHolds c then .error 3 else .ok m), s1)

/-- The engine makes the start checks of the oldest collective of a CID (14 R369). A second one of a CID that runs ends with
CIDBUSY, which `cstat` shows nowhere: it goes on showing the one that runs (assumption 104). -/
def execCollStart (cid : BitVec 16) (s : State) : Result :=
  match s.collQ.find? (fun c => decide (c.cid = cid.toNat)) with
  | none => .next s
  | some c =>
    match s.collCheck c with
    | (none, s1) => .next s1
    | (some r, s1) =>
      let s2 : State := { s1.remoteEnd (fun q => decide (q.strand = tableId c.cid)) with collQ := s1.collQ.erase c }
      match r with
      | .error st => .next (s2.collEnd c st (st ≠ 16 && (match s2.coll c.cid with | some k => decide (k.state = 4) | none => true)))
      | .ok m => .next (s2.setColl c.cid { c with members := m, marks := List.replicate c.chunks 0 })

/-- The transfers received that belong to a table. -/
def Coll.current (c : Coll) (v : Nat) : List ChunkXfer := c.inbox.filter (fun x => decide (x.version = v))

/-- Every member has joined: digests are compared, trees are built, chunks begin (14 R369, R370). -/
def execCollJoined (cid : BitVec 16) (digestsEqual : Bool) (s : State) : Result :=
  match s.coll cid.toNat with
  | none => .next s
  | some c =>
    if c.state ≠ 1 || s.changing then .next s
    else if c.cancel then .next (s.collEnd c 7 true)
    else if !digestsEqual then .next (s.collEnd c 13 true)
    else
      let tr := s.buildTrees c [] 0 c.kmax
      if tr.isEmpty then .next (s.collEnd c 17 true)
      else
        .next ((s.setColl c.cid { c with state := 2, trees := tr, version := s.agreed, inbox := c.current s.agreed }).collGo c.cid)

/-- A chunk transfer of the agreed table arrives: it is acknowledged and the engine goes on, or keeps it until the trees
stand; one that has ended needs it no more; while the table is changing, or of another table, it is discarded (14 R370). -/
def execChunkReceive (cid : BitVec 16) (xfer : ChunkXfer) (s : State) : Result :=
  match s.coll cid.toNat with
  | none => .next s
  | some c =>
    if s.changing || decide (xfer.version ≠ s.agreed) then .next s
    else
      let s1 := s.inject xfer.dev.toNat 0
      if decide (c.state = 4) || (c.got xfer.chunk xfer.pass xfer.down xfer.dev.toNat).isSome then .next s1
      else .next ((s1.setColl c.cid { c with inbox := c.inbox ++ [xfer] }).collRun c.cid)

/-- An acknowledgement arrives: the transfer to its sender is done, and a contribution that its parent has is UPDONE
(14 R370). -/
def execChunkAckReceive (cid : BitVec 16) (chunk : Nat) (dev : BitVec 11) (version : Nat) (s : State) : Result :=
  match s.coll cid.toNat with
  | none => .next s
  | some c =>
    if s.changing || decide (version ≠ c.version) then .next s
    else
      match c.outbox.find? (fun e => decide (e.1 = dev.toNat) && decide (e.2.chunk = chunk)) with
      | none => .next s
      | some e =>
        let c1 : Coll := { c with outbox := c.outbox.erase e }
        .next (s.setColl c.cid (if !e.2.down && decide (e.2.pass = c.lastPass) then c1.raise chunk 1 else c1))

/-- Every chunk of this member is where the completion wave may pass: DOWNDONE, or for REDUCE UPDONE at ROOT (14 R370). -/
def Coll.ready (c : Coll) (me : Nat) : Bool :=
  if c.op = 1 then decide (me ≠ c.root) || c.marks.all (fun m => decide (1 ≤ m)) else c.marks.all (fun m => decide (2 ≤ m))

/-- A collective that has ended with OK: its module still does its part for those that have not heard of the end (14 R370). -/
def Coll.over (c : Coll) : Bool := decide (c.state = 4) && decide (c.status = 0)

/-- The wave has passed this member: chunks COMPLETE, status OK, slabs flipped; one that had ended already only stays so. -/
def State.wavePassed (s : State) (c : Coll) : State :=
  if c.over then s.setColl c.cid c else s.collEnd { c with marks := c.marks.map (fun _ => 3) } 0 true

/-- Parts of the wave go to some members. -/
def State.waveSend (s : State) (l : List Nat) : State := l.foldl (fun (t : State) d => t.inject d 0) s

/-- What this member does for the completion wave on tree 0: once it is ready and each child's part has come it sends its own
up; the root then sends the end down, and each member that it reaches passes it on (14 R370; assumption 106). -/
def State.waveGo (s : State) (cid : Nat) : State :=
  match s.coll cid with
  | none => s
  | some c =>
    let me := s.plat.dev.toNat
    if s.changing || decide (c.version ≠ s.agreed) || !(c.over || (decide (c.state = 2) && c.ready me)) then s
    else
      let edges := (c.treeOf 0).2
      let kids := childrenOf edges me
      let up := !c.waved && kids.all (fun k => c.waves.contains (k, false))
      match parentOf edges me with
      | none => if up then (s.waveSend kids).wavePassed { c with waved := true } else s
      | some p =>
        let s1 := if up then (s.waveSend [p]).setColl c.cid { c with waved := true } else s
        let c1 : Coll := if up then { c with waved := true } else c
        if c.waves.contains (p, true) then (s1.waveSend kids).wavePassed { c1 with waves := c.waves.erase (p, true) } else s1

/-- A part of the wave that arrives is kept, unless the table is changing or it belongs to another one (14 R370; 19 R431). -/
def State.waveIn (s : State) (c : Coll) (m : BitVec 11 × Bool × Nat) : State :=
  if s.changing || decide (m.2.2 ≠ s.agreed) || c.waves.contains (m.1.toNat, m.2.1) then s
  else s.setColl c.cid { c with waves := c.waves ++ [(m.1.toNat, m.2.1)] }

/-- The completion wave goes on at this member, with a part of it that arrives; a cancelled collective ends here with CANCEL
(14 R369, R370). -/
def execCompletionWave (cid : BitVec 16 × Option (BitVec 11 × Bool × Nat)) (s : State) : Result :=
  match s.coll cid.1.toNat with
  | none => .next s
  | some c =>
    if c.cancel && decide (c.state ≠ 4) then .next (s.collEnd c 7 true)
    else
      let s1 := match cid.2 with | some m => s.waveIn c m | none => s
      .next (s1.waveGo c.cid)

/-! ## Restarts (14 R370) -/

/-- The link table begins to change: a running collective stops until it is agreed, and every one that has not ended has met
one change more; what it has received of the old table is discarded (14 R370, R371). -/
def State.collsStop (s : State) : State :=
  let stop (c0 : Coll) : Coll :=
    let c : Coll := { c0 with waves := [], waved := false }
    if c.state = 4 then c
    else { c with state := if c.state = 2 then 3 else c.state, restarts := Nat.min 255 (c.restarts + 1), inbox := [], outbox := [] }
  { s with colls := s.colls.map (fun e => (e.1, stop e.2)) }

/-- The lowest-numbered member whose vector holds a chunk at DOWNDONE. -/
def holderOf (marks : List (Nat × List Nat)) (i : Nat) : Option Nat :=
  marks.foldl (fun a e =>
    if e.2[i]?.getD 0 < 2 then a else match a with | none => some e.1 | some d => some (Nat.min d e.1)) none

/-- What a restart does with one chunk: a holder sends its result along the new tree; without one it is PENDING again. -/
def State.restartChunk (s : State) (marks : List (Nat × List Nat)) (c : Coll) (i : Nat) : State × Coll :=
  let me := s.plat.dev.toNat
  let edges := (c.treeOf i).2
  match holderOf marks i with
  | none => (s, { c with marks := c.marks.set i 0 })
  | some d =>
    -- the chunk is not reduced again: the own contributions count as made
    let made : List ChunkXfer := [0, 1, 2].map (fun p =>
      { chunk := i, dev := s.plat.dev, version := c.version, down := false, pass := p, elems := [], aux := [] })
    let c1 : Coll := { c with inbox := c.inbox ++ made }
    if d ≠ me then (s, c1)
    else
      let s := s.chunkInput c i c.dst
      s.chunkSend c1
        { chunk := i, dev := s.plat.dev, version := c.version, down := true, pass := c.lastPass,
          elems := (s.chunkElems c i c.dst).map (BitVec.ofNat 64), aux := [] }
        (childrenOf edges me ++ (match parentOf edges me with | some u => [u] | none => []))

/-- The mark vector of every other member has come, of as many chunks as the collective has. -/
def State.allMarks (s : State) (c : Coll) (marks : List (BitVec 11 × List Nat)) : Bool :=
  c.members.all (fun m => decide (m = s.plat.dev.toNat) || marks.any (fun e => decide (e.1.toNat = m) && decide (e.2.length = c.chunks)))

/-- The own mark vector goes to every other member. -/
def State.marksSend (s : State) (c : Coll) : State :=
  (c.members.filter (fun m => decide (m ≠ s.plat.dev.toNat))).foldl (fun (t : State) d => t.inject d c.chunks) s

/-- The new table is agreed: the members exchange their mark vectors; one that has ended with OK derives the trees anew, for its
part in the wave (14 R370). -/
def State.collsAgree (s : State) : State :=
  s.colls.foldl (fun (t : State) e =>
    let c := e.2
    if c.state = 3 then t.marksSend c
    else if c.over then
      ((t.marksSend c).setColl e.1 { c with trees := t.buildTrees c [] 0 c.kmax, version := t.agreed }).waveGo e.1
    else t) s

/-- Once every mark vector under the new table has come, trees are rebuilt and each chunk goes on or is done again; a member
that is lost ends the collective with MEMBER, also while it waits for members to join (14 R369, R370). -/
def execCollRestart (cid : BitVec 16) (marks : List (BitVec 11 × List Nat)) (s : State) : Result :=
  match s.coll cid.toNat with
  | none => .next s
  | some c =>
    if (c.state ≠ 1 && c.state ≠ 3) || s.changing then .next s
    else if c.cancel then .next (s.collEnd c 7 true)
    else if c.members.any (fun d => decide (d ≠ s.plat.dev.toNat) && !s.reach d) then .next (s.collEnd c 15 true)
    else if c.state = 1 || !s.allMarks c marks then .next s
    else if !s.collHolds c then .next (s.collEnd c 3 true)
    else
      let tr := s.buildTrees c [] 0 c.kmax
      if tr.isEmpty then .next (s.collEnd c 17 true)
      else
        let c1 : Coll := { c with state := 2, trees := tr, version := s.agreed, inbox := c.current s.agreed, outbox := [] }
        let all : List (Nat × List Nat) := (s.plat.dev.toNat, c.marks) :: marks.map (fun e => (e.1.toNat, e.2))
        let r := (List.range c.chunks).foldl (fun (a : State × Coll) i => a.1.restartChunk all a.2 i) (s, c1)
        .next ((r.1.setColl c.cid r.2).collGo c.cid)

/-- A skid-mode group with a part of a chunk transfer has failed its tag (14 R360): the chunk is done again from its mark, on
the same trees, once the transfer has come again. A result that came with it does not stand. -/
def State.chunkAgain (s : State) (cid : Nat) (x : ChunkXfer) : State :=
  match s.coll cid with
  | none => s
  | some c =>
    if c.state ≠ 2 || c.fast || decide (x.version ≠ c.version) then s
    else
      let mine (y : ChunkXfer) : Bool :=
        decide (y.chunk = x.chunk) && (decide (y.dev = s.plat.dev) || (decide (y.dev = x.dev) && decide (y.pass = x.pass) && y.down == x.down))
      let m := if x.down && decide (c.mark x.chunk = 2) && (c.gotDown x.chunk x.pass).any (fun y => decide (y.dev = x.dev)) then 0 else c.mark x.chunk
      let c1 : Coll :=
        { c with marks := c.marks.set x.chunk m
                 inbox := if m < 2 then c.inbox.filter (fun y => !mine y) else c.inbox
                 outbox := if m < 2 then c.outbox.filter (fun e => !decide (e.2.chunk = x.chunk)) else c.outbox }
      (s.setColl cid c1).collRun cid

/-! ## The vanishing-point reduction (13 R333; 14 R374) -/

/-- The devices of a job's DMAP in ascending order (13 R316). -/
def State.vpMembers (s : State) (pid : BitVec 12) : List Nat :=
  (List.range ((s.lpMax pid - 1) / 2 ^ 20 + 1)).foldl (fun l k =>
    setInsert l (match s.lpDevice pid (BitVec.ofNat 32 (k * 2 ^ 20)) with | some d => d.toNat | none => s.plat.dev.toNat)) []

/-- Tree 0 over those devices, rooted at the lowest-numbered: its edges, none where no tree spans them. -/
def State.vpTree (s : State) (pid : BitVec 12) : Option (List (Nat × Nat)) :=
  let m := s.vpMembers pid
  let r := m.headD 0
  let g := s.growTree m [] { nodes := [r], edges := [], links := [], queue := [r] } (m.length + 1)
  if g.nodes.length = m.length then some g.edges else none

/-- The groups of CTRL class that this device sends for a reduction along a tree: its partial to its parent, and the result to
its children. -/
def State.vpSend (s : State) (edges : List (Nat × Nat)) : State :=
  let me := s.plat.dev.toNat
  (childrenOf edges me ++ (parentOf edges me).toList).foldl (fun (t : State) d => t.inject d 24) s

/-- A fabric round (13 R333; 14 R374): the fabric colour flips; after a device round the reduction over tree 0 gives what the
job's other devices report of theirs, namely the least G, the least term without LVTs of held faults (13 R339), and the sum of
old fabric messages. With the sum 0 it publishes VPT; otherwise the round is to be repeated. -/
def execFabricVpRound (pid : BitVec 12) (others : BitVec 64 × BitVec 64) (othersSum : Int) (s : State) : Result :=
  let j := s.job pid
  if j.vjb.isNone || addr57 (s.vjbWord pid 12) = 0 then .next s
  else
    match j.fround with
    | 0 => .next (s.setJob pid { j with fround := 1, fcolour := !j.fcolour, fmred := none })
    | 2 =>
      match (if s.changing then none else s.vpTree pid) with
      | none => .next s
      | some e =>
        let s0 := s.vpSend e
        if othersSum + j.gsum ≠ 0 then .next (s0.setJob pid { j with fround := 3 })
        else
          let red := match j.fmred with | some m => m.toNat | none => 2 ^ 64 - 1
          let s1 := s0.setJob pid { j with fround := 0, fmred := none }
          .next (s1.publish pid (Nat.min (Nat.min j.gmin.toNat red) others.1.toNat)
            (Nat.min (Nat.min j.gfree.toNat red) others.2.toNat))
    | _ => .next s

/-- A fabric round that did not balance repeats with the same colour, from a new device round on, so that minimum and sum are of
one moment (13 R333; 01 R24). -/
def execFabricVpRetry (pid : BitVec 12) (s : State) : Result :=
  if (s.job pid).fround = 3 then .next (s.modJob pid (fun j => { j with fround := 1 })) else .next s

/-! ## Instructions (14 R368, R371, R375) -/

/-- `coll` (14 R368). -/
def execColl (a : BitVec 5) (h : BitVec 2) (s : State) : Result :=
  let ga := s.hart.getG a
  s.issue Need.access
    (if ga.toNat % 32 ≠ 0 then s.raise .maln ga
     else if 0x3FFE0 < ga.toNat then s.raise .lsrange ga
     else
       let s1 := (s.beforeAccess true).releaseActions s.hid 1
       let w := bytesWords (s1.localRead ga.toNat 32) 4
       let s2 := s1.parkAt h (.collQueue (nthW w 0) (nthW w 1) (nthW w 2) (nthW w 3))
       if s2.collFree then .next s2.collRoom else .next s2)

/-- What `cstat` returns of a collective (14 R371). -/
def Coll.word (c : Coll) : Word :=
  packFields [(c.state.toNat, 56), (c.status.toNat, 48), (c.trees.length, 40), (c.restarts, 32),
    ((c.marks.filter (fun m => decide (2 ≤ m))).length, 16), (c.chunks, 0)]

/-- `cstat` (14 R371). -/
def execCstat (d a : BitVec 5) (h : BitVec 2) (s : State) : Result :=
  let ga := s.hart.getG a
  s.issue Need.access
    (if fld ga 63 16 ≠ 0 then s.raise .collarg 0
     else
       let cid := fld ga 15 0
       let v : Word :=
         match s.coll cid with
         | some c => c.word
         | none => match s.collQ.find? (fun c => decide (c.cid = cid)) with | some c => c.word | none => 0
       (s.beforeAccess false).doneG h d v)

end Sys2Proof.Machine
end

