-- ==== Sys2Proof/Machine/Ports.lean ====
section
/-!
DEFINITION. Fabric ports: groups and NAKs (14 R358 to R360), training, health and narrowing (14 R362 to R364; 16 R413),
laser power states and the switch-over (14 R365, R366; 01 R7), and the link table (14 R367).
-/

namespace Sys2Proof.Machine

/-! ## Link records (14 R367) -/

/-- Version order of two records of a link: (epoch, reporter). -/
def newer (a b : LinkRec) : Bool :=
  decide (b.epoch < a.epoch) || (decide (a.epoch = b.epoch) && decide (b.reporter.toNat < a.reporter.toNat))

/-- The held record of a link. -/
def State.linkRec (s : State) (n : Nat × Nat) : Option LinkRec :=
  s.links.find? (fun l => decide (l.dev.toNat = n.1) && decide (l.port.toNat = n.2))

/-- A port's link stands: UP, frozen for a negotiation, or with its transmit direction asleep (14 R364, R365). -/
def Port.stands (p : Port) : Bool := decide (p.state = 2) || decide (p.state = 3) || decide (p.state = 4)

/-- A new record: the table is changing, running collectives stop, and the record is flooded on every UP link. -/
def State.takeRecord (s : State) (r : LinkRec) : State :=
  let s0 := if s.changing then s else s.collsStop
  let s1 : State :=
    { s0 with links := s.links.filter (fun l => !(l.dev = r.dev && l.port = r.port)) ++ [r], changing := true, lastRec := s.ticks }
  let flood (p : Port) : Port := if p.stands then (p.enqueue everyone 1).pump else p
  { s1 with ports := s1.ports.map flood }

/-- This module reports a change of the link at a port by raising the epoch. -/
def State.report (s : State) (port : Nat) (up : Bool) : State :=
  let me := s.plat.dev.toNat
  match s.neighbour me port with
  | none => s
  | some v =>
    let n := linkName me port v
    let e := match s.linkRec n with | some l => l.epoch + 1 | none => 1
    if (match s.linkRec n with | some l => l.up == up | none => false) then s
    else
      s.takeRecord { dev := BitVec.ofNat 11 n.1, port := BitVec.ofNat 3 n.2, up := up, epoch := e, reporter := s.plat.dev }

/-- A flooded record arrives: a higher version replaces the held one and is flooded on. -/
def execLinkRecordReceive (record : LinkRec) (s : State) : Result :=
  match s.linkRec (record.dev.toNat, record.port.toNat) with
  | some l => if newer record l then .next (s.takeRecord record) else .next s
  | none => .next (s.takeRecord record)

/-- A job's fabric round in progress is abandoned and restarts with VPT unchanged (13 R333). -/
def State.abandonFabric (s : State) : State :=
  (s.jobs.filter (fun e => decide (2 ≤ e.2.fround))).foldl (fun (t : State) e =>
    let pid := BitVec.ofNat 12 e.1
    (t.modJob pid (fun j => { j with fround := 1 })).note 0x08 pid 0 0) s

/-- Every neighbour on an UP link has sent this digest of the table. -/
def State.sameDigest (s : State) (digest : BitVec 64) (theirs : List (Nat × BitVec 64)) : Bool :=
  (List.range 8).all (fun p =>
    match s.ports[p]? with | some k => !k.stands || theirs.contains (p, digest) | none => true)

/-- The groups of a port whose link is gone, which no port may lose: they wait for a route, but those that every neighbour
gets (14 R361, R366). -/
def State.leaveGroups (s : State) (port : Nat) : State :=
  match s.ports[port]? with
  | none => s
  | some p =>
    ({ s with reroute := s.reroute ++ (p.unacked.map Prod.snd).filter (fun d => decide (d ≠ everyone)) } : State).modPort port
      (fun k => { k with unacked := [], out := 0 })

/-- The same for every port whose link does not stand. -/
def State.leaveFallen (s : State) : State :=
  (List.range 8).foldl (fun (t : State) k =>
    match t.ports[k]? with
    | some p => if p.stands then t else t.leaveGroups k
    | none => t) s

/-- The table is agreed, 50 µs after the newest record and with the own digest come from every UP neighbour: routes follow the
new table, groups left behind among them, FABCHG is raised, and a fabric round in progress is abandoned (14 R361, R367;
13 R333). The version of the agreed table that collective traffic carries is this device's count of agreements, a form that
19 R431 does not give (assumption 102). `digests` are the own one and those that
the ports have received. -/
def execTableAgree (digests : BitVec 64 × List (Nat × BitVec 64)) (s : State) : Result :=
  if !s.changing || decide (s.ticks < s.lastRec + 100000) || !s.sameDigest digests.1 digests.2 then .next s
  else
    let s1 : State := { s with table := s.links, agreed := s.agreed + 1, changing := false }
    .next ((s1.abandonFabric.leaveFallen.sendRerouted.collsAgree).execEvent 0 0x0E (fld digests.1 47 0) 0)

/-! ## Groups (14 R358 to R360) -/

/-- The types of a slot (14 R358). -/
inductive SlotType where
  | data | trailer | idle | ctrl
  deriving DecidableEq, Repr

/-- The six slots of a group. -/
def groupSlots : List SlotType := [.data, .data, .data, .data, .data, .trailer]

/-- A port's transmit direction carries traffic: UP, or frozen for a negotiation. -/
def Port.live (p : Port) : Bool := decide (p.state = 2) || decide (p.state = 3)

/-- The lane of slot `k` of a direction: the one at position k mod W of its lane map (14 R358). -/
def laneOfSlot (map : List Nat) (k : Nat) : Option Nat := map[k % map.length]?

/-- Groups of the replay buffer that an acknowledgement covers leave it, and those that wait take their room. -/
def Port.acked (p : Port) (a : Option (BitVec 16)) : Port :=
  match a with
  | none => p
  | some n =>
    let sent := p.unacked.take p.out
    if sent.any (fun k => k.1 = n) then
      let left := (sent.dropWhile (fun k => k.1 ≠ n)).drop 1
      ({ p with unacked := left ++ p.unacked.drop p.out, out := left.length } : Port).pump
    else p

/-- The slots of a group have come: the lane-check failures among them are counted at their lanes, whatever becomes of the
group (14 R358, R363). Only the six slots of a group take slot numbers: whether IDLE and CTRL slots do too is left open
(assumption 103). -/
def Port.slotsIn (p : Port) (checks : List Nat) : Port :=
  let bad (lanes : Vector Lane 16) (k : Nat) : Vector Lane 16 :=
    match laneOfSlot p.rmap (p.rxSlot + k) with
    | some n =>
      (match lanes[n]? with
       | some l => lanes.setIfInBounds n { l with lcerr := BitVec.ofNat 16 (satTo 16 (l.lcerr.toNat + 1)) }
       | none => lanes)
    | none => lanes
  { p with rxSlot := p.rxSlot + groupSlots.length, lanes := (checks.filter (fun k => decide (k < groupSlots.length))).foldl bad p.lanes }

/-- Message lines enter the device (13 R317, R333). -/
def State.linesIn (s : State) (pid : BitVec 12) (lines : List VReg) : State :=
  { s with transit := s.transit ++ lines.map (fun v => Msg.ofLine pid true v) }

/-- The anti-message of a message withdrawn (14 R360; 13 R330). -/
def Msg.withdrawn (m : Msg) : Msg := { m with anti := true, payload := 0, size := 0 }

/-- What a skid-mode port repairs of a group whose tag fails, the first time it comes: messages released from it are withdrawn,
and a chunk of a DET collective is done again (14 R360). -/
def State.skidRepair (s : State) (grp : LinkGroup) : State :=
  match grp.cls, grp.chunk with
  | .msg, _ =>
    let ms : List Msg := grp.lines.map (fun v => { Msg.ofLine grp.pid true v with skid := true })
    { s with transit := s.transit ++ ms ++ ms.map Msg.withdrawn }
  | .coll, some (cid, x) => s.chunkAgain cid.toNat x
  | _, _ => s

/-- The device that a group is for is another one. -/
def State.inTransit (s : State) (grp : LinkGroup) : Option Nat :=
  match grp.dest with
  | some d => if s.plat.fabv && d = s.plat.dev then none else some d.toNat
  | none => none

/-- An accepted group does its work here, or goes on by this device's route (14 R361). -/
def State.groupIn (s : State) (grp : LinkGroup) : State :=
  match s.inTransit grp with
  | some d => s.inject d 1
  | none => if grp.cls = .msg then s.linesIn grp.pid grp.lines else s.cancelsIn grp.cancels

/-- A group arrives, at a port whose transmit direction sleeps too: accepted when its tag checks and its number is the next
one; else NAK, and a skid-mode port repairs what it had released (14 R359 to R361, R365, R366). -/
def execGroupReceive (port : Nat) (grp : LinkGroup) (s : State) : Result :=
  match s.ports[port]? with
  | none => .next s
  | some p =>
    if !p.stands then .next s
    else
      let s1 := s.modPort port (fun k => (if grp.tagOk then k.acked grp.ack else k).slotsIn grp.checks)
      if grp.seq ≠ p.rxSeq then .next s1
      else if !grp.tagOk then
        let s2 := s1.modPort port (fun k => { k with nakked := true })
        .next (if p.skid && !p.nakked && (s2.inTransit grp).isNone then s2.skidRepair grp else s2)
      else
        let s2 := s1.modPort port (fun k => { k with rxSeq := k.rxSeq + 1, nakked := false, rxNow := k.rxNow + grp.flits })
        .next (s2.groupIn grp)

/-- Groups are sent again. -/
def Port.replayed (p : Port) (n : Nat) : Port :=
  { p with replay := BitVec.ofNat 32 (satTo 32 (p.replay.toNat + n)), txNow := p.txNow + 5 * n, txSlot := p.txSlot + 6 * n }

/-- A NAK: every group from the named one on is sent again, in order (14 R359); a direction that negotiates holds them for the
replay at its end (14 R364). -/
def execNakReceive (port : Nat) (seq : BitVec 16) (s : State) : Result :=
  .next (s.modPort port (fun p =>
    if p.state = 2 && (p.unacked.take p.out).any (fun k => k.1 = seq) then
      p.replayed (((p.unacked.take p.out).dropWhile (fun k => k.1 ≠ seq)).length)
    else p))

/-! ## Widths (14 R362, R364) -/

/-- MAXW as a code of 1 to 4. -/
def Port.cap (p : Port) : Nat := if 1 ≤ p.maxw.toNat && p.maxw.toNat ≤ 4 then p.maxw.toNat else 1

/-- Link wavelengths lit in a laser power state (14 R365): the own one governs the transmit directions only. -/
def litLanes (cur : BitVec 2) : Nat := if cur = 0 then 16 else if cur = 1 then 8 else 0

/-- Lanes of the transmit direction that may carry traffic: those that have recovered wait for a RETRAIN or a laser-state
change (14 R363). -/
def Port.txHealthy (p : Port) (lit : Nat) : List Nat :=
  (List.range lit).filter (fun n => !(p.txBad.any (fun e => e.1 = n)) && !p.txIdle.contains n)

/-- Code of the widest of 16, 12, 8 and 4 lanes within MAXW and the healthy lanes; 0 with fewer than four. -/
def widthCode (cap healthy : Nat) : Nat := Nat.min cap (healthy / 4)

/-- Receive lanes that the far end would take for a width that narrows: the healthy ones but those that have only recovered. -/
def Port.rxHealthy (p : Port) : List Nat :=
  (List.range 16).filter (fun n =>
    match p.lanes[n]? with | some l => (decide (l.state = 0) || decide (l.state = 1)) && !l.back | none => false)

/-- A receive lane after the far end has fixed the map of its width: on the map ACTIVE; else unlit DARK, frozen FAILED, other
healthy ones SPARE (14 R363, R364). -/
def Lane.settle (l : Lane) (act : Bool) (lit : Bool) (now : Nat) : Lane :=
  if act then { l with state := 0, back := false }
  else if !lit then { l with state := 4, back := false }
  else if l.state = 2 then { l with state := 3, badAt := now }
  else if l.state = 3 then l
  else { l with state := 1 }

/-- The receive width, map and lanes after the far end's negotiation, counted from slot 0 again; `lit` is how many link
wavelengths the far laser lights. -/
def Port.settleLanes (p : Port) (map : List Nat) (lit now : Nat) : Port :=
  let w := Nat.min 4 (map.length / 4)
  let act := map.take (4 * w)
  { p with
    rxw := BitVec.ofNat 3 w
    rmap := act
    rxSlot := 0
    lanes := Vector.ofFn (fun i : Fin 16 => (p.lanes[i.val]'i.isLt).settle (act.contains i.val) (decide (i.val < lit)) now) }

/-- The transmit width and map after a negotiation, counted from slot 0 again. -/
def Port.settleWidth (p : Port) (lit : Nat) : Port :=
  let ok := p.txHealthy lit
  let w := widthCode p.cap ok.length
  { p with txw := BitVec.ofNat 3 w, lmap := ok.take (4 * w), txSlot := 0 }

/-- A link goes DOWN, or its port OFF (14 R362, R364, R365). -/
def Port.fall (p : Port) (st : BitVec 3) : Port :=
  { p with state := st, txw := 0, rxw := 0, lmap := [], rmap := [], nakked := false, retrainDue := false,
           lanes := p.lanes.map (fun l => { l with state := 4, back := false }) }

/-- A port falls and reports its link DOWN; its groups are rerouted end to end (14 R350, R364, R366). -/
def State.linkFall (s : State) (port : Nat) (st : BitVec 3) : State :=
  ((s.leaveGroups port).modPort port (fun p => p.fall st)).report port false

/-- The negotiation of a port's transmit direction ends: it takes its width, unacknowledged groups are sent again, and injection
resumes; with fewer than four healthy lanes the link goes DOWN (14 R364). -/
def State.negotiated (s : State) (port : Nat) : State :=
  match s.ports[port]? with
  | none => s
  | some p =>
    let q := p.settleWidth (litLanes s.plat.cur)
    if q.txw = 0 then s.linkFall port 5
    else s.modPort port (fun _ => (({ q with state := 2 } : Port).replayed q.out).pump)

/-- The far end has negotiated the width of the receive direction, on a map of its lit lanes; with fewer than four the link goes
DOWN (14 R364). -/
def State.rxNegotiated (s : State) (port : Nat) (map : List Nat) (lit : Nat) : State :=
  if map.length < 4 then s.linkFall port 5
  else s.modPort port (fun p => p.settleLanes map lit s.ticks)

/-- A negotiation ends: of the own transmit direction, when the far end answers, or of the receive direction, which the far end
has begun; `dir` names the port and, then, its lane map and how many wavelengths its laser lights. Each direction narrows on its own (14 R364). -/
def execNarrowNegotiateDone (dir : Nat × Option (List Nat × Nat)) (s : State) : Result :=
  match s.ports[dir.1]?, dir.2 with
  | none, _ => .next s
  | some p, none => if p.state = 3 then .next (s.negotiated dir.1) else .next s
  | some p, some (map, lit) => if p.stands then .next (s.rxNegotiated dir.1 map lit) else .next s

/-- A lane of the transmit direction is reported failing: it is frozen and injection stops (14 R364); a direction that sleeps
negotiates when it wakes. -/
def execLaneFailingReport (port lane : Nat) (s : State) : Result :=
  let now := s.ticks
  .next (s.modPort port (fun p =>
    if p.stands && decide (lane < 16) then
      { p with state := if p.state = 4 then 4 else 3, txBad := p.txBad.filter (fun e => e.1 ≠ lane) ++ [(lane, now)] }
    else p))

/-- RETRAIN: the transmit direction is negotiated anew, and lanes that have recovered may return (14 R362 to R364); a
direction that sleeps negotiates when it wakes. -/
def State.retrain (s : State) (port : Nat) : State :=
  s.modPort port (fun p =>
    { p with txIdle := [], state := if p.state = 2 then 3 else p.state, retrainDue := p.retrainDue || decide (p.state = 4) })

/-- RETRAIN is written (14 R362, R364). -/
def execLctlRetrain (port : Nat) (s : State) : Result := .next (s.retrain port)

/-! ## Training (14 R362; 16 R413) -/

/-- A port may train: FABV, enabled, its comb lines lit and a neighbour there. -/
def State.mayTrain (s : State) (port : Nat) : Bool :=
  s.plat.fabv && decide (s.plat.cur ≠ 3) && (s.neighbour s.plat.dev.toNat port).isSome &&
    (match s.ports[port]? with | some p => p.en | none => false)

/-- A port begins to train where it may. -/
def State.train (s : State) (port : Nat) : State :=
  if s.mayTrain port then
    s.modPort port (fun p => if p.state = 0 || p.state = 5 then { p with state := 1 } else p)
  else s

/-- Every port begins to train where it may. -/
def State.trainAll (s : State) : State := (List.range 8).foldl (fun (t : State) p => t.train p) s

/-- A port has trained: its link is UP from slot 0 and sequence number 0, each direction on its widest width; the far laser
lights `farLit` wavelengths (16 R413). -/
def execLinkTrainDone (port : Nat) (peer : BitVec 11 × BitVec 3) (farLit : Nat) (s : State) : Result :=
  match s.ports[port]? with
  | none => .next s
  | some p =>
    if p.state ≠ 1 then .next s
    else
      let up : Port :=
        { p with state := 3, peer := peer.1, pport := peer.2, txSeq := 0, rxSeq := 0, unacked := [], out := 0, nakked := false
                 retrainDue := false, txBad := [], txIdle := [], lanes := p.lanes.map (fun l => { l with state := 1, back := false }) }
      let s1 := (((s.leaveGroups port).modPort port (fun _ => up)).rxNegotiated port (List.range (4 * (farLit / 4))) farLit).report port true
      .next (match s1.ports[port]? with | some q => if q.state = 3 then s1.negotiated port else s1 | none => s1)

/-- LCTL.EN is written: OFF takes the link DOWN, on begins training (14 R362). -/
def State.portEnable (s : State) (port : Nat) (en : Bool) : State :=
  let s1 := s.modPort port (fun p => { p with en := en })
  if en then s1.train port else s1.linkFall port 0

/-- LCTL.EN is written (14 R362). -/
def execLctlEnable (port : Nat) (en : Bool) (s : State) : Result := .next (s.portEnable port en)

/-! ## Health (14 R362, R363) -/

/-- The BER field from F lane-check failures in S slots. -/
def berField (f slots : Nat) : Nat :=
  if slots < 2 ^ 24 then 255 else Nat.min 255 (Nat.log2 ((528 * (slots + 1)) ^ 4 / (f + 1) ^ 4))

/-- A lane is failing under the thresholds. -/
def Lane.failing (l : Lane) (p : Platform) : Bool := l.power.slt p.pfail || decide (l.margin.toNat < p.mfail.toNat) || decide (l.ber.toNat < p.bfail.toNat)

/-- The receive side of a lane is measured: POWER, MARGIN, F failures and S slots of the window, and the failures in IDLE and
CTRL slots since the last measurement, those of groups being counted as they come; an ACTIVE or SPARE lane that fails is frozen and reported (14 R363, R364). -/
def execLaneHealthUpdate (port lane : Nat) (power margin : BitVec 12) (fails slots recent : Nat) (s : State) : Result :=
  let plat := s.plat
  let now := s.ticks
  let upd (l : Lane) : Lane :=
    let m : Lane := { l with power := power, margin := margin, ber := BitVec.ofNat 8 (berField fails slots)
                             lcerr := BitVec.ofNat 16 (satTo 16 (l.lcerr.toNat + recent)) }
    if m.failing plat then (if l.state = 0 || l.state = 1 then { m with state := 2 } else { m with badAt := now }) else m
  .next (s.modPort port (fun p =>
    match p.lanes[lane]? with
    | some l => if p.stands && l.state ≠ 4 then { p with lanes := p.lanes.setIfInBounds lane (upd l) } else p
    | none => p))

/-- A FAILED lane that has not been failing for 100 ms becomes SPARE; it returns to its width only at a RETRAIN or a laser-state
change, and so does a transmit lane (14 R363). -/
def execLaneRecover (port lane : Nat) (s : State) : Result :=
  let now := s.ticks
  .next (s.modPort port (fun p =>
    let old (e : Nat × Nat) : Bool := decide (e.1 = lane) && decide (e.2 + 200000000 ≤ now)
    let p1 : Port :=
      { p with txBad := p.txBad.filter (fun e => !old e)
               txIdle := if p.txBad.any old then p.txIdle ++ [lane] else p.txIdle }
    match p1.lanes[lane]? with
    | some l =>
      if l.state = 3 && decide (l.badAt + 200000000 ≤ now) then
        { p1 with lanes := p1.lanes.setIfInBounds lane { l with state := 1, back := true } }
      else p1
    | none => p1))

/-- A window of 100 µs ends: the port's flit counts are latched (14 R362). -/
def execLutilWindow (port : Nat) (s : State) : Result :=
  let w := s.ticks / 200000
  .next (s.modPort port (fun p =>
    if p.window < w then
      { p with txf := BitVec.ofNat 32 (satTo 32 p.txNow), rxf := BitVec.ofNat 32 (satTo 32 p.rxNow), txNow := 0, rxNow := 0, window := w }
    else p))

/-! ## Laser (01 R7; 14 R365, R366) -/

/-- The laser enters a power state (14 R365). -/
def State.laserEnter (s : State) (t : BitVec 2) : State :=
  let old := s.plat.cur
  let s1 := s.modPlat (fun p => { p with cur := t })
  if t = 3 then
    let s2 := s1.modOptics (fun o => if o.state = .digital then o else { o with state := .dark, calReq := false, calibrated := false })
    ((List.range 8).foldl (fun (u : State) p => u.linkFall p 0) s2).tableChange
  else
    let change (p : Port) : Port :=
      let q : Port := { p with txIdle := [] }
      if p.state = 2 && t = 2 then { q with state := 4 }
      else if p.state = 4 && t ≠ 2 then
        (if p.retrainDue || p.txBad.any (fun e => p.lmap.contains e.1) then { q with state := 3, retrainDue := false } else ({ q with state := 2 } : Port).pump)
      else q
    let s2 : State := { s1 with ports := s1.ports.map change }
    let s3 := if t = 1 then
        (List.range 8).foldl (fun (u : State) p =>
          match u.ports[p]? with | some k => if k.live then u.negotiated p else u | none => u) s2
      else s2
    if old = 3 then (if s3.plat.svc = 0 then s3.trainAll else s3.trainAll.calibAll) else s3

/-- A transition to a state begins. -/
def State.laserBegin (s : State) (t : BitVec 2) : State := s.modPlat (fun p => { p with busy := true, target := some t })

/-- LASER.REQ is written: a transition begins, or the request waits for the end of the present one (14 R365, R366). -/
def State.laserReq (s : State) (req : BitVec 2) : State :=
  let s1 := s.modPlat (fun p => { p with req := req })
  if s.plat.busy || req = s.plat.cur then s1 else s1.laserBegin req

/-- LASER.REQ is written (14 R365, R366). -/
def execLaserRequest (req : BitVec 2) (s : State) : Result := .next (s.laserReq req)

/-- A transition ends; L2 is entered once every replay buffer is empty; a request written meanwhile takes effect now
(14 R365, R366). -/
def execLaserTransitionDone (s : State) : Result :=
  match s.plat.target with
  | none => .next s
  | some t =>
    if t = 2 && s.ports.any (fun p => decide (p.state = 3) || decide (p.out ≠ 0)) then .next s
    else
      let s1 := (s.modPlat (fun p => { p with busy := false, target := none })).laserEnter t
      .next (if s1.plat.req = t then s1 else s1.laserBegin s1.plat.req)

/-- A packet queued for a sleeping port returns the module from L2 to L0 (14 R365). -/
def execLaserWake (s : State) : Result :=
  if s.plat.cur = 2 && !s.plat.busy && s.ports.any (fun p => p.state = 4 && !p.unacked.isEmpty) then .next (s.laserReq 0)
  else .next s

/-- The active laser fails: READY tiles are in HOLD and every link replays from its replay buffer (01 R7; 09 R217). -/
def execLaserSwitchover (s : State) : Result :=
  if !s.plat.spare || s.plat.switching then .next s
  else
    let s1 := (s.modPlat (fun p => { p with switching := true, spare := false })).modOptics (fun o =>
      if o.state = .ready then { o with state := .hold } else o)
    .next ({ s1 with ports := s1.ports.map (fun p => if p.state = 2 then p.replayed p.out else p) } : State).tableChange

/-- The standby laser carries all lines: HOLD ends, and the switch-over is recorded (01 R7; 09 R217). -/
def execLaserSwitchoverDone (s : State) : Result :=
  if !s.plat.switching then .next s
  else
    let s1 := (s.modPlat (fun p => { p with switching := false, src := !p.src })).modOptics (fun o =>
      if o.state = .hold then o.toReady else o)
    .next (s1.tableChange.serviceTiles.note 0x01 0 0 0)

end Sys2Proof.Machine
end

