-- ==== Sys2Proof/Machine/SysRegs.lean ====
section
/-!
DEFINITION. The system registers (15 R376 to R380, R387, R388, R394, R395, R399, R402 to R406) and what writing each of
them does.
-/

namespace Sys2Proof.Machine

/-! ## Numbers (15 R378, R379) -/

/-- The number is assigned (15 R379). -/
def sysAssigned (n : Nat) : Bool :=
  decide (n ≤ 0x00E) || (decide (0x010 ≤ n) && decide (n ≤ 0x016)) || (decide (0x020 ≤ n) && decide (n ≤ 0x024)) ||
    (decide (0x030 ≤ n) && decide (n ≤ 0x03D)) || (decide (0x800 ≤ n) && decide (n ≤ 0x80B)) ||
    (decide (0x810 ≤ n) && decide (n ≤ 0x819)) || (decide (0x820 ≤ n) && decide (n ≤ 0x826)) ||
    (decide (0x830 ≤ n) && decide (n ≤ 0x837))

/-- User level may write the register: mark W of 15 R379. -/
def sysUserWrites (n : Nat) : Bool := decide (n ≤ 0x002) || decide (n = 0x016)

/-- Only the issuing core reaches the register: OFTC and OTCTL (15 R379). -/
def sysIssuing (n : Nat) : Bool := decide (n = 0x00C) || decide (n = 0x824)

/-- The register is of slot scope, so that `srr` of it has a latency of 4 cycles (15 R379, R380). -/
def sysSlotScope (n : Nat) : Bool :=
  decide (n ≤ 0x008) || (decide (0x020 ≤ n) && decide (n ≤ 0x024)) || (decide (0x800 ≤ n) && decide (n ≤ 0x803)) ||
    (decide (0x805 ≤ n) && decide (n ≤ 0x80A)) || (decide (0x810 ≤ n) && decide (n ≤ 0x819))

/-! ## Reading -/

/-- CLKMODE (15 R395); a service core stands in no tile and never pins (01 R20). -/
def State.clkmode (s : State) : Word :=
  let j := s.job s.hart.pid
  packFields [(b2n j.ftOk, 2), (b2n (!isService s.coreNo && (s.tile s.tileNo).pinned), 1), (b2n j.ft, 0)]

/-- LEAVE (15 R399). -/
def Tile.leaveWord (t : Tile) : Word :=
  packFields [(t.rsvs.length, 40), (Nat.min 255 t.leaveQ.length, 32), (t.grants.toNat, 0)]

/-- DROOP (15 R394): FREQ reads 2000 while pinned. -/
def Tile.droopWord (t : Tile) : Word :=
  packFields [(t.stretch.toNat, 32), (t.maxs.toNat, 24), (t.fdet.toNat, 16), (if t.pinned then 2000 else t.freq.toNat, 0)]

/-- OFTC (10 R259; 15 R397): cycles of 0.5 ns since the first pinned cycle; 0 while the tile is elastic. -/
def Tile.oftcWord (t : Tile) (ticks : Nat) : Word := if t.pinned then BitVec.ofNat 64 (ticks - t.pinnedAt) else 0

/-- LPST (13 R334). -/
def State.lpst (s : State) (x : Slot) : Word :=
  let l := ((s.job x.pid).lp x.lp.lpid.toNat).log
  packFields [(x.lp.inc.toNat, 48), (b2n x.lp.held.isSome, 39), (b2n x.lp.exitp, 38), (b2n x.lp.inh, 37),
    (b2n x.record.opt, 36), (if x.record.opt then satTo 32 (logUse l / 32) else 0, 0)]

/-- VPT, LVT, LPSEQ, LPID and LPST; 0 in a strand of a PID without a VJB (13 R334). -/
def State.vtReg (s : State) (k : Nat) : Word :=
  let x := s.hart
  if (s.job x.pid).vjb.isNone then 0
  else match k with
    | 0 => (s.job x.pid).vpt
    | 1 => if x.record.opt then x.lp.lvt else 0
    | 2 => x.lp.lpseq
    | 3 => x.lp.lpid.setWidth 64
    | _ => s.lpst x

/-- RDYH register `k`: bins 2k and 2k + 1 (15 R402). -/
def Core.rdyhWord (c : Core) (k : Nat) : Word :=
  packFields [((c.rdyh[2 * k + 1]?.getD 0).toNat, 32), ((c.rdyh[2 * k]?.getD 0).toNat, 0)]

/-- ROUTE of a core (04 R92). -/
def State.routeWord (s : State) (core : Nat) : Word := packFields [(b2n (s.core core).hold, 6), (s.elevOf core, 0)]

/-- SERRC (15 R389). -/
def State.serrc (s : State) : Word := packFields [(s.corr.toNat, 32), (s.uncorr.toNat, 0)]

/-- The registers below 0x800 as the executing slot reads them. -/
def State.sysReadUser (s : State) (n : Nat) : Word :=
  let x := s.hart
  let t := s.tile s.tileNo
  let o := t.opt
  match n with
  | 0x000 => x.statusWord
  | 0x001 => x.fxf.setWidth 64
  | 0x002 => x.vxf.setWidth 64
  | 0x003 => x.vshapeWord
  | 0x004 => x.vwin.setWidth 64
  | 0x005 => x.fmt.setWidth 64
  | 0x006 => x.scl
  | 0x007 => x.pfloorWord
  | 0x008 => s.clkmode
  | 0x009 => t.leaveWord
  | 0x00A => s.timeNs
  | 0x00B => t.droopWord
  | 0x00C => t.oftcWord s.ticks
  | 0x00D => s.fabid
  | 0x00E => s.serrc
  | 0x010 => o.otstat
  | 0x011 => o.oebc s.ticks
  | 0x012 => o.odet
  | 0x013 => o.odrift s.ticks
  | 0x014 => o.ocal s.ticks
  | 0x015 => o.oswm
  | 0x016 => o.oerr
  | _ =>
    if 0x020 ≤ n && n ≤ 0x024 then s.vtReg (n - 0x020)
    else if 0x030 ≤ n && n ≤ 0x034 then (s.core s.coreNo).slc[n - 0x030]?.getD 0
    else if 0x035 ≤ n && n ≤ 0x03D then (s.core s.coreNo).rdyhWord (n - 0x035)
    else 0

/-- The registers from 0x800 on as the executing slot reads them; WO fields read 0 (15 R387; 00 R4). -/
def State.sysReadExec (s : State) (n : Nat) : Word :=
  let x := s.hart
  match n with
  | 0x800 => x.xpc
  | 0x801 => x.xsw
  | 0x802 => x.xcause.setWidth 64
  | 0x803 => x.xval
  | 0x804 => s.xvec
  | 0x810 => BitVec.ofNat 64 x.loops.length
  | 0x820 => s.routeWord s.coreNo
  | 0x821 => (s.tile s.tileNo).pkev.setWidth 64
  | 0x823 => s.pidtb
  | 0x824 => boolWord (s.tile s.tileNo).opt.off
  | 0x833 => (s.tile s.tileNo).profctl
  | 0x834 => s.profbuf
  | 0x835 => s.skctl
  | _ =>
    if 0x805 ≤ n && n ≤ 0x808 then x.xtmp[n - 0x805]?.getD 0
    else if 0x811 ≤ n && n ≤ 0x813 then x.lc[n - 0x811]?.getD 0
    else if 0x814 ≤ n && n ≤ 0x816 then (x.loopAt (n - 0x814)).startWord
    else if 0x817 ≤ n && n ≤ 0x819 then (x.loopAt (n - 0x817)).fin
    else 0

/-- The register of a number; EVPOP, which removes what it reads, is read apart. -/
def State.sysRead (s : State) (n : Nat) : Word := if n < 0x800 then s.sysReadUser n else s.sysReadExec n

/-- EVPOP (15 R406): the oldest executive event of the core, 0 when there is none, and the state without it. -/
def State.evpop (s : State) (core : Nat) : Word × State :=
  match (s.core core).events with
  | [] => (0, s)
  | (c, a) :: r => (packFields [(c.toNat, 48), (a.toNat, 0)], s.modCore core (fun k => { k with events := r }))

/-! ## Loop state (15 R388) -/

/-- Write entry `k` of the loop state, counted from the outermost. -/
def Slot.putLoop (x : Slot) (k : Nat) (e : LoopEntry) : Slot :=
  if k < x.loops.length then { x with loops := (x.loops.reverse.set k e).reverse }
  else { x with loopSpare := x.loopSpare.setIfInBounds k e }

/-- LDEPTH is written. -/
def Slot.putDepth (x : Slot) (d : Nat) : Slot :=
  { x with loops := ((List.range d).map x.loopAt).reverse, loopSpare := Vector.ofFn (fun i : Fin 3 => x.loopAt i.val) }

/-- LSTS of entry `k` is written. -/
def Slot.putStart (x : Slot) (k : Nat) (v : Word) : Slot :=
  x.putLoop k { x.loopAt k with n := BitVec.ofNat 2 (fld v 58 57), start := addr57 v }

/-- LSTE of entry `k` is written. -/
def Slot.putEnd (x : Slot) (k : Nat) (v : Word) : Slot := x.putLoop k { x.loopAt k with fin := addr57 v }

/-! ## Clock, debug and dump registers -/

/-- A context leaves fixed-timing mode and releases its reservations (15 R395, R396). -/
def State.leaveFt (s : State) (pid : BitVec 12) : State :=
  let s1 := s.modJob pid (fun j => { j with ft := false })
  { s1 with tiles := s1.tiles.map (fun e => (e.1, { e.2 with rsvs := e.2.rsvs.filter (fun p => p ≠ pid) })) }

/-- A write of FTSET (15 R395). -/
def State.ftset (s : State) (v : Word) : State :=
  let pid := BitVec.ofNat 12 (fld v 63 52)
  let s1 := s.modJob pid (fun j => { j with ftOk := bitOf v 0 })
  if bitOf v 0 then s1 else s1.leaveFt pid

/-- A write of DUMPSET (15 R390). -/
def State.dumpset (s : State) (v : Word) : State :=
  let area := 4096 * fld v 51 12
  s.modJob (BitVec.ofNat 12 (fld v 63 52)) (fun j => { j with dump := if area = 0 then none else some (area, bitOf v 11) })

/-- A kept slot of a core is available again (15 R404). -/
def State.freeKept (s : State) (core slot : Nat) : State :=
  (s.modCore core (fun c => { c with kept := c.kept.filter (fun k => k ≠ slot) })).offerOverflow core

/-- A write of DBGSTOP (15 R404). -/
def State.dbgstop (s : State) (v : Word) : State :=
  let core := fld v 15 8
  let slot := fld v 3 0
  if bitOf v 18 then s.freeKept core slot
  else
    let n := 16 * core + slot
    if (s.slotAt n).occ then s.modSlot n (fun x => { x with bound := { x.bound with stop := some (bitOf v 17) } }) else s

/-- A write of SRESUME (15 R387): the HELD strand of the frame named, whichever its PID, becomes RUNNABLE at its own hint,
its next instruction issued anew; a frame without one is left alone; the resume, or the write that matched none, is recorded
with the frame (15 R405; assumption 31). -/
def State.sresume (s : State) (v : Word) : State :=
  match s.away.find? (fun e => decide (e.2.rstate = 6) && decide (addr57 e.2.record.frame = addr57 v)) with
  | none => s.note 0x17 0 (addr57 v) 0
  | some (sid, _) =>
    let s1 := s.leaveWaits sid
    match alGet s1.away sid with
    | none => s1
    | some x =>
      (s1.reenter { x with park := none, rstate := 3 } (x.record.hx.toNat, x.record.hy.toNat) false).note 0x17 x.pid
        (addr57 x.record.frame) 0

/-- TIMEADJ (16 R413): once between boot steps 3 and 4 the ns are added to TIME; at any other moment the write is ignored
and recorded. -/
def State.timeadj (s : State) (v : Word) : State :=
  if s.plat.boot = 3 && !s.plat.adjusted then
    ({ s with ticks := s.ticks + 2 * v.toNat } : State).modPlat (fun p =>
      { p with adjusted := true, timeOff := p.timeOff + 2 * v.toNat })
  else s.note 0x17 0 v 0

/-- TSINV (04 R99); SCOPE 3 is ignored. -/
def State.tsinv (s : State) (v : Word) : State :=
  let pid := BitVec.ofNat 12 (fld v 63 52)
  match fld v 10 9 with
  | 0 => s.tsinvPage pid (fld v 51 11)
  | 1 => { s with tlb := s.tlb.filter (fun e => e.pid ≠ pid) }
  | 2 => { s with tlb := [] }
  | _ => s

/-- SKCTL is written: FREEZE (15 R405). -/
def State.skctlPut (s : State) (v : Word) : State := { s with skFreeze := bitOf v 13 }

/-- PROFBUF is written: the ring begins anew (15 R400, R401). -/
def State.profbufPut (s : State) (v : Word) : State :=
  { s with profbuf := packFields [(fld v 63 58, 58), (fld v 51 8, 8)], profPos := 64, profWrap := 0 }

/-- SLC or RDYH `n` of a core becomes 0 (15 R402). -/
def Core.clearCounter (c : Core) (n : Nat) : Core :=
  if n < 0x035 then { c with slc := c.slc.setIfInBounds (n - 0x030) 0 }
  else
    let k := n - 0x035
    { c with rdyh := (c.rdyh.setIfInBounds (2 * k) 0).setIfInBounds (2 * k + 1) 0 }

/-- SLC or RDYH `n` of a core is written (15 R402). -/
def execProfileCounterClear (core : Nat) (n : BitVec 12) (s : State) : Result :=
  if 0x030 ≤ n.toNat && n.toNat ≤ 0x03D then .next (s.modCore core (fun c => c.clearCounter n.toNat)) else .next s

/-! ## Writing (15 R380) -/

/-- Write STATUS: UNWR and SBCHK, and STEP at executive level (15 R377). -/
def Slot.putStatus (x : Slot) (v : Word) : Slot :=
  { x with status := { x.status with
      unwr := bitOf v 4, sbchk := bitOf v 2, step := if x.status.exec then bitOf v 3 else x.status.step } }

/-- Write DROOP: a 1 in any bit of STRETCH or MAXS clears the field; a 1 in a bit of FDET clears that bit (00 R4;
15 R394). -/
def Tile.droopPut (t : Tile) (v : Word) : Tile :=
  { t with stretch := if fld v 63 32 = 0 then t.stretch else 0, maxs := if fld v 31 24 = 0 then t.maxs else 0
           fdet := t.fdet &&& ~~~(v.extractLsb' 16 8) }

/-- Write a register of slot scope: `v` goes into the RW fields. -/
def Slot.sysPut (x : Slot) (n : Nat) (v : Word) : Slot :=
  match n with
  | 0x000 => x.putStatus v
  | 0x001 => { x with fxf := v.setWidth 6 }
  | 0x002 => { x with vxf := v.setWidth 6 }
  | 0x005 => { x with fmt := v.setWidth 4 }
  | 0x006 => { x with scl := packFields [(fld v 47 32, 32), (fld v 29 3, 3)] }
  | 0x800 => { x with xpc := v }
  | 0x801 => { x with xsw := v }
  | 0x802 => { x with xcause := v.setWidth 17 }
  | 0x803 => { x with xval := v }
  | 0x810 => x.putDepth (fld v 1 0)
  | _ =>
    if 0x805 ≤ n && n ≤ 0x808 then { x with xtmp := x.xtmp.setIfInBounds (n - 0x805) v }
    else if 0x811 ≤ n && n ≤ 0x813 then { x with lc := x.lc.setIfInBounds (n - 0x811) v }
    else if 0x814 ≤ n && n ≤ 0x816 then x.putStart (n - 0x814) v
    else if 0x817 ≤ n && n ≤ 0x819 then x.putEnd (n - 0x817) v
    else x

/-- Write a register: `rw` goes into the RW fields and `one` into the W1C and WO fields; `srw` says that the form is `srw`.
What is written to RO fields, and to a register without writable fields, is ignored (15 R380). XHOLD, XFATAL and OTCTL.CLR
are written apart. -/
def State.sysPut (s : State) (n : Nat) (rw one : Word) (srw : Bool) : State :=
  let t := s.tileNo
  match n with
  | 0x00B => s.modTile t (fun k => k.droopPut one)
  | 0x016 => s.modOpt t (fun o => { o with oerr := rw &&& 0xFFFFFF })
  | 0x804 => { s with xvec := BitVec.ofNat 64 (1024 * fld rw 56 10) }
  | 0x80B => s.sresume one
  | 0x820 => s.modCore s.coreNo (fun c => { c with hold := bitOf rw 6, elev := some (rw.setWidth 6) })
  | 0x821 => s.modTile t (fun k => { k with pkev := rw.setWidth 16 })
  | 0x822 => s.tsinv one
  | 0x823 => { s with pidtb := rw }
  | 0x824 =>
    let s1 := if bitOf rw 0 = (s.tile t).opt.off then s else s.optOff t (bitOf rw 0)
    if bitOf one 1 then s1.optCal t else s1
  | 0x825 => s.vjbset one
  | 0x826 => s.mpset one
  | 0x830 => s.dumpset one
  | 0x831 => s.ftset one
  | 0x832 => s.dbgstop one
  | 0x833 => s.profctlPut t rw
  | 0x834 => s.profbufPut rw
  | 0x835 => s.skctlPut rw
  | 0x837 => s.timeadj one
  | _ =>
    if 0x030 ≤ n && n ≤ 0x03D then (if srw then s.modCore s.coreNo (fun c => c.clearCounter n) else s)
    else s.modHart (fun x => x.sysPut n rw)

/-- The register's write has an effect for whose end the slot parks: TSINV, VJBSET and MPSET (04 R99; 13 R315; 14 R356;
15 R380). -/
def sysParks (n : Nat) : Bool := decide (n = 0x822) || decide (n = 0x825) || decide (n = 0x826)

end Sys2Proof.Machine
end

