-- ==== Sys2Proof/Machine/System.lean ====
section
/-!
DEFINITION. System, trap, clock and debug instructions (15 R380, R385, R386, R396) and the steps that go with them: the
effects of handler registers, pinning, leave, droop, debug stops.
-/

namespace Sys2Proof.Machine

/-! ## `srr`, `srw`, `srset`, `srclr` (15 R380) -/

/-- The virtual-time registers, which no write reaches: writes raise PRIV at either level (13 R334). -/
def sysNeverWritten (n : Nat) : Bool := decide (0x020 ≤ n) && decide (n ≤ 0x024)

/-- A system-register instruction: ILLOP for an unassigned number, PRIV, NOTISS, then its effect. -/
def State.sysreg (s : State) (n : Nat) (writes : Bool) (k : Result) : Result :=
  if !sysAssigned n then s.raise .illop 0
  else if writes && sysNeverWritten n then s.raise .priv 0
  else
    s.issue { Need.any with priv := decide (0x800 ≤ n) || (writes && !sysUserWrites n), iss := sysIssuing n } k

/-- `srr` (15 R380). -/
def execSrr (d : BitVec 5) (sr : BitVec 12) (h : BitVec 2) (s : State) : Result :=
  s.sysreg sr.toNat false
    (if sr = 0x836 then
       let (v, s1) := s.evpop s.coreNo
       s1.doneG h d v
     else s.doneG h d (s.sysRead sr.toNat))

/-- The checks and the return of `rtx` and XHOLD: NOTRAP outside a handler, BADSW fatal, else the state returned to
(15 R385, R387). -/
def State.trapReturn (s : State) (k : State → State) : Result :=
  if !s.hart.status.trap then s.raise .notrap 0
  else if !s.hart.xswOk then .next (s.fatalSlot s.hid Cause.badsw.code 0 0)
  else .next (k (s.modHart (fun x => x.returnFromTrap s.now)))

/-- Writing XHOLD (15 R387): the return, then the strand is written back HELD. -/
def State.xhold (s : State) : Result :=
  s.trapReturn (fun s1 => s1.writeBackStrand s1.hid 6)

/-- Writing XFATAL in a handler (15 R387). -/
def State.xfatal (s : State) (h : BitVec 2) (v : Word) : Result :=
  if !s.hart.status.trap then s.raise .notrap 0
  else (s.fatalSlot s.hid Cause.xreq.code 0 (v.setWidth 32 &&& 0xFFFF)).done h id

/-- A write form: what goes into the RW fields and into the W1C and WO fields of the register. -/
def State.sysWrite (s : State) (n : Nat) (rw one : Word) (srw : Bool) (h : BitVec 2) : Result :=
  s.sysreg n true
    (if n = 0x809 then s.xhold
     else if n = 0x80A then s.xfatal h one
     else
       let s1 := s.sysPut n rw one srw
       if sysParks n then .next (s1.parkAt h .sysreg)
       else if n = 0x824 && bitOf one 2 then
         (if (s1.tile s1.tileNo).opt.queue.length < 64 then (s1.optAccept (clrCmd s1.tileNo)).done h id
          else .next (s1.parkAt h (.optQueue (clrCmd s1.tileNo))))
       else s1.done h id)

/-- `srw` (15 R380). -/
def execSrw (a : BitVec 5) (sr : BitVec 12) (h : BitVec 2) (s : State) : Result :=
  s.sysWrite sr.toNat (s.hart.getG a) (s.hart.getG a) true h

/-- `srset` (15 R380). -/
def execSrset (a : BitVec 5) (sr : BitVec 12) (h : BitVec 2) (s : State) : Result :=
  s.sysWrite sr.toNat (s.sysRead sr.toNat ||| s.hart.getG a) 0 false h

/-- `srclr` (15 R380). -/
def execSrclr (a : BitVec 5) (sr : BitVec 12) (h : BitVec 2) (s : State) : Result :=
  s.sysWrite sr.toNat (s.sysRead sr.toNat &&& ~~~(s.hart.getG a)) 0 false h

/-- The effect of a register's write has ended, and the slot goes on (15 R380); a block being registered has been read whole
(13 R315). -/
def execSysregEffectDone (slot : Nat) (s : State) : Result :=
  if !s.mapsAwaited && (s.slotAt slot).occ && (s.slotAt slot).park = some .sysreg then .next (s.modSlot slot (fun x => x.finish 4 x.parkSh))
  else .next s

/-! ## `rtx`, `sys`, `brk` (15 R385, R386) -/

/-- `rtx` (15 R385): a taken transfer to XPC; its STEP bit counts from the next instruction on. -/
def execRtx (h : BitVec 2) (s : State) : Result :=
  s.issue { Need.any with priv := true }
    (s.trapReturn (fun s1 => s1.modHart (fun x =>
      { x with skips := skipsOf h, bound := { x.bound with step := false } })))

/-- `sys` (15 R382, R386): the loop-end step is made, and XPC is the address of the next instruction. -/
def execSys (h : BitVec 2) (s : State) : Result :=
  s.issue Need.any
    (let s1 := s.modHart (fun x =>
       let y := x.finish 4 h
       { y with bound := { y.bound with step := false } })
     .next (s1.raiseAt s1.hid Cause.sys.code s1.hart.pc 0 false))

/-- `brk` (15 R386). -/
def execBrk (_h : BitVec 2) (s : State) : Result := s.issue Need.any (s.raise .brk 0)

/-! ## `clkm` (15 R396) -/

/-- A core of a tile has taken an item of a PID and is to pick it up. -/
def Item.takenIn (i : Item) (pid : BitVec 12) (t : Nat) : Bool :=
  decide (i.record.pid = pid) && (match i.taken with | some (c, _) => decide (c < 256) && decide (tileOf c = t) | none => false)

/-- The tiles in which a strand of a PID is resident, or is about to be. -/
def State.tilesOf (s : State) (pid : BitVec 12) : List Nat :=
  (List.range 16).filter (fun t => s.occSlots.any (fun e => decide (e.2.pid = pid) && decide (e.1 / 16 < 256) && decide (tileOf (e.1 / 16) = t)) ||
    s.items.any (fun i => i.takenIn pid t))

/-- A tile holds leave reservations for four other contexts (15 R396). -/
def Tile.rsvFull (t : Tile) (pid : BitVec 12) : Bool := !t.rsvs.contains pid && decide (4 ≤ t.rsvs.length)

/-- A tile with a resident strand of a context that enters fixed-timing mode: it reserves leave and pins, or drives the
strands to write-back, and an item that one of its cores has taken goes on in placement (15 R396). -/
def State.enterFtTile (s : State) (pid : BitVec 12) (t : Nat) : State :=
  if (s.tile t).rsvFull pid then
    let s : State := { s with items := s.items.map (fun i => if i.takenIn pid t then { i with taken := none } else i) }
    (s.occSlots.filter (fun e => decide (e.2.pid = pid) && decide (e.1 / 16 < 256) && decide (tileOf (e.1 / 16) = t))).foldl (fun (a : State) e =>
      a.modSlot e.1 (fun x => { x with bound := { x.bound with preempt := true } })) s
  else s.modTile t (fun k => k.reservePin pid)

/-- `clkm` (15 R396, R407). A service core never pins (01 R20): of a strand there, only the tiles in which the context has
strands reserve leave and pin. -/
def execClkm (a : BitVec 5) (h : BitVec 2) (s : State) : Result :=
  let ga := s.hart.getG a
  let pid := s.hart.pid
  s.issue Need.any
    (if fld ga 63 1 ≠ 0 then s.raise .clkarg 0
     else if ga = 0 then (if (s.job pid).ft then (s.leaveFt pid).done h id else s.done h id)
     else if (s.job pid).ft then s.done h id
     else if !(s.job pid).ftOk then s.raise .clkperm 0
     else
       let service := isService s.coreNo
       if !service && (s.tile s.tileNo).rsvFull pid then s.raise .clkdeny 0
       else
         let s1 := s.modJob pid (fun j => { j with ft := true })
         let s2 := if service then s1 else s1.modTile s1.tileNo (fun k => k.reservePin pid)
         let s3 := (s2.tilesOf pid).foldl (fun (t : State) k => t.enterFtTile pid k) s2
         if service || (s3.tile s3.tileNo).pinned then s3.done h id else .next (s3.parkAt h .clkm))

/-- A tile relocks to the comb; OFTC counts from here, and the strands that waited for it in `clkm` go on (15 R397). -/
def execTilePin (tile : Nat) (s : State) : Result :=
  if !(s.tile tile).pinReq then .next s
  else
    let now := s.ticks
    let s1 := s.modTile tile (fun t => { t with pinned := true, pinReq := false, pinnedAt := now })
    .next ((s1.occSlots.filter (fun e => decide (tileOf (e.1 / 16) = tile) && decide (e.2.park = some .clkm))).foldl
      (fun (a : State) e => a.modSlot e.1 (fun x => x.finish 4 x.parkSh)) s1)

/-- No strand of a fixed-timing context is resident on a tile, or is about to be (15 R396, R397). -/
def State.mayUnpin (s : State) (tile : Nat) : Bool :=
  !s.occSlots.any (fun e => decide (e.1 / 16 < 256) && decide (tileOf (e.1 / 16) = tile) && (s.job e.2.pid).ft) &&
    !s.items.any (fun i => (s.job i.record.pid).ft && (match i.taken with | some (c, _) => decide (tileOf c = tile) | none => false))

/-- A tile without strands of fixed-timing contexts unpins, and no context holds a reservation there any more (15 R396, R397,
R399). -/
def execTileUnpin (tile : Nat) (s : State) : Result :=
  if (s.tile tile).pinned && s.mayUnpin tile then .next (s.modTile tile (fun t => { t with pinned := false, rsvs := [] })) else .next s

/-! ## Leave, droop, governor (15 R394, R399, R420) -/

/-- The governor of a tile grants its oldest waiting request for leave: a pass, an `xmm` command or a collective chunk
(15 R399); none while the limits of 16 R420 are exceeded. -/
def execLeaveGrant (tile : Nat) (s : State) : Result :=
  match (if (s.tile tile).tight then [] else (s.tile tile).leaveQ) with
  | [] => .next s
  | k :: r =>
    let s1 := (s.modTile tile (fun t => { t with leaveQ := r })).leaveGranted tile
    if k = 0 then
      let first := ((s1.tile tile).opt.runs.find? (fun p => p.leave)).map (fun p => p.cmd.ticket)
      (match first with
       | some tk => .next (s1.modOpt tile (fun o => o.modRun tk (fun p => { p with leave := false })))
       | none => .next s1)
    else if k = 1 then
      .next (s1.modTile tile (fun t =>
        { t with xmms := match t.xmms with | c :: l => { c with leave := false } :: l | [] => [] }))
    else
      match s1.colls.find? (fun e => decide (e.2.tile = tile) && decide (e.2.granted < e.2.asked)) with
      | some (cid, c) => .next ((s1.setColl cid { c with granted := c.granted + 1 }).collGo cid)
      | none => .next s1

/-- A droop detector of a tile fires and lengthens a cycle by `pct` per cent; in a pinned tile it only counts (15 R394). -/
def execDroopDetect (tile pct : Nat) (s : State) : Result :=
  .next (s.modTile tile (fun t =>
    if t.pinned then { t with fdet := BitVec.ofNat 8 (satTo 8 (t.fdet.toNat + 1)) }
    else
      { t with stretch := BitVec.ofNat 32 (satTo 32 (t.stretch.toNat + 1))
               maxs := BitVec.ofNat 8 (Nat.max t.maxs.toNat (Nat.min pct 30)) }))

/-- The governor of a tile is told whether the module's estimated power or a junction of the tile exceeds its limit: while it does,
leave is withheld, and the base frequency of an elastic tile goes no higher; it is set in steps of 25 MHz from 1.6 to 2.4 GHz
(15 R394; 16 R420). -/
def execGovernorAdjust (tile : Nat) (freq : Nat × Bool) (s : State) : Result :=
  let fits (t : Tile) : Bool :=
    !t.pinned && decide (1600 ≤ freq.1) && decide (freq.1 ≤ 2400) && decide (freq.1 % 25 = 0) && (!freq.2 || decide (freq.1 ≤ t.freq.toNat))
  .next (s.modTile tile (fun t => { t with tight := freq.2, freq := if fits t then BitVec.ofNat 16 freq.1 else t.freq }))

/-- The device becomes device-fatal (15 R392), which vector 0 signals to the host (16 R408). -/
def State.deviceFatal (s : State) : State :=
  ({ s.note 0x13 0 0 0 with skFrozen := true }.modPlat (fun p => { p with fatal := true })).signalHost 0

/-- A junction above 110 °C (16 R420). -/
def execJunctionOvertemp (s : State) : Result := .next s.deviceFatal

/-! ## Handler registers and device registers as steps of their own (15 R387, R390, R395; 16 R413) -/

/-- XHOLD is written by the executing strand (15 R387). -/
def execXholdWrite (_v : BitVec 64) (s : State) : Result := s.xhold

/-- XFATAL is written by the executing strand (15 R387). -/
def execXfatalWrite (v : BitVec 64) (s : State) : Result := s.xfatal 0 v

/-- SRESUME is written (15 R387). -/
def execSresumeWrite (v : BitVec 64) (s : State) : Result := .next (s.sresume v)

/-- FTSET is written (15 R395). -/
def execFtsetWrite (v : BitVec 64) (s : State) : Result := .next (s.ftset v)

/-- DUMPSET is written (15 R390). -/
def execDumpsetWrite (v : BitVec 64) (s : State) : Result := .next (s.dumpset v)

/-- TIMEADJ is written (16 R413). -/
def execTimeadjWrite (v : BitVec 64) (s : State) : Result := .next (s.timeadj v)

/-- EVPOP of a core is read into a register of the executing strand (15 R406). -/
def execEvpopRead (core : Nat) (d : BitVec 5) (s : State) : Result :=
  let (v, s1) := s.evpop core
  .next (s1.modHart (fun x => x.setG d v))

/-! ## Debug stops (15 R384, R404) -/

/-- The stop of the strand in a slot is due at this boundary: outside trap handlers, handlers of virtual time, and remote
accesses awaited, after a STEP that is due and a CANCEL or a PRMTO that it would take now (15 R384, R404). -/
def State.stopDue (s : State) (n : Nat) : Bool :=
  let x := s.slotAt n
  x.occ && !s.isFrozen x.pid && x.bound.stop.isSome && !x.status.trap && !x.inHandler && !s.remoteBusy x.sid &&
    !(s.core (n / 16)).hold && !x.stepDue && !(x.bound.cancel && s.cancelNow n) && !(x.bound.prmto && x.park.isNone && x.acks.isEmpty)

/-- The strand in a slot stops: it is written back HELD, with KEEP its slot stays vacant, and the stop is recorded with its
frame (15 R404, R405; assumption 31). -/
def execDbgstopStop (slot : Nat) (s : State) : Result :=
  if !s.stopDue slot then .next s
  else if s.leaveHeld slot then .next (s.sendBuffers slot)
  else
    let x := s.slotAt slot
    let s1 := if x.bound.stop = some true then s.modCore (slot / 16) (fun c => { c with kept := setInsert c.kept (slot % 16) }) else s
    let s2 := s1.modSlot slot (fun x => { x with bound := { x.bound with stop := none } })
    .next ((s2.writeBackStrand slot 6).noteFrom 0 (slotSource slot) 0x17 x.pid x.record.frame 0)

/-- DBGSTOP with FREE = 1 (15 R404). -/
def execDbgstopFree (core slot : Nat) (s : State) : Result := .next (s.freeKept core slot)

end Sys2Proof.Machine
end

