-- ==== Sys2Proof/Machine/Dump.lean ====
section
/-!
DEFINITION. The dump sequencer: freeze, settle, write, release, report, and the compatibility-mode reset (15 R389 to R393).
-/

namespace Sys2Proof.Machine

/-! ## Freeze (15 R390 step 1) -/

/-- Records of a launch queue that are dropped count in LDROP, saturating (12 R309). -/
def LaunchQueue.dropped (q : LaunchQueue) (n : Nat) : LaunchQueue :=
  { q with ldrop := BitVec.ofNat 12 (satTo 12 (q.ldrop.toNat + n)) }

/-- Deferred launches of a PID are dropped and recorded (15 R390). -/
def State.dropDeferred (s : State) (pid : BitVec 12) : State :=
  let l := s.deferred.filter (fun e => e.1 = pid)
  let s1 : State := { s with deferred := s.deferred.filter (fun e => e.1 ≠ pid) }
  l.foldl (fun (t : State) e => t.note 0x1A pid e.2 0) s1

/-- A wait for room in an engine's queue or for a unit. -/
def Park.forEngine : Park → Bool
  | .optQueue _ => true
  | .copyQueue _ => true
  | .xmmQueue _ => true
  | .collQueue _ _ _ _ => true
  | _ => false

/-- The context of a PID freezes: its queued records and deferred launches are dropped, its engine commands end with CANCEL,
and its strands hand over no further command. -/
def State.freeze (s : State) (pid : BitVec 12) : State :=
  let clear (q : LaunchQueue) : LaunchQueue := if q.pid = pid then { q.dropped q.fifo.length with fifo := [] } else q
  let s1 : State := { s with queues := s.queues.map (fun e => (e.1, clear e.2)) }
  let s2 := (s1.dropDeferred pid).cancelCommands (fun r => r.pid = pid)
  let hold (x : Slot) : Slot := if (match x.park with | some p => p.forEngine | none => false) then { x with park := some .frozen } else x
  let s3 := (s2.occSlots.filter (fun e => e.2.pid = pid)).foldl (fun (t : State) e => t.modSlot e.1 hold) s2
  let away := (s3.away.filter (fun e => e.2.pid = pid)).map (fun e => (e.1, e.2.rstate))
  s3.modJob pid (fun j => { j with dumping := 1, snap := away })

/-! ## Settle (step 2) -/

/-- Tiles, collectives, the fabric and the varnish stage hold nothing of a PID that is still to end. -/
def State.settled (s : State) (pid : BitVec 12) : Bool :=
  let of_ (sid : Nat) : Bool := decide (sid / 2 ^ 57 = pid.toNat)
  !s.tiles.any (fun e =>
      e.2.copies.any (fun c => c.pid = pid) || e.2.xmms.any (fun c => c.pid = pid) ||
        e.2.opt.queue.any (fun c => decide (c.kind ≠ .clr) && decide (c.pid = pid)) || e.2.opt.runs.any (fun r => r.cmd.pid = pid)) &&
    !s.colls.any (fun e => decide (e.2.pid = pid) && decide (e.2.state ≠ 4)) && !s.collQ.any (fun c => c.pid = pid) &&
    !s.remote.any (fun r => of_ r.strand) && !s.migOut.any (fun m => of_ m.strand) &&
    (match s.varnNow with | some v => decide (v.1 ≠ pid) | none => true)

/-- The slots of a PID's resident strands, in ascending tile, core and slot (15 R391). -/
def State.residents (s : State) (pid : BitVec 12) : List Nat :=
  let l := (s.occSlots.filter (fun e => e.2.pid = pid)).map (fun e => e.1)
  (List.range 256).flatMap (fun k =>
    let core := coreAt (k / 16) (k % 16)
    l.filter (fun n => decide (n / 16 = core))) ++ l.filter (fun n => decide (256 ≤ n / 16))

/-- The actions of 05 R123 for every resident strand of a PID. -/
def State.settleStrands (s : State) (pid : BitVec 12) : State := (s.residents pid).foldl (fun (t : State) n => t.leaveActions n) s

/-! ## Write (step 3; 15 R391) -/

/-- The dump as it is written: where, how many bytes, and what has been written. -/
structure DumpOut where
  area   : Nat
  size   : Nat
  off    : Nat
  images : Nat
  lost   : Nat
  trunc  : Bool
  deriving DecidableEq, Repr

/-- A block of the dump at an offset; what the area has no room for is not written. -/
def State.dumpPut (s : State) (d : DumpOut) (off : Nat) (bs : List Byte) : State := s.rawPut (d.area + off) (bs.take (d.size - off))

/-- A cause entry (15 R391). -/
def CauseEntry.bytes (c : CauseEntry) : List Byte :=
  natLe 2 c.cause.toNat ++ natLe 2 c.src.toNat ++ natLe 4 c.flags.toNat ++ natLe 8 c.xpc.toNat ++ natLe 8 c.xval.toNat ++
    natLe 8 c.time.toNat

/-- The header after SIZE. -/
def State.dumpHeader (s : State) (pid : BitVec 12) (d : DumpOut) (compat dn : Bool) : List Byte :=
  let l := (s.job pid).causes
  natLe 4 0x3144505A ++ natLe 2 1 ++ natLe 2 pid.toNat ++ natLe 8 (match l with | c :: _ => c.time.toNat | [] => 0) ++
    natLe 4 l.length ++ natLe 4 d.images ++ natLe 4 d.lost ++ natLe 1 (b2n d.trunc + 2 * b2n compat + 4 * b2n dn) ++
    List.replicate 219 0

/-- The first 16 cause entries. -/
def State.dumpCauses (s : State) (pid : BitVec 12) : List Byte := ((s.job pid).causes.take 16).flatMap CauseEntry.bytes

/-- The 256 bytes of a tile; the last 216 are private to the device, here free (assumption 4). -/
def State.dumpTile (s : State) (t : Nat) : List Byte :=
  let k := s.tile t
  wordsBytes [k.opt.otstat, k.opt.oebc s.ticks, k.opt.oerr, k.leaveWord, k.droopWord] ++ freeBytes (s.freeCtr + 216 * t) 216

/-- A frame image of a strand in a slot (12 R285). -/
def State.residentImage (s : State) (n : Nat) : List Byte :=
  let x := s.slotAt n
  wordsBytes (x.record.words x.pc 1 0) ++ x.frameHead s.freeCtr ++
    (List.range (modeRegs x.record.mode)).flatMap (fun v => vBytes (x.getPhysV v) 0 256)

/-- Bytes of a frame that lies in memory, in pieces of 64; zeros where it cannot be read. -/
def State.frameBytes (s : State) (pid : BitVec 12) (a : Word) : Nat → List Byte
  | 0 => []
  | n + 1 =>
    (match (s.vaGet 0 pid true a 64).1 with | .ok bs => bs | .error _ => List.replicate 64 0) ++ s.frameBytes pid (a + 64) n

/-- A frame image of a strand that is out of a slot: its record, and its frame. -/
def State.outsideImage (s : State) (x : Slot) : List Byte :=
  let st := if x.record.new then 0 else ((alGet (s.job x.pid).snap x.sid).getD x.rstate).toNat
  wordsBytes (x.record.words x.pc st 0) ++ s.frameBytes x.pid (x.record.frame + 64) (frameSize x.record.mode / 64 - 1)

/-- The strands of a PID out of a slot, in ascending frame address (15 R391). -/
def State.outsideSorted (s : State) (pid : BitVec 12) : List Slot :=
  (s.outside (fun r => r.pid = pid)).mergeSort (fun a b => decide (va57 a.record.frame ≤ va57 b.record.frame))

/-- One image goes into the dump; once the area is full every further one is lost (15 R390, R391). -/
def State.dumpImage (r : State × DumpOut) (bs : List Byte) : State × DumpOut :=
  let (s, d) := r
  if d.trunc || d.size < d.off + bs.length then (s, { d with trunc := true, lost := d.lost + 1 })
  else (s.dumpPut d d.off bs, { d with off := d.off + bs.length, images := d.images + 1 })

/-- The dump of a PID into its area; DONE is written last. In compatibility mode only the header and the cause chain are
written (15 R393). -/
def State.writeDump (s : State) (pid : BitVec 12) (area : Nat) (compat : Bool) : State :=
  let size := (memWord s.mem area).toNat
  let d0 : DumpOut := { area := area, size := size, off := 0x1400, images := 0, lost := 0, trunc := decide (size < (if compat then 0x300 else 0x1400)) }
  let (s1, d) :=
    if compat then (s, d0)
    else
      let tiles := (List.range 16).foldl (fun (t : State) k => t.dumpPut d0 (0x300 + 256 * k) (s.dumpTile k)) s
      let t1 : State := { tiles with freeCtr := s.freeCtr + 216 * 16 }
      let imgs (r : State × DumpOut) (n : Nat) : State × DumpOut :=
        State.dumpImage ({ r.1 with freeCtr := r.1.freeCtr + 43 }, r.2) (r.1.residentImage n)
      let r1 := (t1.residents pid).foldl imgs (t1, d0)
      (r1.1.outsideSorted pid).foldl (fun (r : State × DumpOut) x => State.dumpImage r (r.1.outsideImage x)) r1
  let s2 := (s1.dumpPut d 8 (s1.dumpHeader pid d compat false)).dumpPut d 0x100 (s1.dumpCauses pid)
  (s2.dumpPut d 8 (s2.dumpHeader pid d compat true)).modJob pid (fun j => { j with trunc := d.trunc })

/-! ## Release and report (steps 4 and 5) -/

/-- Every strand of a PID is discarded and counted as CANCELLED; no launch that this makes due takes place (15 R390). -/
def State.discardAll (s : State) (pid : BitVec 12) : State :=
  let drop (t : State) (n : Nat) : State :=
    let x := t.slotAt n
    let t1 := (((t.leaveActions n).leaveWaits x.sid).dropReservation x.sid).countOnce n
    (t1.endRecord (slotQuad n) (t1.slotAt n) 5).vacate n
  let s1 := (s.residents pid).foldl drop s
  let s2 := (s1.outside (fun r => r.pid = pid)).foldl (fun (t : State) x => t.discardStrand x) s1
  let s3 : State :=
    { s2 with items := s2.items.filter (fun i => i.record.pid ≠ pid), away := s2.away.filter (fun e => e.2.record.pid ≠ pid)
              barriers := s2.barriers.filter (fun e => e.2.2 ≠ pid) }
  (s3.dropDeferred pid).modJob pid (fun j => { j with count := 0 })

/-- Every slab of a PID's banks, and every half of its pass buffers, is flipped to 0 (15 R390). -/
def State.flipAll (s : State) (pid : BitVec 12) : State :=
  let owned (t : Nat) : List Owned :=
    let k := s.tile t
    ((List.range 1024).filter (fun n => decide (k.ownerOf n ≠ 0) && decide ((k.bank (n / 64)).pid = pid))).map (Owned.slab t) ++
      (if k.pbPid = pid then ((List.range 4).filter (fun h => decide (k.halfOwner h ≠ 0))).map (Owned.half t) else [])
  ((List.range 16).flatMap owned).foldl (fun (t : State) o => t.flip o 0) s

/-- The palettes that a PID owns become EMPTY (15 R390). -/
def Optics.dropPals (o : Optics) (pid : BitVec 12) : Optics :=
  { o with pals := o.pals.map (fun k => match k with | some p => if p.pid = pid then none else some p | none => none) }

/-- Queues, logs and messages in transit of a PID are dropped (15 R393 step 4). -/
def State.dropVirtual (s : State) (pid : BitVec 12) : State :=
  { s with transit := s.transit.filter (fun m => m.pid ≠ pid) }.modJob pid (fun j =>
    { j with lps := [], varnish := [], lines := [], dead := [], deadPut := 0, fullAt := none, fullEvt := false, round := false, fround := 0 })

/-- The release of a context's resources (15 R390 step 4). -/
def State.releaseContext (s : State) (pid : BitVec 12) : State :=
  let s1 := ((s.discardAll pid).flipAll pid).dropVirtual pid
  let s2 := s1.modOptics (fun o => o.dropPals pid)
  let s3 := (s2.modJob pid (fun j => { j with vjb := none, vpt := 0 })).leaveFt pid
  { s3 with tlb := s3.tlb.filter (fun e => e.pid ≠ pid), known := s3.known.filter (fun k => k.pid ≠ pid) }

/-- DUMPED is reported, and the PID is a new context from now on (15 R390 steps 4 and 5). -/
def State.reportDump (s : State) (pid : BitVec 12) : State :=
  let s1 := s.execEvent 0 0x11 (pid.toNat + 4096 * b2n (s.job pid).trunc) pid
  ({ s1 with dumpQ := s1.dumpQ.filter (fun p => p ≠ pid) } : State).modJob pid (fun j =>
    { j with causes := [], dumping := 0, trunc := false, compat := 0, snap := [] })

/-- The area of a dump lies in local HBM4 as a whole. -/
def State.areaOk (s : State) (area : Nat) : Bool :=
  decide (area + 8 ≤ Config.hbmBytes) && decide (area + (memWord s.mem area).toNat ≤ Config.hbmBytes)

/-- A fatal event in the sequencer itself: DUMPF is recorded and the device is device-fatal (15 R392). -/
def State.dumpFailed (s : State) (pid : BitVec 12) (area : Nat) : State :=
  (s.note 0x12 pid (BitVec.ofNat 64 area) 0).deviceFatal

/-- The dump sequencer acts: it freezes the contexts that have become fatal, and of the oldest one, once everything has
settled, writes the dump, releases the resources and reports (15 R390, R392). -/
def execDumpSequence (s : State) : Result :=
  match s.dumpQ.find? (fun p => decide ((s.job p).dumping = 0)) with
  | some p => .next (s.freeze p)
  | none =>
    match s.dumpQ with
    | [] => .next s
    | pid :: _ =>
      if (s.job pid).dumping ≠ 1 || !s.settled pid then .next s
      else
        let s1 := s.settleStrands pid
        match (s1.job pid).dump with
        | none => .next ((s1.releaseContext pid).reportDump pid)
        | some (area, compat) =>
          if !s1.areaOk area then .next (s1.dumpFailed pid area)
          else
            let s2 := s1.writeDump pid area compat
            if compat then .next (s2.modJob pid (fun j => { j with dumping := 2, compat := 0 }))
            else .next ((s2.releaseContext pid).reportDump pid)

/-! ## Compatibility mode (15 R393) -/

/-- A launch queue is torn down (12 R311). -/
def LaunchQueue.tear (q : LaunchQueue) : LaunchQueue :=
  { q.dropped q.fifo.length with en := false, fifo := [], qgen := q.qgen + 1, torn := true }

/-- A step of the reset of the engines for a PID; every engine has already ended its commands of the PID, since the context
had settled. -/
def State.compatStep (s : State) (pid : BitVec 12) (k : Nat) : State :=
  match k with
  | 0 => { s with queues := s.queues.map (fun e => (e.1, if e.2.pid = pid then e.2.tear else e.2)) }
  | 1 => s.discardAll pid
  | 3 => (s.transit.filter (fun m => m.pid = pid)).foldl (fun (t : State) m => t.dropRequest m) (s.dropVirtual pid)
  | 6 => s.modOptics (fun o => o.dropPals pid)
  | 7 => s.flipAll pid
  | 8 => { s with tlb := s.tlb.filter (fun e => e.pid ≠ pid) }
  | 9 => { s with replies := s.replies.filter (fun e => e.pid ≠ pid), rsvqs := s.rsvqs.filter (fun q => !q.waiters.isEmpty) }
  | _ => s

/-- The sequencer resets the next engine in the order of 15 R393; after the tenth it reports. -/
def execCompatEngineReset (s : State) : Result :=
  match s.dumpQ with
  | [] => .next s
  | pid :: _ =>
    let j := s.job pid
    if j.dumping ≠ 2 || !s.settled pid then .next s
    else
      let s1 := (s.compatStep pid j.compat).modJob pid (fun j => { j with compat := j.compat + 1 })
      if j.compat < 9 then .next s1 else .next (s1.reportDump pid)

end Sys2Proof.Machine
end

