-- ==== Sys2Proof/Machine/Platform.lean ====
section
/-!
DEFINITION. Reset, bring-up, the writes of the device registers, keys, the memory window, the launch queues, the mailbox
and the in-field scan test (12 R309 to R311; 16 R409 to R419).
-/

namespace Sys2Proof.Machine

/-! ## Reset (16 R412) -/

/-- Give every HBM4 sector that holds something the generation it was written under, so that no later key reads it
(04 R95; 16 R412). -/
def sealSectors (sectors : List (Nat × Nat)) : List Host.Cell → List (Nat × Nat)
  | [] => sectors
  | c :: r =>
    let l := sealSectors sectors r
    if c.1 < Config.hbmBytes && (alGet l (c.1 / 64)).isNone then alSet l (c.1 / 64) 0 else l

/-- A cold reset: everything is discarded but HBM4, host memory, and what the module holds for good: its fuses, its flash,
its identity keys, its count of one-time keys, the generator of keys, and its lasers, of which one that failed stays failed until
the module is serviced (01 R7). The image that the flash holds takes effect (16 R416). The agenda and the counter of free values are the model's own. -/
def State.coldReset (s : State) : State :=
  let p := s.plat
  { State.reset with
    mem := s.mem.filter (fun c => decide (c.1 < 2 ^ 52))
    sectors := sealSectors s.sectors s.mem
    plat := { Platform.reset with keyGen := p.keyGen, minVer := p.minVer, flash := p.flash, image := p.flash
                                  verified := if p.flash = p.image then p.verified else none
                                  identKey := p.identKey, lmsLeft := p.lmsLeft
                                  spare := p.spare, src := p.src != p.switching }
    agenda := s.agenda
    freeCtr := s.freeCtr }

/-- What a warm reset leaves of an optical tile and its clock: the counts since cold reset (09 R235; 15 R399). A tile that a failed
calibration made DIGITAL is DARK as every other and is calibrated again (09 R217; 16 R412; assumption 108). -/
def Tile.warm (t : Tile) : Tile :=
  { Tile.reset with grants := t.grants, opt := { Optics.reset with calgen := t.opt.calgen } }

/-- A warm reset: as a cold one, but TIME, the sketchbook, FABCFG, the logical core map and the counts since cold reset
stay (15 R389, R405; 16 R412). -/
def State.warmReset (s : State) : State :=
  let p := s.plat
  let c := s.coldReset
  ({ c with
    ticks := s.ticks, sketch := s.sketch, skHead := s.skHead, skFrozen := s.skFrozen, corr := s.corr, uncorr := s.uncorr
    tiles := s.tiles.map (fun e => (e.1, e.2.warm))
    plat := { c.plat with
      image := p.image, verified := p.verified, timeOff := s.ticks, fabv := p.fabv, dev := p.dev, ncm1 := p.ncm1, ndm1 := p.ndm1, coreMap := p.coreMap } } : State).retiredDigital

/-- A cold reset (16 R412). -/
def execColdReset (s : State) : Result := .next s.coldReset

/-- A warm reset (16 R412). -/
def execWarmReset (s : State) : Result := .next s.warmReset

/-! ## Bring-up (16 R413, R416) -/

/-- The capacities of the column slices are ones a part can have (16 R414). -/
def slicesOk (l : List Nat) : Bool := decide (l.length = 16) && l.all (fun n => decide (2 ≤ n) && decide (n ≤ 4)) && decide (l.sum = 48)

/-- Each column slice owns its count of home-slice entries (04 R91). -/
def hstOk (slices hst : List Nat) : Bool :=
  decide (hst.length = 48) && slices.zipIdx.all (fun e => decide (hst.count e.2 = e.1))

/-- The firmware starts a strand of the Wemotha executive in slot 0 of the service core of a quadrant, from a record of its
own (01 R10; 16 R413 step 3; assumption 94). -/
def State.startExecutive (s : State) (e : BitVec 2 × BitVec 512) : State :=
  let n := 16 * (256 + e.1.toNat)
  let words := (List.range 8).map (fun k => e.2.extractLsb' (64 * k) 64)
  let r : Rec := { Rec.ofWords words with exec := true, opt := false, new := false, mode := (s.core (n / 16)).mode }
  if (s.slotAt n).occ || (s.strandOf (strandId r.pid r.frame)).isSome then s
  else
    (s.setSlot n { Slot.vacant with
      occ := true, pc := nthW words 0, record := r, rstate := 1, since := s.ticks
      status := { Slot.vacant.status with exec := true } }).modJob r.pid (fun j => { j with count := j.count + 1 })

/-- What the verification of the image in effect finds: what it found before, or else one of the outcomes there are but a
version below the fuse, which the fuse decides (16 R410, R416). -/
def Platform.verdict (p : Platform) (err : BitVec 8) (version : Nat) : Option (BitVec 8 × Nat) :=
  match p.verified with
  | some v => some v
  | none => if err = 0 || err = 1 || err = 2 || err = 4 then some (err, version) else none

/-- The elevators that fail their boot tests are retired (04 R93; 16 R413). -/
def State.retireElevs (s : State) (l : List (BitVec 6)) : State :=
  l.foldl (fun (t : State) e => match execElevatorRetire e.toNat t with | .next u => u | _ => t) s

/-- Boot steps 1 to 3 (16 R413): `err` is what verification finds, `version` the image's; the tests leave the cores of `coreMap`
in service and find its elevators failed, the discovery table is written, and the executive starts on the service cores with the
records of `starts`. -/
def execBootSequence (err : BitVec 8) (version : Nat) (coreMap : BitVec 256 × List (BitVec 6)) (tables : List Nat × List Nat)
    (starts : List (BitVec 2 × BitVec 512)) (s : State) : Result :=
  if s.plat.boot ≠ 0 || s.plat.bootErr ≠ 0 then .next s
  else
    match s.plat.verdict err version with
    | none => .next s
    | some v =>
      let s0 := s.modPlat (fun p => { p with verified := some v })
      if v.1 ≠ 0 then .next (s0.modPlat (fun p => { p with bootErr := v.1 }))
      else if v.2 < s.plat.minVer then .next (s0.modPlat (fun p => { p with bootErr := 3 }))
      else
        let fit := slicesOk tables.1 && hstOk tables.1 tables.2
        let s1 := ((s0.modPlat (fun p =>
          { p with boot := 3, minVer := v.2, fwVer := v.2, coreMap := p.coreMap &&& coreMap.1
                   slices := if fit then tables.1 else p.slices, hst := if fit then tables.2 else p.hst })).tableChange.retiredDigital).retireElevs
          coreMap.2
        .next (starts.foldl (fun (t : State) e => t.startExecutive e) s1)

/-- Boot step 4, with which steps 5 and 6 begin (16 R413). -/
def execAperturesOpen (s : State) : Result :=
  if s.plat.boot ≠ 3 then .next s
  else
    let s1 := (s.modPlat (fun p => { p with boot := 4, svc := 1 })).tableChange
    .next s1.calibAll.serviceTiles.trainAll

/-- A write of FABCFG (16 R410): ignored once accepted; VALID = 1 accepts the fields, publishes them and lets the ports
train (16 R413). -/
def State.fabcfgPut (s : State) (v : Word) : State :=
  if s.plat.fabv then s
  else
    let s1 := s.modPlat (fun p =>
      { p with dev := v.setWidth 11, ncm1 := BitVec.ofNat 4 (fld v 25 22), ndm1 := BitVec.ofNat 4 (fld v 29 26), fabv := bitOf v 30 })
    if !bitOf v 30 then s1
    else if 4 ≤ s1.plat.boot then s1.tableChange.trainAll
    else s1.tableChange

/-- FABCFG is written (16 R410). -/
def execFabcfgWrite (v : BitVec 64) (s : State) : Result := .next (s.fabcfgPut v)

/-! ## Keys (16 R418) -/

/-- A key operation begins; one in progress lets none begin. -/
def State.keyBegin (s : State) (pid : BitVec 12) (op : BitVec 2) : State :=
  if s.plat.keyOp ≠ 0 then s else s.modPlat (fun p => { p with keyPid := pid, keyOp := op })

/-- OP = 1 (16 R418). -/
def execKeyctlGenerate (pid : BitVec 12) (s : State) : Result := .next (s.keyBegin pid 1)

/-- OP = 2 (16 R418). -/
def execKeyctlErase (pid : BitVec 12) (s : State) : Result := .next (s.keyBegin pid 2)

/-- The operation in progress completes: a new key, or none (16 R418). -/
def execKeyctlDone (s : State) : Result :=
  let p := s.plat
  let s1 := s.modPlat (fun q => { q with keyOp := 0 })
  match p.keyOp.toNat with
  | 1 => .next ((s1.modJob p.keyPid (fun j => { j with key := some p.keyGen })).modPlat (fun q => { q with keyGen := q.keyGen + 1 }))
  | 2 => .next (s1.modJob p.keyPid (fun j => { j with key := none }))
  | _ => .next s

/-! ## The memory window (16 R411) -/

/-- The window serves an access. -/
def State.windowOk (s : State) (off len : Nat) : Bool :=
  s.plat.winEn && decide (off + len ≤ Config.hbmBytes) && (s.job s.plat.winPid).key.isSome

/-- An access is refused and counted in WERR. -/
def State.windowRefuse (s : State) : State := s.modPlat (fun p => { p with werr := BitVec.ofNat 20 (satTo 20 (p.werr.toNat + 1)) })

/-- A host read through BAR 2 (16 R411); after a boot failure BAR 2 does not answer, which the host reads as ones (16 R413;
assumption 111). -/
def execWindowRead (off len : Nat) (s : State) : Result :=
  if s.plat.bootErr ≠ 0 then .next (s.modPlat (fun p => { p with winData := List.replicate len 0xFF }))
  else if s.windowOk off len then
    let bs := s.homeBytes s.plat.winPid off len
    .next (s.modPlat (fun p => { p with winData := bs }))
  else .next (s.windowRefuse.modPlat (fun p => { p with winData := List.replicate len 0xFF }))

/-- A host write through BAR 2 (16 R411), which after a boot failure does not answer (16 R413; assumption 111). -/
def execWindowWrite (off : Nat) (data : List (BitVec 8)) (s : State) : Result :=
  if s.plat.bootErr ≠ 0 then .next s
  else if s.windowOk off data.length then .next (s.homePut s.plat.winPid off data) else .next s.windowRefuse

/-! ## Launch queues (12 R309 to R311) -/

/-- The 64-byte blocks of a write's bytes. -/
def blocksOf : Nat → List Byte → List (BitVec 512)
  | 0, _ => []
  | n + 1, bs => BitVec.ofNat 512 (leNat (bs.take 64)) :: blocksOf n (bs.drop 64)

/-- A record arrives at a queue's FIFO, or is dropped (12 R309; 15 R390; 16 R413). -/
def State.launchRecord (s : State) (queue : Nat) (r : BitVec 512) : State :=
  let q := s.queue queue
  if s.plat.svc = 0 || !q.en || 256 ≤ q.fifo.length || s.isFrozen q.pid then s.modQueue queue (fun k => k.dropped 1)
  else s.modQueue queue (fun k => { k with fifo := k.fifo ++ [r] })

/-- A PCIe write to an aperture (12 R309); after a boot failure BAR 1 does not answer (16 R413; assumption 111). -/
def execLaunchRecordWrite (queue off : Nat) (data : List (BitVec 8)) (s : State) : Result :=
  if 4096 ≤ queue || s.plat.bootErr ≠ 0 then .next s
  else if off % 64 = 0 && decide (0 < data.length) && decide (data.length % 64 = 0) && decide (off + data.length ≤ 4096) then
    .next ((blocksOf (data.length / 64) data).foldl (fun (t : State) r => t.launchRecord queue r) s)
  else .next (s.modQueue queue (fun k => k.dropped 1))

/-- What a host read of an aperture in BAR 1 returns: zeros (12 R309). -/
def apertureRead (len : Nat) : List Byte := List.replicate len 0

/-- The eight doublewords of a record. -/
def recordWords (r : BitVec 512) : List Word := (List.range 8).map (fun k => r.extractLsb' (64 * k) 64)

/-- The service core of the queue's quadrant takes the oldest record and launches it; one that it cannot launch is dropped
and recorded with its reason (12 R309). -/
def execServiceLaunch (queue : Nat) (s : State) : Result :=
  let q := s.queue queue
  match q.fifo with
  | [] => .next s
  | r :: rest =>
    let s1 := s.modQueue queue (fun k => { k with fifo := rest })
    if s1.isFrozen q.pid then .next (s1.modQueue queue (fun k => k.dropped 1))
    else
      let l : Launcher :=
        { pid := q.pid, exec := false, prio := q.pmax, router := coreRouter (256 + q.quad.toNat), quad := q.quad.toNat }
      match s1.spawnWords l 0 (recordWords r) true with
      | .ok s2 => .next s2
      | .error (c, v) => .next ((s1.modQueue queue (fun k => k.dropped 1)).note 0x05 q.pid (c.code.setWidth 64) v)

/-- QCTL is written but for TEAR (12 R310). -/
def LaunchQueue.put (q : LaunchQueue) (v : Word) : LaunchQueue :=
  let a : LaunchQueue :=
    if !q.en && q.fifo.isEmpty then
      { q with pid := BitVec.ofNat 12 (fld v 35 24), pmax := BitVec.ofNat 4 (fld v 23 20), quad := BitVec.ofNat 2 (fld v 19 18) }
    else q
  { a with en := bitOf v 0, torn := a.torn && !bitOf v 0, sdrop := if fld v 63 52 = 0 then a.sdrop else 0, ldrop := if fld v 51 40 = 0 then a.ldrop else 0 }

/-- QCTL is written (12 R310, R311). -/
def State.qctlPut (s : State) (queue : Nat) (v : Word) : State :=
  if 4096 ≤ queue then s
  else s.modQueue queue (fun q => if bitOf v 1 then (q.put v).tear else q.put v)

/-- QCTL is written (12 R310). -/
def execQctlWrite (queue : Nat) (v : BitVec 64) (s : State) : Result := .next (s.qctlPut queue v)

/-- A queue is torn down (12 R311). -/
def execQctlTear (queue : Nat) (s : State) : Result :=
  if queue < 4096 then .next (s.modQueue queue (fun q => q.tear)) else .next s

/-! ## The attestation mailbox (16 R417) -/

/-- A command is written: it begins unless one is in progress. -/
def State.mailCommand (s : State) (v : Word) : State :=
  if bitOf s.plat.mbStat 0 then s.modPlat (fun p => { p with mbCmd := v, mbStat := 0, mbRes := none }) else s

/-- The command in progress, not yet performed. -/
def State.mailPending (s : State) (c : Nat) : Bool :=
  !bitOf s.plat.mbStat 0 && s.plat.mbRes.isNone && decide (s.plat.mbCmd.toNat = c)

/-- The bytes of a response; what keys, certificates and signatures hold is free (assumption 9). -/
def freeResponse (ctr : Nat) : List Byte := (List.range 0xF00).map (fun k => Config.freeMailbox ctr k)

/-- The fields of a report that the spec defines: MAGIC as in the discovery table, DEV, STEP, ARCH, fused minimum and firmware
version; their widths and the order of the bytes are the model's (16 R417; assumption 9). -/
def Platform.reportHead (p : Platform) : List Byte :=
  natLe 4 0x3153445A ++ natLe 2 (if p.fabv then p.dev.toNat else 0xFFFF) ++ natLe 1 0xB0 ++ natLe 2 1 ++ natLe 4 p.minVer ++
    natLe 4 p.fwVer

/-- The response to ATTEST: the report with a free digest and the nonce, then free signatures (16 R417; assumption 9). -/
def Platform.report (p : Platform) (free : List Byte) : List Byte :=
  (p.reportHead ++ free.take 48 ++ natLe 32 p.mbArg.toNat ++ free.drop 48).take 0xF00

/-- ATTEST is performed: one one-time key is spent; without one there is no report (16 R417). -/
def execAttest (s : State) : Result :=
  if !s.mailPending 1 then .next s
  else if s.plat.lmsLeft = 0 then .next (s.modPlat (fun p => { p with mbRes := some 2 }))
  else
    let bs := freeResponse s.freeCtr
    .next (s.tickFree.modPlat (fun p => { p with mbRes := some 0, lmsLeft := p.lmsLeft - 1, mbResp := p.report bs }))

/-- IDENT is performed: the module's identity, the same at every command (16 R415, R417). -/
def execIdent (s : State) : Result :=
  if !s.mailPending 2 then .next s
  else
    .next (s.modPlat (fun p =>
      { p with mbRes := some 0, mbResp := (List.range 0xF00).map (fun k => Config.freeIdent p.identKey k) }))

/-- The bytes that the staging area holds. -/
def Platform.staged (p : Platform) (n : Nat) : List Byte := (List.range n).map (fun k => (alGet p.mbStage k).getD 0)

/-- FWWRITE is performed: the staged block goes to module flash (16 R416, R417). The argument's first doubleword is the
offset, its second the length; a length above 4,096 is a bad command. -/
def execFwwrite (s : State) : Result :=
  if !s.mailPending 3 then .next s
  else
    let off := s.plat.mbArg.toNat % 2 ^ 64
    let len := s.plat.mbArg.toNat / 2 ^ 64 % 2 ^ 64
    if 4096 < len then .next (s.modPlat (fun p => { p with mbRes := some 1 }))
    else .next (s.modPlat (fun p => { p with mbRes := some 0, flash := p.flash ++ [(off, p.staged len)] }))

/-- The command in progress completes with its result; an unknown command is a bad one, and a flash that fails to write
ends FWWRITE with an error (16 R417). -/
def execMailboxCommandDone (flashOk : Bool) (s : State) : Result :=
  let p := s.plat
  let c := p.mbCmd.toNat
  if bitOf p.mbStat 0 then .next s
  else
    let bad := decide (c = 3) && decide (p.mbRes = some 0) && !flashOk
    let code : Option (BitVec 8) := if bad then some 3 else if 1 ≤ c && c ≤ 3 then p.mbRes else some 1
    match code with
    | none => .next s
    | some r =>
      .next (s.modPlat (fun p =>
        { p with mbStat := packFields [(r.toNat, 8), (1, 0)], flash := if bad then p.flash.dropLast else p.flash }))

/-- Bytes of an area that a doubleword write sets. -/
def putStage (l : List (Nat × Byte)) (off : Nat) : List Byte → List (Nat × Byte)
  | [] => l
  | b :: bs => putStage (alSet l off b) (off + 1) bs

/-- A doubleword of the mailbox is written: command, argument or staging area (16 R417). -/
def State.mailPut (s : State) (off : Nat) (v : Word) : State :=
  if off = 0 then s.mailCommand v
  else if off < 0x38 then
    let k := off - 8
    s.modPlat (fun p =>
      { p with mbArg := (p.mbArg &&& ~~~(((BitVec.allOnes 64).setWidth 384) <<< (8 * k))) ||| ((v.setWidth 384) <<< (8 * k)) })
  else if 0x1000 ≤ off then s.modPlat (fun p => { p with mbStage := putStage p.mbStage (off - 0x1000) (natLe 8 v.toNat) })
  else s

/-! ## In-field scan test (16 R419) -/

/-- START = 1 begins a test of the target that SCANCTL names: a core drains, an elevator's cores are held. -/
def State.scanBegin (s : State) : State :=
  let p := s.plat
  let n := p.scTarget.toNat
  if p.scState ≠ 0 || (p.scElev && decide (64 ≤ n)) then s
  else
    let run (st : BitVec 2) : State :=
      s.modPlat (fun q => { q with scState := st, runElev := p.scElev, runTarget := n, scAt := s.ticks })
    if p.scElev then
      (List.range 260).foldl (fun (t : State) c => if t.elevOf c = n then t.modCore c (fun k => { k with hold := true }) else t) (run 2)
    else
      let back (i : Item) : Item := match i.taken with | some (c, _) => if c = n then { i with taken := none } else i | none => i
      let s1 : State := { run 1 with items := s.items.map back }
      let here := s1.occSlots.filter (fun e => decide (e.1 / 16 = n))
      (here.foldl (fun (t : State) e => t.modSlot e.1 (fun x => { x with bound := { x.bound with preempt := true } })) s1).scanEmpty

/-- SCANCTL is written (16 R419). -/
def State.scanctlPut (s : State) (v : Word) : State :=
  let s1 := s.modPlat (fun p => { p with scElev := bitOf v 20, scPrio := BitVec.ofNat 4 (fld v 19 16), scTarget := BitVec.ofNat 8 (fld v 15 8) })
  if bitOf v 0 then s1.scanBegin else s1

/-- SCANCTL is written with START = 1 (16 R419). -/
def execScanStart (v : BitVec 64) (s : State) : Result := .next (s.scanctlPut (v ||| 1))

/-- The test ends with a result: RUNS counts it, and the core under test is in mode 16 when empty. -/
def State.scanEnd (s : State) (result : BitVec 4) (counts : Bool) : State :=
  let p := s.plat
  let s1 := s.modPlat (fun q =>
    { q with scState := 0, scResult := result, scRuns := if counts then BitVec.ofNat 32 (satTo 32 (q.scRuns.toNat + 1)) else q.scRuns })
  if !p.runElev && (s1.usedSlots p.runTarget).isEmpty then s1.modCore p.runTarget (fun c => { c with mode := 0 }) else s1

/-- A strand of the core under test has missed the 40 µs bound: the test is refused and the strand stays (16 R419). -/
def execScanDrainTimeout (s : State) : Result :=
  let p := s.plat
  if !(p.scState = 1 && decide (p.scAt + 80000 < s.ticks)) then .next s
  else
    let mine (e : Nat × Slot) : Bool :=
      decide (e.1 / 16 = p.runTarget) && !s.preempts.any (fun q => q.left.contains e.2.sid)
    let s1 := (s.occSlots.filter mine).foldl (fun (t : State) e =>
      t.modSlot e.1 (fun x => { x with bound := { x.bound with preempt := false } })) s
    .next ((s1.scanEnd 4 false).offerOverflow p.runTarget)

/-- The strands of the core under test that stand at safe points are written back (12 R307; 16 R419). -/
def State.scanDrain (s : State) (core : Nat) : State :=
  (List.range 16).foldl (fun (t : State) k =>
    match execPreemptWriteback (16 * core + k) t with | .next u => u | _ => t) s

/-- An item of priority APRIO or above has come to the core under test: once the core is empty the test is aborted, its mode is
16, and it takes the item (16 R419). In the drain the strands that stand at safe points leave first; one that does not delays the
abort, up to the bound of the drain (assumption 70). -/
def execScanAbort (item : Nat) (s : State) : Result :=
  match s.items[item]? with
  | none => .next s
  | some i =>
    let c := gridCore i.x i.y
    let near := decide (gridDist i.x i.y i.record.hx.toNat i.record.hy.toNat ≤ i.radius)
    if !(s.underTest c && near && i.taken.isNone && i.ovq.isNone && decide (s.plat.scPrio.toNat ≤ i.record.prio.toNat)) then .next s
    else
      let s0 := if s.plat.scState = 1 then s.scanDrain c else s
      if !(s0.usedSlots c).isEmpty then .next s0
      else
        let s1 := s0.scanEnd 3 false
        (match s1.roomFor c i.record with
         | some k => .next (s1.takeItem item c k)
         | none => .next s1)

/-- A core that failed leaves the logical core map until the next cold reset, and with an issuing core its tile is DIGITAL
(01 R9, R12; 16 R419). -/
def State.coreFails (s : State) (core : Nat) : State :=
  (s.modPlat (fun p => { p with coreMap := p.coreMap &&& ~~~((1 : Mask) <<< core) })).tableChange.retiredDigital.serviceTiles

/-- The pattern ends (16 R419). -/
def execScanPatternDone (pass : Bool) (s : State) : Result :=
  let p := s.plat
  if p.scState ≠ 2 then .next s
  else
    let s1 := s.scanEnd (if pass then 1 else 2) true
    if p.runElev then
      let s2 := (List.range 260).foldl (fun (t : State) c =>
        if t.elevOf c = p.runTarget then t.modCore c (fun k => { k with hold := false }) else t) s1
      if pass then .next s2 else execElevatorRetire p.runTarget s2
    else if pass then .next (s1.offerOverflow p.runTarget)
    else .next (s1.coreFails p.runTarget)

/-! ## Register writes (16 R409) -/

/-- LCTL of a port is written (14 R362). -/
def State.lctlPut (s : State) (port : Nat) (v : Word) : State :=
  match s.ports[port]? with
  | none => s
  | some p =>
    let s1 := s.modPort port (fun q => { q with skid := bitOf v 2, maxw := BitVec.ofNat 3 (fld v 5 3) })
    let s2 := if bitOf v 0 = p.en then s1 else s1.portEnable port (bitOf v 0)
    if bitOf v 6 then s2.retrain port else s2

/-- A register of a port is written: LCTL, or a 1 in LHW.LCERR clears it (14 R362, R363). -/
def State.portPut (s : State) (port off : Nat) (v : Word) : State :=
  if off = 0 then s.lctlPut port v
  else if 0x40 ≤ off && off < 0xC0 && decide (fld v 15 0 ≠ 0) then
    s.modPort port (fun q =>
      match q.lanes[(off - 0x40) / 8]? with
      | some l => { q with lanes := q.lanes.setIfInBounds ((off - 0x40) / 8) { l with lcerr := 0 } }
      | none => q)
  else s

/-- DEVCTL is written (16 R410). -/
def State.devctlPut (s : State) (v : Word) : State :=
  if bitOf v 1 then s.coldReset else if bitOf v 0 then s.warmReset else s

/-- WINCTL is written (16 R410). -/
def State.winctlPut (s : State) (v : Word) : State :=
  s.modPlat (fun p =>
    { p with winPid := BitVec.ofNat 12 (fld v 63 52), winEn := bitOf v 0, werr := if fld v 51 32 = 0 then p.werr else 0 })

/-- KEYCTL is written; nothing while an operation is in progress (16 R418). -/
def State.keyctlPut (s : State) (v : Word) : State :=
  if s.plat.keyOp ≠ 0 then s
  else
    let op := fld v 1 0
    s.modPlat (fun p => { p with keyPid := BitVec.ofNat 12 (fld v 63 52), keyOp := if op = 1 || op = 2 then BitVec.ofNat 2 op else 0 })

/-- Write a device register: an aligned doubleword of the map of 16 R409; an offset it leaves out, and what is read only,
ignores the write. -/
def State.regWrite (s : State) (off : Nat) (v : Word) : State :=
  if off % 8 ≠ 0 then s
  else if off = 0x08 then s.devctlPut v
  else if off = 0x10 then s.fabcfgPut v
  else if off = 0x18 then s.winctlPut v
  else if off = 0x20 then s.keyctlPut v
  else if off = 0x28 then s.scanctlPut v
  else if 0x20000 ≤ off && off < 0x28000 then s.qctlPut ((off - 0x20000) / 8) v
  else if 0x30000 ≤ off && off < 0x30800 then s.portPut ((off - 0x30000) / 0x100) (off % 0x100) v
  else if off = 0x30800 then
    s.modPlat (fun p =>
      { p with pfail := BitVec.ofNat 12 (fld v 43 32), mfail := BitVec.ofNat 12 (fld v 31 20), bfail := BitVec.ofNat 8 (fld v 19 12) })
  else if off = 0x30808 then s.laserReq (v.setWidth 2)
  else if off = 0x60000 then s.skctlPut v
  else if 0x70000 ≤ off && off < 0x72000 then s.mailPut (off - 0x70000) v
  else s

/-- A store to a device register arrives, or the host writes one (16 R409). -/
def execRegisterWrite (off : Nat) (v : BitVec 64) (s : State) : Result := .next (s.regWrite off v)

end Sys2Proof.Machine
end

