-- ==== Sys2Proof/Machine/Uses.lean ====
section
/-!
DEFINITION. What the interlock, the divider, the vector unit and the ordering instructions know of an instruction: the
registers it reads and writes, its fixed latency, the unit it occupies, and whether it reaches memory (02 R31; 03 R51, R52;
05 R118, R124; 07 R179; 08 R186, R205).
-/

namespace Sys2Proof.Machine

/-- The unit that an instruction occupies, and for how many cycles (03 R52; 08 R205). -/
inductive CoreUnit where
  | none
  | divider (n : Nat)
  | vector (n : Nat)
  deriving DecidableEq, Repr

/-- What an instruction does with registers: `partly` says that it leaves part of its destinations unchanged, so that it
reads them too (08 R186); `lat` is its fixed latency, 0 where it has none (03 R51). -/
structure Use where
  reads  : List RegName
  writes : List RegName
  partly : Bool
  lat    : Nat
  unit   : CoreUnit
  deriving DecidableEq, Repr

/-- Latency and occupancy by element width, from the row of 08 R205; 0 where the form faults at the width. -/
def Slot.vt (x : Slot) (l8 l16 l32 l64 o8 o16 o32 o64 : Nat) : Nat × Nat :=
  match x.vw.toNat with
  | 0 => (l8, o8)
  | 1 => (l16, o16)
  | 2 => (l32, o32)
  | _ => (l64, o64)

/-- Element width of a conversion code (07 R176). -/
def cvtWidth (x : Slot) (c : BitVec 3) : Nat :=
  match c.toNat with
  | 0 => 32
  | 1 => 16
  | 2 => 16
  | 3 => 8
  | 4 => 8
  | _ => x.ew

/-- A `vcvt` fills only one part of its destination (07 R176; 08 R186). -/
def vcvtNarrows (x : Slot) (t f : BitVec 3) : Bool := decide (cvtWidth x t < cvtWidth x f)

/-- The registers, latency and unit of an instruction in a slot; nothing for one that names no register and for an event.
08 R186 names among the readers of their destination every form whose lane mask names p1 to p7; `vsel` and `vcmp` write the
whole destination whatever the mask, so that they are taken not to read it (DEDUCED; assumption 97). -/
def instrUse (x : Slot) : Instr → Use
  | .add d a b _ | .sub d a b _ | .and d a b _ | .or d a b _ | .xor d a b _ | .andn d a b _ | .orn d a b _
    | .xnor d a b _ | .sll d a b _ | .srl d a b _ | .sra d a b _ | .rol d a b _ | .min d a b _ | .max d a b _
    | .minn d a b _ | .maxn d a b _ | .adds d a b _ | .subs d a b _ | .addsn d a b _ | .subsn d a b _
    | .cmpEq d a b _ | .cmpNe d a b _ | .cmpLt d a b _ | .cmpGe d a b _ | .cmpLtn d a b _ | .cmpGen d a b _
    | .addW d a b _ | .subW d a b _ | .sllW d a b _ | .srlW d a b _ | .sraW d a b _ | .rolW d a b _ | .fmin d a b _
    | .fmax d a b _ | .fcmpEq d a b _ | .fcmpLt d a b _ | .fcmpLe d a b _ | .fcmpUn d a b _ =>
    { reads := [.g a.toNat, .g b.toNat], writes := [.g d.toNat], partly := false, lat := 4, unit := .none }
  | .mul d a b _ | .mulh d a b _ | .mulhn d a b _ | .mulW d a b _ | .fadd d a b _ _ | .fsub d a b _ _
    | .fmul d a b _ _ =>
    { reads := [.g a.toNat, .g b.toNat], writes := [.g d.toNat], partly := false, lat := 8, unit := .none }
  | .div d a b _ | .divn d a b _ | .rem d a b _ | .remn d a b _ =>
    { reads := [.g a.toNat, .g b.toNat], writes := [.g d.toNat], partly := false, lat := 36, unit := .divider 36 }
  | .clz d a _ | .ctz d a _ | .popc d a _ | .brev d a _ | .bswap d a _ | .sextB d a _ | .sextH d a _ | .sextW d a _
    | .zextB d a _ | .zextH d a _ | .zextW d a _ | .sllImm d a _ _ _ | .srlImm d a _ _ _ | .sraImm d a _ _ _
    | .rolImm d a _ _ _ | .sllWImm d a _ _ | .srlWImm d a _ _ | .sraWImm d a _ _ | .rolWImm d a _ _
    | .addImm d a _ _ | .andImm d a _ _ | .orImm d a _ _ | .xorImm d a _ _ | .cmpLtImm d a _ _ | .cmpLtnImm d a _ _
    | .fabs d a _ | .fneg d a _ | .fminK d a _ _ | .fmaxK d a _ _ | .addK d a _ _ | .andK d a _ _ | .orK d a _ _
    | .xorK d a _ _ | .cmpEqK d a _ _ | .cmpLtK d a _ _ | .fminLit d a _ _ | .fmaxLit d a _ _ | .addLit d a _ _
    | .andLit d a _ _ | .orLit d a _ _ | .xorLit d a _ _ | .cmpEqLit d a _ _ | .cmpLtLit d a _ _ | .callr d a _ =>
    { reads := [.g a.toNat], writes := [.g d.toNat], partly := false, lat := 4, unit := .none }
  | .sel d a b _ =>
    { reads := [.g d.toNat, .g a.toNat, .g b.toNat], writes := [.g d.toNat], partly := false, lat := 4, unit := .none }
  | .divW d a b _ | .divnW d a b _ | .remW d a b _ | .remnW d a b _ =>
    { reads := [.g a.toNat, .g b.toNat], writes := [.g d.toNat], partly := false, lat := 20, unit := .divider 20 }
  | .fdiv d a b _ _ =>
    { reads := [.g a.toNat, .g b.toNat], writes := [.g d.toNat], partly := false, lat := 24, unit := .divider 24 }
  | .fma d a b _ _ | .fnma d a b _ _ =>
    { reads := [.g d.toNat, .g a.toNat, .g b.toNat], writes := [.g d.toNat], partly := false, lat := 8, unit := .none }
  | .fsqrt d a _ _ =>
    { reads := [.g a.toNat], writes := [.g d.toNat], partly := false, lat := 24, unit := .divider 24 }
  | .fcvtI32F d a _ _ | .fcvtI64F d a _ _ | .fcvtN32F d a _ _ | .fcvtN64F d a _ _ | .fcvtFI32 d a _ _
    | .fcvtFI64 d a _ _ | .fcvtFN32 d a _ _ | .fcvtFN64 d a _ _ | .faddK d a _ _ | .fsubK d a _ _ | .fmulK d a _ _
    | .faddLit d a _ _ | .fsubLit d a _ _ | .fmulLit d a _ _ =>
    { reads := [.g a.toNat], writes := [.g d.toNat], partly := false, lat := 8, unit := .none }
  | .fmov d _ | .fmovK d _ _ | .movK d _ _ | .movnK d _ _ | .fmovLit d _ _ | .movLit d _ _ | .movnLit d _ _ =>
    { reads := [], writes := [.g d.toNat], partly := false, lat := 4, unit := .none }
  | .fmaK d a _ _ | .fnmaK d a _ _ | .fmaLit d a _ _ | .fnmaLit d a _ _ =>
    { reads := [.g d.toNat, .g a.toNat], writes := [.g d.toNat], partly := false, lat := 8, unit := .none }
  | .beqz a _ _ | .bnez a _ _ | .bltz a _ _ | .bgez a _ _ | .bgtz a _ _ | .blez a _ _ | .jr a _ | .loop _ a _ _
    | .cwb a _ | .cinv a _ | .cwbi a _ | .setfmt a _ | .stfmt a _ | .pass a _ | .passr a _ | .pflr a _ | .psel a _
    | .xmm a _ | .xmmStrict a _ | .coll a _ | .migr a _ | .spawn a _ | .cancelG a _ | .cancelGr a _ | .cancelJ a _
    | .ownw a _ | .msend a _ | .varn a _ | .srw a _ _ | .srset a _ _ | .srclr a _ _ | .clkm a _ =>
    { reads := [.g a.toNat], writes := [], partly := false, lat := 0, unit := .none }
  | .bany p _ _ | .ball p _ _ | .bnone p _ _ =>
    { reads := [.p p.toNat], writes := [], partly := false, lat := 0, unit := .none }
  | .call l _ _ =>
    { reads := [], writes := [.g l.toNat], partly := false, lat := 4, unit := .none }
  | .ldL d b _ _ _ =>
    { reads := [.g b.toNat], writes := [.g d.toNat], partly := false, lat := 6, unit := .none }
  | .stL d b _ _ _ | .stS d b _ _ _ _ | .stG d b _ _ _ _ =>
    { reads := [.g d.toNat, .g b.toNat], writes := [], partly := false, lat := 0, unit := .none }
  | .ldS d b _ _ _ _ | .ldG d b _ _ _ _ =>
    { reads := [.g b.toNat], writes := [.g d.toNat], partly := false, lat := 0, unit := .none }
  | .vldL v a b p _ =>
    { reads := [.g a.toNat, .g b.toNat, .p p.toNat], writes := [.v (physV x.vwin v)], partly := decide (p ≠ 0), lat := 8, unit := .none }
  | .vstL v a b p _ | .vstS v a b p _ _ | .vstG v a b p _ _ _ =>
    { reads := [.v (physV x.vwin v), .g a.toNat, .g b.toNat, .p p.toNat], writes := [], partly := false, lat := 0, unit := .none }
  | .vldS v a b p _ _ | .vldG v a b p _ _ =>
    { reads := [.g a.toNat, .g b.toNat, .p p.toNat], writes := [.v (physV x.vwin v)], partly := decide (p ≠ 0), lat := 0, unit := .none }
  | .vgthS v a b p _ _ | .vgthG v a b p _ _ =>
    { reads := [.g a.toNat, .v (physV x.vwin b), .p p.toNat], writes := [.v (physV x.vwin v)], partly := decide (p ≠ 0), lat := 0, unit := .none }
  | .vsctS v a b p _ _ | .vsctG v a b p _ _ _ =>
    { reads := [.v (physV x.vwin v), .g a.toNat, .v (physV x.vwin b), .p p.toNat], writes := [], partly := false, lat := 0, unit := .none }
  | .pfG a b _ | .bankcfg a b _ | .stGBNt a b _ | .stGHNt a b _ | .stGWNt a b _ | .stGDNt a b _ | .cp a b _
    | .phld a b _ | .phst a b _ | .dcmp a b _ | .prmt a b _ | .gdep a b _ | .redAdd a b _ _ | .redAnd a b _ _
    | .redOr a b _ _ | .redXor a b _ _ | .redMin a b _ _ | .redMax a b _ _ | .redMinn a b _ _ | .redMaxn a b _ _
    | .redFadd a b _ | .stf a b _ | .give a b _ =>
    { reads := [.g a.toNat, .g b.toNat], writes := [], partly := false, lat := 0, unit := .none }
  | .vadd v a b p _ _ | .vsub v a b p _ _ | .vmul v a b p _ _ | .vscale v a b p _ _ =>
    { reads := [.v (physV x.vwin a), .v (physV x.vwin b), .p p.toNat], writes := [.v (physV x.vwin v)], partly := decide (p ≠ 0), lat := (x.vt 8 8 8 0 1 1 1 0).1, unit := .vector (x.vt 8 8 8 0 1 1 1 0).2 }
  | .vfma v a b p _ _ | .vfnma v a b p _ _ =>
    { reads := [.v (physV x.vwin v), .v (physV x.vwin a), .v (physV x.vwin b), .p p.toNat], writes := [.v (physV x.vwin v)], partly := decide (p ≠ 0), lat := (x.vt 8 8 8 0 1 1 1 0).1, unit := .vector (x.vt 8 8 8 0 1 1 1 0).2 }
  | .vmin v a b p _ | .vmax v a b p _ =>
    { reads := [.v (physV x.vwin a), .v (physV x.vwin b), .p p.toNat], writes := [.v (physV x.vwin v)], partly := decide (p ≠ 0), lat := (x.vt 4 4 4 4 1 1 1 1).1, unit := .vector (x.vt 4 4 4 4 1 1 1 1).2 }
  | .vabs v a p _ | .vneg v a p _ =>
    { reads := [.v (physV x.vwin a), .p p.toNat], writes := [.v (physV x.vwin v)], partly := decide (p ≠ 0), lat := (x.vt 4 4 4 4 1 1 1 1).1, unit := .vector (x.vt 4 4 4 4 1 1 1 1).2 }
  | .vdiv v a b p _ _ =>
    { reads := [.v (physV x.vwin a), .v (physV x.vwin b), .p p.toNat], writes := [.v (physV x.vwin v)], partly := decide (p ≠ 0), lat := (x.vt 48 32 24 0 32 16 8 0).1, unit := .vector (x.vt 48 32 24 0 32 16 8 0).2 }
  | .vsqrt v a p _ _ =>
    { reads := [.v (physV x.vwin a), .p p.toNat], writes := [.v (physV x.vwin v)], partly := decide (p ≠ 0), lat := (x.vt 48 32 24 0 32 16 8 0).1, unit := .vector (x.vt 48 32 24 0 32 16 8 0).2 }
  | .vrcp v a p _ | .vrsqrt v a p _ | .vexp2 v a p _ | .vlog2 v a p _ =>
    { reads := [.v (physV x.vwin a), .p p.toNat], writes := [.v (physV x.vwin v)], partly := decide (p ≠ 0), lat := (x.vt 12 12 12 0 4 2 1 0).1, unit := .vector (x.vt 12 12 12 0 4 2 1 0).2 }
  | .vaddI v a b p _ | .vsubI v a b p _ | .vminI v a b p _ | .vminN v a b p _ | .vmaxI v a b p _ | .vmaxN v a b p _
    | .vandI v a b p _ | .vorI v a b p _ | .vxorI v a b p _ | .vsllI v a b p _ | .vsrlI v a b p _ | .vsraI v a b p _
    | .vaddsI v a b p _ | .vaddsN v a b p _ | .vsubsI v a b p _ | .vsubsN v a b p _ =>
    { reads := [.v (physV x.vwin a), .v (physV x.vwin b), .p p.toNat], writes := [.v (physV x.vwin v)], partly := decide (p ≠ 0), lat := (x.vt 4 4 4 4 1 1 1 1).1, unit := .vector (x.vt 4 4 4 4 1 1 1 1).2 }
  | .vmulI v a b p _ | .vmulhI v a b p _ | .vmulhN v a b p _ =>
    { reads := [.v (physV x.vwin a), .v (physV x.vwin b), .p p.toNat], writes := [.v (physV x.vwin v)], partly := decide (p ≠ 0), lat := (x.vt 8 8 8 12 1 1 1 2).1, unit := .vector (x.vt 8 8 8 12 1 1 1 2).2 }
  | .vmlaI v a b p _ =>
    { reads := [.v (physV x.vwin v), .v (physV x.vwin a), .v (physV x.vwin b), .p p.toNat], writes := [.v (physV x.vwin v)], partly := decide (p ≠ 0), lat := (x.vt 8 8 8 12 1 1 1 2).1, unit := .vector (x.vt 8 8 8 12 1 1 1 2).2 }
  | .vabsI v a p _ | .vmov v a p _ =>
    { reads := [.v (physV x.vwin a), .p p.toNat], writes := [.v (physV x.vwin v)], partly := decide (p ≠ 0), lat := (x.vt 4 4 4 4 1 1 1 1).1, unit := .vector (x.vt 4 4 4 4 1 1 1 1).2 }
  | .vcmpEq d a b p _ | .vcmpNe d a b p _ | .vcmpLt d a b p _ | .vcmpLe d a b p _ | .vcmpGt d a b p _
    | .vcmpGe d a b p _ | .vcmpUn d a b p _ =>
    { reads := [.v (physV x.vwin a), .v (physV x.vwin b), .p p.toNat], writes := [.p d.toNat], partly := false, lat := (x.vt 4 4 4 4 1 1 1 1).1, unit := .vector (x.vt 4 4 4 4 1 1 1 1).2 }
  | .vcmpEqI d a b p _ | .vcmpNeI d a b p _ | .vcmpLtI d a b p _ | .vcmpLeI d a b p _ | .vcmpGtI d a b p _
    | .vcmpGeI d a b p _ | .vcmpEqN d a b p _ | .vcmpNeN d a b p _ | .vcmpLtN d a b p _ | .vcmpLeN d a b p _
    | .vcmpGtN d a b p _ | .vcmpGeN d a b p _ =>
    { reads := [.v (physV x.vwin a), .v (physV x.vwin b), .p p.toNat], writes := [.p d.toNat], partly := false, lat := (x.vt 4 4 4 4 1 1 1 1).1, unit := .vector (x.vt 4 4 4 4 1 1 1 1).2 }
  | .vrsum v a p _ | .vcsum v a p _ | .vrmax v a p _ | .vcmax v a p _ | .vrmin v a p _ | .vcmin v a p _ =>
    { reads := [.v (physV x.vwin a), .p p.toNat], writes := [.v (physV x.vwin v)], partly := true, lat := (x.vt 16 16 16 0 1 1 1 0).1, unit := .vector (x.vt 16 16 16 0 1 1 1 0).2 }
  | .vdot v a b p _ =>
    { reads := [.v (physV x.vwin a), .v (physV x.vwin b), .p p.toNat], writes := [.v (physV x.vwin v)], partly := true, lat := (x.vt 20 20 20 0 1 1 1 0).1, unit := .vector (x.vt 20 20 20 0 1 1 1 0).2 }
  | .vtrn v a p _ =>
    { reads := [.v (physV x.vwin a), .p p.toNat], writes := [.v (physV x.vwin v)], partly := decide (p ≠ 0), lat := (x.vt 8 8 8 8 2 2 2 2).1, unit := .vector (x.vt 8 8 8 8 2 2 2 2).2 }
  | .pand d a b _ | .por d a b _ | .pxor d a b _ | .pandn d a b _ =>
    { reads := [.p a.toNat, .p b.toNat], writes := [.p d.toNat], partly := false, lat := (x.vt 4 4 4 4 1 1 1 1).1, unit := .vector (x.vt 4 4 4 4 1 1 1 1).2 }
  | .pnot d a _ | .pfirst d a _ =>
    { reads := [.p a.toNat], writes := [.p d.toNat], partly := false, lat := (x.vt 4 4 4 4 1 1 1 1).1, unit := .vector (x.vt 4 4 4 4 1 1 1 1).2 }
  | .pcnt d a _ =>
    { reads := [.p a.toNat], writes := [.g d.toNat], partly := false, lat := (x.vt 4 4 4 4 1 1 1 1).1, unit := .vector (x.vt 4 4 4 4 1 1 1 1).2 }
  | .pset d a _ =>
    { reads := [.g a.toNat], writes := [.p d.toNat], partly := false, lat := (x.vt 4 4 4 4 1 1 1 1).1, unit := .vector (x.vt 4 4 4 4 1 1 1 1).2 }
  | .vcvt v a _ p t f _ =>
    { reads := [.v (physV x.vwin a), .p p.toNat], writes := [.v (physV x.vwin v)], partly := decide (p ≠ 0) || vcvtNarrows x t f, lat := (x.vt 8 8 8 8 1 1 1 1).1, unit := .vector (x.vt 8 8 8 8 1 1 1 1).2 }
  | .vpkBfp8 v a g _ _ =>
    { reads := [.v (physV x.vwin a)], writes := [.v (physV x.vwin v), .g g.toNat], partly := true, lat := (x.vt 12 12 12 12 1 1 1 1).1, unit := .vector (x.vt 12 12 12 12 1 1 1 1).2 }
  | .vupkBfp8 v a g _ _ =>
    { reads := [.v (physV x.vwin a), .g g.toNat], writes := [.v (physV x.vwin v)], partly := false, lat := (x.vt 8 8 8 8 1 1 1 1).1, unit := .vector (x.vt 8 8 8 8 1 1 1 1).2 }
  | .vpk v a b _ =>
    { reads := [.v (physV x.vwin a), .v (physV x.vwin b)], writes := [.v (physV x.vwin v)], partly := false, lat := (x.vt 4 4 4 4 1 1 1 1).1, unit := .vector (x.vt 4 4 4 4 1 1 1 1).2 }
  | .vupk v a _ _ =>
    { reads := [.v (physV x.vwin a)], writes := [.v (physV x.vwin v)], partly := false, lat := (x.vt 4 4 4 4 1 1 1 1).1, unit := .vector (x.vt 4 4 4 4 1 1 1 1).2 }
  | .vbcast v a p _ =>
    { reads := [.g a.toNat, .p p.toNat], writes := [.v (physV x.vwin v)], partly := decide (p ≠ 0), lat := (x.vt 4 4 4 4 1 1 1 1).1, unit := .vector (x.vt 4 4 4 4 1 1 1 1).2 }
  | .vins v a b _ =>
    { reads := [.g a.toNat, .g b.toNat], writes := [.v (physV x.vwin v)], partly := true, lat := (x.vt 4 4 4 4 1 1 1 1).1, unit := .vector (x.vt 4 4 4 4 1 1 1 1).2 }
  | .vext d a b _ =>
    { reads := [.v (physV x.vwin a), .g b.toNat], writes := [.g d.toNat], partly := false, lat := (x.vt 4 4 4 4 1 1 1 1).1, unit := .vector (x.vt 4 4 4 4 1 1 1 1).2 }
  | .vperm v a b p _ =>
    { reads := [.v (physV x.vwin a), .v (physV x.vwin b), .p p.toNat], writes := [.v (physV x.vwin v)], partly := decide (p ≠ 0), lat := (x.vt 8 8 8 8 2 2 2 2).1, unit := .vector (x.vt 8 8 8 8 2 2 2 2).2 }
  | .vsel v a b p _ =>
    { reads := [.v (physV x.vwin a), .v (physV x.vwin b), .p p.toNat], writes := [.v (physV x.vwin v)], partly := false, lat := (x.vt 4 4 4 4 1 1 1 1).1, unit := .vector (x.vt 4 4 4 4 1 1 1 1).2 }
  | .vzero v _ =>
    { reads := [], writes := [.v (physV x.vwin v)], partly := false, lat := (x.vt 4 4 4 4 1 1 1 1).1, unit := .vector (x.vt 4 4 4 4 1 1 1 1).2 }
  | .vrng v a b p _ =>
    { reads := [.g a.toNat, .g b.toNat, .p p.toNat], writes := [.v (physV x.vwin v)], partly := decide (p ≠ 0), lat := (x.vt 20 16 14 13 8 4 2 1).1, unit := .vector (x.vt 20 16 14 13 8 4 2 1).2 }
  | .vrngf v a b p _ =>
    { reads := [.g a.toNat, .g b.toNat, .p p.toNat], writes := [.v (physV x.vwin v)], partly := decide (p ≠ 0), lat := (x.vt 20 16 14 13 8 4 2 1).1, unit := .vector (x.vt 20 16 14 13 8 4 2 1).2 }
  | .vfmov v _ =>
    { reads := [], writes := [.v (physV x.vwin v)], partly := false, lat := (x.vt 4 4 4 4 1 1 1 1).1, unit := .vector (x.vt 4 4 4 4 1 1 1 1).2 }
  | .cpstat d _ | .pebc d _ | .ptkt d _ =>
    { reads := [], writes := [.g d.toNat], partly := false, lat := 0, unit := .none }
  | .passAck d a _ | .passrAck d a _ | .pselAck d a _ | .xmmAck d a _ | .xmmStrictAck d a _ | .cstat d a _
    | .gcnt d a _ | .lrw d a _ | .lde d a _ | .feq d a _ =>
    { reads := [.g a.toNat], writes := [.g d.toNat], partly := false, lat := 0, unit := .none }
  | .phldAck d a b _ | .phstAck d a b _ | .dcmpAck d a b _ | .amoAdd d a b _ _ | .amoAnd d a b _ _
    | .amoOr d a b _ _ | .amoXor d a b _ _ | .amoMin d a b _ _ | .amoMax d a b _ _ | .amoMinn d a b _ _
    | .amoMaxn d a b _ _ | .amoSwap d a b _ _ | .amoFadd d a b _ | .scr d a b _ | .stfw d a b _ =>
    { reads := [.g a.toNat, .g b.toNat], writes := [.g d.toNat], partly := false, lat := 0, unit := .none }
  | .amoCas d a b _ _ =>
    { reads := [.g d.toNat, .g a.toNat, .g b.toNat], writes := [.g d.toNat], partly := false, lat := 0, unit := .none }
  | .ldew d a b _ =>
    { reads := [.g a.toNat], writes := [.g d.toNat, .g b.toNat], partly := false, lat := 0, unit := .none }
  | .mrecv _ =>
    { reads := [], writes := [.g 20, .g 21, .g 22], partly := false, lat := 0, unit := .none }
  | .srr d sr _ =>
    { reads := [], writes := [.g d.toNat], partly := false, lat := (if sysSlotScope sr.toNat then 4 else 0), unit := .none }
  | _ => { reads := [], writes := [], partly := false, lat := 0, unit := .none }

/-- Whether an instruction is an access that an ordering instruction can hold, and if so whether it writes (05 R118, R124);
`pf.g` is not ordered. -/
def instrAccess : Instr → Option Bool
  | .ldL _ _ _ _ _ | .ldS _ _ _ _ _ _ | .ldG _ _ _ _ _ _ | .vldL _ _ _ _ _ | .vldS _ _ _ _ _ _ | .vldG _ _ _ _ _ _
    | .vgthS _ _ _ _ _ _ | .vgthG _ _ _ _ _ _ | .cwb _ _ | .cinv _ _ | .cwbi _ _ | .setfmt _ _ | .cpstat _ _
    | .pebc _ _ | .ptkt _ _ | .cstat _ _ _ | .gcnt _ _ _ | .lrw _ _ _ | .feq _ _ _ | .ownw _ _ | .mrecv _
    | .prmt _ _ _ => some false
  | .stL _ _ _ _ _ | .stS _ _ _ _ _ _ | .stG _ _ _ _ _ _ | .vstL _ _ _ _ _ | .vstS _ _ _ _ _ _ | .vstG _ _ _ _ _ _ _
    | .vsctS _ _ _ _ _ _ | .vsctG _ _ _ _ _ _ _ | .stGBNt _ _ _ | .stGHNt _ _ _ | .stGWNt _ _ _ | .stGDNt _ _ _
    | .stfmt _ _ | .cp _ _ _ | .pass _ _ | .passAck _ _ _ | .passr _ _ | .passrAck _ _ _ | .phld _ _ _
    | .phldAck _ _ _ _ | .phst _ _ _ | .phstAck _ _ _ _ | .psel _ _ | .pselAck _ _ _ | .dcmp _ _ _
    | .dcmpAck _ _ _ _ | .xmm _ _ | .xmmAck _ _ _ | .xmmStrict _ _ | .xmmStrictAck _ _ _ | .coll _ _ | .migr _ _
    | .spawn _ _ | .exit _ | .amoAdd _ _ _ _ _ | .amoAnd _ _ _ _ _ | .amoOr _ _ _ _ _ | .amoXor _ _ _ _ _
    | .amoMin _ _ _ _ _ | .amoMax _ _ _ _ _ | .amoMinn _ _ _ _ _ | .amoMaxn _ _ _ _ _ | .amoSwap _ _ _ _ _
    | .amoCas _ _ _ _ _ | .amoFadd _ _ _ _ | .redAdd _ _ _ _ | .redAnd _ _ _ _ | .redOr _ _ _ _ | .redXor _ _ _ _
    | .redMin _ _ _ _ | .redMax _ _ _ _ | .redMinn _ _ _ _ | .redMaxn _ _ _ _ | .redFadd _ _ _ | .scr _ _ _ _
    | .lde _ _ _ | .stf _ _ _ | .ldew _ _ _ _ | .stfw _ _ _ _ | .give _ _ _ | .bar _ | .msend _ _ | .varn _ _
    | .gdep _ _ _ | .cancelG _ _ | .cancelGr _ _ | .cancelJ _ _ | .bankcfg _ _ _ => some true
  | _ => none

/-- How an access may send a request of the core to the second level (04 R90, R92): always to the line's home slice, unless
the tile cache holds its bytes, or for the dirty bytes of a cached line. -/
inductive HomeUse where
  | home
  | cached (n : Nat)
  | line
  deriving DecidableEq, Repr

/-- The global addresses at which the executing strand's next instruction may send requests to the second level (04 R92;
06 R153; 12 R290 to R292, R303). A non-temporal store is among them, since it may make a buffer drain (04 R104). -/
def State.homeAsks (s : State) : Instr → List (Word × HomeUse)
  | .ldG _ b o z _ _ | .stG _ b o z _ _ => [(s.eaOf b o z, .cached (sizeOf_ z))]
  | .vldG _ a b _ _ _ | .vstG _ a b _ _ _ _ => [(s.hart.getG a + s.hart.getG b, .cached 256)]
  | .vgthG _ a b p _ _ | .vsctG _ a b p _ _ _ => (s.hart.active p).map (fun i => (s.hart.gatherAddr a b i, .cached s.hart.wb))
  | .pfG a b _ => [(s.hart.getG a + s.hart.getG b, .cached 256)]
  | .cwb a _ | .cinv a _ | .cwbi a _ => [(s.hart.getG a, .line)]
  | .setfmt a _ | .stfmt a _ => [(s.hart.getG a, .cached 16)]
  | .stGBNt a _ _ | .stGHNt a _ _ | .stGWNt a _ _ | .stGDNt a _ _ | .spawn a _ | .gcnt _ a _ | .cancelG a _ | .cancelGr a _
    | .amoAdd _ a _ _ _ | .amoAnd _ a _ _ _ | .amoOr _ a _ _ _ | .amoXor _ a _ _ _ | .amoMin _ a _ _ _ | .amoMax _ a _ _ _
    | .amoMinn _ a _ _ _ | .amoMaxn _ a _ _ _ | .amoSwap _ a _ _ _ | .amoCas _ a _ _ _ | .amoFadd _ a _ _
    | .redAdd a _ _ _ | .redAnd a _ _ _ | .redOr a _ _ _ | .redXor a _ _ _ | .redMin a _ _ _ | .redMax a _ _ _
    | .redMinn a _ _ _ | .redMaxn a _ _ _ | .redFadd a _ _ | .lrw _ a _ | .scr _ a _ _ => [(s.hart.getG a, .home)]
  | .gdep a b _ => [(s.hart.getG a, .home), (s.hart.getG b, .home)]
  | .bar _ => if s.hart.record.gcb = 0 then [] else [(s.hart.record.gcb, .home)]
  | _ => []

/-- The access sends a request to the second level: its address is in local HBM4 and no tile cache serves it alone (04 R90,
R92). -/
def State.asksHome (s : State) (a : Word) (u : HomeUse) : Bool :=
  match (s.translate (slotQuad s.hid) s.hart.pid s.hart.status.exec a .read).1 with
  | .error _ => false
  | .ok x =>
    let held := match (s.pathOf s.coreNo s.hart.pid x.cached x.hint).tile with
      | some t => (s.tile t).findLine (x.pa / 256)
      | none => none
    decide (s.region x.pa = .hbm) &&
      (match u, held with
       | .home, _ => true
       | .cached n, some c => (List.range 4).any (fun k => overlaps (x.pa % 256) n (64 * k) 64 && !c.valid.getLsbD k)
       | .cached _, none => true
       | .line, some c => decide (c.dirty ≠ 0)
       | .line, none => false)

/-- ROUTE.HOLD keeps back the next instruction of slot `n`: the core issues no new request to the second level (04 R92). A
relaxed access under way has been issued, a tile's write-back is the tile's request, and instruction fetches are not held, or
no strand of the core could clear HOLD (DEDUCED; assumption 15). -/
def State.homeHeld (s : State) (n : Nat) (i : Instr) : Bool :=
  (s.core (n / 16)).hold && ((s.setFocus n).homeAsks i).any (fun e => (s.setFocus n).asksHome e.1 e.2)

/-- An instruction that is accepted, or takes effect, only after every earlier access of the slot is performed (05 R124;
13 R320, R322, R336). -/
def instrAwaits : Instr → Bool
  | .cp _ _ _ | .pass _ _ | .passAck _ _ _ | .passr _ _ | .passrAck _ _ _ | .phld _ _ _ | .phldAck _ _ _ _ | .phst _ _ _
    | .phstAck _ _ _ _ | .psel _ _ | .pselAck _ _ _ | .dcmp _ _ _ | .dcmpAck _ _ _ _ | .xmm _ _ | .xmmAck _ _ _
    | .xmmStrict _ _ | .xmmStrictAck _ _ _ | .coll _ _ | .spawn _ _ | .bar _ | .msend _ _ | .mrecv _ | .mend _
    | .varn _ _ => true
  | _ => false

/-- The ordering instruction that an instruction is (05 R117). -/
def instrOrdering : Instr → Option Ordering
  | .fence sc _ => some { kind := 0, scope := sc, mask := 0 }
  | .rel sc _ => some { kind := 1, scope := sc, mask := 0 }
  | .acq m sc _ => some { kind := 2, scope := sc, mask := m }
  | _ => none

/-- An instruction with which a strand leaves its slot: `exit`, `migr`, and a write of XHOLD (05 R123; 15 R387). -/
def instrLeavesSlot : Instr → Bool
  | .exit _ | .migr _ _ => true
  | .srw _ sr _ => decide (sr.toNat = 0x809)
  | _ => false

end Sys2Proof.Machine
end

