-- ==== Sys2Proof/Machine/Barrel.lean ====
section
/-!
DEFINITION. The barrel of a core (02 R30, R31, R36; 03 R50 to R53, R76; 15 R384, R400, R402): what a visit of a slot finds,
what passes consume and count, and what an issue leaves behind.
-/

namespace Sys2Proof.Machine

/-! ## Fetch (02 R25, R26, R32, R33, R36; 03 R76) -/

/-- What an instruction fetch answers. -/
inductive Fetched where
  | instr (i : Instr)
  | illegal (w : BitVec 32)
  | bad (c : FetchCause) (va : Word)
  /-- Another device that holds the words has not sent them. -/
  | far
  deriving DecidableEq, Repr

/-- The fetch cause of a translation cause or a target check. -/
def fetchCause (c : Cause) : FetchCause :=
  match c with
  | .tnc => .tnc
  | .tnv => .tnv
  | .tres => .tres
  | .tuser => .tuser
  | .tperm => .tperm
  | .pcaln => .pcaln
  | .littgt => .littgt
  | .runreach => .runreach
  | .rtimeo => .rtimeo
  | _ => .tnomem

/-- A word of the body of the innermost loop that the loop buffer holds (03 R76). -/
def Slot.buffered (x : Slot) (a : Word) : Option (BitVec 32) :=
  match x.loops with
  | [] => none
  | e :: _ => if e.has a then (x.lbuf.find? (fun c => c.1 = a)).map (·.2) else none

/-- Capture a fetched word in the loop buffer, which is empty outside loops (03 R76). -/
def Slot.capture (x : Slot) (a : Word) (w : BitVec 32) : Slot :=
  match x.loops with
  | [] => { x with lbuf := [] }
  | e :: _ => if e.has a then { x with lbuf := (a, w) :: x.lbuf } else x

/-- Fetch a word for slot `n`, from its loop buffer where that holds it. -/
def State.fetchAt (s : State) (n : Nat) (a : Word) : Except Cause (Option (BitVec 32)) × State :=
  match (s.slotAt n).buffered a with
  | some w => (.ok (some w), s)
  | none =>
    match s.fetchWord n a with
    | (.ok (some w), s1) => (.ok (some w), s1.modSlot n (fun x => x.capture a w))
    | r => r

/-- The instruction of a word at the PC of slot `n`, with the literal that follows a carrier. -/
noncomputable def State.fetchRest (s : State) (n : Nat) (pc : Word) (w : BitVec 32) : Fetched × State :=
  let found (k : BitVec 32) : Fetched := match decodeWord w k with | some i => .instr i | none => .illegal w
  if !isCarrier w then (found 0, s)
  else if pc.toNat % 8 ≠ 0 then (.illegal w, s)
  else
    match s.fetchAt n (pc + 4) with
    | (.error c, s1) => (.bad (fetchCause c) (pc + 4), s1)
    | (.ok none, s1) => (.far, s1)
    | (.ok (some k), s1) => (found k, s1)

/-- The next instruction of the strand in slot `n`, with its literal; the state keeps what the fetch cached. At a PC that is no
multiple of 4 no word is fetched (02 R25): translation alone comes before PCALN (02 R36). -/
noncomputable def State.fetchNext (s : State) (n : Nat) : Fetched × State :=
  let x := s.slotAt n
  let pc := x.pc
  if pc.toNat % 4 ≠ 0 then
    match s.translate (slotQuad n) x.pid x.status.exec pc .fetch with
    | (.error c, s1) => (.bad (fetchCause c) pc, s1)
    | (.ok _, s1) => (.bad .pcaln 0, s1)
  else
    match s.fetchAt n pc with
    | (.error c, s1) => (.bad (fetchCause c) pc, s1)
    | (.ok none, s1) => (.far, s1)
    | (.ok (some w), s1) =>
      if x.landed && s1.targetFar (fetchId n) n pc then (.far, s1)
      else
      match (if x.landed then s1.targetBy (fetchId n) n pc else (none, s1)) with
      | (some c, s2) => (.bad (fetchCause c) 0, s2)
      | (none, s2) => s2.fetchRest n pc w

/-! ## Visits (02 R30; 03 R50) -/

/-- What a slot does at a visit where it acts: a trap or stop that is due at the boundary, a deferred fault, or its next
instruction (15 R384). -/
inductive Act where
  | step
  | event (i : Instr)
  | late (f : HeldFault)
  | instr (i : Instr) (hintFault : Bool)
  | illegal (w : BitVec 32)
  | bad (c : FetchCause) (va : Word)
  deriving DecidableEq, Repr

/-- What a visit of a slot finds: it acts, or it is passed for a reason. -/
inductive Visit where
  | act (a : Act)
  | pass (p : SlotPass)
  deriving DecidableEq, Repr

/-- The reason under which a parked strand's visit counts (15 R400). -/
def Park.visit : Park → SlotPass
  | .lde _ _ => .sync
  | .stf _ _ => .sync
  | .fifoLd _ _ => .sync
  | .fifoSt _ _ => .sync
  | .fifoVld _ _ => .sync
  | .fifoVst _ _ => .sync
  | .ownw _ => .sync
  | .lrw _ _ => .sync
  | .bar _ _ => .sync
  | .bankcfg _ => .engine
  | .bankHeld _ => .sync
  | .optQueue _ => .engine
  | .copyQueue _ => .engine
  | .xmmQueue _ => .engine
  | .collQueue _ _ _ _ => .engine
  | .pebc _ => .engine
  | .clkm => .engine
  | .prmt => .engine
  | .mrecv => .message
  | .logRoom _ => .message
  | .held => .message
  | .remote _ => .memory
  | .again => .memory
  | .sysreg => .memory
  | .frozen => .stopped

/-- Registers whose value is still to come from a relaxed access or a remote one (05 R116; 14 R350). -/
def State.pendingRegs (s : State) (n : Nat) : List RegName :=
  let x := s.slotAt n
  let ofKind (k : PendKind) : List RegName :=
    match k with | .loadG d => [.g d.toNat] | .loadV v _ => [.v v] | _ => []
  x.pend.flatMap (fun p => ofKind p.kind) ++
    (s.remote.filter (fun r => decide (r.strand = x.sid))).flatMap (fun r => ofKind r.dst)

/-- A register of a list awaits a fixed-latency result at a cycle (03 R51). -/
def Slot.notReady (x : Slot) (cycle : Nat) (l : List RegName) : Bool :=
  x.ready.any (fun e => l.contains e.1 && decide (cycle < e.2))

/-- The registers that an instruction reads for the interlock: its sources, and the destinations it writes in part
(02 R31; 08 R186). -/
def Use.needs (u : Use) : List RegName := if u.partly then u.reads ++ u.writes else u.reads

/-- The unit that an instruction needs is occupied (03 R52; 08 R205). -/
def Core.unitBusy (c : Core) (u : CoreUnit) : Bool :=
  match u with
  | .none => false
  | .divider _ => decide (c.cycle < c.divFree)
  | .vector n => decide (0 < n) && decide (c.cycle < c.vecFree)

/-- The next instruction's access is held: by an ordering instruction; by remote accesses that an ordering instruction, a
command, or a departure awaits; or by ROUTE.HOLD (04 R92; 05 R118, R123, R124). An ordering instruction waits for its
remote loads before it issues, so that the late fault of one of them is precise there (14 R350; assumption 76). -/
def State.accessHeld (s : State) (n : Nat) (i : Instr) : Bool :=
  let x := s.slotAt n
  (match x.ordr with
   | some o =>
     ((match instrAccess i with | some w => o.holds w | none => (instrOrdering i).isSome) || instrAwaits i) && s.orderOpen n o
   | none => false) ||
  (match instrOrdering i with | some o => s.orderWaits x.sid o | none => false) ||
  (instrAwaits i && s.orderWaits x.sid { kind := 1, scope := 1, mask := 0 }) ||
  (instrLeavesSlot i && s.leaveHeld n) || s.homeHeld n i

/-- The next instruction is to await the acknowledgements of non-temporal stores that are still in write-combining buffers,
which drain first: an ordering instruction of chassis scope or wider, or one with which the strand leaves its slot (05 R118,
R123; 14 R350). -/
def State.sendsFirst (s : State) (n : Nat) (i : Instr) : Bool :=
  s.farBuffered (n / 16) (s.slotAt n).sid &&
    (instrLeavesSlot i || (match instrOrdering i with | some o => s.orderSends n o | none => false))

/-- The fault of an earlier relaxed remote access that the next instruction takes: of a load at the first reader of its
destination or at an ordering instruction, of a store at an ordering instruction of chassis scope or wider, or as the strand
leaves its slot (14 R350). -/
def Slot.lateAt (x : Slot) (i : Instr) (needs : List RegName) : Option HeldFault :=
  let ord := instrOrdering i
  match x.lateLoad.find? (fun e => ord.isSome || needs.contains e.1) with
  | some e => some e.2
  | none =>
    let wide := match ord with | some o => decide (6 ≤ o.scope.toNat) | none => instrLeavesSlot i
    if wide then x.lateStore else none

/-- What is due at the boundary before the next instruction: STEP, CANCEL, PRMTO, a debug stop, a drive to a safe point, or
the fault of an earlier access (12 R304, R307, R308; 15 R384, R404). -/
noncomputable def State.boundary (s : State) (n : Nat) : Option Act :=
  let x := s.slotAt n
  if x.stepDue then some .step
  else if x.bound.cancel && !x.status.trap && s.cancelNow n then some (.event (.cancelTrap n))
  else if x.bound.prmto && !x.status.trap && !x.bound.cancel && x.park.isNone && x.acks.isEmpty && !s.trapWaits n then
    some (.event (.prmto n))
  else if s.stopDue n then some (.event (.dbgstopStop n))
  else if s.preemptDue n then some (.event (.preemptWriteback n))
  else
    match x.bound.late with
    | some f => if x.park.isNone && !s.trapWaits n then some (.late f) else none
    | none => none

/-- A strand that waits to issue its instruction again may do so (14 R353, R355). -/
def State.againReady (s : State) (n : Nat) (x : Slot) : Bool :=
  x.acks.isEmpty && decide (x.cpOut = 0) && !s.remoteBusy x.sid && !s.engineAwaits (targetId n)

/-- A strand whose access a bank held may issue it again: the switch has ended, and those held before it have gone (04 R85). -/
def State.bankOpen (s : State) (x : Slot) (k : Nat) : Bool :=
  !((s.tile (k / 16)).bank (k % 16)).sw && !s.heldBefore (k / 16) (k % 16) x.sid

/-- The visit of a strand that waits for nothing, with its next fetch known. -/
noncomputable def State.visitFetched (s : State) (n : Nat) (f : Fetched) : Visit :=
  let x := s.slotAt n
  let c := s.core (n / 16)
  let go (a : Act) : Visit := if 0 < x.skips then .pass .skip else .act a
  match f with
  | .bad k va => go (.bad k va)
  | .far => .pass .fetch
  | .illegal w => go (.illegal w)
  | .instr i =>
    let u := instrUse x i
    if c.unitBusy u.unit then .pass .unit
    else if s.sendsFirst n i then .pass .drain
    else if s.accessHeld n i then .pass .memory
    else if 0 < x.skips then .pass .skip
    else
      match x.lateAt i u.needs with
      | some g => .act (.late g)
      | none =>
        let late := x.notReady c.cycle u.needs
        if late && x.status.sbchk then .act (.instr i true)
        else if late then .pass .interlock
        else
          let named (r : RegName) : Bool := u.needs.contains r || u.writes.contains r
          if (s.pendingRegs n).any named then .pass .interlock
          else if (x.acks.map (fun d => RegName.g d.toNat)).any named then .pass .reply
          else .act (.instr i false)

/-- What a visit of slot `n` finds (03 R50). -/
noncomputable def State.visit (s : State) (n : Nat) : Visit :=
  let x := s.slotAt n
  if !x.occ then .pass .vacant
  else if s.isFrozen x.pid then .pass .stopped
  else
    match s.boundary n with
    | some a => .act a
    | none =>
      let parked : Option SlotPass :=
        match x.park with
        | some .again => if s.againReady n x then none else some .memory
        | some (.bankHeld k) => if s.bankOpen x k then none else some .sync
        | some p => some p.visit
        | none => none
      match parked with
      | some v => .pass v
      | none =>
        if x.bound.prmto || x.bound.late.isSome then .pass .memory
        else if x.record.opt && (((s.job x.pid).lp x.lp.lpid.toNat).due).isSome then .pass .message
        else if (s.core (n / 16)).cycle < x.notBefore then .pass .control
        else s.visitFetched n (s.fetchNext n).1

/-! ## Counting (15 R400, R402) -/

/-- The profile reason of a pass; none for a vacant or a frozen slot. -/
def passReason : SlotPass → Option Nat
  | .vacant => none
  | .interlock => some 1
  | .skip => some 2
  | .unit => some 3
  | .memory => some 4
  | .drain => some 4
  | .reply => some 7
  | .fetch => some 4
  | .sync => some 5
  | .message => some 6
  | .engine => some 7
  | .control => some 8
  | .stopped => none

/-- The class of a pass among SLC0 to SLC4. -/
def passSlc : SlotPass → Nat
  | .memory => 1
  | .drain => 1
  | .fetch => 1
  | .sync => 1
  | .message => 2
  | .vacant => 3
  | _ => 4

/-- A counter of the slot classes, saturating. -/
def Core.countSlc (c : Core) (k : Nat) : Core :=
  { c with slc := c.slc.setIfInBounds k (BitVec.ofNat 64 (satTo 64 ((c.slc[k]?.getD 0).toNat + 1))) }

/-- A bin of the readiness histogram, saturating. -/
def Core.countReady (c : Core) (k : Nat) : Core :=
  { c with rdyh := c.rdyh.setIfInBounds k (BitVec.ofNat 32 (satTo 32 ((c.rdyh[k]?.getD 0).toNat + 1))) }

/-- Count a visit of slot `n`: in the profile of its tile under a reason, and in a class of its core. -/
def State.countVisit (s : State) (n : Nat) (reason : Option Nat) (slc : Nat) : State :=
  let x := s.slotAt n
  let s1 :=
    match reason with
    | some r => if isService (n / 16) then s else s.profVisit (tileOf (n / 16)) x.pid x.pc r
    | none => s
  s1.modCore (n / 16) (fun c => c.countSlc slc)

/-- A visit that passes slot `n`: counted, and one opportunity consumed where a hint skips it (02 R30); words that another
device holds are asked for, and buffers that the next instruction waits for drain. -/
def State.passSlot (s : State) (n : Nat) (p : SlotPass) : State :=
  let s1 := s.countVisit n (passReason p) (passSlc p)
  if p = .skip then s1.modSlot n (fun x => { x with skips := x.skips - 1 })
  else if p = .fetch then s1.fetchAsk (fetchId n) n (s1.slotAt n).pc
  else if p = .drain then s1.sendBuffers n
  else s1

/-! ## Rounds (03 R50) -/

/-- Slots of a core still to be visited in this round, from the first on, as numbers of the machine. -/
def State.roundSlots (s : State) (core : Nat) : List Nat :=
  let c := s.core core
  ((List.range (modeSlots c.mode)).filter (fun k => decide (c.rot ≤ k))).map (fun k => 16 * core + k)

/-- The visits of a list of slots up to the first that acts: what passes, and who acts. -/
noncomputable def State.scanRound (s : State) : List Nat → List (Nat × SlotPass) × Option (Nat × Act)
  | [] => ([], none)
  | n :: r =>
    match s.visit n with
    | .act a => ([], some (n, a))
    | .pass p => let (l, o) := s.scanRound r; ((n, p) :: l, o)

/-- Apply the visits that pass. -/
def State.passAll (s : State) (l : List (Nat × SlotPass)) : State := l.foldl (fun (t : State) e => t.passSlot e.1 e.2) s

/-- A round of a core begins: the number of slots ready at its start is counted (15 R402). -/
def State.startRound (s : State) (core ready : Nat) : State :=
  let c := s.core core
  if c.rot = 0 && !c.issued then s.modCore core (fun c => c.countReady ready) else s

/-- The number of slots of a core that would act. -/
noncomputable def State.readySlots (s : State) (core : Nat) : Nat :=
  ((s.roundSlots core).filter (fun n => match s.visit n with | .act _ => true | .pass _ => false)).length

/-- TIME follows the most advanced core: a cycle lasts half a ns (15 R394, R405). -/
def State.follow (s : State) (core : Nat) : State :=
  { s with ticks := Nat.max s.ticks ((s.core core).cycle + s.plat.timeOff) }

/-- A cycle of a core passes. -/
def State.tick (s : State) (core : Nat) : State :=
  (s.modCore core (fun c => { c with cycle := c.cycle + 1 })).follow core

/-- The round of a core ends. -/
def State.endRound (s : State) (core : Nat) : State := s.modCore core (fun c => { c with rot := 0, issued := false })

/-- A round of a core in which no slot acts: every pass is counted and consumes what it consumes, and one idle cycle goes by
(03 R50). -/
def State.idleRound (s : State) (core : Nat) (passes : List (Nat × SlotPass)) : State :=
  (((s.startRound core 0).passAll passes).tick core).endRound core

/-- Before slot `n` of a core acts: the visits before it are passed, it is visited and becomes the executing slot, and the
round goes on behind it. -/
noncomputable def State.enterVisit (s : State) (core n : Nat) (passes : List (Nat × SlotPass)) : State :=
  ((((s.startRound core (s.readySlots core)).passAll passes).countVisit n (some 0) 0).modCore core (fun c =>
    { c with rot := n % 16 + 1, issued := true })).setFocus n

/-- What the fetch of the instruction that issues leaves behind, the strand no longer waiting to issue it again. -/
noncomputable def State.fetched (s : State) (n : Nat) (hintFault : Bool) : State :=
  ((s.fetchNext n).2.engineForget (fetchId n)).modSlot n (fun x => { x with park := none, sbHint := hintFault })

/-- The results of an instruction that issued at a cycle of the core: fixed latencies and occupied units, unless it trapped,
waits, or left its slot (03 R51, R52; 08 R205). -/
def State.issued (s : State) (core n : Nat) (pre : Slot) (u : Use) : State :=
  let x := s.slotAt n
  let c := s.core core
  let done := x.occ && decide (x.sid = pre.sid) && x.park.isNone && (x.status.trap == pre.status.trap) &&
    (x.bound.late.isSome == pre.bound.late.isSome)
  if !done then s
  else
    let l := u.writes.filter (fun r => r ≠ .p 0)
    let keep := x.ready.filter (fun e => !l.contains e.1 && decide (c.cycle < e.2))
    let s1 := s.modSlot n (fun y => { y with badRegs := y.badRegs.filter (fun e => !l.contains e.1), ready := keep ++ (if u.lat = 0 then [] else l.map (fun r => (r, c.cycle + u.lat))) })
    match u.unit with
    | .none => s1
    | .divider k => s1.modCore core (fun c => { c with divFree := c.cycle + k })
    | .vector k => s1.modCore core (fun c => { c with vecFree := if k = 0 then c.vecFree else c.cycle + k })

/-- A deferred fault is taken at the strand's next instruction: a delivered held fault even in a handler (13 R339), any other
as a fault of the instruction; the fault of a relaxed access goes once (14 R350). -/
def State.takeLate (s : State) (n : Nat) (f : HeldFault) : State :=
  let clear (x : Slot) : Slot :=
    { x with bound := { x.bound with late := none }, lateLoad := x.lateLoad.filter (fun e => e.2 ≠ f)
             lateStore := if x.lateStore = some f then none else x.lateStore }
  let s1 := s.modSlot n clear
  let pc := (s.slotAt n).pc
  if f.final then s1.takeTrap n f.cause f.xpc f.xval true
  else s1.raiseFault n { f with xpc := if f.late then pc else f.xpc }

/-- The STEP trap (15 R384). -/
def State.takeStep (s : State) (n : Nat) : State :=
  (s.modSlot n (fun x => { x with bound := { x.bound with step := false } })).raiseAt n Cause.step.code (s.slotAt n).pc 0 false

/-! ## Which core goes on -/

/-- Cores with a strand that is not frozen, with their cycle counters; the model lets the one furthest behind go on. -/
def State.liveCores (s : State) : List Nat :=
  (s.occSlots.filter (fun e => !s.isFrozen e.2.pid)).foldl (fun l e => setInsert l (e.1 / 16)) []

/-- Of two cores the one whose accesses of the same cycle arrive first: the lower (tile, core of the tile) (06 R146). -/
def coreFirst (c d : Nat) : Bool :=
  decide (tileOf c < tileOf d) || (decide (tileOf c = tileOf d) && decide (coreIdx c ≤ coreIdx d))

/-- The core of a list with the least cycle; of several the first by tile and by number in the tile (06 R146). -/
def State.leastCycle (s : State) : List Nat → Option Nat
  | [] => none
  | c :: r =>
    match s.leastCycle r with
    | none => some c
    | some d =>
      let x := (s.core c).cycle
      let y := (s.core d).cycle
      if y < x || (x = y && !coreFirst c d) then some d else some c

end Sys2Proof.Machine
end

