-- ==== Sys2Proof/Machine/ConstLit.lean ====
section
/-!
DEFINITION. Constant-bank and literal forms (03 R68, R69): one shared effect for each function, with the length of the form.
-/

namespace Sys2Proof.Machine

/-- `fadd` with a 32-bit operand (03 R69). -/
def State.constFadd (s : State) (len : Nat) (d a : BitVec 5) (k : BitVec 32) (h : BitVec 2) : Result :=
  s.issue Need.any (s.doneFp len h d 0 (fAdd fmt32 0 (s.hart.getF a) (d32 k.toNat)))

/-- `fsub` with a 32-bit operand (03 R69). -/
def State.constFsub (s : State) (len : Nat) (d a : BitVec 5) (k : BitVec 32) (h : BitVec 2) : Result :=
  s.issue Need.any (s.doneFp len h d 0 (fSub fmt32 0 (s.hart.getF a) (d32 k.toNat)))

/-- `fmul` with a 32-bit operand (03 R69). -/
def State.constFmul (s : State) (len : Nat) (d a : BitVec 5) (k : BitVec 32) (h : BitVec 2) : Result :=
  s.issue Need.any (s.doneFp len h d 0 (fMul fmt32 (s.hart.getF a) (d32 k.toNat)))

/-- `fma` with a 32-bit operand (03 R69). -/
def State.constFma (s : State) (len : Nat) (d a : BitVec 5) (k : BitVec 32) (h : BitVec 2) : Result :=
  s.issue Need.any (s.doneFp len h d 0 (fFma fmt32 0 false (s.hart.getF d) (s.hart.getF a) (d32 k.toNat)))

/-- `fnma` with a 32-bit operand (03 R69). -/
def State.constFnma (s : State) (len : Nat) (d a : BitVec 5) (k : BitVec 32) (h : BitVec 2) : Result :=
  s.issue Need.any (s.doneFp len h d 0 (fFma fmt32 0 true (s.hart.getF d) (s.hart.getF a) (d32 k.toNat)))

/-- `fmin` with a 32-bit operand (03 R69). -/
def State.constFmin (s : State) (len : Nat) (d a : BitVec 5) (k : BitVec 32) (h : BitVec 2) : Result :=
  s.issue Need.any (s.doneFp len h d 0 (fMinMax fmt32 false (s.hart.getF a) (d32 k.toNat)))

/-- `fmax` with a 32-bit operand (03 R69). -/
def State.constFmax (s : State) (len : Nat) (d a : BitVec 5) (k : BitVec 32) (h : BitVec 2) : Result :=
  s.issue Need.any (s.doneFp len h d 0 (fMinMax fmt32 true (s.hart.getF a) (d32 k.toNat)))

/-- `fmov` of a 32-bit operand (03 R69). -/
def State.constFmov (s : State) (len : Nat) (d : BitVec 5) (k : BitVec 32) (h : BitVec 2) : Result :=
  s.issue Need.any (s.doneFlags len h d (zextK k) 0)

/-- `add` with a 32-bit operand (03 R69). -/
def State.constAdd (s : State) (len : Nat) (d a : BitVec 5) (k : BitVec 32) (h : BitVec 2) : Result :=
  s.issue Need.any (s.doneFlags len h d (s.hart.getG a + sextK k) 0)

/-- `and` with a 32-bit operand (03 R69). -/
def State.constAnd (s : State) (len : Nat) (d a : BitVec 5) (k : BitVec 32) (h : BitVec 2) : Result :=
  s.issue Need.any (s.doneFlags len h d (s.hart.getG a &&& sextK k) 0)

/-- `or` with a 32-bit operand (03 R69). -/
def State.constOr (s : State) (len : Nat) (d a : BitVec 5) (k : BitVec 32) (h : BitVec 2) : Result :=
  s.issue Need.any (s.doneFlags len h d (s.hart.getG a ||| sextK k) 0)

/-- `xor` with a 32-bit operand (03 R69). -/
def State.constXor (s : State) (len : Nat) (d a : BitVec 5) (k : BitVec 32) (h : BitVec 2) : Result :=
  s.issue Need.any (s.doneFlags len h d (s.hart.getG a ^^^ sextK k) 0)

/-- `mov` of a 32-bit operand (03 R69). -/
def State.constMov (s : State) (len : Nat) (d : BitVec 5) (k : BitVec 32) (h : BitVec 2) : Result :=
  s.issue Need.any (s.doneFlags len h d (sextK k) 0)

/-- `movn` of a 32-bit operand (03 R69). -/
def State.constMovn (s : State) (len : Nat) (d : BitVec 5) (k : BitVec 32) (h : BitVec 2) : Result :=
  s.issue Need.any (s.doneFlags len h d (zextK k) 0)

/-- `cmpEq` with a 32-bit operand (03 R69). -/
def State.constCmpEq (s : State) (len : Nat) (d a : BitVec 5) (k : BitVec 32) (h : BitVec 2) : Result :=
  s.issue Need.any (s.doneFlags len h d (boolWord (decide (s.hart.getG a = sextK k))) 0)

/-- `cmpLt` with a 32-bit operand (03 R69). -/
def State.constCmpLt (s : State) (len : Nat) (d a : BitVec 5) (k : BitVec 32) (h : BitVec 2) : Result :=
  s.issue Need.any (s.doneFlags len h d (boolWord ((s.hart.getG a).slt (sextK k))) 0)

/-- `fadd` with a constant-bank operand (03 R68, R69). -/
def execFaddK (d a : BitVec 5) (k : BitVec 8) (h : BitVec 2) (s : State) : Result :=
  s.constFadd 4 d a (s.hart.getK k) h

/-- `fadd` with a literal operand (02 R32; 03 R69). -/
def execFaddLit (d a : BitVec 5) (k : BitVec 32) (h : BitVec 2) (s : State) : Result :=
  s.constFadd 8 d a k h

/-- `fsub` with a constant-bank operand (03 R68, R69). -/
def execFsubK (d a : BitVec 5) (k : BitVec 8) (h : BitVec 2) (s : State) : Result :=
  s.constFsub 4 d a (s.hart.getK k) h

/-- `fsub` with a literal operand (02 R32; 03 R69). -/
def execFsubLit (d a : BitVec 5) (k : BitVec 32) (h : BitVec 2) (s : State) : Result :=
  s.constFsub 8 d a k h

/-- `fmul` with a constant-bank operand (03 R68, R69). -/
def execFmulK (d a : BitVec 5) (k : BitVec 8) (h : BitVec 2) (s : State) : Result :=
  s.constFmul 4 d a (s.hart.getK k) h

/-- `fmul` with a literal operand (02 R32; 03 R69). -/
def execFmulLit (d a : BitVec 5) (k : BitVec 32) (h : BitVec 2) (s : State) : Result :=
  s.constFmul 8 d a k h

/-- `fma` with a constant-bank operand (03 R68, R69). -/
def execFmaK (d a : BitVec 5) (k : BitVec 8) (h : BitVec 2) (s : State) : Result :=
  s.constFma 4 d a (s.hart.getK k) h

/-- `fma` with a literal operand (02 R32; 03 R69). -/
def execFmaLit (d a : BitVec 5) (k : BitVec 32) (h : BitVec 2) (s : State) : Result :=
  s.constFma 8 d a k h

/-- `fnma` with a constant-bank operand (03 R68, R69). -/
def execFnmaK (d a : BitVec 5) (k : BitVec 8) (h : BitVec 2) (s : State) : Result :=
  s.constFnma 4 d a (s.hart.getK k) h

/-- `fnma` with a literal operand (02 R32; 03 R69). -/
def execFnmaLit (d a : BitVec 5) (k : BitVec 32) (h : BitVec 2) (s : State) : Result :=
  s.constFnma 8 d a k h

/-- `fmin` with a constant-bank operand (03 R68, R69). -/
def execFminK (d a : BitVec 5) (k : BitVec 8) (h : BitVec 2) (s : State) : Result :=
  s.constFmin 4 d a (s.hart.getK k) h

/-- `fmin` with a literal operand (02 R32; 03 R69). -/
def execFminLit (d a : BitVec 5) (k : BitVec 32) (h : BitVec 2) (s : State) : Result :=
  s.constFmin 8 d a k h

/-- `fmax` with a constant-bank operand (03 R68, R69). -/
def execFmaxK (d a : BitVec 5) (k : BitVec 8) (h : BitVec 2) (s : State) : Result :=
  s.constFmax 4 d a (s.hart.getK k) h

/-- `fmax` with a literal operand (02 R32; 03 R69). -/
def execFmaxLit (d a : BitVec 5) (k : BitVec 32) (h : BitVec 2) (s : State) : Result :=
  s.constFmax 8 d a k h

/-- `fmov` from the constant bank (03 R68, R69). -/
def execFmovK (d : BitVec 5) (k : BitVec 8) (h : BitVec 2) (s : State) : Result :=
  s.constFmov 4 d (s.hart.getK k) h

/-- `fmov` of a literal (02 R32; 03 R69). -/
def execFmovLit (d : BitVec 5) (k : BitVec 32) (h : BitVec 2) (s : State) : Result :=
  s.constFmov 8 d k h

/-- `add` with a constant-bank operand (03 R68, R69). -/
def execAddK (d a : BitVec 5) (k : BitVec 8) (h : BitVec 2) (s : State) : Result :=
  s.constAdd 4 d a (s.hart.getK k) h

/-- `add` with a literal operand (02 R32; 03 R69). -/
def execAddLit (d a : BitVec 5) (k : BitVec 32) (h : BitVec 2) (s : State) : Result :=
  s.constAdd 8 d a k h

/-- `and` with a constant-bank operand (03 R68, R69). -/
def execAndK (d a : BitVec 5) (k : BitVec 8) (h : BitVec 2) (s : State) : Result :=
  s.constAnd 4 d a (s.hart.getK k) h

/-- `and` with a literal operand (02 R32; 03 R69). -/
def execAndLit (d a : BitVec 5) (k : BitVec 32) (h : BitVec 2) (s : State) : Result :=
  s.constAnd 8 d a k h

/-- `or` with a constant-bank operand (03 R68, R69). -/
def execOrK (d a : BitVec 5) (k : BitVec 8) (h : BitVec 2) (s : State) : Result :=
  s.constOr 4 d a (s.hart.getK k) h

/-- `or` with a literal operand (02 R32; 03 R69). -/
def execOrLit (d a : BitVec 5) (k : BitVec 32) (h : BitVec 2) (s : State) : Result :=
  s.constOr 8 d a k h

/-- `xor` with a constant-bank operand (03 R68, R69). -/
def execXorK (d a : BitVec 5) (k : BitVec 8) (h : BitVec 2) (s : State) : Result :=
  s.constXor 4 d a (s.hart.getK k) h

/-- `xor` with a literal operand (02 R32; 03 R69). -/
def execXorLit (d a : BitVec 5) (k : BitVec 32) (h : BitVec 2) (s : State) : Result :=
  s.constXor 8 d a k h

/-- `mov` from the constant bank (03 R68, R69). -/
def execMovK (d : BitVec 5) (k : BitVec 8) (h : BitVec 2) (s : State) : Result :=
  s.constMov 4 d (s.hart.getK k) h

/-- `mov` of a literal (02 R32; 03 R69). -/
def execMovLit (d : BitVec 5) (k : BitVec 32) (h : BitVec 2) (s : State) : Result :=
  s.constMov 8 d k h

/-- `movn` from the constant bank (03 R68, R69). -/
def execMovnK (d : BitVec 5) (k : BitVec 8) (h : BitVec 2) (s : State) : Result :=
  s.constMovn 4 d (s.hart.getK k) h

/-- `movn` of a literal (02 R32; 03 R69). -/
def execMovnLit (d : BitVec 5) (k : BitVec 32) (h : BitVec 2) (s : State) : Result :=
  s.constMovn 8 d k h

/-- `cmpEq` with a constant-bank operand (03 R68, R69). -/
def execCmpEqK (d a : BitVec 5) (k : BitVec 8) (h : BitVec 2) (s : State) : Result :=
  s.constCmpEq 4 d a (s.hart.getK k) h

/-- `cmpEq` with a literal operand (02 R32; 03 R69). -/
def execCmpEqLit (d a : BitVec 5) (k : BitVec 32) (h : BitVec 2) (s : State) : Result :=
  s.constCmpEq 8 d a k h

/-- `cmpLt` with a constant-bank operand (03 R68, R69). -/
def execCmpLtK (d a : BitVec 5) (k : BitVec 8) (h : BitVec 2) (s : State) : Result :=
  s.constCmpLt 4 d a (s.hart.getK k) h

/-- `cmpLt` with a literal operand (02 R32; 03 R69). -/
def execCmpLtLit (d a : BitVec 5) (k : BitVec 32) (h : BitVec 2) (s : State) : Result :=
  s.constCmpLt 8 d a k h

end Sys2Proof.Machine
end

