-- ==== Sys2Proof/Machine/Control.lean ====
section
/-!
DEFINITION. Branches, jumps, calls, hardware loops and nop (03 R70 to R77; 02 R37).
-/

namespace Sys2Proof.Machine

/-- A conditional branch (03 R70). -/
def State.branch (s : State) (h : BitVec 2) (taken : Bool) (off : BitVec 14) : Result :=
  if taken then s.jump h (s.cbTarget off) none else s.done h id

/-- Bits of a mask below L (03 R70). -/
def Slot.maskL (x : Slot) (p : BitVec 3) : Mask := x.getP p &&& ones256 0 x.lanes

/-- `beqz` (03 R70). -/
def execBeqz (a : BitVec 5) (imm : BitVec 14) (h : BitVec 2) (s : State) : Result :=
  let x := s.hart.getG a
  s.issue Need.any (s.branch h (decide (x = 0)) imm)

/-- `bnez` (03 R70). -/
def execBnez (a : BitVec 5) (imm : BitVec 14) (h : BitVec 2) (s : State) : Result :=
  let x := s.hart.getG a
  s.issue Need.any (s.branch h (decide (x ≠ 0)) imm)

/-- `bltz` (03 R70). -/
def execBltz (a : BitVec 5) (imm : BitVec 14) (h : BitVec 2) (s : State) : Result :=
  let x := s.hart.getG a
  s.issue Need.any (s.branch h (decide (x.toInt < 0)) imm)

/-- `bgez` (03 R70). -/
def execBgez (a : BitVec 5) (imm : BitVec 14) (h : BitVec 2) (s : State) : Result :=
  let x := s.hart.getG a
  s.issue Need.any (s.branch h (decide (0 ≤ x.toInt)) imm)

/-- `bgtz` (03 R70). -/
def execBgtz (a : BitVec 5) (imm : BitVec 14) (h : BitVec 2) (s : State) : Result :=
  let x := s.hart.getG a
  s.issue Need.any (s.branch h (decide (0 < x.toInt)) imm)

/-- `blez` (03 R70). -/
def execBlez (a : BitVec 5) (imm : BitVec 14) (h : BitVec 2) (s : State) : Result :=
  let x := s.hart.getG a
  s.issue Need.any (s.branch h (decide (x.toInt ≤ 0)) imm)

/-- `bany` (03 R70). -/
def execBany (p : BitVec 3) (imm : BitVec 14) (h : BitVec 2) (s : State) : Result :=
  s.issue Need.any (s.branch h (decide (s.hart.maskL p ≠ 0)) imm)

/-- `ball` (03 R70). -/
def execBall (p : BitVec 3) (imm : BitVec 14) (h : BitVec 2) (s : State) : Result :=
  s.issue Need.any (s.branch h (decide (s.hart.maskL p = ones256 0 s.hart.lanes)) imm)

/-- `bnone` (03 R70). -/
def execBnone (p : BitVec 3) (imm : BitVec 14) (h : BitVec 2) (s : State) : Result :=
  s.issue Need.any (s.branch h (decide (s.hart.maskL p = 0)) imm)

/-- `j` (03 R71). -/
def execJ (imm : BitVec 19) (h : BitVec 2) (s : State) : Result := s.issue Need.any (s.jump h (s.lbTarget imm) none)

/-- `call` (03 R71). -/
def execCall (l : BitVec 5) (imm : BitVec 19) (h : BitVec 2) (s : State) : Result :=
  s.issue Need.any (s.jump h (s.lbTarget imm) (some l))

/-- `jr` (03 R71). -/
def execJr (a : BitVec 5) (h : BitVec 2) (s : State) : Result := s.issue Need.any (s.jump h (s.hart.getG a) none)

/-- `callr`: the target is read before the link is written (03 R71). -/
def execCallr (d a : BitVec 5) (h : BitVec 2) (s : State) : Result :=
  s.issue Need.any (s.jump h (s.hart.getG a) (some d))

/-- Begin a loop on the registers of a slot: lcN, the entry and the PC; with a count of 0 the body is skipped, and its
final word counts as completed for an enclosing entry that ends there (03 R74). -/
def Slot.loopBegin (x : Slot) (n : BitVec 2) (count : Word) (last : Word) (h : BitVec 2) : Slot :=
  let y : Slot := { x with skips := skipsOf h, landed := false, sbHint := false, bound := { x.bound with step := x.status.step } }
  if count = 0 then
    let r := if x.status.trap then (x.lc, x.loops, last + 4) else loopEnd x.lc last (last + 4) x.loops
    { y with lc := r.1, loops := r.2.1, pc := r.2.2 }
  else
    { y with lc := lcSet x.lc n count, loops := { n := n, start := x.pc + 4, fin := last } :: x.loops, pc := x.pc + 4 }

/-- `loop` and `loopi` with their count (03 R73, R74). A last word that another device holds is asked for first. -/
def State.loopAny (s : State) (n : BitVec 5) (count : Word) (m : BitVec 14) (h : BitVec 2) : Result :=
  let x := s.hart
  let n2 : BitVec 2 := n.setWidth 2
  let lastW := x.pc + BitVec.ofNat 64 (4 * m.toNat)
  let id := loopId s.hid
  match s.fetchBy id s.hid lastW with
  | (.error c, s1) => (s1.engineForget id).raise c lastW
  | (.ok none, s1) => .next ((s1.fetchAsk id s1.hid lastW).parkAt h .again)
  | (.ok (some w), s0) =>
    let s1 := s0.engineForget id
    let fin := if isLitCarrier w then lastW + 4 else lastW
    if 1024 < (fin - x.pc).toNat then s1.raise .looplen 0
    else if x.loops.length = 3 || x.loops.any (fun e => e.n = n2) then s1.raise .loopnest 0
    else if x.loops.head?.any (fun e => decide (e.fin.toNat < fin.toNat)) then s1.raise .loopnest 0
    else .next (s1.modHart (fun y => y.loopBegin n2 count fin h))

/-- `loop` (03 R73, R74). -/
def execLoop (n a : BitVec 5) (m : BitVec 14) (h : BitVec 2) (s : State) : Result :=
  s.issue Need.any (s.loopAny n (s.hart.getG a) m h)

/-- `loopi` (03 R73, R74). -/
def execLoopi (n c : BitVec 5) (m : BitVec 14) (h : BitVec 2) (s : State) : Result :=
  s.issue Need.any (s.loopAny n (c.setWidth 64) m h)

/-- `nop` (02 R37). -/
def execNop (h : BitVec 2) (s : State) : Result := s.issue Need.any (s.done h id)

end Sys2Proof.Machine
end

