-- ==== Sys2Proof/Machine/Events.lean ====
section
/-!
DEFINITION. Events of a core and of its words: an idle round, words that are no instruction, fetch faults (02 R35, R36;
03 R50), and soft errors (15 R389).
-/

namespace Sys2Proof.Machine

/-- A round of a core in which no slot issues, with why each slot was passed (03 R50). -/
def execIdleRound (core : Nat) (passes : List (Nat × SlotPass)) (s : State) : Result := .next (s.idleRound core passes)

/-- A word with the literal carrier's opcode is an instruction (02 R29, R32; 03 R69): a listed function code and reserved
fields of zeros; `fmov`, `mov` and `movn` have no source register. -/
def carrierOk (w : BitVec 32) : Bool :=
  let fn := (wordField w 10 6).toNat
  let noSource := decide (fn = 7) || decide (fn = 0x14) || decide (fn = 0x15)
  (decide (fn ≤ 7) || (decide (0x10 ≤ fn) && decide (fn ≤ 0x17))) && decide (wordField w 2 8 = 0) &&
    (!noSource || decide (wordField w 16 5 = 0))

/-- A fetched word that is no instruction: all zero, a carrier at the wrong address, or any other (02 R35, R36). -/
def execIllegalInstruction (word : BitVec 32) (s : State) : Result :=
  if word = 0 then s.raise .zword 0
  else if isCarrier word && carrierOk word then s.raise .litaln 0
  else s.raise .illop 0

/-- The cause of a failed fetch (04 R98; 02 R25, R33; 14 R350). -/
def fetchFaultCause : FetchCause → Cause
  | .tnc => .tnc
  | .tnv => .tnv
  | .tres => .tres
  | .tuser => .tuser
  | .tperm => .tperm
  | .tnomem => .tnomem
  | .pcaln => .pcaln
  | .littgt => .littgt
  | .runreach => .runreach
  | .rtimeo => .rtimeo

/-- A fetch at the PC fails (02 R36; 04 R98). -/
def execFetchFault (cause : FetchCause) (va : BitVec 64) (s : State) : Result := s.raise (fetchFaultCause cause) va

/-- The register that a number of a register file names. -/
def fileReg (reg : Nat) : RegName := if reg < 32 then .g reg else if reg < 160 then .v (reg - 32) else .p (reg - 160)

/-- A soft error strikes (15 R389): corrected and counted; or uncorrectable and counted, and fatal to the device in its own
state, elsewhere to the context of the first consumer; a vacant slot's register files hold no PID's data. -/
def execSoftError (site : SoftSite) (correctable : Bool) (pid : BitVec 12) (addr : BitVec 64) (s : State) : Result :=
  if correctable then
    .next ({ s with corr := BitVec.ofNat 32 (satTo 32 (s.corr.toNat + 1)) }.note 0x14 pid addr 0)
  else
    let s1 := { s with uncorr := BitVec.ofNat 32 (satTo 32 (s.uncorr.toNat + 1)) }.note 0x15 pid addr 0
    match site with
    | .deviceState => .next s1.deviceFatal
    | .registerFile slot reg =>
      .next (if (s1.slotAt slot).occ then s1.modSlot slot (fun x => { x with badRegs := x.badRegs ++ [(fileReg reg, addr)] }) else s1)
    | _ => .next { s1 with poison := s1.poison ++ [(pid, addr.toNat)] }

end Sys2Proof.Machine
end

