-- ==== Sys2Proof/Machine/FloatScalar.lean ====
section
/-!
DEFINITION. Scalar floating point (03 R61 to R67) and scalar conversions (07 R175).
-/

namespace Sys2Proof.Machine

/-- `fadd` (03 R62). -/
def execFadd (d a b : BitVec 5) (r h : BitVec 2) (s : State) : Result :=
  let x := s.hart.getF a
  let y := s.hart.getF b
  s.issue Need.any (s.doneFp 4 h d r.toNat (fAdd fmt32 r.toNat x y))

/-- `fsub` (03 R62). -/
def execFsub (d a b : BitVec 5) (r h : BitVec 2) (s : State) : Result :=
  let x := s.hart.getF a
  let y := s.hart.getF b
  s.issue Need.any (s.doneFp 4 h d r.toNat (fSub fmt32 r.toNat x y))

/-- `fmul` (03 R62). -/
def execFmul (d a b : BitVec 5) (r h : BitVec 2) (s : State) : Result :=
  let x := s.hart.getF a
  let y := s.hart.getF b
  s.issue Need.any (s.doneFp 4 h d r.toNat (fMul fmt32 x y))

/-- `fdiv` (03 R62). -/
def execFdiv (d a b : BitVec 5) (r h : BitVec 2) (s : State) : Result :=
  let x := s.hart.getF a
  let y := s.hart.getF b
  s.issue Need.any (s.doneFp 4 h d r.toNat (fDiv fmt32 x y))

/-- `fma` (03 R62). -/
def execFma (d a b : BitVec 5) (r h : BitVec 2) (s : State) : Result :=
  let x := s.hart.getF a
  let y := s.hart.getF b
  s.issue Need.any (s.doneFp 4 h d r.toNat (fFma fmt32 r.toNat false (s.hart.getF d) x y))

/-- `fnma` (03 R62). -/
def execFnma (d a b : BitVec 5) (r h : BitVec 2) (s : State) : Result :=
  let x := s.hart.getF a
  let y := s.hart.getF b
  s.issue Need.any (s.doneFp 4 h d r.toNat (fFma fmt32 r.toNat true (s.hart.getF d) x y))

/-- `fsqrt` (03 R62). -/
def execFsqrt (d a : BitVec 5) (r h : BitVec 2) (s : State) : Result :=
  s.issue Need.any (s.doneFp 4 h d r.toNat (fSqrt fmt32 (s.hart.getF a)))

/-- `fmin` (03 R65). -/
def execFmin (d a b : BitVec 5) (h : BitVec 2) (s : State) : Result :=
  s.issue Need.any (s.doneFp 4 h d 0 (fMinMax fmt32 false (s.hart.getF a) (s.hart.getF b)))

/-- `fmax` (03 R65). -/
def execFmax (d a b : BitVec 5) (h : BitVec 2) (s : State) : Result :=
  s.issue Need.any (s.doneFp 4 h d 0 (fMinMax fmt32 true (s.hart.getF a) (s.hart.getF b)))

/-- `fabs`: bit 31 cleared, no flags (03 R62). -/
def execFabs (d a : BitVec 5) (h : BitVec 2) (s : State) : Result :=
  s.issue Need.any (s.doneG h d ((s.hart.getW a &&& 0x7FFFFFFF).setWidth 64))

/-- `fneg`: bit 31 inverted, no flags (03 R62). -/
def execFneg (d a : BitVec 5) (h : BitVec 2) (s : State) : Result :=
  s.issue Need.any (s.doneG h d ((s.hart.getW a ^^^ 0x80000000).setWidth 64))

/-- `fcmpEq` (03 R66). -/
def execFcmpEq (d a b : BitVec 5) (h : BitVec 2) (s : State) : Result :=
  let r := fRel fmt32 0 (s.hart.getF a) (s.hart.getF b)
  s.issue Need.any (s.doneFlags 4 h d (boolWord r.1) r.2)

/-- `fcmpLt` (03 R66). -/
def execFcmpLt (d a b : BitVec 5) (h : BitVec 2) (s : State) : Result :=
  let r := fRel fmt32 2 (s.hart.getF a) (s.hart.getF b)
  s.issue Need.any (s.doneFlags 4 h d (boolWord r.1) r.2)

/-- `fcmpLe` (03 R66). -/
def execFcmpLe (d a b : BitVec 5) (h : BitVec 2) (s : State) : Result :=
  let r := fRel fmt32 3 (s.hart.getF a) (s.hart.getF b)
  s.issue Need.any (s.doneFlags 4 h d (boolWord r.1) r.2)

/-- `fcmpUn` (03 R66). -/
def execFcmpUn (d a b : BitVec 5) (h : BitVec 2) (s : State) : Result :=
  let r := fRel fmt32 6 (s.hart.getF a) (s.hart.getF b)
  s.issue Need.any (s.doneFlags 4 h d (boolWord r.1) r.2)

/-- `fcvtI32F` (07 R174, R175). -/
def execFcvtI32F (d a : BitVec 5) (r h : BitVec 2) (s : State) : Result :=
  let v := floatToInt (s.hart.getF a) 32 true r.toNat
  s.issue Need.any (s.doneFlags 4 h d (BitVec.ofInt 64 v.1) v.2)

/-- `fcvtI64F` (07 R174, R175). -/
def execFcvtI64F (d a : BitVec 5) (r h : BitVec 2) (s : State) : Result :=
  let v := floatToInt (s.hart.getF a) 64 true r.toNat
  s.issue Need.any (s.doneFlags 4 h d (BitVec.ofInt 64 v.1) v.2)

/-- `fcvtN32F` (07 R174, R175). -/
def execFcvtN32F (d a : BitVec 5) (r h : BitVec 2) (s : State) : Result :=
  let v := floatToInt (s.hart.getF a) 32 false r.toNat
  s.issue Need.any (s.doneFlags 4 h d (BitVec.ofInt 64 v.1) v.2)

/-- `fcvtN64F` (07 R174, R175). -/
def execFcvtN64F (d a : BitVec 5) (r h : BitVec 2) (s : State) : Result :=
  let v := floatToInt (s.hart.getF a) 64 false r.toNat
  s.issue Need.any (s.doneFlags 4 h d (BitVec.ofInt 64 v.1) v.2)

/-- `fcvtFI32` (07 R172, R175). -/
def execFcvtFI32 (d a : BitVec 5) (r h : BitVec 2) (s : State) : Result :=
  let v := convert (s.hart.getW a).toNat (.int 32 true) (.flt (.ieee fmt32)) r.toNat
  s.issue Need.any (s.doneFlags 4 h d (BitVec.ofNat 64 v.1) v.2)

/-- `fcvtFI64` (07 R172, R175). -/
def execFcvtFI64 (d a : BitVec 5) (r h : BitVec 2) (s : State) : Result :=
  let v := convert (s.hart.getG a).toNat (.int 64 true) (.flt (.ieee fmt32)) r.toNat
  s.issue Need.any (s.doneFlags 4 h d (BitVec.ofNat 64 v.1) v.2)

/-- `fcvtFN32` (07 R172, R175). -/
def execFcvtFN32 (d a : BitVec 5) (r h : BitVec 2) (s : State) : Result :=
  let v := convert (s.hart.getW a).toNat (.int 32 false) (.flt (.ieee fmt32)) r.toNat
  s.issue Need.any (s.doneFlags 4 h d (BitVec.ofNat 64 v.1) v.2)

/-- `fcvtFN64` (07 R172, R175). -/
def execFcvtFN64 (d a : BitVec 5) (r h : BitVec 2) (s : State) : Result :=
  let v := convert (s.hart.getG a).toNat (.int 64 false) (.flt (.ieee fmt32)) r.toNat
  s.issue Need.any (s.doneFlags 4 h d (BitVec.ofNat 64 v.1) v.2)

/-- `fmov` of an FI constant: Zext(imm20 << 12), no flag, no hint (03 R67). -/
def execFmov (d : BitVec 5) (imm : BitVec 20) (s : State) : Result :=
  s.issue Need.any (s.doneG 0 d (imm.setWidth 64 <<< 12))

end Sys2Proof.Machine
end

