-- ==== Sys2Proof/Machine/Integer.lean ====
section
/-!
DEFINITION. Integer instructions on g registers (03 R55 to R60).
-/

namespace Sys2Proof.Machine

/-- Number of leading zero bits of a 64-bit word; 64 for 0 (03 R55). -/
def clz64 (x : Word) : Nat := if x = 0 then 64 else 63 - Nat.log2 x.toNat

/-- Number of trailing zero bits among the low `n` from bit `i` on (03 R55). -/
def ctzFrom (x : Word) (i : Nat) : Nat → Nat
  | 0 => 0
  | n + 1 => if bitOf x i then 0 else ctzFrom x (i + 1) n + 1

/-- Number of set bits below `n` (03 R55). -/
def popcount (x : Nat) : Nat → Nat
  | 0 => 0
  | n + 1 => popcount x n + x / 2 ^ n % 2

/-- Byte i becomes byte 7 - i (03 R55). -/
def byteSwap (x : Word) : Word := BitVec.ofNat 64 (leNat (natLe 8 x.toNat).reverse)

/-- Signed quotient truncated toward zero, all ones for a zero divisor (03 R56). -/
def divSigned {n : Nat} (x y : BitVec n) : BitVec n := if y = 0 then BitVec.allOnes n else x.sdiv y

/-- Unsigned quotient, all ones for a zero divisor (03 R56). -/
def divUnsigned {n : Nat} (x y : BitVec n) : BitVec n := if y = 0 then BitVec.allOnes n else x.udiv y

/-- Remainder with the sign of the dividend; the dividend for a zero divisor (03 R56). -/
def remSigned {n : Nat} (x y : BitVec n) : BitVec n := if y = 0 then x else x.srem y

/-- Unsigned remainder; the dividend for a zero divisor (03 R56). -/
def remUnsigned {n : Nat} (x y : BitVec n) : BitVec n := if y = 0 then x else x.umod y

/-- A 32-bit result, sign-extended (03 R58). -/
def wordResult (r : BitVec 32) : Word := r.signExtend 64

/-- The low half of a g register value (03 R58). -/
def lowW (x : Word) : BitVec 32 := x.setWidth 32

/-- `add` (03 R55). -/
def execAdd (d a b : BitVec 5) (h : BitVec 2) (s : State) : Result :=
  let x := s.hart.getG a
  let y := s.hart.getG b
  s.issue Need.any (s.doneG h d (x + y))

/-- `sub` (03 R55). -/
def execSub (d a b : BitVec 5) (h : BitVec 2) (s : State) : Result :=
  let x := s.hart.getG a
  let y := s.hart.getG b
  s.issue Need.any (s.doneG h d (x - y))

/-- `and` (03 R55). -/
def execAnd (d a b : BitVec 5) (h : BitVec 2) (s : State) : Result :=
  let x := s.hart.getG a
  let y := s.hart.getG b
  s.issue Need.any (s.doneG h d (x &&& y))

/-- `or` (03 R55). -/
def execOr (d a b : BitVec 5) (h : BitVec 2) (s : State) : Result :=
  let x := s.hart.getG a
  let y := s.hart.getG b
  s.issue Need.any (s.doneG h d (x ||| y))

/-- `xor` (03 R55). -/
def execXor (d a b : BitVec 5) (h : BitVec 2) (s : State) : Result :=
  let x := s.hart.getG a
  let y := s.hart.getG b
  s.issue Need.any (s.doneG h d (x ^^^ y))

/-- `andn` (03 R55). -/
def execAndn (d a b : BitVec 5) (h : BitVec 2) (s : State) : Result :=
  let x := s.hart.getG a
  let y := s.hart.getG b
  s.issue Need.any (s.doneG h d (x &&& ~~~y))

/-- `orn` (03 R55). -/
def execOrn (d a b : BitVec 5) (h : BitVec 2) (s : State) : Result :=
  let x := s.hart.getG a
  let y := s.hart.getG b
  s.issue Need.any (s.doneG h d (x ||| ~~~y))

/-- `xnor` (03 R55). -/
def execXnor (d a b : BitVec 5) (h : BitVec 2) (s : State) : Result :=
  let x := s.hart.getG a
  let y := s.hart.getG b
  s.issue Need.any (s.doneG h d (~~~(x ^^^ y)))

/-- `sll` (03 R57). -/
def execSll (d a b : BitVec 5) (h : BitVec 2) (s : State) : Result :=
  let x := s.hart.getG a
  let y := s.hart.getG b
  s.issue Need.any (s.doneG h d (x <<< (y.toNat % 64)))

/-- `srl` (03 R57). -/
def execSrl (d a b : BitVec 5) (h : BitVec 2) (s : State) : Result :=
  let x := s.hart.getG a
  let y := s.hart.getG b
  s.issue Need.any (s.doneG h d (x >>> (y.toNat % 64)))

/-- `sra` (03 R57). -/
def execSra (d a b : BitVec 5) (h : BitVec 2) (s : State) : Result :=
  let x := s.hart.getG a
  let y := s.hart.getG b
  s.issue Need.any (s.doneG h d (x.sshiftRight (y.toNat % 64)))

/-- `rol` (03 R57). -/
def execRol (d a b : BitVec 5) (h : BitVec 2) (s : State) : Result :=
  let x := s.hart.getG a
  let y := s.hart.getG b
  s.issue Need.any (s.doneG h d (x.rotateLeft (y.toNat % 64)))

/-- `mul` (03 R55). -/
def execMul (d a b : BitVec 5) (h : BitVec 2) (s : State) : Result :=
  let x := s.hart.getG a
  let y := s.hart.getG b
  s.issue Need.any (s.doneG h d (x * y))

/-- `mulh` (03 R55). -/
def execMulh (d a b : BitVec 5) (h : BitVec 2) (s : State) : Result :=
  let x := s.hart.getG a
  let y := s.hart.getG b
  s.issue Need.any (s.doneG h d (BitVec.ofInt 64 (x.toInt * y.toInt / 2 ^ 64)))

/-- `mulhn` (03 R55). -/
def execMulhn (d a b : BitVec 5) (h : BitVec 2) (s : State) : Result :=
  let x := s.hart.getG a
  let y := s.hart.getG b
  s.issue Need.any (s.doneG h d (BitVec.ofNat 64 (x.toNat * y.toNat / 2 ^ 64)))

/-- `div` (03 R56). -/
def execDiv (d a b : BitVec 5) (h : BitVec 2) (s : State) : Result :=
  let x := s.hart.getG a
  let y := s.hart.getG b
  s.issue Need.any (s.doneG h d (divSigned x y))

/-- `divn` (03 R56). -/
def execDivn (d a b : BitVec 5) (h : BitVec 2) (s : State) : Result :=
  let x := s.hart.getG a
  let y := s.hart.getG b
  s.issue Need.any (s.doneG h d (divUnsigned x y))

/-- `rem` (03 R56). -/
def execRem (d a b : BitVec 5) (h : BitVec 2) (s : State) : Result :=
  let x := s.hart.getG a
  let y := s.hart.getG b
  s.issue Need.any (s.doneG h d (remSigned x y))

/-- `remn` (03 R56). -/
def execRemn (d a b : BitVec 5) (h : BitVec 2) (s : State) : Result :=
  let x := s.hart.getG a
  let y := s.hart.getG b
  s.issue Need.any (s.doneG h d (remUnsigned x y))

/-- `min` (03 R55). -/
def execMin (d a b : BitVec 5) (h : BitVec 2) (s : State) : Result :=
  let x := s.hart.getG a
  let y := s.hart.getG b
  s.issue Need.any (s.doneG h d (if x.slt y then x else y))

/-- `max` (03 R55). -/
def execMax (d a b : BitVec 5) (h : BitVec 2) (s : State) : Result :=
  let x := s.hart.getG a
  let y := s.hart.getG b
  s.issue Need.any (s.doneG h d (if x.slt y then y else x))

/-- `minn` (03 R55). -/
def execMinn (d a b : BitVec 5) (h : BitVec 2) (s : State) : Result :=
  let x := s.hart.getG a
  let y := s.hart.getG b
  s.issue Need.any (s.doneG h d (if x.ult y then x else y))

/-- `maxn` (03 R55). -/
def execMaxn (d a b : BitVec 5) (h : BitVec 2) (s : State) : Result :=
  let x := s.hart.getG a
  let y := s.hart.getG b
  s.issue Need.any (s.doneG h d (if x.ult y then y else x))

/-- `adds` (03 R59). -/
def execAdds (d a b : BitVec 5) (h : BitVec 2) (s : State) : Result :=
  let x := s.hart.getG a
  let y := s.hart.getG b
  s.issue Need.any (s.doneFlags 4 h d (satResult true (x.toInt + y.toInt)).1 (satResult true (x.toInt + y.toInt)).2)

/-- `subs` (03 R59). -/
def execSubs (d a b : BitVec 5) (h : BitVec 2) (s : State) : Result :=
  let x := s.hart.getG a
  let y := s.hart.getG b
  s.issue Need.any (s.doneFlags 4 h d (satResult true (x.toInt - y.toInt)).1 (satResult true (x.toInt - y.toInt)).2)

/-- `addsn` (03 R59). -/
def execAddsn (d a b : BitVec 5) (h : BitVec 2) (s : State) : Result :=
  let x := s.hart.getG a
  let y := s.hart.getG b
  s.issue Need.any (s.doneFlags 4 h d (satResult false (uInt x + uInt y)).1 (satResult false (uInt x + uInt y)).2)

/-- `subsn` (03 R59). -/
def execSubsn (d a b : BitVec 5) (h : BitVec 2) (s : State) : Result :=
  let x := s.hart.getG a
  let y := s.hart.getG b
  s.issue Need.any (s.doneFlags 4 h d (satResult false (uInt x - uInt y)).1 (satResult false (uInt x - uInt y)).2)

/-- `clz` (03 R55). -/
def execClz (d a : BitVec 5) (h : BitVec 2) (s : State) : Result :=
  let x := s.hart.getG a
  s.issue Need.any (s.doneG h d (BitVec.ofNat 64 (clz64 x)))

/-- `ctz` (03 R55). -/
def execCtz (d a : BitVec 5) (h : BitVec 2) (s : State) : Result :=
  let x := s.hart.getG a
  s.issue Need.any (s.doneG h d (BitVec.ofNat 64 (ctzFrom x 0 64)))

/-- `popc` (03 R55). -/
def execPopc (d a : BitVec 5) (h : BitVec 2) (s : State) : Result :=
  let x := s.hart.getG a
  s.issue Need.any (s.doneG h d (BitVec.ofNat 64 (popcount x.toNat 64)))

/-- `brev` (03 R55). -/
def execBrev (d a : BitVec 5) (h : BitVec 2) (s : State) : Result :=
  let x := s.hart.getG a
  s.issue Need.any (s.doneG h d (x.reverse))

/-- `bswap` (03 R55). -/
def execBswap (d a : BitVec 5) (h : BitVec 2) (s : State) : Result :=
  let x := s.hart.getG a
  s.issue Need.any (s.doneG h d (byteSwap x))

/-- `sextB` (03 R55). -/
def execSextB (d a : BitVec 5) (h : BitVec 2) (s : State) : Result :=
  let x := s.hart.getG a
  s.issue Need.any (s.doneG h d ((x.setWidth 8).signExtend 64))

/-- `sextH` (03 R55). -/
def execSextH (d a : BitVec 5) (h : BitVec 2) (s : State) : Result :=
  let x := s.hart.getG a
  s.issue Need.any (s.doneG h d ((x.setWidth 16).signExtend 64))

/-- `sextW` (03 R55). -/
def execSextW (d a : BitVec 5) (h : BitVec 2) (s : State) : Result :=
  let x := s.hart.getG a
  s.issue Need.any (s.doneG h d ((x.setWidth 32).signExtend 64))

/-- `zextB` (03 R55). -/
def execZextB (d a : BitVec 5) (h : BitVec 2) (s : State) : Result :=
  let x := s.hart.getG a
  s.issue Need.any (s.doneG h d ((x.setWidth 8).setWidth 64))

/-- `zextH` (03 R55). -/
def execZextH (d a : BitVec 5) (h : BitVec 2) (s : State) : Result :=
  let x := s.hart.getG a
  s.issue Need.any (s.doneG h d ((x.setWidth 16).setWidth 64))

/-- `zextW` (03 R55). -/
def execZextW (d a : BitVec 5) (h : BitVec 2) (s : State) : Result :=
  let x := s.hart.getG a
  s.issue Need.any (s.doneG h d ((x.setWidth 32).setWidth 64))

/-- `cmpEq` (03 R55). -/
def execCmpEq (d a b : BitVec 5) (h : BitVec 2) (s : State) : Result :=
  let x := s.hart.getG a
  let y := s.hart.getG b
  s.issue Need.any (s.doneG h d (boolWord (decide (x = y))))

/-- `cmpNe` (03 R55). -/
def execCmpNe (d a b : BitVec 5) (h : BitVec 2) (s : State) : Result :=
  let x := s.hart.getG a
  let y := s.hart.getG b
  s.issue Need.any (s.doneG h d (boolWord (decide (x ≠ y))))

/-- `cmpLt` (03 R55). -/
def execCmpLt (d a b : BitVec 5) (h : BitVec 2) (s : State) : Result :=
  let x := s.hart.getG a
  let y := s.hart.getG b
  s.issue Need.any (s.doneG h d (boolWord (x.slt y)))

/-- `cmpGe` (03 R55). -/
def execCmpGe (d a b : BitVec 5) (h : BitVec 2) (s : State) : Result :=
  let x := s.hart.getG a
  let y := s.hart.getG b
  s.issue Need.any (s.doneG h d (boolWord (!x.slt y)))

/-- `cmpLtn` (03 R55). -/
def execCmpLtn (d a b : BitVec 5) (h : BitVec 2) (s : State) : Result :=
  let x := s.hart.getG a
  let y := s.hart.getG b
  s.issue Need.any (s.doneG h d (boolWord (x.ult y)))

/-- `cmpGen` (03 R55). -/
def execCmpGen (d a b : BitVec 5) (h : BitVec 2) (s : State) : Result :=
  let x := s.hart.getG a
  let y := s.hart.getG b
  s.issue Need.any (s.doneG h d (boolWord (!x.ult y)))

/-- `sel` (03 R55). -/
def execSel (d a b : BitVec 5) (h : BitVec 2) (s : State) : Result :=
  let x := s.hart.getG a
  let y := s.hart.getG b
  s.issue Need.any (s.doneG h d (if s.hart.getG d ≠ 0 then x else y))

/-- `sllImm` (03 R57). -/
def execSllImm (d a n : BitVec 5) (m : BitVec 1) (h : BitVec 2) (s : State) : Result :=
  let x := s.hart.getG a
  s.issue Need.any (s.doneG h d (x <<< immCount n m))

/-- `srlImm` (03 R57). -/
def execSrlImm (d a n : BitVec 5) (m : BitVec 1) (h : BitVec 2) (s : State) : Result :=
  let x := s.hart.getG a
  s.issue Need.any (s.doneG h d (x >>> immCount n m))

/-- `sraImm` (03 R57). -/
def execSraImm (d a n : BitVec 5) (m : BitVec 1) (h : BitVec 2) (s : State) : Result :=
  let x := s.hart.getG a
  s.issue Need.any (s.doneG h d (x.sshiftRight (immCount n m)))

/-- `rolImm` (03 R57). -/
def execRolImm (d a n : BitVec 5) (m : BitVec 1) (h : BitVec 2) (s : State) : Result :=
  let x := s.hart.getG a
  s.issue Need.any (s.doneG h d (x.rotateLeft (immCount n m)))

/-- `addW` (03 R58). -/
def execAddW (d a b : BitVec 5) (h : BitVec 2) (s : State) : Result :=
  let x := s.hart.getG a
  let y := s.hart.getG b
  s.issue Need.any (s.doneG h d (wordResult (lowW x + lowW y)))

/-- `subW` (03 R58). -/
def execSubW (d a b : BitVec 5) (h : BitVec 2) (s : State) : Result :=
  let x := s.hart.getG a
  let y := s.hart.getG b
  s.issue Need.any (s.doneG h d (wordResult (lowW x - lowW y)))

/-- `sllW` (03 R58). -/
def execSllW (d a b : BitVec 5) (h : BitVec 2) (s : State) : Result :=
  let x := s.hart.getG a
  let y := s.hart.getG b
  s.issue Need.any (s.doneG h d (wordResult (lowW x <<< (y.toNat % 32))))

/-- `srlW` (03 R58). -/
def execSrlW (d a b : BitVec 5) (h : BitVec 2) (s : State) : Result :=
  let x := s.hart.getG a
  let y := s.hart.getG b
  s.issue Need.any (s.doneG h d (wordResult (lowW x >>> (y.toNat % 32))))

/-- `sraW` (03 R58). -/
def execSraW (d a b : BitVec 5) (h : BitVec 2) (s : State) : Result :=
  let x := s.hart.getG a
  let y := s.hart.getG b
  s.issue Need.any (s.doneG h d (wordResult ((lowW x).sshiftRight (y.toNat % 32))))

/-- `rolW` (03 R58). -/
def execRolW (d a b : BitVec 5) (h : BitVec 2) (s : State) : Result :=
  let x := s.hart.getG a
  let y := s.hart.getG b
  s.issue Need.any (s.doneG h d (wordResult ((lowW x).rotateLeft (y.toNat % 32))))

/-- `mulW` (03 R58). -/
def execMulW (d a b : BitVec 5) (h : BitVec 2) (s : State) : Result :=
  let x := s.hart.getG a
  let y := s.hart.getG b
  s.issue Need.any (s.doneG h d (wordResult (lowW x * lowW y)))

/-- `divW` (03 R58). -/
def execDivW (d a b : BitVec 5) (h : BitVec 2) (s : State) : Result :=
  let x := s.hart.getG a
  let y := s.hart.getG b
  s.issue Need.any (s.doneG h d (wordResult (divSigned (lowW x) (lowW y))))

/-- `divnW` (03 R58). -/
def execDivnW (d a b : BitVec 5) (h : BitVec 2) (s : State) : Result :=
  let x := s.hart.getG a
  let y := s.hart.getG b
  s.issue Need.any (s.doneG h d (wordResult (divUnsigned (lowW x) (lowW y))))

/-- `remW` (03 R58). -/
def execRemW (d a b : BitVec 5) (h : BitVec 2) (s : State) : Result :=
  let x := s.hart.getG a
  let y := s.hart.getG b
  s.issue Need.any (s.doneG h d (wordResult (remSigned (lowW x) (lowW y))))

/-- `remnW` (03 R58). -/
def execRemnW (d a b : BitVec 5) (h : BitVec 2) (s : State) : Result :=
  let x := s.hart.getG a
  let y := s.hart.getG b
  s.issue Need.any (s.doneG h d (wordResult (remUnsigned (lowW x) (lowW y))))

/-- `sllWImm` (03 R58). -/
def execSllWImm (d a n : BitVec 5) (h : BitVec 2) (s : State) : Result :=
  let x := s.hart.getG a
  s.issue Need.any (s.doneG h d (wordResult (lowW x <<< n.toNat)))

/-- `srlWImm` (03 R58). -/
def execSrlWImm (d a n : BitVec 5) (h : BitVec 2) (s : State) : Result :=
  let x := s.hart.getG a
  s.issue Need.any (s.doneG h d (wordResult (lowW x >>> n.toNat)))

/-- `sraWImm` (03 R58). -/
def execSraWImm (d a n : BitVec 5) (h : BitVec 2) (s : State) : Result :=
  let x := s.hart.getG a
  s.issue Need.any (s.doneG h d (wordResult ((lowW x).sshiftRight n.toNat)))

/-- `rolWImm` (03 R58). -/
def execRolWImm (d a n : BitVec 5) (h : BitVec 2) (s : State) : Result :=
  let x := s.hart.getG a
  s.issue Need.any (s.doneG h d (wordResult ((lowW x).rotateLeft n.toNat)))

/-- `addImm` (03 R60). -/
def execAddImm (d a : BitVec 5) (imm : BitVec 14) (h : BitVec 2) (s : State) : Result :=
  let x := s.hart.getG a
  let y := sext64 imm
  s.issue Need.any (s.doneG h d (x + y))

/-- `andImm` (03 R60). -/
def execAndImm (d a : BitVec 5) (imm : BitVec 14) (h : BitVec 2) (s : State) : Result :=
  let x := s.hart.getG a
  let y := sext64 imm
  s.issue Need.any (s.doneG h d (x &&& y))

/-- `orImm` (03 R60). -/
def execOrImm (d a : BitVec 5) (imm : BitVec 14) (h : BitVec 2) (s : State) : Result :=
  let x := s.hart.getG a
  let y := sext64 imm
  s.issue Need.any (s.doneG h d (x ||| y))

/-- `xorImm` (03 R60). -/
def execXorImm (d a : BitVec 5) (imm : BitVec 14) (h : BitVec 2) (s : State) : Result :=
  let x := s.hart.getG a
  let y := sext64 imm
  s.issue Need.any (s.doneG h d (x ^^^ y))

/-- `cmpLtImm` (03 R60). -/
def execCmpLtImm (d a : BitVec 5) (imm : BitVec 14) (h : BitVec 2) (s : State) : Result :=
  let x := s.hart.getG a
  let y := sext64 imm
  s.issue Need.any (s.doneG h d (boolWord (x.slt y)))

/-- `cmpLtnImm` (03 R60). -/
def execCmpLtnImm (d a : BitVec 5) (imm : BitVec 14) (h : BitVec 2) (s : State) : Result :=
  let x := s.hart.getG a
  let y := sext64 imm
  s.issue Need.any (s.doneG h d (boolWord (x.ult y)))

end Sys2Proof.Machine
end

