-- ==== Sys2Proof/Machine/VectorInt.lean ====
section
/-!
DEFINITION. Vector integer forms and compares (08 R194 to R196) and mask instructions (08 R197).
-/

namespace Sys2Proof.Machine

/-- `vaddI` (08 R194). -/
def execVaddI (v a b : BitVec 5) (p : BitVec 3) (h : BitVec 2) (s : State) : Result :=
  let x := s.hart
  let w := x.ew
  s.issue (Need.vec [v, a, b]) (s.vecMap h v p (fun i => ((x.el a i + x.el b i) % 2 ^ w, 0)))

/-- `vsubI` (08 R194). -/
def execVsubI (v a b : BitVec 5) (p : BitVec 3) (h : BitVec 2) (s : State) : Result :=
  let x := s.hart
  let w := x.ew
  s.issue (Need.vec [v, a, b]) (s.vecMap h v p (fun i => ((x.el a i + 2 ^ w - x.el b i) % 2 ^ w, 0)))

/-- `vmulI` (08 R194). -/
def execVmulI (v a b : BitVec 5) (p : BitVec 3) (h : BitVec 2) (s : State) : Result :=
  let x := s.hart
  let w := x.ew
  s.issue (Need.vec [v, a, b]) (s.vecMap h v p (fun i => (x.el a i * x.el b i % 2 ^ w, 0)))

/-- `vmlaI` (08 R194). -/
def execVmlaI (v a b : BitVec 5) (p : BitVec 3) (h : BitVec 2) (s : State) : Result :=
  let x := s.hart
  let w := x.ew
  s.issue (Need.vec [v, a, b]) (s.vecMap h v p (fun i => ((x.el v i + x.el a i * x.el b i) % 2 ^ w, 0)))

/-- `vminI` (08 R194). -/
def execVminI (v a b : BitVec 5) (p : BitVec 3) (h : BitVec 2) (s : State) : Result :=
  let x := s.hart
  let w := x.ew
  s.issue (Need.vec [v, a, b]) (s.vecMap h v p (fun i => (if toSigned w (x.el a i) < toSigned w (x.el b i) then x.el a i else x.el b i, 0)))

/-- `vminN` (08 R194). -/
def execVminN (v a b : BitVec 5) (p : BitVec 3) (h : BitVec 2) (s : State) : Result :=
  let x := s.hart
  s.issue (Need.vec [v, a, b]) (s.vecMap h v p (fun i => (Nat.min (x.el a i) (x.el b i), 0)))

/-- `vmaxI` (08 R194). -/
def execVmaxI (v a b : BitVec 5) (p : BitVec 3) (h : BitVec 2) (s : State) : Result :=
  let x := s.hart
  let w := x.ew
  s.issue (Need.vec [v, a, b]) (s.vecMap h v p (fun i => (if toSigned w (x.el a i) < toSigned w (x.el b i) then x.el b i else x.el a i, 0)))

/-- `vmaxN` (08 R194). -/
def execVmaxN (v a b : BitVec 5) (p : BitVec 3) (h : BitVec 2) (s : State) : Result :=
  let x := s.hart
  s.issue (Need.vec [v, a, b]) (s.vecMap h v p (fun i => (Nat.max (x.el a i) (x.el b i), 0)))

/-- `vandI` (08 R194). -/
def execVandI (v a b : BitVec 5) (p : BitVec 3) (h : BitVec 2) (s : State) : Result :=
  let x := s.hart
  s.issue (Need.vec [v, a, b]) (s.vecMap h v p (fun i => (x.el a i &&& x.el b i, 0)))

/-- `vorI` (08 R194). -/
def execVorI (v a b : BitVec 5) (p : BitVec 3) (h : BitVec 2) (s : State) : Result :=
  let x := s.hart
  s.issue (Need.vec [v, a, b]) (s.vecMap h v p (fun i => (x.el a i ||| x.el b i, 0)))

/-- `vxorI` (08 R194). -/
def execVxorI (v a b : BitVec 5) (p : BitVec 3) (h : BitVec 2) (s : State) : Result :=
  let x := s.hart
  s.issue (Need.vec [v, a, b]) (s.vecMap h v p (fun i => (x.el a i ^^^ x.el b i, 0)))

/-- `vsllI` (08 R194). -/
def execVsllI (v a b : BitVec 5) (p : BitVec 3) (h : BitVec 2) (s : State) : Result :=
  let x := s.hart
  let w := x.ew
  s.issue (Need.vec [v, a, b]) (s.vecMap h v p (fun i => (x.el a i * 2 ^ (x.el b i % w) % 2 ^ w, 0)))

/-- `vsrlI` (08 R194). -/
def execVsrlI (v a b : BitVec 5) (p : BitVec 3) (h : BitVec 2) (s : State) : Result :=
  let x := s.hart
  let w := x.ew
  s.issue (Need.vec [v, a, b]) (s.vecMap h v p (fun i => (x.el a i / 2 ^ (x.el b i % w), 0)))

/-- `vsraI` (08 R194). -/
def execVsraI (v a b : BitVec 5) (p : BitVec 3) (h : BitVec 2) (s : State) : Result :=
  let x := s.hart
  let w := x.ew
  s.issue (Need.vec [v, a, b]) (s.vecMap h v p (fun i => (ofSigned w (toSigned w (x.el a i) / 2 ^ (x.el b i % w)), 0)))

/-- An exact sum or difference of elements, clamped, with SAT (08 R194). -/
def satElem (w : Nat) (signed : Bool) (v : Int) : Nat × BitVec 6 :=
  (ofSigned w (clampInt w signed v).1, (clampInt w signed v).2)

/-- `vaddsI` (08 R194). -/
def execVaddsI (v a b : BitVec 5) (p : BitVec 3) (h : BitVec 2) (s : State) : Result :=
  let x := s.hart
  let w := x.ew
  s.issue (Need.vec [v, a, b]) (s.vecMap h v p (fun i => satElem w true (toSigned w (x.el a i) + toSigned w (x.el b i))))

/-- `vaddsN` (08 R194). -/
def execVaddsN (v a b : BitVec 5) (p : BitVec 3) (h : BitVec 2) (s : State) : Result :=
  let x := s.hart
  let w := x.ew
  s.issue (Need.vec [v, a, b]) (s.vecMap h v p (fun i => satElem w false ((x.el a i : Int) + x.el b i)))

/-- `vsubsI` (08 R194). -/
def execVsubsI (v a b : BitVec 5) (p : BitVec 3) (h : BitVec 2) (s : State) : Result :=
  let x := s.hart
  let w := x.ew
  s.issue (Need.vec [v, a, b]) (s.vecMap h v p (fun i => satElem w true (toSigned w (x.el a i) - toSigned w (x.el b i))))

/-- `vsubsN` (08 R194). -/
def execVsubsN (v a b : BitVec 5) (p : BitVec 3) (h : BitVec 2) (s : State) : Result :=
  let x := s.hart
  let w := x.ew
  s.issue (Need.vec [v, a, b]) (s.vecMap h v p (fun i => satElem w false ((x.el a i : Int) - x.el b i)))

/-- `vmulhI` (08 R194). -/
def execVmulhI (v a b : BitVec 5) (p : BitVec 3) (h : BitVec 2) (s : State) : Result :=
  let x := s.hart
  let w := x.ew
  s.issue (Need.vec [v, a, b]) (s.vecMap h v p (fun i => (ofSigned w (toSigned w (x.el a i) * toSigned w (x.el b i) / 2 ^ w), 0)))

/-- `vmulhN` (08 R194). -/
def execVmulhN (v a b : BitVec 5) (p : BitVec 3) (h : BitVec 2) (s : State) : Result :=
  let x := s.hart
  let w := x.ew
  s.issue (Need.vec [v, a, b]) (s.vecMap h v p (fun i => (x.el a i * x.el b i / 2 ^ w, 0)))

/-- `vabs` of integers: the most negative value stays (08 R194). -/
def execVabsI (v a : BitVec 5) (p : BitVec 3) (h : BitVec 2) (s : State) : Result :=
  let x := s.hart
  let w := x.ew
  s.issue (Need.vec [v, a]) (s.vecMap h v p (fun i => ((toSigned w (x.el a i)).natAbs, 0)))

/-- An integer compare: the whole of pd is written, no flag (08 R196). -/
def State.vecCmpInt (s : State) (d : BitVec 3) (a b : BitVec 5) (p : BitVec 3) (h : BitVec 2) (signed : Bool)
    (rel : Int → Int → Bool) : Result :=
  let x := s.hart
  let val (n : BitVec 5) (i : Nat) : Int := if signed then toSigned x.ew (x.el n i) else (x.el n i : Int)
  s.issue (Need.vec [a, b])
    (s.done h (fun y => y.setP d (maskOf x.lanes (fun i => (x.getP p).getLsbD i && rel (val a i) (val b i)))))

/-- `vcmpEqI` (08 R196). -/
def execVcmpEqI (d : BitVec 3) (a b : BitVec 5) (p : BitVec 3) (h : BitVec 2) (s : State) : Result :=
  s.vecCmpInt d a b p h true (fun u w => decide (u = w))

/-- `vcmpNeI` (08 R196). -/
def execVcmpNeI (d : BitVec 3) (a b : BitVec 5) (p : BitVec 3) (h : BitVec 2) (s : State) : Result :=
  s.vecCmpInt d a b p h true (fun u w => decide (u ≠ w))

/-- `vcmpLtI` (08 R196). -/
def execVcmpLtI (d : BitVec 3) (a b : BitVec 5) (p : BitVec 3) (h : BitVec 2) (s : State) : Result :=
  s.vecCmpInt d a b p h true (fun u w => decide (u < w))

/-- `vcmpLeI` (08 R196). -/
def execVcmpLeI (d : BitVec 3) (a b : BitVec 5) (p : BitVec 3) (h : BitVec 2) (s : State) : Result :=
  s.vecCmpInt d a b p h true (fun u w => decide (u ≤ w))

/-- `vcmpGtI` (08 R196). -/
def execVcmpGtI (d : BitVec 3) (a b : BitVec 5) (p : BitVec 3) (h : BitVec 2) (s : State) : Result :=
  s.vecCmpInt d a b p h true (fun u w => decide (w < u))

/-- `vcmpGeI` (08 R196). -/
def execVcmpGeI (d : BitVec 3) (a b : BitVec 5) (p : BitVec 3) (h : BitVec 2) (s : State) : Result :=
  s.vecCmpInt d a b p h true (fun u w => decide (w ≤ u))

/-- `vcmpEqN` (08 R196). -/
def execVcmpEqN (d : BitVec 3) (a b : BitVec 5) (p : BitVec 3) (h : BitVec 2) (s : State) : Result :=
  s.vecCmpInt d a b p h false (fun u w => decide (u = w))

/-- `vcmpNeN` (08 R196). -/
def execVcmpNeN (d : BitVec 3) (a b : BitVec 5) (p : BitVec 3) (h : BitVec 2) (s : State) : Result :=
  s.vecCmpInt d a b p h false (fun u w => decide (u ≠ w))

/-- `vcmpLtN` (08 R196). -/
def execVcmpLtN (d : BitVec 3) (a b : BitVec 5) (p : BitVec 3) (h : BitVec 2) (s : State) : Result :=
  s.vecCmpInt d a b p h false (fun u w => decide (u < w))

/-- `vcmpLeN` (08 R196). -/
def execVcmpLeN (d : BitVec 3) (a b : BitVec 5) (p : BitVec 3) (h : BitVec 2) (s : State) : Result :=
  s.vecCmpInt d a b p h false (fun u w => decide (u ≤ w))

/-- `vcmpGtN` (08 R196). -/
def execVcmpGtN (d : BitVec 3) (a b : BitVec 5) (p : BitVec 3) (h : BitVec 2) (s : State) : Result :=
  s.vecCmpInt d a b p h false (fun u w => decide (w < u))

/-- `vcmpGeN` (08 R196). -/
def execVcmpGeN (d : BitVec 3) (a b : BitVec 5) (p : BitVec 3) (h : BitVec 2) (s : State) : Result :=
  s.vecCmpInt d a b p h false (fun u w => decide (w ≤ u))

/-- `pand` (08 R197). -/
def execPand (d a b : BitVec 3) (h : BitVec 2) (s : State) : Result :=
  s.issue Need.any (s.done h (fun x => x.setP d (s.hart.getP a &&& s.hart.getP b)))

/-- `por` (08 R197). -/
def execPor (d a b : BitVec 3) (h : BitVec 2) (s : State) : Result :=
  s.issue Need.any (s.done h (fun x => x.setP d (s.hart.getP a ||| s.hart.getP b)))

/-- `pxor` (08 R197). -/
def execPxor (d a b : BitVec 3) (h : BitVec 2) (s : State) : Result :=
  s.issue Need.any (s.done h (fun x => x.setP d (s.hart.getP a ^^^ s.hart.getP b)))

/-- `pandn` (08 R197). -/
def execPandn (d a b : BitVec 3) (h : BitVec 2) (s : State) : Result :=
  s.issue Need.any (s.done h (fun x => x.setP d (s.hart.getP a &&& ~~~(s.hart.getP b))))

/-- `pnot` (08 R197). -/
def execPnot (d a : BitVec 3) (h : BitVec 2) (s : State) : Result :=
  s.issue Need.any (s.done h (fun x => x.setP d (~~~(s.hart.getP a))))

/-- `pfirst` (08 R197). -/
def execPfirst (d a : BitVec 3) (h : BitVec 2) (s : State) : Result :=
  let m : Mask := match s.hart.active a with
    | [] => 0
    | i :: _ => (1 : Mask) <<< i
  s.issue Need.any (s.done h (fun x => x.setP d m))

/-- `pcnt` (08 R197). -/
def execPcnt (d : BitVec 5) (a : BitVec 3) (h : BitVec 2) (s : State) : Result :=
  s.issue Need.any (s.doneG h d (BitVec.ofNat 64 (s.hart.active a).length))

/-- `pset` (08 R197). -/
def execPset (d : BitVec 3) (a : BitVec 5) (h : BitVec 2) (s : State) : Result :=
  s.issue Need.any (s.done h (fun x => x.setP d (ones256 0 (Nat.min (s.hart.getG a).toNat 256))))

end Sys2Proof.Machine
end

