-- ==== Sys2Proof/Machine/VectorMisc.lean ====
section
/-!
DEFINITION. Vector moves, broadcasts and permutes (08 R198, R199), random numbers (08 R204), VSHAPE and VWIN (08 R183, R184), and vector conversions, packs and unpacks (07 R176 to R178).
-/

namespace Sys2Proof.Machine

/-- `vmov` (08 R198). -/
def execVmov (v a : BitVec 5) (p : BitVec 3) (h : BitVec 2) (s : State) : Result :=
  let x := s.hart
  s.issue (Need.vec [v, a]) (s.vecMap h v p (fun i => (x.el a i, 0)))

/-- `vsel`: every lane below L is written (08 R198). -/
def execVsel (v a b : BitVec 5) (p : BitVec 3) (h : BitVec 2) (s : State) : Result :=
  let x := s.hart
  s.issue (Need.vec [v, a, b])
    (s.vecMap h v 0 (fun i => (if (x.getP p).getLsbD i then x.el a i else x.el b i, 0)))

/-- `vzero` (08 R198). -/
def execVzero (v : BitVec 5) (h : BitVec 2) (s : State) : Result :=
  s.issue (Need.vec [v]) (s.done h (fun x => x.setV v 0))

/-- `vbcast` (08 R198). -/
def execVbcast (v a : BitVec 5) (p : BitVec 3) (h : BitVec 2) (s : State) : Result :=
  let x := s.hart
  s.issue (Need.vec [v]) (s.vecMap h v p (fun _ => ((x.getG a).toNat, 0)))

/-- `vins` (08 R198). -/
def execVins (v a b : BitVec 5) (h : BitVec 2) (s : State) : Result :=
  s.issue (Need.vec [v])
    (s.done h (fun x => x.setV v (vSetElem (x.getV v) x.ew ((x.getG b).toNat % x.lanes) (x.getG a).toNat)))

/-- `vext` (08 R198). -/
def execVext (d a b : BitVec 5) (h : BitVec 2) (s : State) : Result :=
  let x := s.hart
  s.issue (Need.vec [a]) (s.doneG h d (BitVec.ofNat 64 (x.el a ((x.getG b).toNat % x.lanes))))

/-- `vperm` (08 R198). -/
def execVperm (v a b : BitVec 5) (p : BitVec 3) (h : BitVec 2) (s : State) : Result :=
  let x := s.hart
  s.issue (Need.vec [v, a, b]) (s.vecMap h v p (fun i => (x.el a (x.el b i % x.lanes), 0)))

/-- `vfmov`: one constant to every element, without mask or hint (08 R199). -/
def execVfmov (v : BitVec 5) (imm : BitVec 20) (s : State) : Result :=
  s.issue (Need.vec [v])
    (s.vecFp 0 v 0 (fun e _ => convert (imm.toNat * 2 ^ 12) (.flt (.ieee fmt32)) (.flt e) 0))

/-- The key and index of vrng element `i` (08 R204). -/
def Slot.rngAt (x : Slot) (a b : BitVec 5) (i : Nat) : Word := vrng64 (x.getG a) (x.getG b + BitVec.ofNat 64 i)

/-- `vrng` (08 R204). -/
def execVrng (v a b : BitVec 5) (p : BitVec 3) (h : BitVec 2) (s : State) : Result :=
  let x := s.hart
  s.issue (Need.vec [v]) (s.vecMap h v p (fun i => ((x.rngAt a b i).toNat, 0)))

/-- A fraction of `n` bits as an element (08 R204). -/
def unitElem (f : Fmt) (n v : Nat) : Nat × BitVec 6 :=
  if v = 0 then (0, 0) else f.round (f.fb + 1) 0 false v (-(n : Int))

/-- `vrngf`: exact, no flag; FMTW at widths 8 and 64 (08 R204). -/
def execVrngf (v a b : BitVec 5) (p : BitVec 3) (h : BitVec 2) (s : State) : Result :=
  let x := s.hart
  s.issue (Need.vec [v])
    (match x.elt with
     | some (.ieee f) =>
       s.vecMap h v p (fun i => unitElem f (f.fb + 1) ((x.rngAt a b i).toNat / 2 ^ (64 - (f.fb + 1))))
     | _ => s.raise .fmtw 0)

/-- `vshape` (08 R183). -/
def execVshape (w : BitVec 2) (l : BitVec 4) (h : BitVec 2) (s : State) : Result :=
  s.issue Need.any
    (if l.toNat ≤ 8 - w.toNat then s.done h (fun x => { x with vw := w, vlr := l }) else s.raise .illop 0)

/-- `vwin`: a bank that the mode does not allow raises VREGN at its place in 02 R36 (08 R184; 02 R39). -/
def execVwin (b h : BitVec 2) (s : State) : Result :=
  if modeRegs s.hart.record.mode ≤ 32 * b.toNat then s.raise .vregn 0
  else s.issue Need.any (s.done h (fun x => { x with vwin := b }))

/-- The element type of a format code of `vcvt`, and its width (07 R176). -/
def cvtTy (c : BitVec 3) (w : Nat) : CvtTy × Nat :=
  match c.toNat with
  | 0 => (.flt (.ieee fmt32), 32)
  | 1 => (.flt (.ieee fmtBf), 16)
  | 2 => (.flt (.ieee fmt16), 16)
  | 3 => (.flt (.taper 8), 8)
  | 4 => (.flt (.taper 6), 8)
  | 5 => (.int w true, w)
  | _ => (.int w false, w)

/-- `vcvt` (07 R176): conversion i reads part `q` of va when it widens and writes part `q` of vd when it narrows. -/
def execVcvt (v a : BitVec 5) (q : BitVec 2) (p t f : BitVec 3) (h : BitVec 2) (s : State) : Result :=
  let x := s.hart
  let src := cvtTy f x.ew
  let dst := cvtTy t x.ew
  let n := 2048 / Nat.max src.2 dst.2
  let ratio := Nat.max src.2 dst.2 / Nat.min src.2 dst.2
  s.issue (Need.vec [v, a])
    (if ratio ≤ q.toNat then s.raise .illop 0
     else
       let act := (List.range n).filter (fun i => (x.getP p).getLsbD i)
       let r := act.foldl (fun (acc : VReg × BitVec 6) i =>
         let si := if src.2 < dst.2 then q.toNat * n + i else i
         let di := if dst.2 < src.2 then q.toNat * n + i else i
         let c := convert (vElem (x.getV a) src.2 si) src.1 dst.1 (x.fmt.toNat % 4)
         (vSetElem acc.1 dst.2 di c.1, acc.2 ||| c.2)) (x.getV v, 0)
       s.done h (fun y => (y.orVxf r.2).setV v r.1))

/-- The scale of a BFP8 vector of FP32 elements: the smallest finite code whose value times 127/128 reaches the largest
magnitude, else 0xFE with OF (07 R177). -/
def bfpScale (l : List FVal) : Nat × BitVec 6 :=
  let m := l.foldl (fun (acc : Nat × Int) v =>
    match v with
    | .num _ m e => if dyLe m e acc.1 acc.2 then acc else (m, e)
    | _ => acc) (0, 0)
  if m.1 = 0 then (0, 0)
  else let c := e5m3Least 127 7 m.1 m.2; (c.1, if c.2 then flagOF else 0)

/-- A mantissa: RoundNE(x * 128 / s) clamped to -127 to 127, with SAT, NX and UF (07 R177). -/
def bfpMant (sc : Nat) (v : FVal) : Int × BitVec 6 :=
  match v with
  | .num neg m e =>
    if m = 0 then (0, 0)
    else
      let (sm, se) := e5m3 sc
      let (q, x) := divNum m (e + 7) sm se
      let (y, inex) := FVal.toInt 0 neg q x
      let z : Int := if y < -127 then -127 else if 127 < y then 127 else y
      (z, (if z ≠ y then flagSAT ||| flagNX else 0) ||| (if inex then flagNX else 0) ||| (if z = 0 then flagUF else 0))
  | _ => (0, 0)

/-- `vpk.bfp8` (07 R177). -/
def execVpkBfp8 (v a g : BitVec 5) (q h : BitVec 2) (s : State) : Result :=
  let x := s.hart
  let el := (List.range 64).map (fun j => d32 (vElem (x.getV a) 32 j))
  let bad := el.any (fun e => e.isNan || e.isInf)
  let sc := if bad then (0xFF, flagNV) else bfpScale el
  let ms := if bad || sc.1 = 0 then List.replicate 64 ((0 : Int), (0 : BitVec 6)) else el.map (bfpMant sc.1)
  let fl := ms.foldl (fun (f : BitVec 6) m => f ||| m.2) sc.2
  s.issue (Need.vec [v, a])
    (s.done h (fun y =>
      ((y.orVxf fl).setV v (vPut (y.getV v) (64 * q.toNat) (ms.map (fun m => BitVec.ofInt 8 m.1)))).setG g
        (setFld (y.getG g) (8 * q.toNat + 7) (8 * q.toNat) sc.1)))

/-- `vupk.bfp8` (07 R177): m * s / 128, exact; a NaN scale gives the default NaN with NV. -/
def execVupkBfp8 (v a g : BitVec 5) (q h : BitVec 2) (s : State) : Result :=
  let x := s.hart
  let sc := fld (x.getG g) (8 * q.toNat + 7) (8 * q.toNat)
  let el (j : Nat) : Nat :=
    if sc = 0xFF then fmt32.defNan
    else
      let m := toSigned 8 (vElem (x.getV a) 8 (64 * q.toNat + j))
      let (sm, se) := e5m3 sc
      if m = 0 || sm = 0 then 0 else (fmt32.round 24 0 (decide (m < 0)) (m.natAbs * sm) (se - 7)).1
  s.issue (Need.vec [v, a])
    (s.done h (fun y =>
      (y.orVxf (if sc = 0xFF then flagNV else 0)).setV v
        ((List.range 64).foldl (fun r j => vSetElem r 32 j (el j)) 0)))

/-- `vpk`: elements of va then vb, clamped to half the width, with SAT; FMTW at width 8 (07 R178). -/
def execVpk (v a b : BitVec 5) (h : BitVec 2) (s : State) : Result :=
  let x := s.hart
  let w := x.ew
  let el (j : Nat) : Int × BitVec 6 :=
    clampInt (w / 2) true (toSigned w (if j < x.lanes then x.el a j else x.el b (j - x.lanes)))
  s.issue (Need.vec [v, a, b])
    (if w = 8 then s.raise .fmtw 0
     else
       s.done h (fun y =>
         let r := vMap (List.range (2 * x.lanes)) (w / 2) (y.getV v) (fun j => (ofSigned (w / 2) (el j).1, (el j).2))
         (y.orVxf r.2).setV v r.1))

/-- `vupk`: half-width elements of one part, sign-extended; FMTW at width 8 (07 R178). -/
def execVupk (v a : BitVec 5) (q : BitVec 1) (h : BitVec 2) (s : State) : Result :=
  let x := s.hart
  let w := x.ew
  s.issue (Need.vec [v, a])
    (if w = 8 then s.raise .fmtw 0
     else
       s.vecMap h v 0 (fun j => (ofSigned w (toSigned (w / 2) (vElem (x.getV a) (w / 2) (q.toNat * x.lanes + j))), 0)))

end Sys2Proof.Machine
end

