-- ==== Sys2Proof/Machine/Dispatch.lean ====
section
/-!
DEFINITION. One arm per constructor of `Instr`.
-/

namespace Sys2Proof.Machine

def exec (i : Instr) (s : State) : Host.Outcome State Fault Refusal :=
  match i with
  | .add d a b h => Sys2Proof.Machine.execAdd d a b h s
  | .sub d a b h => Sys2Proof.Machine.execSub d a b h s
  | .and d a b h => Sys2Proof.Machine.execAnd d a b h s
  | .or d a b h => Sys2Proof.Machine.execOr d a b h s
  | .xor d a b h => Sys2Proof.Machine.execXor d a b h s
  | .andn d a b h => Sys2Proof.Machine.execAndn d a b h s
  | .orn d a b h => Sys2Proof.Machine.execOrn d a b h s
  | .xnor d a b h => Sys2Proof.Machine.execXnor d a b h s
  | .sll d a b h => Sys2Proof.Machine.execSll d a b h s
  | .srl d a b h => Sys2Proof.Machine.execSrl d a b h s
  | .sra d a b h => Sys2Proof.Machine.execSra d a b h s
  | .rol d a b h => Sys2Proof.Machine.execRol d a b h s
  | .mul d a b h => Sys2Proof.Machine.execMul d a b h s
  | .mulh d a b h => Sys2Proof.Machine.execMulh d a b h s
  | .mulhn d a b h => Sys2Proof.Machine.execMulhn d a b h s
  | .div d a b h => Sys2Proof.Machine.execDiv d a b h s
  | .divn d a b h => Sys2Proof.Machine.execDivn d a b h s
  | .rem d a b h => Sys2Proof.Machine.execRem d a b h s
  | .remn d a b h => Sys2Proof.Machine.execRemn d a b h s
  | .min d a b h => Sys2Proof.Machine.execMin d a b h s
  | .max d a b h => Sys2Proof.Machine.execMax d a b h s
  | .minn d a b h => Sys2Proof.Machine.execMinn d a b h s
  | .maxn d a b h => Sys2Proof.Machine.execMaxn d a b h s
  | .adds d a b h => Sys2Proof.Machine.execAdds d a b h s
  | .subs d a b h => Sys2Proof.Machine.execSubs d a b h s
  | .addsn d a b h => Sys2Proof.Machine.execAddsn d a b h s
  | .subsn d a b h => Sys2Proof.Machine.execSubsn d a b h s
  | .clz d a h => Sys2Proof.Machine.execClz d a h s
  | .ctz d a h => Sys2Proof.Machine.execCtz d a h s
  | .popc d a h => Sys2Proof.Machine.execPopc d a h s
  | .brev d a h => Sys2Proof.Machine.execBrev d a h s
  | .bswap d a h => Sys2Proof.Machine.execBswap d a h s
  | .sextB d a h => Sys2Proof.Machine.execSextB d a h s
  | .sextH d a h => Sys2Proof.Machine.execSextH d a h s
  | .sextW d a h => Sys2Proof.Machine.execSextW d a h s
  | .zextB d a h => Sys2Proof.Machine.execZextB d a h s
  | .zextH d a h => Sys2Proof.Machine.execZextH d a h s
  | .zextW d a h => Sys2Proof.Machine.execZextW d a h s
  | .cmpEq d a b h => Sys2Proof.Machine.execCmpEq d a b h s
  | .cmpNe d a b h => Sys2Proof.Machine.execCmpNe d a b h s
  | .cmpLt d a b h => Sys2Proof.Machine.execCmpLt d a b h s
  | .cmpGe d a b h => Sys2Proof.Machine.execCmpGe d a b h s
  | .cmpLtn d a b h => Sys2Proof.Machine.execCmpLtn d a b h s
  | .cmpGen d a b h => Sys2Proof.Machine.execCmpGen d a b h s
  | .sel d a b h => Sys2Proof.Machine.execSel d a b h s
  | .sllImm d a n m h => Sys2Proof.Machine.execSllImm d a n m h s
  | .srlImm d a n m h => Sys2Proof.Machine.execSrlImm d a n m h s
  | .sraImm d a n m h => Sys2Proof.Machine.execSraImm d a n m h s
  | .rolImm d a n m h => Sys2Proof.Machine.execRolImm d a n m h s
  | .addW d a b h => Sys2Proof.Machine.execAddW d a b h s
  | .subW d a b h => Sys2Proof.Machine.execSubW d a b h s
  | .sllW d a b h => Sys2Proof.Machine.execSllW d a b h s
  | .srlW d a b h => Sys2Proof.Machine.execSrlW d a b h s
  | .sraW d a b h => Sys2Proof.Machine.execSraW d a b h s
  | .rolW d a b h => Sys2Proof.Machine.execRolW d a b h s
  | .mulW d a b h => Sys2Proof.Machine.execMulW d a b h s
  | .divW d a b h => Sys2Proof.Machine.execDivW d a b h s
  | .divnW d a b h => Sys2Proof.Machine.execDivnW d a b h s
  | .remW d a b h => Sys2Proof.Machine.execRemW d a b h s
  | .remnW d a b h => Sys2Proof.Machine.execRemnW d a b h s
  | .sllWImm d a n h => Sys2Proof.Machine.execSllWImm d a n h s
  | .srlWImm d a n h => Sys2Proof.Machine.execSrlWImm d a n h s
  | .sraWImm d a n h => Sys2Proof.Machine.execSraWImm d a n h s
  | .rolWImm d a n h => Sys2Proof.Machine.execRolWImm d a n h s
  | .addImm d a imm h => Sys2Proof.Machine.execAddImm d a imm h s
  | .andImm d a imm h => Sys2Proof.Machine.execAndImm d a imm h s
  | .orImm d a imm h => Sys2Proof.Machine.execOrImm d a imm h s
  | .xorImm d a imm h => Sys2Proof.Machine.execXorImm d a imm h s
  | .cmpLtImm d a imm h => Sys2Proof.Machine.execCmpLtImm d a imm h s
  | .cmpLtnImm d a imm h => Sys2Proof.Machine.execCmpLtnImm d a imm h s
  | .fadd d a b r h => Sys2Proof.Machine.execFadd d a b r h s
  | .fsub d a b r h => Sys2Proof.Machine.execFsub d a b r h s
  | .fmul d a b r h => Sys2Proof.Machine.execFmul d a b r h s
  | .fdiv d a b r h => Sys2Proof.Machine.execFdiv d a b r h s
  | .fma d a b r h => Sys2Proof.Machine.execFma d a b r h s
  | .fnma d a b r h => Sys2Proof.Machine.execFnma d a b r h s
  | .fsqrt d a r h => Sys2Proof.Machine.execFsqrt d a r h s
  | .fmin d a b h => Sys2Proof.Machine.execFmin d a b h s
  | .fmax d a b h => Sys2Proof.Machine.execFmax d a b h s
  | .fabs d a h => Sys2Proof.Machine.execFabs d a h s
  | .fneg d a h => Sys2Proof.Machine.execFneg d a h s
  | .fcmpEq d a b h => Sys2Proof.Machine.execFcmpEq d a b h s
  | .fcmpLt d a b h => Sys2Proof.Machine.execFcmpLt d a b h s
  | .fcmpLe d a b h => Sys2Proof.Machine.execFcmpLe d a b h s
  | .fcmpUn d a b h => Sys2Proof.Machine.execFcmpUn d a b h s
  | .fcvtI32F d a r h => Sys2Proof.Machine.execFcvtI32F d a r h s
  | .fcvtI64F d a r h => Sys2Proof.Machine.execFcvtI64F d a r h s
  | .fcvtN32F d a r h => Sys2Proof.Machine.execFcvtN32F d a r h s
  | .fcvtN64F d a r h => Sys2Proof.Machine.execFcvtN64F d a r h s
  | .fcvtFI32 d a r h => Sys2Proof.Machine.execFcvtFI32 d a r h s
  | .fcvtFI64 d a r h => Sys2Proof.Machine.execFcvtFI64 d a r h s
  | .fcvtFN32 d a r h => Sys2Proof.Machine.execFcvtFN32 d a r h s
  | .fcvtFN64 d a r h => Sys2Proof.Machine.execFcvtFN64 d a r h s
  | .fmov d imm => Sys2Proof.Machine.execFmov d imm s
  | .faddK d a k h => Sys2Proof.Machine.execFaddK d a k h s
  | .fsubK d a k h => Sys2Proof.Machine.execFsubK d a k h s
  | .fmulK d a k h => Sys2Proof.Machine.execFmulK d a k h s
  | .fmaK d a k h => Sys2Proof.Machine.execFmaK d a k h s
  | .fnmaK d a k h => Sys2Proof.Machine.execFnmaK d a k h s
  | .fminK d a k h => Sys2Proof.Machine.execFminK d a k h s
  | .fmaxK d a k h => Sys2Proof.Machine.execFmaxK d a k h s
  | .fmovK d k h => Sys2Proof.Machine.execFmovK d k h s
  | .addK d a k h => Sys2Proof.Machine.execAddK d a k h s
  | .andK d a k h => Sys2Proof.Machine.execAndK d a k h s
  | .orK d a k h => Sys2Proof.Machine.execOrK d a k h s
  | .xorK d a k h => Sys2Proof.Machine.execXorK d a k h s
  | .movK d k h => Sys2Proof.Machine.execMovK d k h s
  | .movnK d k h => Sys2Proof.Machine.execMovnK d k h s
  | .cmpEqK d a k h => Sys2Proof.Machine.execCmpEqK d a k h s
  | .cmpLtK d a k h => Sys2Proof.Machine.execCmpLtK d a k h s
  | .faddLit d a k h => Sys2Proof.Machine.execFaddLit d a k h s
  | .fsubLit d a k h => Sys2Proof.Machine.execFsubLit d a k h s
  | .fmulLit d a k h => Sys2Proof.Machine.execFmulLit d a k h s
  | .fmaLit d a k h => Sys2Proof.Machine.execFmaLit d a k h s
  | .fnmaLit d a k h => Sys2Proof.Machine.execFnmaLit d a k h s
  | .fminLit d a k h => Sys2Proof.Machine.execFminLit d a k h s
  | .fmaxLit d a k h => Sys2Proof.Machine.execFmaxLit d a k h s
  | .fmovLit d k h => Sys2Proof.Machine.execFmovLit d k h s
  | .addLit d a k h => Sys2Proof.Machine.execAddLit d a k h s
  | .andLit d a k h => Sys2Proof.Machine.execAndLit d a k h s
  | .orLit d a k h => Sys2Proof.Machine.execOrLit d a k h s
  | .xorLit d a k h => Sys2Proof.Machine.execXorLit d a k h s
  | .movLit d k h => Sys2Proof.Machine.execMovLit d k h s
  | .movnLit d k h => Sys2Proof.Machine.execMovnLit d k h s
  | .cmpEqLit d a k h => Sys2Proof.Machine.execCmpEqLit d a k h s
  | .cmpLtLit d a k h => Sys2Proof.Machine.execCmpLtLit d a k h s
  | .beqz a imm h => Sys2Proof.Machine.execBeqz a imm h s
  | .bnez a imm h => Sys2Proof.Machine.execBnez a imm h s
  | .bltz a imm h => Sys2Proof.Machine.execBltz a imm h s
  | .bgez a imm h => Sys2Proof.Machine.execBgez a imm h s
  | .bgtz a imm h => Sys2Proof.Machine.execBgtz a imm h s
  | .blez a imm h => Sys2Proof.Machine.execBlez a imm h s
  | .bany p imm h => Sys2Proof.Machine.execBany p imm h s
  | .ball p imm h => Sys2Proof.Machine.execBall p imm h s
  | .bnone p imm h => Sys2Proof.Machine.execBnone p imm h s
  | .j imm h => Sys2Proof.Machine.execJ imm h s
  | .call l imm h => Sys2Proof.Machine.execCall l imm h s
  | .jr a h => Sys2Proof.Machine.execJr a h s
  | .callr d a h => Sys2Proof.Machine.execCallr d a h s
  | .loop n a m h => Sys2Proof.Machine.execLoop n a m h s
  | .loopi n c m h => Sys2Proof.Machine.execLoopi n c m h s
  | .nop h => Sys2Proof.Machine.execNop h s
  | .ldL d b o z h => Sys2Proof.Machine.execLdL d b o z h s
  | .stL d b o z h => Sys2Proof.Machine.execStL d b o z h s
  | .ldS d b o z r h => Sys2Proof.Machine.execLdS d b o z r h s
  | .stS d b o z r h => Sys2Proof.Machine.execStS d b o z r h s
  | .ldG d b o z r h => Sys2Proof.Machine.execLdG d b o z r h s
  | .stG d b o z r h => Sys2Proof.Machine.execStG d b o z r h s
  | .vldL v a b p h => Sys2Proof.Machine.execVldL v a b p h s
  | .vstL v a b p h => Sys2Proof.Machine.execVstL v a b p h s
  | .vldS v a b p r h => Sys2Proof.Machine.execVldS v a b p r h s
  | .vstS v a b p r h => Sys2Proof.Machine.execVstS v a b p r h s
  | .vldG v a b p r h => Sys2Proof.Machine.execVldG v a b p r h s
  | .vstG v a b p r t h => Sys2Proof.Machine.execVstG v a b p r t h s
  | .vgthS v a b p r h => Sys2Proof.Machine.execVgthS v a b p r h s
  | .vsctS v a b p r h => Sys2Proof.Machine.execVsctS v a b p r h s
  | .vgthG v a b p r h => Sys2Proof.Machine.execVgthG v a b p r h s
  | .vsctG v a b p r t h => Sys2Proof.Machine.execVsctG v a b p r t h s
  | .pfG a b h => Sys2Proof.Machine.execPfG a b h s
  | .cwb a h => Sys2Proof.Machine.execCwb a h s
  | .cinv a h => Sys2Proof.Machine.execCinv a h s
  | .cwbi a h => Sys2Proof.Machine.execCwbi a h s
  | .bankcfg a b h => Sys2Proof.Machine.execBankcfg a b h s
  | .bankSwitch tile bank => Sys2Proof.Machine.execBankSwitch tile bank s
  | .stGBNt a b h => Sys2Proof.Machine.execStGBNt a b h s
  | .stGHNt a b h => Sys2Proof.Machine.execStGHNt a b h s
  | .stGWNt a b h => Sys2Proof.Machine.execStGWNt a b h s
  | .stGDNt a b h => Sys2Proof.Machine.execStGDNt a b h s
  | .vadd v a b p r h => Sys2Proof.Machine.execVadd v a b p r h s
  | .vsub v a b p r h => Sys2Proof.Machine.execVsub v a b p r h s
  | .vmul v a b p r h => Sys2Proof.Machine.execVmul v a b p r h s
  | .vfma v a b p r h => Sys2Proof.Machine.execVfma v a b p r h s
  | .vfnma v a b p r h => Sys2Proof.Machine.execVfnma v a b p r h s
  | .vmin v a b p h => Sys2Proof.Machine.execVmin v a b p h s
  | .vmax v a b p h => Sys2Proof.Machine.execVmax v a b p h s
  | .vabs v a p h => Sys2Proof.Machine.execVabs v a p h s
  | .vneg v a p h => Sys2Proof.Machine.execVneg v a p h s
  | .vdiv v a b p r h => Sys2Proof.Machine.execVdiv v a b p r h s
  | .vsqrt v a p r h => Sys2Proof.Machine.execVsqrt v a p r h s
  | .vrcp v a p h => Sys2Proof.Machine.execVrcp v a p h s
  | .vrsqrt v a p h => Sys2Proof.Machine.execVrsqrt v a p h s
  | .vexp2 v a p h => Sys2Proof.Machine.execVexp2 v a p h s
  | .vlog2 v a p h => Sys2Proof.Machine.execVlog2 v a p h s
  | .vscale v a b p r h => Sys2Proof.Machine.execVscale v a b p r h s
  | .vaddI v a b p h => Sys2Proof.Machine.execVaddI v a b p h s
  | .vsubI v a b p h => Sys2Proof.Machine.execVsubI v a b p h s
  | .vmulI v a b p h => Sys2Proof.Machine.execVmulI v a b p h s
  | .vmlaI v a b p h => Sys2Proof.Machine.execVmlaI v a b p h s
  | .vminI v a b p h => Sys2Proof.Machine.execVminI v a b p h s
  | .vminN v a b p h => Sys2Proof.Machine.execVminN v a b p h s
  | .vmaxI v a b p h => Sys2Proof.Machine.execVmaxI v a b p h s
  | .vmaxN v a b p h => Sys2Proof.Machine.execVmaxN v a b p h s
  | .vandI v a b p h => Sys2Proof.Machine.execVandI v a b p h s
  | .vorI v a b p h => Sys2Proof.Machine.execVorI v a b p h s
  | .vxorI v a b p h => Sys2Proof.Machine.execVxorI v a b p h s
  | .vsllI v a b p h => Sys2Proof.Machine.execVsllI v a b p h s
  | .vsrlI v a b p h => Sys2Proof.Machine.execVsrlI v a b p h s
  | .vsraI v a b p h => Sys2Proof.Machine.execVsraI v a b p h s
  | .vaddsI v a b p h => Sys2Proof.Machine.execVaddsI v a b p h s
  | .vaddsN v a b p h => Sys2Proof.Machine.execVaddsN v a b p h s
  | .vsubsI v a b p h => Sys2Proof.Machine.execVsubsI v a b p h s
  | .vsubsN v a b p h => Sys2Proof.Machine.execVsubsN v a b p h s
  | .vabsI v a p h => Sys2Proof.Machine.execVabsI v a p h s
  | .vmulhI v a b p h => Sys2Proof.Machine.execVmulhI v a b p h s
  | .vmulhN v a b p h => Sys2Proof.Machine.execVmulhN v a b p h s
  | .vcmpEq d a b p h => Sys2Proof.Machine.execVcmpEq d a b p h s
  | .vcmpNe d a b p h => Sys2Proof.Machine.execVcmpNe d a b p h s
  | .vcmpLt d a b p h => Sys2Proof.Machine.execVcmpLt d a b p h s
  | .vcmpLe d a b p h => Sys2Proof.Machine.execVcmpLe d a b p h s
  | .vcmpGt d a b p h => Sys2Proof.Machine.execVcmpGt d a b p h s
  | .vcmpGe d a b p h => Sys2Proof.Machine.execVcmpGe d a b p h s
  | .vcmpUn d a b p h => Sys2Proof.Machine.execVcmpUn d a b p h s
  | .vcmpEqI d a b p h => Sys2Proof.Machine.execVcmpEqI d a b p h s
  | .vcmpNeI d a b p h => Sys2Proof.Machine.execVcmpNeI d a b p h s
  | .vcmpLtI d a b p h => Sys2Proof.Machine.execVcmpLtI d a b p h s
  | .vcmpLeI d a b p h => Sys2Proof.Machine.execVcmpLeI d a b p h s
  | .vcmpGtI d a b p h => Sys2Proof.Machine.execVcmpGtI d a b p h s
  | .vcmpGeI d a b p h => Sys2Proof.Machine.execVcmpGeI d a b p h s
  | .vcmpEqN d a b p h => Sys2Proof.Machine.execVcmpEqN d a b p h s
  | .vcmpNeN d a b p h => Sys2Proof.Machine.execVcmpNeN d a b p h s
  | .vcmpLtN d a b p h => Sys2Proof.Machine.execVcmpLtN d a b p h s
  | .vcmpLeN d a b p h => Sys2Proof.Machine.execVcmpLeN d a b p h s
  | .vcmpGtN d a b p h => Sys2Proof.Machine.execVcmpGtN d a b p h s
  | .vcmpGeN d a b p h => Sys2Proof.Machine.execVcmpGeN d a b p h s
  | .vrsum v a p h => Sys2Proof.Machine.execVrsum v a p h s
  | .vcsum v a p h => Sys2Proof.Machine.execVcsum v a p h s
  | .vrmax v a p h => Sys2Proof.Machine.execVrmax v a p h s
  | .vcmax v a p h => Sys2Proof.Machine.execVcmax v a p h s
  | .vrmin v a p h => Sys2Proof.Machine.execVrmin v a p h s
  | .vcmin v a p h => Sys2Proof.Machine.execVcmin v a p h s
  | .vdot v a b p h => Sys2Proof.Machine.execVdot v a b p h s
  | .vtrn v a p h => Sys2Proof.Machine.execVtrn v a p h s
  | .pand d a b h => Sys2Proof.Machine.execPand d a b h s
  | .por d a b h => Sys2Proof.Machine.execPor d a b h s
  | .pxor d a b h => Sys2Proof.Machine.execPxor d a b h s
  | .pandn d a b h => Sys2Proof.Machine.execPandn d a b h s
  | .pnot d a h => Sys2Proof.Machine.execPnot d a h s
  | .pfirst d a h => Sys2Proof.Machine.execPfirst d a h s
  | .pcnt d a h => Sys2Proof.Machine.execPcnt d a h s
  | .pset d a h => Sys2Proof.Machine.execPset d a h s
  | .vcvt v a q p t f h => Sys2Proof.Machine.execVcvt v a q p t f h s
  | .vpkBfp8 v a g q h => Sys2Proof.Machine.execVpkBfp8 v a g q h s
  | .vupkBfp8 v a g q h => Sys2Proof.Machine.execVupkBfp8 v a g q h s
  | .vpk v a b h => Sys2Proof.Machine.execVpk v a b h s
  | .vupk v a q h => Sys2Proof.Machine.execVupk v a q h s
  | .vbcast v a p h => Sys2Proof.Machine.execVbcast v a p h s
  | .vins v a b h => Sys2Proof.Machine.execVins v a b h s
  | .vext d a b h => Sys2Proof.Machine.execVext d a b h s
  | .vperm v a b p h => Sys2Proof.Machine.execVperm v a b p h s
  | .vmov v a p h => Sys2Proof.Machine.execVmov v a p h s
  | .vsel v a b p h => Sys2Proof.Machine.execVsel v a b p h s
  | .vzero v h => Sys2Proof.Machine.execVzero v h s
  | .vrng v a b p h => Sys2Proof.Machine.execVrng v a b p h s
  | .vrngf v a b p h => Sys2Proof.Machine.execVrngf v a b p h s
  | .vshape w l h => Sys2Proof.Machine.execVshape w l h s
  | .vwin b h => Sys2Proof.Machine.execVwin b h s
  | .vfmov v imm => Sys2Proof.Machine.execVfmov v imm s
  | .setfmt a h => Sys2Proof.Machine.execSetfmt a h s
  | .stfmt a h => Sys2Proof.Machine.execStfmt a h s
  | .cp a b h => Sys2Proof.Machine.execCp a b h s
  | .cpstat d h => Sys2Proof.Machine.execCpstat d h s
  | .copyStart tile => Sys2Proof.Machine.execCopyStart tile s
  | .copyComplete tile => Sys2Proof.Machine.execCopyComplete tile s
  | .pass a h => Sys2Proof.Machine.execPass a h s
  | .passAck d a h => Sys2Proof.Machine.execPassAck d a h s
  | .passr a h => Sys2Proof.Machine.execPassr a h s
  | .passrAck d a h => Sys2Proof.Machine.execPassrAck d a h s
  | .pebc d h => Sys2Proof.Machine.execPebc d h s
  | .pflr a h => Sys2Proof.Machine.execPflr a h s
  | .ptkt d h => Sys2Proof.Machine.execPtkt d h s
  | .phld a b h => Sys2Proof.Machine.execPhld a b h s
  | .phldAck d a b h => Sys2Proof.Machine.execPhldAck d a b h s
  | .phst a b h => Sys2Proof.Machine.execPhst a b h s
  | .phstAck d a b h => Sys2Proof.Machine.execPhstAck d a b h s
  | .psel a h => Sys2Proof.Machine.execPsel a h s
  | .pselAck d a h => Sys2Proof.Machine.execPselAck d a h s
  | .dcmp a b h => Sys2Proof.Machine.execDcmp a b h s
  | .dcmpAck d a b h => Sys2Proof.Machine.execDcmpAck d a b h s
  | .paletteLoadStart tile => Sys2Proof.Machine.execPaletteLoadStart tile s
  | .paletteLoadDone tile pebc => Sys2Proof.Machine.execPaletteLoadDone tile pebc s
  | .paletteStoreStart tile => Sys2Proof.Machine.execPaletteStoreStart tile s
  | .paletteStoreDone tile => Sys2Proof.Machine.execPaletteStoreDone tile s
  | .paletteSwitch tile pebc => Sys2Proof.Machine.execPaletteSwitch tile pebc s
  | .decompStart tile => Sys2Proof.Machine.execDecompStart tile s
  | .decompDone tile pebc => Sys2Proof.Machine.execDecompDone tile pebc s
  | .xmm a h => Sys2Proof.Machine.execXmm a h s
  | .xmmAck d a h => Sys2Proof.Machine.execXmmAck d a h s
  | .xmmStrict a h => Sys2Proof.Machine.execXmmStrict a h s
  | .xmmStrictAck d a h => Sys2Proof.Machine.execXmmStrictAck d a h s
  | .xmmStart tile => Sys2Proof.Machine.execXmmStart tile s
  | .xmmComplete tile => Sys2Proof.Machine.execXmmComplete tile s
  | .coll a h => Sys2Proof.Machine.execColl a h s
  | .cstat d a h => Sys2Proof.Machine.execCstat d a h s
  | .migr a h => Sys2Proof.Machine.execMigr a h s
  | .spawn a h => Sys2Proof.Machine.execSpawn a h s
  | .exit h => Sys2Proof.Machine.execExit h s
  | .cancelG a h => Sys2Proof.Machine.execCancelG a h s
  | .cancelGr a h => Sys2Proof.Machine.execCancelGr a h s
  | .cancelJ a h => Sys2Proof.Machine.execCancelJ a h s
  | .prmt a b h => Sys2Proof.Machine.execPrmt a b h s
  | .gdep a b h => Sys2Proof.Machine.execGdep a b h s
  | .gcnt d a h => Sys2Proof.Machine.execGcnt d a h s
  | .amoAdd d a b w h => Sys2Proof.Machine.execAmoAdd d a b w h s
  | .amoAnd d a b w h => Sys2Proof.Machine.execAmoAnd d a b w h s
  | .amoOr d a b w h => Sys2Proof.Machine.execAmoOr d a b w h s
  | .amoXor d a b w h => Sys2Proof.Machine.execAmoXor d a b w h s
  | .amoMin d a b w h => Sys2Proof.Machine.execAmoMin d a b w h s
  | .amoMax d a b w h => Sys2Proof.Machine.execAmoMax d a b w h s
  | .amoMinn d a b w h => Sys2Proof.Machine.execAmoMinn d a b w h s
  | .amoMaxn d a b w h => Sys2Proof.Machine.execAmoMaxn d a b w h s
  | .amoSwap d a b w h => Sys2Proof.Machine.execAmoSwap d a b w h s
  | .amoCas d a b w h => Sys2Proof.Machine.execAmoCas d a b w h s
  | .amoFadd d a b h => Sys2Proof.Machine.execAmoFadd d a b h s
  | .redAdd a b w h => Sys2Proof.Machine.execRedAdd a b w h s
  | .redAnd a b w h => Sys2Proof.Machine.execRedAnd a b w h s
  | .redOr a b w h => Sys2Proof.Machine.execRedOr a b w h s
  | .redXor a b w h => Sys2Proof.Machine.execRedXor a b w h s
  | .redMin a b w h => Sys2Proof.Machine.execRedMin a b w h s
  | .redMax a b w h => Sys2Proof.Machine.execRedMax a b w h s
  | .redMinn a b w h => Sys2Proof.Machine.execRedMinn a b w h s
  | .redMaxn a b w h => Sys2Proof.Machine.execRedMaxn a b w h s
  | .redFadd a b h => Sys2Proof.Machine.execRedFadd a b h s
  | .amoHomePerform slot idx => Sys2Proof.Machine.execAmoHomePerform slot idx s
  | .lrw d a h => Sys2Proof.Machine.execLrw d a h s
  | .scr d a b h => Sys2Proof.Machine.execScr d a b h s
  | .reservationGrant line => Sys2Proof.Machine.execReservationGrant line s
  | .reservationTimeout line => Sys2Proof.Machine.execReservationTimeout line s
  | .lde d a h => Sys2Proof.Machine.execLde d a h s
  | .stf a b h => Sys2Proof.Machine.execStf a b h s
  | .ldew d a b h => Sys2Proof.Machine.execLdew d a b h s
  | .stfw d a b h => Sys2Proof.Machine.execStfw d a b h s
  | .feq d a h => Sys2Proof.Machine.execFeq d a h s
  | .give a b h => Sys2Proof.Machine.execGive a b h s
  | .ownw a h => Sys2Proof.Machine.execOwnw a h s
  | .bar h => Sys2Proof.Machine.execBar h s
  | .fence sc h => Sys2Proof.Machine.execFence sc h s
  | .rel sc h => Sys2Proof.Machine.execRel sc h s
  | .acq m sc h => Sys2Proof.Machine.execAcq m sc h s
  | .orderingActionsDone slot => Sys2Proof.Machine.execOrderingActionsDone slot s
  | .msend a h => Sys2Proof.Machine.execMsend a h s
  | .mrecv h => Sys2Proof.Machine.execMrecv h s
  | .mend h => Sys2Proof.Machine.execMend h s
  | .varn a h => Sys2Proof.Machine.execVarn a h s
  | .srr d sr h => Sys2Proof.Machine.execSrr d sr h s
  | .srw a sr h => Sys2Proof.Machine.execSrw a sr h s
  | .srset a sr h => Sys2Proof.Machine.execSrset a sr h s
  | .srclr a sr h => Sys2Proof.Machine.execSrclr a sr h s
  | .rtx h => Sys2Proof.Machine.execRtx h s
  | .sys h => Sys2Proof.Machine.execSys h s
  | .brk h => Sys2Proof.Machine.execBrk h s
  | .clkm a h => Sys2Proof.Machine.execClkm a h s
  | .loadReturn slot idx => Sys2Proof.Machine.execLoadReturn slot idx s
  | .storePerform slot idx => Sys2Proof.Machine.execStorePerform slot idx s
  | .translationWalkDone station pid va => Sys2Proof.Machine.execTranslationWalkDone station pid va s
  | .wcDrain core idx => Sys2Proof.Machine.execWcDrain core idx s
  | .sysregEffectDone slot => Sys2Proof.Machine.execSysregEffectDone slot s
  | .tsinvPage pid vpn => Sys2Proof.Machine.execTsinvPage pid vpn s
  | .tsinvPid pid => Sys2Proof.Machine.execTsinvPid pid s
  | .tsinvAll => Sys2Proof.Machine.execTsinvAll s
  | .elevatorRetire elev => Sys2Proof.Machine.execElevatorRetire elev s
  | .elevatorReissue core => Sys2Proof.Machine.execElevatorReissue core s
  | .passStart tile pebc => Sys2Proof.Machine.execPassStart tile pebc s
  | .leaveGrant tile => Sys2Proof.Machine.execLeaveGrant tile s
  | .groupEntry tile => Sys2Proof.Machine.execGroupEntry tile s
  | .groupOutput tile codes => Sys2Proof.Machine.execGroupOutput tile codes s
  | .groupEmulate tile => Sys2Proof.Machine.execGroupEmulate tile s
  | .passEnd tile => Sys2Proof.Machine.execPassEnd tile s
  | .swatchInject tile lane mismatch quad dm => Sys2Proof.Machine.execSwatchInject tile lane mismatch quad dm s
  | .thermalLoop tile temps live => Sys2Proof.Machine.execThermalLoop tile temps live s
  | .debcEval tile debc => Sys2Proof.Machine.execDebcEval tile debc s
  | .otctlClr tile => Sys2Proof.Machine.execOtctlClr tile s
  | .otctlClrEffect tile => Sys2Proof.Machine.execOtctlClrEffect tile s
  | .otctlCal tile => Sys2Proof.Machine.execOtctlCal tile s
  | .calibEnter tile => Sys2Proof.Machine.execCalibEnter tile s
  | .otctlOff tile off => Sys2Proof.Machine.execOtctlOff tile off s
  | .tileCalibDone tile ok found pebc => Sys2Proof.Machine.execTileCalibDone tile ok found pebc s
  | .messageArrive idx => Sys2Proof.Machine.execMessageArrive idx s
  | .antiMessageArrive idx => Sys2Proof.Machine.execAntiMessageArrive idx s
  | .msgfull pid => Sys2Proof.Machine.execMsgfull pid s
  | .rollback pid lp => Sys2Proof.Machine.execRollback pid lp s
  | .vpRound pid => Sys2Proof.Machine.execVpRound pid s
  | .vpRoundAbandon pid => Sys2Proof.Machine.execVpRoundAbandon pid s
  | .fabricVpRound pid others othersSum => Sys2Proof.Machine.execFabricVpRound pid others othersSum s
  | .fabricVpRetry pid => Sys2Proof.Machine.execFabricVpRetry pid s
  | .varnishPerform => Sys2Proof.Machine.execVarnishPerform s
  | .vjbsetWrite v => Sys2Proof.Machine.execVjbsetWrite v s
  | .mpsetWrite v => Sys2Proof.Machine.execMpsetWrite v s
  | .itemHop item => Sys2Proof.Machine.execItemHop item s
  | .ringRadiusGrow item => Sys2Proof.Machine.execRingRadiusGrow item s
  | .overflowPark item => Sys2Proof.Machine.execOverflowPark item s
  | .pickup item => Sys2Proof.Machine.execPickup item s
  | .parkEvict slot => Sys2Proof.Machine.execParkEvict slot s
  | .deferredLaunch idx => Sys2Proof.Machine.execDeferredLaunch idx s
  | .hostAddition => Sys2Proof.Machine.execHostAddition s
  | .cancelSweep => Sys2Proof.Machine.execCancelSweep s
  | .cancelTrap slot => Sys2Proof.Machine.execCancelTrap slot s
  | .cancelStopTimeout slot => Sys2Proof.Machine.execCancelStopTimeout slot s
  | .preemptWriteback slot => Sys2Proof.Machine.execPreemptWriteback slot s
  | .prmto slot => Sys2Proof.Machine.execPrmto slot s
  | .tilePin tile => Sys2Proof.Machine.execTilePin tile s
  | .tileUnpin tile => Sys2Proof.Machine.execTileUnpin tile s
  | .droopDetect tile pct => Sys2Proof.Machine.execDroopDetect tile pct s
  | .governorAdjust tile freq => Sys2Proof.Machine.execGovernorAdjust tile freq s
  | .junctionOvertemp => Sys2Proof.Machine.execJunctionOvertemp s
  | .xholdWrite v => Sys2Proof.Machine.execXholdWrite v s
  | .xfatalWrite v => Sys2Proof.Machine.execXfatalWrite v s
  | .sresumeWrite v => Sys2Proof.Machine.execSresumeWrite v s
  | .ftsetWrite v => Sys2Proof.Machine.execFtsetWrite v s
  | .dumpsetWrite v => Sys2Proof.Machine.execDumpsetWrite v s
  | .dumpSequence => Sys2Proof.Machine.execDumpSequence s
  | .compatEngineReset => Sys2Proof.Machine.execCompatEngineReset s
  | .dbgstopStop slot => Sys2Proof.Machine.execDbgstopStop slot s
  | .dbgstopFree core slot => Sys2Proof.Machine.execDbgstopFree core slot s
  | .profctlWrite tile v => Sys2Proof.Machine.execProfctlWrite tile v s
  | .profileCounterClear core n => Sys2Proof.Machine.execProfileCounterClear core n s
  | .evpopRead core d => Sys2Proof.Machine.execEvpopRead core d s
  | .registerWrite off v => Sys2Proof.Machine.execRegisterWrite off v s
  | .coldReset => Sys2Proof.Machine.execColdReset s
  | .warmReset => Sys2Proof.Machine.execWarmReset s
  | .bootSequence err version coreMap tables starts => Sys2Proof.Machine.execBootSequence err version coreMap tables starts s
  | .aperturesOpen => Sys2Proof.Machine.execAperturesOpen s
  | .timeadjWrite v => Sys2Proof.Machine.execTimeadjWrite v s
  | .fabcfgWrite v => Sys2Proof.Machine.execFabcfgWrite v s
  | .linkTrainDone port peer farLit => Sys2Proof.Machine.execLinkTrainDone port peer farLit s
  | .keyctlGenerate pid => Sys2Proof.Machine.execKeyctlGenerate pid s
  | .keyctlErase pid => Sys2Proof.Machine.execKeyctlErase pid s
  | .keyctlDone => Sys2Proof.Machine.execKeyctlDone s
  | .windowRead off len => Sys2Proof.Machine.execWindowRead off len s
  | .windowWrite off data => Sys2Proof.Machine.execWindowWrite off data s
  | .launchRecordWrite queue off data => Sys2Proof.Machine.execLaunchRecordWrite queue off data s
  | .serviceLaunch queue => Sys2Proof.Machine.execServiceLaunch queue s
  | .qctlWrite queue v => Sys2Proof.Machine.execQctlWrite queue v s
  | .qctlTear queue => Sys2Proof.Machine.execQctlTear queue s
  | .attest => Sys2Proof.Machine.execAttest s
  | .ident => Sys2Proof.Machine.execIdent s
  | .fwwrite => Sys2Proof.Machine.execFwwrite s
  | .mailboxCommandDone flashOk => Sys2Proof.Machine.execMailboxCommandDone flashOk s
  | .scanStart v => Sys2Proof.Machine.execScanStart v s
  | .scanDrainTimeout => Sys2Proof.Machine.execScanDrainTimeout s
  | .scanAbort item => Sys2Proof.Machine.execScanAbort item s
  | .scanPatternDone pass => Sys2Proof.Machine.execScanPatternDone pass s
  | .laserSwitchover => Sys2Proof.Machine.execLaserSwitchover s
  | .laserSwitchoverDone => Sys2Proof.Machine.execLaserSwitchoverDone s
  | .laserRequest req => Sys2Proof.Machine.execLaserRequest req s
  | .laserTransitionDone => Sys2Proof.Machine.execLaserTransitionDone s
  | .laserWake => Sys2Proof.Machine.execLaserWake s
  | .lctlRetrain port => Sys2Proof.Machine.execLctlRetrain port s
  | .lctlEnable port en => Sys2Proof.Machine.execLctlEnable port en s
  | .laneFailingReport port lane => Sys2Proof.Machine.execLaneFailingReport port lane s
  | .narrowNegotiateDone dir => Sys2Proof.Machine.execNarrowNegotiateDone dir s
  | .laneHealthUpdate port lane power margin fails slots recent => Sys2Proof.Machine.execLaneHealthUpdate port lane power margin fails slots recent s
  | .laneRecover port lane => Sys2Proof.Machine.execLaneRecover port lane s
  | .lutilWindow port => Sys2Proof.Machine.execLutilWindow port s
  | .groupReceive port grp => Sys2Proof.Machine.execGroupReceive port grp s
  | .nakReceive port seq => Sys2Proof.Machine.execNakReceive port seq s
  | .linkRecordReceive record => Sys2Proof.Machine.execLinkRecordReceive record s
  | .tableAgree digests => Sys2Proof.Machine.execTableAgree digests s
  | .remoteRequestArrive req => Sys2Proof.Machine.execRemoteRequestArrive req s
  | .remoteReplyArrive tag refused data => Sys2Proof.Machine.execRemoteReplyArrive tag refused data s
  | .remoteReissue tag => Sys2Proof.Machine.execRemoteReissue tag s
  | .requestAgeDiscard tag => Sys2Proof.Machine.execRequestAgeDiscard tag s
  | .replyCacheRetry tag => Sys2Proof.Machine.execReplyCacheRetry tag s
  | .migrationArrive packet => Sys2Proof.Machine.execMigrationArrive packet s
  | .migrationAck tag => Sys2Proof.Machine.execMigrationAck tag s
  | .migrationRefused tag why => Sys2Proof.Machine.execMigrationRefused tag why s
  | .collStart cid => Sys2Proof.Machine.execCollStart cid s
  | .collJoined cid digestsEqual => Sys2Proof.Machine.execCollJoined cid digestsEqual s
  | .chunkReceive cid xfer => Sys2Proof.Machine.execChunkReceive cid xfer s
  | .chunkAckReceive cid chunk dev version => Sys2Proof.Machine.execChunkAckReceive cid chunk dev version s
  | .completionWave cid => Sys2Proof.Machine.execCompletionWave cid s
  | .collRestart cid marks => Sys2Proof.Machine.execCollRestart cid marks s
  | .idleRound core passes => Sys2Proof.Machine.execIdleRound core passes s
  | .illegalInstruction word => Sys2Proof.Machine.execIllegalInstruction word s
  | .fetchFault cause va => Sys2Proof.Machine.execFetchFault cause va s
  | .prefetchFill idx => Sys2Proof.Machine.execPrefetchFill idx s
  | .replyCacheExpiry src tag => Sys2Proof.Machine.execReplyCacheExpiry src tag s
  | .softError site correctable pid addr => Sys2Proof.Machine.execSoftError site correctable pid addr s

end Sys2Proof.Machine
end

