-- ==== Sys2Proof/Machine/Step.lean ====
section
/-!
DEFINITION. One step of the module: a turn of the agenda, a store to a device register on its way, the next act of a core
(02 R30; 03 R50; 15 R384), or an event of the device itself. `State.withFetchWord` places an instruction where the next step
fetches it.
-/

namespace Sys2Proof.Machine

/-- Go on from a next state. -/
def andThen (o : Result) (f : State → State) : Result :=
  match o with
  | .next s => .next (f s)
  | .fault r => .fault r
  | .refused r => .refused r

/-- An event that is part of what an instruction or a visit of the executing slot does, and so is never on its own. -/
def ofStrand : Instr → Bool
  | .idleRound _ _ => true
  | .illegalInstruction _ => true
  | .fetchFault _ _ => true
  | .xholdWrite _ => true
  | .xfatalWrite _ => true
  | .evpopRead _ _ => true
  | _ => false

/-- An event that may stand on the agenda (assumption 1). -/
def isTurn (i : Instr) : Bool := (encode i).isEmpty && !ofStrand i

/-- What a device-fatal device answers to: a reset and a write of RESETCTL (15 R392; 16 R410). -/
def isRecovery : Instr → Bool
  | .coldReset => true
  | .warmReset => true
  | .registerWrite off _ => decide (off = 8)
  | _ => false

/-! ## The acts of a core -/

/-- Slot `n` of a core acts: its trap or stop that is due, or its instruction, after which one cycle of the core has passed. A
visit that ends in a trap, a fault or a debug stop spends a cycle and counts as an issue too, of which the spec says nothing
(03 R50; assumption 95). -/
noncomputable def State.perform (s : State) (core n : Nat) (passes : List (Nat × SlotPass)) (a : Act) : Result :=
  let s1 := s.enterVisit core n passes
  match a with
  | .step => .next ((s1.takeStep n).tick core)
  | .event i => andThen (exec i s1) (fun t => t.tick core)
  | .late f => .next ((s1.takeLate n f).tick core)
  | .illegal w => andThen (exec (.illegalInstruction w) (s1.fetched n false)) (fun t => t.tick core)
  | .bad c va => andThen (exec (.fetchFault c va) (s1.fetched n false)) (fun t => t.tick core)
  | .instr i hintFault =>
    let s2 := (s1.fetched n hintFault).consumeRegs n (instrUse ((s1.fetched n hintFault).slotAt n) i).needs.contains
    let pre := s2.slotAt n
    andThen (exec i s2) (fun t => (t.issued core n pre (instrUse pre i)).tick core)

/-! ## Events of the device itself (assumption 1) -/

/-- Events of a tile that may take place by themselves; their measured operands are free values. While no pass runs, each
wavelength in service takes a swatch every 25 µs (09 R231). -/
noncomputable def tileEvents (s : State) (t : Nat) : List Instr :=
  let c := s.freeCtr
  let o := (s.tile t).opt
  let pebc := Config.freePebc c
  let due (r : PassRun) : Bool :=
    o.swatchFirst (r.cmd.lmask &&& o.live) (Nat.min (r.cmd.groupSize o.live) (r.cmd.count - r.next))
  let idle : Bool := o.runs.isEmpty && o.lanes.any (fun w => match o.swatchAt w with | some a => decide (a + 50000 ≤ s.ticks) | none => true)
  let swatches : List Instr :=
    if o.state = .ready && (o.setDue || idle || o.runs.any due) then
      (List.range 8).map (fun w => .swatchInject t w (Config.freeWord c).toNat (Config.freeWord (c + 1)).toNat (Config.freeWord (c + 2)).toNat)
    else []
  (List.range 16).map (fun b => .bankSwitch t b) ++
    [.copyStart t, .copyComplete t, .paletteLoadStart t, .paletteLoadDone t pebc, .paletteStoreStart t, .paletteStoreDone t,
     .paletteSwitch t pebc, .decompStart t, .decompDone t pebc, .xmmStart t, .xmmComplete t, .leaveGrant t,
     .passStart t pebc, .groupEntry t, .groupOutput t [], .groupEmulate t, .passEnd t, .otctlClrEffect t, .calibEnter t,
     .tileCalibDone t (Config.freeBit c) ((Config.freeWord (c + 3)).setWidth 8, (Config.freeWord c).setWidth 16) pebc, .tilePin t, .tileUnpin t] ++ swatches

/-- Events of a slot that may take place by themselves. -/
noncomputable def slotEvents (n : Nat) (x : Slot) : List Instr :=
  (List.range x.pend.length).flatMap (fun k => [.loadReturn n k, .storePerform n k, .amoHomePerform n k]) ++
    [.orderingActionsDone n, .sysregEffectDone n, .parkEvict n, .cancelTrap n, .cancelStopTimeout n, .preemptWriteback n,
     .prmto n, .dbgstopStop n]

/-- Events of a core that may take place by themselves. -/
noncomputable def coreEvents (n : Nat) (c : Core) : List Instr :=
  (if c.hold then [.elevatorReissue n] else []) ++ (if c.wc.isEmpty then [] else [.wcDrain n 0])

/-- Events of a job that may take place by themselves. -/
noncomputable def jobEvents (n : Nat) (j : Job) : List Instr :=
  let pid := BitVec.ofNat 12 n
  [.msgfull pid, .vpRound pid] ++ (j.lps.filter (fun e => e.2.due.isSome)).map (fun e => .rollback pid (BitVec.ofNat 32 e.1))

/-- Events of the items in placement. -/
noncomputable def itemEvents (n : Nat) : List Instr :=
  (List.range n).flatMap (fun k => [.itemHop k, .ringRadiusGrow k, .overflowPark k, .pickup k, .scanAbort k])

/-- What a far end that lights every link wavelength negotiates for a port with a frozen receive lane: its healthy lanes, in
ascending order (14 R364). -/
def Port.farNarrow (p : Port) : Option (List Nat × Nat) :=
  if p.lanes.toList.any (fun l => decide (l.state = 2)) then
    some (p.rxHealthy.take (4 * widthCode 4 p.rxHealthy.length), 16)
  else none

/-- A collective that goes on, or ends, with nothing from another module: it is cancelled or has lost a member, or it restarts
on this module alone (14 R369, R370). -/
def State.collAlone (s : State) (c : Coll) : Bool :=
  c.cancel || c.members.any (fun d => decide (d ≠ s.plat.dev.toNat) && !s.reach d) ||
    (decide (c.state = 3) && c.members.all (fun m => decide (m = s.plat.dev.toNat)))

/-- Events of the fabric that need nothing from another module but the answers to a negotiation and its digests. -/
noncomputable def fabricEvents (s : State) : List Instr :=
  let digest := Config.freeWord s.freeCtr
  let theirs := (List.range 8).filterMap (fun p =>
    match s.ports[p]? with | some k => if k.stands then some (p, digest) else none | none => none)
  (List.range 8).flatMap (fun p =>
    (match s.ports[p]? with
     | some k =>
       (if k.state = 3 then [.narrowNegotiateDone (p, none)] else []) ++
         (match k.farNarrow with | some f => [.narrowNegotiateDone (p, some f)] | none => [])
     | none => []) ++
    [.lutilWindow p] ++ (List.range 16).map (fun l => .laneRecover p l)) ++
    s.remote.map (fun r => .remoteReissue r.tag) ++ s.replies.map (fun r => .replyCacheExpiry r.src r.tag) ++
    s.collQ.map (fun c => .collStart (BitVec.ofNat 16 c.cid)) ++
    s.colls.map (fun e => .completionWave (BitVec.ofNat 16 e.1, none)) ++
    (s.colls.filter (fun e => e.2.members.all (fun m => decide (m = s.plat.dev.toNat)))).map (fun e => .collJoined (BitVec.ofNat 16 e.1) true) ++
    (s.colls.filter (fun e => s.collAlone e.2)).map (fun e => .collRestart (BitVec.ofNat 16 e.1) []) ++
    [.tableAgree (digest, theirs)]

/-- A continuation record of eight free doublewords: which strands the firmware starts the spec does not say (assumption 94). -/
noncomputable def freeRecord (ctr : Nat) : BitVec 512 :=
  BitVec.ofNat 512 (leNat (wordsBytes ((List.range 8).map (fun k => Config.freeWord (ctr + k)))))

/-- Events of the platform that may take place by themselves. -/
noncomputable def platformEvents (s : State) : List Instr :=
  let c := s.freeCtr
  [.varnishPerform, .hostAddition, .cancelSweep, .dumpSequence, .compatEngineReset, .keyctlDone, .attest, .ident, .fwwrite,
   .mailboxCommandDone (Config.freeBit c), .scanDrainTimeout, .scanPatternDone (Config.freeBit c), .laserTransitionDone,
   .laserWake, .laserSwitchoverDone,
   .bootSequence (match (Config.freeWord c).toNat % 4 with | 0 => 0 | 1 => 1 | 2 => 2 | _ => 4)
     ((Config.freeWord (c + 1)).toNat % 2 ^ 32) (BitVec.allOnes 256, []) ([], [])
     ((List.range 4).map (fun q => (BitVec.ofNat 2 q, freeRecord (c + 2 + 8 * q)))), .aperturesOpen] ++
    s.queues.map (fun e => .serviceLaunch e.1)

/-- Every event that the device itself may bring about now. -/
noncomputable def internalEvents (s : State) : List Instr :=
  (List.range 16).flatMap (fun t => tileEvents s t) ++
    s.occSlots.flatMap (fun e => slotEvents e.1 e.2) ++ s.cores.flatMap (fun e => coreEvents e.1 e.2) ++
    s.rsvqs.flatMap (fun q => [.reservationGrant q.line, .reservationTimeout q.line]) ++
    (List.range s.transit.length).flatMap (fun k => [.messageArrive k, .antiMessageArrive k]) ++
    (List.range s.prefetch.length).map (fun k => .prefetchFill k) ++
    (List.range s.deferred.length).map (fun k => .deferredLaunch k) ++
    s.jobs.flatMap (fun e => jobEvents e.1 e.2) ++ itemEvents s.items.length ++ fabricEvents s ++ platformEvents s

/-- The first event of a list that changes the state takes place, if any does; the free values that the list was made with
are taken. -/
def firstChange (s : State) : List Instr → Option Result
  | [] => none
  | i :: r =>
    match exec i s with
    | .next t => if t = s then firstChange s r else some (.next t)
    | .fault f => some (.fault f)
    | .refused f => some (.refused f)

/-- An event of the device takes place: the first that changes anything, in an order that turns with time. -/
noncomputable def State.internal (s : State) : Option Result :=
  let l := internalEvents s
  let k := s.ticks % l.length
  firstChange { s with freeCtr := s.freeCtr + 40 } (l.drop k ++ l.take k)

/-- A core goes on with its round: the next slot that acts, or the end of the round, with which an event of the device takes
place. -/
noncomputable def State.coreTurn (s : State) (core : Nat) : Result :=
  match s.scanRound (s.roundSlots core) with
  | (passes, some (n, a)) => s.perform core n passes a
  | (passes, none) =>
    let done : Result :=
      if (s.core core).issued then .next ((s.passAll passes).endRound core) else exec (.idleRound core passes) s
    match done with
    | .next t => (t.internal).getD (.next t)
    | o => o

/-! ## One step -/

/-- A turn of the agenda takes place; with an empty one, the core furthest behind goes on, or the device itself. -/
noncomputable def State.turn (s : State) : Result :=
  match s.agenda with
  | .event i :: r =>
    let s1 : State := { s with agenda := r }
    if isTurn i && (!s.plat.fatal || isRecovery i) then exec i s1 else .next s1
  | .core n :: r =>
    let s1 : State := { s with agenda := r }
    if s.plat.fatal then .next s1 else s1.coreTurn n
  | [] =>
    if s.plat.fatal then .fault .deviceFatal
    else
      match s.leastCycle s.liveCores with
      | some n => s.coreTurn n
      | none => andThen ((s.internal).getD (.next s)) (fun t => { t with ticks := t.ticks + 1 })

/-- One step of the module: a store that has reached a device register takes its effect before anything else happens (05 R111,
R113); a device-fatal device answers to a write of RESETCTL only (15 R392). -/
noncomputable def step (s : State) : Host.Outcome State Fault Refusal :=
  match s.regq with
  | (off, v) :: r =>
    if !s.plat.fatal || isRecovery (.registerWrite off v) then exec (.registerWrite off v) { s with regq := r }
    else .next { s with regq := r }
  | [] => s.turn

/-! ## Placing an instruction -/

/-- Where `State.withFetchWord` stores the instruction: the first bytes of the first page of host memory. -/
def placePa : Nat := 2 ^ 48

/-- The translation of the page at address 0 that the station then holds. -/
def placeEntry : TlbEntry :=
  { station := stationOf (quadOf 51) 0, pid := 1, vpn := 0, span := 1, base := placePa, w := true, x := true, u := true,
    timed := false, hostOrd := true, cached := false, hint := 0, migrate := false }

/-- The strand that fetches it: an executive strand of PID 1 at address 0. -/
def placeSlot : Slot :=
  { Slot.vacant with
    occ := true, pc := 0, record := { Rec.zero with pid := 1, exec := true }
    status := { unwr := false, step := false, sbchk := false, trap := false, exec := true } }

/-- `s` with an instruction whose bits are `w` where `step` fetches next: host memory holds its words at 2^48, slot 0 of
core 51, an issuing core, holds an executive strand at address 0, which its station maps there, and the agenda has that
core's turn. -/
def State.withFetchWord (s : State) (nbits w : Nat) : State :=
  let v : BitVec 64 := BitVec.ofNat 64 (w % 2 ^ nbits)
  let n := 16 * 51
  let s1 := s.setFocus n
  { s1 with
    hart := placeSlot
    cores := alSet s1.cores 51 Core.reset
    jobs := alDel s1.jobs 1
    tlb := placeEntry :: s1.tlb
    mem := memPut s1.mem placePa (bytesOfWord (v.extractLsb' 0 32) ++ bytesOfWord (v.extractLsb' 32 32))
    poison := []
    remote := []
    regq := []
    plat := { s1.plat with fatal := false }
    agenda := [.core 51] }

end Sys2Proof.Machine
end

