-- ==== Sys2Proof/Laws/Fields.lean ====
section
/-!
SUPPORT. The fields of a packed word are the ones it was packed from (02 R27), and a word decodes by its major opcode alone.
-/

namespace Sys2Proof.Laws

theorem packRr_majorOp (op : BitVec 6) (d : BitVec 5) (a : BitVec 5) (b : BitVec 5) (fn : BitVec 9) (h : BitVec 2) : majorOp (packRr op d a b fn h) = op := by
  unfold majorOp wordField packRr; ext i hi; simp only [BitVec.getElem_extractLsb', BitVec.getLsbD_append]; grind

theorem packRr_d (op : BitVec 6) (d : BitVec 5) (a : BitVec 5) (b : BitVec 5) (fn : BitVec 9) (h : BitVec 2) : wordField (packRr op d a b fn h) 21 5 = d := by
  unfold wordField packRr; ext i hi; simp only [BitVec.getElem_extractLsb', BitVec.getLsbD_append]; grind

theorem packRr_a (op : BitVec 6) (d : BitVec 5) (a : BitVec 5) (b : BitVec 5) (fn : BitVec 9) (h : BitVec 2) : wordField (packRr op d a b fn h) 16 5 = a := by
  unfold wordField packRr; ext i hi; simp only [BitVec.getElem_extractLsb', BitVec.getLsbD_append]; grind

theorem packRr_b (op : BitVec 6) (d : BitVec 5) (a : BitVec 5) (b : BitVec 5) (fn : BitVec 9) (h : BitVec 2) : wordField (packRr op d a b fn h) 11 5 = b := by
  unfold wordField packRr; ext i hi; simp only [BitVec.getElem_extractLsb', BitVec.getLsbD_append]; grind

theorem packRr_fn (op : BitVec 6) (d : BitVec 5) (a : BitVec 5) (b : BitVec 5) (fn : BitVec 9) (h : BitVec 2) : wordField (packRr op d a b fn h) 2 9 = fn := by
  unfold wordField packRr; ext i hi; simp only [BitVec.getElem_extractLsb', BitVec.getLsbD_append]; grind

theorem packRr_h (op : BitVec 6) (d : BitVec 5) (a : BitVec 5) (b : BitVec 5) (fn : BitVec 9) (h : BitVec 2) : wordField (packRr op d a b fn h) 0 2 = h := by
  unfold wordField packRr; ext i hi; simp only [BitVec.getElem_extractLsb', BitVec.getLsbD_append]; grind

theorem packRrR_majorOp (op : BitVec 6) (d : BitVec 5) (a : BitVec 5) (b : BitVec 5) (r : BitVec 2) (fn : BitVec 7) (h : BitVec 2) : majorOp (packRrR op d a b r fn h) = op := by
  unfold majorOp wordField packRrR; ext i hi; simp only [BitVec.getElem_extractLsb', BitVec.getLsbD_append]; grind

theorem packRrR_d (op : BitVec 6) (d : BitVec 5) (a : BitVec 5) (b : BitVec 5) (r : BitVec 2) (fn : BitVec 7) (h : BitVec 2) : wordField (packRrR op d a b r fn h) 21 5 = d := by
  unfold wordField packRrR; ext i hi; simp only [BitVec.getElem_extractLsb', BitVec.getLsbD_append]; grind

theorem packRrR_a (op : BitVec 6) (d : BitVec 5) (a : BitVec 5) (b : BitVec 5) (r : BitVec 2) (fn : BitVec 7) (h : BitVec 2) : wordField (packRrR op d a b r fn h) 16 5 = a := by
  unfold wordField packRrR; ext i hi; simp only [BitVec.getElem_extractLsb', BitVec.getLsbD_append]; grind

theorem packRrR_b (op : BitVec 6) (d : BitVec 5) (a : BitVec 5) (b : BitVec 5) (r : BitVec 2) (fn : BitVec 7) (h : BitVec 2) : wordField (packRrR op d a b r fn h) 11 5 = b := by
  unfold wordField packRrR; ext i hi; simp only [BitVec.getElem_extractLsb', BitVec.getLsbD_append]; grind

theorem packRrR_r (op : BitVec 6) (d : BitVec 5) (a : BitVec 5) (b : BitVec 5) (r : BitVec 2) (fn : BitVec 7) (h : BitVec 2) : wordField (packRrR op d a b r fn h) 9 2 = r := by
  unfold wordField packRrR; ext i hi; simp only [BitVec.getElem_extractLsb', BitVec.getLsbD_append]; grind

theorem packRrR_fn (op : BitVec 6) (d : BitVec 5) (a : BitVec 5) (b : BitVec 5) (r : BitVec 2) (fn : BitVec 7) (h : BitVec 2) : wordField (packRrR op d a b r fn h) 2 7 = fn := by
  unfold wordField packRrR; ext i hi; simp only [BitVec.getElem_extractLsb', BitVec.getLsbD_append]; grind

theorem packRrR_h (op : BitVec 6) (d : BitVec 5) (a : BitVec 5) (b : BitVec 5) (r : BitVec 2) (fn : BitVec 7) (h : BitVec 2) : wordField (packRrR op d a b r fn h) 0 2 = h := by
  unfold wordField packRrR; ext i hi; simp only [BitVec.getElem_extractLsb', BitVec.getLsbD_append]; grind

theorem packRrW_majorOp (op : BitVec 6) (d : BitVec 5) (a : BitVec 5) (b : BitVec 5) (w : BitVec 1) (fn : BitVec 8) (h : BitVec 2) : majorOp (packRrW op d a b w fn h) = op := by
  unfold majorOp wordField packRrW; ext i hi; simp only [BitVec.getElem_extractLsb', BitVec.getLsbD_append]; grind

theorem packRrW_d (op : BitVec 6) (d : BitVec 5) (a : BitVec 5) (b : BitVec 5) (w : BitVec 1) (fn : BitVec 8) (h : BitVec 2) : wordField (packRrW op d a b w fn h) 21 5 = d := by
  unfold wordField packRrW; ext i hi; simp only [BitVec.getElem_extractLsb', BitVec.getLsbD_append]; grind

theorem packRrW_a (op : BitVec 6) (d : BitVec 5) (a : BitVec 5) (b : BitVec 5) (w : BitVec 1) (fn : BitVec 8) (h : BitVec 2) : wordField (packRrW op d a b w fn h) 16 5 = a := by
  unfold wordField packRrW; ext i hi; simp only [BitVec.getElem_extractLsb', BitVec.getLsbD_append]; grind

theorem packRrW_b (op : BitVec 6) (d : BitVec 5) (a : BitVec 5) (b : BitVec 5) (w : BitVec 1) (fn : BitVec 8) (h : BitVec 2) : wordField (packRrW op d a b w fn h) 11 5 = b := by
  unfold wordField packRrW; ext i hi; simp only [BitVec.getElem_extractLsb', BitVec.getLsbD_append]; grind

theorem packRrW_w (op : BitVec 6) (d : BitVec 5) (a : BitVec 5) (b : BitVec 5) (w : BitVec 1) (fn : BitVec 8) (h : BitVec 2) : wordField (packRrW op d a b w fn h) 10 1 = w := by
  unfold wordField packRrW; ext i hi; simp only [BitVec.getElem_extractLsb', BitVec.getLsbD_append]; grind

theorem packRrW_fn (op : BitVec 6) (d : BitVec 5) (a : BitVec 5) (b : BitVec 5) (w : BitVec 1) (fn : BitVec 8) (h : BitVec 2) : wordField (packRrW op d a b w fn h) 2 8 = fn := by
  unfold wordField packRrW; ext i hi; simp only [BitVec.getElem_extractLsb', BitVec.getLsbD_append]; grind

theorem packRrW_h (op : BitVec 6) (d : BitVec 5) (a : BitVec 5) (b : BitVec 5) (w : BitVec 1) (fn : BitVec 8) (h : BitVec 2) : wordField (packRrW op d a b w fn h) 0 2 = h := by
  unfold wordField packRrW; ext i hi; simp only [BitVec.getElem_extractLsb', BitVec.getLsbD_append]; grind

theorem packRrO_majorOp (op : BitVec 6) (d : BitVec 5) (a : BitVec 5) (b : BitVec 5) (x : BitVec 2) (m : BitVec 2) (fn : BitVec 2) (sc : BitVec 3) (h : BitVec 2) : majorOp (packRrO op d a b x m fn sc h) = op := by
  unfold majorOp wordField packRrO; ext i hi; simp only [BitVec.getElem_extractLsb', BitVec.getLsbD_append]; grind

theorem packRrO_d (op : BitVec 6) (d : BitVec 5) (a : BitVec 5) (b : BitVec 5) (x : BitVec 2) (m : BitVec 2) (fn : BitVec 2) (sc : BitVec 3) (h : BitVec 2) : wordField (packRrO op d a b x m fn sc h) 21 5 = d := by
  unfold wordField packRrO; ext i hi; simp only [BitVec.getElem_extractLsb', BitVec.getLsbD_append]; grind

theorem packRrO_a (op : BitVec 6) (d : BitVec 5) (a : BitVec 5) (b : BitVec 5) (x : BitVec 2) (m : BitVec 2) (fn : BitVec 2) (sc : BitVec 3) (h : BitVec 2) : wordField (packRrO op d a b x m fn sc h) 16 5 = a := by
  unfold wordField packRrO; ext i hi; simp only [BitVec.getElem_extractLsb', BitVec.getLsbD_append]; grind

theorem packRrO_b (op : BitVec 6) (d : BitVec 5) (a : BitVec 5) (b : BitVec 5) (x : BitVec 2) (m : BitVec 2) (fn : BitVec 2) (sc : BitVec 3) (h : BitVec 2) : wordField (packRrO op d a b x m fn sc h) 11 5 = b := by
  unfold wordField packRrO; ext i hi; simp only [BitVec.getElem_extractLsb', BitVec.getLsbD_append]; grind

theorem packRrO_x (op : BitVec 6) (d : BitVec 5) (a : BitVec 5) (b : BitVec 5) (x : BitVec 2) (m : BitVec 2) (fn : BitVec 2) (sc : BitVec 3) (h : BitVec 2) : wordField (packRrO op d a b x m fn sc h) 9 2 = x := by
  unfold wordField packRrO; ext i hi; simp only [BitVec.getElem_extractLsb', BitVec.getLsbD_append]; grind

theorem packRrO_m (op : BitVec 6) (d : BitVec 5) (a : BitVec 5) (b : BitVec 5) (x : BitVec 2) (m : BitVec 2) (fn : BitVec 2) (sc : BitVec 3) (h : BitVec 2) : wordField (packRrO op d a b x m fn sc h) 7 2 = m := by
  unfold wordField packRrO; ext i hi; simp only [BitVec.getElem_extractLsb', BitVec.getLsbD_append]; grind

theorem packRrO_fn (op : BitVec 6) (d : BitVec 5) (a : BitVec 5) (b : BitVec 5) (x : BitVec 2) (m : BitVec 2) (fn : BitVec 2) (sc : BitVec 3) (h : BitVec 2) : wordField (packRrO op d a b x m fn sc h) 5 2 = fn := by
  unfold wordField packRrO; ext i hi; simp only [BitVec.getElem_extractLsb', BitVec.getLsbD_append]; grind

theorem packRrO_sc (op : BitVec 6) (d : BitVec 5) (a : BitVec 5) (b : BitVec 5) (x : BitVec 2) (m : BitVec 2) (fn : BitVec 2) (sc : BitVec 3) (h : BitVec 2) : wordField (packRrO op d a b x m fn sc h) 2 3 = sc := by
  unfold wordField packRrO; ext i hi; simp only [BitVec.getElem_extractLsb', BitVec.getLsbD_append]; grind

theorem packRrO_h (op : BitVec 6) (d : BitVec 5) (a : BitVec 5) (b : BitVec 5) (x : BitVec 2) (m : BitVec 2) (fn : BitVec 2) (sc : BitVec 3) (h : BitVec 2) : wordField (packRrO op d a b x m fn sc h) 0 2 = h := by
  unfold wordField packRrO; ext i hi; simp only [BitVec.getElem_extractLsb', BitVec.getLsbD_append]; grind

theorem packRi_majorOp (op : BitVec 6) (d : BitVec 5) (a : BitVec 5) (imm : BitVec 14) (h : BitVec 2) : majorOp (packRi op d a imm h) = op := by
  unfold majorOp wordField packRi; ext i hi; simp only [BitVec.getElem_extractLsb', BitVec.getLsbD_append]; grind

theorem packRi_d (op : BitVec 6) (d : BitVec 5) (a : BitVec 5) (imm : BitVec 14) (h : BitVec 2) : wordField (packRi op d a imm h) 21 5 = d := by
  unfold wordField packRi; ext i hi; simp only [BitVec.getElem_extractLsb', BitVec.getLsbD_append]; grind

theorem packRi_a (op : BitVec 6) (d : BitVec 5) (a : BitVec 5) (imm : BitVec 14) (h : BitVec 2) : wordField (packRi op d a imm h) 16 5 = a := by
  unfold wordField packRi; ext i hi; simp only [BitVec.getElem_extractLsb', BitVec.getLsbD_append]; grind

theorem packRi_imm (op : BitVec 6) (d : BitVec 5) (a : BitVec 5) (imm : BitVec 14) (h : BitVec 2) : wordField (packRi op d a imm h) 2 14 = imm := by
  unfold wordField packRi; ext i hi; simp only [BitVec.getElem_extractLsb', BitVec.getLsbD_append]; grind

theorem packRi_h (op : BitVec 6) (d : BitVec 5) (a : BitVec 5) (imm : BitVec 14) (h : BitVec 2) : wordField (packRi op d a imm h) 0 2 = h := by
  unfold wordField packRi; ext i hi; simp only [BitVec.getElem_extractLsb', BitVec.getLsbD_append]; grind

theorem packRiK_majorOp (op : BitVec 6) (d : BitVec 5) (a : BitVec 5) (fn : BitVec 6) (k : BitVec 8) (h : BitVec 2) : majorOp (packRiK op d a fn k h) = op := by
  unfold majorOp wordField packRiK; ext i hi; simp only [BitVec.getElem_extractLsb', BitVec.getLsbD_append]; grind

theorem packRiK_d (op : BitVec 6) (d : BitVec 5) (a : BitVec 5) (fn : BitVec 6) (k : BitVec 8) (h : BitVec 2) : wordField (packRiK op d a fn k h) 21 5 = d := by
  unfold wordField packRiK; ext i hi; simp only [BitVec.getElem_extractLsb', BitVec.getLsbD_append]; grind

theorem packRiK_a (op : BitVec 6) (d : BitVec 5) (a : BitVec 5) (fn : BitVec 6) (k : BitVec 8) (h : BitVec 2) : wordField (packRiK op d a fn k h) 16 5 = a := by
  unfold wordField packRiK; ext i hi; simp only [BitVec.getElem_extractLsb', BitVec.getLsbD_append]; grind

theorem packRiK_fn (op : BitVec 6) (d : BitVec 5) (a : BitVec 5) (fn : BitVec 6) (k : BitVec 8) (h : BitVec 2) : wordField (packRiK op d a fn k h) 10 6 = fn := by
  unfold wordField packRiK; ext i hi; simp only [BitVec.getElem_extractLsb', BitVec.getLsbD_append]; grind

theorem packRiK_k (op : BitVec 6) (d : BitVec 5) (a : BitVec 5) (fn : BitVec 6) (k : BitVec 8) (h : BitVec 2) : wordField (packRiK op d a fn k h) 2 8 = k := by
  unfold wordField packRiK; ext i hi; simp only [BitVec.getElem_extractLsb', BitVec.getLsbD_append]; grind

theorem packRiK_h (op : BitVec 6) (d : BitVec 5) (a : BitVec 5) (fn : BitVec 6) (k : BitVec 8) (h : BitVec 2) : wordField (packRiK op d a fn k h) 0 2 = h := by
  unfold wordField packRiK; ext i hi; simp only [BitVec.getElem_extractLsb', BitVec.getLsbD_append]; grind

theorem packRiS_majorOp (op : BitVec 6) (d : BitVec 5) (a : BitVec 5) (w : BitVec 2) (l : BitVec 4) (x : BitVec 8) (h : BitVec 2) : majorOp (packRiS op d a w l x h) = op := by
  unfold majorOp wordField packRiS; ext i hi; simp only [BitVec.getElem_extractLsb', BitVec.getLsbD_append]; grind

theorem packRiS_d (op : BitVec 6) (d : BitVec 5) (a : BitVec 5) (w : BitVec 2) (l : BitVec 4) (x : BitVec 8) (h : BitVec 2) : wordField (packRiS op d a w l x h) 21 5 = d := by
  unfold wordField packRiS; ext i hi; simp only [BitVec.getElem_extractLsb', BitVec.getLsbD_append]; grind

theorem packRiS_a (op : BitVec 6) (d : BitVec 5) (a : BitVec 5) (w : BitVec 2) (l : BitVec 4) (x : BitVec 8) (h : BitVec 2) : wordField (packRiS op d a w l x h) 16 5 = a := by
  unfold wordField packRiS; ext i hi; simp only [BitVec.getElem_extractLsb', BitVec.getLsbD_append]; grind

theorem packRiS_w (op : BitVec 6) (d : BitVec 5) (a : BitVec 5) (w : BitVec 2) (l : BitVec 4) (x : BitVec 8) (h : BitVec 2) : wordField (packRiS op d a w l x h) 14 2 = w := by
  unfold wordField packRiS; ext i hi; simp only [BitVec.getElem_extractLsb', BitVec.getLsbD_append]; grind

theorem packRiS_l (op : BitVec 6) (d : BitVec 5) (a : BitVec 5) (w : BitVec 2) (l : BitVec 4) (x : BitVec 8) (h : BitVec 2) : wordField (packRiS op d a w l x h) 10 4 = l := by
  unfold wordField packRiS; ext i hi; simp only [BitVec.getElem_extractLsb', BitVec.getLsbD_append]; grind

theorem packRiS_x (op : BitVec 6) (d : BitVec 5) (a : BitVec 5) (w : BitVec 2) (l : BitVec 4) (x : BitVec 8) (h : BitVec 2) : wordField (packRiS op d a w l x h) 2 8 = x := by
  unfold wordField packRiS; ext i hi; simp only [BitVec.getElem_extractLsb', BitVec.getLsbD_append]; grind

theorem packRiS_h (op : BitVec 6) (d : BitVec 5) (a : BitVec 5) (w : BitVec 2) (l : BitVec 4) (x : BitVec 8) (h : BitVec 2) : wordField (packRiS op d a w l x h) 0 2 = h := by
  unfold wordField packRiS; ext i hi; simp only [BitVec.getElem_extractLsb', BitVec.getLsbD_append]; grind

theorem packRiB_majorOp (op : BitVec 6) (d : BitVec 5) (a : BitVec 5) (x : BitVec 12) (b : BitVec 2) (h : BitVec 2) : majorOp (packRiB op d a x b h) = op := by
  unfold majorOp wordField packRiB; ext i hi; simp only [BitVec.getElem_extractLsb', BitVec.getLsbD_append]; grind

theorem packRiB_d (op : BitVec 6) (d : BitVec 5) (a : BitVec 5) (x : BitVec 12) (b : BitVec 2) (h : BitVec 2) : wordField (packRiB op d a x b h) 21 5 = d := by
  unfold wordField packRiB; ext i hi; simp only [BitVec.getElem_extractLsb', BitVec.getLsbD_append]; grind

theorem packRiB_a (op : BitVec 6) (d : BitVec 5) (a : BitVec 5) (x : BitVec 12) (b : BitVec 2) (h : BitVec 2) : wordField (packRiB op d a x b h) 16 5 = a := by
  unfold wordField packRiB; ext i hi; simp only [BitVec.getElem_extractLsb', BitVec.getLsbD_append]; grind

theorem packRiB_x (op : BitVec 6) (d : BitVec 5) (a : BitVec 5) (x : BitVec 12) (b : BitVec 2) (h : BitVec 2) : wordField (packRiB op d a x b h) 4 12 = x := by
  unfold wordField packRiB; ext i hi; simp only [BitVec.getElem_extractLsb', BitVec.getLsbD_append]; grind

theorem packRiB_b (op : BitVec 6) (d : BitVec 5) (a : BitVec 5) (x : BitVec 12) (b : BitVec 2) (h : BitVec 2) : wordField (packRiB op d a x b h) 2 2 = b := by
  unfold wordField packRiB; ext i hi; simp only [BitVec.getElem_extractLsb', BitVec.getLsbD_append]; grind

theorem packRiB_h (op : BitVec 6) (d : BitVec 5) (a : BitVec 5) (x : BitVec 12) (b : BitVec 2) (h : BitVec 2) : wordField (packRiB op d a x b h) 0 2 = h := by
  unfold wordField packRiB; ext i hi; simp only [BitVec.getElem_extractLsb', BitVec.getLsbD_append]; grind

theorem packFi_majorOp (op : BitVec 6) (d : BitVec 5) (imm : BitVec 20) (x : BitVec 1) : majorOp (packFi op d imm x) = op := by
  unfold majorOp wordField packFi; ext i hi; simp only [BitVec.getElem_extractLsb', BitVec.getLsbD_append]; grind

theorem packFi_d (op : BitVec 6) (d : BitVec 5) (imm : BitVec 20) (x : BitVec 1) : wordField (packFi op d imm x) 21 5 = d := by
  unfold wordField packFi; ext i hi; simp only [BitVec.getElem_extractLsb', BitVec.getLsbD_append]; grind

theorem packFi_imm (op : BitVec 6) (d : BitVec 5) (imm : BitVec 20) (x : BitVec 1) : wordField (packFi op d imm x) 1 20 = imm := by
  unfold wordField packFi; ext i hi; simp only [BitVec.getElem_extractLsb', BitVec.getLsbD_append]; grind

theorem packFi_x (op : BitVec 6) (d : BitVec 5) (imm : BitVec 20) (x : BitVec 1) : wordField (packFi op d imm x) 0 1 = x := by
  unfold wordField packFi; ext i hi; simp only [BitVec.getElem_extractLsb', BitVec.getLsbD_append]; grind

theorem packCb_majorOp (op : BitVec 6) (fn : BitVec 5) (a : BitVec 5) (imm : BitVec 14) (h : BitVec 2) : majorOp (packCb op fn a imm h) = op := by
  unfold majorOp wordField packCb; ext i hi; simp only [BitVec.getElem_extractLsb', BitVec.getLsbD_append]; grind

theorem packCb_fn (op : BitVec 6) (fn : BitVec 5) (a : BitVec 5) (imm : BitVec 14) (h : BitVec 2) : wordField (packCb op fn a imm h) 21 5 = fn := by
  unfold wordField packCb; ext i hi; simp only [BitVec.getElem_extractLsb', BitVec.getLsbD_append]; grind

theorem packCb_a (op : BitVec 6) (fn : BitVec 5) (a : BitVec 5) (imm : BitVec 14) (h : BitVec 2) : wordField (packCb op fn a imm h) 16 5 = a := by
  unfold wordField packCb; ext i hi; simp only [BitVec.getElem_extractLsb', BitVec.getLsbD_append]; grind

theorem packCb_imm (op : BitVec 6) (fn : BitVec 5) (a : BitVec 5) (imm : BitVec 14) (h : BitVec 2) : wordField (packCb op fn a imm h) 2 14 = imm := by
  unfold wordField packCb; ext i hi; simp only [BitVec.getElem_extractLsb', BitVec.getLsbD_append]; grind

theorem packCb_h (op : BitVec 6) (fn : BitVec 5) (a : BitVec 5) (imm : BitVec 14) (h : BitVec 2) : wordField (packCb op fn a imm h) 0 2 = h := by
  unfold wordField packCb; ext i hi; simp only [BitVec.getElem_extractLsb', BitVec.getLsbD_append]; grind

theorem packLb_majorOp (op : BitVec 6) (l : BitVec 5) (imm : BitVec 19) (h : BitVec 2) : majorOp (packLb op l imm h) = op := by
  unfold majorOp wordField packLb; ext i hi; simp only [BitVec.getElem_extractLsb', BitVec.getLsbD_append]; grind

theorem packLb_l (op : BitVec 6) (l : BitVec 5) (imm : BitVec 19) (h : BitVec 2) : wordField (packLb op l imm h) 21 5 = l := by
  unfold wordField packLb; ext i hi; simp only [BitVec.getElem_extractLsb', BitVec.getLsbD_append]; grind

theorem packLb_imm (op : BitVec 6) (l : BitVec 5) (imm : BitVec 19) (h : BitVec 2) : wordField (packLb op l imm h) 2 19 = imm := by
  unfold wordField packLb; ext i hi; simp only [BitVec.getElem_extractLsb', BitVec.getLsbD_append]; grind

theorem packLb_h (op : BitVec 6) (l : BitVec 5) (imm : BitVec 19) (h : BitVec 2) : wordField (packLb op l imm h) 0 2 = h := by
  unfold wordField packLb; ext i hi; simp only [BitVec.getElem_extractLsb', BitVec.getLsbD_append]; grind

theorem packMm_majorOp (op : BitVec 6) (d : BitVec 5) (b : BitVec 5) (o : BitVec 11) (z : BitVec 2) (r : BitVec 1) (h : BitVec 2) : majorOp (packMm op d b o z r h) = op := by
  unfold majorOp wordField packMm; ext i hi; simp only [BitVec.getElem_extractLsb', BitVec.getLsbD_append]; grind

theorem packMm_d (op : BitVec 6) (d : BitVec 5) (b : BitVec 5) (o : BitVec 11) (z : BitVec 2) (r : BitVec 1) (h : BitVec 2) : wordField (packMm op d b o z r h) 21 5 = d := by
  unfold wordField packMm; ext i hi; simp only [BitVec.getElem_extractLsb', BitVec.getLsbD_append]; grind

theorem packMm_b (op : BitVec 6) (d : BitVec 5) (b : BitVec 5) (o : BitVec 11) (z : BitVec 2) (r : BitVec 1) (h : BitVec 2) : wordField (packMm op d b o z r h) 16 5 = b := by
  unfold wordField packMm; ext i hi; simp only [BitVec.getElem_extractLsb', BitVec.getLsbD_append]; grind

theorem packMm_o (op : BitVec 6) (d : BitVec 5) (b : BitVec 5) (o : BitVec 11) (z : BitVec 2) (r : BitVec 1) (h : BitVec 2) : wordField (packMm op d b o z r h) 5 11 = o := by
  unfold wordField packMm; ext i hi; simp only [BitVec.getElem_extractLsb', BitVec.getLsbD_append]; grind

theorem packMm_z (op : BitVec 6) (d : BitVec 5) (b : BitVec 5) (o : BitVec 11) (z : BitVec 2) (r : BitVec 1) (h : BitVec 2) : wordField (packMm op d b o z r h) 3 2 = z := by
  unfold wordField packMm; ext i hi; simp only [BitVec.getElem_extractLsb', BitVec.getLsbD_append]; grind

theorem packMm_r (op : BitVec 6) (d : BitVec 5) (b : BitVec 5) (o : BitVec 11) (z : BitVec 2) (r : BitVec 1) (h : BitVec 2) : wordField (packMm op d b o z r h) 2 1 = r := by
  unfold wordField packMm; ext i hi; simp only [BitVec.getElem_extractLsb', BitVec.getLsbD_append]; grind

theorem packMm_h (op : BitVec 6) (d : BitVec 5) (b : BitVec 5) (o : BitVec 11) (z : BitVec 2) (r : BitVec 1) (h : BitVec 2) : wordField (packMm op d b o z r h) 0 2 = h := by
  unfold wordField packMm; ext i hi; simp only [BitVec.getElem_extractLsb', BitVec.getLsbD_append]; grind

theorem packVv_majorOp (op : BitVec 6) (v : BitVec 5) (a : BitVec 5) (b : BitVec 5) (p : BitVec 3) (fn : BitVec 6) (h : BitVec 2) : majorOp (packVv op v a b p fn h) = op := by
  unfold majorOp wordField packVv; ext i hi; simp only [BitVec.getElem_extractLsb', BitVec.getLsbD_append]; grind

theorem packVv_v (op : BitVec 6) (v : BitVec 5) (a : BitVec 5) (b : BitVec 5) (p : BitVec 3) (fn : BitVec 6) (h : BitVec 2) : wordField (packVv op v a b p fn h) 21 5 = v := by
  unfold wordField packVv; ext i hi; simp only [BitVec.getElem_extractLsb', BitVec.getLsbD_append]; grind

theorem packVv_a (op : BitVec 6) (v : BitVec 5) (a : BitVec 5) (b : BitVec 5) (p : BitVec 3) (fn : BitVec 6) (h : BitVec 2) : wordField (packVv op v a b p fn h) 16 5 = a := by
  unfold wordField packVv; ext i hi; simp only [BitVec.getElem_extractLsb', BitVec.getLsbD_append]; grind

theorem packVv_b (op : BitVec 6) (v : BitVec 5) (a : BitVec 5) (b : BitVec 5) (p : BitVec 3) (fn : BitVec 6) (h : BitVec 2) : wordField (packVv op v a b p fn h) 11 5 = b := by
  unfold wordField packVv; ext i hi; simp only [BitVec.getElem_extractLsb', BitVec.getLsbD_append]; grind

theorem packVv_p (op : BitVec 6) (v : BitVec 5) (a : BitVec 5) (b : BitVec 5) (p : BitVec 3) (fn : BitVec 6) (h : BitVec 2) : wordField (packVv op v a b p fn h) 8 3 = p := by
  unfold wordField packVv; ext i hi; simp only [BitVec.getElem_extractLsb', BitVec.getLsbD_append]; grind

theorem packVv_fn (op : BitVec 6) (v : BitVec 5) (a : BitVec 5) (b : BitVec 5) (p : BitVec 3) (fn : BitVec 6) (h : BitVec 2) : wordField (packVv op v a b p fn h) 2 6 = fn := by
  unfold wordField packVv; ext i hi; simp only [BitVec.getElem_extractLsb', BitVec.getLsbD_append]; grind

theorem packVv_h (op : BitVec 6) (v : BitVec 5) (a : BitVec 5) (b : BitVec 5) (p : BitVec 3) (fn : BitVec 6) (h : BitVec 2) : wordField (packVv op v a b p fn h) 0 2 = h := by
  unfold wordField packVv; ext i hi; simp only [BitVec.getElem_extractLsb', BitVec.getLsbD_append]; grind

theorem packVvR_majorOp (op : BitVec 6) (v : BitVec 5) (a : BitVec 5) (b : BitVec 5) (p : BitVec 3) (r : BitVec 2) (fn : BitVec 4) (h : BitVec 2) : majorOp (packVvR op v a b p r fn h) = op := by
  unfold majorOp wordField packVvR; ext i hi; simp only [BitVec.getElem_extractLsb', BitVec.getLsbD_append]; grind

theorem packVvR_v (op : BitVec 6) (v : BitVec 5) (a : BitVec 5) (b : BitVec 5) (p : BitVec 3) (r : BitVec 2) (fn : BitVec 4) (h : BitVec 2) : wordField (packVvR op v a b p r fn h) 21 5 = v := by
  unfold wordField packVvR; ext i hi; simp only [BitVec.getElem_extractLsb', BitVec.getLsbD_append]; grind

theorem packVvR_a (op : BitVec 6) (v : BitVec 5) (a : BitVec 5) (b : BitVec 5) (p : BitVec 3) (r : BitVec 2) (fn : BitVec 4) (h : BitVec 2) : wordField (packVvR op v a b p r fn h) 16 5 = a := by
  unfold wordField packVvR; ext i hi; simp only [BitVec.getElem_extractLsb', BitVec.getLsbD_append]; grind

theorem packVvR_b (op : BitVec 6) (v : BitVec 5) (a : BitVec 5) (b : BitVec 5) (p : BitVec 3) (r : BitVec 2) (fn : BitVec 4) (h : BitVec 2) : wordField (packVvR op v a b p r fn h) 11 5 = b := by
  unfold wordField packVvR; ext i hi; simp only [BitVec.getElem_extractLsb', BitVec.getLsbD_append]; grind

theorem packVvR_p (op : BitVec 6) (v : BitVec 5) (a : BitVec 5) (b : BitVec 5) (p : BitVec 3) (r : BitVec 2) (fn : BitVec 4) (h : BitVec 2) : wordField (packVvR op v a b p r fn h) 8 3 = p := by
  unfold wordField packVvR; ext i hi; simp only [BitVec.getElem_extractLsb', BitVec.getLsbD_append]; grind

theorem packVvR_r (op : BitVec 6) (v : BitVec 5) (a : BitVec 5) (b : BitVec 5) (p : BitVec 3) (r : BitVec 2) (fn : BitVec 4) (h : BitVec 2) : wordField (packVvR op v a b p r fn h) 6 2 = r := by
  unfold wordField packVvR; ext i hi; simp only [BitVec.getElem_extractLsb', BitVec.getLsbD_append]; grind

theorem packVvR_fn (op : BitVec 6) (v : BitVec 5) (a : BitVec 5) (b : BitVec 5) (p : BitVec 3) (r : BitVec 2) (fn : BitVec 4) (h : BitVec 2) : wordField (packVvR op v a b p r fn h) 2 4 = fn := by
  unfold wordField packVvR; ext i hi; simp only [BitVec.getElem_extractLsb', BitVec.getLsbD_append]; grind

theorem packVvR_h (op : BitVec 6) (v : BitVec 5) (a : BitVec 5) (b : BitVec 5) (p : BitVec 3) (r : BitVec 2) (fn : BitVec 4) (h : BitVec 2) : wordField (packVvR op v a b p r fn h) 0 2 = h := by
  unfold wordField packVvR; ext i hi; simp only [BitVec.getElem_extractLsb', BitVec.getLsbD_append]; grind

theorem packVvM_majorOp (op : BitVec 6) (v : BitVec 5) (a : BitVec 5) (b : BitVec 5) (p : BitVec 3) (r : BitVec 1) (t : BitVec 1) (fn : BitVec 4) (h : BitVec 2) : majorOp (packVvM op v a b p r t fn h) = op := by
  unfold majorOp wordField packVvM; ext i hi; simp only [BitVec.getElem_extractLsb', BitVec.getLsbD_append]; grind

theorem packVvM_v (op : BitVec 6) (v : BitVec 5) (a : BitVec 5) (b : BitVec 5) (p : BitVec 3) (r : BitVec 1) (t : BitVec 1) (fn : BitVec 4) (h : BitVec 2) : wordField (packVvM op v a b p r t fn h) 21 5 = v := by
  unfold wordField packVvM; ext i hi; simp only [BitVec.getElem_extractLsb', BitVec.getLsbD_append]; grind

theorem packVvM_a (op : BitVec 6) (v : BitVec 5) (a : BitVec 5) (b : BitVec 5) (p : BitVec 3) (r : BitVec 1) (t : BitVec 1) (fn : BitVec 4) (h : BitVec 2) : wordField (packVvM op v a b p r t fn h) 16 5 = a := by
  unfold wordField packVvM; ext i hi; simp only [BitVec.getElem_extractLsb', BitVec.getLsbD_append]; grind

theorem packVvM_b (op : BitVec 6) (v : BitVec 5) (a : BitVec 5) (b : BitVec 5) (p : BitVec 3) (r : BitVec 1) (t : BitVec 1) (fn : BitVec 4) (h : BitVec 2) : wordField (packVvM op v a b p r t fn h) 11 5 = b := by
  unfold wordField packVvM; ext i hi; simp only [BitVec.getElem_extractLsb', BitVec.getLsbD_append]; grind

theorem packVvM_p (op : BitVec 6) (v : BitVec 5) (a : BitVec 5) (b : BitVec 5) (p : BitVec 3) (r : BitVec 1) (t : BitVec 1) (fn : BitVec 4) (h : BitVec 2) : wordField (packVvM op v a b p r t fn h) 8 3 = p := by
  unfold wordField packVvM; ext i hi; simp only [BitVec.getElem_extractLsb', BitVec.getLsbD_append]; grind

theorem packVvM_r (op : BitVec 6) (v : BitVec 5) (a : BitVec 5) (b : BitVec 5) (p : BitVec 3) (r : BitVec 1) (t : BitVec 1) (fn : BitVec 4) (h : BitVec 2) : wordField (packVvM op v a b p r t fn h) 7 1 = r := by
  unfold wordField packVvM; ext i hi; simp only [BitVec.getElem_extractLsb', BitVec.getLsbD_append]; grind

theorem packVvM_t (op : BitVec 6) (v : BitVec 5) (a : BitVec 5) (b : BitVec 5) (p : BitVec 3) (r : BitVec 1) (t : BitVec 1) (fn : BitVec 4) (h : BitVec 2) : wordField (packVvM op v a b p r t fn h) 6 1 = t := by
  unfold wordField packVvM; ext i hi; simp only [BitVec.getElem_extractLsb', BitVec.getLsbD_append]; grind

theorem packVvM_fn (op : BitVec 6) (v : BitVec 5) (a : BitVec 5) (b : BitVec 5) (p : BitVec 3) (r : BitVec 1) (t : BitVec 1) (fn : BitVec 4) (h : BitVec 2) : wordField (packVvM op v a b p r t fn h) 2 4 = fn := by
  unfold wordField packVvM; ext i hi; simp only [BitVec.getElem_extractLsb', BitVec.getLsbD_append]; grind

theorem packVvM_h (op : BitVec 6) (v : BitVec 5) (a : BitVec 5) (b : BitVec 5) (p : BitVec 3) (r : BitVec 1) (t : BitVec 1) (fn : BitVec 4) (h : BitVec 2) : wordField (packVvM op v a b p r t fn h) 0 2 = h := by
  unfold wordField packVvM; ext i hi; simp only [BitVec.getElem_extractLsb', BitVec.getLsbD_append]; grind

theorem packVvC_majorOp (op : BitVec 6) (v : BitVec 5) (a : BitVec 5) (b : BitVec 5) (p : BitVec 3) (t : BitVec 3) (f : BitVec 3) (h : BitVec 2) : majorOp (packVvC op v a b p t f h) = op := by
  unfold majorOp wordField packVvC; ext i hi; simp only [BitVec.getElem_extractLsb', BitVec.getLsbD_append]; grind

theorem packVvC_v (op : BitVec 6) (v : BitVec 5) (a : BitVec 5) (b : BitVec 5) (p : BitVec 3) (t : BitVec 3) (f : BitVec 3) (h : BitVec 2) : wordField (packVvC op v a b p t f h) 21 5 = v := by
  unfold wordField packVvC; ext i hi; simp only [BitVec.getElem_extractLsb', BitVec.getLsbD_append]; grind

theorem packVvC_a (op : BitVec 6) (v : BitVec 5) (a : BitVec 5) (b : BitVec 5) (p : BitVec 3) (t : BitVec 3) (f : BitVec 3) (h : BitVec 2) : wordField (packVvC op v a b p t f h) 16 5 = a := by
  unfold wordField packVvC; ext i hi; simp only [BitVec.getElem_extractLsb', BitVec.getLsbD_append]; grind

theorem packVvC_b (op : BitVec 6) (v : BitVec 5) (a : BitVec 5) (b : BitVec 5) (p : BitVec 3) (t : BitVec 3) (f : BitVec 3) (h : BitVec 2) : wordField (packVvC op v a b p t f h) 11 5 = b := by
  unfold wordField packVvC; ext i hi; simp only [BitVec.getElem_extractLsb', BitVec.getLsbD_append]; grind

theorem packVvC_p (op : BitVec 6) (v : BitVec 5) (a : BitVec 5) (b : BitVec 5) (p : BitVec 3) (t : BitVec 3) (f : BitVec 3) (h : BitVec 2) : wordField (packVvC op v a b p t f h) 8 3 = p := by
  unfold wordField packVvC; ext i hi; simp only [BitVec.getElem_extractLsb', BitVec.getLsbD_append]; grind

theorem packVvC_t (op : BitVec 6) (v : BitVec 5) (a : BitVec 5) (b : BitVec 5) (p : BitVec 3) (t : BitVec 3) (f : BitVec 3) (h : BitVec 2) : wordField (packVvC op v a b p t f h) 5 3 = t := by
  unfold wordField packVvC; ext i hi; simp only [BitVec.getElem_extractLsb', BitVec.getLsbD_append]; grind

theorem packVvC_f (op : BitVec 6) (v : BitVec 5) (a : BitVec 5) (b : BitVec 5) (p : BitVec 3) (t : BitVec 3) (f : BitVec 3) (h : BitVec 2) : wordField (packVvC op v a b p t f h) 2 3 = f := by
  unfold wordField packVvC; ext i hi; simp only [BitVec.getElem_extractLsb', BitVec.getLsbD_append]; grind

theorem packVvC_h (op : BitVec 6) (v : BitVec 5) (a : BitVec 5) (b : BitVec 5) (p : BitVec 3) (t : BitVec 3) (f : BitVec 3) (h : BitVec 2) : wordField (packVvC op v a b p t f h) 0 2 = h := by
  unfold wordField packVvC; ext i hi; simp only [BitVec.getElem_extractLsb', BitVec.getLsbD_append]; grind

theorem packEc_majorOp (op : BitVec 6) (d : BitVec 5) (a : BitVec 5) (b : BitVec 5) (fn : BitVec 8) (x : BitVec 1) (h : BitVec 2) : majorOp (packEc op d a b fn x h) = op := by
  unfold majorOp wordField packEc; ext i hi; simp only [BitVec.getElem_extractLsb', BitVec.getLsbD_append]; grind

theorem packEc_d (op : BitVec 6) (d : BitVec 5) (a : BitVec 5) (b : BitVec 5) (fn : BitVec 8) (x : BitVec 1) (h : BitVec 2) : wordField (packEc op d a b fn x h) 21 5 = d := by
  unfold wordField packEc; ext i hi; simp only [BitVec.getElem_extractLsb', BitVec.getLsbD_append]; grind

theorem packEc_a (op : BitVec 6) (d : BitVec 5) (a : BitVec 5) (b : BitVec 5) (fn : BitVec 8) (x : BitVec 1) (h : BitVec 2) : wordField (packEc op d a b fn x h) 16 5 = a := by
  unfold wordField packEc; ext i hi; simp only [BitVec.getElem_extractLsb', BitVec.getLsbD_append]; grind

theorem packEc_b (op : BitVec 6) (d : BitVec 5) (a : BitVec 5) (b : BitVec 5) (fn : BitVec 8) (x : BitVec 1) (h : BitVec 2) : wordField (packEc op d a b fn x h) 11 5 = b := by
  unfold wordField packEc; ext i hi; simp only [BitVec.getElem_extractLsb', BitVec.getLsbD_append]; grind

theorem packEc_fn (op : BitVec 6) (d : BitVec 5) (a : BitVec 5) (b : BitVec 5) (fn : BitVec 8) (x : BitVec 1) (h : BitVec 2) : wordField (packEc op d a b fn x h) 3 8 = fn := by
  unfold wordField packEc; ext i hi; simp only [BitVec.getElem_extractLsb', BitVec.getLsbD_append]; grind

theorem packEc_x (op : BitVec 6) (d : BitVec 5) (a : BitVec 5) (b : BitVec 5) (fn : BitVec 8) (x : BitVec 1) (h : BitVec 2) : wordField (packEc op d a b fn x h) 2 1 = x := by
  unfold wordField packEc; ext i hi; simp only [BitVec.getElem_extractLsb', BitVec.getLsbD_append]; grind

theorem packEc_h (op : BitVec 6) (d : BitVec 5) (a : BitVec 5) (b : BitVec 5) (fn : BitVec 8) (x : BitVec 1) (h : BitVec 2) : wordField (packEc op d a b fn x h) 0 2 = h := by
  unfold wordField packEc; ext i hi; simp only [BitVec.getElem_extractLsb', BitVec.getLsbD_append]; grind

theorem packSy_majorOp (op : BitVec 6) (d : BitVec 5) (a : BitVec 5) (sr : BitVec 12) (fn : BitVec 2) (h : BitVec 2) : majorOp (packSy op d a sr fn h) = op := by
  unfold majorOp wordField packSy; ext i hi; simp only [BitVec.getElem_extractLsb', BitVec.getLsbD_append]; grind

theorem packSy_d (op : BitVec 6) (d : BitVec 5) (a : BitVec 5) (sr : BitVec 12) (fn : BitVec 2) (h : BitVec 2) : wordField (packSy op d a sr fn h) 21 5 = d := by
  unfold wordField packSy; ext i hi; simp only [BitVec.getElem_extractLsb', BitVec.getLsbD_append]; grind

theorem packSy_a (op : BitVec 6) (d : BitVec 5) (a : BitVec 5) (sr : BitVec 12) (fn : BitVec 2) (h : BitVec 2) : wordField (packSy op d a sr fn h) 16 5 = a := by
  unfold wordField packSy; ext i hi; simp only [BitVec.getElem_extractLsb', BitVec.getLsbD_append]; grind

theorem packSy_sr (op : BitVec 6) (d : BitVec 5) (a : BitVec 5) (sr : BitVec 12) (fn : BitVec 2) (h : BitVec 2) : wordField (packSy op d a sr fn h) 4 12 = sr := by
  unfold wordField packSy; ext i hi; simp only [BitVec.getElem_extractLsb', BitVec.getLsbD_append]; grind

theorem packSy_fn (op : BitVec 6) (d : BitVec 5) (a : BitVec 5) (sr : BitVec 12) (fn : BitVec 2) (h : BitVec 2) : wordField (packSy op d a sr fn h) 2 2 = fn := by
  unfold wordField packSy; ext i hi; simp only [BitVec.getElem_extractLsb', BitVec.getLsbD_append]; grind

theorem packSy_h (op : BitVec 6) (d : BitVec 5) (a : BitVec 5) (sr : BitVec 12) (fn : BitVec 2) (h : BitVec 2) : wordField (packSy op d a sr fn h) 0 2 = h := by
  unfold wordField packSy; ext i hi; simp only [BitVec.getElem_extractLsb', BitVec.getLsbD_append]; grind

end Sys2Proof.Laws
end

