-- ==== Sys2Proof/Laws/Opcodes.lean ====
section
/-!
SUPPORT. A word decodes by the map of its major opcode (02 R35), and decoding takes the words of one instruction from the
front of a list.
-/

namespace Sys2Proof.Laws

theorem decodeWord_0x01 (d : BitVec 5) (a : BitVec 5) (b : BitVec 5) (fn : BitVec 9) (h : BitVec 2) (lit : BitVec 32) :
    decodeWord (packRr 0x01 d a b fn h) lit = decode01 d a b fn h := by
  unfold decodeWord
  rw [packRr_majorOp, packRr_d, packRr_a, packRr_b, packRr_fn, packRr_h]
  rfl

theorem decodeWord_0x02 (d : BitVec 5) (a : BitVec 5) (imm : BitVec 14) (h : BitVec 2) (lit : BitVec 32) :
    decodeWord (packRi 0x02 d a imm h) lit = decode02 d a imm h := by
  unfold decodeWord
  rw [packRi_majorOp, packRi_d, packRi_a, packRi_imm, packRi_h]
  rfl

theorem decodeWord_0x03 (d : BitVec 5) (a : BitVec 5) (imm : BitVec 14) (h : BitVec 2) (lit : BitVec 32) :
    decodeWord (packRi 0x03 d a imm h) lit = decode03 d a imm h := by
  unfold decodeWord
  rw [packRi_majorOp, packRi_d, packRi_a, packRi_imm, packRi_h]
  rfl

theorem decodeWord_0x04 (d : BitVec 5) (a : BitVec 5) (imm : BitVec 14) (h : BitVec 2) (lit : BitVec 32) :
    decodeWord (packRi 0x04 d a imm h) lit = decode04 d a imm h := by
  unfold decodeWord
  rw [packRi_majorOp, packRi_d, packRi_a, packRi_imm, packRi_h]
  rfl

theorem decodeWord_0x05 (d : BitVec 5) (a : BitVec 5) (imm : BitVec 14) (h : BitVec 2) (lit : BitVec 32) :
    decodeWord (packRi 0x05 d a imm h) lit = decode05 d a imm h := by
  unfold decodeWord
  rw [packRi_majorOp, packRi_d, packRi_a, packRi_imm, packRi_h]
  rfl

theorem decodeWord_0x06 (d : BitVec 5) (a : BitVec 5) (imm : BitVec 14) (h : BitVec 2) (lit : BitVec 32) :
    decodeWord (packRi 0x06 d a imm h) lit = decode06 d a imm h := by
  unfold decodeWord
  rw [packRi_majorOp, packRi_d, packRi_a, packRi_imm, packRi_h]
  rfl

theorem decodeWord_0x07 (d : BitVec 5) (a : BitVec 5) (imm : BitVec 14) (h : BitVec 2) (lit : BitVec 32) :
    decodeWord (packRi 0x07 d a imm h) lit = decode07 d a imm h := by
  unfold decodeWord
  rw [packRi_majorOp, packRi_d, packRi_a, packRi_imm, packRi_h]
  rfl

theorem decodeWord_0x08 (d : BitVec 5) (a : BitVec 5) (b : BitVec 5) (r : BitVec 2) (fn : BitVec 7) (h : BitVec 2) (lit : BitVec 32) :
    decodeWord (packRrR 0x08 d a b r fn h) lit = decode08 d a b r fn h := by
  unfold decodeWord
  rw [packRrR_majorOp, packRrR_d, packRrR_a, packRrR_b, packRrR_r, packRrR_fn, packRrR_h]
  rfl

theorem decodeWord_0x09 (d : BitVec 5) (imm : BitVec 20) (x : BitVec 1) (lit : BitVec 32) :
    decodeWord (packFi 0x09 d imm x) lit = decode09 d imm x := by
  unfold decodeWord
  rw [packFi_majorOp, packFi_d, packFi_imm, packFi_x]
  rfl

theorem decodeWord_0x0A (d : BitVec 5) (a : BitVec 5) (fn : BitVec 6) (k : BitVec 8) (h : BitVec 2) (lit : BitVec 32) :
    decodeWord (packRiK 0x0A d a fn k h) lit = decode0A d a fn k h := by
  unfold decodeWord
  rw [packRiK_majorOp, packRiK_d, packRiK_a, packRiK_fn, packRiK_k, packRiK_h]
  rfl

theorem decodeWord_0x0E (d : BitVec 5) (a : BitVec 5) (fn : BitVec 6) (k : BitVec 8) (h : BitVec 2) (lit : BitVec 32) :
    decodeWord (packRiK 0x0E d a fn k h) lit = decode0E d a fn k h lit := by
  unfold decodeWord
  rw [packRiK_majorOp, packRiK_d, packRiK_a, packRiK_fn, packRiK_k, packRiK_h]
  rfl

theorem decodeWord_0x10 (fn : BitVec 5) (a : BitVec 5) (imm : BitVec 14) (h : BitVec 2) (lit : BitVec 32) :
    decodeWord (packCb 0x10 fn a imm h) lit = decode10 fn a imm h := by
  unfold decodeWord
  rw [packCb_majorOp, packCb_fn, packCb_a, packCb_imm, packCb_h]
  rfl

theorem decodeWord_0x11 (l : BitVec 5) (imm : BitVec 19) (h : BitVec 2) (lit : BitVec 32) :
    decodeWord (packLb 0x11 l imm h) lit = decode11 l imm h := by
  unfold decodeWord
  rw [packLb_majorOp, packLb_l, packLb_imm, packLb_h]
  rfl

theorem decodeWord_0x12 (l : BitVec 5) (imm : BitVec 19) (h : BitVec 2) (lit : BitVec 32) :
    decodeWord (packLb 0x12 l imm h) lit = decode12 l imm h := by
  unfold decodeWord
  rw [packLb_majorOp, packLb_l, packLb_imm, packLb_h]
  rfl

theorem decodeWord_0x13 (d : BitVec 5) (a : BitVec 5) (b : BitVec 5) (fn : BitVec 9) (h : BitVec 2) (lit : BitVec 32) :
    decodeWord (packRr 0x13 d a b fn h) lit = decode13 d a b fn h := by
  unfold decodeWord
  rw [packRr_majorOp, packRr_d, packRr_a, packRr_b, packRr_fn, packRr_h]
  rfl

theorem decodeWord_0x14 (d : BitVec 5) (a : BitVec 5) (imm : BitVec 14) (h : BitVec 2) (lit : BitVec 32) :
    decodeWord (packRi 0x14 d a imm h) lit = decode14 d a imm h := by
  unfold decodeWord
  rw [packRi_majorOp, packRi_d, packRi_a, packRi_imm, packRi_h]
  rfl

theorem decodeWord_0x15 (d : BitVec 5) (a : BitVec 5) (imm : BitVec 14) (h : BitVec 2) (lit : BitVec 32) :
    decodeWord (packRi 0x15 d a imm h) lit = decode15 d a imm h := by
  unfold decodeWord
  rw [packRi_majorOp, packRi_d, packRi_a, packRi_imm, packRi_h]
  rfl

theorem decodeWord_0x16 (d : BitVec 5) (a : BitVec 5) (b : BitVec 5) (fn : BitVec 9) (h : BitVec 2) (lit : BitVec 32) :
    decodeWord (packRr 0x16 d a b fn h) lit = decode16 d a b fn h := by
  unfold decodeWord
  rw [packRr_majorOp, packRr_d, packRr_a, packRr_b, packRr_fn, packRr_h]
  rfl

theorem decodeWord_0x18 (d : BitVec 5) (b : BitVec 5) (o : BitVec 11) (z : BitVec 2) (r : BitVec 1) (h : BitVec 2) (lit : BitVec 32) :
    decodeWord (packMm 0x18 d b o z r h) lit = decode18 d b o z r h := by
  unfold decodeWord
  rw [packMm_majorOp, packMm_d, packMm_b, packMm_o, packMm_z, packMm_r, packMm_h]
  rfl

theorem decodeWord_0x19 (d : BitVec 5) (b : BitVec 5) (o : BitVec 11) (z : BitVec 2) (r : BitVec 1) (h : BitVec 2) (lit : BitVec 32) :
    decodeWord (packMm 0x19 d b o z r h) lit = decode19 d b o z r h := by
  unfold decodeWord
  rw [packMm_majorOp, packMm_d, packMm_b, packMm_o, packMm_z, packMm_r, packMm_h]
  rfl

theorem decodeWord_0x1A (d : BitVec 5) (b : BitVec 5) (o : BitVec 11) (z : BitVec 2) (r : BitVec 1) (h : BitVec 2) (lit : BitVec 32) :
    decodeWord (packMm 0x1A d b o z r h) lit = decode1A d b o z r h := by
  unfold decodeWord
  rw [packMm_majorOp, packMm_d, packMm_b, packMm_o, packMm_z, packMm_r, packMm_h]
  rfl

theorem decodeWord_0x1B (d : BitVec 5) (b : BitVec 5) (o : BitVec 11) (z : BitVec 2) (r : BitVec 1) (h : BitVec 2) (lit : BitVec 32) :
    decodeWord (packMm 0x1B d b o z r h) lit = decode1B d b o z r h := by
  unfold decodeWord
  rw [packMm_majorOp, packMm_d, packMm_b, packMm_o, packMm_z, packMm_r, packMm_h]
  rfl

theorem decodeWord_0x1C (d : BitVec 5) (b : BitVec 5) (o : BitVec 11) (z : BitVec 2) (r : BitVec 1) (h : BitVec 2) (lit : BitVec 32) :
    decodeWord (packMm 0x1C d b o z r h) lit = decode1C d b o z r h := by
  unfold decodeWord
  rw [packMm_majorOp, packMm_d, packMm_b, packMm_o, packMm_z, packMm_r, packMm_h]
  rfl

theorem decodeWord_0x1D (d : BitVec 5) (b : BitVec 5) (o : BitVec 11) (z : BitVec 2) (r : BitVec 1) (h : BitVec 2) (lit : BitVec 32) :
    decodeWord (packMm 0x1D d b o z r h) lit = decode1D d b o z r h := by
  unfold decodeWord
  rw [packMm_majorOp, packMm_d, packMm_b, packMm_o, packMm_z, packMm_r, packMm_h]
  rfl

theorem decodeWord_0x1E (v : BitVec 5) (a : BitVec 5) (b : BitVec 5) (p : BitVec 3) (r : BitVec 1) (t : BitVec 1) (fn : BitVec 4) (h : BitVec 2) (lit : BitVec 32) :
    decodeWord (packVvM 0x1E v a b p r t fn h) lit = decode1E v a b p r t fn h := by
  unfold decodeWord
  rw [packVvM_majorOp, packVvM_v, packVvM_a, packVvM_b, packVvM_p, packVvM_r, packVvM_t, packVvM_fn, packVvM_h]
  rfl

theorem decodeWord_0x1F (d : BitVec 5) (a : BitVec 5) (b : BitVec 5) (fn : BitVec 9) (h : BitVec 2) (lit : BitVec 32) :
    decodeWord (packRr 0x1F d a b fn h) lit = decode1F d a b fn h := by
  unfold decodeWord
  rw [packRr_majorOp, packRr_d, packRr_a, packRr_b, packRr_fn, packRr_h]
  rfl

theorem decodeWord_0x20 (v : BitVec 5) (a : BitVec 5) (b : BitVec 5) (p : BitVec 3) (r : BitVec 2) (fn : BitVec 4) (h : BitVec 2) (lit : BitVec 32) :
    decodeWord (packVvR 0x20 v a b p r fn h) lit = decode20 v a b p r fn h := by
  unfold decodeWord
  rw [packVvR_majorOp, packVvR_v, packVvR_a, packVvR_b, packVvR_p, packVvR_r, packVvR_fn, packVvR_h]
  rfl

theorem decodeWord_0x21 (v : BitVec 5) (a : BitVec 5) (b : BitVec 5) (p : BitVec 3) (fn : BitVec 6) (h : BitVec 2) (lit : BitVec 32) :
    decodeWord (packVv 0x21 v a b p fn h) lit = decode21 v a b p fn h := by
  unfold decodeWord
  rw [packVv_majorOp, packVv_v, packVv_a, packVv_b, packVv_p, packVv_fn, packVv_h]
  rfl

theorem decodeWord_0x22 (v : BitVec 5) (a : BitVec 5) (b : BitVec 5) (p : BitVec 3) (fn : BitVec 6) (h : BitVec 2) (lit : BitVec 32) :
    decodeWord (packVv 0x22 v a b p fn h) lit = decode22 v a b p fn h := by
  unfold decodeWord
  rw [packVv_majorOp, packVv_v, packVv_a, packVv_b, packVv_p, packVv_fn, packVv_h]
  rfl

theorem decodeWord_0x23 (v : BitVec 5) (a : BitVec 5) (b : BitVec 5) (p : BitVec 3) (fn : BitVec 6) (h : BitVec 2) (lit : BitVec 32) :
    decodeWord (packVv 0x23 v a b p fn h) lit = decode23 v a b p fn h := by
  unfold decodeWord
  rw [packVv_majorOp, packVv_v, packVv_a, packVv_b, packVv_p, packVv_fn, packVv_h]
  rfl

theorem decodeWord_0x24 (v : BitVec 5) (a : BitVec 5) (b : BitVec 5) (p : BitVec 3) (fn : BitVec 6) (h : BitVec 2) (lit : BitVec 32) :
    decodeWord (packVv 0x24 v a b p fn h) lit = decode24 v a b p fn h := by
  unfold decodeWord
  rw [packVv_majorOp, packVv_v, packVv_a, packVv_b, packVv_p, packVv_fn, packVv_h]
  rfl

theorem decodeWord_0x25 (v : BitVec 5) (a : BitVec 5) (b : BitVec 5) (p : BitVec 3) (t : BitVec 3) (f : BitVec 3) (h : BitVec 2) (lit : BitVec 32) :
    decodeWord (packVvC 0x25 v a b p t f h) lit = decode25 v a b p t f h := by
  unfold decodeWord
  rw [packVvC_majorOp, packVvC_v, packVvC_a, packVvC_b, packVvC_p, packVvC_t, packVvC_f, packVvC_h]
  rfl

theorem decodeWord_0x26 (v : BitVec 5) (a : BitVec 5) (b : BitVec 5) (p : BitVec 3) (fn : BitVec 6) (h : BitVec 2) (lit : BitVec 32) :
    decodeWord (packVv 0x26 v a b p fn h) lit = decode26 v a b p fn h := by
  unfold decodeWord
  rw [packVv_majorOp, packVv_v, packVv_a, packVv_b, packVv_p, packVv_fn, packVv_h]
  rfl

theorem decodeWord_0x27 (v : BitVec 5) (a : BitVec 5) (b : BitVec 5) (p : BitVec 3) (fn : BitVec 6) (h : BitVec 2) (lit : BitVec 32) :
    decodeWord (packVv 0x27 v a b p fn h) lit = decode27 v a b p fn h := by
  unfold decodeWord
  rw [packVv_majorOp, packVv_v, packVv_a, packVv_b, packVv_p, packVv_fn, packVv_h]
  rfl

theorem decodeWord_0x28 (v : BitVec 5) (a : BitVec 5) (b : BitVec 5) (p : BitVec 3) (fn : BitVec 6) (h : BitVec 2) (lit : BitVec 32) :
    decodeWord (packVv 0x28 v a b p fn h) lit = decode28 v a b p fn h := by
  unfold decodeWord
  rw [packVv_majorOp, packVv_v, packVv_a, packVv_b, packVv_p, packVv_fn, packVv_h]
  rfl

theorem decodeWord_0x29 (d : BitVec 5) (a : BitVec 5) (w : BitVec 2) (l : BitVec 4) (x : BitVec 8) (h : BitVec 2) (lit : BitVec 32) :
    decodeWord (packRiS 0x29 d a w l x h) lit = decode29 d a w l x h := by
  unfold decodeWord
  rw [packRiS_majorOp, packRiS_d, packRiS_a, packRiS_w, packRiS_l, packRiS_x, packRiS_h]
  rfl

theorem decodeWord_0x2A (d : BitVec 5) (a : BitVec 5) (x : BitVec 12) (b : BitVec 2) (h : BitVec 2) (lit : BitVec 32) :
    decodeWord (packRiB 0x2A d a x b h) lit = decode2A d a x b h := by
  unfold decodeWord
  rw [packRiB_majorOp, packRiB_d, packRiB_a, packRiB_x, packRiB_b, packRiB_h]
  rfl

theorem decodeWord_0x2B (d : BitVec 5) (imm : BitVec 20) (x : BitVec 1) (lit : BitVec 32) :
    decodeWord (packFi 0x2B d imm x) lit = decode2B d imm x := by
  unfold decodeWord
  rw [packFi_majorOp, packFi_d, packFi_imm, packFi_x]
  rfl

theorem decodeWord_0x2C (d : BitVec 5) (a : BitVec 5) (b : BitVec 5) (fn : BitVec 9) (h : BitVec 2) (lit : BitVec 32) :
    decodeWord (packRr 0x2C d a b fn h) lit = decode2C d a b fn h := by
  unfold decodeWord
  rw [packRr_majorOp, packRr_d, packRr_a, packRr_b, packRr_fn, packRr_h]
  rfl

theorem decodeWord_0x30 (d : BitVec 5) (a : BitVec 5) (b : BitVec 5) (fn : BitVec 8) (x : BitVec 1) (h : BitVec 2) (lit : BitVec 32) :
    decodeWord (packEc 0x30 d a b fn x h) lit = decode30 d a b fn x h := by
  unfold decodeWord
  rw [packEc_majorOp, packEc_d, packEc_a, packEc_b, packEc_fn, packEc_x, packEc_h]
  rfl

theorem decodeWord_0x31 (d : BitVec 5) (a : BitVec 5) (b : BitVec 5) (fn : BitVec 8) (x : BitVec 1) (h : BitVec 2) (lit : BitVec 32) :
    decodeWord (packEc 0x31 d a b fn x h) lit = decode31 d a b fn x h := by
  unfold decodeWord
  rw [packEc_majorOp, packEc_d, packEc_a, packEc_b, packEc_fn, packEc_x, packEc_h]
  rfl

theorem decodeWord_0x32 (d : BitVec 5) (a : BitVec 5) (b : BitVec 5) (fn : BitVec 8) (x : BitVec 1) (h : BitVec 2) (lit : BitVec 32) :
    decodeWord (packEc 0x32 d a b fn x h) lit = decode32 d a b fn x h := by
  unfold decodeWord
  rw [packEc_majorOp, packEc_d, packEc_a, packEc_b, packEc_fn, packEc_x, packEc_h]
  rfl

theorem decodeWord_0x33 (d : BitVec 5) (a : BitVec 5) (b : BitVec 5) (fn : BitVec 8) (x : BitVec 1) (h : BitVec 2) (lit : BitVec 32) :
    decodeWord (packEc 0x33 d a b fn x h) lit = decode33 d a b fn x h := by
  unfold decodeWord
  rw [packEc_majorOp, packEc_d, packEc_a, packEc_b, packEc_fn, packEc_x, packEc_h]
  rfl

theorem decodeWord_0x34 (d : BitVec 5) (a : BitVec 5) (b : BitVec 5) (fn : BitVec 8) (x : BitVec 1) (h : BitVec 2) (lit : BitVec 32) :
    decodeWord (packEc 0x34 d a b fn x h) lit = decode34 d a b fn x h := by
  unfold decodeWord
  rw [packEc_majorOp, packEc_d, packEc_a, packEc_b, packEc_fn, packEc_x, packEc_h]
  rfl

theorem decodeWord_0x35 (d : BitVec 5) (a : BitVec 5) (b : BitVec 5) (fn : BitVec 8) (x : BitVec 1) (h : BitVec 2) (lit : BitVec 32) :
    decodeWord (packEc 0x35 d a b fn x h) lit = decode35 d a b fn x h := by
  unfold decodeWord
  rw [packEc_majorOp, packEc_d, packEc_a, packEc_b, packEc_fn, packEc_x, packEc_h]
  rfl

theorem decodeWord_0x36 (d : BitVec 5) (a : BitVec 5) (b : BitVec 5) (fn : BitVec 8) (x : BitVec 1) (h : BitVec 2) (lit : BitVec 32) :
    decodeWord (packEc 0x36 d a b fn x h) lit = decode36 d a b fn x h := by
  unfold decodeWord
  rw [packEc_majorOp, packEc_d, packEc_a, packEc_b, packEc_fn, packEc_x, packEc_h]
  rfl

theorem decodeWord_0x38 (d : BitVec 5) (a : BitVec 5) (b : BitVec 5) (w : BitVec 1) (fn : BitVec 8) (h : BitVec 2) (lit : BitVec 32) :
    decodeWord (packRrW 0x38 d a b w fn h) lit = decode38 d a b w fn h := by
  unfold decodeWord
  rw [packRrW_majorOp, packRrW_d, packRrW_a, packRrW_b, packRrW_w, packRrW_fn, packRrW_h]
  rfl

theorem decodeWord_0x39 (d : BitVec 5) (a : BitVec 5) (b : BitVec 5) (fn : BitVec 9) (h : BitVec 2) (lit : BitVec 32) :
    decodeWord (packRr 0x39 d a b fn h) lit = decode39 d a b fn h := by
  unfold decodeWord
  rw [packRr_majorOp, packRr_d, packRr_a, packRr_b, packRr_fn, packRr_h]
  rfl

theorem decodeWord_0x3A (d : BitVec 5) (a : BitVec 5) (b : BitVec 5) (x : BitVec 2) (m : BitVec 2) (fn : BitVec 2) (sc : BitVec 3) (h : BitVec 2) (lit : BitVec 32) :
    decodeWord (packRrO 0x3A d a b x m fn sc h) lit = decode3A d a b x m fn sc h := by
  unfold decodeWord
  rw [packRrO_majorOp, packRrO_d, packRrO_a, packRrO_b, packRrO_x, packRrO_m, packRrO_fn, packRrO_sc, packRrO_h]
  rfl

theorem decodeWord_0x3B (d : BitVec 5) (a : BitVec 5) (b : BitVec 5) (fn : BitVec 9) (h : BitVec 2) (lit : BitVec 32) :
    decodeWord (packRr 0x3B d a b fn h) lit = decode3B d a b fn h := by
  unfold decodeWord
  rw [packRr_majorOp, packRr_d, packRr_a, packRr_b, packRr_fn, packRr_h]
  rfl

theorem decodeWord_0x3C (d : BitVec 5) (a : BitVec 5) (sr : BitVec 12) (fn : BitVec 2) (h : BitVec 2) (lit : BitVec 32) :
    decodeWord (packSy 0x3C d a sr fn h) lit = decode3C d a sr fn h := by
  unfold decodeWord
  rw [packSy_majorOp, packSy_d, packSy_a, packSy_sr, packSy_fn, packSy_h]
  rfl

theorem decodeWord_0x3D (d : BitVec 5) (a : BitVec 5) (b : BitVec 5) (fn : BitVec 9) (h : BitVec 2) (lit : BitVec 32) :
    decodeWord (packRr 0x3D d a b fn h) lit = decode3D d a b fn h := by
  unfold decodeWord
  rw [packRr_majorOp, packRr_d, packRr_a, packRr_b, packRr_fn, packRr_h]
  rfl

theorem majorOp_zero : majorOp 0 = 0 := by decide

/-- A word that is no literal carrier decodes by itself. -/
theorem decodeWords_one {w : BitVec 32} {i : Instr} (rest : List (BitVec 32)) (op : BitVec 6) (hop : majorOp w = op)
    (h0 : op ≠ 0) (hc : op ≠ 0x0E) (h : decodeWord w 0 = some i) : decodeWords (w :: rest) = .ok (i, rest) := by
  have hw : w ≠ 0 := fun e => h0 (by rw [← hop, e, majorOp_zero])
  have hcar : isCarrier w = false := by
    unfold isCarrier
    rw [hop]
    refine beq_eq_false_iff_ne.mpr (fun e => hc ?_)
    exact BitVec.eq_of_toNat_eq e
  rw [decodeWords.eq_def]
  simp only
  rw [if_neg hw, if_neg (by rw [hcar]; exact Bool.false_ne_true), h]

/-- A literal carrier decodes with the word after it. -/
theorem decodeWords_two {w k : BitVec 32} {i : Instr} (rest : List (BitVec 32)) (hop : majorOp w = 0x0E)
    (h : decodeWord w k = some i) : decodeWords (w :: k :: rest) = .ok (i, rest) := by
  have hw : w ≠ 0 := fun e => by rw [e, majorOp_zero] at hop; exact absurd hop (by decide)
  have hcar : isCarrier w = true := by
    unfold isCarrier
    rw [hop]
    rfl
  rw [decodeWords.eq_def]
  simp only
  rw [if_neg hw, if_pos hcar, h]

end Sys2Proof.Laws
end

