-- ==== Sys2Proof/Laws/PerInstr.lean ====
section
/-!
SUPPORT. Encoding, per instruction: the decoder takes the words of a well-formed instruction from the front of any list
and answers that instruction (02 R25 to R35).
-/

namespace Sys2Proof.Laws

/-- If the instruction is well formed, its words decode to it, and the words after them are left. -/
def EncodesBack.Statement (i : Instr) : Prop :=
  i.wf = true → ∀ rest : List (BitVec 32), decodeWords (encode i ++ rest) = .ok (i, rest)

/-- A field of one bit is 0 or 1. -/
theorem bit_cases (m : BitVec 1) : m = 0 ∨ m = 1 := by
  have := m.isLt
  rcases Nat.lt_or_ge m.toNat 1 with h | h
  · exact .inl (BitVec.eq_of_toNat_eq (by simp; omega))
  · exact .inr (BitVec.eq_of_toNat_eq (by simp; omega))


theorem EncodesBack.add (d : BitVec 5) (a : BitVec 5) (b : BitVec 5) (h : BitVec 2) : Statement (.add d a b h) :=
  fun _ rest => decodeWords_one rest 0x01 (packRr_majorOp _ _ _ _ _ _) (by decide) (by decide) (by rw [decodeWord_0x01]; rfl)

theorem EncodesBack.sub (d : BitVec 5) (a : BitVec 5) (b : BitVec 5) (h : BitVec 2) : Statement (.sub d a b h) :=
  fun _ rest => decodeWords_one rest 0x01 (packRr_majorOp _ _ _ _ _ _) (by decide) (by decide) (by rw [decodeWord_0x01]; rfl)

theorem EncodesBack.and (d : BitVec 5) (a : BitVec 5) (b : BitVec 5) (h : BitVec 2) : Statement (.and d a b h) :=
  fun _ rest => decodeWords_one rest 0x01 (packRr_majorOp _ _ _ _ _ _) (by decide) (by decide) (by rw [decodeWord_0x01]; rfl)

theorem EncodesBack.or (d : BitVec 5) (a : BitVec 5) (b : BitVec 5) (h : BitVec 2) : Statement (.or d a b h) :=
  fun _ rest => decodeWords_one rest 0x01 (packRr_majorOp _ _ _ _ _ _) (by decide) (by decide) (by rw [decodeWord_0x01]; rfl)

theorem EncodesBack.xor (d : BitVec 5) (a : BitVec 5) (b : BitVec 5) (h : BitVec 2) : Statement (.xor d a b h) :=
  fun _ rest => decodeWords_one rest 0x01 (packRr_majorOp _ _ _ _ _ _) (by decide) (by decide) (by rw [decodeWord_0x01]; rfl)

theorem EncodesBack.andn (d : BitVec 5) (a : BitVec 5) (b : BitVec 5) (h : BitVec 2) : Statement (.andn d a b h) :=
  fun _ rest => decodeWords_one rest 0x01 (packRr_majorOp _ _ _ _ _ _) (by decide) (by decide) (by rw [decodeWord_0x01]; rfl)

theorem EncodesBack.orn (d : BitVec 5) (a : BitVec 5) (b : BitVec 5) (h : BitVec 2) : Statement (.orn d a b h) :=
  fun _ rest => decodeWords_one rest 0x01 (packRr_majorOp _ _ _ _ _ _) (by decide) (by decide) (by rw [decodeWord_0x01]; rfl)

theorem EncodesBack.xnor (d : BitVec 5) (a : BitVec 5) (b : BitVec 5) (h : BitVec 2) : Statement (.xnor d a b h) :=
  fun _ rest => decodeWords_one rest 0x01 (packRr_majorOp _ _ _ _ _ _) (by decide) (by decide) (by rw [decodeWord_0x01]; rfl)

theorem EncodesBack.sll (d : BitVec 5) (a : BitVec 5) (b : BitVec 5) (h : BitVec 2) : Statement (.sll d a b h) :=
  fun _ rest => decodeWords_one rest 0x01 (packRr_majorOp _ _ _ _ _ _) (by decide) (by decide) (by rw [decodeWord_0x01]; rfl)

theorem EncodesBack.srl (d : BitVec 5) (a : BitVec 5) (b : BitVec 5) (h : BitVec 2) : Statement (.srl d a b h) :=
  fun _ rest => decodeWords_one rest 0x01 (packRr_majorOp _ _ _ _ _ _) (by decide) (by decide) (by rw [decodeWord_0x01]; rfl)

theorem EncodesBack.sra (d : BitVec 5) (a : BitVec 5) (b : BitVec 5) (h : BitVec 2) : Statement (.sra d a b h) :=
  fun _ rest => decodeWords_one rest 0x01 (packRr_majorOp _ _ _ _ _ _) (by decide) (by decide) (by rw [decodeWord_0x01]; rfl)

theorem EncodesBack.rol (d : BitVec 5) (a : BitVec 5) (b : BitVec 5) (h : BitVec 2) : Statement (.rol d a b h) :=
  fun _ rest => decodeWords_one rest 0x01 (packRr_majorOp _ _ _ _ _ _) (by decide) (by decide) (by rw [decodeWord_0x01]; rfl)

theorem EncodesBack.mul (d : BitVec 5) (a : BitVec 5) (b : BitVec 5) (h : BitVec 2) : Statement (.mul d a b h) :=
  fun _ rest => decodeWords_one rest 0x01 (packRr_majorOp _ _ _ _ _ _) (by decide) (by decide) (by rw [decodeWord_0x01]; rfl)

theorem EncodesBack.mulh (d : BitVec 5) (a : BitVec 5) (b : BitVec 5) (h : BitVec 2) : Statement (.mulh d a b h) :=
  fun _ rest => decodeWords_one rest 0x01 (packRr_majorOp _ _ _ _ _ _) (by decide) (by decide) (by rw [decodeWord_0x01]; rfl)

theorem EncodesBack.mulhn (d : BitVec 5) (a : BitVec 5) (b : BitVec 5) (h : BitVec 2) : Statement (.mulhn d a b h) :=
  fun _ rest => decodeWords_one rest 0x01 (packRr_majorOp _ _ _ _ _ _) (by decide) (by decide) (by rw [decodeWord_0x01]; rfl)

theorem EncodesBack.div (d : BitVec 5) (a : BitVec 5) (b : BitVec 5) (h : BitVec 2) : Statement (.div d a b h) :=
  fun _ rest => decodeWords_one rest 0x01 (packRr_majorOp _ _ _ _ _ _) (by decide) (by decide) (by rw [decodeWord_0x01]; rfl)

theorem EncodesBack.divn (d : BitVec 5) (a : BitVec 5) (b : BitVec 5) (h : BitVec 2) : Statement (.divn d a b h) :=
  fun _ rest => decodeWords_one rest 0x01 (packRr_majorOp _ _ _ _ _ _) (by decide) (by decide) (by rw [decodeWord_0x01]; rfl)

theorem EncodesBack.rem (d : BitVec 5) (a : BitVec 5) (b : BitVec 5) (h : BitVec 2) : Statement (.rem d a b h) :=
  fun _ rest => decodeWords_one rest 0x01 (packRr_majorOp _ _ _ _ _ _) (by decide) (by decide) (by rw [decodeWord_0x01]; rfl)

theorem EncodesBack.remn (d : BitVec 5) (a : BitVec 5) (b : BitVec 5) (h : BitVec 2) : Statement (.remn d a b h) :=
  fun _ rest => decodeWords_one rest 0x01 (packRr_majorOp _ _ _ _ _ _) (by decide) (by decide) (by rw [decodeWord_0x01]; rfl)

theorem EncodesBack.min (d : BitVec 5) (a : BitVec 5) (b : BitVec 5) (h : BitVec 2) : Statement (.min d a b h) :=
  fun _ rest => decodeWords_one rest 0x01 (packRr_majorOp _ _ _ _ _ _) (by decide) (by decide) (by rw [decodeWord_0x01]; rfl)

theorem EncodesBack.max (d : BitVec 5) (a : BitVec 5) (b : BitVec 5) (h : BitVec 2) : Statement (.max d a b h) :=
  fun _ rest => decodeWords_one rest 0x01 (packRr_majorOp _ _ _ _ _ _) (by decide) (by decide) (by rw [decodeWord_0x01]; rfl)

theorem EncodesBack.minn (d : BitVec 5) (a : BitVec 5) (b : BitVec 5) (h : BitVec 2) : Statement (.minn d a b h) :=
  fun _ rest => decodeWords_one rest 0x01 (packRr_majorOp _ _ _ _ _ _) (by decide) (by decide) (by rw [decodeWord_0x01]; rfl)

theorem EncodesBack.maxn (d : BitVec 5) (a : BitVec 5) (b : BitVec 5) (h : BitVec 2) : Statement (.maxn d a b h) :=
  fun _ rest => decodeWords_one rest 0x01 (packRr_majorOp _ _ _ _ _ _) (by decide) (by decide) (by rw [decodeWord_0x01]; rfl)

theorem EncodesBack.adds (d : BitVec 5) (a : BitVec 5) (b : BitVec 5) (h : BitVec 2) : Statement (.adds d a b h) :=
  fun _ rest => decodeWords_one rest 0x01 (packRr_majorOp _ _ _ _ _ _) (by decide) (by decide) (by rw [decodeWord_0x01]; rfl)

theorem EncodesBack.subs (d : BitVec 5) (a : BitVec 5) (b : BitVec 5) (h : BitVec 2) : Statement (.subs d a b h) :=
  fun _ rest => decodeWords_one rest 0x01 (packRr_majorOp _ _ _ _ _ _) (by decide) (by decide) (by rw [decodeWord_0x01]; rfl)

theorem EncodesBack.addsn (d : BitVec 5) (a : BitVec 5) (b : BitVec 5) (h : BitVec 2) : Statement (.addsn d a b h) :=
  fun _ rest => decodeWords_one rest 0x01 (packRr_majorOp _ _ _ _ _ _) (by decide) (by decide) (by rw [decodeWord_0x01]; rfl)

theorem EncodesBack.subsn (d : BitVec 5) (a : BitVec 5) (b : BitVec 5) (h : BitVec 2) : Statement (.subsn d a b h) :=
  fun _ rest => decodeWords_one rest 0x01 (packRr_majorOp _ _ _ _ _ _) (by decide) (by decide) (by rw [decodeWord_0x01]; rfl)

theorem EncodesBack.clz (d : BitVec 5) (a : BitVec 5) (h : BitVec 2) : Statement (.clz d a h) :=
  fun _ rest => decodeWords_one rest 0x01 (packRr_majorOp _ _ _ _ _ _) (by decide) (by decide) (by rw [decodeWord_0x01]; rfl)

theorem EncodesBack.ctz (d : BitVec 5) (a : BitVec 5) (h : BitVec 2) : Statement (.ctz d a h) :=
  fun _ rest => decodeWords_one rest 0x01 (packRr_majorOp _ _ _ _ _ _) (by decide) (by decide) (by rw [decodeWord_0x01]; rfl)

theorem EncodesBack.popc (d : BitVec 5) (a : BitVec 5) (h : BitVec 2) : Statement (.popc d a h) :=
  fun _ rest => decodeWords_one rest 0x01 (packRr_majorOp _ _ _ _ _ _) (by decide) (by decide) (by rw [decodeWord_0x01]; rfl)

theorem EncodesBack.brev (d : BitVec 5) (a : BitVec 5) (h : BitVec 2) : Statement (.brev d a h) :=
  fun _ rest => decodeWords_one rest 0x01 (packRr_majorOp _ _ _ _ _ _) (by decide) (by decide) (by rw [decodeWord_0x01]; rfl)

theorem EncodesBack.bswap (d : BitVec 5) (a : BitVec 5) (h : BitVec 2) : Statement (.bswap d a h) :=
  fun _ rest => decodeWords_one rest 0x01 (packRr_majorOp _ _ _ _ _ _) (by decide) (by decide) (by rw [decodeWord_0x01]; rfl)

theorem EncodesBack.sextB (d : BitVec 5) (a : BitVec 5) (h : BitVec 2) : Statement (.sextB d a h) :=
  fun _ rest => decodeWords_one rest 0x01 (packRr_majorOp _ _ _ _ _ _) (by decide) (by decide) (by rw [decodeWord_0x01]; rfl)

theorem EncodesBack.sextH (d : BitVec 5) (a : BitVec 5) (h : BitVec 2) : Statement (.sextH d a h) :=
  fun _ rest => decodeWords_one rest 0x01 (packRr_majorOp _ _ _ _ _ _) (by decide) (by decide) (by rw [decodeWord_0x01]; rfl)

theorem EncodesBack.sextW (d : BitVec 5) (a : BitVec 5) (h : BitVec 2) : Statement (.sextW d a h) :=
  fun _ rest => decodeWords_one rest 0x01 (packRr_majorOp _ _ _ _ _ _) (by decide) (by decide) (by rw [decodeWord_0x01]; rfl)

theorem EncodesBack.zextB (d : BitVec 5) (a : BitVec 5) (h : BitVec 2) : Statement (.zextB d a h) :=
  fun _ rest => decodeWords_one rest 0x01 (packRr_majorOp _ _ _ _ _ _) (by decide) (by decide) (by rw [decodeWord_0x01]; rfl)

theorem EncodesBack.zextH (d : BitVec 5) (a : BitVec 5) (h : BitVec 2) : Statement (.zextH d a h) :=
  fun _ rest => decodeWords_one rest 0x01 (packRr_majorOp _ _ _ _ _ _) (by decide) (by decide) (by rw [decodeWord_0x01]; rfl)

theorem EncodesBack.zextW (d : BitVec 5) (a : BitVec 5) (h : BitVec 2) : Statement (.zextW d a h) :=
  fun _ rest => decodeWords_one rest 0x01 (packRr_majorOp _ _ _ _ _ _) (by decide) (by decide) (by rw [decodeWord_0x01]; rfl)

theorem EncodesBack.cmpEq (d : BitVec 5) (a : BitVec 5) (b : BitVec 5) (h : BitVec 2) : Statement (.cmpEq d a b h) :=
  fun _ rest => decodeWords_one rest 0x01 (packRr_majorOp _ _ _ _ _ _) (by decide) (by decide) (by rw [decodeWord_0x01]; rfl)

theorem EncodesBack.cmpNe (d : BitVec 5) (a : BitVec 5) (b : BitVec 5) (h : BitVec 2) : Statement (.cmpNe d a b h) :=
  fun _ rest => decodeWords_one rest 0x01 (packRr_majorOp _ _ _ _ _ _) (by decide) (by decide) (by rw [decodeWord_0x01]; rfl)

theorem EncodesBack.cmpLt (d : BitVec 5) (a : BitVec 5) (b : BitVec 5) (h : BitVec 2) : Statement (.cmpLt d a b h) :=
  fun _ rest => decodeWords_one rest 0x01 (packRr_majorOp _ _ _ _ _ _) (by decide) (by decide) (by rw [decodeWord_0x01]; rfl)

theorem EncodesBack.cmpGe (d : BitVec 5) (a : BitVec 5) (b : BitVec 5) (h : BitVec 2) : Statement (.cmpGe d a b h) :=
  fun _ rest => decodeWords_one rest 0x01 (packRr_majorOp _ _ _ _ _ _) (by decide) (by decide) (by rw [decodeWord_0x01]; rfl)

theorem EncodesBack.cmpLtn (d : BitVec 5) (a : BitVec 5) (b : BitVec 5) (h : BitVec 2) : Statement (.cmpLtn d a b h) :=
  fun _ rest => decodeWords_one rest 0x01 (packRr_majorOp _ _ _ _ _ _) (by decide) (by decide) (by rw [decodeWord_0x01]; rfl)

theorem EncodesBack.cmpGen (d : BitVec 5) (a : BitVec 5) (b : BitVec 5) (h : BitVec 2) : Statement (.cmpGen d a b h) :=
  fun _ rest => decodeWords_one rest 0x01 (packRr_majorOp _ _ _ _ _ _) (by decide) (by decide) (by rw [decodeWord_0x01]; rfl)

theorem EncodesBack.sel (d : BitVec 5) (a : BitVec 5) (b : BitVec 5) (h : BitVec 2) : Statement (.sel d a b h) :=
  fun _ rest => decodeWords_one rest 0x01 (packRr_majorOp _ _ _ _ _ _) (by decide) (by decide) (by rw [decodeWord_0x01]; rfl)

theorem EncodesBack.sllImm (d : BitVec 5) (a : BitVec 5) (n : BitVec 5) (m : BitVec 1) (h : BitVec 2) : Statement (.sllImm d a n m h) :=
  fun hw rest => decodeWords_one rest 0x01 (packRr_majorOp _ _ _ _ _ _) (by decide) (by decide)
    (by rw [decodeWord_0x01]; obtain rfl | rfl := bit_cases m <;> rfl)

theorem EncodesBack.srlImm (d : BitVec 5) (a : BitVec 5) (n : BitVec 5) (m : BitVec 1) (h : BitVec 2) : Statement (.srlImm d a n m h) :=
  fun hw rest => decodeWords_one rest 0x01 (packRr_majorOp _ _ _ _ _ _) (by decide) (by decide)
    (by rw [decodeWord_0x01]; obtain rfl | rfl := bit_cases m <;> rfl)

theorem EncodesBack.sraImm (d : BitVec 5) (a : BitVec 5) (n : BitVec 5) (m : BitVec 1) (h : BitVec 2) : Statement (.sraImm d a n m h) :=
  fun hw rest => decodeWords_one rest 0x01 (packRr_majorOp _ _ _ _ _ _) (by decide) (by decide)
    (by rw [decodeWord_0x01]; obtain rfl | rfl := bit_cases m <;> rfl)

theorem EncodesBack.rolImm (d : BitVec 5) (a : BitVec 5) (n : BitVec 5) (m : BitVec 1) (h : BitVec 2) : Statement (.rolImm d a n m h) :=
  fun hw rest => decodeWords_one rest 0x01 (packRr_majorOp _ _ _ _ _ _) (by decide) (by decide)
    (by rw [decodeWord_0x01]; obtain rfl | rfl := bit_cases m <;> rfl)

theorem EncodesBack.addW (d : BitVec 5) (a : BitVec 5) (b : BitVec 5) (h : BitVec 2) : Statement (.addW d a b h) :=
  fun _ rest => decodeWords_one rest 0x01 (packRr_majorOp _ _ _ _ _ _) (by decide) (by decide) (by rw [decodeWord_0x01]; rfl)

theorem EncodesBack.subW (d : BitVec 5) (a : BitVec 5) (b : BitVec 5) (h : BitVec 2) : Statement (.subW d a b h) :=
  fun _ rest => decodeWords_one rest 0x01 (packRr_majorOp _ _ _ _ _ _) (by decide) (by decide) (by rw [decodeWord_0x01]; rfl)

theorem EncodesBack.sllW (d : BitVec 5) (a : BitVec 5) (b : BitVec 5) (h : BitVec 2) : Statement (.sllW d a b h) :=
  fun _ rest => decodeWords_one rest 0x01 (packRr_majorOp _ _ _ _ _ _) (by decide) (by decide) (by rw [decodeWord_0x01]; rfl)

theorem EncodesBack.srlW (d : BitVec 5) (a : BitVec 5) (b : BitVec 5) (h : BitVec 2) : Statement (.srlW d a b h) :=
  fun _ rest => decodeWords_one rest 0x01 (packRr_majorOp _ _ _ _ _ _) (by decide) (by decide) (by rw [decodeWord_0x01]; rfl)

theorem EncodesBack.sraW (d : BitVec 5) (a : BitVec 5) (b : BitVec 5) (h : BitVec 2) : Statement (.sraW d a b h) :=
  fun _ rest => decodeWords_one rest 0x01 (packRr_majorOp _ _ _ _ _ _) (by decide) (by decide) (by rw [decodeWord_0x01]; rfl)

theorem EncodesBack.rolW (d : BitVec 5) (a : BitVec 5) (b : BitVec 5) (h : BitVec 2) : Statement (.rolW d a b h) :=
  fun _ rest => decodeWords_one rest 0x01 (packRr_majorOp _ _ _ _ _ _) (by decide) (by decide) (by rw [decodeWord_0x01]; rfl)

theorem EncodesBack.mulW (d : BitVec 5) (a : BitVec 5) (b : BitVec 5) (h : BitVec 2) : Statement (.mulW d a b h) :=
  fun _ rest => decodeWords_one rest 0x01 (packRr_majorOp _ _ _ _ _ _) (by decide) (by decide) (by rw [decodeWord_0x01]; rfl)

theorem EncodesBack.divW (d : BitVec 5) (a : BitVec 5) (b : BitVec 5) (h : BitVec 2) : Statement (.divW d a b h) :=
  fun _ rest => decodeWords_one rest 0x01 (packRr_majorOp _ _ _ _ _ _) (by decide) (by decide) (by rw [decodeWord_0x01]; rfl)

theorem EncodesBack.divnW (d : BitVec 5) (a : BitVec 5) (b : BitVec 5) (h : BitVec 2) : Statement (.divnW d a b h) :=
  fun _ rest => decodeWords_one rest 0x01 (packRr_majorOp _ _ _ _ _ _) (by decide) (by decide) (by rw [decodeWord_0x01]; rfl)

theorem EncodesBack.remW (d : BitVec 5) (a : BitVec 5) (b : BitVec 5) (h : BitVec 2) : Statement (.remW d a b h) :=
  fun _ rest => decodeWords_one rest 0x01 (packRr_majorOp _ _ _ _ _ _) (by decide) (by decide) (by rw [decodeWord_0x01]; rfl)

theorem EncodesBack.remnW (d : BitVec 5) (a : BitVec 5) (b : BitVec 5) (h : BitVec 2) : Statement (.remnW d a b h) :=
  fun _ rest => decodeWords_one rest 0x01 (packRr_majorOp _ _ _ _ _ _) (by decide) (by decide) (by rw [decodeWord_0x01]; rfl)

theorem EncodesBack.sllWImm (d : BitVec 5) (a : BitVec 5) (n : BitVec 5) (h : BitVec 2) : Statement (.sllWImm d a n h) :=
  fun _ rest => decodeWords_one rest 0x01 (packRr_majorOp _ _ _ _ _ _) (by decide) (by decide) (by rw [decodeWord_0x01]; rfl)

theorem EncodesBack.srlWImm (d : BitVec 5) (a : BitVec 5) (n : BitVec 5) (h : BitVec 2) : Statement (.srlWImm d a n h) :=
  fun _ rest => decodeWords_one rest 0x01 (packRr_majorOp _ _ _ _ _ _) (by decide) (by decide) (by rw [decodeWord_0x01]; rfl)

theorem EncodesBack.sraWImm (d : BitVec 5) (a : BitVec 5) (n : BitVec 5) (h : BitVec 2) : Statement (.sraWImm d a n h) :=
  fun _ rest => decodeWords_one rest 0x01 (packRr_majorOp _ _ _ _ _ _) (by decide) (by decide) (by rw [decodeWord_0x01]; rfl)

theorem EncodesBack.rolWImm (d : BitVec 5) (a : BitVec 5) (n : BitVec 5) (h : BitVec 2) : Statement (.rolWImm d a n h) :=
  fun _ rest => decodeWords_one rest 0x01 (packRr_majorOp _ _ _ _ _ _) (by decide) (by decide) (by rw [decodeWord_0x01]; rfl)

theorem EncodesBack.addImm (d : BitVec 5) (a : BitVec 5) (imm : BitVec 14) (h : BitVec 2) : Statement (.addImm d a imm h) :=
  fun _ rest => decodeWords_one rest 0x02 (packRi_majorOp _ _ _ _ _) (by decide) (by decide) (by rw [decodeWord_0x02]; rfl)

theorem EncodesBack.andImm (d : BitVec 5) (a : BitVec 5) (imm : BitVec 14) (h : BitVec 2) : Statement (.andImm d a imm h) :=
  fun _ rest => decodeWords_one rest 0x03 (packRi_majorOp _ _ _ _ _) (by decide) (by decide) (by rw [decodeWord_0x03]; rfl)

theorem EncodesBack.orImm (d : BitVec 5) (a : BitVec 5) (imm : BitVec 14) (h : BitVec 2) : Statement (.orImm d a imm h) :=
  fun _ rest => decodeWords_one rest 0x04 (packRi_majorOp _ _ _ _ _) (by decide) (by decide) (by rw [decodeWord_0x04]; rfl)

theorem EncodesBack.xorImm (d : BitVec 5) (a : BitVec 5) (imm : BitVec 14) (h : BitVec 2) : Statement (.xorImm d a imm h) :=
  fun _ rest => decodeWords_one rest 0x05 (packRi_majorOp _ _ _ _ _) (by decide) (by decide) (by rw [decodeWord_0x05]; rfl)

theorem EncodesBack.cmpLtImm (d : BitVec 5) (a : BitVec 5) (imm : BitVec 14) (h : BitVec 2) : Statement (.cmpLtImm d a imm h) :=
  fun _ rest => decodeWords_one rest 0x06 (packRi_majorOp _ _ _ _ _) (by decide) (by decide) (by rw [decodeWord_0x06]; rfl)

theorem EncodesBack.cmpLtnImm (d : BitVec 5) (a : BitVec 5) (imm : BitVec 14) (h : BitVec 2) : Statement (.cmpLtnImm d a imm h) :=
  fun _ rest => decodeWords_one rest 0x07 (packRi_majorOp _ _ _ _ _) (by decide) (by decide) (by rw [decodeWord_0x07]; rfl)

theorem EncodesBack.fadd (d : BitVec 5) (a : BitVec 5) (b : BitVec 5) (r : BitVec 2) (h : BitVec 2) : Statement (.fadd d a b r h) :=
  fun _ rest => decodeWords_one rest 0x08 (packRrR_majorOp _ _ _ _ _ _ _) (by decide) (by decide) (by rw [decodeWord_0x08]; rfl)

theorem EncodesBack.fsub (d : BitVec 5) (a : BitVec 5) (b : BitVec 5) (r : BitVec 2) (h : BitVec 2) : Statement (.fsub d a b r h) :=
  fun _ rest => decodeWords_one rest 0x08 (packRrR_majorOp _ _ _ _ _ _ _) (by decide) (by decide) (by rw [decodeWord_0x08]; rfl)

theorem EncodesBack.fmul (d : BitVec 5) (a : BitVec 5) (b : BitVec 5) (r : BitVec 2) (h : BitVec 2) : Statement (.fmul d a b r h) :=
  fun _ rest => decodeWords_one rest 0x08 (packRrR_majorOp _ _ _ _ _ _ _) (by decide) (by decide) (by rw [decodeWord_0x08]; rfl)

theorem EncodesBack.fdiv (d : BitVec 5) (a : BitVec 5) (b : BitVec 5) (r : BitVec 2) (h : BitVec 2) : Statement (.fdiv d a b r h) :=
  fun _ rest => decodeWords_one rest 0x08 (packRrR_majorOp _ _ _ _ _ _ _) (by decide) (by decide) (by rw [decodeWord_0x08]; rfl)

theorem EncodesBack.fma (d : BitVec 5) (a : BitVec 5) (b : BitVec 5) (r : BitVec 2) (h : BitVec 2) : Statement (.fma d a b r h) :=
  fun _ rest => decodeWords_one rest 0x08 (packRrR_majorOp _ _ _ _ _ _ _) (by decide) (by decide) (by rw [decodeWord_0x08]; rfl)

theorem EncodesBack.fnma (d : BitVec 5) (a : BitVec 5) (b : BitVec 5) (r : BitVec 2) (h : BitVec 2) : Statement (.fnma d a b r h) :=
  fun _ rest => decodeWords_one rest 0x08 (packRrR_majorOp _ _ _ _ _ _ _) (by decide) (by decide) (by rw [decodeWord_0x08]; rfl)

theorem EncodesBack.fsqrt (d : BitVec 5) (a : BitVec 5) (r : BitVec 2) (h : BitVec 2) : Statement (.fsqrt d a r h) :=
  fun _ rest => decodeWords_one rest 0x08 (packRrR_majorOp _ _ _ _ _ _ _) (by decide) (by decide) (by rw [decodeWord_0x08]; rfl)

theorem EncodesBack.fmin (d : BitVec 5) (a : BitVec 5) (b : BitVec 5) (h : BitVec 2) : Statement (.fmin d a b h) :=
  fun _ rest => decodeWords_one rest 0x08 (packRrR_majorOp _ _ _ _ _ _ _) (by decide) (by decide) (by rw [decodeWord_0x08]; rfl)

theorem EncodesBack.fmax (d : BitVec 5) (a : BitVec 5) (b : BitVec 5) (h : BitVec 2) : Statement (.fmax d a b h) :=
  fun _ rest => decodeWords_one rest 0x08 (packRrR_majorOp _ _ _ _ _ _ _) (by decide) (by decide) (by rw [decodeWord_0x08]; rfl)

theorem EncodesBack.fabs (d : BitVec 5) (a : BitVec 5) (h : BitVec 2) : Statement (.fabs d a h) :=
  fun _ rest => decodeWords_one rest 0x08 (packRrR_majorOp _ _ _ _ _ _ _) (by decide) (by decide) (by rw [decodeWord_0x08]; rfl)

theorem EncodesBack.fneg (d : BitVec 5) (a : BitVec 5) (h : BitVec 2) : Statement (.fneg d a h) :=
  fun _ rest => decodeWords_one rest 0x08 (packRrR_majorOp _ _ _ _ _ _ _) (by decide) (by decide) (by rw [decodeWord_0x08]; rfl)

theorem EncodesBack.fcmpEq (d : BitVec 5) (a : BitVec 5) (b : BitVec 5) (h : BitVec 2) : Statement (.fcmpEq d a b h) :=
  fun _ rest => decodeWords_one rest 0x08 (packRrR_majorOp _ _ _ _ _ _ _) (by decide) (by decide) (by rw [decodeWord_0x08]; rfl)

theorem EncodesBack.fcmpLt (d : BitVec 5) (a : BitVec 5) (b : BitVec 5) (h : BitVec 2) : Statement (.fcmpLt d a b h) :=
  fun _ rest => decodeWords_one rest 0x08 (packRrR_majorOp _ _ _ _ _ _ _) (by decide) (by decide) (by rw [decodeWord_0x08]; rfl)

theorem EncodesBack.fcmpLe (d : BitVec 5) (a : BitVec 5) (b : BitVec 5) (h : BitVec 2) : Statement (.fcmpLe d a b h) :=
  fun _ rest => decodeWords_one rest 0x08 (packRrR_majorOp _ _ _ _ _ _ _) (by decide) (by decide) (by rw [decodeWord_0x08]; rfl)

theorem EncodesBack.fcmpUn (d : BitVec 5) (a : BitVec 5) (b : BitVec 5) (h : BitVec 2) : Statement (.fcmpUn d a b h) :=
  fun _ rest => decodeWords_one rest 0x08 (packRrR_majorOp _ _ _ _ _ _ _) (by decide) (by decide) (by rw [decodeWord_0x08]; rfl)

theorem EncodesBack.fcvtI32F (d : BitVec 5) (a : BitVec 5) (r : BitVec 2) (h : BitVec 2) : Statement (.fcvtI32F d a r h) :=
  fun _ rest => decodeWords_one rest 0x08 (packRrR_majorOp _ _ _ _ _ _ _) (by decide) (by decide) (by rw [decodeWord_0x08]; rfl)

theorem EncodesBack.fcvtI64F (d : BitVec 5) (a : BitVec 5) (r : BitVec 2) (h : BitVec 2) : Statement (.fcvtI64F d a r h) :=
  fun _ rest => decodeWords_one rest 0x08 (packRrR_majorOp _ _ _ _ _ _ _) (by decide) (by decide) (by rw [decodeWord_0x08]; rfl)

theorem EncodesBack.fcvtN32F (d : BitVec 5) (a : BitVec 5) (r : BitVec 2) (h : BitVec 2) : Statement (.fcvtN32F d a r h) :=
  fun _ rest => decodeWords_one rest 0x08 (packRrR_majorOp _ _ _ _ _ _ _) (by decide) (by decide) (by rw [decodeWord_0x08]; rfl)

theorem EncodesBack.fcvtN64F (d : BitVec 5) (a : BitVec 5) (r : BitVec 2) (h : BitVec 2) : Statement (.fcvtN64F d a r h) :=
  fun _ rest => decodeWords_one rest 0x08 (packRrR_majorOp _ _ _ _ _ _ _) (by decide) (by decide) (by rw [decodeWord_0x08]; rfl)

theorem EncodesBack.fcvtFI32 (d : BitVec 5) (a : BitVec 5) (r : BitVec 2) (h : BitVec 2) : Statement (.fcvtFI32 d a r h) :=
  fun _ rest => decodeWords_one rest 0x08 (packRrR_majorOp _ _ _ _ _ _ _) (by decide) (by decide) (by rw [decodeWord_0x08]; rfl)

theorem EncodesBack.fcvtFI64 (d : BitVec 5) (a : BitVec 5) (r : BitVec 2) (h : BitVec 2) : Statement (.fcvtFI64 d a r h) :=
  fun _ rest => decodeWords_one rest 0x08 (packRrR_majorOp _ _ _ _ _ _ _) (by decide) (by decide) (by rw [decodeWord_0x08]; rfl)

theorem EncodesBack.fcvtFN32 (d : BitVec 5) (a : BitVec 5) (r : BitVec 2) (h : BitVec 2) : Statement (.fcvtFN32 d a r h) :=
  fun _ rest => decodeWords_one rest 0x08 (packRrR_majorOp _ _ _ _ _ _ _) (by decide) (by decide) (by rw [decodeWord_0x08]; rfl)

theorem EncodesBack.fcvtFN64 (d : BitVec 5) (a : BitVec 5) (r : BitVec 2) (h : BitVec 2) : Statement (.fcvtFN64 d a r h) :=
  fun _ rest => decodeWords_one rest 0x08 (packRrR_majorOp _ _ _ _ _ _ _) (by decide) (by decide) (by rw [decodeWord_0x08]; rfl)

theorem EncodesBack.fmov (d : BitVec 5) (imm : BitVec 20) : Statement (.fmov d imm) :=
  fun _ rest => decodeWords_one rest 0x09 (packFi_majorOp _ _ _ _) (by decide) (by decide) (by rw [decodeWord_0x09]; rfl)

theorem EncodesBack.faddK (d : BitVec 5) (a : BitVec 5) (k : BitVec 8) (h : BitVec 2) : Statement (.faddK d a k h) :=
  fun _ rest => decodeWords_one rest 0x0A (packRiK_majorOp _ _ _ _ _ _) (by decide) (by decide) (by rw [decodeWord_0x0A]; rfl)

theorem EncodesBack.fsubK (d : BitVec 5) (a : BitVec 5) (k : BitVec 8) (h : BitVec 2) : Statement (.fsubK d a k h) :=
  fun _ rest => decodeWords_one rest 0x0A (packRiK_majorOp _ _ _ _ _ _) (by decide) (by decide) (by rw [decodeWord_0x0A]; rfl)

theorem EncodesBack.fmulK (d : BitVec 5) (a : BitVec 5) (k : BitVec 8) (h : BitVec 2) : Statement (.fmulK d a k h) :=
  fun _ rest => decodeWords_one rest 0x0A (packRiK_majorOp _ _ _ _ _ _) (by decide) (by decide) (by rw [decodeWord_0x0A]; rfl)

theorem EncodesBack.fmaK (d : BitVec 5) (a : BitVec 5) (k : BitVec 8) (h : BitVec 2) : Statement (.fmaK d a k h) :=
  fun _ rest => decodeWords_one rest 0x0A (packRiK_majorOp _ _ _ _ _ _) (by decide) (by decide) (by rw [decodeWord_0x0A]; rfl)

theorem EncodesBack.fnmaK (d : BitVec 5) (a : BitVec 5) (k : BitVec 8) (h : BitVec 2) : Statement (.fnmaK d a k h) :=
  fun _ rest => decodeWords_one rest 0x0A (packRiK_majorOp _ _ _ _ _ _) (by decide) (by decide) (by rw [decodeWord_0x0A]; rfl)

theorem EncodesBack.fminK (d : BitVec 5) (a : BitVec 5) (k : BitVec 8) (h : BitVec 2) : Statement (.fminK d a k h) :=
  fun _ rest => decodeWords_one rest 0x0A (packRiK_majorOp _ _ _ _ _ _) (by decide) (by decide) (by rw [decodeWord_0x0A]; rfl)

theorem EncodesBack.fmaxK (d : BitVec 5) (a : BitVec 5) (k : BitVec 8) (h : BitVec 2) : Statement (.fmaxK d a k h) :=
  fun _ rest => decodeWords_one rest 0x0A (packRiK_majorOp _ _ _ _ _ _) (by decide) (by decide) (by rw [decodeWord_0x0A]; rfl)

theorem EncodesBack.fmovK (d : BitVec 5) (k : BitVec 8) (h : BitVec 2) : Statement (.fmovK d k h) :=
  fun _ rest => decodeWords_one rest 0x0A (packRiK_majorOp _ _ _ _ _ _) (by decide) (by decide) (by rw [decodeWord_0x0A]; rfl)

theorem EncodesBack.addK (d : BitVec 5) (a : BitVec 5) (k : BitVec 8) (h : BitVec 2) : Statement (.addK d a k h) :=
  fun _ rest => decodeWords_one rest 0x0A (packRiK_majorOp _ _ _ _ _ _) (by decide) (by decide) (by rw [decodeWord_0x0A]; rfl)

theorem EncodesBack.andK (d : BitVec 5) (a : BitVec 5) (k : BitVec 8) (h : BitVec 2) : Statement (.andK d a k h) :=
  fun _ rest => decodeWords_one rest 0x0A (packRiK_majorOp _ _ _ _ _ _) (by decide) (by decide) (by rw [decodeWord_0x0A]; rfl)

theorem EncodesBack.orK (d : BitVec 5) (a : BitVec 5) (k : BitVec 8) (h : BitVec 2) : Statement (.orK d a k h) :=
  fun _ rest => decodeWords_one rest 0x0A (packRiK_majorOp _ _ _ _ _ _) (by decide) (by decide) (by rw [decodeWord_0x0A]; rfl)

theorem EncodesBack.xorK (d : BitVec 5) (a : BitVec 5) (k : BitVec 8) (h : BitVec 2) : Statement (.xorK d a k h) :=
  fun _ rest => decodeWords_one rest 0x0A (packRiK_majorOp _ _ _ _ _ _) (by decide) (by decide) (by rw [decodeWord_0x0A]; rfl)

theorem EncodesBack.movK (d : BitVec 5) (k : BitVec 8) (h : BitVec 2) : Statement (.movK d k h) :=
  fun _ rest => decodeWords_one rest 0x0A (packRiK_majorOp _ _ _ _ _ _) (by decide) (by decide) (by rw [decodeWord_0x0A]; rfl)

theorem EncodesBack.movnK (d : BitVec 5) (k : BitVec 8) (h : BitVec 2) : Statement (.movnK d k h) :=
  fun _ rest => decodeWords_one rest 0x0A (packRiK_majorOp _ _ _ _ _ _) (by decide) (by decide) (by rw [decodeWord_0x0A]; rfl)

theorem EncodesBack.cmpEqK (d : BitVec 5) (a : BitVec 5) (k : BitVec 8) (h : BitVec 2) : Statement (.cmpEqK d a k h) :=
  fun _ rest => decodeWords_one rest 0x0A (packRiK_majorOp _ _ _ _ _ _) (by decide) (by decide) (by rw [decodeWord_0x0A]; rfl)

theorem EncodesBack.cmpLtK (d : BitVec 5) (a : BitVec 5) (k : BitVec 8) (h : BitVec 2) : Statement (.cmpLtK d a k h) :=
  fun _ rest => decodeWords_one rest 0x0A (packRiK_majorOp _ _ _ _ _ _) (by decide) (by decide) (by rw [decodeWord_0x0A]; rfl)

theorem EncodesBack.faddLit (d : BitVec 5) (a : BitVec 5) (k : BitVec 32) (h : BitVec 2) : Statement (.faddLit d a k h) :=
  fun _ rest => decodeWords_two rest (packRiK_majorOp _ _ _ _ _ _) (by rw [decodeWord_0x0E]; rfl)

theorem EncodesBack.fsubLit (d : BitVec 5) (a : BitVec 5) (k : BitVec 32) (h : BitVec 2) : Statement (.fsubLit d a k h) :=
  fun _ rest => decodeWords_two rest (packRiK_majorOp _ _ _ _ _ _) (by rw [decodeWord_0x0E]; rfl)

theorem EncodesBack.fmulLit (d : BitVec 5) (a : BitVec 5) (k : BitVec 32) (h : BitVec 2) : Statement (.fmulLit d a k h) :=
  fun _ rest => decodeWords_two rest (packRiK_majorOp _ _ _ _ _ _) (by rw [decodeWord_0x0E]; rfl)

theorem EncodesBack.fmaLit (d : BitVec 5) (a : BitVec 5) (k : BitVec 32) (h : BitVec 2) : Statement (.fmaLit d a k h) :=
  fun _ rest => decodeWords_two rest (packRiK_majorOp _ _ _ _ _ _) (by rw [decodeWord_0x0E]; rfl)

theorem EncodesBack.fnmaLit (d : BitVec 5) (a : BitVec 5) (k : BitVec 32) (h : BitVec 2) : Statement (.fnmaLit d a k h) :=
  fun _ rest => decodeWords_two rest (packRiK_majorOp _ _ _ _ _ _) (by rw [decodeWord_0x0E]; rfl)

theorem EncodesBack.fminLit (d : BitVec 5) (a : BitVec 5) (k : BitVec 32) (h : BitVec 2) : Statement (.fminLit d a k h) :=
  fun _ rest => decodeWords_two rest (packRiK_majorOp _ _ _ _ _ _) (by rw [decodeWord_0x0E]; rfl)

theorem EncodesBack.fmaxLit (d : BitVec 5) (a : BitVec 5) (k : BitVec 32) (h : BitVec 2) : Statement (.fmaxLit d a k h) :=
  fun _ rest => decodeWords_two rest (packRiK_majorOp _ _ _ _ _ _) (by rw [decodeWord_0x0E]; rfl)

theorem EncodesBack.fmovLit (d : BitVec 5) (k : BitVec 32) (h : BitVec 2) : Statement (.fmovLit d k h) :=
  fun _ rest => decodeWords_two rest (packRiK_majorOp _ _ _ _ _ _) (by rw [decodeWord_0x0E]; rfl)

theorem EncodesBack.addLit (d : BitVec 5) (a : BitVec 5) (k : BitVec 32) (h : BitVec 2) : Statement (.addLit d a k h) :=
  fun _ rest => decodeWords_two rest (packRiK_majorOp _ _ _ _ _ _) (by rw [decodeWord_0x0E]; rfl)

theorem EncodesBack.andLit (d : BitVec 5) (a : BitVec 5) (k : BitVec 32) (h : BitVec 2) : Statement (.andLit d a k h) :=
  fun _ rest => decodeWords_two rest (packRiK_majorOp _ _ _ _ _ _) (by rw [decodeWord_0x0E]; rfl)

theorem EncodesBack.orLit (d : BitVec 5) (a : BitVec 5) (k : BitVec 32) (h : BitVec 2) : Statement (.orLit d a k h) :=
  fun _ rest => decodeWords_two rest (packRiK_majorOp _ _ _ _ _ _) (by rw [decodeWord_0x0E]; rfl)

theorem EncodesBack.xorLit (d : BitVec 5) (a : BitVec 5) (k : BitVec 32) (h : BitVec 2) : Statement (.xorLit d a k h) :=
  fun _ rest => decodeWords_two rest (packRiK_majorOp _ _ _ _ _ _) (by rw [decodeWord_0x0E]; rfl)

theorem EncodesBack.movLit (d : BitVec 5) (k : BitVec 32) (h : BitVec 2) : Statement (.movLit d k h) :=
  fun _ rest => decodeWords_two rest (packRiK_majorOp _ _ _ _ _ _) (by rw [decodeWord_0x0E]; rfl)

theorem EncodesBack.movnLit (d : BitVec 5) (k : BitVec 32) (h : BitVec 2) : Statement (.movnLit d k h) :=
  fun _ rest => decodeWords_two rest (packRiK_majorOp _ _ _ _ _ _) (by rw [decodeWord_0x0E]; rfl)

theorem EncodesBack.cmpEqLit (d : BitVec 5) (a : BitVec 5) (k : BitVec 32) (h : BitVec 2) : Statement (.cmpEqLit d a k h) :=
  fun _ rest => decodeWords_two rest (packRiK_majorOp _ _ _ _ _ _) (by rw [decodeWord_0x0E]; rfl)

theorem EncodesBack.cmpLtLit (d : BitVec 5) (a : BitVec 5) (k : BitVec 32) (h : BitVec 2) : Statement (.cmpLtLit d a k h) :=
  fun _ rest => decodeWords_two rest (packRiK_majorOp _ _ _ _ _ _) (by rw [decodeWord_0x0E]; rfl)

theorem EncodesBack.beqz (a : BitVec 5) (imm : BitVec 14) (h : BitVec 2) : Statement (.beqz a imm h) :=
  fun _ rest => decodeWords_one rest 0x10 (packCb_majorOp _ _ _ _ _) (by decide) (by decide) (by rw [decodeWord_0x10]; rfl)

theorem EncodesBack.bnez (a : BitVec 5) (imm : BitVec 14) (h : BitVec 2) : Statement (.bnez a imm h) :=
  fun _ rest => decodeWords_one rest 0x10 (packCb_majorOp _ _ _ _ _) (by decide) (by decide) (by rw [decodeWord_0x10]; rfl)

theorem EncodesBack.bltz (a : BitVec 5) (imm : BitVec 14) (h : BitVec 2) : Statement (.bltz a imm h) :=
  fun _ rest => decodeWords_one rest 0x10 (packCb_majorOp _ _ _ _ _) (by decide) (by decide) (by rw [decodeWord_0x10]; rfl)

theorem EncodesBack.bgez (a : BitVec 5) (imm : BitVec 14) (h : BitVec 2) : Statement (.bgez a imm h) :=
  fun _ rest => decodeWords_one rest 0x10 (packCb_majorOp _ _ _ _ _) (by decide) (by decide) (by rw [decodeWord_0x10]; rfl)

theorem EncodesBack.bgtz (a : BitVec 5) (imm : BitVec 14) (h : BitVec 2) : Statement (.bgtz a imm h) :=
  fun _ rest => decodeWords_one rest 0x10 (packCb_majorOp _ _ _ _ _) (by decide) (by decide) (by rw [decodeWord_0x10]; rfl)

theorem EncodesBack.blez (a : BitVec 5) (imm : BitVec 14) (h : BitVec 2) : Statement (.blez a imm h) :=
  fun _ rest => decodeWords_one rest 0x10 (packCb_majorOp _ _ _ _ _) (by decide) (by decide) (by rw [decodeWord_0x10]; rfl)

theorem EncodesBack.bany (p : BitVec 3) (imm : BitVec 14) (h : BitVec 2) : Statement (.bany p imm h) :=
  fun hw rest => decodeWords_one rest 0x10 (packCb_majorOp _ _ _ _ _) (by decide) (by decide)
    (by rw [decodeWord_0x10]; exact (if_pos (by simp; try omega)).trans (by simp))

theorem EncodesBack.ball (p : BitVec 3) (imm : BitVec 14) (h : BitVec 2) : Statement (.ball p imm h) :=
  fun hw rest => decodeWords_one rest 0x10 (packCb_majorOp _ _ _ _ _) (by decide) (by decide)
    (by rw [decodeWord_0x10]; exact (if_pos (by simp; try omega)).trans (by simp))

theorem EncodesBack.bnone (p : BitVec 3) (imm : BitVec 14) (h : BitVec 2) : Statement (.bnone p imm h) :=
  fun hw rest => decodeWords_one rest 0x10 (packCb_majorOp _ _ _ _ _) (by decide) (by decide)
    (by rw [decodeWord_0x10]; exact (if_pos (by simp; try omega)).trans (by simp))

theorem EncodesBack.j (imm : BitVec 19) (h : BitVec 2) : Statement (.j imm h) :=
  fun _ rest => decodeWords_one rest 0x11 (packLb_majorOp _ _ _ _) (by decide) (by decide) (by rw [decodeWord_0x11]; rfl)

theorem EncodesBack.call (l : BitVec 5) (imm : BitVec 19) (h : BitVec 2) : Statement (.call l imm h) :=
  fun _ rest => decodeWords_one rest 0x12 (packLb_majorOp _ _ _ _) (by decide) (by decide) (by rw [decodeWord_0x12]; rfl)

theorem EncodesBack.jr (a : BitVec 5) (h : BitVec 2) : Statement (.jr a h) :=
  fun _ rest => decodeWords_one rest 0x13 (packRr_majorOp _ _ _ _ _ _) (by decide) (by decide) (by rw [decodeWord_0x13]; rfl)

theorem EncodesBack.callr (d : BitVec 5) (a : BitVec 5) (h : BitVec 2) : Statement (.callr d a h) :=
  fun _ rest => decodeWords_one rest 0x13 (packRr_majorOp _ _ _ _ _ _) (by decide) (by decide) (by rw [decodeWord_0x13]; rfl)

theorem EncodesBack.loop (n : BitVec 5) (a : BitVec 5) (m : BitVec 14) (h : BitVec 2) : Statement (.loop n a m h) :=
  fun hw rest => decodeWords_one rest 0x14 (packRi_majorOp _ _ _ _ _) (by decide) (by decide)
    (by rw [decodeWord_0x14]; exact if_pos (by simpa [Instr.wf] using hw))

theorem EncodesBack.loopi (n : BitVec 5) (c : BitVec 5) (m : BitVec 14) (h : BitVec 2) : Statement (.loopi n c m h) :=
  fun hw rest => decodeWords_one rest 0x15 (packRi_majorOp _ _ _ _ _) (by decide) (by decide)
    (by rw [decodeWord_0x15]; exact if_pos (by simpa [Instr.wf] using hw))

theorem EncodesBack.nop (h : BitVec 2) : Statement (.nop h) :=
  fun _ rest => decodeWords_one rest 0x16 (packRr_majorOp _ _ _ _ _ _) (by decide) (by decide) (by rw [decodeWord_0x16]; rfl)

theorem EncodesBack.ldL (d : BitVec 5) (b : BitVec 5) (o : BitVec 11) (z : BitVec 2) (h : BitVec 2) : Statement (.ldL d b o z h) :=
  fun _ rest => decodeWords_one rest 0x18 (packMm_majorOp _ _ _ _ _ _ _) (by decide) (by decide) (by rw [decodeWord_0x18]; rfl)

theorem EncodesBack.stL (d : BitVec 5) (b : BitVec 5) (o : BitVec 11) (z : BitVec 2) (h : BitVec 2) : Statement (.stL d b o z h) :=
  fun _ rest => decodeWords_one rest 0x19 (packMm_majorOp _ _ _ _ _ _ _) (by decide) (by decide) (by rw [decodeWord_0x19]; rfl)

theorem EncodesBack.ldS (d : BitVec 5) (b : BitVec 5) (o : BitVec 11) (z : BitVec 2) (r : BitVec 1) (h : BitVec 2) : Statement (.ldS d b o z r h) :=
  fun _ rest => decodeWords_one rest 0x1A (packMm_majorOp _ _ _ _ _ _ _) (by decide) (by decide) (by rw [decodeWord_0x1A]; rfl)

theorem EncodesBack.stS (d : BitVec 5) (b : BitVec 5) (o : BitVec 11) (z : BitVec 2) (r : BitVec 1) (h : BitVec 2) : Statement (.stS d b o z r h) :=
  fun _ rest => decodeWords_one rest 0x1B (packMm_majorOp _ _ _ _ _ _ _) (by decide) (by decide) (by rw [decodeWord_0x1B]; rfl)

theorem EncodesBack.ldG (d : BitVec 5) (b : BitVec 5) (o : BitVec 11) (z : BitVec 2) (r : BitVec 1) (h : BitVec 2) : Statement (.ldG d b o z r h) :=
  fun _ rest => decodeWords_one rest 0x1C (packMm_majorOp _ _ _ _ _ _ _) (by decide) (by decide) (by rw [decodeWord_0x1C]; rfl)

theorem EncodesBack.stG (d : BitVec 5) (b : BitVec 5) (o : BitVec 11) (z : BitVec 2) (r : BitVec 1) (h : BitVec 2) : Statement (.stG d b o z r h) :=
  fun _ rest => decodeWords_one rest 0x1D (packMm_majorOp _ _ _ _ _ _ _) (by decide) (by decide) (by rw [decodeWord_0x1D]; rfl)

theorem EncodesBack.vldL (v : BitVec 5) (a : BitVec 5) (b : BitVec 5) (p : BitVec 3) (h : BitVec 2) : Statement (.vldL v a b p h) :=
  fun _ rest => decodeWords_one rest 0x1E (packVvM_majorOp _ _ _ _ _ _ _ _ _) (by decide) (by decide) (by rw [decodeWord_0x1E]; rfl)

theorem EncodesBack.vstL (v : BitVec 5) (a : BitVec 5) (b : BitVec 5) (p : BitVec 3) (h : BitVec 2) : Statement (.vstL v a b p h) :=
  fun _ rest => decodeWords_one rest 0x1E (packVvM_majorOp _ _ _ _ _ _ _ _ _) (by decide) (by decide) (by rw [decodeWord_0x1E]; rfl)

theorem EncodesBack.vldS (v : BitVec 5) (a : BitVec 5) (b : BitVec 5) (p : BitVec 3) (r : BitVec 1) (h : BitVec 2) : Statement (.vldS v a b p r h) :=
  fun _ rest => decodeWords_one rest 0x1E (packVvM_majorOp _ _ _ _ _ _ _ _ _) (by decide) (by decide) (by rw [decodeWord_0x1E]; rfl)

theorem EncodesBack.vstS (v : BitVec 5) (a : BitVec 5) (b : BitVec 5) (p : BitVec 3) (r : BitVec 1) (h : BitVec 2) : Statement (.vstS v a b p r h) :=
  fun _ rest => decodeWords_one rest 0x1E (packVvM_majorOp _ _ _ _ _ _ _ _ _) (by decide) (by decide) (by rw [decodeWord_0x1E]; rfl)

theorem EncodesBack.vldG (v : BitVec 5) (a : BitVec 5) (b : BitVec 5) (p : BitVec 3) (r : BitVec 1) (h : BitVec 2) : Statement (.vldG v a b p r h) :=
  fun _ rest => decodeWords_one rest 0x1E (packVvM_majorOp _ _ _ _ _ _ _ _ _) (by decide) (by decide) (by rw [decodeWord_0x1E]; rfl)

theorem EncodesBack.vstG (v : BitVec 5) (a : BitVec 5) (b : BitVec 5) (p : BitVec 3) (r : BitVec 1) (t : BitVec 1) (h : BitVec 2) : Statement (.vstG v a b p r t h) :=
  fun _ rest => decodeWords_one rest 0x1E (packVvM_majorOp _ _ _ _ _ _ _ _ _) (by decide) (by decide) (by rw [decodeWord_0x1E]; rfl)

theorem EncodesBack.vgthS (v : BitVec 5) (a : BitVec 5) (b : BitVec 5) (p : BitVec 3) (r : BitVec 1) (h : BitVec 2) : Statement (.vgthS v a b p r h) :=
  fun _ rest => decodeWords_one rest 0x1E (packVvM_majorOp _ _ _ _ _ _ _ _ _) (by decide) (by decide) (by rw [decodeWord_0x1E]; rfl)

theorem EncodesBack.vsctS (v : BitVec 5) (a : BitVec 5) (b : BitVec 5) (p : BitVec 3) (r : BitVec 1) (h : BitVec 2) : Statement (.vsctS v a b p r h) :=
  fun _ rest => decodeWords_one rest 0x1E (packVvM_majorOp _ _ _ _ _ _ _ _ _) (by decide) (by decide) (by rw [decodeWord_0x1E]; rfl)

theorem EncodesBack.vgthG (v : BitVec 5) (a : BitVec 5) (b : BitVec 5) (p : BitVec 3) (r : BitVec 1) (h : BitVec 2) : Statement (.vgthG v a b p r h) :=
  fun _ rest => decodeWords_one rest 0x1E (packVvM_majorOp _ _ _ _ _ _ _ _ _) (by decide) (by decide) (by rw [decodeWord_0x1E]; rfl)

theorem EncodesBack.vsctG (v : BitVec 5) (a : BitVec 5) (b : BitVec 5) (p : BitVec 3) (r : BitVec 1) (t : BitVec 1) (h : BitVec 2) : Statement (.vsctG v a b p r t h) :=
  fun _ rest => decodeWords_one rest 0x1E (packVvM_majorOp _ _ _ _ _ _ _ _ _) (by decide) (by decide) (by rw [decodeWord_0x1E]; rfl)

theorem EncodesBack.pfG (a : BitVec 5) (b : BitVec 5) (h : BitVec 2) : Statement (.pfG a b h) :=
  fun _ rest => decodeWords_one rest 0x1F (packRr_majorOp _ _ _ _ _ _) (by decide) (by decide) (by rw [decodeWord_0x1F]; rfl)

theorem EncodesBack.cwb (a : BitVec 5) (h : BitVec 2) : Statement (.cwb a h) :=
  fun _ rest => decodeWords_one rest 0x1F (packRr_majorOp _ _ _ _ _ _) (by decide) (by decide) (by rw [decodeWord_0x1F]; rfl)

theorem EncodesBack.cinv (a : BitVec 5) (h : BitVec 2) : Statement (.cinv a h) :=
  fun _ rest => decodeWords_one rest 0x1F (packRr_majorOp _ _ _ _ _ _) (by decide) (by decide) (by rw [decodeWord_0x1F]; rfl)

theorem EncodesBack.cwbi (a : BitVec 5) (h : BitVec 2) : Statement (.cwbi a h) :=
  fun _ rest => decodeWords_one rest 0x1F (packRr_majorOp _ _ _ _ _ _) (by decide) (by decide) (by rw [decodeWord_0x1F]; rfl)

theorem EncodesBack.bankcfg (a : BitVec 5) (b : BitVec 5) (h : BitVec 2) : Statement (.bankcfg a b h) :=
  fun _ rest => decodeWords_one rest 0x1F (packRr_majorOp _ _ _ _ _ _) (by decide) (by decide) (by rw [decodeWord_0x1F]; rfl)

theorem EncodesBack.bankSwitch (tile bank : Nat) : Statement (.bankSwitch tile bank) :=
  fun h => absurd h Bool.false_ne_true

theorem EncodesBack.stGBNt (a : BitVec 5) (b : BitVec 5) (h : BitVec 2) : Statement (.stGBNt a b h) :=
  fun _ rest => decodeWords_one rest 0x1F (packRr_majorOp _ _ _ _ _ _) (by decide) (by decide) (by rw [decodeWord_0x1F]; rfl)

theorem EncodesBack.stGHNt (a : BitVec 5) (b : BitVec 5) (h : BitVec 2) : Statement (.stGHNt a b h) :=
  fun _ rest => decodeWords_one rest 0x1F (packRr_majorOp _ _ _ _ _ _) (by decide) (by decide) (by rw [decodeWord_0x1F]; rfl)

theorem EncodesBack.stGWNt (a : BitVec 5) (b : BitVec 5) (h : BitVec 2) : Statement (.stGWNt a b h) :=
  fun _ rest => decodeWords_one rest 0x1F (packRr_majorOp _ _ _ _ _ _) (by decide) (by decide) (by rw [decodeWord_0x1F]; rfl)

theorem EncodesBack.stGDNt (a : BitVec 5) (b : BitVec 5) (h : BitVec 2) : Statement (.stGDNt a b h) :=
  fun _ rest => decodeWords_one rest 0x1F (packRr_majorOp _ _ _ _ _ _) (by decide) (by decide) (by rw [decodeWord_0x1F]; rfl)

theorem EncodesBack.vadd (v : BitVec 5) (a : BitVec 5) (b : BitVec 5) (p : BitVec 3) (r : BitVec 2) (h : BitVec 2) : Statement (.vadd v a b p r h) :=
  fun _ rest => decodeWords_one rest 0x20 (packVvR_majorOp _ _ _ _ _ _ _ _) (by decide) (by decide) (by rw [decodeWord_0x20]; rfl)

theorem EncodesBack.vsub (v : BitVec 5) (a : BitVec 5) (b : BitVec 5) (p : BitVec 3) (r : BitVec 2) (h : BitVec 2) : Statement (.vsub v a b p r h) :=
  fun _ rest => decodeWords_one rest 0x20 (packVvR_majorOp _ _ _ _ _ _ _ _) (by decide) (by decide) (by rw [decodeWord_0x20]; rfl)

theorem EncodesBack.vmul (v : BitVec 5) (a : BitVec 5) (b : BitVec 5) (p : BitVec 3) (r : BitVec 2) (h : BitVec 2) : Statement (.vmul v a b p r h) :=
  fun _ rest => decodeWords_one rest 0x20 (packVvR_majorOp _ _ _ _ _ _ _ _) (by decide) (by decide) (by rw [decodeWord_0x20]; rfl)

theorem EncodesBack.vfma (v : BitVec 5) (a : BitVec 5) (b : BitVec 5) (p : BitVec 3) (r : BitVec 2) (h : BitVec 2) : Statement (.vfma v a b p r h) :=
  fun _ rest => decodeWords_one rest 0x20 (packVvR_majorOp _ _ _ _ _ _ _ _) (by decide) (by decide) (by rw [decodeWord_0x20]; rfl)

theorem EncodesBack.vfnma (v : BitVec 5) (a : BitVec 5) (b : BitVec 5) (p : BitVec 3) (r : BitVec 2) (h : BitVec 2) : Statement (.vfnma v a b p r h) :=
  fun _ rest => decodeWords_one rest 0x20 (packVvR_majorOp _ _ _ _ _ _ _ _) (by decide) (by decide) (by rw [decodeWord_0x20]; rfl)

theorem EncodesBack.vmin (v : BitVec 5) (a : BitVec 5) (b : BitVec 5) (p : BitVec 3) (h : BitVec 2) : Statement (.vmin v a b p h) :=
  fun _ rest => decodeWords_one rest 0x20 (packVvR_majorOp _ _ _ _ _ _ _ _) (by decide) (by decide) (by rw [decodeWord_0x20]; rfl)

theorem EncodesBack.vmax (v : BitVec 5) (a : BitVec 5) (b : BitVec 5) (p : BitVec 3) (h : BitVec 2) : Statement (.vmax v a b p h) :=
  fun _ rest => decodeWords_one rest 0x20 (packVvR_majorOp _ _ _ _ _ _ _ _) (by decide) (by decide) (by rw [decodeWord_0x20]; rfl)

theorem EncodesBack.vabs (v : BitVec 5) (a : BitVec 5) (p : BitVec 3) (h : BitVec 2) : Statement (.vabs v a p h) :=
  fun _ rest => decodeWords_one rest 0x20 (packVvR_majorOp _ _ _ _ _ _ _ _) (by decide) (by decide) (by rw [decodeWord_0x20]; rfl)

theorem EncodesBack.vneg (v : BitVec 5) (a : BitVec 5) (p : BitVec 3) (h : BitVec 2) : Statement (.vneg v a p h) :=
  fun _ rest => decodeWords_one rest 0x20 (packVvR_majorOp _ _ _ _ _ _ _ _) (by decide) (by decide) (by rw [decodeWord_0x20]; rfl)

theorem EncodesBack.vdiv (v : BitVec 5) (a : BitVec 5) (b : BitVec 5) (p : BitVec 3) (r : BitVec 2) (h : BitVec 2) : Statement (.vdiv v a b p r h) :=
  fun _ rest => decodeWords_one rest 0x20 (packVvR_majorOp _ _ _ _ _ _ _ _) (by decide) (by decide) (by rw [decodeWord_0x20]; rfl)

theorem EncodesBack.vsqrt (v : BitVec 5) (a : BitVec 5) (p : BitVec 3) (r : BitVec 2) (h : BitVec 2) : Statement (.vsqrt v a p r h) :=
  fun _ rest => decodeWords_one rest 0x20 (packVvR_majorOp _ _ _ _ _ _ _ _) (by decide) (by decide) (by rw [decodeWord_0x20]; rfl)

theorem EncodesBack.vrcp (v : BitVec 5) (a : BitVec 5) (p : BitVec 3) (h : BitVec 2) : Statement (.vrcp v a p h) :=
  fun _ rest => decodeWords_one rest 0x20 (packVvR_majorOp _ _ _ _ _ _ _ _) (by decide) (by decide) (by rw [decodeWord_0x20]; rfl)

theorem EncodesBack.vrsqrt (v : BitVec 5) (a : BitVec 5) (p : BitVec 3) (h : BitVec 2) : Statement (.vrsqrt v a p h) :=
  fun _ rest => decodeWords_one rest 0x20 (packVvR_majorOp _ _ _ _ _ _ _ _) (by decide) (by decide) (by rw [decodeWord_0x20]; rfl)

theorem EncodesBack.vexp2 (v : BitVec 5) (a : BitVec 5) (p : BitVec 3) (h : BitVec 2) : Statement (.vexp2 v a p h) :=
  fun _ rest => decodeWords_one rest 0x20 (packVvR_majorOp _ _ _ _ _ _ _ _) (by decide) (by decide) (by rw [decodeWord_0x20]; rfl)

theorem EncodesBack.vlog2 (v : BitVec 5) (a : BitVec 5) (p : BitVec 3) (h : BitVec 2) : Statement (.vlog2 v a p h) :=
  fun _ rest => decodeWords_one rest 0x20 (packVvR_majorOp _ _ _ _ _ _ _ _) (by decide) (by decide) (by rw [decodeWord_0x20]; rfl)

theorem EncodesBack.vscale (v : BitVec 5) (a : BitVec 5) (b : BitVec 5) (p : BitVec 3) (r : BitVec 2) (h : BitVec 2) : Statement (.vscale v a b p r h) :=
  fun _ rest => decodeWords_one rest 0x20 (packVvR_majorOp _ _ _ _ _ _ _ _) (by decide) (by decide) (by rw [decodeWord_0x20]; rfl)

theorem EncodesBack.vaddI (v : BitVec 5) (a : BitVec 5) (b : BitVec 5) (p : BitVec 3) (h : BitVec 2) : Statement (.vaddI v a b p h) :=
  fun _ rest => decodeWords_one rest 0x21 (packVv_majorOp _ _ _ _ _ _ _) (by decide) (by decide) (by rw [decodeWord_0x21]; rfl)

theorem EncodesBack.vsubI (v : BitVec 5) (a : BitVec 5) (b : BitVec 5) (p : BitVec 3) (h : BitVec 2) : Statement (.vsubI v a b p h) :=
  fun _ rest => decodeWords_one rest 0x21 (packVv_majorOp _ _ _ _ _ _ _) (by decide) (by decide) (by rw [decodeWord_0x21]; rfl)

theorem EncodesBack.vmulI (v : BitVec 5) (a : BitVec 5) (b : BitVec 5) (p : BitVec 3) (h : BitVec 2) : Statement (.vmulI v a b p h) :=
  fun _ rest => decodeWords_one rest 0x21 (packVv_majorOp _ _ _ _ _ _ _) (by decide) (by decide) (by rw [decodeWord_0x21]; rfl)

theorem EncodesBack.vmlaI (v : BitVec 5) (a : BitVec 5) (b : BitVec 5) (p : BitVec 3) (h : BitVec 2) : Statement (.vmlaI v a b p h) :=
  fun _ rest => decodeWords_one rest 0x21 (packVv_majorOp _ _ _ _ _ _ _) (by decide) (by decide) (by rw [decodeWord_0x21]; rfl)

theorem EncodesBack.vminI (v : BitVec 5) (a : BitVec 5) (b : BitVec 5) (p : BitVec 3) (h : BitVec 2) : Statement (.vminI v a b p h) :=
  fun _ rest => decodeWords_one rest 0x21 (packVv_majorOp _ _ _ _ _ _ _) (by decide) (by decide) (by rw [decodeWord_0x21]; rfl)

theorem EncodesBack.vminN (v : BitVec 5) (a : BitVec 5) (b : BitVec 5) (p : BitVec 3) (h : BitVec 2) : Statement (.vminN v a b p h) :=
  fun _ rest => decodeWords_one rest 0x21 (packVv_majorOp _ _ _ _ _ _ _) (by decide) (by decide) (by rw [decodeWord_0x21]; rfl)

theorem EncodesBack.vmaxI (v : BitVec 5) (a : BitVec 5) (b : BitVec 5) (p : BitVec 3) (h : BitVec 2) : Statement (.vmaxI v a b p h) :=
  fun _ rest => decodeWords_one rest 0x21 (packVv_majorOp _ _ _ _ _ _ _) (by decide) (by decide) (by rw [decodeWord_0x21]; rfl)

theorem EncodesBack.vmaxN (v : BitVec 5) (a : BitVec 5) (b : BitVec 5) (p : BitVec 3) (h : BitVec 2) : Statement (.vmaxN v a b p h) :=
  fun _ rest => decodeWords_one rest 0x21 (packVv_majorOp _ _ _ _ _ _ _) (by decide) (by decide) (by rw [decodeWord_0x21]; rfl)

theorem EncodesBack.vandI (v : BitVec 5) (a : BitVec 5) (b : BitVec 5) (p : BitVec 3) (h : BitVec 2) : Statement (.vandI v a b p h) :=
  fun _ rest => decodeWords_one rest 0x21 (packVv_majorOp _ _ _ _ _ _ _) (by decide) (by decide) (by rw [decodeWord_0x21]; rfl)

theorem EncodesBack.vorI (v : BitVec 5) (a : BitVec 5) (b : BitVec 5) (p : BitVec 3) (h : BitVec 2) : Statement (.vorI v a b p h) :=
  fun _ rest => decodeWords_one rest 0x21 (packVv_majorOp _ _ _ _ _ _ _) (by decide) (by decide) (by rw [decodeWord_0x21]; rfl)

theorem EncodesBack.vxorI (v : BitVec 5) (a : BitVec 5) (b : BitVec 5) (p : BitVec 3) (h : BitVec 2) : Statement (.vxorI v a b p h) :=
  fun _ rest => decodeWords_one rest 0x21 (packVv_majorOp _ _ _ _ _ _ _) (by decide) (by decide) (by rw [decodeWord_0x21]; rfl)

theorem EncodesBack.vsllI (v : BitVec 5) (a : BitVec 5) (b : BitVec 5) (p : BitVec 3) (h : BitVec 2) : Statement (.vsllI v a b p h) :=
  fun _ rest => decodeWords_one rest 0x21 (packVv_majorOp _ _ _ _ _ _ _) (by decide) (by decide) (by rw [decodeWord_0x21]; rfl)

theorem EncodesBack.vsrlI (v : BitVec 5) (a : BitVec 5) (b : BitVec 5) (p : BitVec 3) (h : BitVec 2) : Statement (.vsrlI v a b p h) :=
  fun _ rest => decodeWords_one rest 0x21 (packVv_majorOp _ _ _ _ _ _ _) (by decide) (by decide) (by rw [decodeWord_0x21]; rfl)

theorem EncodesBack.vsraI (v : BitVec 5) (a : BitVec 5) (b : BitVec 5) (p : BitVec 3) (h : BitVec 2) : Statement (.vsraI v a b p h) :=
  fun _ rest => decodeWords_one rest 0x21 (packVv_majorOp _ _ _ _ _ _ _) (by decide) (by decide) (by rw [decodeWord_0x21]; rfl)

theorem EncodesBack.vaddsI (v : BitVec 5) (a : BitVec 5) (b : BitVec 5) (p : BitVec 3) (h : BitVec 2) : Statement (.vaddsI v a b p h) :=
  fun _ rest => decodeWords_one rest 0x21 (packVv_majorOp _ _ _ _ _ _ _) (by decide) (by decide) (by rw [decodeWord_0x21]; rfl)

theorem EncodesBack.vaddsN (v : BitVec 5) (a : BitVec 5) (b : BitVec 5) (p : BitVec 3) (h : BitVec 2) : Statement (.vaddsN v a b p h) :=
  fun _ rest => decodeWords_one rest 0x21 (packVv_majorOp _ _ _ _ _ _ _) (by decide) (by decide) (by rw [decodeWord_0x21]; rfl)

theorem EncodesBack.vsubsI (v : BitVec 5) (a : BitVec 5) (b : BitVec 5) (p : BitVec 3) (h : BitVec 2) : Statement (.vsubsI v a b p h) :=
  fun _ rest => decodeWords_one rest 0x21 (packVv_majorOp _ _ _ _ _ _ _) (by decide) (by decide) (by rw [decodeWord_0x21]; rfl)

theorem EncodesBack.vsubsN (v : BitVec 5) (a : BitVec 5) (b : BitVec 5) (p : BitVec 3) (h : BitVec 2) : Statement (.vsubsN v a b p h) :=
  fun _ rest => decodeWords_one rest 0x21 (packVv_majorOp _ _ _ _ _ _ _) (by decide) (by decide) (by rw [decodeWord_0x21]; rfl)

theorem EncodesBack.vabsI (v : BitVec 5) (a : BitVec 5) (p : BitVec 3) (h : BitVec 2) : Statement (.vabsI v a p h) :=
  fun _ rest => decodeWords_one rest 0x21 (packVv_majorOp _ _ _ _ _ _ _) (by decide) (by decide) (by rw [decodeWord_0x21]; rfl)

theorem EncodesBack.vmulhI (v : BitVec 5) (a : BitVec 5) (b : BitVec 5) (p : BitVec 3) (h : BitVec 2) : Statement (.vmulhI v a b p h) :=
  fun _ rest => decodeWords_one rest 0x21 (packVv_majorOp _ _ _ _ _ _ _) (by decide) (by decide) (by rw [decodeWord_0x21]; rfl)

theorem EncodesBack.vmulhN (v : BitVec 5) (a : BitVec 5) (b : BitVec 5) (p : BitVec 3) (h : BitVec 2) : Statement (.vmulhN v a b p h) :=
  fun _ rest => decodeWords_one rest 0x21 (packVv_majorOp _ _ _ _ _ _ _) (by decide) (by decide) (by rw [decodeWord_0x21]; rfl)

theorem EncodesBack.vcmpEq (d : BitVec 3) (a : BitVec 5) (b : BitVec 5) (p : BitVec 3) (h : BitVec 2) : Statement (.vcmpEq d a b p h) :=
  fun hw rest => decodeWords_one rest 0x22 (packVv_majorOp _ _ _ _ _ _ _) (by decide) (by decide)
    (by rw [decodeWord_0x22]; exact (if_pos (by simp; try omega)).trans (by simp))

theorem EncodesBack.vcmpNe (d : BitVec 3) (a : BitVec 5) (b : BitVec 5) (p : BitVec 3) (h : BitVec 2) : Statement (.vcmpNe d a b p h) :=
  fun hw rest => decodeWords_one rest 0x22 (packVv_majorOp _ _ _ _ _ _ _) (by decide) (by decide)
    (by rw [decodeWord_0x22]; exact (if_pos (by simp; try omega)).trans (by simp))

theorem EncodesBack.vcmpLt (d : BitVec 3) (a : BitVec 5) (b : BitVec 5) (p : BitVec 3) (h : BitVec 2) : Statement (.vcmpLt d a b p h) :=
  fun hw rest => decodeWords_one rest 0x22 (packVv_majorOp _ _ _ _ _ _ _) (by decide) (by decide)
    (by rw [decodeWord_0x22]; exact (if_pos (by simp; try omega)).trans (by simp))

theorem EncodesBack.vcmpLe (d : BitVec 3) (a : BitVec 5) (b : BitVec 5) (p : BitVec 3) (h : BitVec 2) : Statement (.vcmpLe d a b p h) :=
  fun hw rest => decodeWords_one rest 0x22 (packVv_majorOp _ _ _ _ _ _ _) (by decide) (by decide)
    (by rw [decodeWord_0x22]; exact (if_pos (by simp; try omega)).trans (by simp))

theorem EncodesBack.vcmpGt (d : BitVec 3) (a : BitVec 5) (b : BitVec 5) (p : BitVec 3) (h : BitVec 2) : Statement (.vcmpGt d a b p h) :=
  fun hw rest => decodeWords_one rest 0x22 (packVv_majorOp _ _ _ _ _ _ _) (by decide) (by decide)
    (by rw [decodeWord_0x22]; exact (if_pos (by simp; try omega)).trans (by simp))

theorem EncodesBack.vcmpGe (d : BitVec 3) (a : BitVec 5) (b : BitVec 5) (p : BitVec 3) (h : BitVec 2) : Statement (.vcmpGe d a b p h) :=
  fun hw rest => decodeWords_one rest 0x22 (packVv_majorOp _ _ _ _ _ _ _) (by decide) (by decide)
    (by rw [decodeWord_0x22]; exact (if_pos (by simp; try omega)).trans (by simp))

theorem EncodesBack.vcmpUn (d : BitVec 3) (a : BitVec 5) (b : BitVec 5) (p : BitVec 3) (h : BitVec 2) : Statement (.vcmpUn d a b p h) :=
  fun hw rest => decodeWords_one rest 0x22 (packVv_majorOp _ _ _ _ _ _ _) (by decide) (by decide)
    (by rw [decodeWord_0x22]; exact (if_pos (by simp; try omega)).trans (by simp))

theorem EncodesBack.vcmpEqI (d : BitVec 3) (a : BitVec 5) (b : BitVec 5) (p : BitVec 3) (h : BitVec 2) : Statement (.vcmpEqI d a b p h) :=
  fun hw rest => decodeWords_one rest 0x22 (packVv_majorOp _ _ _ _ _ _ _) (by decide) (by decide)
    (by rw [decodeWord_0x22]; exact (if_pos (by simp; try omega)).trans (by simp))

theorem EncodesBack.vcmpNeI (d : BitVec 3) (a : BitVec 5) (b : BitVec 5) (p : BitVec 3) (h : BitVec 2) : Statement (.vcmpNeI d a b p h) :=
  fun hw rest => decodeWords_one rest 0x22 (packVv_majorOp _ _ _ _ _ _ _) (by decide) (by decide)
    (by rw [decodeWord_0x22]; exact (if_pos (by simp; try omega)).trans (by simp))

theorem EncodesBack.vcmpLtI (d : BitVec 3) (a : BitVec 5) (b : BitVec 5) (p : BitVec 3) (h : BitVec 2) : Statement (.vcmpLtI d a b p h) :=
  fun hw rest => decodeWords_one rest 0x22 (packVv_majorOp _ _ _ _ _ _ _) (by decide) (by decide)
    (by rw [decodeWord_0x22]; exact (if_pos (by simp; try omega)).trans (by simp))

theorem EncodesBack.vcmpLeI (d : BitVec 3) (a : BitVec 5) (b : BitVec 5) (p : BitVec 3) (h : BitVec 2) : Statement (.vcmpLeI d a b p h) :=
  fun hw rest => decodeWords_one rest 0x22 (packVv_majorOp _ _ _ _ _ _ _) (by decide) (by decide)
    (by rw [decodeWord_0x22]; exact (if_pos (by simp; try omega)).trans (by simp))

theorem EncodesBack.vcmpGtI (d : BitVec 3) (a : BitVec 5) (b : BitVec 5) (p : BitVec 3) (h : BitVec 2) : Statement (.vcmpGtI d a b p h) :=
  fun hw rest => decodeWords_one rest 0x22 (packVv_majorOp _ _ _ _ _ _ _) (by decide) (by decide)
    (by rw [decodeWord_0x22]; exact (if_pos (by simp; try omega)).trans (by simp))

theorem EncodesBack.vcmpGeI (d : BitVec 3) (a : BitVec 5) (b : BitVec 5) (p : BitVec 3) (h : BitVec 2) : Statement (.vcmpGeI d a b p h) :=
  fun hw rest => decodeWords_one rest 0x22 (packVv_majorOp _ _ _ _ _ _ _) (by decide) (by decide)
    (by rw [decodeWord_0x22]; exact (if_pos (by simp; try omega)).trans (by simp))

theorem EncodesBack.vcmpEqN (d : BitVec 3) (a : BitVec 5) (b : BitVec 5) (p : BitVec 3) (h : BitVec 2) : Statement (.vcmpEqN d a b p h) :=
  fun hw rest => decodeWords_one rest 0x22 (packVv_majorOp _ _ _ _ _ _ _) (by decide) (by decide)
    (by rw [decodeWord_0x22]; exact (if_pos (by simp; try omega)).trans (by simp))

theorem EncodesBack.vcmpNeN (d : BitVec 3) (a : BitVec 5) (b : BitVec 5) (p : BitVec 3) (h : BitVec 2) : Statement (.vcmpNeN d a b p h) :=
  fun hw rest => decodeWords_one rest 0x22 (packVv_majorOp _ _ _ _ _ _ _) (by decide) (by decide)
    (by rw [decodeWord_0x22]; exact (if_pos (by simp; try omega)).trans (by simp))

theorem EncodesBack.vcmpLtN (d : BitVec 3) (a : BitVec 5) (b : BitVec 5) (p : BitVec 3) (h : BitVec 2) : Statement (.vcmpLtN d a b p h) :=
  fun hw rest => decodeWords_one rest 0x22 (packVv_majorOp _ _ _ _ _ _ _) (by decide) (by decide)
    (by rw [decodeWord_0x22]; exact (if_pos (by simp; try omega)).trans (by simp))

theorem EncodesBack.vcmpLeN (d : BitVec 3) (a : BitVec 5) (b : BitVec 5) (p : BitVec 3) (h : BitVec 2) : Statement (.vcmpLeN d a b p h) :=
  fun hw rest => decodeWords_one rest 0x22 (packVv_majorOp _ _ _ _ _ _ _) (by decide) (by decide)
    (by rw [decodeWord_0x22]; exact (if_pos (by simp; try omega)).trans (by simp))

theorem EncodesBack.vcmpGtN (d : BitVec 3) (a : BitVec 5) (b : BitVec 5) (p : BitVec 3) (h : BitVec 2) : Statement (.vcmpGtN d a b p h) :=
  fun hw rest => decodeWords_one rest 0x22 (packVv_majorOp _ _ _ _ _ _ _) (by decide) (by decide)
    (by rw [decodeWord_0x22]; exact (if_pos (by simp; try omega)).trans (by simp))

theorem EncodesBack.vcmpGeN (d : BitVec 3) (a : BitVec 5) (b : BitVec 5) (p : BitVec 3) (h : BitVec 2) : Statement (.vcmpGeN d a b p h) :=
  fun hw rest => decodeWords_one rest 0x22 (packVv_majorOp _ _ _ _ _ _ _) (by decide) (by decide)
    (by rw [decodeWord_0x22]; exact (if_pos (by simp; try omega)).trans (by simp))

theorem EncodesBack.vrsum (v : BitVec 5) (a : BitVec 5) (p : BitVec 3) (h : BitVec 2) : Statement (.vrsum v a p h) :=
  fun _ rest => decodeWords_one rest 0x23 (packVv_majorOp _ _ _ _ _ _ _) (by decide) (by decide) (by rw [decodeWord_0x23]; rfl)

theorem EncodesBack.vcsum (v : BitVec 5) (a : BitVec 5) (p : BitVec 3) (h : BitVec 2) : Statement (.vcsum v a p h) :=
  fun _ rest => decodeWords_one rest 0x23 (packVv_majorOp _ _ _ _ _ _ _) (by decide) (by decide) (by rw [decodeWord_0x23]; rfl)

theorem EncodesBack.vrmax (v : BitVec 5) (a : BitVec 5) (p : BitVec 3) (h : BitVec 2) : Statement (.vrmax v a p h) :=
  fun _ rest => decodeWords_one rest 0x23 (packVv_majorOp _ _ _ _ _ _ _) (by decide) (by decide) (by rw [decodeWord_0x23]; rfl)

theorem EncodesBack.vcmax (v : BitVec 5) (a : BitVec 5) (p : BitVec 3) (h : BitVec 2) : Statement (.vcmax v a p h) :=
  fun _ rest => decodeWords_one rest 0x23 (packVv_majorOp _ _ _ _ _ _ _) (by decide) (by decide) (by rw [decodeWord_0x23]; rfl)

theorem EncodesBack.vrmin (v : BitVec 5) (a : BitVec 5) (p : BitVec 3) (h : BitVec 2) : Statement (.vrmin v a p h) :=
  fun _ rest => decodeWords_one rest 0x23 (packVv_majorOp _ _ _ _ _ _ _) (by decide) (by decide) (by rw [decodeWord_0x23]; rfl)

theorem EncodesBack.vcmin (v : BitVec 5) (a : BitVec 5) (p : BitVec 3) (h : BitVec 2) : Statement (.vcmin v a p h) :=
  fun _ rest => decodeWords_one rest 0x23 (packVv_majorOp _ _ _ _ _ _ _) (by decide) (by decide) (by rw [decodeWord_0x23]; rfl)

theorem EncodesBack.vdot (v : BitVec 5) (a : BitVec 5) (b : BitVec 5) (p : BitVec 3) (h : BitVec 2) : Statement (.vdot v a b p h) :=
  fun _ rest => decodeWords_one rest 0x23 (packVv_majorOp _ _ _ _ _ _ _) (by decide) (by decide) (by rw [decodeWord_0x23]; rfl)

theorem EncodesBack.vtrn (v : BitVec 5) (a : BitVec 5) (p : BitVec 3) (h : BitVec 2) : Statement (.vtrn v a p h) :=
  fun _ rest => decodeWords_one rest 0x23 (packVv_majorOp _ _ _ _ _ _ _) (by decide) (by decide) (by rw [decodeWord_0x23]; rfl)

theorem EncodesBack.pand (d : BitVec 3) (a : BitVec 3) (b : BitVec 3) (h : BitVec 2) : Statement (.pand d a b h) :=
  fun hw rest => decodeWords_one rest 0x24 (packVv_majorOp _ _ _ _ _ _ _) (by decide) (by decide)
    (by rw [decodeWord_0x24]; exact (if_pos (by simp; try omega)).trans (by simp))

theorem EncodesBack.por (d : BitVec 3) (a : BitVec 3) (b : BitVec 3) (h : BitVec 2) : Statement (.por d a b h) :=
  fun hw rest => decodeWords_one rest 0x24 (packVv_majorOp _ _ _ _ _ _ _) (by decide) (by decide)
    (by rw [decodeWord_0x24]; exact (if_pos (by simp; try omega)).trans (by simp))

theorem EncodesBack.pxor (d : BitVec 3) (a : BitVec 3) (b : BitVec 3) (h : BitVec 2) : Statement (.pxor d a b h) :=
  fun hw rest => decodeWords_one rest 0x24 (packVv_majorOp _ _ _ _ _ _ _) (by decide) (by decide)
    (by rw [decodeWord_0x24]; exact (if_pos (by simp; try omega)).trans (by simp))

theorem EncodesBack.pandn (d : BitVec 3) (a : BitVec 3) (b : BitVec 3) (h : BitVec 2) : Statement (.pandn d a b h) :=
  fun hw rest => decodeWords_one rest 0x24 (packVv_majorOp _ _ _ _ _ _ _) (by decide) (by decide)
    (by rw [decodeWord_0x24]; exact (if_pos (by simp; try omega)).trans (by simp))

theorem EncodesBack.pnot (d : BitVec 3) (a : BitVec 3) (h : BitVec 2) : Statement (.pnot d a h) :=
  fun hw rest => decodeWords_one rest 0x24 (packVv_majorOp _ _ _ _ _ _ _) (by decide) (by decide)
    (by rw [decodeWord_0x24]; exact (if_pos (by simp; try omega)).trans (by simp))

theorem EncodesBack.pfirst (d : BitVec 3) (a : BitVec 3) (h : BitVec 2) : Statement (.pfirst d a h) :=
  fun hw rest => decodeWords_one rest 0x24 (packVv_majorOp _ _ _ _ _ _ _) (by decide) (by decide)
    (by rw [decodeWord_0x24]; exact (if_pos (by simp; try omega)).trans (by simp))

theorem EncodesBack.pcnt (d : BitVec 5) (a : BitVec 3) (h : BitVec 2) : Statement (.pcnt d a h) :=
  fun hw rest => decodeWords_one rest 0x24 (packVv_majorOp _ _ _ _ _ _ _) (by decide) (by decide)
    (by rw [decodeWord_0x24]; exact (if_pos (by simp; try omega)).trans (by simp))

theorem EncodesBack.pset (d : BitVec 3) (a : BitVec 5) (h : BitVec 2) : Statement (.pset d a h) :=
  fun hw rest => decodeWords_one rest 0x24 (packVv_majorOp _ _ _ _ _ _ _) (by decide) (by decide)
    (by rw [decodeWord_0x24]; exact (if_pos (by simp; try omega)).trans (by simp))

theorem EncodesBack.vcvt (v : BitVec 5) (a : BitVec 5) (q : BitVec 2) (p : BitVec 3) (t : BitVec 3) (f : BitVec 3) (h : BitVec 2) : Statement (.vcvt v a q p t f h) :=
  fun hw rest => decodeWords_one rest 0x25 (packVvC_majorOp _ _ _ _ _ _ _ _) (by decide) (by decide)
    (by rw [decodeWord_0x25]; exact (if_pos ⟨by simp; omega, by simpa [Instr.wf] using hw⟩).trans (by simp))

theorem EncodesBack.vpkBfp8 (v : BitVec 5) (a : BitVec 5) (g : BitVec 5) (q : BitVec 2) (h : BitVec 2) : Statement (.vpkBfp8 v a g q h) :=
  fun hw rest => decodeWords_one rest 0x26 (packVv_majorOp _ _ _ _ _ _ _) (by decide) (by decide)
    (by rw [decodeWord_0x26]; exact (if_pos (by simp; try omega)).trans (by simp))

theorem EncodesBack.vupkBfp8 (v : BitVec 5) (a : BitVec 5) (g : BitVec 5) (q : BitVec 2) (h : BitVec 2) : Statement (.vupkBfp8 v a g q h) :=
  fun hw rest => decodeWords_one rest 0x26 (packVv_majorOp _ _ _ _ _ _ _) (by decide) (by decide)
    (by rw [decodeWord_0x26]; exact (if_pos (by simp; try omega)).trans (by simp))

theorem EncodesBack.vpk (v : BitVec 5) (a : BitVec 5) (b : BitVec 5) (h : BitVec 2) : Statement (.vpk v a b h) :=
  fun _ rest => decodeWords_one rest 0x26 (packVv_majorOp _ _ _ _ _ _ _) (by decide) (by decide) (by rw [decodeWord_0x26]; rfl)

theorem EncodesBack.vupk (v : BitVec 5) (a : BitVec 5) (q : BitVec 1) (h : BitVec 2) : Statement (.vupk v a q h) :=
  fun hw rest => decodeWords_one rest 0x26 (packVv_majorOp _ _ _ _ _ _ _) (by decide) (by decide)
    (by rw [decodeWord_0x26]; exact (if_pos (by simp; try omega)).trans (by simp))

theorem EncodesBack.vbcast (v : BitVec 5) (a : BitVec 5) (p : BitVec 3) (h : BitVec 2) : Statement (.vbcast v a p h) :=
  fun _ rest => decodeWords_one rest 0x26 (packVv_majorOp _ _ _ _ _ _ _) (by decide) (by decide) (by rw [decodeWord_0x26]; rfl)

theorem EncodesBack.vins (v : BitVec 5) (a : BitVec 5) (b : BitVec 5) (h : BitVec 2) : Statement (.vins v a b h) :=
  fun _ rest => decodeWords_one rest 0x26 (packVv_majorOp _ _ _ _ _ _ _) (by decide) (by decide) (by rw [decodeWord_0x26]; rfl)

theorem EncodesBack.vext (d : BitVec 5) (a : BitVec 5) (b : BitVec 5) (h : BitVec 2) : Statement (.vext d a b h) :=
  fun _ rest => decodeWords_one rest 0x26 (packVv_majorOp _ _ _ _ _ _ _) (by decide) (by decide) (by rw [decodeWord_0x26]; rfl)

theorem EncodesBack.vperm (v : BitVec 5) (a : BitVec 5) (b : BitVec 5) (p : BitVec 3) (h : BitVec 2) : Statement (.vperm v a b p h) :=
  fun _ rest => decodeWords_one rest 0x26 (packVv_majorOp _ _ _ _ _ _ _) (by decide) (by decide) (by rw [decodeWord_0x26]; rfl)

theorem EncodesBack.vmov (v : BitVec 5) (a : BitVec 5) (p : BitVec 3) (h : BitVec 2) : Statement (.vmov v a p h) :=
  fun _ rest => decodeWords_one rest 0x27 (packVv_majorOp _ _ _ _ _ _ _) (by decide) (by decide) (by rw [decodeWord_0x27]; rfl)

theorem EncodesBack.vsel (v : BitVec 5) (a : BitVec 5) (b : BitVec 5) (p : BitVec 3) (h : BitVec 2) : Statement (.vsel v a b p h) :=
  fun _ rest => decodeWords_one rest 0x27 (packVv_majorOp _ _ _ _ _ _ _) (by decide) (by decide) (by rw [decodeWord_0x27]; rfl)

theorem EncodesBack.vzero (v : BitVec 5) (h : BitVec 2) : Statement (.vzero v h) :=
  fun _ rest => decodeWords_one rest 0x27 (packVv_majorOp _ _ _ _ _ _ _) (by decide) (by decide) (by rw [decodeWord_0x27]; rfl)

theorem EncodesBack.vrng (v : BitVec 5) (a : BitVec 5) (b : BitVec 5) (p : BitVec 3) (h : BitVec 2) : Statement (.vrng v a b p h) :=
  fun _ rest => decodeWords_one rest 0x28 (packVv_majorOp _ _ _ _ _ _ _) (by decide) (by decide) (by rw [decodeWord_0x28]; rfl)

theorem EncodesBack.vrngf (v : BitVec 5) (a : BitVec 5) (b : BitVec 5) (p : BitVec 3) (h : BitVec 2) : Statement (.vrngf v a b p h) :=
  fun _ rest => decodeWords_one rest 0x28 (packVv_majorOp _ _ _ _ _ _ _) (by decide) (by decide) (by rw [decodeWord_0x28]; rfl)

theorem EncodesBack.vshape (w : BitVec 2) (l : BitVec 4) (h : BitVec 2) : Statement (.vshape w l h) :=
  fun hw rest => decodeWords_one rest 0x29 (packRiS_majorOp _ _ _ _ _ _ _) (by decide) (by decide)
    (by rw [decodeWord_0x29]; exact if_pos ⟨rfl, rfl, rfl, by simpa [Instr.wf] using hw⟩)

theorem EncodesBack.vwin (b : BitVec 2) (h : BitVec 2) : Statement (.vwin b h) :=
  fun _ rest => decodeWords_one rest 0x2A (packRiB_majorOp _ _ _ _ _ _) (by decide) (by decide) (by rw [decodeWord_0x2A]; rfl)

theorem EncodesBack.vfmov (v : BitVec 5) (imm : BitVec 20) : Statement (.vfmov v imm) :=
  fun _ rest => decodeWords_one rest 0x2B (packFi_majorOp _ _ _ _) (by decide) (by decide) (by rw [decodeWord_0x2B]; rfl)

theorem EncodesBack.setfmt (a : BitVec 5) (h : BitVec 2) : Statement (.setfmt a h) :=
  fun _ rest => decodeWords_one rest 0x2C (packRr_majorOp _ _ _ _ _ _) (by decide) (by decide) (by rw [decodeWord_0x2C]; rfl)

theorem EncodesBack.stfmt (a : BitVec 5) (h : BitVec 2) : Statement (.stfmt a h) :=
  fun _ rest => decodeWords_one rest 0x2C (packRr_majorOp _ _ _ _ _ _) (by decide) (by decide) (by rw [decodeWord_0x2C]; rfl)

theorem EncodesBack.cp (a : BitVec 5) (b : BitVec 5) (h : BitVec 2) : Statement (.cp a b h) :=
  fun _ rest => decodeWords_one rest 0x30 (packEc_majorOp _ _ _ _ _ _ _) (by decide) (by decide) (by rw [decodeWord_0x30]; rfl)

theorem EncodesBack.cpstat (d : BitVec 5) (h : BitVec 2) : Statement (.cpstat d h) :=
  fun _ rest => decodeWords_one rest 0x30 (packEc_majorOp _ _ _ _ _ _ _) (by decide) (by decide) (by rw [decodeWord_0x30]; rfl)

theorem EncodesBack.copyStart (tile : Nat) : Statement (.copyStart tile) :=
  fun h => absurd h Bool.false_ne_true

theorem EncodesBack.copyComplete (tile : Nat) : Statement (.copyComplete tile) :=
  fun h => absurd h Bool.false_ne_true

theorem EncodesBack.pass (a : BitVec 5) (h : BitVec 2) : Statement (.pass a h) :=
  fun _ rest => decodeWords_one rest 0x31 (packEc_majorOp _ _ _ _ _ _ _) (by decide) (by decide) (by rw [decodeWord_0x31]; rfl)

theorem EncodesBack.passAck (d : BitVec 5) (a : BitVec 5) (h : BitVec 2) : Statement (.passAck d a h) :=
  fun _ rest => decodeWords_one rest 0x31 (packEc_majorOp _ _ _ _ _ _ _) (by decide) (by decide) (by rw [decodeWord_0x31]; rfl)

theorem EncodesBack.passr (a : BitVec 5) (h : BitVec 2) : Statement (.passr a h) :=
  fun _ rest => decodeWords_one rest 0x31 (packEc_majorOp _ _ _ _ _ _ _) (by decide) (by decide) (by rw [decodeWord_0x31]; rfl)

theorem EncodesBack.passrAck (d : BitVec 5) (a : BitVec 5) (h : BitVec 2) : Statement (.passrAck d a h) :=
  fun _ rest => decodeWords_one rest 0x31 (packEc_majorOp _ _ _ _ _ _ _) (by decide) (by decide) (by rw [decodeWord_0x31]; rfl)

theorem EncodesBack.pebc (d : BitVec 5) (h : BitVec 2) : Statement (.pebc d h) :=
  fun _ rest => decodeWords_one rest 0x31 (packEc_majorOp _ _ _ _ _ _ _) (by decide) (by decide) (by rw [decodeWord_0x31]; rfl)

theorem EncodesBack.pflr (a : BitVec 5) (h : BitVec 2) : Statement (.pflr a h) :=
  fun _ rest => decodeWords_one rest 0x31 (packEc_majorOp _ _ _ _ _ _ _) (by decide) (by decide) (by rw [decodeWord_0x31]; rfl)

theorem EncodesBack.ptkt (d : BitVec 5) (h : BitVec 2) : Statement (.ptkt d h) :=
  fun _ rest => decodeWords_one rest 0x31 (packEc_majorOp _ _ _ _ _ _ _) (by decide) (by decide) (by rw [decodeWord_0x31]; rfl)

theorem EncodesBack.phld (a : BitVec 5) (b : BitVec 5) (h : BitVec 2) : Statement (.phld a b h) :=
  fun _ rest => decodeWords_one rest 0x32 (packEc_majorOp _ _ _ _ _ _ _) (by decide) (by decide) (by rw [decodeWord_0x32]; rfl)

theorem EncodesBack.phldAck (d : BitVec 5) (a : BitVec 5) (b : BitVec 5) (h : BitVec 2) : Statement (.phldAck d a b h) :=
  fun _ rest => decodeWords_one rest 0x32 (packEc_majorOp _ _ _ _ _ _ _) (by decide) (by decide) (by rw [decodeWord_0x32]; rfl)

theorem EncodesBack.phst (a : BitVec 5) (b : BitVec 5) (h : BitVec 2) : Statement (.phst a b h) :=
  fun _ rest => decodeWords_one rest 0x32 (packEc_majorOp _ _ _ _ _ _ _) (by decide) (by decide) (by rw [decodeWord_0x32]; rfl)

theorem EncodesBack.phstAck (d : BitVec 5) (a : BitVec 5) (b : BitVec 5) (h : BitVec 2) : Statement (.phstAck d a b h) :=
  fun _ rest => decodeWords_one rest 0x32 (packEc_majorOp _ _ _ _ _ _ _) (by decide) (by decide) (by rw [decodeWord_0x32]; rfl)

theorem EncodesBack.psel (a : BitVec 5) (h : BitVec 2) : Statement (.psel a h) :=
  fun _ rest => decodeWords_one rest 0x32 (packEc_majorOp _ _ _ _ _ _ _) (by decide) (by decide) (by rw [decodeWord_0x32]; rfl)

theorem EncodesBack.pselAck (d : BitVec 5) (a : BitVec 5) (h : BitVec 2) : Statement (.pselAck d a h) :=
  fun _ rest => decodeWords_one rest 0x32 (packEc_majorOp _ _ _ _ _ _ _) (by decide) (by decide) (by rw [decodeWord_0x32]; rfl)

theorem EncodesBack.dcmp (a : BitVec 5) (b : BitVec 5) (h : BitVec 2) : Statement (.dcmp a b h) :=
  fun _ rest => decodeWords_one rest 0x32 (packEc_majorOp _ _ _ _ _ _ _) (by decide) (by decide) (by rw [decodeWord_0x32]; rfl)

theorem EncodesBack.dcmpAck (d : BitVec 5) (a : BitVec 5) (b : BitVec 5) (h : BitVec 2) : Statement (.dcmpAck d a b h) :=
  fun _ rest => decodeWords_one rest 0x32 (packEc_majorOp _ _ _ _ _ _ _) (by decide) (by decide) (by rw [decodeWord_0x32]; rfl)

theorem EncodesBack.paletteLoadStart (tile : Nat) : Statement (.paletteLoadStart tile) :=
  fun h => absurd h Bool.false_ne_true

theorem EncodesBack.paletteLoadDone (tile : Nat) (pebc : BitVec 7) : Statement (.paletteLoadDone tile pebc) :=
  fun h => absurd h Bool.false_ne_true

theorem EncodesBack.paletteStoreStart (tile : Nat) : Statement (.paletteStoreStart tile) :=
  fun h => absurd h Bool.false_ne_true

theorem EncodesBack.paletteStoreDone (tile : Nat) : Statement (.paletteStoreDone tile) :=
  fun h => absurd h Bool.false_ne_true

theorem EncodesBack.paletteSwitch (tile : Nat) (pebc : BitVec 7) : Statement (.paletteSwitch tile pebc) :=
  fun h => absurd h Bool.false_ne_true

theorem EncodesBack.decompStart (tile : Nat) : Statement (.decompStart tile) :=
  fun h => absurd h Bool.false_ne_true

theorem EncodesBack.decompDone (tile : Nat) (pebc : BitVec 7) : Statement (.decompDone tile pebc) :=
  fun h => absurd h Bool.false_ne_true

theorem EncodesBack.xmm (a : BitVec 5) (h : BitVec 2) : Statement (.xmm a h) :=
  fun _ rest => decodeWords_one rest 0x33 (packEc_majorOp _ _ _ _ _ _ _) (by decide) (by decide) (by rw [decodeWord_0x33]; rfl)

theorem EncodesBack.xmmAck (d : BitVec 5) (a : BitVec 5) (h : BitVec 2) : Statement (.xmmAck d a h) :=
  fun _ rest => decodeWords_one rest 0x33 (packEc_majorOp _ _ _ _ _ _ _) (by decide) (by decide) (by rw [decodeWord_0x33]; rfl)

theorem EncodesBack.xmmStrict (a : BitVec 5) (h : BitVec 2) : Statement (.xmmStrict a h) :=
  fun _ rest => decodeWords_one rest 0x33 (packEc_majorOp _ _ _ _ _ _ _) (by decide) (by decide) (by rw [decodeWord_0x33]; rfl)

theorem EncodesBack.xmmStrictAck (d : BitVec 5) (a : BitVec 5) (h : BitVec 2) : Statement (.xmmStrictAck d a h) :=
  fun _ rest => decodeWords_one rest 0x33 (packEc_majorOp _ _ _ _ _ _ _) (by decide) (by decide) (by rw [decodeWord_0x33]; rfl)

theorem EncodesBack.xmmStart (tile : Nat) : Statement (.xmmStart tile) :=
  fun h => absurd h Bool.false_ne_true

theorem EncodesBack.xmmComplete (tile : Nat) : Statement (.xmmComplete tile) :=
  fun h => absurd h Bool.false_ne_true

theorem EncodesBack.coll (a : BitVec 5) (h : BitVec 2) : Statement (.coll a h) :=
  fun _ rest => decodeWords_one rest 0x34 (packEc_majorOp _ _ _ _ _ _ _) (by decide) (by decide) (by rw [decodeWord_0x34]; rfl)

theorem EncodesBack.cstat (d : BitVec 5) (a : BitVec 5) (h : BitVec 2) : Statement (.cstat d a h) :=
  fun _ rest => decodeWords_one rest 0x34 (packEc_majorOp _ _ _ _ _ _ _) (by decide) (by decide) (by rw [decodeWord_0x34]; rfl)

theorem EncodesBack.migr (a : BitVec 5) (h : BitVec 2) : Statement (.migr a h) :=
  fun _ rest => decodeWords_one rest 0x35 (packEc_majorOp _ _ _ _ _ _ _) (by decide) (by decide) (by rw [decodeWord_0x35]; rfl)

theorem EncodesBack.spawn (a : BitVec 5) (h : BitVec 2) : Statement (.spawn a h) :=
  fun _ rest => decodeWords_one rest 0x36 (packEc_majorOp _ _ _ _ _ _ _) (by decide) (by decide) (by rw [decodeWord_0x36]; rfl)

theorem EncodesBack.exit (h : BitVec 2) : Statement (.exit h) :=
  fun _ rest => decodeWords_one rest 0x36 (packEc_majorOp _ _ _ _ _ _ _) (by decide) (by decide) (by rw [decodeWord_0x36]; rfl)

theorem EncodesBack.cancelG (a : BitVec 5) (h : BitVec 2) : Statement (.cancelG a h) :=
  fun _ rest => decodeWords_one rest 0x36 (packEc_majorOp _ _ _ _ _ _ _) (by decide) (by decide) (by rw [decodeWord_0x36]; rfl)

theorem EncodesBack.cancelGr (a : BitVec 5) (h : BitVec 2) : Statement (.cancelGr a h) :=
  fun _ rest => decodeWords_one rest 0x36 (packEc_majorOp _ _ _ _ _ _ _) (by decide) (by decide) (by rw [decodeWord_0x36]; rfl)

theorem EncodesBack.cancelJ (a : BitVec 5) (h : BitVec 2) : Statement (.cancelJ a h) :=
  fun _ rest => decodeWords_one rest 0x36 (packEc_majorOp _ _ _ _ _ _ _) (by decide) (by decide) (by rw [decodeWord_0x36]; rfl)

theorem EncodesBack.prmt (a : BitVec 5) (b : BitVec 5) (h : BitVec 2) : Statement (.prmt a b h) :=
  fun _ rest => decodeWords_one rest 0x36 (packEc_majorOp _ _ _ _ _ _ _) (by decide) (by decide) (by rw [decodeWord_0x36]; rfl)

theorem EncodesBack.gdep (a : BitVec 5) (b : BitVec 5) (h : BitVec 2) : Statement (.gdep a b h) :=
  fun _ rest => decodeWords_one rest 0x36 (packEc_majorOp _ _ _ _ _ _ _) (by decide) (by decide) (by rw [decodeWord_0x36]; rfl)

theorem EncodesBack.gcnt (d : BitVec 5) (a : BitVec 5) (h : BitVec 2) : Statement (.gcnt d a h) :=
  fun _ rest => decodeWords_one rest 0x36 (packEc_majorOp _ _ _ _ _ _ _) (by decide) (by decide) (by rw [decodeWord_0x36]; rfl)

theorem EncodesBack.amoAdd (d : BitVec 5) (a : BitVec 5) (b : BitVec 5) (w : BitVec 1) (h : BitVec 2) : Statement (.amoAdd d a b w h) :=
  fun _ rest => decodeWords_one rest 0x38 (packRrW_majorOp _ _ _ _ _ _ _) (by decide) (by decide) (by rw [decodeWord_0x38]; rfl)

theorem EncodesBack.amoAnd (d : BitVec 5) (a : BitVec 5) (b : BitVec 5) (w : BitVec 1) (h : BitVec 2) : Statement (.amoAnd d a b w h) :=
  fun _ rest => decodeWords_one rest 0x38 (packRrW_majorOp _ _ _ _ _ _ _) (by decide) (by decide) (by rw [decodeWord_0x38]; rfl)

theorem EncodesBack.amoOr (d : BitVec 5) (a : BitVec 5) (b : BitVec 5) (w : BitVec 1) (h : BitVec 2) : Statement (.amoOr d a b w h) :=
  fun _ rest => decodeWords_one rest 0x38 (packRrW_majorOp _ _ _ _ _ _ _) (by decide) (by decide) (by rw [decodeWord_0x38]; rfl)

theorem EncodesBack.amoXor (d : BitVec 5) (a : BitVec 5) (b : BitVec 5) (w : BitVec 1) (h : BitVec 2) : Statement (.amoXor d a b w h) :=
  fun _ rest => decodeWords_one rest 0x38 (packRrW_majorOp _ _ _ _ _ _ _) (by decide) (by decide) (by rw [decodeWord_0x38]; rfl)

theorem EncodesBack.amoMin (d : BitVec 5) (a : BitVec 5) (b : BitVec 5) (w : BitVec 1) (h : BitVec 2) : Statement (.amoMin d a b w h) :=
  fun _ rest => decodeWords_one rest 0x38 (packRrW_majorOp _ _ _ _ _ _ _) (by decide) (by decide) (by rw [decodeWord_0x38]; rfl)

theorem EncodesBack.amoMax (d : BitVec 5) (a : BitVec 5) (b : BitVec 5) (w : BitVec 1) (h : BitVec 2) : Statement (.amoMax d a b w h) :=
  fun _ rest => decodeWords_one rest 0x38 (packRrW_majorOp _ _ _ _ _ _ _) (by decide) (by decide) (by rw [decodeWord_0x38]; rfl)

theorem EncodesBack.amoMinn (d : BitVec 5) (a : BitVec 5) (b : BitVec 5) (w : BitVec 1) (h : BitVec 2) : Statement (.amoMinn d a b w h) :=
  fun _ rest => decodeWords_one rest 0x38 (packRrW_majorOp _ _ _ _ _ _ _) (by decide) (by decide) (by rw [decodeWord_0x38]; rfl)

theorem EncodesBack.amoMaxn (d : BitVec 5) (a : BitVec 5) (b : BitVec 5) (w : BitVec 1) (h : BitVec 2) : Statement (.amoMaxn d a b w h) :=
  fun _ rest => decodeWords_one rest 0x38 (packRrW_majorOp _ _ _ _ _ _ _) (by decide) (by decide) (by rw [decodeWord_0x38]; rfl)

theorem EncodesBack.amoSwap (d : BitVec 5) (a : BitVec 5) (b : BitVec 5) (w : BitVec 1) (h : BitVec 2) : Statement (.amoSwap d a b w h) :=
  fun _ rest => decodeWords_one rest 0x38 (packRrW_majorOp _ _ _ _ _ _ _) (by decide) (by decide) (by rw [decodeWord_0x38]; rfl)

theorem EncodesBack.amoCas (d : BitVec 5) (a : BitVec 5) (b : BitVec 5) (w : BitVec 1) (h : BitVec 2) : Statement (.amoCas d a b w h) :=
  fun _ rest => decodeWords_one rest 0x38 (packRrW_majorOp _ _ _ _ _ _ _) (by decide) (by decide) (by rw [decodeWord_0x38]; rfl)

theorem EncodesBack.amoFadd (d : BitVec 5) (a : BitVec 5) (b : BitVec 5) (h : BitVec 2) : Statement (.amoFadd d a b h) :=
  fun _ rest => decodeWords_one rest 0x38 (packRrW_majorOp _ _ _ _ _ _ _) (by decide) (by decide) (by rw [decodeWord_0x38]; rfl)

theorem EncodesBack.redAdd (a : BitVec 5) (b : BitVec 5) (w : BitVec 1) (h : BitVec 2) : Statement (.redAdd a b w h) :=
  fun _ rest => decodeWords_one rest 0x38 (packRrW_majorOp _ _ _ _ _ _ _) (by decide) (by decide) (by rw [decodeWord_0x38]; rfl)

theorem EncodesBack.redAnd (a : BitVec 5) (b : BitVec 5) (w : BitVec 1) (h : BitVec 2) : Statement (.redAnd a b w h) :=
  fun _ rest => decodeWords_one rest 0x38 (packRrW_majorOp _ _ _ _ _ _ _) (by decide) (by decide) (by rw [decodeWord_0x38]; rfl)

theorem EncodesBack.redOr (a : BitVec 5) (b : BitVec 5) (w : BitVec 1) (h : BitVec 2) : Statement (.redOr a b w h) :=
  fun _ rest => decodeWords_one rest 0x38 (packRrW_majorOp _ _ _ _ _ _ _) (by decide) (by decide) (by rw [decodeWord_0x38]; rfl)

theorem EncodesBack.redXor (a : BitVec 5) (b : BitVec 5) (w : BitVec 1) (h : BitVec 2) : Statement (.redXor a b w h) :=
  fun _ rest => decodeWords_one rest 0x38 (packRrW_majorOp _ _ _ _ _ _ _) (by decide) (by decide) (by rw [decodeWord_0x38]; rfl)

theorem EncodesBack.redMin (a : BitVec 5) (b : BitVec 5) (w : BitVec 1) (h : BitVec 2) : Statement (.redMin a b w h) :=
  fun _ rest => decodeWords_one rest 0x38 (packRrW_majorOp _ _ _ _ _ _ _) (by decide) (by decide) (by rw [decodeWord_0x38]; rfl)

theorem EncodesBack.redMax (a : BitVec 5) (b : BitVec 5) (w : BitVec 1) (h : BitVec 2) : Statement (.redMax a b w h) :=
  fun _ rest => decodeWords_one rest 0x38 (packRrW_majorOp _ _ _ _ _ _ _) (by decide) (by decide) (by rw [decodeWord_0x38]; rfl)

theorem EncodesBack.redMinn (a : BitVec 5) (b : BitVec 5) (w : BitVec 1) (h : BitVec 2) : Statement (.redMinn a b w h) :=
  fun _ rest => decodeWords_one rest 0x38 (packRrW_majorOp _ _ _ _ _ _ _) (by decide) (by decide) (by rw [decodeWord_0x38]; rfl)

theorem EncodesBack.redMaxn (a : BitVec 5) (b : BitVec 5) (w : BitVec 1) (h : BitVec 2) : Statement (.redMaxn a b w h) :=
  fun _ rest => decodeWords_one rest 0x38 (packRrW_majorOp _ _ _ _ _ _ _) (by decide) (by decide) (by rw [decodeWord_0x38]; rfl)

theorem EncodesBack.redFadd (a : BitVec 5) (b : BitVec 5) (h : BitVec 2) : Statement (.redFadd a b h) :=
  fun _ rest => decodeWords_one rest 0x38 (packRrW_majorOp _ _ _ _ _ _ _) (by decide) (by decide) (by rw [decodeWord_0x38]; rfl)

theorem EncodesBack.amoHomePerform (slot idx : Nat) : Statement (.amoHomePerform slot idx) :=
  fun h => absurd h Bool.false_ne_true

theorem EncodesBack.lrw (d : BitVec 5) (a : BitVec 5) (h : BitVec 2) : Statement (.lrw d a h) :=
  fun _ rest => decodeWords_one rest 0x39 (packRr_majorOp _ _ _ _ _ _) (by decide) (by decide) (by rw [decodeWord_0x39]; rfl)

theorem EncodesBack.scr (d : BitVec 5) (a : BitVec 5) (b : BitVec 5) (h : BitVec 2) : Statement (.scr d a b h) :=
  fun _ rest => decodeWords_one rest 0x39 (packRr_majorOp _ _ _ _ _ _) (by decide) (by decide) (by rw [decodeWord_0x39]; rfl)

theorem EncodesBack.reservationGrant (line : Nat) : Statement (.reservationGrant line) :=
  fun h => absurd h Bool.false_ne_true

theorem EncodesBack.reservationTimeout (line : Nat) : Statement (.reservationTimeout line) :=
  fun h => absurd h Bool.false_ne_true

theorem EncodesBack.lde (d : BitVec 5) (a : BitVec 5) (h : BitVec 2) : Statement (.lde d a h) :=
  fun _ rest => decodeWords_one rest 0x39 (packRr_majorOp _ _ _ _ _ _) (by decide) (by decide) (by rw [decodeWord_0x39]; rfl)

theorem EncodesBack.stf (a : BitVec 5) (b : BitVec 5) (h : BitVec 2) : Statement (.stf a b h) :=
  fun _ rest => decodeWords_one rest 0x39 (packRr_majorOp _ _ _ _ _ _) (by decide) (by decide) (by rw [decodeWord_0x39]; rfl)

theorem EncodesBack.ldew (d : BitVec 5) (a : BitVec 5) (b : BitVec 5) (h : BitVec 2) : Statement (.ldew d a b h) :=
  fun _ rest => decodeWords_one rest 0x39 (packRr_majorOp _ _ _ _ _ _) (by decide) (by decide) (by rw [decodeWord_0x39]; rfl)

theorem EncodesBack.stfw (d : BitVec 5) (a : BitVec 5) (b : BitVec 5) (h : BitVec 2) : Statement (.stfw d a b h) :=
  fun _ rest => decodeWords_one rest 0x39 (packRr_majorOp _ _ _ _ _ _) (by decide) (by decide) (by rw [decodeWord_0x39]; rfl)

theorem EncodesBack.feq (d : BitVec 5) (a : BitVec 5) (h : BitVec 2) : Statement (.feq d a h) :=
  fun _ rest => decodeWords_one rest 0x39 (packRr_majorOp _ _ _ _ _ _) (by decide) (by decide) (by rw [decodeWord_0x39]; rfl)

theorem EncodesBack.give (a : BitVec 5) (b : BitVec 5) (h : BitVec 2) : Statement (.give a b h) :=
  fun _ rest => decodeWords_one rest 0x39 (packRr_majorOp _ _ _ _ _ _) (by decide) (by decide) (by rw [decodeWord_0x39]; rfl)

theorem EncodesBack.ownw (a : BitVec 5) (h : BitVec 2) : Statement (.ownw a h) :=
  fun _ rest => decodeWords_one rest 0x39 (packRr_majorOp _ _ _ _ _ _) (by decide) (by decide) (by rw [decodeWord_0x39]; rfl)

theorem EncodesBack.bar (h : BitVec 2) : Statement (.bar h) :=
  fun _ rest => decodeWords_one rest 0x39 (packRr_majorOp _ _ _ _ _ _) (by decide) (by decide) (by rw [decodeWord_0x39]; rfl)

theorem EncodesBack.fence (sc : BitVec 3) (h : BitVec 2) : Statement (.fence sc h) :=
  fun _ rest => decodeWords_one rest 0x3A (packRrO_majorOp _ _ _ _ _ _ _ _ _) (by decide) (by decide) (by rw [decodeWord_0x3A]; rfl)

theorem EncodesBack.rel (sc : BitVec 3) (h : BitVec 2) : Statement (.rel sc h) :=
  fun _ rest => decodeWords_one rest 0x3A (packRrO_majorOp _ _ _ _ _ _ _ _ _) (by decide) (by decide) (by rw [decodeWord_0x3A]; rfl)

theorem EncodesBack.acq (m : BitVec 2) (sc : BitVec 3) (h : BitVec 2) : Statement (.acq m sc h) :=
  fun _ rest => decodeWords_one rest 0x3A (packRrO_majorOp _ _ _ _ _ _ _ _ _) (by decide) (by decide) (by rw [decodeWord_0x3A]; rfl)

theorem EncodesBack.orderingActionsDone (slot : Nat) : Statement (.orderingActionsDone slot) :=
  fun h => absurd h Bool.false_ne_true

theorem EncodesBack.msend (a : BitVec 5) (h : BitVec 2) : Statement (.msend a h) :=
  fun _ rest => decodeWords_one rest 0x3B (packRr_majorOp _ _ _ _ _ _) (by decide) (by decide) (by rw [decodeWord_0x3B]; rfl)

theorem EncodesBack.mrecv (h : BitVec 2) : Statement (.mrecv h) :=
  fun _ rest => decodeWords_one rest 0x3B (packRr_majorOp _ _ _ _ _ _) (by decide) (by decide) (by rw [decodeWord_0x3B]; rfl)

theorem EncodesBack.mend (h : BitVec 2) : Statement (.mend h) :=
  fun _ rest => decodeWords_one rest 0x3B (packRr_majorOp _ _ _ _ _ _) (by decide) (by decide) (by rw [decodeWord_0x3B]; rfl)

theorem EncodesBack.varn (a : BitVec 5) (h : BitVec 2) : Statement (.varn a h) :=
  fun _ rest => decodeWords_one rest 0x3B (packRr_majorOp _ _ _ _ _ _) (by decide) (by decide) (by rw [decodeWord_0x3B]; rfl)

theorem EncodesBack.srr (d : BitVec 5) (sr : BitVec 12) (h : BitVec 2) : Statement (.srr d sr h) :=
  fun _ rest => decodeWords_one rest 0x3C (packSy_majorOp _ _ _ _ _ _) (by decide) (by decide) (by rw [decodeWord_0x3C]; rfl)

theorem EncodesBack.srw (a : BitVec 5) (sr : BitVec 12) (h : BitVec 2) : Statement (.srw a sr h) :=
  fun _ rest => decodeWords_one rest 0x3C (packSy_majorOp _ _ _ _ _ _) (by decide) (by decide) (by rw [decodeWord_0x3C]; rfl)

theorem EncodesBack.srset (a : BitVec 5) (sr : BitVec 12) (h : BitVec 2) : Statement (.srset a sr h) :=
  fun _ rest => decodeWords_one rest 0x3C (packSy_majorOp _ _ _ _ _ _) (by decide) (by decide) (by rw [decodeWord_0x3C]; rfl)

theorem EncodesBack.srclr (a : BitVec 5) (sr : BitVec 12) (h : BitVec 2) : Statement (.srclr a sr h) :=
  fun _ rest => decodeWords_one rest 0x3C (packSy_majorOp _ _ _ _ _ _) (by decide) (by decide) (by rw [decodeWord_0x3C]; rfl)

theorem EncodesBack.rtx (h : BitVec 2) : Statement (.rtx h) :=
  fun _ rest => decodeWords_one rest 0x3D (packRr_majorOp _ _ _ _ _ _) (by decide) (by decide) (by rw [decodeWord_0x3D]; rfl)

theorem EncodesBack.sys (h : BitVec 2) : Statement (.sys h) :=
  fun _ rest => decodeWords_one rest 0x3D (packRr_majorOp _ _ _ _ _ _) (by decide) (by decide) (by rw [decodeWord_0x3D]; rfl)

theorem EncodesBack.brk (h : BitVec 2) : Statement (.brk h) :=
  fun _ rest => decodeWords_one rest 0x3D (packRr_majorOp _ _ _ _ _ _) (by decide) (by decide) (by rw [decodeWord_0x3D]; rfl)

theorem EncodesBack.clkm (a : BitVec 5) (h : BitVec 2) : Statement (.clkm a h) :=
  fun _ rest => decodeWords_one rest 0x3D (packRr_majorOp _ _ _ _ _ _) (by decide) (by decide) (by rw [decodeWord_0x3D]; rfl)

theorem EncodesBack.loadReturn (slot idx : Nat) : Statement (.loadReturn slot idx) :=
  fun h => absurd h Bool.false_ne_true

theorem EncodesBack.storePerform (slot idx : Nat) : Statement (.storePerform slot idx) :=
  fun h => absurd h Bool.false_ne_true

theorem EncodesBack.translationWalkDone (station : Nat) (pid : BitVec 12) (va : BitVec 64) : Statement (.translationWalkDone station pid va) :=
  fun h => absurd h Bool.false_ne_true

theorem EncodesBack.wcDrain (core idx : Nat) : Statement (.wcDrain core idx) :=
  fun h => absurd h Bool.false_ne_true

theorem EncodesBack.sysregEffectDone (slot : Nat) : Statement (.sysregEffectDone slot) :=
  fun h => absurd h Bool.false_ne_true

theorem EncodesBack.tsinvPage (pid : BitVec 12) (vpn : BitVec 41) : Statement (.tsinvPage pid vpn) :=
  fun h => absurd h Bool.false_ne_true

theorem EncodesBack.tsinvPid (pid : BitVec 12) : Statement (.tsinvPid pid) :=
  fun h => absurd h Bool.false_ne_true

theorem EncodesBack.tsinvAll : Statement .tsinvAll :=
  fun h => absurd h Bool.false_ne_true

theorem EncodesBack.elevatorRetire (elev : Nat) : Statement (.elevatorRetire elev) :=
  fun h => absurd h Bool.false_ne_true

theorem EncodesBack.elevatorReissue (core : Nat) : Statement (.elevatorReissue core) :=
  fun h => absurd h Bool.false_ne_true

theorem EncodesBack.passStart (tile : Nat) (pebc : BitVec 7) : Statement (.passStart tile pebc) :=
  fun h => absurd h Bool.false_ne_true

theorem EncodesBack.leaveGrant (tile : Nat) : Statement (.leaveGrant tile) :=
  fun h => absurd h Bool.false_ne_true

theorem EncodesBack.groupEntry (tile : Nat) : Statement (.groupEntry tile) :=
  fun h => absurd h Bool.false_ne_true

theorem EncodesBack.groupOutput (tile : Nat) (codes : List (BitVec 10)) : Statement (.groupOutput tile codes) :=
  fun h => absurd h Bool.false_ne_true

theorem EncodesBack.groupEmulate (tile : Nat) : Statement (.groupEmulate tile) :=
  fun h => absurd h Bool.false_ne_true

theorem EncodesBack.passEnd (tile : Nat) : Statement (.passEnd tile) :=
  fun h => absurd h Bool.false_ne_true

theorem EncodesBack.swatchInject (tile lane mismatch quad dm : Nat) : Statement (.swatchInject tile lane mismatch quad dm) :=
  fun h => absurd h Bool.false_ne_true

theorem EncodesBack.thermalLoop (tile : Nat) (temps : Nat × Nat) (live : BitVec 8) : Statement (.thermalLoop tile temps live) :=
  fun h => absurd h Bool.false_ne_true

theorem EncodesBack.debcEval (tile : Nat) (debc : BitVec 28) : Statement (.debcEval tile debc) :=
  fun h => absurd h Bool.false_ne_true

theorem EncodesBack.otctlClr (tile : Nat) : Statement (.otctlClr tile) :=
  fun h => absurd h Bool.false_ne_true

theorem EncodesBack.otctlClrEffect (tile : Nat) : Statement (.otctlClrEffect tile) :=
  fun h => absurd h Bool.false_ne_true

theorem EncodesBack.otctlCal (tile : Nat) : Statement (.otctlCal tile) :=
  fun h => absurd h Bool.false_ne_true

theorem EncodesBack.calibEnter (tile : Nat) : Statement (.calibEnter tile) :=
  fun h => absurd h Bool.false_ne_true

theorem EncodesBack.otctlOff (tile : Nat) (off : Bool) : Statement (.otctlOff tile off) :=
  fun h => absurd h Bool.false_ne_true

theorem EncodesBack.tileCalibDone (tile : Nat) (ok : Bool) (found : BitVec 8 × BitVec 16) (pebc : BitVec 7) : Statement (.tileCalibDone tile ok found pebc) :=
  fun h => absurd h Bool.false_ne_true

theorem EncodesBack.messageArrive (idx : Nat) : Statement (.messageArrive idx) :=
  fun h => absurd h Bool.false_ne_true

theorem EncodesBack.antiMessageArrive (idx : Nat) : Statement (.antiMessageArrive idx) :=
  fun h => absurd h Bool.false_ne_true

theorem EncodesBack.msgfull (pid : BitVec 12) : Statement (.msgfull pid) :=
  fun h => absurd h Bool.false_ne_true

theorem EncodesBack.rollback (pid : BitVec 12) (lp : BitVec 32) : Statement (.rollback pid lp) :=
  fun h => absurd h Bool.false_ne_true

theorem EncodesBack.vpRound (pid : BitVec 12) : Statement (.vpRound pid) :=
  fun h => absurd h Bool.false_ne_true

theorem EncodesBack.vpRoundAbandon (pid : BitVec 12) : Statement (.vpRoundAbandon pid) :=
  fun h => absurd h Bool.false_ne_true

theorem EncodesBack.fabricVpRound (pid : BitVec 12) (others : BitVec 64 × BitVec 64) (othersSum : Int) :
    Statement (.fabricVpRound pid others othersSum) :=
  fun h => absurd h Bool.false_ne_true

theorem EncodesBack.fabricVpRetry (pid : BitVec 12) : Statement (.fabricVpRetry pid) :=
  fun h => absurd h Bool.false_ne_true

theorem EncodesBack.varnishPerform : Statement .varnishPerform :=
  fun h => absurd h Bool.false_ne_true

theorem EncodesBack.vjbsetWrite (v : BitVec 64) : Statement (.vjbsetWrite v) :=
  fun h => absurd h Bool.false_ne_true

theorem EncodesBack.mpsetWrite (v : BitVec 64) : Statement (.mpsetWrite v) :=
  fun h => absurd h Bool.false_ne_true

theorem EncodesBack.itemHop (item : Nat) : Statement (.itemHop item) :=
  fun h => absurd h Bool.false_ne_true

theorem EncodesBack.ringRadiusGrow (item : Nat) : Statement (.ringRadiusGrow item) :=
  fun h => absurd h Bool.false_ne_true

theorem EncodesBack.overflowPark (item : Nat) : Statement (.overflowPark item) :=
  fun h => absurd h Bool.false_ne_true

theorem EncodesBack.pickup (item : Nat) : Statement (.pickup item) :=
  fun h => absurd h Bool.false_ne_true

theorem EncodesBack.parkEvict (slot : Nat) : Statement (.parkEvict slot) :=
  fun h => absurd h Bool.false_ne_true

theorem EncodesBack.deferredLaunch (idx : Nat) : Statement (.deferredLaunch idx) :=
  fun h => absurd h Bool.false_ne_true

theorem EncodesBack.hostAddition : Statement .hostAddition :=
  fun h => absurd h Bool.false_ne_true

theorem EncodesBack.cancelSweep : Statement .cancelSweep :=
  fun h => absurd h Bool.false_ne_true

theorem EncodesBack.cancelTrap (slot : Nat) : Statement (.cancelTrap slot) :=
  fun h => absurd h Bool.false_ne_true

theorem EncodesBack.cancelStopTimeout (slot : Nat) : Statement (.cancelStopTimeout slot) :=
  fun h => absurd h Bool.false_ne_true

theorem EncodesBack.preemptWriteback (slot : Nat) : Statement (.preemptWriteback slot) :=
  fun h => absurd h Bool.false_ne_true

theorem EncodesBack.prmto (slot : Nat) : Statement (.prmto slot) :=
  fun h => absurd h Bool.false_ne_true

theorem EncodesBack.tilePin (tile : Nat) : Statement (.tilePin tile) :=
  fun h => absurd h Bool.false_ne_true

theorem EncodesBack.tileUnpin (tile : Nat) : Statement (.tileUnpin tile) :=
  fun h => absurd h Bool.false_ne_true

theorem EncodesBack.droopDetect (tile pct : Nat) : Statement (.droopDetect tile pct) :=
  fun h => absurd h Bool.false_ne_true

theorem EncodesBack.governorAdjust (tile : Nat) (freq : Nat × Bool) : Statement (.governorAdjust tile freq) :=
  fun h => absurd h Bool.false_ne_true

theorem EncodesBack.junctionOvertemp : Statement .junctionOvertemp :=
  fun h => absurd h Bool.false_ne_true

theorem EncodesBack.xholdWrite (v : BitVec 64) : Statement (.xholdWrite v) :=
  fun h => absurd h Bool.false_ne_true

theorem EncodesBack.xfatalWrite (v : BitVec 64) : Statement (.xfatalWrite v) :=
  fun h => absurd h Bool.false_ne_true

theorem EncodesBack.sresumeWrite (v : BitVec 64) : Statement (.sresumeWrite v) :=
  fun h => absurd h Bool.false_ne_true

theorem EncodesBack.ftsetWrite (v : BitVec 64) : Statement (.ftsetWrite v) :=
  fun h => absurd h Bool.false_ne_true

theorem EncodesBack.dumpsetWrite (v : BitVec 64) : Statement (.dumpsetWrite v) :=
  fun h => absurd h Bool.false_ne_true

theorem EncodesBack.dumpSequence : Statement .dumpSequence :=
  fun h => absurd h Bool.false_ne_true

theorem EncodesBack.compatEngineReset : Statement .compatEngineReset :=
  fun h => absurd h Bool.false_ne_true

theorem EncodesBack.dbgstopStop (slot : Nat) : Statement (.dbgstopStop slot) :=
  fun h => absurd h Bool.false_ne_true

theorem EncodesBack.dbgstopFree (core slot : Nat) : Statement (.dbgstopFree core slot) :=
  fun h => absurd h Bool.false_ne_true

theorem EncodesBack.profctlWrite (tile : Nat) (v : BitVec 64) : Statement (.profctlWrite tile v) :=
  fun h => absurd h Bool.false_ne_true

theorem EncodesBack.profileCounterClear (core : Nat) (n : BitVec 12) : Statement (.profileCounterClear core n) :=
  fun h => absurd h Bool.false_ne_true

theorem EncodesBack.evpopRead (core : Nat) (d : BitVec 5) : Statement (.evpopRead core d) :=
  fun h => absurd h Bool.false_ne_true

theorem EncodesBack.registerWrite (off : Nat) (v : BitVec 64) : Statement (.registerWrite off v) :=
  fun h => absurd h Bool.false_ne_true

theorem EncodesBack.coldReset : Statement .coldReset :=
  fun h => absurd h Bool.false_ne_true

theorem EncodesBack.warmReset : Statement .warmReset :=
  fun h => absurd h Bool.false_ne_true

theorem EncodesBack.bootSequence (err : BitVec 8) (version : Nat) (coreMap : BitVec 256 × List (BitVec 6)) (tables : List Nat × List Nat) (starts : List (BitVec 2 × BitVec 512)) : Statement (.bootSequence err version coreMap tables starts) :=
  fun h => absurd h Bool.false_ne_true

theorem EncodesBack.aperturesOpen : Statement .aperturesOpen :=
  fun h => absurd h Bool.false_ne_true

theorem EncodesBack.timeadjWrite (v : BitVec 64) : Statement (.timeadjWrite v) :=
  fun h => absurd h Bool.false_ne_true

theorem EncodesBack.fabcfgWrite (v : BitVec 64) : Statement (.fabcfgWrite v) :=
  fun h => absurd h Bool.false_ne_true

theorem EncodesBack.linkTrainDone (port : Nat) (peer : BitVec 11 × BitVec 3) (farLit : Nat) :
    Statement (.linkTrainDone port peer farLit) :=
  fun h => absurd h Bool.false_ne_true

theorem EncodesBack.keyctlGenerate (pid : BitVec 12) : Statement (.keyctlGenerate pid) :=
  fun h => absurd h Bool.false_ne_true

theorem EncodesBack.keyctlErase (pid : BitVec 12) : Statement (.keyctlErase pid) :=
  fun h => absurd h Bool.false_ne_true

theorem EncodesBack.keyctlDone : Statement .keyctlDone :=
  fun h => absurd h Bool.false_ne_true

theorem EncodesBack.windowRead (off len : Nat) : Statement (.windowRead off len) :=
  fun h => absurd h Bool.false_ne_true

theorem EncodesBack.windowWrite (off : Nat) (data : List (BitVec 8)) : Statement (.windowWrite off data) :=
  fun h => absurd h Bool.false_ne_true

theorem EncodesBack.launchRecordWrite (queue off : Nat) (data : List (BitVec 8)) : Statement (.launchRecordWrite queue off data) :=
  fun h => absurd h Bool.false_ne_true

theorem EncodesBack.serviceLaunch (queue : Nat) : Statement (.serviceLaunch queue) :=
  fun h => absurd h Bool.false_ne_true

theorem EncodesBack.qctlWrite (queue : Nat) (v : BitVec 64) : Statement (.qctlWrite queue v) :=
  fun h => absurd h Bool.false_ne_true

theorem EncodesBack.qctlTear (queue : Nat) : Statement (.qctlTear queue) :=
  fun h => absurd h Bool.false_ne_true

theorem EncodesBack.attest : Statement .attest :=
  fun h => absurd h Bool.false_ne_true

theorem EncodesBack.ident : Statement .ident :=
  fun h => absurd h Bool.false_ne_true

theorem EncodesBack.fwwrite : Statement .fwwrite :=
  fun h => absurd h Bool.false_ne_true

theorem EncodesBack.mailboxCommandDone (flashOk : Bool) : Statement (.mailboxCommandDone flashOk) :=
  fun h => absurd h Bool.false_ne_true

theorem EncodesBack.scanStart (v : BitVec 64) : Statement (.scanStart v) :=
  fun h => absurd h Bool.false_ne_true

theorem EncodesBack.scanDrainTimeout : Statement .scanDrainTimeout :=
  fun h => absurd h Bool.false_ne_true

theorem EncodesBack.scanAbort (item : Nat) : Statement (.scanAbort item) :=
  fun h => absurd h Bool.false_ne_true

theorem EncodesBack.scanPatternDone (pass : Bool) : Statement (.scanPatternDone pass) :=
  fun h => absurd h Bool.false_ne_true

theorem EncodesBack.laserSwitchover : Statement .laserSwitchover :=
  fun h => absurd h Bool.false_ne_true

theorem EncodesBack.laserSwitchoverDone : Statement .laserSwitchoverDone :=
  fun h => absurd h Bool.false_ne_true

theorem EncodesBack.laserRequest (req : BitVec 2) : Statement (.laserRequest req) :=
  fun h => absurd h Bool.false_ne_true

theorem EncodesBack.laserTransitionDone : Statement .laserTransitionDone :=
  fun h => absurd h Bool.false_ne_true

theorem EncodesBack.laserWake : Statement .laserWake :=
  fun h => absurd h Bool.false_ne_true

theorem EncodesBack.lctlRetrain (port : Nat) : Statement (.lctlRetrain port) :=
  fun h => absurd h Bool.false_ne_true

theorem EncodesBack.lctlEnable (port : Nat) (en : Bool) : Statement (.lctlEnable port en) :=
  fun h => absurd h Bool.false_ne_true

theorem EncodesBack.laneFailingReport (port lane : Nat) : Statement (.laneFailingReport port lane) :=
  fun h => absurd h Bool.false_ne_true

theorem EncodesBack.narrowNegotiateDone (dir : Nat × Option (List Nat × Nat)) : Statement (.narrowNegotiateDone dir) :=
  fun h => absurd h Bool.false_ne_true

theorem EncodesBack.laneHealthUpdate (port lane : Nat) (power margin : BitVec 12) (fails slots recent : Nat) : Statement (.laneHealthUpdate port lane power margin fails slots recent) :=
  fun h => absurd h Bool.false_ne_true

theorem EncodesBack.laneRecover (port lane : Nat) : Statement (.laneRecover port lane) :=
  fun h => absurd h Bool.false_ne_true

theorem EncodesBack.lutilWindow (port : Nat) : Statement (.lutilWindow port) :=
  fun h => absurd h Bool.false_ne_true

theorem EncodesBack.groupReceive (port : Nat) (grp : LinkGroup) : Statement (.groupReceive port grp) :=
  fun h => absurd h Bool.false_ne_true

theorem EncodesBack.nakReceive (port : Nat) (seq : BitVec 16) : Statement (.nakReceive port seq) :=
  fun h => absurd h Bool.false_ne_true

theorem EncodesBack.linkRecordReceive (record : LinkRec) : Statement (.linkRecordReceive record) :=
  fun h => absurd h Bool.false_ne_true

theorem EncodesBack.tableAgree (digests : BitVec 64 × List (Nat × BitVec 64)) : Statement (.tableAgree digests) :=
  fun h => absurd h Bool.false_ne_true

theorem EncodesBack.remoteRequestArrive (req : RemoteReq) : Statement (.remoteRequestArrive req) :=
  fun h => absurd h Bool.false_ne_true

theorem EncodesBack.remoteReplyArrive (tag : BitVec 16) (refused : Bool) (data : List (BitVec 8)) : Statement (.remoteReplyArrive tag refused data) :=
  fun h => absurd h Bool.false_ne_true

theorem EncodesBack.remoteReissue (tag : BitVec 16) : Statement (.remoteReissue tag) :=
  fun h => absurd h Bool.false_ne_true

theorem EncodesBack.requestAgeDiscard (tag : BitVec 16) : Statement (.requestAgeDiscard tag) :=
  fun h => absurd h Bool.false_ne_true

theorem EncodesBack.replyCacheRetry (tag : BitVec 16) : Statement (.replyCacheRetry tag) :=
  fun h => absurd h Bool.false_ne_true

theorem EncodesBack.migrationArrive (packet : MigPacket) : Statement (.migrationArrive packet) :=
  fun h => absurd h Bool.false_ne_true

theorem EncodesBack.migrationAck (tag : BitVec 16) : Statement (.migrationAck tag) :=
  fun h => absurd h Bool.false_ne_true

theorem EncodesBack.migrationRefused (tag : BitVec 16) (why : MigFail) : Statement (.migrationRefused tag why) :=
  fun h => absurd h Bool.false_ne_true

theorem EncodesBack.collStart (cid : BitVec 16) : Statement (.collStart cid) :=
  fun h => absurd h Bool.false_ne_true

theorem EncodesBack.collJoined (cid : BitVec 16) (digestsEqual : Bool) : Statement (.collJoined cid digestsEqual) :=
  fun h => absurd h Bool.false_ne_true

theorem EncodesBack.chunkReceive (cid : BitVec 16) (xfer : ChunkXfer) : Statement (.chunkReceive cid xfer) :=
  fun h => absurd h Bool.false_ne_true

theorem EncodesBack.chunkAckReceive (cid : BitVec 16) (chunk : Nat) (dev : BitVec 11) (version : Nat) : Statement (.chunkAckReceive cid chunk dev version) :=
  fun h => absurd h Bool.false_ne_true

theorem EncodesBack.completionWave (cid : BitVec 16 × Option (BitVec 11 × Bool × Nat)) : Statement (.completionWave cid) :=
  fun h => absurd h Bool.false_ne_true

theorem EncodesBack.collRestart (cid : BitVec 16) (marks : List (BitVec 11 × List Nat)) : Statement (.collRestart cid marks) :=
  fun h => absurd h Bool.false_ne_true

theorem EncodesBack.idleRound (core : Nat) (passes : List (Nat × SlotPass)) : Statement (.idleRound core passes) :=
  fun h => absurd h Bool.false_ne_true

theorem EncodesBack.illegalInstruction (word : BitVec 32) : Statement (.illegalInstruction word) :=
  fun h => absurd h Bool.false_ne_true

theorem EncodesBack.fetchFault (cause : FetchCause) (va : BitVec 64) : Statement (.fetchFault cause va) :=
  fun h => absurd h Bool.false_ne_true

theorem EncodesBack.prefetchFill (idx : Nat) : Statement (.prefetchFill idx) :=
  fun h => absurd h Bool.false_ne_true

theorem EncodesBack.replyCacheExpiry (src : BitVec 11) (tag : BitVec 16) : Statement (.replyCacheExpiry src tag) :=
  fun h => absurd h Bool.false_ne_true

theorem EncodesBack.softError (site : SoftSite) (correctable : Bool) (pid : BitVec 12) (addr : BitVec 64) : Statement (.softError site correctable pid addr) :=
  fun h => absurd h Bool.false_ne_true

end Sys2Proof.Laws
end

