-- ==== Sys2Proof/Safety.lean ====
section
/-!
DEFINITION. What counts as a safe run, in the terms that the statements use.
-/

namespace Sys2Proof

open Machine

/-- An outcome is a next state. -/
def completes (o : Result) : Prop := ∃ t, o = .next t

/-- A state that a run from `s` reaches. -/
inductive Reaches (s : State) : State → Prop where
  | refl : Reaches s s
  | next (t u : State) (h : Reaches s t) (e : step t = .next u) : Reaches s u

/-- A state of a run is safe: memory is in its canonical form (Machine/Mem.lean), and a step from it has a next state unless
the device is device-fatal, from which only a reset recovers it (15 R392). -/
def Safe (s : State) : Prop := Memory.wf s.mem = true ∧ (s.plat.fatal = false → completes (step s))

end Sys2Proof

/-! ## How the statements speak of an instruction that completes -/

namespace Sys2Proof.Claim

open Sys2Proof.Machine

/-- The checks that precede an instruction pass (02 R36): every v name it uses exists in the slot's mode and window, a
privileged one runs at executive level, a command is issued by an issuing core, an operation closed to a logical process has
none, no stall-hint fault is pending, and a logical process that accesses memory or commands an engine is in a handler. -/
abbrev Ready (s : State) (c : Need) : Prop :=
  (∀ n ∈ c.vs, 32 * s.hart.vwin.toNat + n.toNat < modeRegs s.hart.record.mode) ∧
  (c.priv = true → s.hart.status.exec = true) ∧
  (c.iss = true → s.coreNo < 256 ∧ coreIdx s.coreNo = 15) ∧
  (c.opt = true → s.hart.record.opt = false) ∧
  s.hart.sbHint = false ∧
  (c.mem = true → s.hart.record.opt = true → s.hart.lp.inh = true)

/-- Nothing holds the executing strand's next access: no ordering instruction waits, and every plain store to host memory has
been sent (04 R100; 05 R113, R118). -/
abbrev Calm (s : State) : Prop := s.hart.ordr = none ∧ ∀ p ∈ s.hart.pend, p.plain = false

/-- The instruction completes: the executing strand changes by `f`, then the PC goes on past `len` bytes with the loop-end
step, and nothing else of the machine changes. -/
def Completes (s : State) (i : Instr) (len : Nat) (h : BitVec 2) (f : Slot → Slot) : Prop :=
  exec i s = .next (s.modHart (fun x => (f x).finish len h))

/-- The instruction completes as above, from the state `s1` that its accesses leave. -/
def CompletesFrom (s : State) (i : Instr) (s1 : State) (len : Nat) (h : BitVec 2) (f : Slot → Slot) : Prop :=
  exec i s = .next (s1.modHart (fun x => (f x).finish len h))

/-- The instruction of one word writes `v` to g register `d` and nothing else. -/
def WritesG (s : State) (i : Instr) (h : BitVec 2) (d : BitVec 5) (v : Word) : Prop :=
  Completes s i 4 h (fun x => x.setG d v)

/-- The instruction of `len` bytes writes `v` to g register `d` and ORs `fl` into FXF. -/
def WritesGF (s : State) (i : Instr) (len : Nat) (h : BitVec 2) (d : BitVec 5) (v : Word) (fl : BitVec 6) : Prop :=
  Completes s i len h (fun x => (x.orFxf fl).setG d v)

/-- What the completion of the word at `fin` does to the loop counters and the loop stack, and where it goes, `next` being the
address behind the word (03 R74): an entry that ends elsewhere is not concerned; the counter of one that ends there falls by
one, and while it is not 0 its body begins again, else the entry is popped and the word counts for the next one. -/
inductive WordEnds (fin next : Word) : Vector Word 3 → List LoopEntry → Vector Word 3 → List LoopEntry → Word → Prop where
  | past (lc : Vector Word 3) (l : List LoopEntry) (h : ∀ e ∈ l.head?, e.fin ≠ fin) : WordEnds fin next lc l lc l next
  | again (lc : Vector Word 3) (e : LoopEntry) (r : List LoopEntry) (h : e.fin = fin) (c : lcGet lc e.n ≠ 1) :
      WordEnds fin next lc (e :: r) (lcSet lc e.n (lcGet lc e.n - 1)) (e :: r) e.start
  | pop (lc lc1 : Vector Word 3) (e : LoopEntry) (r l1 : List LoopEntry) (pc : Word) (h : e.fin = fin)
      (c : lcGet lc e.n = 1) (t : WordEnds fin next (lcSet lc e.n 0) r lc1 l1 pc) : WordEnds fin next lc (e :: r) lc1 l1 pc

/-- 1 if a relation holds, else 0. -/
def truth (p : Prop) [Decidable p] : Word := if p then 1 else 0

end Sys2Proof.Claim
end

