-- ==== Sys2Proof/Certificates/Slice0/Obligations.lean ====
section
/-!
DEFINITION. The statements about the model, each formalising what its docstring cites.
-/

section

open Sys2Proof Sys2Proof.Machine Sys2Proof.Claim

/-! ## Integer instructions (03) -/

/-- The forms of 03 R55 that compute on two registers, or choose between them, write gd and nothing else. -/
def Sys2Proof.Claim.IntegerRegisterForms : Prop :=
  ∀ (s : State) (d a b : BitVec 5) (h : BitVec 2), Ready s Need.any →
    let x := s.hart.getG a
    let y := s.hart.getG b
    WritesG s (.add d a b h) h d (x + y) ∧
    WritesG s (.sub d a b h) h d (x - y) ∧
    WritesG s (.and d a b h) h d (x &&& y) ∧
    WritesG s (.or d a b h) h d (x ||| y) ∧
    WritesG s (.xor d a b h) h d (x ^^^ y) ∧
    WritesG s (.andn d a b h) h d (x &&& ~~~y) ∧
    WritesG s (.orn d a b h) h d (x ||| ~~~y) ∧
    WritesG s (.xnor d a b h) h d (~~~(x ^^^ y)) ∧
    WritesG s (.mul d a b h) h d (BitVec.ofNat 64 (x.toNat * y.toNat)) ∧
    WritesG s (.mulh d a b h) h d (BitVec.ofInt 64 (x.toInt * y.toInt / 2 ^ 64)) ∧
    WritesG s (.mulhn d a b h) h d (BitVec.ofNat 64 (x.toNat * y.toNat / 2 ^ 64)) ∧
    WritesG s (.min d a b h) h d (if x.toInt ≤ y.toInt then x else y) ∧
    WritesG s (.max d a b h) h d (if x.toInt ≤ y.toInt then y else x) ∧
    WritesG s (.minn d a b h) h d (if x.toNat ≤ y.toNat then x else y) ∧
    WritesG s (.maxn d a b h) h d (if x.toNat ≤ y.toNat then y else x) ∧
    WritesG s (.cmpEq d a b h) h d (truth (x = y)) ∧
    WritesG s (.cmpNe d a b h) h d (truth (x ≠ y)) ∧
    WritesG s (.cmpLt d a b h) h d (truth (x.toInt < y.toInt)) ∧
    WritesG s (.cmpGe d a b h) h d (truth (y.toInt ≤ x.toInt)) ∧
    WritesG s (.cmpLtn d a b h) h d (truth (x.toNat < y.toNat)) ∧
    WritesG s (.cmpGen d a b h) h d (truth (y.toNat ≤ x.toNat)) ∧
    WritesG s (.sel d a b h) h d (if s.hart.getG d ≠ 0 then x else y)

/-- The forms of 03 R55 with one operand: counts, reversals and extensions. -/
def Sys2Proof.Claim.IntegerUnaryForms : Prop :=
  ∀ (s : State) (d a : BitVec 5) (h : BitVec 2), Ready s Need.any →
    let x := s.hart.getG a
    (∃ n ≤ 64, WritesG s (.clz d a h) h d (BitVec.ofNat 64 n) ∧ (∀ j < n, x.getLsbD (63 - j) = false) ∧
      (n < 64 → x.getLsbD (63 - n) = true)) ∧
    (∃ n ≤ 64, WritesG s (.ctz d a h) h d (BitVec.ofNat 64 n) ∧ (∀ j < n, x.getLsbD j = false) ∧
      (n < 64 → x.getLsbD n = true)) ∧
    WritesG s (.popc d a h) h d (BitVec.ofNat 64 ((List.range 64).filter (fun j => x.getLsbD j)).length) ∧
    (∃ r : Word, WritesG s (.brev d a h) h d r ∧ ∀ j < 64, r.getLsbD j = x.getLsbD (63 - j)) ∧
    (∃ r : Word, WritesG s (.bswap d a h) h d r ∧ ∀ j < 8, r.extractLsb' (8 * j) 8 = x.extractLsb' (8 * (7 - j)) 8) ∧
    WritesG s (.sextB d a h) h d ((x.extractLsb' 0 8).signExtend 64) ∧
    WritesG s (.sextH d a h) h d ((x.extractLsb' 0 16).signExtend 64) ∧
    WritesG s (.sextW d a h) h d ((x.extractLsb' 0 32).signExtend 64) ∧
    WritesG s (.zextB d a h) h d ((x.extractLsb' 0 8).zeroExtend 64) ∧
    WritesG s (.zextH d a h) h d ((x.extractLsb' 0 16).zeroExtend 64) ∧
    WritesG s (.zextW d a h) h d ((x.extractLsb' 0 32).zeroExtend 64)

/-- 03 R56: the division forms never trap; the quotient is truncated toward zero, the remainder has the sign of the dividend,
a zero divisor gives all ones and the dividend, -2^63 by -1 gives -2^63 and 0, and otherwise the dividend is
quotient * divisor + remainder. -/
def Obligations.DivisionForms : Prop :=
  ∀ (s : State) (d a b : BitVec 5) (h : BitVec 2), Ready s Need.any →
    let x := s.hart.getG a
    let y := s.hart.getG b
    ∃ q r qn rn : Word,
      WritesG s (.div d a b h) h d q ∧ WritesG s (.rem d a b h) h d r ∧
      WritesG s (.divn d a b h) h d qn ∧ WritesG s (.remn d a b h) h d rn ∧
      (y = 0 → q = 0xFFFFFFFFFFFFFFFF ∧ r = x ∧ qn = 0xFFFFFFFFFFFFFFFF ∧ rn = x) ∧
      (y ≠ 0 → q * y + r = x ∧ qn * y + rn = x ∧ qn.toNat = x.toNat / y.toNat ∧ rn.toNat = x.toNat % y.toNat ∧
        r.toInt = x.toInt.tmod y.toInt) ∧
      (x = 0x8000000000000000 → y = 0xFFFFFFFFFFFFFFFF → q = 0x8000000000000000 ∧ r = 0) ∧
      (y ≠ 0 → ¬(x = 0x8000000000000000 ∧ y = 0xFFFFFFFFFFFFFFFF) → q.toInt = x.toInt.tdiv y.toInt)

/-- 03 R57: the shift forms; the register forms take the count from gb[5:0], the immediate forms from the instruction. -/
def Obligations.ShiftForms : Prop :=
  ∀ (s : State) (d a b n : BitVec 5) (m : BitVec 1) (h : BitVec 2), Ready s Need.any →
    let x := s.hart.getG a
    let c := (s.hart.getG b).toNat % 64
    let k := 32 * m.toNat + n.toNat
    WritesG s (.sll d a b h) h d (x <<< c) ∧ WritesG s (.sllImm d a n m h) h d (x <<< k) ∧
    WritesG s (.srl d a b h) h d (x >>> c) ∧ WritesG s (.srlImm d a n m h) h d (x >>> k) ∧
    WritesG s (.sra d a b h) h d (x.sshiftRight c) ∧ WritesG s (.sraImm d a n m h) h d (x.sshiftRight k) ∧
    WritesG s (.rol d a b h) h d (x <<< c ||| x >>> (64 - c)) ∧
    WritesG s (.rolImm d a n m h) h d (x <<< k ||| x >>> (64 - k))

/-- 03 R58: a `.w` form computes on the low halves and writes its 32-bit result sign-extended. -/
def Obligations.WordForms : Prop :=
  ∀ (s : State) (d a b n : BitVec 5) (h : BitVec 2), Ready s Need.any →
    let x : BitVec 32 := (s.hart.getG a).extractLsb' 0 32
    let y : BitVec 32 := (s.hart.getG b).extractLsb' 0 32
    let c := (s.hart.getG b).toNat % 32
    let W (i : Instr) (r : BitVec 32) : Prop := WritesG s i h d (r.signExtend 64)
    W (.addW d a b h) (x + y) ∧ W (.subW d a b h) (x - y) ∧ W (.mulW d a b h) (x * y) ∧
    W (.divW d a b h) (if y = 0 then 0xFFFFFFFF else BitVec.ofInt 32 (x.toInt.tdiv y.toInt)) ∧
    W (.divnW d a b h) (if y = 0 then 0xFFFFFFFF else BitVec.ofNat 32 (x.toNat / y.toNat)) ∧
    W (.remW d a b h) (if y = 0 then x else BitVec.ofInt 32 (x.toInt.tmod y.toInt)) ∧
    W (.remnW d a b h) (if y = 0 then x else BitVec.ofNat 32 (x.toNat % y.toNat)) ∧
    W (.sllW d a b h) (x <<< c) ∧ W (.srlW d a b h) (x >>> c) ∧ W (.sraW d a b h) (x.sshiftRight c) ∧
    W (.rolW d a b h) (x <<< c ||| x >>> (32 - c)) ∧
    W (.sllWImm d a n h) (x <<< n.toNat) ∧ W (.srlWImm d a n h) (x >>> n.toNat) ∧
    W (.sraWImm d a n h) (x.sshiftRight n.toNat) ∧ W (.rolWImm d a n h) (x <<< n.toNat ||| x >>> (32 - n.toNat))

/-- 03 R59: the saturating forms clamp the exact sum or difference to the range of the result type: outside it gd receives
the nearer bound and FXF.SAT is set, otherwise gd receives the exact value and FXF is unchanged. -/
def Obligations.SaturatingForms : Prop :=
  ∀ (s : State) (d a b : BitVec 5) (h : BitVec 2), Ready s Need.any →
    let x := s.hart.getG a
    let y := s.hart.getG b
    let Clamped (i : Instr) (v lo hi : Int) : Prop :=
      (lo ≤ v ∧ v ≤ hi → WritesG s i h d (BitVec.ofInt 64 v)) ∧
      (v < lo → WritesGF s i 4 h d (BitVec.ofInt 64 lo) flagSAT) ∧
      (hi < v → WritesGF s i 4 h d (BitVec.ofInt 64 hi) flagSAT)
    Clamped (.adds d a b h) (x.toInt + y.toInt) (-2 ^ 63) (2 ^ 63 - 1) ∧
    Clamped (.subs d a b h) (x.toInt - y.toInt) (-2 ^ 63) (2 ^ 63 - 1) ∧
    Clamped (.addsn d a b h) (x.toNat + y.toNat) 0 (2 ^ 64 - 1) ∧
    Clamped (.subsn d a b h) ((x.toNat : Int) - y.toNat) 0 (2 ^ 64 - 1)

/-- 03 R60: the forms with a 14-bit immediate, sign-extended. -/
def Obligations.ImmediateForms : Prop :=
  ∀ (s : State) (d a : BitVec 5) (imm : BitVec 14) (h : BitVec 2), Ready s Need.any →
    let x := s.hart.getG a
    let y : Word := imm.signExtend 64
    WritesG s (.addImm d a imm h) h d (x + y) ∧ WritesG s (.andImm d a imm h) h d (x &&& y) ∧
    WritesG s (.orImm d a imm h) h d (x ||| y) ∧ WritesG s (.xorImm d a imm h) h d (x ^^^ y) ∧
    WritesG s (.cmpLtImm d a imm h) h d (truth (x.toInt < y.toInt)) ∧
    WritesG s (.cmpLtnImm d a imm h) h d (truth (x.toNat < y.toNat))

/-! ## Scalar floating point (03 R61 to R67; 07 R175) -/

/-- 03 R62, R65, R66: the register forms compute on the FP32 values of ga[31:0] and gb[31:0], with one rounding under rm,
write the result zero-extended and OR its flags into FXF; `fabs` and `fneg` change bit 31 alone and no flag. -/
def Obligations.FloatRegisterForms : Prop :=
  ∀ (s : State) (d a b : BitVec 5) (r h : BitVec 2), Ready s Need.any →
    let x := d32 ((s.hart.getG a).toNat % 2 ^ 32)
    let y := d32 ((s.hart.getG b).toNat % 2 ^ 32)
    let z := d32 ((s.hart.getG d).toNat % 2 ^ 32)
    let F (i : Instr) (rm : Nat) (v : FRes) : Prop := WritesGF s i 4 h d (BitVec.ofNat 64 (f32 rm v).1) (f32 rm v).2
    let C (i : Instr) (rel : Nat) : Prop := WritesGF s i 4 h d (truth ((fRel fmt32 rel x y).1 = true)) (fRel fmt32 rel x y).2
    F (.fadd d a b r h) r.toNat (fAdd fmt32 r.toNat x y) ∧ F (.fsub d a b r h) r.toNat (fSub fmt32 r.toNat x y) ∧
    F (.fmul d a b r h) r.toNat (fMul fmt32 x y) ∧ F (.fdiv d a b r h) r.toNat (fDiv fmt32 x y) ∧
    F (.fma d a b r h) r.toNat (fFma fmt32 r.toNat false z x y) ∧
    F (.fnma d a b r h) r.toNat (fFma fmt32 r.toNat true z x y) ∧
    F (.fsqrt d a r h) r.toNat (fSqrt fmt32 x) ∧
    F (.fmin d a b h) 0 (fMinMax fmt32 false x y) ∧ F (.fmax d a b h) 0 (fMinMax fmt32 true x y) ∧
    WritesG s (.fabs d a h) h d (BitVec.ofNat 64 ((s.hart.getG a).toNat % 2 ^ 31)) ∧
    WritesG s (.fneg d a h) h d (((s.hart.getG a).extractLsb' 0 32 ^^^ 0x80000000).zeroExtend 64) ∧
    C (.fcmpEq d a b h) 0 ∧ C (.fcmpLt d a b h) 2 ∧ C (.fcmpLe d a b h) 3 ∧ C (.fcmpUn d a b h) 6

/-- 03 R66: each `fcmp` form writes 1 when its relation holds and 0 otherwise. With a NaN operand, `eq`, `lt` and `le` are
false and `un` is true; `lt` and `le` set NV for any NaN operand, `eq` and `un` only for a signalling one. The relation of
operands that are not NaN is said on their encodings: magnitude with sign, so that +0 and -0 compare equal. -/
def Obligations.ScalarCompares : Prop :=
  ∀ (s : State) (d a b : BitVec 5) (h : BitVec 2), Ready s Need.any →
    let x : BitVec 32 := (s.hart.getG a).extractLsb' 0 32
    let y : BitVec 32 := (s.hart.getG b).extractLsb' 0 32
    let nan (c : BitVec 32) : Prop := c.extractLsb' 23 8 = 0xFF ∧ c.extractLsb' 0 23 ≠ 0
    let signalling (c : BitVec 32) : Prop := nan c ∧ c.getLsbD 22 = false
    let key (c : BitVec 32) : Int := if c.getLsbD 31 then -(c.toNat % 2 ^ 31 : Nat) else (c.toNat % 2 ^ 31 : Nat)
    let some_ : Prop := nan x ∨ nan y
    let sig : Prop := signalling x ∨ signalling y
    let Writes (i : Instr) (rel nv : Prop) : Prop :=
      (rel → nv → WritesGF s i 4 h d 1 flagNV) ∧ (rel → ¬nv → WritesGF s i 4 h d 1 0) ∧
      (¬rel → nv → WritesGF s i 4 h d 0 flagNV) ∧ (¬rel → ¬nv → WritesGF s i 4 h d 0 0)
    Writes (.fcmpEq d a b h) (¬some_ ∧ key x = key y) sig ∧
    Writes (.fcmpLt d a b h) (¬some_ ∧ key x < key y) some_ ∧
    Writes (.fcmpLe d a b h) (¬some_ ∧ key x ≤ key y) some_ ∧
    Writes (.fcmpUn d a b h) some_ sig

/-- 07 R175 and 03 R67: scalar conversions under rm, and `fmov` of an immediate, which sets no flag. -/
def Obligations.FloatConversionForms : Prop :=
  ∀ (s : State) (d a : BitVec 5) (r h : BitVec 2) (imm : BitVec 20), Ready s Need.any →
    let g := s.hart.getG a
    let x := d32 (g.toNat % 2 ^ 32)
    let ToInt (i : Instr) (w : Nat) (signed : Bool) : Prop :=
      WritesGF s i 4 h d (BitVec.ofInt 64 (floatToInt x w signed r.toNat).1) (floatToInt x w signed r.toNat).2
    let OfInt (i : Instr) (v w : Nat) (signed : Bool) : Prop :=
      WritesGF s i 4 h d (BitVec.ofNat 64 (convert v (.int w signed) (.flt (.ieee fmt32)) r.toNat).1)
        (convert v (.int w signed) (.flt (.ieee fmt32)) r.toNat).2
    ToInt (.fcvtI32F d a r h) 32 true ∧ ToInt (.fcvtI64F d a r h) 64 true ∧
    ToInt (.fcvtN32F d a r h) 32 false ∧ ToInt (.fcvtN64F d a r h) 64 false ∧
    OfInt (.fcvtFI32 d a r h) (g.toNat % 2 ^ 32) 32 true ∧ OfInt (.fcvtFI64 d a r h) g.toNat 64 true ∧
    OfInt (.fcvtFN32 d a r h) (g.toNat % 2 ^ 32) 32 false ∧ OfInt (.fcvtFN64 d a r h) g.toNat 64 false ∧
    WritesG s (.fmov d imm) 0 d (imm.zeroExtend 64 <<< 12)

/-- 03 R69 (and R68): each function of the table with K from the constant bank, in a word of its own, and with K from the
literal word after the carrier, so that the PC goes past both words. -/
def Obligations.ConstantAndLiteralForms : Prop :=
  ∀ (s : State) (d a : BitVec 5) (k : BitVec 8) (lit : BitVec 32) (h : BitVec 2), Ready s Need.any →
    let g := s.hart.getG a
    let x := d32 (g.toNat % 2 ^ 32)
    let z := d32 ((s.hart.getG d).toNat % 2 ^ 32)
    let kk := s.hart.kbank.extractLsb' (32 * k.toNat) 32
    let Both (i j : Instr) (f : BitVec 32 → Word × BitVec 6) : Prop :=
      WritesGF s i 4 h d (f kk).1 (f kk).2 ∧ WritesGF s j 8 h d (f lit).1 (f lit).2
    let fp (v : FRes) : Word × BitVec 6 := (BitVec.ofNat 64 (f32 0 v).1, (f32 0 v).2)
    Both (.faddK d a k h) (.faddLit d a lit h) (fun c => fp (fAdd fmt32 0 x (d32 c.toNat))) ∧
    Both (.fsubK d a k h) (.fsubLit d a lit h) (fun c => fp (fSub fmt32 0 x (d32 c.toNat))) ∧
    Both (.fmulK d a k h) (.fmulLit d a lit h) (fun c => fp (fMul fmt32 x (d32 c.toNat))) ∧
    Both (.fmaK d a k h) (.fmaLit d a lit h) (fun c => fp (fFma fmt32 0 false z x (d32 c.toNat))) ∧
    Both (.fnmaK d a k h) (.fnmaLit d a lit h) (fun c => fp (fFma fmt32 0 true z x (d32 c.toNat))) ∧
    Both (.fminK d a k h) (.fminLit d a lit h) (fun c => fp (fMinMax fmt32 false x (d32 c.toNat))) ∧
    Both (.fmaxK d a k h) (.fmaxLit d a lit h) (fun c => fp (fMinMax fmt32 true x (d32 c.toNat))) ∧
    Both (.fmovK d k h) (.fmovLit d lit h) (fun c => (c.zeroExtend 64, 0)) ∧
    Both (.addK d a k h) (.addLit d a lit h) (fun c => (g + c.signExtend 64, 0)) ∧
    Both (.andK d a k h) (.andLit d a lit h) (fun c => (g &&& c.signExtend 64, 0)) ∧
    Both (.orK d a k h) (.orLit d a lit h) (fun c => (g ||| c.signExtend 64, 0)) ∧
    Both (.xorK d a k h) (.xorLit d a lit h) (fun c => (g ^^^ c.signExtend 64, 0)) ∧
    Both (.movK d k h) (.movLit d lit h) (fun c => (c.signExtend 64, 0)) ∧
    Both (.movnK d k h) (.movnLit d lit h) (fun c => (c.zeroExtend 64, 0)) ∧
    Both (.cmpEqK d a k h) (.cmpEqLit d a lit h) (fun c => (truth (g = c.signExtend 64), 0)) ∧
    Both (.cmpLtK d a k h) (.cmpLtLit d a lit h) (fun c => (truth (g.toInt < (c.signExtend 64).toInt), 0))

/-! ## Transfers and loops (03 R70 to R75) -/

/-- A taken transfer (03 R71, R72, R75): the PC becomes the target, and memory, the v and p registers, the loop counters and
STATUS keep their values. Where the target passes PCALN and LITTGT, `link`, if any, takes PC + 4 and every other g register
keeps its value, and outside a trap handler the loop stack is unchanged where the body of its top entry holds the target, and
else loses every entry whose body does not. Where it fails one of them, the g registers and the loop stack keep their values,
while a target whose own fetch fails has been transferred to: the model's reading (log 21). While another device has not yet
sent the word below the target, the instruction waits unchanged. -/
def Sys2Proof.Claim.Transfers (s : State) (i : Instr) (target : Word) (link : Option (BitVec 5)) : Prop :=
  let body (e : LoopEntry) : Bool := decide (e.start.toNat ≤ target.toNat) && decide (target.toNat ≤ e.fin.toNat)
  (s.targetFar (targetId s.hid) s.hid target = false →
    ∃ t, exec i s = .next t ∧ t.hart.pc = target ∧ t.mem = s.mem ∧ t.hart.v = s.hart.v ∧ t.hart.p = s.hart.p ∧
    t.hart.lc = s.hart.lc ∧ t.hart.status = s.hart.status ∧
    ((s.targetFault s.hid target).1 = none →
      (∀ r, t.hart.getG r = if link = some r then s.hart.pc + 4 else s.hart.getG r) ∧
      (s.hart.status.trap = false →
        t.hart.loops = if s.hart.loops.head?.all body then s.hart.loops else s.hart.loops.filter body) ∧
      (s.hart.status.trap = true → t.hart.loops = s.hart.loops)) ∧
    ((s.targetFault s.hid target).1 ≠ none → t.hart.g = s.hart.g ∧ t.hart.loops = s.hart.loops)) ∧
  (s.targetFar (targetId s.hid) s.hid target = true →
    ∃ t, exec i s = .next t ∧ t.hart.pc = s.hart.pc ∧ t.hart.park = some .again ∧ t.hart.g = s.hart.g ∧
      t.hart.loops = s.hart.loops ∧ t.mem = s.mem)

/-- 03 R70: a conditional branch goes to PC + 4 * off when its condition holds, and else only past its word; `nop` goes past
its word. -/
def Sys2Proof.Claim.ConditionalBranches : Prop :=
  ∀ (s : State) (a : BitVec 5) (p : BitVec 3) (off : BitVec 14) (h : BitVec 2), Ready s Need.any →
    let v := (s.hart.getG a).toInt
    let lanes := 2048 / (8 * 2 ^ s.hart.vw.toNat)
    let bit (j : Nat) : Prop := p = 0 ∨ (s.hart.getP p).getLsbD j = true
    let Branch (i : Instr) (taken : Prop) : Prop :=
      (taken → Transfers s i (s.hart.pc + (off.signExtend 64 <<< 2)) none) ∧ (¬taken → Completes s i 4 h id)
    Branch (.beqz a off h) (v = 0) ∧ Branch (.bnez a off h) (v ≠ 0) ∧ Branch (.bltz a off h) (v < 0) ∧
    Branch (.bgez a off h) (0 ≤ v) ∧ Branch (.bgtz a off h) (0 < v) ∧ Branch (.blez a off h) (v ≤ 0) ∧
    Branch (.bany p off h) (∃ j < lanes, bit j) ∧ Branch (.ball p off h) (∀ j < lanes, bit j) ∧
    Branch (.bnone p off h) (∀ j < lanes, ¬bit j) ∧ Completes s (.nop h) 4 h id

/-- 03 R71, R72: jumps and calls; `call` and `callr` write PC + 4 to the link register, the target of `callr` read first. -/
def Sys2Proof.Claim.JumpsAndCalls : Prop :=
  ∀ (s : State) (l a : BitVec 5) (off : BitVec 19) (h : BitVec 2), Ready s Need.any →
    Transfers s (.j off h) (s.hart.pc + (off.signExtend 64 <<< 2)) none ∧
    Transfers s (.call l off h) (s.hart.pc + (off.signExtend 64 <<< 2)) (some l) ∧
    Transfers s (.jr a h) (s.hart.getG a) none ∧ Transfers s (.callr l a h) (s.hart.getG a) (some l)

/-- 03 R74: `loop` and `loopi` with a body of at most 256 words inside the body of the innermost entry, a counter no entry
holds and fewer than three entries, the word at the label fetched. With a non-zero count lcN takes the count, an entry is
pushed and the body begins. With a count of 0 the body is skipped and its final word counts as completed for every entry that
ends there too. A longer body raises LOOPLEN, and a fourth entry, a counter in use or a body that ends behind the innermost
one LOOPNEST. -/
def Sys2Proof.Claim.LoopsBegin : Prop :=
  ∀ (s : State) (n a c : BitVec 5) (m : BitVec 14) (h : BitVec 2) (w : BitVec 32), Ready s Need.any → n.toNat ≤ 2 →
    let x := s.hart
    let last := x.pc + BitVec.ofNat 64 (4 * m.toNat)
    (s.fetchBy (loopId s.hid) s.hid last).1 = .ok (some w) →
    let s1 := (s.fetchBy (loopId s.hid) s.hid last).2.engineForget (loopId s.hid)
    let fin := if w.extractLsb' 26 6 = 0x0E then last + 4 else last
    let long : Prop := 1024 < (fin - x.pc).toNat
    let bad : Prop := x.loops.length = 3 ∨ (∃ e ∈ x.loops, e.n.toNat = n.toNat) ∨ ∃ e ∈ x.loops.head?, e.fin.toNat < fin.toNat
    let Begins (i : Instr) (count : Word) : Prop :=
      (long → exec i s = .next (s1.raiseAt s1.hid Cause.looplen.code s1.hart.pc 0 false)) ∧
      (¬long → bad → exec i s = .next (s1.raiseAt s1.hid Cause.loopnest.code s1.hart.pc 0 false)) ∧
      (¬long → ¬bad → count ≠ 0 → ∃ t, exec i s = .next t ∧ t.hart.pc = x.pc + 4 ∧ t.hart.g = x.g ∧
        (∀ k : Fin 3, t.hart.lc[k] = if k.val = n.toNat then count else x.lc[k]) ∧
        t.hart.loops = { n := n.setWidth 2, start := x.pc + 4, fin := fin } :: x.loops) ∧
      (¬long → ¬bad → count = 0 → ∃ t, exec i s = .next t ∧ t.hart.g = x.g ∧
        (x.status.trap = true → t.hart.pc = fin + 4 ∧ t.hart.lc = x.lc ∧ t.hart.loops = x.loops) ∧
        (x.status.trap = false → WordEnds fin (fin + 4) x.lc x.loops t.hart.lc t.hart.loops t.hart.pc))
    Begins (.loop n a m h) (x.getG a) ∧ Begins (.loopi n c m h) (c.zeroExtend 64)

/-- 03 R74, the loop-end step: when the instruction whose final word ends the innermost body completes, its counter falls by
one; while it is not 0 the PC becomes the start of the body, and at 0 the entry is popped and the same word counts for the
next entry, whose body may end there too. An instruction that ends no body moves the PC past itself. Nothing of this happens
while TRAP = 1. -/
def Sys2Proof.Claim.LoopEndStep : Prop :=
  ∀ (x : Slot) (h : BitVec 2) (k : Nat), k = 4 ∨ k = 8 →
    let fin := x.pc + BitVec.ofNat 64 (k - 4)
    let y := x.finish k h
    (x.status.trap = true → y.pc = x.pc + BitVec.ofNat 64 k ∧ y.lc = x.lc ∧ y.loops = x.loops) ∧
    (x.status.trap = false → WordEnds fin (x.pc + BitVec.ofNat 64 k) x.lc x.loops y.lc y.loops y.pc) ∧
    (∀ (e f : LoopEntry) (r : List LoopEntry), x.status.trap = false → x.loops = e :: f :: r → e.fin = fin → f.fin = fin →
      e.n.toNat < 3 → f.n.toNat < 3 → e.n ≠ f.n → lcGet x.lc e.n = 1 → lcGet x.lc f.n ≠ 1 →
      y.pc = f.start ∧ y.loops = f :: r ∧ lcGet y.lc e.n = 0 ∧ lcGet y.lc f.n = lcGet x.lc f.n - 1)
/-! ## Memory (04 R80 to R109; 05 R113 to R116; 07 R171) -/

/-- 04 R100: scalar accesses to local store at an aligned address below 2^18. A load writes the zero-extended bytes that the
core's local store holds there, lowest address first; a store writes the low bytes of its register there. Each comes after
whatever an ordering instruction still holds. -/
def Sys2Proof.Claim.LocalStoreScalars : Prop :=
  ∀ (s : State) (d b : BitVec 5) (o : BitVec 11) (z h : BitVec 2), Ready s Need.access →
    let n := 2 ^ z.toNat
    let ea := s.hart.getG b + (o.signExtend 64 <<< z.toNat)
    let at_ := 2 ^ 52 + s.coreNo * 2 ^ 18 + ea.toNat
    ea.toNat < 2 ^ 18 → ea.toNat % n = 0 →
    (let s1 := (s.beforeAccess false).consumeHart at_ n
     CompletesFrom s (.ldL d b o z h) s1 4 h (fun x => x.setG d (BitVec.ofNat 64 (leNat (memBytes s1.mem (localBase s1.coreNo + ea.toNat) n))))) ∧
    (let s1 := s.beforeAccess true
     CompletesFrom s (.stL d b o z h) { s1 with mem := memPut s1.mem (localBase s1.coreNo + ea.toNat) (natLe n (s.hart.getG d).toNat) } 4 h id)

/-- 04 R102: contiguous vector accesses to local store at an address that is a multiple of 256 below 2^18: a load merges the
elements that the mask selects, a store writes their bytes and no others; with no element selected neither does anything. -/
def Sys2Proof.Claim.LocalStoreVectors : Prop :=
  ∀ (s : State) (v a b : BitVec 5) (p : BitVec 3) (h : BitVec 2), Ready s { Need.access with vs := [v] } →
    let ea := s.hart.getG a + s.hart.getG b
    let l := s.hart.active p
    (l = [] → Completes s (.vldL v a b p h) 4 h id ∧ Completes s (.vstL v a b p h) 4 h id) ∧
    (l ≠ [] → ea.toNat < 2 ^ 18 → ea.toNat % 256 = 0 →
      (let s1 := (s.beforeAccess false).consumeHart (localBase s.coreNo + ea.toNat) 256
       CompletesFrom s (.vldL v a b p h) s1 4 h (fun x =>
         x.setV v (vMerge (x.getV v) (bytesV (memBytes s1.mem (localBase s1.coreNo + ea.toNat) 256)) x.wb (x.active p)))) ∧
      CompletesFrom s (.vstL v a b p h)
        (l.foldl (fun (t : State) i =>
          t.localWrite (ea.toNat + s.hart.wb * i) (vBytes (s.hart.getV v) (s.hart.wb * i) s.hart.wb)) (s.beforeAccess true))
        4 h id)

/-- What every access to a word of a bank needs: the address names it, no switch is under way and no access that one held
is still to be performed, and its PID is the strand's unless the strand is executive (04 R82, R83, R85). -/
def Sys2Proof.Claim.SramAt (s : State) (ea : Word) (t b off : Nat) : Prop :=
  spLoc ea = some (.sram t b off) ∧ ((s.tile t).bank b).sw = false ∧ ((s.tile t).bank b).held = [] ∧
  (s.hart.status.exec = true ∨ ((s.tile t).bank b).pid = s.hart.pid)

/-- 04 R100 with R81 to R89: scalar accesses to scratchpad banks. In a bank of plain scratchpad mode an aligned load writes the
bytes that stand there and a store writes its bytes there and marks their words written; a relaxed one is deferred. In a FIFO
bank with nothing waiting, a 64-bit load takes the head and a store joins the tail. -/
def Sys2Proof.Claim.ScratchpadScalars : Prop :=
  ∀ (s : State) (d c : BitVec 5) (o : BitVec 11) (z : BitVec 2) (r : BitVec 1) (h : BitVec 2) (t b off : Nat),
    Ready s Need.access →
    let n := 2 ^ z.toNat
    let ea := s.hart.getG c + (o.signExtend 64 <<< z.toNat)
    SramAt s ea t b off → ea.toNat % n = 0 →
    (((s.tile t).bank b).mode = 1 → (s.tile t).ownerOf (slabOf b off) = 0 → Calm s →
      (r = 1 →
        Completes s (.ldS d c o z r h) 4 h (fun x => { x with pend := x.pend ++ [{ kind := .loadG d, scratch := true, va := none, elems := [{ addr := ea.toNat, len := n, idx := 0, data := 0 }], cacheable := false, hint := 0, hostOrd := false }] }) ∧
        Completes s (.stS d c o z r h) 4 h (fun x => { x with pend := x.pend ++ [{ kind := .store, scratch := true, va := none, elems := [{ addr := ea.toNat, len := n, idx := 0, data := s.hart.getG d }], cacheable := false, hint := 0, hostOrd := false }] })) ∧
      (r = 0 →
        let s1 := s.settleRange s.hid true ea.toNat n
        (s1.hart.status.unwr = false →
          let s2 := s1.consumeHart (spBase ea.toNat) n
          CompletesFrom s (.ldS d c o z r h) s2 4 h (fun x => x.setG d (BitVec.ofNat 64 (leNat (memBytes s1.mem (2 ^ 53 + ea.toNat) n))))) ∧
        CompletesFrom s (.stS d c o z r h)
          (({ s1 with mem := memPut s1.mem (2 ^ 53 + ea.toNat) (natLe n (s.hart.getG d).toNat) } : State).modTile t
            (fun x => x.markWritten ea.toNat n)) 4 h id)) ∧
    (((s.tile t).bank b).mode = 2 → n = 8 → ((s.tile t).bank b).waits = [] → Calm s → s.findSlot s.hart.sid = some s.hid →
      (∀ w q, ((s.tile t).bank b).fifo = w :: q →
        ∃ u, exec (.ldS d c o z r h) s = .next u ∧ u.hart.getG d = w ∧ ((u.tile t).bank b).fifo = q ∧ u.mem = s.mem) ∧
      (((s.tile t).bank b).fifo.length < 131072 →
        ∃ u, exec (.stS d c o z r h) s = .next u ∧ u.hart.g = s.hart.g ∧
          ((u.tile t).bank b).fifo = ((s.tile t).bank b).fifo ++ [s.hart.getG d] ∧ u.mem = s.mem))

/-- 04 R102: contiguous and indexed vector accesses to scratchpad whose every selected element passes its checks: deferred
where relaxed, else performed in ascending index after the accesses that touch the same bytes. -/
def Sys2Proof.Claim.ScratchpadVectors : Prop :=
  ∀ (s : State) (v a b : BitVec 5) (p : BitVec 3) (r : BitVec 1) (h : BitVec 2) (t k off : Nat),
    Ready s { Need.access with vs := [v] } → Calm s → s.hart.status.unwr = false →
    let l := s.hart.active p
    let x := s.hart
    (l = [] → Completes s (.vldS v a b p r h) 4 h id ∧ Completes s (.vstS v a b p r h) 4 h id) ∧
    (l ≠ [] →
     let ea := s.hart.getG a + s.hart.getG b
     let ld := x.elemsAt l ea.toNat 0
     let st := x.elemsAt l ea.toNat (x.getV v)
     SramAt s ea t k off → ((s.tile t).bank k).mode = 1 → (s.tile t).ownerOf (slabOf k off) = 0 → ea.toNat % 256 = 0 →
     (r = 1 →
       Completes s (.vldS v a b p r h) 4 h (fun y => { y with pend := y.pend ++ [{ kind := .loadV (physV x.vwin v) x.wb, scratch := true, va := some ea, elems := ld, cacheable := false, hint := 0, hostOrd := false }] }) ∧
       Completes s (.vstS v a b p r h) 4 h (fun y => { y with pend := y.pend ++ [{ kind := .store, scratch := true, va := some ea, elems := st, cacheable := false, hint := 0, hostOrd := false }] })) ∧
     (r = 0 →
       let s1 := s.settleRange s.hid true ea.toNat 256
       (s1.hart.status.unwr = false → CompletesFrom s (.vldS v a b p r h) (s1.landScratch v ld) 4 h id) ∧
       CompletesFrom s (.vstS v a b p r h) (st.foldl (fun (c : State) e => c.spWrite e.addr (natLe e.len e.data.toNat)) s1) 4 h id)) ∧
    (let ld := x.gatherElems a b l 0
     let st := x.gatherElems a b l (x.getV v)
     Ready s { Need.access with vs := [v, b] } → l ≠ [] → s.gatherGate a b l = none →
     (s.gatherCheckS a b false l = none →
       (r = 1 → Completes s (.vgthS v a b p r h) 4 h (fun y => { y with pend := y.pend ++ [{ kind := .loadV (physV x.vwin v) x.wb, scratch := true, va := none, elems := ld, cacheable := false, hint := 0, hostOrd := false }] })) ∧
       (r = 0 → (s.performAll s.hid).hart.status.unwr = false →
         CompletesFrom s (.vgthS v a b p r h) ((s.performAll s.hid).landScratch v ld) 4 h id)) ∧
     (s.gatherCheckS a b true l = none →
       (r = 1 → Completes s (.vsctS v a b p r h) 4 h (fun y => { y with pend := y.pend ++ [{ kind := .store, scratch := true, va := none, elems := st, cacheable := false, hint := 0, hostOrd := false }] })) ∧
       (r = 0 → CompletesFrom s (.vsctS v a b p r h)
         (st.foldl (fun (c : State) e => c.spWrite e.addr (natLe e.len e.data.toNat)) (s.performAll s.hid)) 4 h id)))

/-- 04 R96 to R100, 05 R116, R128 and 07 R171: plain and relaxed global accesses at an aligned address that translates to
local HBM4, host memory or a device register. A plain load writes what its path reads there and a relaxed one is deferred;
`setfmt` takes FMT and SCL from 16 bytes with no reserved bit set. A store by a strand that is no logical process is put at
its place: deferred where it is relaxed, or goes to a host page without host-order, which later stores to the host may pass
(log 96), else performed at once, to a host-order page after the earlier such stores of the slot. -/
def Obligations.GlobalScalars : Prop :=
  ∀ (s s0 : State) (d b : BitVec 5) (o : BitVec 11) (z : BitVec 2) (r : BitVec 1) (h : BitVec 2) (x : Xlate),
    Ready s Need.access →
    let n := 2 ^ z.toNat
    let ea := s.hart.getG b + (o.signExtend 64 <<< z.toNat)
    let e2 := s.hart.getG b
    let q := quadOf (s.hid / 16)
    (∀ dev off, s0.region x.pa ≠ .remote dev off) → s0.hart = s.hart → Calm s →
    (ea.toNat % n = 0 → s.translate q s.hart.pid s.hart.status.exec ea .read = (.ok x, s0) →
      (r = 0 → CompletesFrom s (.ldG d b o z r h) (s0.loadNow x x.pa n).2 4 h (fun y =>
        y.setG d (BitVec.ofNat 64 (leNat (s0.loadNow x x.pa n).1)))) ∧
      (r = 1 → CompletesFrom s (.ldG d b o z r h)
        (s0.deferGlobal x (.loadG d) ea n [{ addr := x.pa, len := n, idx := 0, data := 0 }]) 4 h id)) ∧
    (ea.toNat % n = 0 → s.translate q s.hart.pid s.hart.status.exec ea .write = (.ok x, s0) → s.hart.record.opt = false →
      let bs := natLe n (s.hart.getG d).toNat
      CompletesFrom s (.stG d b o z r h)
        (if s0.region x.pa = .host then
           (if r = 1 ∨ x.hostOrd = false then s0.deferGlobal x .store ea n (pieces x.pa n 0 bs) (decide (r ≠ 1))
            else (s0.settleIf s0.hid (fun p => p.hostOrd)).storeNow x ea x.pa bs)
         else if r = 1 then s0.deferGlobal x .store ea n (pieces x.pa n 0 bs)
         else s0.storeNow x ea x.pa bs) 4 h id) ∧
    (e2.toNat % 16 = 0 → s.translate q s.hart.pid s.hart.status.exec e2 .read = (.ok x, s0) →
      let f := nthW (bytesWords (s0.loadNow x x.pa 16).1 2) 0
      let c := nthW (bytesWords (s0.loadNow x x.pa 16).1 2) 1
      f.toNat < 16 → fld c 63 48 = 0 → fld c 31 30 = 0 → fld c 2 0 = 0 →
      CompletesFrom s (.setfmt b h) (s0.loadNow x x.pa 16).2 4 h (fun y => { y with fmt := f.setWidth 4, scl := c })) ∧
    (e2.toNat % 16 = 0 → s.translate q s.hart.pid s.hart.status.exec e2 .write = (.ok x, s0) → s.hart.record.opt = false →
      let bs := wordsBytes [s.hart.fmt.zeroExtend 64, s.hart.scl]
      CompletesFrom s (.stfmt b h)
        (if s0.region x.pa = .host then
           (if x.hostOrd = false then s0.deferGlobal x .store e2 16 (pieces x.pa 8 0 bs) true
            else (s0.settleIf s0.hid (fun p => p.hostOrd)).storeNow x e2 x.pa bs)
         else s0.storeNow x e2 x.pa bs) 4 h id)

/-- 04 R102, R103: contiguous and indexed vector accesses to global memory whose place or places translate to memory of this
device, for a strand that is no logical process. A plain load reads its places in ascending index and merges what it read
into its register, a relaxed one is deferred, each element on its own in a gather; a store puts each run of selected
elements, or each selected element of a scatter, at its place in ascending index. With no element selected nothing is done. -/
def Sys2Proof.Claim.GlobalVectors : Prop :=
  ∀ (s s0 : State) (v a b : BitVec 5) (p : BitVec 3) (r t : BitVec 1) (h : BitVec 2) (x : Xlate) (pl : List VPlace),
    Ready s { Need.access with vs := [v] } → s.hart.record.opt = false → Calm s → s0.hart = s.hart →
    let l := s.hart.active p
    let wb := s.hart.wb
    let ea := s.hart.getG a + s.hart.getG b
    let q := quadOf (s.hid / 16)
    let k : PendKind := .loadV (physV s.hart.vwin v) wb
    let put (pl : List VPlace) : State :=
      pl.foldl (fun (t1 : State) e => t1.vecPlace e (s.hart.getV v) (decide (r = 1)) (decide (t = 1))) s0
    (l = [] → Completes s (.vldG v a b p r h) 4 h id ∧ Completes s (.vstG v a b p r t h) 4 h id) ∧
    (l ≠ [] → (∀ j < 256, ∀ dev off, s0.region (x.pa + j) ≠ .remote dev off) → ea.toNat % 256 = 0 →
      (s.translate q s.hart.pid s.hart.status.exec ea .read = (.ok x, s0) →
        (r = 0 → CompletesFrom s (.vldG v a b p r h) (s0.loadNow x x.pa 256).2 4 h (fun y =>
          y.setV v (vMerge (y.getV v) (bytesV (s0.loadNow x x.pa 256).1) y.wb (y.active p)))) ∧
        (r = 1 → CompletesFrom s (.vldG v a b p r h) (s0.deferGlobal x k ea 256 (s.hart.elemsAt l x.pa 0)) 4 h id)) ∧
      (s.translate q s.hart.pid s.hart.status.exec ea .write = (.ok x, s0) →
        CompletesFrom s (.vstG v a b p r t h) (put (s.hart.runPlaces ea x l)) 4 h id)) ∧
    (Ready s { Need.access with vs := [v, b] } → pl ≠ [] → (∀ e ∈ pl, ∀ dev off, s0.region e.x.pa ≠ .remote dev off) →
      (s.gatherPlaces a b .read l = (.ok pl, s0) →
        (r = 0 →
          let out := pl.foldl (fun (c : State × VReg) e =>
            ((c.1.loadNow e.x e.x.pa wb).2, vPut c.2 (wb * e.idx) (c.1.loadNow e.x e.x.pa wb).1)) (s0, s.hart.getV v)
          CompletesFrom s (.vgthG v a b p r h) out.1 4 h (fun y => y.setV v out.2)) ∧
        (r = 1 → CompletesFrom s (.vgthG v a b p r h)
          (pl.foldl (fun (t1 : State) e =>
            t1.deferGlobal e.x k e.va wb [{ addr := e.x.pa, len := wb, idx := e.idx, data := 0 }]) s0) 4 h
          (fun y => y.setV v (s.hart.getV v)))) ∧
      (s.gatherPlaces a b .write l = (.ok pl, s0) → CompletesFrom s (.vsctG v a b p r t h) (put pl) 4 h id))

/-- 04 R104, 05 R116: what a global vector store does with a place of local HBM4: its bytes go to the write-combining
buffers of the core, after the slot's deferred accesses to them, or into the deferred stores, or to their place at once. A
deferred access joins the end of the slot's list. -/
def Sys2Proof.Claim.VectorStoreElements : Prop :=
  ∀ (s : State) (v : VReg) (relaxed : Bool) (e : VPlace), s.region e.x.pa = .hbm → s.hart.record.opt = false →
    let bs := vBytes v (s.hart.wb * e.idx) e.len
    let s1 := s.settleRange s.hid false e.x.pa bs.length
    (s1.region e.x.pa = .hbm →
      s.vecPlace e v relaxed true = s1.wcStore s1.coreNo s1.hart.sid s1.hart.pid e.va e.x.pa bs) ∧
    s.vecPlace e v false false = s.storeNow e.x e.va e.x.pa bs ∧
    s.vecPlace e v true false = s.deferGlobal e.x .store e.va bs.length (pieces e.x.pa s.hart.wb e.idx bs) ∧
    (∀ (k : PendKind) (n : Nat) (el : List PendElem),
      (∀ w ∈ (s.core (s.hid / 16)).wc, w.covers (s.slotAt s.hid).sid e.x.pa n = false) →
      ∃ q : Pend, s.deferGlobal e.x k e.va n el = s.modHart (fun y => { y with pend := y.pend ++ [q] }) ∧
        q.kind = k ∧ q.elems = el ∧ q.scratch = false ∧ q.va = some e.va)

/-- 04 R104 to R106: a non-temporal scalar store to memory of this device joins the core's write-combining buffers. A prefetch
of a place in local HBM4 is queued; one of a host, register or remote place, or one whose translation fails, does nothing.
`cwb` writes a cached line of local HBM4 back, `cwbi` writes it back and drops it, `cinv` drops it, but acts as `cwbi` in a
logical process on a timed page; on any other place, and on a core without a tile cache, they do nothing. -/
def Sys2Proof.Claim.CacheForms : Prop :=
  ∀ (s s0 : State) (a b : BitVec 5) (h : BitVec 2) (x : Xlate), s0.hart = s.hart → s0.hid = s.hid →
    let ea := s.hart.getG a
    let q := quadOf (s.hid / 16)
    let at_ := s.hart.getG a + s.hart.getG b
    let T := tileOf s0.coreNo
    let there : Prop := s0.region x.pa = .hbm ∧ isService s0.coreNo = false
    let Nt (i : Instr) (n : Nat) : Prop :=
      ea.toNat % n = 0 → s.translate q s.hart.pid s.hart.status.exec ea .write = (.ok x, s0) →
      CompletesFrom s i (s0.wcStore s0.coreNo s.hart.sid s.hart.pid ea x.pa (natLe n (s.hart.getG b).toNat)) 4 h id
    (Ready s Need.any →
      (s.translate q s.hart.pid s.hart.status.exec at_ .read = (.ok x, s0) →
        (s0.region x.pa = .hbm → x.far = false → ∃ f, CompletesFrom s (.pfG a b h) { s0 with prefetch := s0.prefetch ++ [f] } 4 h id ∧
          f.line = x.pa / 256 ∧ f.pid = s.hart.pid) ∧
        (s0.region x.pa ≠ .hbm ∨ x.far = true → CompletesFrom s (.pfG a b h) s0 4 h id)) ∧
      (∀ c s1, s.translate q s.hart.pid s.hart.status.exec at_ .read = (.error c, s1) → CompletesFrom s (.pfG a b h) s1 4 h id)) ∧
    (Ready s Need.access → s.hart.ordr = none → s.hart.pend = [] →
      (s.hart.record.opt = false → (∀ dev off, s0.region x.pa ≠ .remote dev off) →
        Nt (.stGBNt a b h) 1 ∧ Nt (.stGHNt a b h) 2 ∧ Nt (.stGWNt a b h) 4 ∧ Nt (.stGDNt a b h) 8) ∧
      (s.translate q s.hart.pid s.hart.status.exec ea .read = (.ok x, s0) →
        (there → CompletesFrom s (.cwb a h) (s0.writeBackLine T (x.pa / 256)) 4 h id ∧
          CompletesFrom s (.cwbi a h) (s0.dropCached T (x.pa / 256)) 4 h id) ∧
        (¬there → CompletesFrom s (.cwb a h) s0 4 h id ∧ CompletesFrom s (.cwbi a h) s0 4 h id)) ∧
      (s.translate q s.hart.pid s.hart.status.exec ea .write = (.ok x, s0) →
        (there → CompletesFrom s (.cinv a h)
          (if s.hart.record.opt = true ∧ x.timed = true then s0.dropCached T (x.pa / 256)
           else s0.modTile T (fun k => k.dropLine (x.pa / 256))) 4 h id) ∧
        (¬there → CompletesFrom s (.cinv a h) s0 4 h id)))

/-- 04 R100, R102 to R104, 06 R143, 07 R171, 13 R325: what a logical process in a handler writes to global memory. To a page
without T each store, non-temporal store, `red`, `amo` and `scr` raises OPTST and does nothing. To a timed page of local HBM4
it puts one STORE entry into the log for each aligned doubleword it touches, with the bytes its tile saw there and LVT, and
then acts as for any strand; a contiguous vector store makes one entry for a doubleword, a scatter one for each element's.
Where the log has no room the strand waits for some if LOGWAIT is 1, and else raises LOGFULL. -/
def Sys2Proof.Claim.LogicalProcessStores : Prop :=
  ∀ (s s0 : State) (d a b v : BitVec 5) (o : BitVec 11) (p : BitVec 3) (z h : BitVec 2) (r t w : BitVec 1) (x : Xlate)
    (pl : List VPlace), Ready s Need.access → s.hart.record.opt = true → s.hart.ordr = none → s.hart.pend = [] →
    let q := quadOf (s.hid / 16)
    let y := s.hart
    let old (u : State) (k : Xlate) (pa n : Nat) : List LogEntry := (dwordsOf pa n).map (fun e =>
      .store e (BitVec.ofNat 64 (leNat (u.paRead (u.pathOf u.coreNo y.pid k.cached k.hint) e 8).1)) y.lp.lvt)
    let Logs (i : Instr) (u : State) (l : List LogEntry) (xval : Word) (f : State → State) (g : Slot → Slot) : Prop :=
      (x.timed = false → exec i s = .next (s0.raiseAt s0.hid Cause.optst.code s0.hart.pc xval false)) ∧
      (x.timed = true → u.hart = y → u.region x.pa = .hbm →
        (u.logFits y l 0 = true → CompletesFrom s i (f (u.logPush y l)) 4 h g) ∧
        (u.logFits y l 0 = false → u.logWait y.pid = true → exec i s = .next (u.parkAt h (.logRoom (logUse l)))) ∧
        (u.logFits y l 0 = false → u.logWait y.pid = false →
          exec i s = .next (u.raiseAt u.hid Cause.logfull.code y.pc 0 false)))
    let At (ea : Word) (n : Nat) : Prop := ea.toNat % n = 0 ∧ s.translate q y.pid y.status.exec ea .write = (.ok x, s0)
    let n := 2 ^ z.toNat
    let em := y.getG b + (o.signExtend 64 <<< z.toNat)
    let e2 := y.getG a
    let ev := y.getG a + y.getG b
    let bs (k : Nat) : List Byte := natLe k (y.getG d).toNat
    let fs := wordsBytes [y.fmt.zeroExtend 64, y.scl]
    let Nt (i : Instr) (k : Nat) : Prop := At e2 k → Logs i s0 (old s0 x x.pa k) 0 (fun u =>
      u.wcStore u.coreNo y.sid y.pid e2 x.pa (natLe k (y.getG b).toNat)) id
    let l := y.active p
    let put (pl : List VPlace) (u : State) : State :=
      pl.foldl (fun (c : State) e => c.vecPlace e (y.getV v) (decide (r = 1)) (decide (t = 1))) u
    s0.region x.pa = .hbm →
    (At em n → Logs (.stG d b o z r h) s0 (old s0 x x.pa n) 0 (fun u =>
      if r = 1 then u.deferGlobal x .store em n (pieces x.pa n 0 (bs n)) else u.storeNow x em x.pa (bs n)) id) ∧
    (At e2 16 → Logs (.stfmt a h) s0 (old s0 x x.pa 16) e2 (fun u => u.storeNow x e2 x.pa fs) id) ∧
    Nt (.stGBNt a b h) 1 ∧ Nt (.stGHNt a b h) 2 ∧ Nt (.stGWNt a b h) 4 ∧ Nt (.stGDNt a b h) 8 ∧
    (let k := if w = 1 then 8 else 4
     At e2 k → Logs (.redAdd a b w h) (s0.sendHome s0.coreNo x) (old (s0.sendHome s0.coreNo x) x x.pa k) e2 (fun u =>
       u.deferGlobal x (.red 0 (decide (w = 1))) e2 k [{ addr := x.pa, len := k, idx := 0, data := y.getG b }]) id) ∧
    (At e2 8 → let u := s0.beforeHome x 8
      Logs (.amoSwap d a b 1 h) u (old u x x.pa 8) e2 (fun c => c.homePut y.pid x.pa (natLe 8 (y.getG b).toNat))
        (fun k => (k.orFxf 0).setG d (BitVec.ofNat 64 (leNat (u.homeBytes y.pid x.pa 8))))) ∧
    (Ready s { Need.access with vs := [v] } → l ≠ [] → At ev 256 →
      ∃ es : List LogEntry, es.Nodup ∧
        (x.timed = true → ∀ e, e ∈ es ↔ ∃ c ∈ y.runPlaces ev x l, e ∈ old s0 c.x c.x.pa c.len) ∧
        ((∀ c ∈ y.runPlaces ev x l, s0.region c.x.pa = .hbm) →
          Logs (.vstG v a b p r t h) s0 es 0 (put (y.runPlaces ev x l)) id)) ∧
    (Ready s { Need.access with vs := [v, b] } → pl ≠ [] → s.gatherPlaces a b .write l = (.ok pl, s0) →
      (∀ c ∈ pl, c.x.timed = true ∧ s0.region c.x.pa = .hbm) →
      let es := pl.flatMap (fun c => old s0 c.x c.x.pa c.len)
      s0.logFits y es 0 = true → CompletesFrom s (.vsctG v a b p r t h) (put pl (s0.logPush y es)) 4 h id)

/-- 04 R85: `bankcfg` by a strand that may configure the bank, where nothing waits on the bank, parks it and begins the
switch. A bank that has the mode already is left, and the instruction completes; but a switch to FIFO mode is always
performed. -/
def Sys2Proof.Claim.BankModes : Prop :=
  ∀ (s : State) (a b : BitVec 5) (h : BitVec 2), Ready s Need.access →
    let ga := s.hart.getG a
    let m := (s.hart.getG b).toNat
    let t := fld ga 7 4
    let k := fld ga 3 0
    let bk := (s.tile t).bank k
    fld ga 63 8 = 0 → m ≤ 2 → s.hart.status.exec = true ∨ bk.pid = s.hart.pid → bk.queue = [] →
    (m ≠ 2 → bk.mode.toNat = m → Completes s (.bankcfg a b h) 4 h id) ∧
    (m = 2 ∨ bk.mode.toNat ≠ m → (∀ n < 64, (s.tile t).ownerOf (64 * k + n) = 0) → bk.held = [] → Calm s →
      ∃ u, exec (.bankcfg a b h) s = .next u ∧ u.hart.park = some (.bankcfg (16 * t + k)) ∧ u.hart.pc = s.hart.pc ∧
        ((u.tile t).bank k).sw = true ∧ ((u.tile t).bank k).queue = [(s.hart.sid, BitVec.ofNat 2 m)])

/-- 04 R85: the event that performs a switch of a bank with one command queued, no waiting access, no access held during an
earlier switch, and nothing deferred in any slot, the strand that configures it not written back: the bank has the mode. Out
of cache mode the lines of its way go home and are dropped; FIFO mode begins empty; scratchpad mode begins with zeros and with
every slab owned by strands. No other byte of memory changes. -/
def Sys2Proof.Claim.BankSwitchPerformed : Prop :=
  ∀ (s : State) (t b sid : Nat) (m : BitVec 2), b < 16 →
    let k := (s.tile t).bank b
    k.queue = [(sid, m)] → k.waits = [] → k.held = [] → (∀ n, (s.slotAt n).pend = []) → alGet s.away sid = none →
    let from_ := spBase (t * 2 ^ 24 + b * 2 ^ 20)
    let home : State :=
      if k.mode = 0 ∧ m ≠ 0 then (s.tile t).cache.foldl (fun c l => if l.way = b then c.flushLine l else c) s else s
    ∃ u, exec (.bankSwitch t b) s = .next u ∧
      ((u.tile t).bank b).mode = m ∧ ((u.tile t).bank b).sw = false ∧ ((u.tile t).bank b).queue = [] ∧
      (k.mode = 0 → m ≠ 0 → ∀ l ∈ (u.tile t).cache, l.way ≠ b) ∧
      (m = 2 → ((u.tile t).bank b).fifo = []) ∧
      (m = 1 → k.mode ≠ 1 → ∀ n < 64, (u.tile t).ownerOf (64 * b + n) = 0) ∧
      (∀ a, memGet u.mem a = if m = 1 ∧ k.mode ≠ 1 ∧ from_ ≤ a ∧ a < from_ + 2 ^ 20 then 0 else memGet home.mem a)

/-- 04 R97, R99, R104, R105 and 05 R116: the events that perform accesses. A deferred access that no earlier one overlaps is
performed and leaves the list, unless a dead elevator has returned what its core sent (R93); a walk that succeeds is cached; a
write-combining buffer drains and is gone while ROUTE.HOLD is 0; the fill of a prefetch is taken off the list; TSINV drops
exactly the entries its scope names. That a full station's oldest entry makes room is the model's choice (log 14), and that an
elevator returns the packets of all its cores, or of none, rests on logs 15 and 4. -/
def Obligations.HierarchyEvents : Prop :=
  (∀ (s : State) (n : Nat) (p : Pend) (r : List Pend), (s.slotAt n).pend = p :: r →
    s.plat.returned.contains (n / 16) = false →
    let s1 := (s.modSlot n (fun x => { x with pend := r })).performPend n p
    (∀ d, p.kind = .loadG d → exec (.loadReturn n 0) s = .next s1) ∧
    (∀ v w, p.kind = .loadV v w → exec (.loadReturn n 0) s = .next s1) ∧
    (p.kind = .store → exec (.storePerform n 0) s = .next s1) ∧
    (∀ o w, p.kind = .red o w → exec (.amoHomePerform n 0) s = .next s1)) ∧
  (∀ (s : State) (st : Nat) (pid : BitVec 12) (va : Word) (e : TlbEntry), st < 8 → va.toNat < 2 ^ 57 →
    s.tlbFind st pid va.toNat = none → s.walk st pid va.toNat = .ok e →
    e.station = st →
    ((s.tlb.filter (fun k => k.station = st)).length < 69632 →
      exec (.translationWalkDone st pid va) s = .next { s with tlb := s.tlb ++ [e] }) ∧
    (69632 ≤ (s.tlb.filter (fun k => k.station = st)).length →
      exec (.translationWalkDone st pid va) s = .next { s with tlb := (s.tlb ++ [e]).eraseP (fun k => k.station = st) })) ∧
  (∀ (s : State) (c : Nat) (w : WcBuf) (r : List WcBuf), (s.core c).wc = w :: r → (s.core c).hold = false →
    exec (.wcDrain c 0) s = .next ((s.drainBuf c w).modCore c (fun k => { k with wc := k.wc.eraseIdx 0 }))) ∧
  (∀ (s : State) (f : Prefetch) (r : List Prefetch), s.prefetch = f :: r →
    exec (.prefetchFill 0) s = .next (({ s with prefetch := r } : State).fillPrefetch f)) ∧
  (∀ (s : State) (pid : BitVec 12) (vpn : BitVec 41),
    (∃ u, exec (.tsinvPage pid vpn) s = .next { s with tlb := u } ∧
      ∀ e, e ∈ u ↔ e ∈ s.tlb ∧ ¬(e.pid = pid ∧ e.vpn ≤ vpn.toNat ∧ vpn.toNat < e.vpn + e.span)) ∧
    (∃ u, exec (.tsinvPid pid) s = .next { s with tlb := u } ∧ ∀ e, e ∈ u ↔ e ∈ s.tlb ∧ e.pid ≠ pid) ∧
    exec .tsinvAll s = .next { s with tlb := [] })

/-! ## Ordering, atomics, reservations, full/empty, owners, barriers (05, 06) -/

/-- 05 R118: an ordering instruction issues at once and waits, after an earlier one that still waits has acted. While a remote
access that returns a value, or for a `rel` or `fence` of chassis scope or wider any, is unanswered, or ROUTE.HOLD keeps its
buffers from draining, nothing happens; buffered stores to other devices that such a one awaits are sent first. Then it acts.
Release: every deferred access is performed, oldest first; from tile scope on every dirty byte of the tile cache goes home and
its lines become clean; from hall scope on every write-combining buffer of the strand drains. Acquire: every deferred load has
returned, and from tile scope on the lines that the mask names, and the bypass lines, go home and are dropped. Before an access
that an ordering instruction holds it acts, and plain stores to the host not yet sent go out (04 R100, 05 R113). -/
def Obligations.OrderingInstructions : Prop :=
  (∀ (s : State) (sc : BitVec 3) (m h : BitVec 2), Ready s Need.any →
    let s1 := s.orderingDone s.hid
    CompletesFrom s (.fence sc h) s1 4 h (fun x => { x with ordr := some { kind := 0, scope := sc, mask := 0 } }) ∧
    CompletesFrom s (.rel sc h) s1 4 h (fun x => { x with ordr := some { kind := 1, scope := sc, mask := 0 } }) ∧
    CompletesFrom s (.acq m sc h) s1 4 h (fun x => { x with ordr := some { kind := 2, scope := sc, mask := m } })) ∧
  (∀ (s : State) (n : Nat), (s.slotAt n).ordr = none → s.orderingDone n = s) ∧
  (∀ (s : State) (n : Nat) (o : Machine.Ordering), (s.slotAt n).ordr = some o →
    let core := n / 16
    let sid := (s.slotAt n).sid
    let X := o.scope.toNat
    let rel : Prop := o.kind ≠ 2
    let acq : Prop := o.kind ≠ 1
    let tiled : Prop := 2 ≤ X ∧ isService core = false
    let mask : BitVec 2 := if o.kind = 2 then o.mask else 0
    let named (c : CLine) : Bool := decide (c.hint = 3) || decide (mask = 0) || (if c.hint = 1 then mask.getLsbD 0 else mask.getLsbD 1)
    let far (b : WcBuf) : Prop := b.strand = sid ∧ ∃ dev off, s.region (256 * b.line) = .remote dev off
    let open_ : Prop :=
      (∃ r ∈ s.remote, r.strand = sid ∧ (r.kind = .load ∨ (∃ k dbl, r.kind = .amo k dbl false) ∨ (rel ∧ 6 ≤ X))) ∨
      (rel ∧ 5 ≤ X ∧ (s.core core).hold = true ∧ ∃ b ∈ (s.core core).wc, b.strand = sid)
    let sends : Prop := rel ∧ 6 ≤ X ∧ ∃ b ∈ (s.core core).wc, far b
    (sends → ∃ u, exec (.orderingActionsDone n) s = .next u ∧ (u.slotAt n).ordr = some o ∧ ∀ b ∈ (u.core core).wc, ¬far b) ∧
    (¬sends → open_ → exec (.orderingActionsDone n) s = .next s) ∧
    (¬sends → ¬open_ → exec (.orderingActionsDone n) s = .next (s.orderingDone n)) ∧
    (let a := if rel then (s.slotAt n).pend.foldl (fun (u : State) p => u.performPend n p) (s.modSlot n (fun y => { y with pend := [] })) else s
     let b := if rel ∧ tiled then
         ((a.tile (tileOf core)).cache.foldl (fun (u : State) c => u.flushLine c) a).modTile (tileOf core) (fun k =>
           { k with cache := k.cache.map (fun c => { c with dirty := 0 }) })
       else a
     let c := if rel ∧ 5 ≤ X then
         (((b.core core).wc.filter (fun w => decide (w.strand = (b.slotAt n).sid))).foldl (fun (u : State) w => u.drainBuf core w) b).modCore
           core (fun k => { k with wc := k.wc.filter (fun w => !decide (w.strand = (b.slotAt n).sid)) })
       else b
     let e := if acq then c.settleIf n Pend.isLoad else c
     let f := if acq ∧ tiled then
         ((e.tile (tileOf core)).cache.foldl (fun (u : State) k => if named k then u.flushLine k else u) e).modTile (tileOf core)
           (fun k => { k with cache := k.cache.filter (fun k => !named k) })
       else e
     s.orderingDone n = f.modSlot n (fun y => { y with ordr := none })) ∧
    (let u := s.orderingDone n
     (u.slotAt n).ordr = none ∧ (rel → (u.slotAt n).pend = []) ∧ (acq → ∀ p ∈ (u.slotAt n).pend, p.isLoad = false) ∧
     (rel → 5 ≤ X → ∀ b ∈ (u.core core).wc, b.strand ≠ (u.slotAt n).sid) ∧
     (o.kind = 1 → tiled → ∀ c ∈ (u.tile (tileOf core)).cache, c.dirty = 0) ∧
     (acq → tiled → ∀ c ∈ (u.tile (tileOf core)).cache, named c = false))) ∧
  (∀ (s : State) (w : Bool) (l : List Nat),
    (Calm s → s.beforeAccess w = s ∧ s.beforeStore l = s) ∧
    (∀ p ∈ (s.beforeAccess w).hart.pend, p.plain = false) ∧
    (∀ o, s.hart.ordr = some o → (∀ p ∈ s.hart.pend, p.plain = false) →
      s.beforeAccess w = if o.kind = 1 ∧ w = false then s else s.orderingDone s.hid))

/-- 06 R140, R141: atomics at a naturally aligned address that translates to local HBM4, for a strand that is no logical
process. The slot's own earlier operations on the line and accesses to the place are performed and the tile's copy of the
line goes home first; then the home slice's old value goes to gd,
sign-extended from 32 bits but for `minn`, `maxn` and `fadd`, and the new one is written there; `cas` writes only where the
old value equals gd. -/
def Sys2Proof.Claim.Atomics : Prop :=
  ∀ (s s0 : State) (d a b : BitVec 5) (w : BitVec 1) (h : BitVec 2) (x : Xlate), Ready s Need.access →
    s.hart.record.opt = false → Calm s → s0.hart = s.hart → s0.hid = s.hid → s0.region x.pa = .hbm →
    let ea := s.hart.getG a
    let P (i : Instr) (k : Nat) (out : Nat → Word) (new : Nat → Nat × Bool × BitVec 6) : Prop :=
      ea.toNat % k = 0 →
      s.translate (quadOf (s.hid / 16)) s.hart.pid s.hart.status.exec ea .write = (.ok x, s0) →
      let s1 := s0.beforeHome x k
      s1.region x.pa = .hbm → s1.hart.record.opt = false →
      let old := leNat (s1.homeBytes s1.hart.pid x.pa k)
      CompletesFrom s i (if (new old).2.1 then s1.homePut s1.hart.pid x.pa (natLe k (new old).1) else s1) 4 h
        (fun y => (y.orFxf (new old).2.2).setG d (out old))
    let k := if w = 1 then 8 else 4
    let n := 8 * k
    let v := (s.hart.getG b).toNat % 2 ^ n
    let sx (old : Nat) : Word := if w = 1 then BitVec.ofNat 64 old else (BitVec.ofNat 32 old).signExtend 64
    let zx (old : Nat) : Word := BitVec.ofNat 64 old
    let sg (u : Nat) : Int := (BitVec.ofNat n u).toInt
    P (.amoAdd d a b w h) k sx (fun old => ((old + v) % 2 ^ n, true, 0)) ∧
    P (.amoAnd d a b w h) k sx (fun old => (old &&& v, true, 0)) ∧
    P (.amoOr d a b w h) k sx (fun old => (old ||| v, true, 0)) ∧
    P (.amoXor d a b w h) k sx (fun old => (old ^^^ v, true, 0)) ∧
    P (.amoMin d a b w h) k sx (fun old => (if sg v < sg old then v else old, true, 0)) ∧
    P (.amoMax d a b w h) k sx (fun old => (if sg old < sg v then v else old, true, 0)) ∧
    P (.amoMinn d a b w h) k zx (fun old => (if v < old then v else old, true, 0)) ∧
    P (.amoMaxn d a b w h) k zx (fun old => (if old < v then v else old, true, 0)) ∧
    P (.amoSwap d a b w h) k sx (fun _ => (v, true, 0)) ∧
    P (.amoCas d a b w h) k sx (fun old => (v, decide (old = (s.hart.getG d).toNat % 2 ^ n), 0)) ∧
    P (.amoFadd d a b h) 4 zx (fun old =>
      ((f32Add old ((s.hart.getG b).toNat % 2 ^ 32)).1, true, (f32Add old ((s.hart.getG b).toNat % 2 ^ 32)).2))

/-- 06 R140: a reduction writes no register: once the tile's copy of the line is home, it joins the slot's deferred accesses until
the home slice of its place performs it. -/
def Sys2Proof.Claim.Reductions : Prop :=
  ∀ (s s0 : State) (a b : BitVec 5) (w : BitVec 1) (h : BitVec 2) (x : Xlate), Ready s Need.access →
    s.hart.record.opt = false → Calm s → s0.hart = s.hart → s0.hid = s.hid → s0.region x.pa = .hbm →
    let ea := s.hart.getG a
    let s1 := s0.sendHome s0.coreNo x
    s1.region x.pa = .hbm → s1.hart = s.hart →
    let P (i : Instr) (op : BitVec 4) (dbl : Bool) : Prop :=
      let k := if dbl then 8 else 4
      ea.toNat % k = 0 →
      s.translate (quadOf (s.hid / 16)) s.hart.pid s.hart.status.exec ea .write = (.ok x, s0) →
      CompletesFrom s i
        (s1.deferGlobal x (.red op dbl) ea k [{ addr := x.pa, len := k, idx := 0, data := s.hart.getG b }]) 4 h id
    let dbl := decide (w = 1)
    P (.redAdd a b w h) 0 dbl ∧ P (.redAnd a b w h) 1 dbl ∧ P (.redOr a b w h) 2 dbl ∧ P (.redXor a b w h) 3 dbl ∧
    P (.redMin a b w h) 4 dbl ∧ P (.redMax a b w h) 5 dbl ∧ P (.redMinn a b w h) 6 dbl ∧ P (.redMaxn a b w h) 7 dbl ∧
    P (.redFadd a b h) 10 false

/-- 06 R146, R147: `lrw` of a strand that holds no reservation, on a line that none holds or awaits, takes the reservation and
reads the doubleword; `scr` of the holder writes it, gives the reservation up and answers 0, of any other strand writes
nothing and answers 1, or 2 where its reservation was revoked. -/
def Sys2Proof.Claim.Reservations : Prop :=
  ∀ (s s0 : State) (d a b : BitVec 5) (h : BitVec 2) (x : Xlate), Ready s Need.access →
    s.hart.record.opt = false → Calm s → s0.hart = s.hart → s0.hid = s.hid → s0.region x.pa = .hbm →
    let ea := s.hart.getG a
    let line := x.pa / 256
    ea.toNat % 8 = 0 →
    s.translate (quadOf (s.hid / 16)) s.hart.pid s.hart.status.exec ea .write = (.ok x, s0) →
    let s1 := ((s0.settleIf s0.hid (fun p => p.isRed && p.elems.any (fun e => decide (e.addr / 256 = line)))).settle x.pa
      8).sendHome s0.coreNo x
    let s2 := s0.beforeHome x 8
    (s.hart.rsvLine = none → (∀ q ∈ s2.rsvqs, q.line ≠ line) →
      ∃ u, exec (.lrw d a h) s = .next u ∧
        u.hart.getG d = BitVec.ofNat 64 (leNat (s2.homeBytes s2.hart.pid x.pa 8)) ∧ u.hart.rsvLine = some line ∧
        u.mem = s2.mem ∧ ∃ q ∈ u.rsvqs, q.line = line ∧ q.granted = true ∧ q.waiters = [s2.hart.sid]) ∧
    (s1.holdsLine s1.hart.sid line = true → s1.hart.record.opt = false →
      CompletesFrom s (.scr d a b h) ((s1.homePut s1.hart.pid x.pa (natLe 8 (s.hart.getG b).toNat)).rsvPass line) 4 h
        (fun y => ({ y with rsvLine := none } : Slot).setG d 0)) ∧
    (s1.holdsLine s1.hart.sid line = false →
      CompletesFrom s (.scr d a b h) s1 4 h (fun y => y.setG d (if s1.hart.revoked then 2 else 1)))

/-- 06 R146, R147: the events of a reservation queue. The next waiting strand is granted the line and its `lrw` reads as a
plain load then, a copy in the tile cache of a strand in its slot having gone home first, and completes; one that is gone is passed over; a reservation held for more than 64 µs is revoked. -/
def Sys2Proof.Claim.ReservationEvents : Prop :=
  ∀ (s : State) (line sid : Nat) (q : RsvQueue) (r : List Nat), s.rsvOf line = some q → q.waiters = sid :: r →
    let s1 : State := { s with rsvqs := s.rsvqs.map (fun k => if k.line = line then { k with granted := true, since := s.ticks } else k) }
    (q.granted = false →
      (∀ y d pa, s.strandOf sid = some y → y.park = some (.lrw d pa) →
        let c := (s1.grantHome sid pa).consume (s1.findSlot sid) y.pid pa 8
        exec (.reservationGrant line) s = .next (c.wake sid (s.sliceRouter pa) (fun z =>
          z.setG d (BitVec.ofNat 64 (leNat (c.homeBytes y.pid pa 8)))))) ∧
      (s.strandOf sid = none → exec (.reservationGrant line) s = .next (s1.rsvPass line))) ∧
    (q.granted = true → q.since + 128000 < s.ticks →
      exec (.reservationTimeout line) s = .next (s.dropReservation sid))

/-- 06 R150, R151: full/empty operations on an aligned word of a plain scratchpad bank that no engine owns. On a FULL word `lde`
and `ldew` take it and leave it EMPTY, on an EMPTY word `stf` and `stfw` fill it and leave it FULL, and then what waits on the
word is served. An `lde` on an EMPTY word and a `stf` on a FULL one park at their instruction and join the end of the bank's
wait list, past 64 entries chained behind it and written back; `ldew` and `stfw` answer 0 there; `feq` answers whether the word
is FULL. -/
def Obligations.FullEmpty : Prop :=
  ∀ (s : State) (d a b : BitVec 5) (h : BitVec 2) (t k off : Nat), Ready s Need.access →
    Calm s → let ea := s.hart.getG a
    SramAt s ea t k off → ((s.tile t).bank k).mode = 1 → (s.tile t).ownerOf (slabOf k off) = 0 → ea.toNat % 8 = 0 →
    let s1 := s.settleRange s.hid true ea.toNat 8
    let c := s1.consumeHart (spBase ea.toNat) 8
    let full := (s1.tile (spBankOf ea.toNat).1).isEmptyWord ea.toNat = false
    let v := BitVec.ofNat 64 (leNat (memBytes s1.mem (2 ^ 53 + ea.toNat) 8))
    let l := ((s1.tile t).bank k).waits
    let waiting := (l.filter (fun e => !e.chained)).length
    let Parks (i : Instr) (p : Park) : Prop :=
      (waiting < 64 → ∃ u, exec i s = .next u ∧ u.hart.park = some p ∧ u.hart.pc = s1.hart.pc ∧ u.hart.g = s1.hart.g ∧
        u.mem = s1.mem ∧ ((u.tile t).bank k).waits = l ++ [{ strand := s1.hart.sid, what := p, chained := false }]) ∧
      (64 ≤ waiting → ∃ u : State, exec i s = .next (u.writeBackChained s.hid t (some k)) ∧ u.hart.park = some p ∧
        u.hart.pc = s1.hart.pc ∧ u.mem = s1.mem ∧
        ((u.tile t).bank k).waits = l ++ [{ strand := s1.hart.sid, what := p, chained := true }])
    s1.hart.status.unwr = false →
    (full →
      exec (.lde d a h) s = .next (((c.ldeWord ea.toNat).modHart (fun x => (x.setG d v).finish 4 h)).serveWordAll ea.toNat) ∧
      exec (.ldew d a b h) s =
        .next (((c.takeWord ea.toNat).modHart (fun x => ((x.setG d v).setG b 1).finish 4 h)).serveWordAll ea.toNat) ∧
      Parks (.stf a b h) (.stf ea.toNat (s1.hart.getG b)) ∧
      CompletesFrom s (.stfw d a b h) s1 4 h (fun x => x.setG d 0) ∧
      CompletesFrom s (.feq d a h) s1 4 h (fun x => x.setG d 1)) ∧
    (¬full →
      exec (.stf a b h) s =
        .next (((s1.fillWord ea.toNat (s1.hart.getG b)).modHart (fun x => x.finish 4 h)).serveWordAll ea.toNat) ∧
      exec (.stfw d a b h) s =
        .next (((s1.fillWord ea.toNat (s1.hart.getG b)).modHart (fun x => (x.setG d 1).finish 4 h)).serveWordAll ea.toNat) ∧
      Parks (.lde d a h) (.lde d ea.toNat) ∧
      CompletesFrom s (.ldew d a b h) s1 4 h (fun x => x.setG b 0) ∧
      CompletesFrom s (.feq d a h) s1 4 h (fun x => x.setG d 0))

/-- 06 R152, R153: `give` of a slab or half that the strand may give and no engine owns performs the slot's deferred
accesses to it, with the earlier ones that these follow, and sets the owner code; `ownw` completes where the owner is 0. -/
def Sys2Proof.Claim.Owners : Prop :=
  ∀ (s : State) (a b : BitVec 5) (h : BitVec 2) (o : Owned), Ready s Need.access →
    let ea := s.hart.getG a
    let code := (s.hart.getG b).toNat
    let s0 := s.bankPass s.hart.sid ea
    s.bankBusy s.hart.sid ea = none → s0.ownedCheck ea = .ok o → s0.ownerGet o = 0 →
    (1 ≤ code → code ≤ 4 → (code = 4 → inHalf ea = false) →
      CompletesFrom s (.give a b h)
        (((s0.beforeAccess true).settleIf s0.hid (fun p => p.scratch && p.elems.any (fun e => s0.isOwnedAt o e.addr))).ownerPut o
          (BitVec.ofNat 3 code)) 4 h id) ∧
    (Calm s → CompletesFrom s (.ownw a h) s0 4 h id)

/-- 06 R153: `bar` acts as `fence.d`; a strand of no group then goes on, and one of a group whose block this device holds and
can read counts its arrival in the block and waits for the generation it arrived in, which opens where it was the last. -/
def Sys2Proof.Claim.GroupBarrier : Prop :=
  ∀ (s : State) (h : BitVec 2) (w : Word), Ready s Need.access →
    let s1 := ((s.orderingDone s.hid).releaseActions s.hid 4).acquireActions s.hid 4 0
    let r := s1.hart.record
    let q := quadOf (s1.hid / 16)
    (r.gcb = 0 → CompletesFrom s (.bar h) s1 4 h id) ∧
    (r.gcb ≠ 0 → s1.farBlock q r.pid (r.gcb + 8) = none → s1.vaWordAt q r.pid (r.gcb + 8) = some w →
      let s2 := (s1.vaSetWordAt q r.pid (r.gcb + 8) (gcbWord1 (fld w 63 48) (fld w 47 24 + 1) (fld w 23 0))).parkAt h
        (.bar r.gcb (BitVec.ofNat 16 (fld w 63 48)))
      exec (.bar h) s =
        .next (({ s2 with barriers := s2.barriers ++ [(s2.hart.sid, r.gcb, r.pid)] } : State).tryBarrier q r.pid r.gcb))


/-! ## Vector instructions (08; 07 R176 to R178) -/

/-- A vector instruction writes the `n` elements of `w` bits of vd: a selected one takes `f j`, any other keeps its value; VXF
takes the flags of the selected ones, and nothing else changes (08 R186, R187). -/
def Sys2Proof.Claim.Lanes (s : State) (i : Instr) (h : BitVec 2) (v : BitVec 5) (w n : Nat) (sel : Nat → Prop)
    (f : Nat → Nat × BitVec 6) : Prop :=
  ∃ (r : VReg) (fl : BitVec 6), Completes s i 4 h (fun x => (x.orVxf fl).setV v r) ∧
    (∀ j < n, (sel j → vElem r w j = (f j).1 % 2 ^ w) ∧ (¬sel j → vElem r w j = vElem (s.hart.getV v) w j)) ∧
    (∀ k < 6, fl.getLsbD k = true ↔ ∃ j < n, sel j ∧ (f j).2.getLsbD k = true)

/-- A mask instruction writes all 256 bits of pd, bit `j` as `f j` says, with the flags `fl`; a write to p0 is ignored
(08 R186). -/
def Sys2Proof.Claim.WritesP (s : State) (i : Instr) (h : BitVec 2) (d : BitVec 3) (fl : BitVec 6) (f : Nat → Prop) : Prop :=
  ∃ m : Mask, (d = 0 → Completes s i 4 h (fun x => x.orVxf fl)) ∧
    (d ≠ 0 → Completes s i 4 h (fun x => { x.orVxf fl with p := x.p.set d.toNat m (show d.toNat < 8 from d.isLt) })) ∧
    ∀ j < 256, m.getLsbD j = true ↔ f j

/-- 08 R189 to R193: each selected element of vd is the form's value of the elements of va, vb and vd, computed exactly and
rounded once to the element format under rm. `vrcp`, `vrsqrt`, `vexp2` and `vlog2` round once to nearest even, at width 32 to
12 significant bits (R192); the value that they round is that of the model's series of 256 bits (log 11). At width 64 a
floating-point form raises FMTW and changes nothing (R185). -/
def Obligations.VectorFloatForms : Prop :=
  ∀ (s : State) (v a b : BitVec 5) (p : BitVec 3) (r h : BitVec 2), Ready s (Need.vec [v, a, b]) →
    let x := s.hart
    let sel (j : Nat) : Prop := (x.getP p).getLsbD j = true
    let F (i : Instr) (f : Elt → Nat → Nat × BitVec 6) : Prop :=
      (∀ e, x.elt = some e → Lanes s i h v x.ew x.lanes sel (f e)) ∧
      (x.elt = none → exec i s = .next (s.raiseAt s.hid Cause.fmtw.code x.pc 0 false))
    let rnd (rm : Nat) (g : Fmt → FVal → FVal → FVal → FRes) (e : Elt) (j : Nat) : Nat × BitVec 6 :=
      e.encode rm (g e.nanFmt (e.decode (vElem (x.getV v) x.ew j)) (e.decode (vElem (x.getV a) x.ew j))
        (e.decode (vElem (x.getV b) x.ew j)))
    let approx (op : Nat) (e : Elt) (j : Nat) : Nat × BitVec 6 :=
      (if e = .ieee fmt32 then e.encodeP 12 0 else e.encode 0) (fApprox e.nanFmt op (e.decode (vElem (x.getV a) x.ew j)))
    F (.vadd v a b p r h) (rnd r.toNat (fun t _ y z => fAdd t r.toNat y z)) ∧
    F (.vsub v a b p r h) (rnd r.toNat (fun t _ y z => fSub t r.toNat y z)) ∧
    F (.vmul v a b p r h) (rnd r.toNat (fun t _ y z => fMul t y z)) ∧
    F (.vdiv v a b p r h) (rnd r.toNat (fun t _ y z => fDiv t y z)) ∧
    F (.vfma v a b p r h) (rnd r.toNat (fun t d y z => fFma t r.toNat false d y z)) ∧
    F (.vfnma v a b p r h) (rnd r.toNat (fun t d y z => fFma t r.toNat true d y z)) ∧
    F (.vmin v a b p h) (rnd 0 (fun t _ y z => fMinMax t false y z)) ∧
    F (.vmax v a b p h) (rnd 0 (fun t _ y z => fMinMax t true y z)) ∧
    F (.vsqrt v a p r h) (rnd r.toNat (fun t _ y _ => fSqrt t y)) ∧
    F (.vscale v a b p r h) (fun e j => e.encode r.toNat
      (fScale e.nanFmt (e.decode (vElem (x.getV a) x.ew j)) (toSigned x.ew (vElem (x.getV b) x.ew j)))) ∧
    F (.vabs v a p h) (fun e j => (e.absolute (vElem (x.getV a) x.ew j), 0)) ∧
    F (.vneg v a p h) (fun e j => (e.negate (vElem (x.getV a) x.ew j), 0)) ∧
    F (.vrcp v a p h) (approx 0) ∧ F (.vrsqrt v a p h) (approx 1) ∧ F (.vexp2 v a p h) (approx 2) ∧
    F (.vlog2 v a p h) (approx 3)

/-- 08 R194: each selected element of vd is the form's integer value of the elements of va, vb and vd at the VSHAPE width,
with SAT where a saturating form clamps. -/
def Obligations.VectorIntegerForms : Prop :=
  ∀ (s : State) (v a b : BitVec 5) (p : BitVec 3) (h : BitVec 2), Ready s (Need.vec [v, a, b]) →
    let x := s.hart
    let w := x.ew
    let F (i : Instr) (f : Nat → Nat → Nat → Int) : Prop :=
      Lanes s i h v w x.lanes (fun j => (x.getP p).getLsbD j = true) (fun j =>
        ((f (vElem (x.getV v) w j) (vElem (x.getV a) w j) (vElem (x.getV b) w j) % 2 ^ w).toNat, 0))
    let sg (n : Nat) : Int := if n < 2 ^ (w - 1) then n else (n : Int) - 2 ^ w
    let S (i : Instr) (lo hi : Int) (f : Nat → Nat → Int) : Prop :=
      Lanes s i h v w x.lanes (fun j => (x.getP p).getLsbD j = true) (fun j =>
        let u := f (vElem (x.getV a) w j) (vElem (x.getV b) w j)
        let c := if u < lo then lo else if hi < u then hi else u
        ((c % 2 ^ w).toNat, if c = u then 0 else flagSAT))
    F (.vaddI v a b p h) (fun _ y z => y + z) ∧ F (.vsubI v a b p h) (fun _ y z => (y : Int) - z) ∧
    F (.vmulI v a b p h) (fun _ y z => y * z) ∧ F (.vmlaI v a b p h) (fun d y z => d + y * z) ∧
    F (.vminI v a b p h) (fun _ y z => if sg y ≤ sg z then y else z) ∧
    F (.vmaxI v a b p h) (fun _ y z => if sg y ≤ sg z then z else y) ∧
    F (.vminN v a b p h) (fun _ y z => if y ≤ z then y else z) ∧
    F (.vmaxN v a b p h) (fun _ y z => if y ≤ z then z else y) ∧
    F (.vandI v a b p h) (fun _ y z => (y &&& z : Nat)) ∧ F (.vorI v a b p h) (fun _ y z => (y ||| z : Nat)) ∧
    F (.vxorI v a b p h) (fun _ y z => (y ^^^ z : Nat)) ∧
    F (.vsllI v a b p h) (fun _ y z => y * 2 ^ (z % w)) ∧ F (.vsrlI v a b p h) (fun _ y z => y / 2 ^ (z % w)) ∧
    F (.vsraI v a b p h) (fun _ y z => sg y / 2 ^ (z % w)) ∧
    F (.vabsI v a p h) (fun _ y _ => (sg y).natAbs) ∧
    F (.vmulhI v a b p h) (fun _ y z => sg y * sg z / 2 ^ w) ∧ F (.vmulhN v a b p h) (fun _ y z => y * z / 2 ^ w) ∧
    S (.vaddsI v a b p h) (-2 ^ (w - 1)) (2 ^ (w - 1) - 1) (fun y z => sg y + sg z) ∧
    S (.vsubsI v a b p h) (-2 ^ (w - 1)) (2 ^ (w - 1) - 1) (fun y z => sg y - sg z) ∧
    S (.vaddsN v a b p h) 0 (2 ^ w - 1) (fun y z => y + z) ∧
    S (.vsubsN v a b p h) 0 (2 ^ w - 1) (fun y z => (y : Int) - z)

/-- 08 R196: a compare writes all of pd: bit j is 1 where lane j exists, is selected and the relation of the elements holds;
a float compare ORs the flags of the selected lanes into VXF and at width 64 raises FMTW. -/
def Sys2Proof.Claim.VectorCompares : Prop :=
  ∀ (s : State) (d : BitVec 3) (a b : BitVec 5) (p : BitVec 3) (h : BitVec 2), Ready s (Need.vec [a, b]) →
    let x := s.hart
    let w := x.ew
    let sel (j : Nat) : Prop := j < x.lanes ∧ (x.getP p).getLsbD j = true
    let sg (n : Nat) : Int := if n < 2 ^ (w - 1) then n else (n : Int) - 2 ^ w
    let C (i : Instr) (rel : Nat) : Prop :=
      (∀ e, x.elt = some e →
        let q (j : Nat) := fRel e.nanFmt rel (e.decode (vElem (x.getV a) w j)) (e.decode (vElem (x.getV b) w j))
        ∃ fl, WritesP s i h d fl (fun j => sel j ∧ (q j).1 = true) ∧
          ∀ k < 6, fl.getLsbD k = true ↔ ∃ j, sel j ∧ (q j).2.getLsbD k = true) ∧
      (x.elt = none → exec i s = .next (s.raiseAt s.hid Cause.fmtw.code x.pc 0 false))
    let S (i : Instr) (rel : Int → Int → Prop) : Prop :=
      WritesP s i h d 0 (fun j => sel j ∧ rel (sg (vElem (x.getV a) w j)) (sg (vElem (x.getV b) w j)))
    let N (i : Instr) (rel : Nat → Nat → Prop) : Prop :=
      WritesP s i h d 0 (fun j => sel j ∧ rel (vElem (x.getV a) w j) (vElem (x.getV b) w j))
    C (.vcmpEq d a b p h) 0 ∧ C (.vcmpNe d a b p h) 1 ∧ C (.vcmpLt d a b p h) 2 ∧ C (.vcmpLe d a b p h) 3 ∧
    C (.vcmpGt d a b p h) 4 ∧ C (.vcmpGe d a b p h) 5 ∧ C (.vcmpUn d a b p h) 6 ∧
    S (.vcmpEqI d a b p h) (· = ·) ∧ S (.vcmpNeI d a b p h) (· ≠ ·) ∧ S (.vcmpLtI d a b p h) (· < ·) ∧
    S (.vcmpLeI d a b p h) (· ≤ ·) ∧ S (.vcmpGtI d a b p h) (· > ·) ∧ S (.vcmpGeI d a b p h) (· ≥ ·) ∧
    N (.vcmpEqN d a b p h) (· = ·) ∧ N (.vcmpNeN d a b p h) (· ≠ ·) ∧ N (.vcmpLtN d a b p h) (· < ·) ∧
    N (.vcmpLeN d a b p h) (· ≤ ·) ∧ N (.vcmpGtN d a b p h) (· > ·) ∧ N (.vcmpGeN d a b p h) (· ≥ ·)

/-- 08 R197: the mask instructions act on all 256 bits; `pfirst` keeps the lowest selected lane, `pcnt` counts the selected
lanes below L, `pset` sets the bits below its count. -/
def Sys2Proof.Claim.MaskForms : Prop :=
  ∀ (s : State) (d a b : BitVec 3) (g : BitVec 5) (h : BitVec 2), Ready s Need.any →
    let x := s.hart
    let pa (j : Nat) : Prop := (x.getP a).getLsbD j = true
    let pb (j : Nat) : Prop := (x.getP b).getLsbD j = true
    WritesP s (.pand d a b h) h d 0 (fun j => pa j ∧ pb j) ∧ WritesP s (.por d a b h) h d 0 (fun j => pa j ∨ pb j) ∧
    WritesP s (.pxor d a b h) h d 0 (fun j => pa j ↔ ¬pb j) ∧ WritesP s (.pandn d a b h) h d 0 (fun j => pa j ∧ ¬pb j) ∧
    WritesP s (.pnot d a h) h d 0 (fun j => ¬pa j) ∧
    WritesP s (.pfirst d a h) h d 0 (fun j => j < x.lanes ∧ pa j ∧ ∀ k < j, ¬pa k) ∧
    WritesP s (.pset d g h) h d 0 (fun j => j < (x.getG g).toNat) ∧
    WritesG s (.pcnt g a h) h g
      (BitVec.ofNat 64 ((List.range x.lanes).filter (fun j => (x.getP a).getLsbD j)).length)

/-- 08 R200: a reduction over the K rows or columns of the grid, K at most 64, writes result k to FP32 element k of vd and keeps
the elements from K on; result k is the model's sum, extreme or dot product of the active elements of row or column k, in
increasing index, and how these pair the elements is not said here. With K above 64 it raises ILLOP, and at width 64 FMTW. -/
def Obligations.VectorReductions : Prop :=
  ∀ (s : State) (v a b : BitVec 5) (p : BitVec 3) (h : BitVec 2), Ready s (Need.vec [v, a, b]) →
    let x := s.hart
    let rows := 2 ^ x.vlr.toNat
    let cols := x.lanes / rows
    let line (isCol : Bool) (k : Nat) : List Nat :=
      ((List.range (if isCol then rows else cols)).map (fun j => if isCol then j * cols + k else k * cols + j)).filter
        (fun i => (x.getP p).getLsbD i)
    let R (i : Instr) (isCol : Bool) (f : Elt → List Nat → Nat × BitVec 6) : Prop :=
      let n := if isCol then cols else rows
      (64 < n → exec i s = .next (s.raiseAt s.hid Cause.illop.code x.pc 0 false)) ∧
      (n ≤ 64 → x.elt = none → exec i s = .next (s.raiseAt s.hid Cause.fmtw.code x.pc 0 false)) ∧
      (∀ e, n ≤ 64 → x.elt = some e → Lanes s i h v 32 64 (fun j => j < n) (fun k => f e (line isCol k)))
    R (.vrsum v a p h) false (x.lineSum a) ∧ R (.vcsum v a p h) true (x.lineSum a) ∧
    R (.vrmax v a p h) false (x.lineMinMax true a) ∧ R (.vcmax v a p h) true (x.lineMinMax true a) ∧
    R (.vrmin v a p h) false (x.lineMinMax false a) ∧ R (.vcmin v a p h) true (x.lineMinMax false a) ∧
    R (.vdot v a b p h) false (x.lineDot a b)

/-- 08 R183, R184, R198, R199, R202, R204: moves, broadcasts, permutes, transpose and random numbers, and the writes of
VSHAPE and VWIN with the values that they refuse. -/
def Sys2Proof.Claim.VectorMovesAndShapes : Prop :=
  ∀ (s : State) (v a b : BitVec 5) (p : BitVec 3) (w : BitVec 2) (l : BitVec 4) (imm : BitVec 20) (h : BitVec 2),
    let x := s.hart
    let V (l : List (BitVec 5)) (c : Prop) : Prop := Ready s (Need.vec l) → c
    let sel (j : Nat) : Prop := (x.getP p).getLsbD j = true
    let M (i : Instr) (c : Nat → Prop) (f : Nat → Nat) : Prop := Lanes s i h v x.ew x.lanes c (fun j => (f j, 0))
    let el (r : BitVec 5) (j : Nat) : Nat := vElem (x.getV r) x.ew j
    let rows := 2 ^ x.vlr.toNat
    let rng (j : Nat) : Nat := (vrng64 (x.getG a) (x.getG b + BitVec.ofNat 64 j)).toNat
    V [v, a] (M (.vmov v a p h) sel (el a)) ∧
    V [v, a, b] (M (.vsel v a b p h) (fun _ => True) (fun j => if (x.getP p).getLsbD j then el a j else el b j)) ∧
    V [v] (Completes s (.vzero v h) 4 h (fun y => y.setV v 0)) ∧
    V [v] (M (.vbcast v a p h) sel (fun _ => (x.getG a).toNat)) ∧
    V [v] (M (.vins v a b h) (fun j => j = (x.getG b).toNat % x.lanes) (fun _ => (x.getG a).toNat)) ∧
    V [v] (WritesG s (.vext a v b h) h a (BitVec.ofNat 64 (el v ((x.getG b).toNat % x.lanes)))) ∧
    V [v, a, b] (M (.vperm v a b p h) sel (fun j => el a (el b j % x.lanes))) ∧
    V [v, a] (M (.vtrn v a p h) sel (fun j => el a (j % rows * (x.lanes / rows) + j / rows))) ∧
    V [v] (M (.vrng v a b p h) sel rng) ∧
    V [v] (∀ f, x.elt = some (.ieee f) → Lanes s (.vrngf v a b p h) h v x.ew x.lanes sel (fun j =>
      unitElem f (f.fb + 1) (rng j / 2 ^ (63 - f.fb)))) ∧
    V [v] ((∀ f, x.elt ≠ some (.ieee f)) → exec (.vrngf v a b p h) s = .next (s.raiseAt s.hid Cause.fmtw.code x.pc 0 false)) ∧
    V [v] (∀ e, x.elt = some e → Lanes s (.vfmov v imm) 0 v x.ew x.lanes (fun _ => True) (fun _ =>
      convert (imm.toNat * 2 ^ 12) (.flt (.ieee fmt32)) (.flt e) 0)) ∧
    V [] (l.toNat ≤ 8 - w.toNat → Completes s (.vshape w l h) 4 h (fun y => { y with vw := w, vlr := l })) ∧
    V [] (8 - w.toNat < l.toNat → exec (.vshape w l h) s = .next (s.raiseAt s.hid Cause.illop.code x.pc 0 false)) ∧
    V [] (32 * w.toNat < modeRegs x.record.mode → Completes s (.vwin w h) 4 h (fun y => { y with vwin := w })) ∧
    V [] (modeRegs x.record.mode ≤ 32 * w.toNat → exec (.vwin w h) s = .next (s.raiseAt s.hid Cause.vregn.code x.pc 0 false))

/-- 07 R176 to R178: `vcvt` converts 2,048 over the larger width elements, reading part q of va where it widens and writing part
q of vd where it narrows, and a part that the ratio of the widths does not give raises ILLOP; the BFP8 and half-width packs
and unpacks write the elements their rules give, and `vpk` and `vupk` raise FMTW at width 8. -/
def Sys2Proof.Claim.VectorConversions : Prop :=
  ∀ (s : State) (v a b : BitVec 5) (p t f : BitVec 3) (q h : BitVec 2) (u : BitVec 1),
    let x := s.hart
    let V (l : List (BitVec 5)) (c : Prop) : Prop := Ready s (Need.vec l) → c
    let sw := (cvtTy f x.ew).2
    let dw := (cvtTy t x.ew).2
    let n := 2048 / Nat.max sw dw
    let off := if dw < sw then q.toNat * n else 0
    let Fault (i : Instr) (c : Cause) : Prop := exec i s = .next (s.raiseAt s.hid c.code x.pc 0 false)
    let sc := fld (x.getG b) (8 * q.toNat + 7) (8 * q.toNat)
    let va32 := (List.range 64).map (fun j => d32 (vElem (x.getV a) 32 j))
    let half (j : Nat) : Int := toSigned x.ew (if j < x.lanes then vElem (x.getV a) x.ew j else vElem (x.getV b) x.ew (j - x.lanes))
    V [v, a] (Nat.max sw dw / Nat.min sw dw ≤ q.toNat → Fault (.vcvt v a q p t f h) .illop) ∧
    V [v, a] (q.toNat < Nat.max sw dw / Nat.min sw dw →
      Lanes s (.vcvt v a q p t f h) h v dw (2048 / dw)
        (fun k => off ≤ k ∧ k < off + n ∧ (x.getP p).getLsbD (k - off) = true)
        (fun k => convert (vElem (x.getV a) sw (if sw < dw then q.toNat * n + (k - off) else k - off)) (cvtTy f x.ew).1
          (cvtTy t x.ew).1 (x.fmt.toNat % 4))) ∧
    V [v, a] (∃ (r : VReg) (fl : BitVec 6) (e : Nat),
      Completes s (.vpkBfp8 v a b q h) 4 h (fun y =>
        ((y.orVxf fl).setV v r).setG b (setFld (y.getG b) (8 * q.toNat + 7) (8 * q.toNat) e)) ∧
      (∀ j, j < 64 * q.toNat ∨ (64 * q.toNat + 64 ≤ j ∧ j < 256) → vElem r 8 j = vElem (x.getV v) 8 j) ∧
      (va32.any (fun m => m.isNan || m.isInf) = true → e = 0xFF ∧ fl = flagNV ∧ ∀ j < 64, vElem r 8 (64 * q.toNat + j) = 0) ∧
      (va32.any (fun m => m.isNan || m.isInf) = false → e = (bfpScale va32).1 ∧
        ∀ j < 64, vElem r 8 (64 * q.toNat + j) =
          if e = 0 then 0 else ((bfpMant e (va32[j]?.getD (.num false 0 0))).1 % 256).toNat)) ∧
    V [v, a] (∃ r : VReg, Completes s (.vupkBfp8 v a b q h) 4 h (fun y => (y.orVxf (if sc = 0xFF then flagNV else 0)).setV v r) ∧
      ∀ j < 64, vElem r 32 j =
        (if sc = 0xFF then fmt32.defNan
         else
           let m := toSigned 8 (vElem (x.getV a) 8 (64 * q.toNat + j))
           if m = 0 ∨ (e5m3 sc).1 = 0 then 0
           else (fmt32.round 24 0 (decide (m < 0)) (m.natAbs * (e5m3 sc).1) ((e5m3 sc).2 - 7)).1) % 2 ^ 32) ∧
    V [v, a, b] (x.ew = 8 → Fault (.vpk v a b h) .fmtw ∧ Fault (.vupk v a u h) .fmtw) ∧
    V [v, a, b] (x.ew ≠ 8 →
      Lanes s (.vpk v a b h) h v (x.ew / 2) (2 * x.lanes) (fun _ => True) (fun j =>
        (((clampInt (x.ew / 2) true (half j)).1 % 2 ^ (x.ew / 2)).toNat, (clampInt (x.ew / 2) true (half j)).2)) ∧
      Lanes s (.vupk v a u h) h v x.ew x.lanes (fun _ => True) (fun j =>
        ((toSigned (x.ew / 2) (vElem (x.getV a) (x.ew / 2) (u.toNat * x.lanes + j)) % 2 ^ x.ew).toNat, 0)))

/-! ## Engines of a tile (04 R107, R108; 09; 10; 11) -/

/-- 04 R107 to R109: `cp` reads its descriptor of four doublewords from local store as it issues; with fewer than 64 commands in
the queue of the engine that gets it, the command joins the queue, counts for the slot, and the instruction completes. The
engine is that of the tile of a scratchpad side, and of the own tile where neither side is scratchpad. `cpstat` reads and
clears. -/
def Sys2Proof.Claim.CopyInstructions : Prop :=
  ∀ (s : State) (d a b : BitVec 5) (h : BitVec 2), Ready s Need.access →
    let ga := (s.hart.getG a).toNat
    let gb := (s.hart.getG b).toNat
    let w := bytesWords (memBytes s.mem (localBase s.coreNo + ga) 32) 4
    (ga < 0x40000 → gb < 0x40000 → ga % 32 = 0 → gb % 16 = 0 →
      ∃ c : CopyCmd, c.strand = s.hart.sid ∧ c.pid = s.hart.pid ∧ c.core = s.coreNo ∧ c.stat = gb ∧ c.src = nthW w 0 ∧
        c.dst = nthW w 1 ∧ c.word2 = nthW w 2 ∧ c.word3 = nthW w 3 ∧ c.running = false ∧ c.cancel = false ∧
        (c.srcSp = false → c.dstSp = false → c.tile = s.tileNo) ∧
        (∀ l, c.srcSp = true → c.dstSp = false → spLoc c.src = some l → c.tile = l.tile) ∧
        (∀ l, c.srcSp = false → c.dstSp = true → spLoc c.dst = some l → c.tile = l.tile) ∧
        (let s1 := (s.beforeAccess true).releaseActions s.hid (if c.tile = s.tileNo then 1 else 2)
         (s1.tile c.tile).copies.length < 64 →
         CompletesFrom s (.cp a b h) ((s1.modTile c.tile (fun t => { t with copies := t.copies ++ [c] })).modStrand c.strand
           (fun x => { x with cpOut := x.cpOut + 1 })) 4 h id)) ∧
    CompletesFrom s (.cpstat d h) (s.beforeAccess false) 4 h (fun x =>
      ({ x with cpFail := 0 } : Slot).setG d (BitVec.ofNat 64 (x.cpOut % 256 + x.cpFail.toNat * 2 ^ 8)))

/-- 04 R108, 05 R126: the engine begins its oldest command, and ends it, where no bank that it names is switching and no answer
of another device is awaited: the data that can be moved, then the status area, the owners of what the command names,
destination first where it succeeded, its slot's counts, and room for a waiting `cp`. A cancelled command ends with code 6, a
bad descriptor with 1, a global destination of a logical process with 5, and moves nothing. -/
def Sys2Proof.Claim.CopyEngine : Prop :=
  ∀ (s : State) (t : Nat) (c : CopyCmd) (r : List CopyCmd), (s.tile t).copies = c :: r → c.tile = t →
    (c.running = false → exec (.copyStart t) s =
      .next (s.modTile t (fun k =>
        { k with copies := { c with running := true, bad := c.bad || c.fieldsBad || c.sidesBad } :: r }))) ∧
    (c.running = true → s.copyHeld c = false → c.moved = none →
      let s0 := s.copyAsk c
      (s0.engineAwaits (copyId t) = true → exec (.copyComplete t) s = .next s0) ∧
      (∀ v s1, s0.engineAwaits (copyId t) = false → s0.copyMove c = (v, s1) →
        let s2 := s1.engineForget (copyId t)
        s2.engineAwaits (copyId t) = false →
        (v = .ok () → exec (.copyComplete t) s =
          .next (((((s2.copyStatus c { code := 0, cause := 0, addr := 0 }).flipOwned (c.named false) 1 c.after).flipOwned
            (c.named true) 1 0).modStrand c.strand (fun x => { x with cpOut := x.cpOut - 1 })).copyLeave t)) ∧
        (∀ e, e.code ≠ 0 → v = .error e → exec (.copyComplete t) s =
          .next (((((s2.copyStatus c e).flipOwned (c.named true) 1 0).flipOwned (c.named false) 1 0).modStrand c.strand
            (fun x => { x with cpOut := x.cpOut - 1, cpFail := if x.cpFail = 0 then BitVec.ofNat 8 e.code else x.cpFail
              })).copyLeave t))) ∧
      (c.cancel = true → s.copyMove c = (.error { code := 6, cause := 0, addr := 0 }, s)) ∧
      (c.cancel = false → c.bad = true → s.copyMove c = (.error { code := 1, cause := 0, addr := 0 }, s)) ∧
      (c.cancel = false → c.bad = false → c.isLp = true → c.dstSp = false →
        s.copyMove c = (.error { code := 5, cause := 0, addr := 0 }, s)))

/-- The command `c` joins the optical queue of its tile, which has room, and the instruction completes (09 R220). -/
def Sys2Proof.Claim.Queues (s : State) (i : Instr) (h : BitVec 2) (c : OptCmd) : Prop :=
  let s1 := (s.beforeAccess true).releaseActions s.hid 1
  (s1.tile c.tile).opt.queue.length < 64 → CompletesFrom s i (s1.optAccept c) 4 h id

/-- 09 R219 to R224, R230 and 10 R243, R244, R262 to R264, R269: an optical command whose operands pass, `psel` like any other,
joins its tile's queue with what its registers and its descriptor give it; accepting takes the next ticket for a pass. `pebc`,
after what an ordering instruction still holds, answers and clears the pass summary where no pass is outstanding, and else
waits; `pflr` sets the floor; `ptkt` answers the last ticket and PCNT. That a logical process runs `pebc` and `ptkt` in a
handler only, as accesses of memory, and `pflr` anywhere, is the model's reading (log 48). With a floor fault pending each of
the pass instructions raises EBCFLR instead, for the handler that issued the pass. -/
def Obligations.OpticalInstructions : Prop :=
  (∀ (s : State) (d a b : BitVec 5) (h : BitVec 2),
    let x := s.hart
    let ga := x.getG a
    let gb := x.getG b
    (Ready s Need.command → ga.toNat % 16 = 0 → ga.toNat ≤ 0x3FFF0 → x.floorPend = none →
      let w := bytesWords (memBytes s.mem (localBase s.coreNo + ga.toNat) 16) 2
      let C (k : OptKind) (ack : Option (BitVec 5)) : OptCmd :=
        { s.optCmd k ack with pal := BitVec.ofNat 2 (fld (nthW w 0) 51 50), desc0 := nthW w 0, desc1 := nthW w 1 }
      Queues s (.pass a h) h (C .pass none) ∧ Queues s (.passAck d a h) h (C .pass (some d)) ∧
      Queues s (.passr a h) h (C .passr none) ∧ Queues s (.passrAck d a h) h (C .passr (some d))) ∧
    (Ready s { Need.command with opt := true } →
      (gb.toNat < 4 → ga.toNat % 256 = 0 →
        let C (k : OptKind) (ack : Option (BitVec 5)) : OptCmd := { s.optCmd k ack with pal := gb.setWidth 2, addr := ga }
        Queues s (.phld a b h) h (C .phld none) ∧ Queues s (.phldAck d a b h) h (C .phld (some d)) ∧
        Queues s (.phst a b h) h (C .phst none) ∧ Queues s (.phstAck d a b h) h (C .phst (some d))) ∧
      (ga.toNat < 4 →
        Queues s (.psel a h) h { s.optCmd .psel none with pal := ga.setWidth 2 } ∧
        Queues s (.pselAck d a h) h { s.optCmd .psel (some d) with pal := ga.setWidth 2 }) ∧
      (fld gb 63 15 = 0 → fld gb 7 2 = 0 → 1 ≤ fld gb 14 8 → fld gb 14 8 ≤ 64 → ga.toNat % 16384 = 0 →
        ga.toNat / 2 ^ 24 = s.tileNo →
        let C (ack : Option (BitVec 5)) : OptCmd := { s.optCmd .dcmp ack with pal := gb.setWidth 2, addr := ga, n := fld gb 14 8 }
        Queues s (.dcmp a b h) h (C none) ∧ Queues s (.dcmpAck d a b h) h (C (some d)))) ∧
    (Ready s { Need.any with iss := true } → x.floorPend = none →
      ga.toNat % 2 ^ 8 < 2 ^ 7 → ga.toNat < 2 ^ 9 → Completes s (.pflr a h) 4 h (fun y =>
        { y with floor := ga.setWidth 7, emulate := ga.getLsbD 8 })) ∧
    (Ready s Need.command → x.floorPend = none →
      let s1 := s.beforeAccess false
      (s1.hart.passOut ≠ 0 → exec (.pebc d h) s = .next (s1.parkAt h (.pebc d))) ∧
      (s1.hart.passOut = 0 → CompletesFrom s (.pebc d h) s1 4 h (fun y =>
        ({ y with psum := { npass := 0, status := 0, ebc := 127 } } : Slot).setG d
          (BitVec.ofNat 64 (y.psum.ebc.toNat + y.psum.status.toNat * 2 ^ 8 + y.psum.npass.toNat * 2 ^ 16)))) ∧
      CompletesFrom s (.ptkt d h) s1 4 h (fun y => y.setG d (BitVec.ofNat 64 ((s1.tile s1.tileNo).opt.pcnt.toNat +
        (s1.hart.ticket.getD (s1.tile s1.tileNo).opt.pcnt).toNat * 2 ^ 32)))) ∧
    (∀ tk n, Ready s Need.command → x.floorPend = some (tk, n) →
      ∀ i ∈ [Instr.pass a h, .passAck d a h, .passr a h, .passrAck d a h, .pebc d h, .pflr a h, .ptkt d h],
        exec i s = .next ((s.modHart (fun y => { y with floorPend := none })).raiseFault s.hid
          { cause := Cause.ebcflr.code, xpc := x.pc, xval := tk.setWidth 64, late := true, final := false, hno := some n }))) ∧
  (∀ (s : State) (c : OptCmd), let o := (s.tile c.tile).opt
    ((s.optAccept c).tile c.tile).opt.queue = o.queue ++ [if c.kind.isPass then { c with ticket := o.acc + 1 } else c] ∧
    ((s.optAccept c).tile c.tile).opt.acc = if c.kind.isPass then o.acc + 1 else o.acc)

/-- 11 R272, R273: `xmm` and `xmm.strict` read their descriptor from local store and join the queue of the tile's unit, which
has room; the slot counts the command, and a register that a form with `.ack` names awaits the reply. -/
def Sys2Proof.Claim.MatrixInstructions : Prop :=
  ∀ (s : State) (d a : BitVec 5) (h : BitVec 2), Ready s Need.command →
    let ga := (s.hart.getG a).toNat
    ga % 32 = 0 → ga ≤ 0x3FFE0 →
    let w := bytesWords (memBytes s.mem (localBase s.coreNo + ga) 32) 4
    let s1 := (s.beforeAccess true).releaseActions s.hid 1
    (s1.tile s.tileNo).xmms.length < 16 →
    let X (i : Instr) (strict : Bool) (ack : Option (BitVec 5)) : Prop :=
      ∃ c : XmmCmd, c.strand = s.hart.sid ∧ c.pid = s.hart.pid ∧ c.ack = ack ∧ c.strict = strict ∧ c.core = s.coreNo ∧
        c.d0 = nthW w 0 ∧ c.d1 = nthW w 1 ∧ c.d2 = nthW w 2 ∧ c.d3 = nthW w 3 ∧ c.running = false ∧ c.cancel = false ∧
        CompletesFrom s i ((s1.modTile s.tileNo (fun t => { t with xmms := t.xmms ++ [c] })).modStrand s.hart.sid (fun x =>
          { x with xkeep := bitOf (nthW w 1) 47, xmmOut := x.xmmOut + 1, acks := x.acks ++ ack.toList })) 4 h id
    X (.xmm a h) false none ∧ X (.xmmAck d a h) false (some d) ∧ X (.xmmStrict a h) true none ∧
    X (.xmmStrictAck d a h) true (some d)

/-- The event changes the optical tile of tile `t` by `f`, and no other tile, no register of the executing strand and no byte
of memory. -/
def Sys2Proof.Claim.Optic (s : State) (i : Instr) (t : Nat) (f : Optics → Optics) : Prop :=
  ∃ u, exec i s = .next u ∧ (u.tile t).opt = f (s.tile t).opt ∧ (∀ k, k ≠ t → u.tile k = s.tile k) ∧ u.hart = s.hart ∧
    u.mem = s.mem

/-- 09 R216 to R224: the engines of a tile whose issuing core is in service take their next command, and end it: with the
status of the first check that fails, which leaves the palettes as they are, or with the palette written, stored, made active
or factorised, after the engine has read the n by n block and nothing outside it. Where another device holds the image the
loader awaits its answers first. That ownership is checked where the model does, and the elements of a factorisation, rest on
logs 40 and 11. -/
def Sys2Proof.Claim.PaletteEngines : Prop :=
  ∀ (s : State) (t i : Nat) (c : OptCmd) (e : BitVec 7), s.engineOn t = true →
    let o := (s.tile t).opt
    (o.startable OptKind.isLoad = some (i, c) →
      let go (o : Optics) : Optics := { o with queue := o.queue.set i { c with running := true } }
      (c.kind = .phld → Optic s (.paletteLoadStart t) t go) ∧ (c.kind = .phst → Optic s (.paletteStoreStart t) t go)) ∧
    (o.running .phld = some (i, c) →
      (c.cancel = true → exec (.paletteLoadDone t e) s =
        .next ((s.remoteEnd (fun q => decide (q.strand = loaderId t))).optEnd t i c 7 0 0 0)) ∧
      (c.cancel = false → o.foreign c = true → exec (.paletteLoadDone t e) s = .next (s.optEnd t i c 8 0 0 0)) ∧
      (c.cancel = false → o.foreign c = false →
        let s0 := s.imageAsk t i c
        (s0.engineAwaits (loaderId t) = true → exec (.paletteLoadDone t e) s = .next s0) ∧
        (s0.engineAwaits (loaderId t) = false →
          (∀ f a s1, s0.loaderRead t c.pid c.exec c.addr 16640 300 = (.error (f, a), s1) →
            exec (.paletteLoadDone t e) s =
              .next ((s1.engineForget (loaderId t)).optEnd t i c 2 0 (f.code.toNat % 256) a)) ∧
          (∀ bs s1, s0.loaderRead t c.pid c.exec c.addr 16640 300 = (.ok bs, s1) →
            let s2 := s1.engineForget (loaderId t)
            (imageOk bs = false → exec (.paletteLoadDone t e) s = .next (s2.optEnd t i c 1 0 0 0)) ∧
            (imageOk bs = true → exec (.paletteLoadDone t e) s =
              .next ((s2.modOpt t (fun o => o.write c.pal.toNat (imagePalette bs c.pid) e)).optEnd t i c 0 0 0 0)))))) ∧
    (o.running .phst = some (i, c) → s.engineAwaits (loaderId t) = false → c.cancel = false → c.moved = none →
      c.failed = none → o.foreign c = false →
      (o.pal c.pal.toNat = none → exec (.paletteStoreDone t) s = .next (s.optEnd t i c 9 0 0 0)) ∧
      (∀ k s1, o.pal c.pal.toNat = some k → s.engineWrite t c.pid c.exec c.addr k.image 300 = (none, s1) →
        s1.engineAwaits (loaderId t) = false →
        exec (.paletteStoreDone t) s = .next (s1.optEnd t i c 0 0 0 0))) ∧
    (o.startable (fun k => decide (k = .psel)) = some (i, c) → c.cancel = false → o.foreign c = false →
      (o.pal c.pal.toNat = none → exec (.paletteSwitch t e) s = .next (s.optEnd t i c 9 0 0 0)) ∧
      (o.pal c.pal.toNat ≠ none →
        let s1 := s.modOpt t (fun o => o.activate c.pal.toNat e)
        (s1.tile t).opt.active = c.pal ∧ exec (.paletteSwitch t e) s = .next (s1.optEnd t i c 0 0 0 0))) ∧
    (o.startable (fun k => decide (k = .dcmp)) = some (i, c) → c.cancel = false → o.foreign c = false →
      let b := (s.tile t).bank (c.addr.toNat % 2 ^ 24 / 2 ^ 20)
      b.mode = 1 → b.pid = c.pid →
      (s.ownerGet c.slab = 2 → Optic s (.decompStart t) t (fun o => { o with queue := o.queue.set i { c with running := true } })) ∧
      (s.ownerGet c.slab ≠ 2 → exec (.decompStart t) s = .next (s.optEnd t i c 3 0 0 0))) ∧
    (o.running .dcmp = some (i, c) → c.cancel = false →
      let s1 := (List.range c.n).foldl (fun (u : State) r => u.consume none c.pid (spBase (c.addr.toNat + 256 * r)) (4 * c.n)) s
      let f := factorise (s1.decompBlock c) c.n
      (f.status ≠ 0 → exec (.decompDone t e) s = .next (s1.decompEnd t i c f.status 0)) ∧
      (f.status = 0 → ∃ k : Palette, k.mesh = f.mesh ∧ k.att = f.att ∧ k.screen = f.screen ∧ k.n.toNat = c.n % 128 ∧
        k.pid = c.pid ∧ k.tag = 0 ∧ exec (.decompDone t e) s =
          .next ((s1.modOpt t (fun o => o.write c.pal.toNat k e)).decompEnd t i c 0 f.febc)))

/-- 09 R216 to R218, R231 to R237: the control of an optical tile, its calibration, swatches and drift. That OFF during a
calibration leaves the tile DARK and that a calibration sets LIVE is the model's reading (log 38), and that the thermal loop
only ever clears bits of LIVE its choice (log 91). -/
def Sys2Proof.Claim.OpticalTileStates : Prop :=
  ∀ (s : State) (t i : Nat) (c : OptCmd) (off ok : Bool) (lv : BitVec 8) (dr : BitVec 16) (e : BitVec 7) (de : BitVec 28) (l m q n : Nat),
    let o := (s.tile t).opt
    (o.queue.length < 64 → ∃ u k, exec (.otctlClr t) s = .next u ∧ (u.tile t).opt = { o with queue := o.queue ++ [k] } ∧
      k.kind = .clr) ∧
    (o.startable (fun k => decide (k = .clr)) = some (i, c) → c.ack = none →
      ∃ u, exec (.otctlClrEffect t) s = .next u ∧ ∀ p, (u.tile t).opt.pal p = none) ∧
    Optic s (.otctlCal t) t (fun o => { o with calReq := true }) ∧
    (∃ u, exec (.otctlOff t off) s = .next u ∧ (o.state ≠ .calib → (u.tile t).opt.off = off) ∧
      (off = true → o.state = .ready ∨ o.state = .hold ∨ o.state = .calib → (u.tile t).opt.state = .dark) ∧
      (o.state = .digital → (u.tile t).opt.state = .digital) ∧
      (off = false → o.state = .calib → (u.tile t).opt.state = .calib)) ∧
    (o.calReq = true → o.off = false → o.inFlight = false → o.state ≠ .digital → o.state ≠ .hold → s.plat.cur ≠ 3 →
      Optic s (.calibEnter t) t (fun o => { o with state := .calib, calReq := false })) ∧
    (o.state = .calib → ∃ u, exec (.tileCalibDone t ok (lv, dr) e) s = .next u ∧ (u.tile t).opt.calgen = o.calgen + 1 ∧
      (u.tile t).opt.live = lv ∧
      (u.tile t).opt.calAt = some s.ticks ∧ (u.tile t).opt.qmon = 0 ∧ (u.tile t).opt.oswm = 0 ∧
      (∀ k, o.pal o.active.toNat = some k →
        (u.tile t).opt.pal o.active.toNat = some { k with pebc0 := e, conv := some (o.calgen + 1) }) ∧
      (∀ p, p ≠ o.active.toNat → (u.tile t).opt.pal p = o.pal p) ∧
      (ok = false → (u.tile t).opt.state = .digital) ∧
      (ok = true → o.off = false → s.plat.cur ≠ 3 → (u.tile t).opt.state = if s.plat.switching then .hold else .ready)) ∧
    (o.state = .ready → l < 8 → o.live.getLsbD l = true → ∃ u, exec (.swatchInject t l m q n) s = .next u ∧
      (u.tile t).opt.swatch = o.swatch + 1 ∧ (u.tile t).opt.swatched = true ∧
      (u.tile t).opt.dm.toNat = Nat.min n 65535 ∧ (u.tile t).opt.swatchAt l = some s.ticks ∧
      (u.tile t).opt.qmon.toNat = if 64 < q then Nat.min (o.qmon.toNat + 1) 255 else o.qmon.toNat) ∧
    Optic s (.thermalLoop t (m, q) lv) t (fun o =>
      { o with live := o.live &&& lv, tempMax := BitVec.ofNat 8 (Nat.min m 255), tempSpan := BitVec.ofNat 8 (Nat.min q 255) }) ∧
    Optic s (.debcEval t de) t (fun o => { o with debc := de })

/-- 10 R248, R249, R253, R254: a pass whose start checks hold starts, its palette standing; one whose descriptor is illegal,
whose halves are not owned by code 2, or whose palette is EMPTY or another PID's, is ended with its status. A group of a pass
that holds its halves enters the meshes at or above the floor; below it, which is every group while the tile is not READY or a
calibration is requested (10 R268), it is left to emulation, or ends the pass where the policy is FAULT. That a group enters only
while its pass still holds its halves is the model's reading (log 39). -/
def Sys2Proof.Claim.PassesStartAndEnter : Prop :=
  ∀ (s : State) (t i : Nat) (c : OptCmd) (e : BitVec 7) (r : PassRun), s.engineOn t = true →
    let o := (s.tile t).opt
    (o.startable OptKind.isPass = some (i, c) → c.tile = t → c.cancel = false →
      let inO := decide ((s.tile t).halfOwner c.ih = 2)
      let outO := decide ((s.tile t).halfOwner c.oh = 2)
      let Ends (st : BitVec 8) : Prop := Optic s (.passStart t e) t (fun o =>
        { o with queue := o.queue.set i { c with running := true },
                 runs := o.runs ++ [{ startRun c inO outO with ok := false, ending := true, status := st }] })
      (c.legal = false → Ends 10) ∧
      (c.legal = true → inO = false ∨ outO = false → Ends 3) ∧
      (c.legal = true → inO = true → outO = true →
        (o.pal c.pal.toNat = none → Ends 9) ∧
        (∀ k, o.pal c.pal.toNat = some k →
          (k.pid ≠ c.pid → Ends 8) ∧
          (k.pid = c.pid → o.standing c.pal.toNat = false → c.isLp = true → Ends 12) ∧
          (k.pid = c.pid → o.standing c.pal.toNat = true → c.count ≤ 1024 →
            Optic s (.passStart t e) t (fun o =>
              { o with queue := o.queue.set i { c with running := true }, runs := o.runs ++ [startRun c true true] }))))) ∧
    (o.entering = some r → r.leave = false → o.state ≠ .hold →
      let c := r.cmd
      let k := c.lmask &&& o.live
      let n := Nat.min (c.groupSize o.live) (c.count - r.next)
      let ebc := o.declared s.ticks c.pal.toNat c.gain
      let below : Prop := o.state ≠ .ready ∨ o.calReq = true ∨ k = 0 ∨ ebc < c.floor.toNat
      s.passHolds c = true → s.allNan c r.next n = false →
      (o.state = .ready → o.calReq = false → o.setDue = false ∧ o.swatchFirst k n = false) →
      (¬below → Optic s (.groupEntry t) t (fun o => (o.carry k n).modRun c.ticket (fun q =>
        { q with next := q.next + n, groups := q.groups ++ [{ first := q.next, count := n, emu := false, ebc := ebc }] }))) ∧
      (below → c.emulate = true → Optic s (.groupEntry t) t (fun o => o.modRun c.ticket (fun q =>
        { q with next := q.next + n, groups := q.groups ++ [{ first := q.next, count := n, emu := true, ebc := ebc }] }))) ∧
      (below → c.emulate = false → Optic s (.groupEntry t) t (fun o => o.modRun c.ticket (fun q =>
        { q with status := 11, ending := true }))))

/-- 10 R250 to R257, 09 R239: the oldest group of the oldest pass, which holds its halves, is written, from its detector codes
as the promise of its declared EBC lets them stand, or by the exact matrix unit, and leaves the pass, whose EBC is the least over
the groups written, 127 counting for an emulated one; a pass whose groups are written writes its header, flips its halves, counts
in PCNT, and tells its strand. That a code is moved to the nearest promised one is the model's reading (log 6), and so is the
test of the halves before each group (log 39). -/
def Sys2Proof.Claim.PassesWriteAndEnd : Prop :=
  ∀ (s : State) (t : Nat) (codes : List (BitVec 10)) (r : PassRun) (g : PassGroup) (k : Palette) (rs : List PassRun),
    let o := (s.tile t).opt
    let c := r.cmd
    (o.oldestGroup = some (r, g) → o.pal c.pal.toNat = some k → s.passHolds c = true →
      (g.emu = false →
        let n := k.n.toNat
        let cols := idealCols k.mesh k.att k.screen k.sw.toNat n
        let row (i : Nat) : List Nat := if c.kind = .passr then cols[i]?.getD [] else column cols i
        let code (q i : Nat) : BitVec 10 :=
          promised c.gain k.sw.toNat g.ebc (idealDot (row i) ((List.range n).map (s.inMant c (g.first + q))))
            (codes[64 * q + i]?.getD (Config.freeCode (s.freeCtr + q) i))
        let p := (s.passInput c g.first g.count).outGroup (fun u q => u.outCodes c k (g.first + q) (code q)) 0 g.count
        exec (.groupOutput t codes) s =
          .next (({ p.1 with freeCtr := s.freeCtr + g.count } : State).modOpt t (fun o => o.groupOut c.ticket g.count g.ebc p.2))) ∧
      (g.emu = true → s.engineOn t = true → (∀ x ∈ (s.tile t).xmms, x.running = false) →
        s.allNan c g.first g.count = false →
        let n := k.n.toNat
        let rows := if c.kind = .passr then k.emuCols else (List.range n).map (fun i => column k.emuCols i)
        let p := (s.passInput c g.first g.count).outGroup (fun u q => u.outEmu c n rows (g.first + q)) 0 g.count
        exec (.groupEmulate t) s = .next (p.1.modOpt t (fun o => o.groupOut c.ticket g.count 127 p.2)))) ∧
    (∀ n b w, o.groupOut c.ticket n b w = o.modRun c.ticket (fun q =>
      { q with groups := q.groups.drop 1, done := q.done + n, ebc := BitVec.ofNat 7 (Nat.min q.ebc.toNat b),
               flags := q.flags ||| w.flags, nemu := q.nemu + w.nemu, nsat := q.nsat + w.nsat, nnan := q.nnan + w.nnan })) ∧
    (∀ (u : State) (j : Nat) (f : Nat → BitVec 10), c.ofmt = 0 → c.acc = false → u.inScale c j ≠ 0xFF →
      (u.outCodes c k j f).1 = u.spWrite (c.vecAddr j) ((List.range 64).flatMap (fun i =>
        natLe 4 (if i < k.n.toNat then codeVal (f i) c.gain k.sw.toNat (u.inScale c j) else 0)))) ∧
    (o.runs = r :: rs → r.groups = [] → r.allIn = true → c.cancel = false → r.status = 0 → r.inOwned = true → r.outOwned = true →
      s.ownerGet (.half t c.ih) = 2 → s.ownerGet (.half t c.oh) = 2 → c.legal = true → c.iafter ≠ 2 → c.okeep = false →
      let s1 := ((s.spWrite (c.outAddr 0) r.header).flip (.half t c.ih) (BitVec.ofNat 3 c.iafter)).flip (.half t c.oh) 0
      let s2 := (s1.modOpt t (fun o => { o with runs := o.runs.drop 1, pcnt := o.pcnt + 1, queue := o.queue.filter (fun q => !(q.kind.isPass && q.ticket = c.ticket)) })).modStrandKept c.strand (fun x =>
        { x with psum := x.psum.take 0 r.ebc, passOut := x.passOut - 1 })
      (c.ack = none → exec (.passEnd t) s = .next ((s2.pebcWake c.strand t).optRoom t)) ∧
      (∀ d, c.ack = some d → exec (.passEnd t) s =
        .next (((s2.engineReply c.strand d (BitVec.ofNat 64 (r.ebc.toNat * 2 ^ 8 + c.ticket.toNat * 2 ^ 32))).pebcWake c.strand t).optRoom t)))

/-- 11 R276, R277, R281 and 15 R399: the exact matrix unit takes its oldest command with the status of its checks and the slabs
that its end may flip, and asks leave for K of 8 or more. A command whose checks pass writes C, and then, or at once where it
failed or was cancelled before that write, writes its status area, CANCEL where it was cancelled meanwhile, and flips its slabs,
but for one that succeeded under KEEP. That a command cancelled in the queue ends with status 7 and flips the slabs found owned
by code 3 is the model's reading (log 40). The governor grants the oldest request for leave, and none while power or temperature
exceed their limits (16 R420). -/
def Sys2Proof.Claim.MatrixUnitAndLeave : Prop :=
  ∀ (s : State) (t k : Nat) (c : XmmCmd) (r : List XmmCmd) (q : List Nat),
    ((s.tile t).xmms = c :: r → c.running = false → (s.tile t).opt.emuWaits = false → s.engineOn t = true →
      let st := s.xmmStatus c
      (st ≠ 0 → exec (.xmmStart t) s = .next (s.modTile t (fun x =>
        { x with xmms := { c with running := true, status := BitVec.ofNat 8 st, leave := false,
                                  slabs := (s.xmmSlabs c).filter (fun o => decide (s.ownerGet o = 3)) } :: r }))) ∧
      (st = 0 → c.pairs < 8 → exec (.xmmStart t) s = .next (s.modTile t (fun x =>
        { x with xmms := { c with running := true, status := 0, leave := false, slabs := s.xmmSlabs c } :: r }))) ∧
      (st = 0 → 8 ≤ c.pairs → (s.job c.pid).ft = false → exec (.xmmStart t) s = .next (s.modTile t (fun x =>
        { x with leaveQ := x.leaveQ ++ [1],
                 xmms := { c with running := true, status := 0, leave := true, slabs := s.xmmSlabs c } :: r })))) ∧
    (c.cancel = true → s.xmmStatus c = 7) ∧
    (c.cancel = false → s.xmmLegal c = false → s.xmmStatus c = 10) ∧
    ((s.tile t).xmms = c :: r → c.running = true → c.leave = false →
      (c.status = 0 → c.cancel = false → c.writing = false →
        let out := s.xmmOutputs c
        exec (.xmmComplete t) s =
          .next (((s.xmmInput c).spWrite c.cadr (out.flatMap (fun e => natLe 4 e.code))).modTile t (fun x =>
            { x with xmms := { c with writing := true, prods := out.foldl (fun n e => n + e.prods) 0,
                                      flags := out.foldl (fun (f : BitVec 6) e => f ||| e.flags) 0,
                                      npois := (out.filter (fun e => e.pois)).length } :: x.xmms.drop 1 }))) ∧
      (c.status ≠ 0 ∨ c.cancel = true ∨ c.writing = true → c.ack = none →
        let st := if c.status = 0 ∧ c.cancel = true then 7 else c.status.toNat
        let s1 := s.xmmReport c c.prods c.flags st c.npois
        let s2 := if st = 0 ∧ c.keep = true then s1 else s1.flipOwned c.slabs 3 0
        exec (.xmmComplete t) s =
          .next ((s2.modStrand c.strand (fun x => { x with xmmOut := x.xmmOut - 1 })).xmmLeave t))) ∧
    ((s.tile t).tight = true → exec (.leaveGrant t) s = .next s) ∧
    ((s.tile t).leaveQ = k :: q → (s.tile t).tight = false →
      ∃ u, exec (.leaveGrant t) s = .next u ∧ (k ≤ 1 → (u.tile t).leaveQ = q ∧
        (u.tile t).grants.toNat = Nat.min ((s.tile t).grants.toNat + 1) (2 ^ 32 - 1)) ∧
        (∀ c r, k = 1 → (s.tile t).xmms = c :: r → (u.tile t).xmms = { c with leave := false } :: r))

/-! ## Collectives (14 R368 to R374) -/

/-- 14 R368, R371: `coll` hands its descriptor to the collective engine, where there is room and no other strand waits, and
completes; `cstat` answers the state of the collective of a CID. -/
def Sys2Proof.Claim.CollectiveInstructions : Prop :=
  ∀ (s : State) (d a : BitVec 5) (h : BitVec 2), Ready s Need.access →
    let ga := (s.hart.getG a).toNat
    let s1 := (s.beforeAccess true).releaseActions s.hid 1
    let w := bytesWords (memBytes s1.mem (localBase s1.coreNo + ga) 32) 4
    (ga % 32 = 0 → ga ≤ 0x3FFE0 → s1.collFree = true → s1.hart.occ = true →
      (∀ e ∈ s1.others, ∀ d0 d1 d2 d3, e.2.park ≠ some (.collQueue d0 d1 d2 d3)) →
      ∃ u c, exec (.coll a h) s = .next u ∧ u.collQ = s1.collQ ++ [c] ∧ u.hart = { s1.hart with park := some (.collQueue (nthW w 0) (nthW w 1) (nthW w 2) (nthW w 3)), parkSh := h, since := s1.ticks }.finish 4 h ∧
        c.strand = s1.hart.sid ∧ c.pid = s1.hart.pid ∧ [c.d0, c.d1, c.d2, c.d3] = w) ∧
    (ga < 2 ^ 16 → CompletesFrom s (.cstat d a h) (s.beforeAccess false) 4 h (fun x =>
      x.setG d (match s.coll ga with
        | some c => c.word
        | none => match s.collQ.find? (fun c => decide (c.cid = ga)) with | some c => c.word | none => 0)))

/-- 14 R369, R370, 19 R431: the events of a collective. Its start checks, once its member table is read wherever it lies; the
joining of its members; transfers and acknowledgements; the completion wave on tree 0, in which a member that is ready and has
its children's parts sends its own up, the root the end down, and each member it reaches completes; and the restart under a new
link table, once every other member's mark vector has come. The form of the wave's parts, the table version as a count, a
second use of a CID shown nowhere, and the end with OWNER of one whose slabs were flipped away are the model's choices (logs
106, 102, 104, 39). -/
def Sys2Proof.Claim.CollectiveEvents : Prop :=
  ∀ (s : State) (cid : BitVec 16) (c : Coll) (x : ChunkXfer) (n v : Nat) (dev : BitVec 11) (ms : List (BitVec 11 × List Nat)),
    (s.collQ.find? (fun c => decide (c.cid = cid.toNat)) = some c →
      let taken (t : State) : State := { t.remoteEnd (fun q => decide (q.strand = tableId c.cid)) with collQ := t.collQ.erase c }
      (∀ t, s.collCheck c = (none, t) → exec (.collStart cid) s = .next t) ∧
      (∀ m t, s.collCheck c = (some (.ok m), t) → exec (.collStart cid) s =
        .next ((taken t).setColl c.cid { c with members := m, marks := List.replicate c.chunks 0 })) ∧
      (∀ st t, (taken t).coll c.cid = none → s.collCheck c = (some (.error st), t) → st ≠ 16 →
        exec (.collStart cid) s = .next ((taken t).collEnd c st true)) ∧
      (c.cancel = true → s.collCheck c = (some (.error 7), s)) ∧
      (c.cancel = false → c.bad = true → s.collCheck c = (some (.error 10), s)) ∧
      (c.cancel = false → c.bad = false → s.coll c.cid = none →
        (∀ e t, s.memberTable c = (.error e, t) → s.collCheck c = (some (.error 2), t)) ∧
        (∀ t, s.memberTable c = (.ok none, t) → s.collCheck c = (none, t)) ∧
        (∀ t, s.memberTable c = (.ok (some none), t) → s.collCheck c = (some (.error 10), t)) ∧
        (∀ m t, s.memberTable c = (.ok (some (some m)), t) → s.collCheck c =
          (some (if t.collForeign c then .error 4 else if t.collHolds c then .ok m else .error 3), t)))) ∧
    (s.coll cid.toNat = some c → s.changing = false → c.cancel = false →
      (c.state = 1 → exec (.collJoined cid false) s = .next (s.collEnd c 13 true)) ∧
      (c.state = 1 → s.buildTrees c [] 0 c.kmax = [] → exec (.collJoined cid true) s = .next (s.collEnd c 17 true)) ∧
      (c.state = 1 → s.buildTrees c [] 0 c.kmax ≠ [] → exec (.collJoined cid true) s =
        .next ((s.setColl c.cid
          { c with state := 2, trees := s.buildTrees c [] 0 c.kmax, version := s.agreed, inbox := c.current s.agreed }).collGo c.cid)) ∧
      (x.version = s.agreed →
        let s1 := s.inject x.dev.toNat 0
        (c.state = 4 ∨ (c.got x.chunk x.pass x.down x.dev.toNat).isSome = true → exec (.chunkReceive cid x) s = .next s1) ∧
        (c.state ≠ 4 → c.got x.chunk x.pass x.down x.dev.toNat = none → exec (.chunkReceive cid x) s =
          .next ((s1.setColl c.cid { c with inbox := c.inbox ++ [x] }).collRun c.cid))) ∧
      (∀ q, v = c.version → c.outbox.find? (fun e => decide (e.1 = dev.toNat) && decide (e.2.chunk = n)) = some q →
        ∃ k, exec (.chunkAckReceive cid n dev v) s = .next (s.setColl c.cid k) ∧ k.outbox = c.outbox.erase q ∧
          (q.2.down = false → q.2.pass = c.lastPass → k.marks = c.marks.set n (Nat.max (c.mark n) 1))) ∧
      (c.cid = cid.toNat → c.state = 2 →
        let me := s.plat.dev.toNat
        let edges := (c.treeOf 0).2
        let kids := childrenOf edges me
        let done (k : Coll) : Coll := { k with marks := k.marks.map (fun _ => 3) }
        (c.ready me = false ∨ c.version ≠ s.agreed → exec (.completionWave (cid, none)) s = .next s) ∧
        (c.ready me = true → c.version = s.agreed → c.waved = false →
          (∀ k ∈ kids, (k, false) ∈ c.waves) →
          (parentOf edges me = none → exec (.completionWave (cid, none)) s =
            .next ((s.waveSend kids).collEnd (done { c with waved := true }) 0 true)) ∧
          (∀ p, parentOf edges me = some p → (p, true) ∉ c.waves → exec (.completionWave (cid, none)) s =
            .next ((s.waveSend [p]).setColl c.cid { c with waved := true }))) ∧
        (c.ready me = true → c.version = s.agreed → c.waved = true → (∀ p, parentOf edges me = some p → (p, true) ∈ c.waves →
          exec (.completionWave (cid, none)) s =
            .next ((s.waveSend kids).collEnd (done { c with waves := c.waves.erase (p, true) }) 0 true)))) ∧
      (c.state = 1 ∨ c.state = 3 → (∃ d ∈ c.members, d ≠ s.plat.dev.toNat ∧ s.reach d = false) →
        exec (.collRestart cid ms) s = .next (s.collEnd c 15 true)) ∧
      (c.state = 3 → (∀ d ∈ c.members, d ≠ s.plat.dev.toNat → s.reach d = true) →
        let all : Prop := ∀ d ∈ c.members, d ≠ s.plat.dev.toNat → ∃ e ∈ ms, e.1.toNat = d ∧ e.2.length = c.chunks
        (¬all → exec (.collRestart cid ms) s = .next s) ∧
        (all → s.collHolds c = false → exec (.collRestart cid ms) s = .next (s.collEnd c 3 true)) ∧
        (all → s.collHolds c = true → s.buildTrees c [] 0 c.kmax = [] → exec (.collRestart cid ms) s = .next (s.collEnd c 17 true)) ∧
        (all → s.collHolds c = true → s.buildTrees c [] 0 c.kmax ≠ [] →
          ∃ (k : Coll) (t : State), exec (.collRestart cid ms) s = .next ((t.setColl c.cid k).collGo c.cid) ∧ k.state = 2 ∧
            k.trees = s.buildTrees c [] 0 c.kmax ∧ k.version = s.agreed ∧ k.members = c.members ∧ t.hart = s.hart ∧ t.mem = s.mem)))

/-! ## Strands, groups, scheduling (12) -/

/-- 12 R290 to R293, R303, R312: what launches, counts and cancels. `spawn` of a template that this device holds and
that can be read at an aligned global address performs the slot's accesses, then launches what the template's eight doublewords say; one strand without a
group enters placement at the launcher's router; a group's N strands enter in ascending order where it waits for nothing, and
none where it does; `gdep` records the dependence; `gcnt` of 0 answers the job's count and of a block STATE and what is left;
`cancel.g` and `cancel.gr` of a block that has not ended write CANCELLED and post the rest; `cancel.j` posts the job's. -/
def Obligations.LaunchInstructions : Prop :=
  (∀ (s s0 s3 : State) (a : BitVec 5) (h : BitVec 2) (x : Xlate), Ready s Need.access → s.hart.record.opt = false →
    let ga := s.hart.getG a
    s.globalCheck ga 64 .read = (.ok x, s0) →
    let s1 := (s0.beforeAccess true).releaseActions s0.hid 4
    (∀ dev off, s0.region x.pa ≠ .remote dev off ∧ s1.region x.pa ≠ .remote dev off) →
    let l := s1.loadNow x x.pa 64
    l.2.spawnWords (l.2.launcher l.2.hid) ga (bytesWords l.1 8) false = .ok s3 →
    CompletesFrom s (.spawn a h) s3 4 h id) ∧
  (∀ (s : State) (l : Launcher) (tmpl : Word) (w : List Word), templateBad w l.exec = false → (Rec.ofWords w).gcb = 0 →
    s.spawnWords l tmpl w false =
      .ok (s.launchOne ((Rec.ofWords w).member l 0 false) (addr57 (nthW w 0)) 1 0 l.router none)) ∧
  (∀ (s : State) (l : Launcher) (tmpl : Word) (w : List Word), templateBad w l.exec = false → (Rec.ofWords w).opt = false →
    let t := Rec.ofWords w
    let s0 := s.probe l.quad l.pid t.gcb 64
    let b := s0.blockWordsAt l.quad l.pid t.gcb
    t.gcb ≠ 0 → s.blockCheck l.quad l.pid l.exec t.gcb true = .ok true → gcbBad b = false → blockState b = 0 →
    let open_ := decide (fld (nthW b 3) 31 0 = 0)
    let s1 := (s0.setBlockStateAt l.quad l.pid t.gcb (if open_ then 2 else 1)).vaSetWordAt l.quad l.pid (t.gcb + 32) tmpl
    let s2 := s1.knowGroup l.pid t.gcb (fun k =>
      { k with spawned := true, exec := l.exec, prio := l.prio, quiet := false, done := false, ending := none })
    s.spawnWords l tmpl w false = .ok (if open_ then s2.launchFrom l t (addr57 (nthW w 0)) b 0 (groupN b) else s2)) ∧
  (∀ (s s2 : State) (a b : BitVec 5) (h : BitVec 2), Ready s Need.access → s.hart.record.opt = false →
    let s1 := s.beforeAccess true
    s1.gdepFor (slotQuad s1.hid) s1.hart.pid s1.hart.status.exec (s.hart.getG a) (s.hart.getG b) = .ok s2 →
    CompletesFrom s (.gdep a b h) s2 4 h id) ∧
  (∀ (s : State) (d a : BitVec 5) (h : BitVec 2), Ready s Need.access →
    let ga := s.hart.getG a
    let s1 := s.beforeAccess false
    (ga = 0 → CompletesFrom s (.gcnt d a h) s1 4 h (fun x => x.setG d (BitVec.ofNat 64 (s1.job s1.hart.pid).count))) ∧
    (let s2 := s1.probe (slotQuad s1.hid) s1.hart.pid ga 64
     let b := s2.blockWordsAt (slotQuad s2.hid) s2.hart.pid ga
     ga ≠ 0 → s1.blockCheck (slotQuad s1.hid) s1.hart.pid s1.hart.status.exec ga false = .ok true →
     (gcbBad b = false ∨ graphBad b = false) →
     CompletesFrom s (.gcnt d a h) s2 4 h (fun x => x.setG d (blockCount b)))) ∧
  (∀ (s : State) (a : BitVec 5) (h : BitVec 2), Ready s Need.access → s.hart.record.opt = false →
    let ga := s.hart.getG a
    let s1 := s.beforeAccess true
    let pid := s1.hart.pid
    let sp := (s1.probe (slotQuad s1.hid) pid ga 64).freshGroup pid ga
    let b := sp.blockWordsAt (slotQuad s1.hid) pid ga
    s1.blockCheck (slotQuad s1.hid) pid s1.hart.status.exec ga true = .ok true → blockState b < 3 →
    let s2 := sp.setBlockStateAt (slotQuad s1.hid) pid ga 4
    let posted (level : BitVec 2) : State :=
      { s2 with cancels := s2.cancels ++ [{ level := level, pid := pid, addr := ga, prior := blockState b, swept := false }] }
    (gcbBad b = false → CompletesFrom s (.cancelG a h) (posted 0) 4 h id) ∧
    (graphBad b = false → CompletesFrom s (.cancelGr a h) (posted 1) 4 h id)) ∧
  (∀ (s : State) (a : BitVec 5) (h : BitVec 2), Ready s Need.access → s.hart.record.opt = false →
    let ga := s.hart.getG a
    let s1 := s.beforeAccess true
    s1.hart.status.exec = s.hart.status.exec →
    (s.hart.status.exec = false → ga = 0 → CompletesFrom s (.cancelJ a h) (s1.cancelJob s1.hart.pid) 4 h id) ∧
    (s.hart.status.exec = true → fld ga 63 12 = 0 →
      CompletesFrom s (.cancelJ a h) (s1.cancelJob (ga.setWidth 12)) 4 h id))

/-- 12 R293, R307; 13 R340; 14 R354: what ends, pre-empts and moves. `exit` of a strand outside virtual time ends it: its
accesses are performed, its reservation revoked, it is counted, its record says EXITED and its slot is vacant; that of a
logical process outside a handler leaves the slot in EXITP. `prmt` reads a mask of cores at a local-store address, sets their
reservation, and waits where strands of lower priority are there, which are driven to a safe point; `migr` to a line of local
HBM4 goes on, and to another module's sends the strand there. -/
def Obligations.LeavingInstructions : Prop :=
  (∀ (s : State) (h : BitVec 2), Ready s Need.any → s.hart.floorPend = none →
    let n := s.hid
    let s2 := ((s.leaveActions n).dropReservation s.hart.sid).countOnce n
    let x := s2.slotAt n
    (s.hart.record.opt = false →
      exec (.exit h) s = .next ((s2.endRecord (slotQuad n) x (if x.counted then 5 else 4)).vacate n)) ∧
    (s.hart.record.opt = true → s.hart.lp.inh = false → s.hart.counted = false →
      let id := s.hart.lp.lpid.toNat
      let s1 := s.modLp s.hart.pid id (fun p => { p with state := .exitp })
      exec (.exit h) s =
        .next (((s1.modHart (fun y => { y with lp := { y.lp with exitp := true }, landed := true })).writeBackStrand n 2).commitExit
          s.hart.pid id))) ∧
  (∀ (s : State) (a b : BitVec 5) (h : BitVec 2), Ready s { Need.access with priv := true } →
    let ga := s.hart.getG a
    let gb := s.hart.getG b
    fld gb 63 5 = 0 → ga.toNat % 32 = 0 → ga.toNat < 0x40000 →
    let s1 := s.beforeAccess false
    let m : Mask := BitVec.ofNat 256 (leNat (s1.localRead ga.toNat 32))
    let s2 := s1.setRsv m (BitVec.ofNat 4 (fld gb 3 0))
    let l := s2.preempted m (fld gb 3 0)
    (bitOf gb 4 = true → CompletesFrom s (.prmt a b h) (s1.setRsv m 0) 4 h id) ∧
    (bitOf gb 4 = false → l = [] → CompletesFrom s (.prmt a b h) s2 4 h id) ∧
    (bitOf gb 4 = false → l ≠ [] →
      let s3 := l.foldl (fun (k : State) e => k.modSlot e.1 (fun x => { x with bound := { x.bound with preempt := true } })) (s2.parkAt h .prmt)
      exec (.prmt a b h) s =
        .next { s3 with preempts := s3.preempts ++ [{ issuer := s3.hart.sid, left := l.map (fun e => e.2.sid), since := s3.ticks }] })) ∧
  (∀ (s s1 : State) (a : BitVec 5) (h : BitVec 2) (x : Xlate), Ready s Need.any →
    let ga := s.hart.getG a
    s.translate (slotQuad s.hid) s.hart.pid s.hart.status.exec ga .read = (.ok x, s1) →
    (s1.region x.pa = .hbm → CompletesFrom s (.migr a h) s1 4 h id) ∧
    (∀ dev off, s1.region x.pa = .remote dev off → exec (.migr a h) s = s1.migrateTo h dev ga) ∧
    (s1.region x.pa = .host → exec (.migr a h) s = s1.raise .migspace ga))

/-- 12 R294, R296 to R301; 06 R142; 04 R92; 15 R396: placement and what the device does for strands on its own. The first
item of a router's queue moves on, away from its hint or where the core has no room; one at a core in reach with room for it is
taken, after the overflow queues and where no other item there goes before it; its radius grows after 2 µs; at RMAX it parks in
the overflow queue of its hint's tile and is offered to the cores in reach, the lowest-numbered first (the model's choice,
assumption 60); a taken item is picked up into its slot once other devices have answered its reads and its tile has pinned for a
fixed-timing context, goes back to placement where the tile has no reservation left, and waits while ROUTE.HOLD is set; the
registers of a new strand hold what its record says; a parked strand past the threshold of its tile is written back WAITING; a
deferred group's strands are launched from one copy of its template, wherever it lies, at the spawner's level and priority (the
model's reading, assumption 41), or the launch fails, and a group cancelled before that completes; and the oldest addition to
host memory reads, and at its next moment posts. -/
def Sys2Proof.Claim.PlacementEvents : Prop :=
  (∀ (s : State) (k : Nat) (i : Item), s.items[k]? = some i → i.taken = none → i.ovq = none →
    let c := gridCore i.x i.y
    let near := decide (gridDist i.x i.y i.record.hx.toNat i.record.hy.toNat ≤ i.radius)
    (near = false ∨ (s.underTest c = false ∧ s.roomFor c i.record = none) →
      (s.routerFirst k i = true →
        exec (.itemHop k) s = .next (s.setItem k { i.hop s.ticks with arrived := s.nextArrival })) ∧
      (s.routerFirst k i = false → exec (.itemHop k) s = .next s)) ∧
    (near = true → s.underTest c = false → s.roomFor c i.record ≠ none →
      ∀ n, (s.offerOverflow c).roomFor c i.record = some n → (s.offerOverflow c).outranked k i = false →
        exec (.itemHop k) s = .next ((s.offerOverflow c).takeItem k c n)) ∧
    (i.ring ≠ none → i.since + 4000 ≤ s.ticks →
      (i.radius < i.rmax → exec (.ringRadiusGrow k) s =
        .next (s.setItem k (({ i with radius := i.radius + 1, since := s.ticks } : Item).atRing 0))) ∧
      (i.rmax ≤ i.radius →
        let t := tileOf (gridCore i.record.hx.toNat i.record.hy.toNat)
        let j : Item := { i with ovq := some t, arrived := s.nextArrival }
        let s1 := ((s.overflowRecord i).setItem k j).leaveOverflow j
        exec (.overflowPark k) s = .next (match s1.coreInReach i with | some m => s1.offerOverflow m | none => s1)))) ∧
  (∀ (s : State) (k core slot : Nat) (i : Item), s.items[k]? = some i → i.taken = some (core, slot) →
    s.isFrozen i.record.pid = false → (s.slotAt (16 * core + slot)).occ = false →
    ((s.core core).hold = true → exec (.pickup k) s = .next s) ∧
    ((s.core core).hold = false →
      let s1 := s.pickAsk (16 * core + slot) i.record
      (s1.engineAwaits (pickId (16 * core + slot)) = true → exec (.pickup k) s = .next s1) ∧
      (s1.engineAwaits (pickId (16 * core + slot)) = false →
        (s1.ftRoom (tileOf core) i.record.pid = false → exec (.pickup k) s =
          .next ((s1.engineForget (pickId (16 * core + slot))).setItem k
            { i with taken := none, x := (coreRouter core).1, y := (coreRouter core).2, ring := none, arrived := s1.nextArrival })) ∧
        (s1.ftRoom (tileOf core) i.record.pid = true →
          ((s1.job i.record.pid).ft = false → exec (.pickup k) s = .next (s1.pickUp k i core slot)) ∧
          ((s1.job i.record.pid).ft = true →
            let s2 := s1.modTile (tileOf core) (fun t => t.reservePin i.record.pid)
            exec (.pickup k) s = .next (if (s2.tile (tileOf core)).pinned then s2.pickUp k i core slot else s2)))))) ∧
  (∀ i : Item,
    let x := i.newStrand
    x.getG 0 = i.record.gidx.setWidth 64 ∧ x.getG 1 = BitVec.ofNat 64 (if i.record.gcb = 0 then 1 else i.total) ∧
    x.getG 2 = i.record.gcb ∧ (∀ n : BitVec 5, 2 < n.toNat → x.getG n = 0) ∧ x.pc = i.pc ∧ x.status.exec = i.record.exec) ∧
  (∀ (s : State) (n : Nat), s.evictable n = true →
    exec (.parkEvict n) s = .next (if s.leaveHeld n then s.sendBuffers n else s.writeBackStrand n 2)) ∧
  (∀ (s s1 : State) (k : Nat) (pid : BitVec 12) (gcb : Word) (e : Known) (bs : List Byte),
    s.deferred[k]? = some (pid, gcb) → s.knownOf pid gcb = some e → s.engineAwaits (groupId pid gcb) = false →
    let s0 : State := { s with deferred := s.deferred.eraseIdx k }
    let b := bytesWords bs 8
    (s0.job pid).causes = [] → s0.vaGet 0 pid true gcb 64 = (.ok bs, s1) →
    (e.ending = none → blockState b = 2 → exec (.deferredLaunch k) s = .next (s1.deferredLaunch pid gcb b e.exec e.prio)) ∧
    (e.ending = none → blockState b = 4 → exec (.deferredLaunch k) s =
      .next (if e.done then s1 else (s1.engineForget (groupId pid gcb)).completeGroup pid gcb)) ∧
    (∀ n, e.ending = some n → exec (.deferredLaunch k) s =
      .next (s1.releaseFrom pid gcb (addr57 (nthW b 5)) n (fld (nthW b 6) 47 32 - n)))) ∧
  (∀ (s s1 : State) (pid : BitVec 12) (gcb : Word) (b : List Word) (exec_ : Bool) (prio : BitVec 4)
      (r : Except Cause (Option (List Byte))),
    s.blockCheck 0 pid exec_ gcb true = .ok true →
    s.engineRead (groupId pid gcb) 0 pid exec_ (addr57 (nthW b 4)) 64 = (r, s1) →
    let s2 := s1.engineForget (groupId pid gcb)
    (r = .ok none → s.deferredLaunch pid gcb b exec_ prio = { s1 with deferred := s1.deferred ++ [(pid, gcb)] }) ∧
    (∀ c, r = .error c → s.deferredLaunch pid gcb b exec_ prio = s2.deferredFail pid gcb c) ∧
    (∀ bs, r = .ok (some bs) →
      let w := bytesWords bs 8
      let t := Rec.ofWords w
      let quad := quadOf (gridCore t.hx.toNat t.hy.toNat)
      (templateBad w exec_ = true → s.deferredLaunch pid gcb b exec_ prio = s2.deferredFail pid gcb .spawnrec) ∧
      (templateBad w exec_ = false → gcbBad b = false → s.deferredLaunch pid gcb b exec_ prio =
        s2.deferredFrom { pid := pid, exec := exec_, prio := prio, router := coreRouter (256 + quad), quad := quad } t
          (addr57 (nthW w 0)) b 0 (groupN b)))) ∧
  (∀ (s : State) (a : DevAdd) (r : List DevAdd), s.hostAdds = a :: r →
    let n := if a.dbl then 8 else 4
    (a.old = none → exec .hostAddition s =
      .next { s with hostAdds := { a with old := some (leNat (memBytes s.mem a.pa n)) } :: r }) ∧
    (∀ old, a.old = some old →
      let new := (amoNew a.op.toNat (8 * n) old (a.v.toNat % 2 ^ (8 * n)) 0).1
      exec .hostAddition s = .next { s with hostAdds := r, mem := memPut s.mem a.pa (natLe n new) }))

/-- 12 R301, R304 to R308; 14 R349, R355; 15 R384, R396; 04 R92: cancels and pre-emption. The oldest cancel sweeps the device,
once other devices have sent the lists of successors it follows; that of a job ends with JOBEND, and that of another device
sweeps what it names; a cancelled strand at a safe point, or in a wait that a cancel ends, takes CANCEL once its buffers are
sent, and one that reaches none in 40 µs is stopped; a strand driven to a safe point is written back, WAITING in a wait whose
entry is kept, else back in placement, and always so where its tile has no reservation left for its context; one that is at no
safe point when the bound expires takes PRMTO with its frame address, after its earlier remote accesses, and one that waits for
what cannot be abandoned takes it after that. -/
def Sys2Proof.Claim.CancelAndPreemptEvents : Prop :=
  (∀ (s : State) (c : CancelReq),
    (s.cancels.find? (fun k => !k.swept) = some c →
      (∀ t, s.sweepAsks c = some t → exec .cancelSweep s = .next t) ∧
      (s.sweepAsks c = none →
        let s1 := (s.sweepCancel c).engineForget sweepId
        exec .cancelSweep s =
          .next { s1 with cancels := if c.level = 2 then s1.cancels.erase c ++ [{ c with swept := true }] else s1.cancels.erase c })) ∧
    (s.cancels.find? (fun k => !k.swept) = none → s.cancels.find? (fun k => s.jobSwept k.pid) = some c →
      exec .cancelSweep s = .next (({ s with cancels := s.cancels.erase c } : State).execEvent 0 0x0D c.pid.toNat c.pid))) ∧
  (∀ (s : State) (c : CancelReq) (r : List CancelReq), s.cancels = [] → s.farCancels = c :: r →
    exec .cancelSweep s = .next (({ s with farCancels := r } : State).sweepFar c)) ∧
  (∀ (s : State) (n : Nat), let x := s.slotAt n
    x.occ = true →
    (x.bound.cancel = true → x.status.trap = false → s.cancelNow n = true →
      exec (.cancelTrap n) s = .next (if s.leaveHeld n then s.sendBuffers n else s.trapCancel n)) ∧
    (x.bound.cancel = true → s.isFrozen x.pid = false → x.bound.cancelAt + 80000 < s.ticks →
      let s1 := (((s.leaveActions n).leaveWaits x.sid).dropReservation x.sid).countOnce n
      exec (.cancelStopTimeout n) s = .next ((s1.endRecord (slotQuad n) (s1.slotAt n) 5).vacate n)) ∧
    (x.bound.preempt = true → x.bound.cancel = false → s.atSafePoint n = true → (s.core (n / 16)).hold = false →
      let s1 := s.modSlot n (fun y => { y with bound := { y.bound with preempt := false } })
      let room := s.ftRoom (tileOf (n / 16)) x.pid
      (s.leaveHeld n = true → exec (.preemptWriteback n) s = .next (s.sendBuffers n)) ∧
      (s.leaveHeld n = false →
        (room = true → ∀ p, x.park = some p → p.kept = true → exec (.preemptWriteback n) s = .next (s1.writeBackStrand n 2)) ∧
        ((room = false ∨ ∀ p, x.park = some p → p.kept = false) →
          let s2 := if room then s1 else s1.leaveWaits x.sid
          let t := (s2.modSlot n (fun y => { y with park := none })).writeBackStrand n 3
          ∀ y, alGet t.away x.sid = some y → exec (.preemptWriteback n) s =
            .next (t.enterItem y.record y.pc (coreRouter (n / 16)).1 (coreRouter (n / 16)).2 1 y.rmax)))) ∧
    (s.isFrozen x.pid = false → x.status.trap = false → x.bound.cancel = false → x.bound.prmto = false →
      x.bound.preempt = true → s.prmtoDue x.sid = true → x.stepDue = false → s.atSafePoint n = false →
      ((x.park = none ∧ x.acks = [] ∨ ∃ p, x.park = some p ∧ s.parkAbandoned x.sid p = true) →
        exec (.prmto n) s =
          .next ((if s.trapWaits n then (s.abandonPark n).sendBuffers n else s.trapPrmto n).resolve x.sid)) ∧
      (∀ p, x.park = some p → s.parkAbandoned x.sid p = false →
        exec (.prmto n) s =
          .next ((s.modSlot n (fun y => { y with bound := { y.bound with preempt := false, prmto := true } })).resolve x.sid))))

/-! ## Messages and virtual time (13) -/

/-- 13 R320 to R323, R325, R336: `msend` of a line in the local store that can be sent logs the send where the sender is a
logical process, performs the accesses before it, puts the filled-in message on its way and advances LPSEQ; `mrecv` of a
logical process ends the handler it is in and waits, and a message that may be taken begins a handler at once: LVT is its
VRT, g20 to g22 give its line, VRT and header; `mend` ends the handler; `varn` queues its action with the log entry. -/
def Obligations.MessageInstructions : Prop :=
  (∀ (s : State) (a : BitVec 5) (h : BitVec 2), Ready s Need.access → Calm s →
    let ga := s.hart.getG a
    let m0 := Msg.ofLine s.hart.pid false (bytesV (s.localRead ga.toNat 256))
    let m := s.fillMsg m0
    ga.toNat % 256 = 0 → ga.toNat ≤ 0x3FF00 → (s.job s.hart.pid).vjb ≠ none →
    s.lineBad (bytesV (s.localRead ga.toNat 256)) m0 = false → s.sendPast m0 = false →
    (s.hart.record.opt = false →
      CompletesFrom s (.msend a h) ((s.releaseActions s.hid 1).sendMsg m) 4 h
        (fun x => if x.record.opt then { x with lp := { x.lp with lpseq := x.lp.lpseq + 1 } } else x)) ∧
    (s.hart.record.opt = true →
      let e : List LogEntry := [.send m.dest m.seq m.inc m.vrt]
      s.logFits s.hart e 0 = true →
      CompletesFrom s (.msend a h) (((s.logPush s.hart e).releaseActions s.hid 1).sendMsg m) 4 h
        (fun x => if x.record.opt then { x with lp := { x.lp with lpseq := x.lp.lpseq + 1 } } else x))) ∧
  (∀ (s : State) (h : BitVec 2), Ready s Need.any → s.hart.record.opt = true →
    let s1 := if s.hart.lp.inh then s.endHandler else s.beforeAccess false
    exec (.mrecv h) s = .next ((s1.parkAt h .mrecv).tryRecv s1.hart.sid)) ∧
  (∀ (s : State) (sid : Nat) (x : Slot), s.strandOf sid = some x → x.park = some .mrecv →
    ((s.job x.pid).lp x.lp.lpid.toNat).due = none →
    (s.recvReady x = none → s.tryRecv sid = s) ∧
    (∀ q, s.recvReady x = some q → s.logFits x [.ckpt (x.checkpoint q.msg)] 0 = true →
      s.tryRecv sid =
        ((s.logPush x [.ckpt (x.checkpoint q.msg)]).modLp x.pid x.lp.lpid.toNat (fun p => p.mark q.msg.key true)).wake sid
          (unitRouter x.lp.lpid) (fun y => y.beginHandler q.msg (s.poolAddr x.pid q.line)))) ∧
  (∀ (x : Slot) (m : Msg) (at_ : Word),
    let y := x.beginHandler m at_
    y.lp.lvt = m.vrt ∧ y.lp.inh = true ∧ y.getG 20 = at_ ∧ y.getG 21 = m.vrt ∧
    y.getG 22 = packFields [(m.size.toNat, 48), (m.sel.toNat, 32), (m.sender.toNat, 0)] ∧
    (∀ n : BitVec 5, n ≠ 20 → n ≠ 21 → n ≠ 22 → y.getG n = x.getG n)) ∧
  (∀ (s : State) (h : BitVec 2), Ready s Need.any → s.hart.inHandler = true →
    CompletesFrom s (.mend h) s.endHandler 4 h id) ∧
  (∀ (s : State) (a : BitVec 5) (h : BitVec 2), Ready s Need.access → s.hart.inHandler = true → Calm s →
    let ga := s.hart.getG a
    let w := bytesWords (s.localRead ga.toNat 32) 4
    ga.toNat % 32 = 0 → ga.toNat < 0x40000 → actionBad w = false →
    let x := s.hart
    let id_ := x.lp.lpid.toNat
    let act : Action :=
      { d0 := nthW w 0, a := nthW w 1, b := nthW w 2, vtime := x.lp.lvt, lp := x.lp.lpid,
        idx := ((s.job x.pid).lp id_).nvarn, prio := x.record.prio }
    s.logFits s.hart [.varn act] 0 = true →
    let s2 := ((s.logPush x [.varn act]).releaseActions s.hid 1).modLp x.pid id_ (fun p => { p with nvarn := p.nvarn + 1 })
    CompletesFrom s (.varn a h) (s2.modJob x.pid (fun j => { j with varnish := j.varnish ++ [act] })) 4 h id)

/-- 13 R316, R320, R326, R329: a message that arrives here at a process that has not exited enters its queue unless a held
anti-message removes it, and is a dead letter at one that has; an anti-message removes its unprocessed twin, triggers a
rollback at a processed one, and is held without one. In compatibility mode a message of a context whose units have been
reset is dropped and recorded (15 R393; the record's code is the model's choice, assumption 101). A pool that has stayed full for
1 ms raises MSGFULL once. -/
def Sys2Proof.Claim.MessageEvents : Prop :=
  (∀ (s : State) (k : Nat) (m : Msg), s.transit[k]? = some m → (s.job m.pid).unitsReset = true →
    let t := (s.dropTransit k).note 0x04 m.pid (m.dest.setWidth 64) m.vrt
    exec (.messageArrive k) s = .next t ∧ exec (.antiMessageArrive k) s = .next t) ∧
  (∀ (s : State) (k : Nat) (m : Msg), s.transit[k]? = some m → (s.job m.pid).unitsReset = false → (s.job m.pid).vjb ≠ none →
    s.lpDevice m.pid m.dest = none →
    let p := (s.job m.pid).lp m.dest.toNat
    let held := p.antis.any (fun a => a.twin m)
    (m.anti = false →
      (p.state = .exited →
        exec (.messageArrive k) s = .next (((s.dropTransit k).modJob m.pid (fun j => j.countReceived m)).deadLetter m)) ∧
      (p.state ≠ .exited → held = true →
        exec (.messageArrive k) s =
          .next ((s.dropTransit k).modJob m.pid (fun j => (j.countReceived m).modLp m.dest.toNat (fun p =>
            { p with antis := p.antis.filter (fun a => !a.twin m) })))) ∧
      (p.state ≠ .exited → held = false → exec (.messageArrive k) s = .next (s.enterQueue k m))) ∧
    (m.anti = true →
      let s1 := (s.dropTransit k).modJob m.pid (fun j => j.countReceived m)
      let r := (s1.job m.pid).lp m.dest.toNat
      (r.state = .exited → exec (.antiMessageArrive k) s = .next (s1.deadLetter m)) ∧
      (r.state ≠ .exited → r.queue.find? (fun q => q.msg.twin m) = none →
        exec (.antiMessageArrive k) s = .next (s1.modLp m.pid m.dest.toNat (fun p => { p with antis := p.antis ++ [m] }))) ∧
      (r.state ≠ .exited → ∀ q, r.queue.find? (fun q => q.msg.twin m) = some q →
        (q.processed = true →
          exec (.antiMessageArrive k) s =
            .next (s1.modLp m.pid m.dest.toNat (fun p => ({ p with antis := p.antis ++ [m] } : Lp).trigger q.msg))) ∧
        (q.processed = false →
          exec (.antiMessageArrive k) s =
            .next (s1.modJob m.pid (fun j =>
              (j.modLp m.dest.toNat (fun p => { p with queue := p.queue.filter (fun r => r.line ≠ q.line) })).freeLines
                [q.line])))))) ∧
  (∀ (s : State) (pid : BitVec 12) (t : Nat), (s.job pid).fullAt = some t → (s.job pid).fullEvt = false →
    t + 2000000 ≤ s.ticks →
    exec (.msgfull pid) s = .next ((s.setJob pid { s.job pid with fullEvt := true }).execEvent 0 0x09 pid.toNat pid))

/-- 13 R327, R328: the rollback that is due of a process that is ready for it stops its accesses, undoes the log from the
newest entry back to the oldest handler whose key is at least the trigger's, restores that handler's checkpoint, gives the
process a new incarnation, and removes what its anti-messages match. -/
def Sys2Proof.Claim.Rollback : Prop :=
  ∀ (s : State) (pid : BitVec 12) (lp : BitVec 32) (v : Word) (d : BitVec 32) (q : Word) (c : BitVec 16) (x0 : Slot) (t : Ckpt),
    let p := (s.job pid).lp lp.toNat
    s.rollbackReady pid lp.toNat = true → p.due = some (v, d, q, c) → s.strandOf p.strand = some x0 →
    let s1 := ((s.rollbackStop p.strand).leaveWaits p.strand).dropReservation p.strand
    let x := (s1.strandOf p.strand).getD x0
    let u := undoSplit (msgKey v d q c) p.log
    (targetOf u.1 = none → exec (.rollback pid lp) s = .next (s1.modLp pid lp.toNat (fun p => { p with due := none }))) ∧
    (targetOf u.1 = some t →
      let s3 := (u.1.foldl (fun (k : State) e => k.undoEntry x t.lvt e) s1).modLp pid lp.toNat (fun p =>
        { p with log := u.2, due := none, state := if p.state = .exitp then .live else p.state })
      let s4 := s3.modStrand p.strand (fun y => y.restore t)
      let s5 := if x.lp.held.isSome then s4.note 0x0B pid (lp.setWidth 64) t.lvt else s4
      exec (.rollback pid lp) s = .next ((s5.modJob pid (fun j => j.settleAntis lp.toNat)).rollbackEnter x) ∧
      (∀ y : Slot, (y.restore t).pc = t.pc ∧ (y.restore t).g = t.g ∧ (y.restore t).lp.lvt = t.lvt ∧
        (y.restore t).lp.inc = y.lp.inc + 1 ∧ (y.restore t).lp.inh = false ∧ (y.restore t).p = y.p ∧ (y.restore t).v = y.v))

/-- 13 R315, R331 to R333, R338; 14 R356: the rounds of the vanishing point, the varnish stage and the two registrations. A
device round begins with the other colour, waits for the old colour's count, and then publishes the local minimum; a fabric
round starts, takes part in the reduction over tree 0, and publishes where the sum is 0. That VPT moves only at a round whose
counts balance is the model's reading (assumption 51), and so is that an abandoned round keeps what it has gathered and is only
recorded (assumption 49). The varnish stage performs its next action over all jobs, and the one after it only once that has been
performed wherever it goes; one that finds its tile's queue full stays the stage's action. -/
def Obligations.VanishingPoint : Prop :=
  (∀ (s : State) (pid : BitVec 12), (s.job pid).vjb ≠ none →
    let j0 := s.job pid
    let j : Job := if j0.round then j0 else { j0 with round := true, colour := !j0.colour, mred := none }
    let s1 := s.setJob pid j
    let g := s1.localMin pid true
    let low := s1.localMin pid false
    let s2 := s1.setJob pid
      { j with gmin := BitVec.ofNat 64 g, gfree := BitVec.ofNat 64 low, gsum := colourLeft j.fsent j.frecvd (!j.fcolour),
               fround := if j.fround = 1 then 2 else j.fround }
    (colourLeft j.sent j.recvd (!j.colour) ≠ 0 → exec (.vpRound pid) s = .next s1) ∧
    (colourLeft j.sent j.recvd (!j.colour) = 0 → addr57 (s2.vjbWord pid 12) = 0 →
      exec (.vpRound pid) s =
        .next ((s2.publish pid g low).modJob pid (fun k => { k with round := false, mred := none }))) ∧
    (colourLeft j.sent j.recvd (!j.colour) = 0 → addr57 (s2.vjbWord pid 12) ≠ 0 →
      exec (.vpRound pid) s = .next (s2.modJob pid (fun k => { k with round := false, mred := none })))) ∧
  (∀ (s : State) (pid : BitVec 12), (s.job pid).round = true →
    exec (.vpRoundAbandon pid) s = .next (s.note 0x08 pid 0 0)) ∧
  (∀ (s : State) (pid : BitVec 12) (om free : BitVec 64) (sum : Int), (s.job pid).vjb ≠ none →
    addr57 (s.vjbWord pid 12) ≠ 0 →
    let j := s.job pid
    (j.fround = 0 →
      exec (.fabricVpRound pid (om, free) sum) s = .next (s.setJob pid { j with fround := 1, fcolour := !j.fcolour, fmred := none })) ∧
    (j.fround = 2 → s.changing = false → ∀ e, s.vpTree pid = some e →
      let s0 := s.vpSend e
      let red := match j.fmred with | some m => m.toNat | none => 2 ^ 64 - 1
      (sum + j.gsum ≠ 0 → exec (.fabricVpRound pid (om, free) sum) s = .next (s0.setJob pid { j with fround := 3 })) ∧
      (sum + j.gsum = 0 →
        exec (.fabricVpRound pid (om, free) sum) s =
          .next ((s0.setJob pid { j with fround := 0, fmred := none }).publish pid
            (Nat.min (Nat.min j.gmin.toNat red) om.toNat) (Nat.min (Nat.min j.gfree.toNat red) free.toNat)))) ∧
    (j.fround = 3 → exec (.fabricVpRetry pid) s = .next (s.modJob pid (fun k => { k with fround := 1 })))) ∧
  (∀ (s : State) (pid : BitVec 12) (a : Action), s.varnNow = none → s.varnNext = some (pid, a) →
    let s0 := s.modJob pid (fun j => { j with varnish := j.varnish.erase a })
    let s1 := if actKind a.d0 = 2 then s0.engineAsk varnId 0 pid false a.a 64 else s0
    (s1.varnWaits = true → exec .varnishPerform s = .next { s1 with varnNow := some (pid, a, false) }) ∧
    (s1.varnWaits = false →
      (s1.varnPerform pid a = none → exec .varnishPerform s = .next { s1 with varnNow := some (pid, a, false) }) ∧
      (∀ s2, s1.varnPerform pid a = some (.ok s2) →
        exec .varnishPerform s = .next (if s2.varnWaits then { s2 with varnNow := some (pid, a, true) } else s2.varnFree)) ∧
      (∀ c, s1.varnPerform pid a = some (.error c) →
        exec .varnishPerform s = .next (s1.varnFree.varnFail pid (actKind a.d0) a.a (failStatus c))))) ∧
  (∀ (s : State) (pid : BitVec 12) (a : Action), s.varnNow = some (pid, a, false) → s.varnWaits = false →
    ((s.job pid).causes = [] → exec .varnishPerform s = .next (s.varnGo pid a)) ∧
    ((s.job pid).causes ≠ [] → exec .varnishPerform s = .next s.varnFree)) ∧
  (∀ (s : State) (pid : BitVec 12) (a : Action), s.varnNow = some (pid, a, true) → s.varnWaits = false →
    (s.remote.findSome? (fun r => if r.strand = varnId then r.fault else none) = none →
      exec .varnishPerform s = .next s.varnFree) ∧
    (∀ w, s.remote.findSome? (fun r => if r.strand = varnId then r.fault else none) = some w →
      exec .varnishPerform s = .next (s.varnFree.varnFail pid (actKind a.d0) a.a (failStatus (farWhy w))))) ∧
  (∀ (s : State) (v : BitVec 64),
    let pid := BitVec.ofNat 12 (fld v 63 52)
    (fld v 51 2 = 0 → exec (.vjbsetWrite v) s = .next (s.modJob pid (fun j => { j with vjb := none }))) ∧
    (fld v 51 2 ≠ 0 → exec (.vjbsetWrite v) s = .next (s.vjbRegister pid (BitVec.ofNat 64 (128 * fld v 51 2)))) ∧
    (fld v 51 6 = 0 → exec (.mpsetWrite v) s = .next (s.modJob pid (fun j => { j with pool := none, poolGen := j.poolGen + 1 }))) ∧
    (let pa := 64 * fld v 51 6
     fld v 51 6 ≠ 0 → (s.jobs.filter (fun e => e.2.pool.isSome && decide (e.1 ≠ pid.toNat))).length < 256 →
     s.region pa = .hbm → s.poolBad pa = false →
     exec (.mpsetWrite v) s =
       .next (((s.setPoolWord pa 8 0).setPoolWord pa 12 (s.poolWord pa 16 % s.poolWord pa 0)).modJob pid (fun j =>
         { j with pool := some pa, poolGen := j.poolGen + 1 }))))

/-! ## System registers, traps, clock (15) -/

/-- 15 R379, R380: `srr` of an assigned register that the strand may read gives it, and of EVPOP the oldest executive event,
which it removes; the write forms act on the RW fields with ga, old OR ga, or old AND NOT ga, and `srw` alone on the W1C and
WO fields; TSINV, VJBSET and MPSET leave the slot parked until their effect has ended, a device map that another device holds
read among it; at user level an executive register, and a write to one not marked W, raises PRIV; an unassigned number raises
ILLOP. -/
def Sys2Proof.Claim.SystemRegisterInstructions : Prop :=
  (∀ (s : State) (d : BitVec 5) (sr : BitVec 12) (h : BitVec 2), sysAssigned sr.toNat = true →
    Ready s { Need.any with priv := decide (0x800 ≤ sr.toNat), iss := sysIssuing sr.toNat } →
    (sr ≠ 0x836 → WritesG s (.srr d sr h) h d (s.sysRead sr.toNat)) ∧
    (sr = 0x836 → CompletesFrom s (.srr d sr h) (s.evpop s.coreNo).2 4 h (fun x => x.setG d (s.evpop s.coreNo).1))) ∧
  (∀ (s : State) (a : BitVec 5) (sr : BitVec 12) (h : BitVec 2),
    let n := sr.toNat
    let ga := s.hart.getG a
    sysAssigned n = true → sysNeverWritten n = false → n ≠ 0x809 → n ≠ 0x80A →
    Ready s { Need.any with priv := decide (0x800 ≤ n) || !sysUserWrites n, iss := sysIssuing n } →
    let old := s.sysRead n
    (sysParks n = false →
      (n ≠ 0x824 ∨ bitOf ga 2 = false → CompletesFrom s (.srw a sr h) (s.sysPut n ga ga true) 4 h id) ∧
      CompletesFrom s (.srset a sr h) (s.sysPut n (old ||| ga) 0 false) 4 h id ∧
      CompletesFrom s (.srclr a sr h) (s.sysPut n (old &&& ~~~ga) 0 false) 4 h id) ∧
    (sysParks n = true → exec (.srw a sr h) s = .next ((s.sysPut n ga ga true).parkAt h .sysreg))) ∧
  (∀ (s : State) (n : Nat), (s.slotAt n).occ = true → (s.slotAt n).park = some .sysreg →
    (s.mapsAwaited = false → exec (.sysregEffectDone n) s = .next (s.modSlot n (fun x => x.finish 4 x.parkSh))) ∧
    (s.mapsAwaited = true → exec (.sysregEffectDone n) s = .next s)) ∧
  (∀ (s : State) (d a : BitVec 5) (sr : BitVec 12) (h : BitVec 2), sysAssigned sr.toNat = true → s.hart.status.exec = false →
    (0x800 ≤ sr.toNat → exec (.srr d sr h) s = s.raise .priv 0) ∧
    (sysUserWrites sr.toNat = false →
      exec (.srw a sr h) s = s.raise .priv 0 ∧ exec (.srset a sr h) s = s.raise .priv 0 ∧
      exec (.srclr a sr h) s = s.raise .priv 0)) ∧
  (∀ (s : State) (d a : BitVec 5) (sr : BitVec 12) (h : BitVec 2), sysAssigned sr.toNat = false →
    exec (.srr d sr h) s = s.raise .illop 0 ∧ exec (.srw a sr h) s = s.raise .illop 0 ∧
    exec (.srset a sr h) s = s.raise .illop 0 ∧ exec (.srclr a sr h) s = s.raise .illop 0)

/-- 15 R379 and the rules it names: what each number reads, and what a write of `v` to a slot's register does to the slot and
to nothing else of the machine; a register without writable fields ignores a write. A 1 written to a bit of FDET clears that bit,
one to any bit of STRETCH or MAXS the field. The model's readings: a write of VSHAPE, VWIN or PFLOOR at executive level is
ignored (assumption 25), one of FMT or SCL changes it (assumption 65), PIDTB keeps all 64 bits (assumption 83), and a loop
entry beyond the depth reads what it last held (assumption 57). -/
def Sys2Proof.Claim.SystemRegisterMap : Prop :=
  (∀ s : State,
    let x := s.hart
    let t := s.tile s.tileNo
    s.sysRead 0x000 = x.statusWord ∧ s.sysRead 0x001 = x.fxf.setWidth 64 ∧ s.sysRead 0x002 = x.vxf.setWidth 64 ∧
    s.sysRead 0x003 = x.vshapeWord ∧ s.sysRead 0x004 = x.vwin.setWidth 64 ∧ s.sysRead 0x005 = x.fmt.setWidth 64 ∧
    s.sysRead 0x006 = x.scl ∧ s.sysRead 0x007 = x.pfloorWord ∧ s.sysRead 0x008 = s.clkmode ∧ s.sysRead 0x009 = t.leaveWord ∧
    s.sysRead 0x00A = s.timeNs ∧ s.sysRead 0x00B = t.droopWord ∧ s.sysRead 0x00C = t.oftcWord s.ticks ∧
    s.sysRead 0x00D = s.fabid ∧ s.sysRead 0x00E = s.serrc ∧ s.sysRead 0x010 = t.opt.otstat ∧ s.sysRead 0x011 = t.opt.oebc s.ticks ∧
    s.sysRead 0x012 = t.opt.odet ∧ s.sysRead 0x013 = t.opt.odrift s.ticks ∧ s.sysRead 0x014 = t.opt.ocal s.ticks ∧
    s.sysRead 0x015 = t.opt.oswm ∧ s.sysRead 0x016 = t.opt.oerr ∧
    (∀ k, k < 5 → s.sysRead (0x020 + k) = s.vtReg k ∧ s.sysRead (0x030 + k) = (s.core s.coreNo).slc[k]?.getD 0) ∧
    (∀ k, k < 9 → s.sysRead (0x035 + k) = (s.core s.coreNo).rdyhWord k) ∧
    s.sysRead 0x800 = x.xpc ∧ s.sysRead 0x801 = x.xsw ∧ s.sysRead 0x802 = x.xcause.setWidth 64 ∧ s.sysRead 0x803 = x.xval ∧
    s.sysRead 0x804 = s.xvec ∧ (∀ k, k < 4 → s.sysRead (0x805 + k) = x.xtmp[k]?.getD 0) ∧
    s.sysRead 0x810 = BitVec.ofNat 64 x.loops.length ∧
    (∀ k, k < 3 → s.sysRead (0x811 + k) = x.lc[k]?.getD 0 ∧ s.sysRead (0x814 + k) = (x.loopAt k).startWord ∧
      s.sysRead (0x817 + k) = (x.loopAt k).fin) ∧
    s.sysRead 0x820 = s.routeWord s.coreNo ∧ s.sysRead 0x821 = t.pkev.setWidth 64 ∧ s.sysRead 0x823 = s.pidtb ∧
    s.sysRead 0x833 = t.profctl ∧ s.sysRead 0x834 = s.profbuf ∧ s.sysRead 0x835 = s.skctl) ∧
  (∀ (s : State) (v one : Word) (b : Bool),
    let W (n : Nat) (f : Slot → Slot) : Prop := s.sysPut n v one b = s.modHart f
    W 0x000 (fun x => { x with status := { x.status with unwr := bitOf v 4, sbchk := bitOf v 2, step := if x.status.exec then bitOf v 3 else x.status.step } }) ∧
    W 0x001 (fun x => { x with fxf := v.setWidth 6 }) ∧ W 0x002 (fun x => { x with vxf := v.setWidth 6 }) ∧
    W 0x005 (fun x => { x with fmt := v.setWidth 4 }) ∧
    W 0x006 (fun x => { x with scl := packFields [(fld v 47 32, 32), (fld v 29 3, 3)] }) ∧
    W 0x800 (fun x => { x with xpc := v }) ∧ W 0x801 (fun x => { x with xsw := v }) ∧
    W 0x802 (fun x => { x with xcause := v.setWidth 17 }) ∧ W 0x803 (fun x => { x with xval := v }) ∧
    (∀ k, k < 4 → W (0x805 + k) (fun x => { x with xtmp := x.xtmp.setIfInBounds k v })) ∧
    W 0x810 (fun x => x.putDepth (fld v 1 0)) ∧
    (∀ k, k < 3 → W (0x811 + k) (fun x => { x with lc := x.lc.setIfInBounds k v }) ∧
      W (0x814 + k) (fun x => x.putStart k v) ∧ W (0x817 + k) (fun x => x.putEnd k v)) ∧
    (∀ n, 0x008 ≤ n → n ≤ 0x015 → n ≠ 0x00B → W n id) ∧ W 0x003 id ∧ W 0x004 id ∧ W 0x007 id ∧ W 0x836 id ∧
    s.sysPut 0x804 v one b = { s with xvec := BitVec.ofNat 64 (1024 * fld v 56 10) } ∧
    s.sysPut 0x00B v one b = s.modTile s.tileNo (fun t =>
      { t with stretch := if fld one 63 32 = 0 then t.stretch else 0, maxs := if fld one 31 24 = 0 then t.maxs else 0,
               fdet := t.fdet &&& ~~~(one.extractLsb' 16 8) }) ∧
    s.sysPut 0x016 v one b = s.modOpt s.tileNo (fun o => { o with oerr := v &&& 0xFFFFFF }) ∧
    s.sysPut 0x820 v one b = s.modCore s.coreNo (fun c => { c with hold := bitOf v 6, elev := some (v.setWidth 6) }) ∧
    s.sysPut 0x821 v one b = s.modTile s.tileNo (fun t => { t with pkev := v.setWidth 16 }) ∧
    s.sysPut 0x823 v one b = { s with pidtb := v })

/-- 15 R381, R382, R386, R389; 05 R123: taking a trap. A fault of a strand that handles no trap, awaits no
remote access and holds no faults as a logical process is taken: its accesses are performed, XCAUSE, XPC, XVAL and XSW are written, EXEC and TRAP are 1 and
STEP 0, the PC is at the class's vector, and no g, v or p register and no loop state changes; one with such accesses sends what
its buffers still hold and waits for their answers; `brk` takes BRK at its own
address and `sys` SYS at the next instruction's, after the loop-end step. While TRAP = 1 a fault is fatal with XNEST. -/
def Obligations.TrapEntry : Prop :=
  (∀ (s : State) (n : Nat) (code : BitVec 16) (xpc xval : Word) (late : Bool),
    let x := s.slotAt n
    let f : HeldFault := { cause := code, xpc := xpc, xval := xval, late := late, final := false }
    (s.trapWaits n = (s.remoteBusy x.sid || s.farBuffered (n / 16) x.sid || s.holdsBuffers (n / 16) x.sid)) ∧
    (x.status.trap = true → s.raiseAt n code xpc xval late = s.fatalNested n code xval) ∧
    (x.status.trap = false → s.trapWaits n = true →
      s.raiseAt n code xpc xval late = (s.drainFar (n / 16) x.sid).modSlot n (fun y =>
        { y with bound := { y.bound with late := some f }, park := none })) ∧
    (x.status.trap = false → s.trapWaits n = false → s.holdsFault x code = true →
      s.raiseAt n code xpc xval late = s.modSlot n (fun y => { y with lp := { y.lp with held := some f }, park := some .held })) ∧
    (x.status.trap = false → s.trapWaits n = false → s.holdsFault x code = false →
      s.raiseAt n code xpc xval late = s.takeTrap n code xpc xval late)) ∧
  (∀ (s : State) (n : Nat) (code : BitVec 16) (xpc xval : Word) (late : Bool),
    let s1 := ((s.orderingDone n).performAll n).drainWc (n / 16) (s.slotAt n).sid
    let x := s1.slotAt n
    let y := (s.takeTrap n code xpc xval late).slotAt n
    y.xcause = (if late then 0x10000 else 0) ||| code.setWidth 17 ∧ y.xpc = xpc ∧ y.xval = xval ∧ y.xsw = x.statusWord ∧
    y.status = { x.status with exec := true, trap := true, step := false } ∧
    y.pc = s1.xvec + BitVec.ofNat 64 (64 * (code.toNat / 256)) ∧
    y.g = x.g ∧ y.v = x.v ∧ y.p = x.p ∧ y.lc = x.lc ∧ y.loops = x.loops ∧ y.xtmp = x.xtmp ∧
    y.notBefore = (s1.core (n / 16)).cycle + 8 ∧ (s.takeTrap n code xpc xval late).mem = s1.mem) ∧
  (∀ (s : State) (h : BitVec 2), Ready s Need.any → s.hart.status.trap = false → s.hart.inHandler = false →
    s.trapWaits s.hid = false →
    exec (.brk h) s = .next (s.takeTrap s.hid Cause.brk.code s.hart.pc 0 false) ∧
    (let s1 := s.modHart (fun x =>
       let y := x.finish 4 h
       { y with bound := { y.bound with step := false } })
     s1.trapWaits s1.hid = false → exec (.sys h) s = .next (s1.takeTrap s.hid Cause.sys.code s1.hart.pc 0 false)))

/-- 15 R385, R387: `rtx` at user level raises PRIV, outside a trap handler NOTRAP, and is fatal with BADSW where XSW cannot be
restored; else STATUS is XSW and the PC is XPC, and no other register changes. XHOLD returns in the same way and leaves the
slot HELD; XFATAL in a handler makes the context fatal. -/
def Obligations.TrapReturn : Prop :=
  ∀ (s : State) (h : BitVec 2) (v : BitVec 64),
    let x := s.hart
    let back := s.modHart (fun y => y.returnFromTrap s.now)
    (x.status.exec = false → exec (.rtx h) s = s.raise .priv 0) ∧
    (Ready s { Need.any with priv := true } →
      (x.status.trap = false → exec (.rtx h) s = s.raise .notrap 0) ∧
      (x.status.trap = true → x.xswOk = false →
        exec (.rtx h) s = .next (s.fatalSlot s.hid Cause.badsw.code 0 0)) ∧
      (x.status.trap = true → x.xswOk = true → ∃ t, exec (.rtx h) s = .next t ∧ t.hart.statusWord = x.xsw ∧ t.hart.pc = x.xpc ∧
        t.hart.g = x.g ∧ t.hart.v = x.v ∧ t.hart.p = x.p ∧ t.hart.lc = x.lc ∧ t.hart.loops = x.loops ∧ t.hart.xpc = x.xpc ∧
        t.hart.xsw = x.xsw ∧ t.hart.xcause = x.xcause ∧ t.hart.xval = x.xval ∧ t.hart.xtmp = x.xtmp ∧ t.mem = s.mem)) ∧
    (x.status.trap = true → x.xswOk = true → exec (.xholdWrite v) s = .next (back.writeBackStrand s.hid 6)) ∧
    (x.status.trap = true →
      CompletesFrom s (.xfatalWrite v) (s.fatalSlot s.hid Cause.xreq.code 0 (v.setWidth 32 &&& 0xFFFF)) 4 0 id) ∧
    (x.status.trap = false → exec (.xholdWrite v) s = s.raise .notrap 0 ∧ exec (.xfatalWrite v) s = s.raise .notrap 0)

/-- 15 R387, R390, R395, R400, R402, R404 to R406; 16 R413: the effects that writes of the executive's registers have. EVPOP
takes the oldest event; a profile counter is cleared; PROFCTL, FTSET, DUMPSET and TIMEADJ act; SRESUME places the HELD strand
of its frame again, the first of several (the model's reading, assumption 66); a stop that is due writes its strand back HELD,
once its remote accesses are answered, and with KEEP keeps the slot vacant until FREE. A stop, a resume that finds its strand and
one that does not are recorded in the sketchbook with code 0x17; their PID, source and arguments are the model's reading
(assumption 31). -/
def Obligations.RegisterEffects : Prop :=
  (∀ (s : State) (core : Nat) (d : BitVec 5) (c : BitVec 16) (a : BitVec 48) (r : List (BitVec 16 × BitVec 48)),
    (s.core core).events = (c, a) :: r →
    exec (.evpopRead core d) s =
      .next ((s.modCore core (fun k => { k with events := r })).modHart (fun x =>
        x.setG d (packFields [(c.toNat, 48), (a.toNat, 0)])))) ∧
  (∀ (s : State) (core : Nat) (d : BitVec 5), (s.core core).events = [] →
    exec (.evpopRead core d) s = .next (s.modHart (fun x => x.setG d 0))) ∧
  (∀ (s : State) (core : Nat) (n : BitVec 12), 0x030 ≤ n.toNat → n.toNat ≤ 0x03D →
    exec (.profileCounterClear core n) s = .next (s.modCore core (fun c => c.clearCounter n.toNat))) ∧
  (∀ (s : State) (t : Nat) (v : BitVec 64), ∃ u, exec (.profctlWrite t v) s = .next u ∧
    (u.tile t).profctl = packFields [(fld v 63 52, 52), (fld v 17 0, 0)] ∧
    (bitOf (s.tile t).profctl 16 = true → bitOf v 16 = false → (u.tile t).prof = [])) ∧
  (∀ (s : State) (v : BitVec 64),
    let pid := BitVec.ofNat 12 (fld v 63 52)
    (∃ u, exec (.ftsetWrite v) s = .next u ∧ (u.job pid).ftOk = bitOf v 0 ∧ (bitOf v 0 = false → (u.job pid).ft = false)) ∧
    (let area := 4096 * fld v 51 12
     exec (.dumpsetWrite v) s =
       .next (s.modJob pid (fun j => { j with dump := if area = 0 then none else some (area, bitOf v 11) }))) ∧
    (s.plat.boot = 3 → s.plat.adjusted = false → ∃ u, exec (.timeadjWrite v) s = .next u ∧ u.ticks = s.ticks + 2 * v.toNat ∧
      u.plat.adjusted = true) ∧
    (s.plat.boot ≠ 3 ∨ s.plat.adjusted = true → exec (.timeadjWrite v) s = .next (s.note 0x17 0 v 0))) ∧
  (∀ (s : State) (v : BitVec 64) (sid : Nat) (k : Slot),
    (s.away.find? (fun e => decide (e.2.rstate = 6) && decide (addr57 e.2.record.frame = addr57 v)) = none →
      exec (.sresumeWrite v) s = .next (s.note 0x17 0 (addr57 v) 0)) ∧
    (s.away.find? (fun e => decide (e.2.rstate = 6) && decide (addr57 e.2.record.frame = addr57 v)) = some (sid, k) →
      ∀ x, alGet (s.leaveWaits sid).away sid = some x →
      exec (.sresumeWrite v) s =
        .next (((s.leaveWaits sid).reenter { x with park := none, rstate := 3 } (x.record.hx.toNat, x.record.hy.toNat) false).note
          0x17 x.pid (addr57 x.record.frame) 0))) ∧
  (∀ (s : State) (n : Nat), s.stopDue n = true →
    let x := s.slotAt n
    let s1 := if x.bound.stop = some true then s.modCore (n / 16) (fun c => { c with kept := setInsert c.kept (n % 16) }) else s
    (s.leaveHeld n = true → exec (.dbgstopStop n) s = .next (s.sendBuffers n)) ∧
    (s.leaveHeld n = false → exec (.dbgstopStop n) s =
      .next (((s1.modSlot n (fun y => { y with bound := { y.bound with stop := none } })).writeBackStrand n 6).noteFrom 0
        (slotSource n) 0x17 x.pid x.record.frame 0))) ∧
  (∀ (s : State) (core slot : Nat),
    exec (.dbgstopFree core slot) s =
      .next ((s.modCore core (fun c => { c with kept := c.kept.filter (fun k => k ≠ slot) })).offerOverflow core))

/-- 15 R394 to R397; 16 R420: clocks. `clkm` of 0 leaves fixed-timing mode, of 1 enters it where the context may and the tile
has room: the tile reserves leave and is asked to pin, and the strand waits until it is; on a service core, which never pins, it
enters without a reservation and without a wait (the model's choice, assumption 12). A pinned tile counts droops, an elastic one
stretches; a tile that unpins holds no reservation; the governor moves only elastic tiles and, while the power or a junction
exceeds its limit, never upward, and grants no leave meanwhile; above 110 °C the device is device-fatal, which vector 0 signals
(16 R408). -/
def Obligations.Clocks : Prop :=
  (∀ (s : State) (a : BitVec 5) (h : BitVec 2), Ready s Need.any →
    let ga := s.hart.getG a
    let pid := s.hart.pid
    (ga = 0 → (s.job pid).ft = false → Completes s (.clkm a h) 4 h id) ∧
    (ga = 0 → (s.job pid).ft = true → CompletesFrom s (.clkm a h) (s.leaveFt pid) 4 h id) ∧
    (ga = 1 → (s.job pid).ft = true → Completes s (.clkm a h) 4 h id) ∧
    (1 < ga.toNat → exec (.clkm a h) s = s.raise .clkarg 0) ∧
    (ga = 1 → (s.job pid).ft = false → (s.job pid).ftOk = false → exec (.clkm a h) s = s.raise .clkperm 0) ∧
    (ga = 1 → (s.job pid).ft = false → (s.job pid).ftOk = true → isService s.coreNo = false →
      ((s.tile s.tileNo).rsvFull pid = true → exec (.clkm a h) s = s.raise .clkdeny 0) ∧
      ((s.tile s.tileNo).rsvFull pid = false →
        let s1 := s.modJob pid (fun j => { j with ft := true })
        let s2 := s1.modTile s1.tileNo (fun k => k.reservePin pid)
        let s3 := (s2.tilesOf pid).foldl (fun (t : State) k => t.enterFtTile pid k) s2
        ((s3.tile s3.tileNo).pinned = true → CompletesFrom s (.clkm a h) s3 4 h id) ∧
        ((s3.tile s3.tileNo).pinned = false → exec (.clkm a h) s = .next (s3.parkAt h .clkm)))) ∧
    (ga = 1 → (s.job pid).ft = false → (s.job pid).ftOk = true → isService s.coreNo = true →
      let s1 := s.modJob pid (fun j => { j with ft := true })
      CompletesFrom s (.clkm a h) ((s1.tilesOf pid).foldl (fun (t : State) k => t.enterFtTile pid k) s1) 4 h id)) ∧
  (∀ (s : State) (t pct freq : Nat),
    let k := s.tile t
    (k.pinReq = true →
      let s1 := s.modTile t (fun m => { m with pinned := true, pinReq := false, pinnedAt := s.ticks })
      exec (.tilePin t) s =
        .next ((s1.occSlots.filter (fun e => decide (tileOf (e.1 / 16) = t) && decide (e.2.park = some .clkm))).foldl
          (fun (m : State) e => m.modSlot e.1 (fun x => x.finish 4 x.parkSh)) s1)) ∧
    (k.pinned = true → s.mayUnpin t = true →
      ∃ u, exec (.tileUnpin t) s = .next u ∧ (u.tile t).pinned = false ∧ (u.tile t).rsvs = []) ∧
    (∃ u, exec (.droopDetect t pct) s = .next u ∧
      (k.pinned = true → (u.tile t).fdet = BitVec.ofNat 8 (satTo 8 (k.fdet.toNat + 1)) ∧ (u.tile t).stretch = k.stretch) ∧
      (k.pinned = false → (u.tile t).stretch = BitVec.ofNat 32 (satTo 32 (k.stretch.toNat + 1)) ∧
        (u.tile t).maxs = BitVec.ofNat 8 (Nat.max k.maxs.toNat (Nat.min pct 30)) ∧ (u.tile t).fdet = k.fdet)) ∧
    (∀ hot, ∃ u, exec (.governorAdjust t (freq, hot)) s = .next u ∧ (u.tile t).tight = hot ∧
      (k.pinned = true → (u.tile t).freq = k.freq) ∧
      (k.pinned = false → 1600 ≤ freq → freq ≤ 2400 → freq % 25 = 0 → hot = false ∨ freq ≤ k.freq.toNat →
        (u.tile t).freq = BitVec.ofNat 16 freq) ∧
      (hot = true → k.freq.toNat < freq → (u.tile t).freq = k.freq)) ∧
    (k.tight = true → exec (.leaveGrant t) s = .next s)) ∧
  (∀ s : State, ∃ u, exec .junctionOvertemp s = .next u ∧ u.plat.fatal = true ∧ u.skFrozen = true ∧
    u.plat.msix = s.plat.msix ++ [0])

/-! ## Core, dump, platform (03, 04, 15, 16) -/

/-- 02 R35, R36; 03 R50; 04 R93; 15 R389 to R393: events of cores and of the dump sequencer. A round without an issue counts
its passes and takes one cycle; an all-zero word raises ZWORD, a literal carrier at the wrong address LITALN, any other word
ILLOP; a fetch that fails raises its cause; a corrected soft error is only counted, an uncorrectable one makes the device fatal,
marks the register of an occupied slot, or poisons its bytes, and the first consumer of a marked register makes the context fatal
with SOFTERR (which accesses consume is the model's reading, assumption 58). An elevator that fails holds its cores and moves them
to others, the nearest by mesh hops (assumption 15); one that is dead, which a free bit decides (assumption 4), returns what it
holds; it is retired once no core is held. The sequencer freezes what became fatal and, once it has settled, writes, releases and
reports. -/
def Obligations.CoreEvents : Prop :=
  (∀ (s : State) (core : Nat) (l : List (Nat × SlotPass)),
    exec (.idleRound core l) s = .next ((((s.startRound core 0).passAll l).tick core).endRound core)) ∧
  (∀ (s : State) (w : BitVec 32) (c : FetchCause) (va : BitVec 64),
    let Fault (k : Cause) (v : Word) : State := s.raiseAt s.hid k.code s.hart.pc v false
    exec (.illegalInstruction 0) s = .next (Fault .zword 0) ∧
    (w ≠ 0 → (isCarrier w && carrierOk w) = true → exec (.illegalInstruction w) s = .next (Fault .litaln 0)) ∧
    (w ≠ 0 → (isCarrier w && carrierOk w) = false → exec (.illegalInstruction w) s = .next (Fault .illop 0)) ∧
    exec (.fetchFault c va) s = .next (Fault (fetchFaultCause c) va)) ∧
  (∀ (s : State) (site : SoftSite) (pid : BitVec 12) (addr : BitVec 64),
    (∃ u, exec (.softError site true pid addr) s = .next u ∧ u.corr = BitVec.ofNat 32 (satTo 32 (s.corr.toNat + 1)) ∧
      u.uncorr = s.uncorr ∧ u.jobs = s.jobs ∧ u.plat = s.plat ∧ u.poison = s.poison ∧ u.mem = s.mem) ∧
    (∃ u, exec (.softError site false pid addr) s = .next u ∧ u.uncorr = BitVec.ofNat 32 (satTo 32 (s.uncorr.toNat + 1)) ∧
      u.corr = s.corr ∧
      (site = .deviceState → u.plat.fatal = true) ∧
      (∀ n reg, site = .registerFile n reg → u.poison = s.poison ∧
        (u.slotAt n).badRegs =
          if (s.slotAt n).occ then (s.slotAt n).badRegs ++ [(fileReg reg, addr)] else (s.slotAt n).badRegs) ∧
      ((site ≠ .deviceState ∧ ∀ n reg, site ≠ .registerFile n reg) → u.poison = s.poison ++ [(pid, addr.toNat)]))) ∧
  (∀ (s : State) (n : Nat) (sel : RegName → Bool),
    ((s.slotAt n).badRegs.find? (fun e => sel e.1) = none → s.consumeRegs n sel = s) ∧
    (∀ e, (s.slotAt n).badRegs.find? (fun e => sel e.1) = some e →
      s.consumeRegs n sel =
        (s.modSlot n (fun x => { x with badRegs := x.badRegs.filter (fun k => !sel k.1) })).fatalSlot n Cause.softerr.code e.2 0)) ∧
  (∀ (s : State) (e : Nat), e < 64 → s.elevState e = 0 →
    let s1 := ((s.tickFree.modPlat (fun p => { p with elevs := alSet p.elevs e 1 })).tableChange).note 0x02 0 (BitVec.ofNat 64 e) 0
    let users := (List.range 260).filter (fun n => decide (s.elevOf n = e))
    let s2 := users.foldl (fun (c : State) n =>
      c.modCore n (fun k => { k with hold := true, elev := match s1.nearestElev n with | some f => some (BitVec.ofNat 6 f) | none => k.elev })) s1
    (Config.freeBit s.freeCtr = false → exec (.elevatorRetire e) s = .next s2.elevatorsRetired) ∧
    (Config.freeBit s.freeCtr = true →
      exec (.elevatorRetire e) s =
        .next (s2.modPlat (fun p => { p with returned := p.returned ++ users.filter (fun n => s2.packetsOut n) })).elevatorsRetired)) ∧
  (∀ (s : State) (core : Nat), (s.core core).hold = true → s.plat.elevs.any (fun e => decide (e.2 = 1)) = true →
    (s.plat.scState ≠ 2 ∨ s.plat.runElev = false ∨ s.elevOf core ≠ s.plat.runTarget) →
    (s.packetsOut core = false ∨ s.plat.returned.contains core = true) →
    exec (.elevatorReissue core) s =
      .next ((s.modCore core (fun k => { k with hold := false })).modPlat (fun p =>
        { p with returned := p.returned.filter (fun r => r ≠ core) })).elevatorsRetired) ∧
  (∀ s : State,
    ((List.range 260).any (fun n => (s.core n).hold) = true → s.elevatorsRetired = s) ∧
    ((List.range 260).any (fun n => (s.core n).hold) = false →
      s.elevatorsRetired.plat.elevs = s.plat.elevs.map (fun e => if e.2 = 1 then (e.1, 2) else e))) ∧
  (∀ (s : State) (pid : BitVec 12),
    (s.dumpQ.find? (fun p => decide ((s.job p).dumping = 0)) = some pid → exec .dumpSequence s = .next (s.freeze pid)) ∧
    (∀ r, s.dumpQ.find? (fun p => decide ((s.job p).dumping = 0)) = none → s.dumpQ = pid :: r → s.settled pid = true →
      let s1 := s.settleStrands pid
      ((s.job pid).dumping = 1 → (s1.job pid).dump = none → exec .dumpSequence s = .next ((s1.releaseContext pid).reportDump pid)) ∧
      (∀ area compat, (s.job pid).dumping = 1 → (s1.job pid).dump = some (area, compat) →
        (s1.areaOk area = false → exec .dumpSequence s = .next (s1.dumpFailed pid area)) ∧
        (s1.areaOk area = true →
          let s2 := s1.writeDump pid area compat
          exec .dumpSequence s =
            .next (if compat then s2.modJob pid (fun j => { j with dumping := 2, compat := 0 })
              else (s2.releaseContext pid).reportDump pid))) ∧
      ((s.job pid).dumping = 2 →
        let s2 := (s.compatStep pid (s.job pid).compat).modJob pid (fun j => { j with compat := j.compat + 1 })
        exec .compatEngineReset s = .next (if (s.job pid).compat < 9 then s2 else s2.reportDump pid))))

/-- 16 R409 to R413, R416, R418: resets, bring-up, device registers, keys and the window. A reset discards everything but HBM4
and host memory and what the module holds for good, the lasers among it (assumption 73), a cold one puts the flash's image in
effect, and a warm one keeps TIME, the sketchbook, FABCFG and the logical core map; the boot steps take place in order, the
executive's records being operands (assumption 94); at step 4 the tiles are calibrated and the ports train (assumptions 38, 69); a
window access needs WINCTL, a place in HBM4 and a key, one that crosses the end of HBM4 is refused whole (assumption 72), and after
a boot failure none is answered, reads giving ones (assumption 111). -/
def Obligations.BringUp : Prop :=
  (∀ s : State, exec .coldReset s = .next s.coldReset ∧ exec .warmReset s = .next s.warmReset ∧
    s.coldReset.plat.boot = 0 ∧ s.coldReset.plat.fabv = false ∧ s.coldReset.plat.spare = s.plat.spare ∧ s.coldReset.plat.minVer = s.plat.minVer ∧
    s.coldReset.plat.image = s.plat.flash ∧ s.coldReset.plat.identKey = s.plat.identKey ∧
    s.coldReset.plat.verified = (if s.plat.flash = s.plat.image then s.plat.verified else none) ∧ s.warmReset.plat.image = s.plat.image ∧
    s.coldReset.mem = s.mem.filter (fun c => decide (c.1 < 2 ^ 52)) ∧ s.coldReset.jobs = [] ∧ s.coldReset.ticks = State.reset.ticks ∧
    s.warmReset.ticks = s.ticks ∧ s.warmReset.sketch = s.sketch ∧ s.warmReset.skHead = s.skHead ∧
    s.warmReset.plat.fabv = s.plat.fabv ∧ s.warmReset.plat.dev = s.plat.dev ∧ s.warmReset.plat.coreMap = s.plat.coreMap ∧
    s.warmReset.jobs = [] ∧ s.warmReset.plat.boot = 0) ∧
  (∀ (s : State) (err : BitVec 8) (ver : Nat) (m : BitVec 256) (bad : List (BitVec 6)) (sl hst : List Nat)
      (l : List (BitVec 2 × BitVec 512)), s.plat.boot = 0 → s.plat.bootErr = 0 →
    let i : Instr := .bootSequence err ver (m, bad) (sl, hst) l
    let v := s.plat.verified.getD (err, ver)
    let s0 := s.modPlat (fun p => { p with verified := some v })
    (s.plat.verified ≠ none ∨ err = 0 ∨ err = 1 ∨ err = 2 ∨ err = 4 →
      (v.1 ≠ 0 → exec i s = .next (s0.modPlat (fun p => { p with bootErr := v.1 }))) ∧
      (v.1 = 0 → v.2 < s.plat.minVer → exec i s = .next (s0.modPlat (fun p => { p with bootErr := 3 }))) ∧
      (v.1 = 0 → s.plat.minVer ≤ v.2 → ∃ u : State,
        exec i s = .next (l.foldl (fun (t : State) e => t.startExecutive e) (u.retireElevs bad)) ∧
        u.plat.boot = 3 ∧ u.plat.minVer = v.2 ∧ u.plat.fwVer = v.2 ∧ u.plat.coreMap = s.plat.coreMap &&& m ∧
        u.plat.gen = s.plat.gen + 2 ∧ u.plat.elevs = s.plat.elevs ∧
        u.plat.slices = (if slicesOk sl && hstOk sl hst then sl else s.plat.slices) ∧
        u.plat.hst = (if slicesOk sl && hstOk sl hst then hst else s.plat.hst))) ∧
    (s.plat.verified = none → err ≠ 0 → err ≠ 1 → err ≠ 2 → err ≠ 4 → exec i s = .next s)) ∧
  (∀ (s : State) (e : BitVec 6) (r : List (BitVec 6)), s.retireElevs [] = s ∧
    (s.elevState e.toNat ≠ 0 → s.retireElevs (e :: r) = s.retireElevs r) ∧
    (∀ u, exec (.elevatorRetire e.toNat) s = .next u → s.retireElevs (e :: r) = u.retireElevs r)) ∧
  (∀ (s : State) (q : BitVec 2) (r : BitVec 512),
    let n := 16 * (256 + q.toNat)
    let words := (List.range 8).map (fun k => r.extractLsb' (64 * k) 64)
    (s.slotAt n).occ = false → s.strandOf (strandId (Rec.ofWords words).pid (Rec.ofWords words).frame) = none →
    let x := (s.startExecutive (q, r)).slotAt n
    x.occ = true ∧ x.pc = nthW words 0 ∧ x.status.exec = true ∧ x.status.trap = false ∧ x.record.exec = true ∧ x.record.opt = false) ∧
  (∀ s : State, s.plat.boot = 3 →
    exec .aperturesOpen s =
      .next ((s.modPlat (fun p => { p with boot := 4, svc := 1 })).tableChange.calibAll.serviceTiles.trainAll)) ∧
  (∀ (s : State) (v : BitVec 64), (s.plat.fabv = true → exec (.fabcfgWrite v) s = .next s) ∧
    (s.plat.fabv = false →
      let s1 := s.modPlat (fun p =>
        { p with dev := v.setWidth 11, ncm1 := BitVec.ofNat 4 (fld v 25 22), ndm1 := BitVec.ofNat 4 (fld v 29 26), fabv := bitOf v 30 })
      exec (.fabcfgWrite v) s =
        .next (if bitOf v 30 then (if 4 ≤ s.plat.boot then s1.tableChange.trainAll else s1.tableChange) else s1))) ∧
  (∀ (s : State) (off : Nat) (v : BitVec 64), exec (.registerWrite off v) s = .next (s.regWrite off v)) ∧
  (∀ (s : State) (v : Word), s.regWrite 0x08 v = s.devctlPut v ∧ s.regWrite 0x10 v = s.fabcfgPut v ∧
    s.regWrite 0x18 v = s.winctlPut v ∧ s.regWrite 0x20 v = s.keyctlPut v ∧ s.regWrite 0x28 v = s.scanctlPut v ∧
    s.regWrite 0x30808 v = s.laserReq (v.setWidth 2) ∧ s.regWrite 0x60000 v = s.skctlPut v ∧
    (∀ q, q < 4096 → s.regWrite (0x20000 + 8 * q) v = s.qctlPut q v) ∧
    (∀ p, p < 8 → s.regWrite (0x30000 + 0x100 * p) v = s.lctlPut p v) ∧
    (∀ k, k < 0x400 → s.regWrite (0x70000 + 8 * k) v = s.mailPut (8 * k) v) ∧
    (∀ off, off % 8 ≠ 0 → s.regWrite off v = s) ∧ s.regWrite 0 v = s ∧ s.regWrite 0x30 v = s ∧ s.regWrite 0x38 v = s ∧
    (∀ off, 0x10000 ≤ off → off < 0x11000 → s.regWrite off v = s)) ∧
  (∀ (s : State) (pid : BitVec 12), s.plat.keyOp = 0 →
    exec (.keyctlGenerate pid) s = .next (s.modPlat (fun p => { p with keyPid := pid, keyOp := 1 })) ∧
    exec (.keyctlErase pid) s = .next (s.modPlat (fun p => { p with keyPid := pid, keyOp := 2 }))) ∧
  (∀ (s : State),
    (s.plat.keyOp = 1 → ∃ u, exec .keyctlDone s = .next u ∧ (u.job s.plat.keyPid).key = some s.plat.keyGen ∧
      u.plat.keyOp = 0 ∧ u.plat.keyGen = s.plat.keyGen + 1) ∧
    (s.plat.keyOp = 2 → ∃ u, exec .keyctlDone s = .next u ∧ (u.job s.plat.keyPid).key = none ∧ u.plat.keyOp = 0)) ∧
  (∀ (s : State) (off len : Nat) (bs : List (BitVec 8)), s.plat.bootErr ≠ 0 →
    exec (.windowRead off len) s = .next (s.modPlat (fun p => { p with winData := List.replicate len 0xFF })) ∧
    exec (.windowWrite off bs) s = .next s) ∧
  (∀ (s : State) (off len : Nat) (bs : List (BitVec 8)), s.plat.bootErr = 0 →
    (s.windowOk off len = true → ∃ u, exec (.windowRead off len) s = .next u ∧ u.plat.winData = s.homeBytes s.plat.winPid off len ∧
      u.mem = s.mem) ∧
    (s.windowOk off len = false → ∃ u, exec (.windowRead off len) s = .next u ∧ u.plat.winData = List.replicate len 0xFF ∧
      u.plat.werr = BitVec.ofNat 20 (satTo 20 (s.plat.werr.toNat + 1))) ∧
    (s.windowOk off bs.length = true → exec (.windowWrite off bs) s = .next (s.homePut s.plat.winPid off bs)) ∧
    (s.windowOk off bs.length = false → ∃ u, exec (.windowWrite off bs) s = .next u ∧ u.mem = s.mem ∧
      u.plat.werr = BitVec.ofNat 20 (satTo 20 (s.plat.werr.toNat + 1))))

/-- 12 R309 to R311; 16 R413, R415 to R417, R419: launch queues, mailbox and in-field test. A record written whole to an enabled
queue with room joins it and else is counted as dropped, but after a boot failure; the service core launches the oldest one; TEAR
empties and disables the queue; a mailbox command completes with its result, the attestation report with the fields the spec gives
it and IDENT the same identity each time (their form is the model's, assumption 9); FWWRITE of more than 4,096 bytes is a bad
command (assumption 71); a core under test drains, runs, and comes back or leaves the core map, and an item that aborts the test is
taken once the core is empty (the abort in the drain, and what the end of an elevator's test does, are the model's reading,
assumption 70). -/
def Obligations.HostServices : Prop :=
  (∀ (s : State) (q off : Nat) (bs : List (BitVec 8)), q < 4096 →
    (s.plat.bootErr ≠ 0 → exec (.launchRecordWrite q off bs) s = .next s) ∧
    (s.plat.bootErr = 0 → off % 64 = 0 → 0 < bs.length → bs.length % 64 = 0 → off + bs.length ≤ 4096 →
      exec (.launchRecordWrite q off bs) s =
        .next ((blocksOf (bs.length / 64) bs).foldl (fun (t : State) r => t.launchRecord q r) s)) ∧
    (s.plat.bootErr = 0 → off % 64 ≠ 0 ∨ bs.length % 64 ≠ 0 ∨ 4096 < off + bs.length →
      exec (.launchRecordWrite q off bs) s = .next (s.modQueue q (fun k => k.dropped 1))) ∧
    exec (.qctlTear q) s = .next (s.modQueue q (fun k => k.tear)) ∧
    (∀ v : BitVec 64, exec (.qctlWrite q v) s =
      .next (s.modQueue q (fun k => if bitOf v 1 then (k.put v).tear else k.put v)))) ∧
  (∀ (s : State) (q : Nat) (r : BitVec 512),
    let k := s.queue q
    (s.plat.svc ≠ 0 → k.en = true → k.fifo.length < 256 → s.isFrozen k.pid = false →
      s.launchRecord q r = s.modQueue q (fun k => { k with fifo := k.fifo ++ [r] })) ∧
    (s.plat.svc = 0 ∨ k.en = false ∨ 256 ≤ k.fifo.length → s.launchRecord q r = s.modQueue q (fun k => k.dropped 1))) ∧
  (∀ (s : State) (q : Nat) (r : BitVec 512) (rest : List (BitVec 512)), (s.queue q).fifo = r :: rest →
    let k := s.queue q
    let s1 := s.modQueue q (fun k => { k with fifo := rest })
    let l : Launcher := { pid := k.pid, exec := false, prio := k.pmax, router := coreRouter (256 + k.quad.toNat), quad := k.quad.toNat }
    s1.isFrozen k.pid = false →
    (∀ s2, s1.spawnWords l 0 (recordWords r) true = .ok s2 → exec (.serviceLaunch q) s = .next s2) ∧
    (∀ c v, s1.spawnWords l 0 (recordWords r) true = .error (c, v) →
      exec (.serviceLaunch q) s =
        .next ((s1.modQueue q (fun k => k.dropped 1)).note 0x05 k.pid (c.code.setWidth 64) v))) ∧
  (∀ s : State, s.mailPending 1 = true →
    (s.plat.lmsLeft = 0 → exec .attest s = .next (s.modPlat (fun p => { p with mbRes := some 2 }))) ∧
    (s.plat.lmsLeft ≠ 0 → ∃ u, exec .attest s = .next u ∧ u.plat.mbRes = some 0 ∧ u.plat.lmsLeft = s.plat.lmsLeft - 1 ∧
      u.plat.mbResp = s.plat.report (freeResponse s.freeCtr))) ∧
  (∀ (p : Platform) (l : List Byte), (p.report l).take 17 =
    natLe 4 0x3153445A ++ natLe 2 (if p.fabv then p.dev.toNat else 0xFFFF) ++ natLe 1 0xB0 ++ natLe 2 1 ++ natLe 4 p.minVer ++
      natLe 4 p.fwVer) ∧
  (∀ s : State, s.mailPending 2 = true → ∃ u, exec .ident s = .next u ∧ u.plat.mbRes = some 0 ∧ u.plat.lmsLeft = s.plat.lmsLeft ∧
    u.plat.mbResp = (List.range 0xF00).map (fun k => Config.freeIdent s.plat.identKey k) ∧ u.plat.identKey = s.plat.identKey) ∧
  (∀ s : State, s.mailPending 3 = true →
    let off := s.plat.mbArg.toNat % 2 ^ 64
    let len := s.plat.mbArg.toNat / 2 ^ 64 % 2 ^ 64
    (4096 < len → exec .fwwrite s = .next (s.modPlat (fun p => { p with mbRes := some 1 }))) ∧
    (len ≤ 4096 → ∃ u, exec .fwwrite s = .next u ∧ u.plat.mbRes = some 0 ∧
      u.plat.flash = s.plat.flash ++ [(off, s.plat.staged len)])) ∧
  (∀ (s : State) (r : BitVec 8) (ok : Bool), bitOf s.plat.mbStat 0 = false →
    (1 ≤ s.plat.mbCmd.toNat → s.plat.mbCmd.toNat ≤ 2 → s.plat.mbRes = some r →
      ∃ u, exec (.mailboxCommandDone ok) s = .next u ∧ u.plat.mbStat = packFields [(r.toNat, 8), (1, 0)]) ∧
    (3 < s.plat.mbCmd.toNat → ∃ u, exec (.mailboxCommandDone ok) s = .next u ∧ u.plat.mbStat = packFields [(1, 8), (1, 0)])) ∧
  (∀ (s : State) (v : BitVec 64),
    exec (.scanStart v) s =
      .next ((s.modPlat (fun p => { p with scElev := bitOf v 20, scPrio := BitVec.ofNat 4 (fld v 19 16), scTarget := BitVec.ofNat 8 (fld v 15 8) })).scanBegin)) ∧
  (∀ s : State, s.plat.scState = 1 → s.plat.scAt + 80000 < s.ticks →
    ∃ u, exec .scanDrainTimeout s = .next u ∧ u.plat.scState = 0 ∧ u.plat.scResult = 4) ∧
  (∀ (s : State) (k : Nat) (i : Item), s.items[k]? = some i → i.taken = none → i.ovq = none →
    let c := gridCore i.x i.y
    s.underTest c = true → gridDist i.x i.y i.record.hx.toNat i.record.hy.toNat ≤ i.radius →
    s.plat.scPrio.toNat ≤ i.record.prio.toNat →
    let s0 := if s.plat.scState = 1 then s.scanDrain c else s
    let s1 := s0.scanEnd 3 false
    (s0.usedSlots c ≠ [] → exec (.scanAbort k) s = .next s0) ∧
    (s0.usedSlots c = [] →
      exec (.scanAbort k) s = .next (match s1.roomFor c i.record with | some n => s1.takeItem k c n | none => s1))) ∧
  (∀ (s : State) (pass : Bool), s.plat.scState = 2 → s.plat.runElev = false →
    let s1 := s.scanEnd (if pass then 1 else 2) true
    exec (.scanPatternDone pass) s =
      .next (if pass then s1.offerOverflow s.plat.runTarget else s1.coreFails s.plat.runTarget))

/-! ## Fabric (14) and laser (01) -/

/-- 14 R358 to R364, R366, R367: links. A port that has trained comes UP on its widest width and reports it; a group is accepted
when its tag checks and its number is the next, else a NAK is due, and a skid-mode port repairs what it released; an accepted one
does its work here or goes on by this device's route; a NAK replays, but in a direction that negotiates, which replays at its end; a
failing lane is frozen, each direction negotiates its width, and below four healthy lanes the link is DOWN, its groups waiting for a
new route; RETRAIN of a sleeping direction waits until it wakes; a higher record version replaces the held one; the table is agreed
50 µs after the newest record, with the neighbours' digests equal, and raises FABCHG. What travels with an event, the lane map and
the digests among it, is its operand (the model's choice, assumption 22), LUTIL counts whole windows of 100 µs of TIME (assumption
47), and a reported lane may come back after 100 ms (assumption 55). -/
def Sys2Proof.Claim.LinkEvents : Prop :=
  (∀ (s : State) (n : Nat) (p : Port) (peer : BitVec 11) (pp : BitVec 3), s.ports[n]? = some p →
    (p.state = 1 → ∀ lit : Nat,
      let up : Port :=
        { p with state := 3, peer := peer, pport := pp, txSeq := 0, rxSeq := 0, unacked := [], out := 0, nakked := false, retrainDue := false,
                 txBad := [], txIdle := [], lanes := p.lanes.map (fun l => { l with state := 1, back := false }) }
      let s1 := (((s.leaveGroups n).modPort n (fun _ => up)).rxNegotiated n (List.range (4 * (lit / 4))) lit).report n true
      ∀ q, s1.ports[n]? = some q → exec (.linkTrainDone n (peer, pp) lit) s = .next (if q.state = 3 then s1.negotiated n else s1)) ∧
    (p.state = 3 → exec (.narrowNegotiateDone (n, none)) s = .next (s.negotiated n)) ∧
    (p.stands = true → ∀ (m : List Nat) (lit : Nat),
      exec (.narrowNegotiateDone (n, some (m, lit))) s = .next (s.rxNegotiated n m lit) ∧
      (m.length < 4 → s.rxNegotiated n m lit = s.linkFall n 5)) ∧
    (let q := p.settleWidth (litLanes s.plat.cur)
     (q.txw = 0 → s.negotiated n = s.linkFall n 5) ∧
     (q.txw ≠ 0 → s.negotiated n = s.modPort n (fun _ => (({ q with state := 2 } : Port).replayed q.out).pump))) ∧
    exec (.lctlRetrain n) s = .next (s.modPort n (fun _ =>
      { p with txIdle := [], state := if p.state = 2 then 3 else p.state, retrainDue := p.retrainDue || decide (p.state = 4) })) ∧
    (s.leaveGroups n).ports[n]? = some { p with unacked := [], out := 0 } ∧
    (s.leaveGroups n).reroute = s.reroute ++ (p.unacked.map Prod.snd).filter (fun d => decide (d ≠ everyone)) ∧
    (∀ st, s.linkFall n st = ((s.leaveGroups n).modPort n (fun k => k.fall st)).report n false ∧ (p.fall st).state = st ∧
      (p.fall st).lmap = [] ∧ (p.fall st).rmap = [] ∧ (p.fall st).unacked = p.unacked) ∧
    exec (.lctlEnable n true) s = .next ((s.modPort n (fun q => { q with en := true })).train n) ∧
    exec (.lctlEnable n false) s =
      .next ((s.modPort n (fun q => { q with en := false })).linkFall n 0) ∧
    (∀ lane, p.stands = true → lane < 16 →
      exec (.laneFailingReport n lane) s =
        .next (s.modPort n (fun _ =>
          { p with state := if p.state = 4 then 4 else 3, txBad := p.txBad.filter (fun e => e.1 ≠ lane) ++ [(lane, s.ticks)] }))) ∧
    (p.window < s.ticks / 200000 →
      exec (.lutilWindow n) s =
        .next (s.modPort n (fun _ =>
          { p with txf := BitVec.ofNat 32 (satTo 32 p.txNow), rxf := BitVec.ofNat 32 (satTo 32 p.rxNow), txNow := 0, rxNow := 0, window := s.ticks / 200000 })))) ∧
  (∀ (s : State) (n lane : Nat) (p : Port) (l : Lane) (power margin : BitVec 12) (fails slots recent : Nat),
    s.ports[n]? = some p → p.lanes[lane]? = some l →
    (p.stands = true → l.state ≠ 4 →
      let m : Lane :=
        { l with power := power, margin := margin, ber := BitVec.ofNat 8 (berField fails slots), lcerr := BitVec.ofNat 16 (satTo 16 (l.lcerr.toNat + recent)) }
      let k : Lane :=
        if m.failing s.plat then (if l.state = 0 ∨ l.state = 1 then { m with state := 2 } else { m with badAt := s.ticks }) else m
      exec (.laneHealthUpdate n lane power margin fails slots recent) s =
        .next (s.modPort n (fun _ => { p with lanes := p.lanes.setIfInBounds lane k }))) ∧
    (l.state = 3 → l.badAt + 200000000 ≤ s.ticks → ∃ u q, exec (.laneRecover n lane) s = .next u ∧ u.ports[n]? = some q ∧
      (∃ k, q.lanes[lane]? = some k ∧ k.state = 1 ∧ k.back = true) ∧ (∀ e ∈ q.txBad, e.1 = lane → s.ticks < e.2 + 200000000))) ∧
  (∀ (s : State) (n : Nat) (p : Port) (g : LinkGroup), s.ports[n]? = some p → p.stands = true →
    let s1 := s.modPort n (fun k => (if g.tagOk then k.acked g.ack else k).slotsIn g.checks)
    (g.seq ≠ p.rxSeq → exec (.groupReceive n g) s = .next s1) ∧
    (g.seq = p.rxSeq → g.tagOk = false →
      let s2 := s1.modPort n (fun k => { k with nakked := true })
      exec (.groupReceive n g) s =
        .next (if p.skid && !p.nakked && (s2.inTransit g).isNone then s2.skidRepair g else s2)) ∧
    (g.seq = p.rxSeq → g.tagOk = true →
      let s2 := s1.modPort n (fun k => { k with rxSeq := k.rxSeq + 1, nakked := false, rxNow := k.rxNow + g.flits })
      exec (.groupReceive n g) s = .next (s2.groupIn g))) ∧
  (∀ (s : State) (g : LinkGroup),
    (∀ d, g.dest = some d → (s.plat.fabv = false ∨ d ≠ s.plat.dev) → s.groupIn g = s.inject d.toNat 1) ∧
    (g.dest = none ∨ (s.plat.fabv = true ∧ g.dest = some s.plat.dev) →
      s.groupIn g = if g.cls = .msg then s.linesIn g.pid g.lines else s.cancelsIn g.cancels)) ∧
  (∀ (s : State) (n : Nat) (p : Port) (q : BitVec 16), s.ports[n]? = some p →
    (p.state = 2 → (p.unacked.take p.out).any (fun k => k.1 = q) = true →
      exec (.nakReceive n q) s =
        .next (s.modPort n (fun _ => p.replayed (((p.unacked.take p.out).dropWhile (fun k => k.1 ≠ q)).length)))) ∧
    (p.state ≠ 2 ∨ (p.unacked.take p.out).any (fun k => k.1 = q) = false →
      exec (.nakReceive n q) s = .next (s.modPort n (fun _ => p)))) ∧
  (∀ (s : State) (r l : LinkRec),
    (s.linkRec (r.dev.toNat, r.port.toNat) = none → exec (.linkRecordReceive r) s = .next (s.takeRecord r)) ∧
    (s.linkRec (r.dev.toNat, r.port.toNat) = some l →
      exec (.linkRecordReceive r) s =
        .next (if l.epoch < r.epoch ∨ (l.epoch = r.epoch ∧ l.reporter.toNat < r.reporter.toNat) then s.takeRecord r else s))) ∧
  (∀ (s : State) (d : BitVec 64) (theirs : List (Nat × BitVec 64)), s.changing = true → s.lastRec + 100000 ≤ s.ticks →
    (∀ (n : Nat) (p : Port), s.ports[n]? = some p → p.stands = true → (n, d) ∈ theirs) →
    exec (.tableAgree (d, theirs)) s =
      .next ((({ s with table := s.links, agreed := s.agreed + 1, changing := false } : State).abandonFabric.leaveFallen.sendRerouted.collsAgree).execEvent
        0 0x0E (fld d 47 0) 0)) ∧
  (∀ (s : State) (d : Nat), s.reroute = [d] →
    let s1 : State := { s with reroute := [] }
    (∀ p, s1.route d = some p → s.sendRerouted = s1.modPort p (fun k => (k.enqueue d 1).pump)) ∧
    (s1.route d = none → s.sendRerouted = s))

/-- 01 R7; 14 R365, R366: the laser. A written state begins a transition unless one is in progress, its end enters the state
(L2 only with every replay buffer empty), a queued packet wakes the module, and a failed laser is replaced by the standby. -/
def Sys2Proof.Claim.LaserEvents : Prop :=
  (∀ (s : State) (r : BitVec 2), let s1 := s.modPlat (fun p => { p with req := r })
    exec (.laserRequest r) s = .next (if s.plat.busy = true ∨ r = s.plat.cur then s1 else s1.modPlat (fun p => { p with busy := true, target := some r }))) ∧
  (∀ (s : State) (t : BitVec 2), s.plat.target = some t → (t ≠ 2 ∨ ∀ p ∈ s.ports.toList, p.state ≠ 3 ∧ p.out = 0) →
    let s1 := (s.modPlat (fun p => { p with busy := false, target := none })).laserEnter t
    exec .laserTransitionDone s = .next (if s1.plat.req = t then s1 else s1.laserBegin s1.plat.req)) ∧
  (∀ s : State, s.plat.cur = 2 → s.plat.busy = false → (∃ p ∈ s.ports.toList, p.state = 4 ∧ p.unacked ≠ []) →
    exec .laserWake s = .next (s.laserReq 0)) ∧
  (∀ s : State, s.plat.spare = true → s.plat.switching = false →
    let s1 := (s.modPlat (fun p => { p with switching := true, spare := false })).modOptics (fun o =>
      if o.state = .ready then { o with state := .hold } else o)
    exec .laserSwitchover s =
      .next ({ s1 with ports := s1.ports.map (fun p => if p.state = 2 then p.replayed p.out else p) } : State).tableChange) ∧
  (∀ s : State, s.plat.switching = true →
    let s1 := (s.modPlat (fun p => { p with switching := false, src := !p.src })).modOptics (fun o =>
      if o.state = .hold then o.toReady else o)
    exec .laserSwitchoverDone s = .next (s1.tableChange.serviceTiles.note 0x01 0 0 0))

/-- 14 R349 to R352: remote accesses. The target refuses a place it does not have or a PID without a key, answers a
load with the bytes of the home copy, performs a store there, and an atomic once, and keeps an atomic's reply for 2 ms; the source lands an answer, faults on a refusal,
sends again after 250 µs up to four times, then RTIMEO, or RUNREACH without a route; a request older than 100 µs is lost. -/
def Sys2Proof.Claim.RemoteEvents : Prop :=
  (∀ (s : State) (r : RemoteReq),
    let pa := r.offset.toNat
    (s.reqRefused r = true → exec (.remoteRequestArrive r) s = .next (s.replyTo r.src [])) ∧
    (s.reqRefused r = false →
      (r.kind = .load →
        let s1 := s.consume none r.pid pa r.len
        exec (.remoteRequestArrive r) s = .next (s1.replyTo r.src (s1.homeBytes r.pid pa r.len))) ∧
      (r.kind = .store → exec (.remoteRequestArrive r) s =
        .next ((s.homePut r.pid pa (r.data.take r.len)).replyTo r.src (s.oldBytes r))) ∧
      (∀ op dbl red, r.kind = .amo op dbl red →
        (∀ e, s.replied r.src r.tag = some e → exec (.remoteRequestArrive r) s = .next (s.replyTo r.src e.reply)) ∧
        (s.replied r.src r.tag = none → 65536 ≤ s.replies.length → exec (.remoteRequestArrive r) s = .next (s.replyTo r.src [])) ∧
        (s.replied r.src r.tag = none → s.replies.length < 65536 →
          let n := if dbl then 64 else 32
          let s0 := s.consume none r.pid pa (n / 8)
          let old := leNat (s0.homeBytes r.pid pa (n / 8))
          let k := amoNew op.toNat n old (leNat (r.data.take 8) % 2 ^ n) (leNat ((r.data.drop 8).take 8) % 2 ^ n)
          let bs := natLe (n / 8) old ++ s0.oldBytes r
          let s1 := if k.2.1 then s0.homePut r.pid pa (natLe (n / 8) k.1) else s0
          exec (.remoteRequestArrive r) s =
            .next (((s1.recordReply r.src r.pid r.tag bs).groupTouched r.pid pa).replyTo r.src bs))))) ∧
  (∀ (s : State) (src : BitVec 11) (tag : BitVec 16), ∃ u, exec (.replyCacheExpiry src tag) s = .next u ∧
    ∀ e, e ∈ u.replies ↔ e ∈ s.replies ∧ ¬ (e.src = src ∧ e.tag = tag ∧ e.since + 4000000 ≤ s.ticks)) ∧
  (∀ (s : State) (tag : BitVec 16) (r : RemoteOut), s.request tag = some r →
    (r.inFlight = true →
      (∀ bs, exec (.remoteReplyArrive tag true bs) s = .next (s.remoteFail r .refused)) ∧
      (∀ bs, exec (.remoteReplyArrive tag false bs) s = .next (s.remoteAnswer r bs))) ∧
    (r.attempts ≠ 0 → r.since + 500000 ≤ s.ticks →
      (s.reach r.dev.toNat = false → exec (.remoteReissue tag) s = .next (s.remoteFail r .unreachable)) ∧
      (s.reach r.dev.toNat = true → 4 ≤ r.attempts → exec (.remoteReissue tag) s = .next (s.remoteFail r .timedOut)) ∧
      (s.reach r.dev.toNat = true → r.attempts < 4 →
        exec (.remoteReissue tag) s =
          .next ((s.modRequest tag (fun k => { k with attempts := k.attempts + 1, since := s.ticks, inFlight := true })).inject
            r.dev.toNat r.data.length))) ∧
    (∀ op dbl red, r.attempts ≠ 0 → r.kind = .amo op dbl red →
      exec (.replyCacheRetry tag) s =
        .next ((s.modRequest tag (fun k => { k with since := s.ticks, inFlight := true })).inject r.dev.toNat r.data.length))) ∧
  (∀ (s : State) (tag : BitVec 16), exec (.requestAgeDiscard tag) s =
    .next (s.modRequest tag (fun r => if r.attempts ≠ 0 && r.since + 200000 < s.ticks then { r with inFlight := false } else r)))

/-- 14 R355, R356: migration. A packet whose PID has a key and a pool with a frame takes it, is counted, and enters placement;
one known already, or that cannot be taken, changes nothing but the reply; the acknowledgement writes MIGRATED into the old
frame and gives the strand up; a refusal, RTIMEO or RUNREACH places it again at the source with its fault. The router of the
grid's edge where it enters, its hint, and the place where a refused strand enters are the model's reading (assumption 52), and so
are the order of the packet's private words and the answer to a packet known already (assumption 53). -/
def Sys2Proof.Claim.MigrationEvents : Prop :=
  (∀ (s : State) (p : MigPacket), let x0 := packetSlot p
    ((s.replied p.src p.tag).isSome = true → exec (.migrationArrive p) s = .next (s.inject p.src.toNat 0)) ∧
    (s.replied p.src p.tag = none → s.canArrive x0.pid = none → exec (.migrationArrive p) s = .next (s.inject p.src.toNat 0)) ∧
    (∀ pa, s.replied p.src p.tag = none → s.canArrive x0.pid = some pa →
      let f := (s.takeFrame pa).1
      let s1 := (s.takeFrame pa).2
      let x : Slot :=
        { x0 with record := { x0.record with frame := f, hx := BitVec.ofNat 4 (s1.sliceRouter p.target.toNat).1, hy := 7, hrad := 8 }, pooled := some (s1.job x0.pid).poolGen, rmax := 15 }
      let s2 := (s1.modJob x0.pid (fun j => { j with count := j.count + 1 })).recordReply p.src x0.pid p.tag []
      let s3 := ({ s2 with away := alSet s2.away x.sid x } : State).awayFrame x.sid 3
      ∀ e, e = edgeRouter ((Config.freeWord s3.freeCtr).toNat % 60) →
      let item : Item :=
        { record := x.record, pc := x.pc, x := e.1, y := e.2, radius := 8, rmax := 15, ring := none, ovq := none, taken := none, total := 1, since := s3.ticks, arrived := s3.nextArrival }
      exec (.migrationArrive p) s =
        .next (({ s3 with items := s3.items ++ [item], freeCtr := s3.freeCtr + 1 } : State).inject p.src.toNat 0))) ∧
  (∀ (s : State) (tag : BitVec 16) (m : MigOut), s.migOut.find? (fun m => m.tag = tag) = some m →
    let x := m.slot
    let s1 : State := { s with migOut := s.migOut.filter (fun k => k.tag ≠ tag) }
    let s2' := s1.modJob x.pid (fun j => { j with count := j.count - 1, farDevs := setInsert j.farDevs m.dev.toNat })
    let s2 := if x.bound.cancel then s2'.inject m.dev.toNat 64 else s2'
    (∀ s3, s2.recordWrite 0 x 7 m.dev.toNat = .ok s3 → exec (.migrationAck tag) s = .next (s3.returnFrame x)) ∧
    (∀ e, s2.recordWrite 0 x 7 m.dev.toNat = .error e →
      exec (.migrationAck tag) s = .next (s2.fatalCause x.pid
        { cause := Cause.framef.code, src := 0xFFFF, flags := 0, xpc := x.pc, xval := x.record.frame, time := s2.timeNs })) ∧
    (∀ why, s.migFailed m why = true →
      let f : HeldFault := { cause := (migCause why).code, xpc := x.pc, xval := m.va, late := false, final := false }
      let y : Slot := { x with park := none, bound := { x.bound with late := some f } }
      let s4 : State := { s1 with away := alSet s.away x.sid y }
      exec (.migrationRefused tag why) s =
        .next ((s4.awayFrame x.sid 3).enterItem y.record y.pc y.record.hx.toNat y.record.hy.toNat 1 y.rmax)))

/-! ## The machine -/

/-- 02 R25, R30, R32; 03 R50; 15 R389: a step runs the decoded instruction. A word fetched in host memory is the four bytes at
its place, lowest address first; where the word at the PC, with the word after it for a literal carrier, decodes to `i` and
nothing holds the slot, a visit acts with `i`; and a turn of a core whose first acting slot acts with `i` is `exec i` on the
state in which that slot executes, once the registers it reads are consumed, after which the results' latencies are noted and one
cycle of the core passes. Which core has its turn the model's agenda says, and a store that has reached a device register takes
its effect before any turn: both are the model's own schedule (assumption 1). -/
def Obligations.StepRunsDecoded : Prop :=
  (∀ (s s1 : State) (n : Nat) (a : Word) (x : Xlate), (s.slotAt n).loops = [] →
    s.translate (slotQuad n) (s.slotAt n).pid (s.slotAt n).status.exec a .fetch = (.ok x, s1) →
    s1.region x.pa = .host → s1.poison = [] →
    (s.fetchAt n a).1 = .ok (some (BitVec.ofNat 32 (leNat (memBytes s1.mem x.pa 4))))) ∧
  (∀ (s : State) (n : Nat) (w k : BitVec 32) (i : Instr),
    let x := s.slotAt n
    let c := s.core (n / 16)
    x.occ = true → s.isFrozen x.pid = false → s.boundary n = none → x.park = none → x.bound.prmto = false →
    x.bound.late = none → x.record.opt = false → x.notBefore ≤ c.cycle → x.landed = false → x.skips = 0 →
    x.pc.toNat % 4 = 0 → (s.fetchAt n x.pc).1 = .ok (some w) → decodeWord w k = some i →
    ((isCarrier w = false ∧ k = 0) ∨
      (isCarrier w = true ∧ x.pc.toNat % 8 = 0 ∧ ((s.fetchAt n x.pc).2.fetchAt n (x.pc + 4)).1 = .ok (some k))) →
    let u := instrUse x i
    c.unitBusy u.unit = false → s.sendsFirst n i = false → s.accessHeld n i = false → x.lateAt i u.needs = none → x.notReady c.cycle u.needs = false →
    (∀ r ∈ s.pendingRegs n, r ∉ u.needs ∧ r ∉ u.writes) → (∀ d ∈ x.acks, .g d.toNat ∉ u.needs ∧ .g d.toNat ∉ u.writes) →
    s.visit n = .act (.instr i false)) ∧
  (∀ (s : State) (n : Nat) (r : List Nat) (a : Act), s.visit n = .act a → s.scanRound (n :: r) = ([], some (n, a))) ∧
  (∀ (s : State) (core n : Nat) (r : List Turn) (passes : List (Nat × SlotPass)) (i : Instr),
    s.regq = [] → s.agenda = .core core :: r → s.plat.fatal = false →
    let s0 : State := { s with agenda := r }
    s0.scanRound (s0.roundSlots core) = (passes, some (n, .instr i false)) →
    let s2 := (s0.enterVisit core n passes).fetched n false
    let s1 := s2.consumeRegs n (instrUse (s2.slotAt n) i).needs.contains
    let pre := s1.slotAt n
    ((s2.slotAt n).badRegs = [] → s1 = s2) ∧
    (∀ t, exec i s1 = .next t → step s = .next ((t.issued core n pre (instrUse pre i)).tick core))) ∧
  (∀ (s : State) (off : Nat) (v : BitVec 64) (r : List (Nat × BitVec 64)), s.regq = (off, v) :: r → s.plat.fatal = false →
    step s = .next (({ s with regq := r } : State).regWrite off v))

/-- 02 R25 to R34; 03 R61, R64, R69; 08 R186; 10 R244; 15 R380: words written out from the encodings decode to what they
stand for; a word of zeros, a reserved field that is not 0, and an unlisted opcode decode to nothing. -/
def Obligations.DecodedWords : Prop :=
  decodeTableWord 32 0x04611000 = some (.add 3 1 2 0) ∧ decodeTableWord 32 0x0861FF60 = some (.addImm 3 1 0x3FD8 0) ∧
  decodeTableWord 32 0x20821A00 = some (.fadd 4 2 3 1 0) ∧ decodeTableWord 32 0x80611040 = some (.vadd 3 1 2 0 1 0) ∧
  decodeTableWord 32 0xC4040000 = some (.pass 4 0) ∧ decodeTableWord 32 0xF0208020 = some (.srr 1 0x802 0) ∧
  decodeTableWord 32 0xE8000010 = some (.fence 4 0) ∧ decodeTableWord 32 0 = none ∧ decodeTableWord 32 0xF4000010 = none ∧
  decodeTableWord 32 0xFC000000 = none

/-- 02 R25 to R35: the decoder takes the words of every well-formed instruction from the front of any list of words, answers
that instruction with every operand, and leaves the words after it. -/
def Obligations.DecodeInvertsEncode : Prop :=
  ∀ i : Instr, i.wf = true → ∀ rest : List (BitVec 32), decodeWords (encode i ++ rest) = .ok (i, rest)

/-- 00 R5; 15 R382, R389; 16 R412 and the reset columns of 09 R218, R235, 12 R301, 14 R363, R365, 16 R410, R419: what a cold
reset leaves: no strand, queue, context or command, SRAM zero, and the registers' values, as far as the spec gives them; that PIDTB
is 0 and every core in mode 16 is the model's choice (assumption 3). -/
def Obligations.ResetState : Prop :=
  let s := State.reset
  (∀ n, (s.slotAt n).occ = false) ∧ s.jobs = [] ∧ s.items = [] ∧ s.away = [] ∧ s.mem = [] ∧ s.tlb = [] ∧ s.replies = [] ∧
  s.remote = [] ∧ s.regq = [] ∧ s.links = [] ∧
  s.xvec = 0 ∧ s.pidtb = 0 ∧ s.serrc = 0 ∧ s.skctl = 0 ∧ s.ticks = 0 ∧ s.fabid = 0 ∧
  (∀ t, (s.tile t).opt.state = .dark ∧ (s.tile t).opt.off = true ∧ (s.tile t).opt.pals = Vector.replicate 4 none ∧
    (s.tile t).opt.queue = [] ∧ (s.tile t).opt.oerr = 0 ∧ (s.tile t).pkev = 20 ∧ (s.tile t).pinned = false ∧
    (∀ b, b < 16 → ((s.tile t).bank b).mode = 0)) ∧
  (∀ c, (s.core c).mode = 0 ∧ (s.core c).hold = false ∧ (s.core c).events = []) ∧
  (∀ q, (s.queue q).en = false ∧ (s.queue q).fifo = []) ∧
  s.plat.svc = 0 ∧ s.plat.fatal = false ∧ s.plat.fabv = false ∧ s.plat.cur = 3 ∧ s.plat.scState = 0 ∧
  (∀ p ∈ s.ports.toList, p.en = true ∧ p.skid = false ∧ p.maxw = 4 ∧ p.state = 0) ∧ Memory.wf s.mem = true

/-- The model's memory (00 R2, 04 R94): one list of cells at strictly rising addresses, none equal to what an unlisted address
reads as. Every step, of an instruction or of an event, keeps that form, so that equal memories are equal data. -/
def Obligations.StepKeepsMemoryForm : Prop :=
  ∀ s t : State, Memory.wf s.mem = true → step s = .next t → Memory.wf t.mem = true

/-- 15 R392: nothing but a reset changes a device-fatal device. Where no reset stands on the agenda, nor a write of RESETCTL
among the stores on their way to device registers, a step drops the store or the turn that stands first, with nothing else of
the device changed, and no reset stands there after it; with nothing left the step is the fault `deviceFatal`. -/
def Obligations.DeviceFatalStays : Prop :=
  ∀ s : State, s.plat.fatal = true → (∀ i, Turn.event i ∈ s.agenda → isRecovery i = false) → (∀ e ∈ s.regq, e.1 ≠ 8) →
    (s.regq = [] → s.agenda = [] → step s = .fault .deviceFatal) ∧
    (∀ t, step s = .next t →
      t.plat.fatal = true ∧ (∀ i, Turn.event i ∈ t.agenda → isRecovery i = false) ∧ (∀ e ∈ t.regq, e.1 ≠ 8) ∧
      { t with agenda := s.agenda, regq := s.regq } = s ∧
      t.regq.length + t.agenda.length + 1 = s.regq.length + s.agenda.length)

/-- 02 R36; 05 R123; 13 R339; 15 R381: every instruction and every event answers a next state from every state. A word whose
stall hint has failed has none of its effect: it raises SBHINT, or the earlier of 02 R36 that it meets (ILLOP, VREGN, PRIV,
NOTISS, OPTIM, OPTST of an irrevocable action). A fault raised makes the context fatal where a trap is being handled, waits for
the strand's earlier remote accesses, is held by a logical process, or is taken as a trap. -/
def Sys2Proof.Claim.AnswersAndFaults : Prop :=
  (∀ (i : Instr) (s : State), ∃ t, exec i s = .next t) ∧
  (∀ (i : Instr) (s : State), i.wf = true → s.hart.sbHint = true →
    ∃ c ∈ [Cause.illop, .vregn, .priv, .notiss, .optim, .optst, .sbhint],
      exec i s = .next (s.raiseAt s.hid c.code s.hart.pc 0 false)) ∧
  (∀ (s : State) (code : BitVec 16) (xpc xval : Word),
    let n := s.hid
    let x := s.hart
    let t := s.raiseAt n code xpc xval false
    let f : HeldFault := { cause := code, xpc := xpc, xval := xval, late := false, final := false }
    (x.status.trap = true → (t.job x.pid).causes ≠ []) ∧
    (x.status.trap = false → s.trapWaits n = true → t.hart.bound.late = some f ∧ t.hart.park = none ∧ t.hart.pc = x.pc) ∧
    (x.status.trap = false → s.trapWaits n = false → s.holdsFault x code = true →
      t.hart.lp.held = some f ∧ t.hart.park = some .held ∧ t.hart.pc = x.pc) ∧
    (x.status.trap = false → s.trapWaits n = false → s.holdsFault x code = false →
      t.hart.status.trap = true ∧ t.hart.status.exec = true ∧ t.hart.xcause = code.setWidth 17 ∧ t.hart.xpc = xpc ∧
      t.hart.xval = xval))

/-- 04 R82, R84, R86, R87, R98, R100, R102, R103, R109: the faults of the memory forms, in their order, with the faulting address
as XVAL. Local store: LSRANGE, then MALN. Global memory: MALN, then those of the translation: TNC, then of what the station holds or
walks TUSER, TPERM, TNOMEM. Scratchpad, of a bank that is not switching: SPRANGE, MALN; of a control word SPRO; of a half SPPID,
OWNER; of a bank SPMODE or FIFOSZ, SPPID, OWNER. Contiguous vector forms with an active element are aligned to 256; a gather or
scatter raises the fault of its first faulting element. -/
def Sys2Proof.Claim.MemoryFaults : Prop :=
  (∀ (s : State) (d a b v : BitVec 5) (o : BitVec 11) (p : BitVec 3) (z h : BitVec 2) (r t : BitVec 1),
    Ready s Need.access →
    let em := s.hart.getG b + (o.signExtend 64 <<< z.toNat)
    let ev := s.hart.getG a + s.hart.getG b
    let l := s.hart.active p
    let V : Prop := Ready s { Need.access with vs := [v] } ∧ l ≠ []
    let G : Prop := Ready s { Need.access with vs := [v, b] }
    let Local (i : Instr) (ea : Word) (n : Nat) : Prop :=
      (0x40000 ≤ ea.toNat → exec i s = s.raise .lsrange ea) ∧
      (ea.toNat < 0x40000 → ea.toNat % n ≠ 0 → exec i s = s.raise .maln ea)
    let Global (i : Instr) (ea : Word) (n : Nat) (acc : Acc) : Prop :=
      (ea.toNat % n ≠ 0 → exec i s = s.raise .maln ea) ∧
      (ea.toNat % n = 0 → ∀ c s1,
        s.translate (quadOf (s.hid / 16)) s.hart.pid s.hart.status.exec ea acc = (.error c, s1) → exec i s = s1.raise c ea)
    let Pad (i : Instr) (ea : Word) (write : Bool) (f : SpForm) : Prop := s.bankBusy s.hart.sid ea = none →
      let u := s.bankPass s.hart.sid ea
      ∀ c, u.spCheck { addr := ea, write := write, form := f, pid := u.hart.pid, exec := u.hart.status.exec } = .error c →
        exec i s = u.raise c ea
    let n := 2 ^ z.toNat
    Local (.ldL d b o z h) em n ∧ Local (.stL d b o z h) em n ∧
    Global (.ldG d b o z r h) em n .read ∧ Global (.stG d b o z r h) em n .write ∧
    Global (.stGBNt a b h) (s.hart.getG a) 1 .write ∧ Global (.stGHNt a b h) (s.hart.getG a) 2 .write ∧
    Global (.stGWNt a b h) (s.hart.getG a) 4 .write ∧ Global (.stGDNt a b h) (s.hart.getG a) 8 .write ∧
    Pad (.ldS d b o z r h) em false (.scalar n) ∧ Pad (.stS d b o z r h) em true (.scalar n) ∧
    (V → Local (.vldL v a b p h) ev 256 ∧ Local (.vstL v a b p h) ev 256 ∧ Global (.vldG v a b p r h) ev 256 .read ∧
      Global (.vstG v a b p r t h) ev 256 .write ∧ Pad (.vldS v a b p r h) ev false (.vector (decide (p = 0))) ∧
      Pad (.vstS v a b p r h) ev true (.vector (decide (p = 0)))) ∧
    (G → ∀ c va s1,
      (s.gatherPlaces a b .read l = (.error (c, va), s1) → exec (.vgthG v a b p r h) s = s1.raise c va) ∧
      (s.gatherPlaces a b .write l = (.error (c, va), s1) → exec (.vsctG v a b p r t h) s = s1.raise c va)) ∧
    (G → s.gatherGate a b l = none →
      let u := s.gatherPass a b l
      ∀ c va, (u.gatherCheckS a b false l = some (c, va) → exec (.vgthS v a b p r h) s = u.raise c va) ∧
        (u.gatherCheckS a b true l = some (c, va) → exec (.vsctS v a b p r h) s = u.raise c va))) ∧
  (∀ (s : State) (a b : BitVec 5) (i : Nat) (l : List Nat) (write : Bool), let ea := s.hart.gatherAddr a b i
    (∀ c, s.spCheck (s.spReq ea write (.element s.hart.wb)) = .error c → s.gatherCheckS a b write (i :: l) = some (c, ea)) ∧
    (∀ k, s.spCheck (s.spReq ea write (.element s.hart.wb)) = .ok k →
      s.gatherCheckS a b write (i :: l) = s.gatherCheckS a b write l)) ∧
  (∀ (s s1 : State) (a b : BitVec 5) (i : Nat) (l : List Nat) (acc : Acc), let ea := s.hart.gatherAddr a b i
    (∀ c, s.globalCheck ea s.hart.wb acc = (.error c, s1) → s.gatherPlaces a b acc (i :: l) = (.error (c, ea), s1)) ∧
    (∀ x, s.globalCheck ea s.hart.wb acc = (.ok x, s1) →
      (acc = .write → s1.hart.record.opt = true → x.timed = false →
        s.gatherPlaces a b acc (i :: l) = (.error (.optst, ea), s1)) ∧
      ((acc ≠ .write ∨ s1.hart.record.opt = false ∨ x.timed = true) → ∀ e s2,
        s1.gatherPlaces a b acc l = (.error e, s2) → s.gatherPlaces a b acc (i :: l) = (.error e, s2)))) ∧
  (∀ (s : State) (q : Nat) (pid : BitVec 12) (exec_ : Bool) (va : Word) (acc : Acc),
    (fld va 63 57 ≠ 0 → (s.translate q pid exec_ va acc).1 = .error .tnc) ∧
    (∀ e, fld va 63 57 = 0 → s.tlbFind (stationOf q va.toNat) pid va.toNat = some e →
      let g := s.region (e.base + va.toNat % (e.span * 2 ^ 16))
      let user := exec_ = false ∧ (e.u = false ∨ ∃ off, g = .devreg off)
      let perm := (acc = .write ∧ e.w = false) ∨ (acc = .fetch ∧ e.x = false)
      let none_ := g = .nomem ∨ (g = .hbm ∧ (s.job pid).key = none)
      (user → (s.translate q pid exec_ va acc).1 = .error .tuser) ∧
      (¬user → perm → (s.translate q pid exec_ va acc).1 = .error .tperm) ∧
      (¬user → ¬perm → none_ → (s.translate q pid exec_ va acc).1 = .error .tnomem) ∧
      (¬user → ¬perm → ¬none_ → ∃ x, s.translate q pid exec_ va acc = (.ok x, s)))) ∧
  (∀ (s : State) (r : SpReq),
    (spLoc r.addr = none → s.spCheck r = .error .sprange) ∧
    (∀ l, spLoc r.addr = some l →
      (r.addr.toNat % r.form.align ≠ 0 → s.spCheck r = .error .maln) ∧
      (r.addr.toNat % r.form.align = 0 → r.form ≠ .fullEmpty →
        (∀ t n, l = .ctl t n → (r.form ≠ .scalar 8 ∨ (r.write = true ∧ (r.exec = false ∨ n < 1028))) →
          s.spCheck r = .error .spro) ∧
        (∀ t k sc off, l = .half t k sc off →
          (r.exec = false → (s.tile t).pbPid ≠ r.pid → s.spCheck r = .error .sppid) ∧
          (r.exec = true ∨ (s.tile t).pbPid = r.pid → (s.tile t).halfOwner k ≠ 0 → s.spCheck r = .error .owner)) ∧
        (∀ t b off, l = .sram t b off →
          let k := (s.tile t).bank b
          let sized := r.form = .vector true ∨ r.form = .scalar 8
          (k.mode ≠ 1 → k.mode ≠ 2 → s.spCheck r = .error .spmode) ∧
          (k.mode = 2 → (∃ w, r.form = .element w) → s.spCheck r = .error .spmode) ∧
          (k.mode = 2 → ¬sized → (∀ w, r.form ≠ .element w) → s.spCheck r = .error .fifosz) ∧
          (k.mode = 1 ∨ (k.mode = 2 ∧ sized) →
            (r.exec = false → k.pid ≠ r.pid → s.spCheck r = .error .sppid) ∧
            (r.exec = true ∨ k.pid = r.pid → k.mode = 1 → (s.tile t).ownerOf (slabOf b off) ≠ 0 →
              s.spCheck r = .error .owner))))))

/-- The frame of what completes on the executing strand's registers (03 R54, R74; 08 R186): of the machine only the executing
slot changes, so that every byte of memory reads as before; completing changes of the slot only the PC, loop counters and
stack, the skips of its hint, and what holds the strand at its boundary; and writing a g register, a v register, a mask or
FXF writes nothing else, p0 being written by nothing. -/
def Obligations.CompletionFrame : Prop :=
  (∀ (s : State) (i : Instr) (len : Nat) (h : BitVec 2) (f : Slot → Slot), Completes s i len h f →
    ∃ t, exec i s = .next t ∧ { t with hart := s.hart } = s ∧ t.hart = (f s.hart).finish len h ∧
      (∀ c, memGet t.mem c = memGet s.mem c) ∧ (∀ n, n ≠ s.hid → t.slotAt n = s.slotAt n)) ∧
  (∀ (x : Slot) (len : Nat) (h : BitVec 2), let y := x.finish len h
    y.g = x.g ∧ y.v = x.v ∧ y.p = x.p ∧ y.fxf = x.fxf ∧ y.vxf = x.vxf ∧ y.vw = x.vw ∧ y.vlr = x.vlr ∧ y.vwin = x.vwin ∧
    y.fmt = x.fmt ∧ y.scl = x.scl ∧ y.kbank = x.kbank ∧ y.status = x.status ∧ y.xpc = x.xpc ∧ y.xsw = x.xsw ∧
    y.xcause = x.xcause ∧ y.xval = x.xval ∧ y.xtmp = x.xtmp ∧ y.lp = x.lp ∧ y.pend = x.pend ∧ y.record = x.record) ∧
  (∀ (x : Slot) (d n : BitVec 5) (v : Word), (x.setG d v).getG n = (if n = d then v else x.getG n) ∧
    { x.setG d v with g := x.g } = x) ∧
  (∀ (x : Slot) (d n : BitVec 5) (v : VReg), (x.setV d v).getV n = (if n = d then v else x.getV n) ∧
    { x.setV d v with v := x.v } = x) ∧
  (∀ (x : Slot) (d n : BitVec 3) (m : Mask),
    (x.setP d m).getP n = (if n = d ∧ d ≠ 0 then m else x.getP n) ∧ { x.setP d m with p := x.p } = x) ∧
  (∀ (x : Slot) (fl : BitVec 6), (x.orFxf fl).fxf = x.fxf ||| fl ∧ { x.orFxf fl with fxf := x.fxf } = x)

/-- The frame of the scalar stores (04 R94, R95, R100) of a strand with no access of its own outstanding: the bytes stored are
those at the address that the instruction computes, every byte outside them reads as before, and the strand's registers keep
their values. To local store and plain scratchpad by their flat address, to a host-order page of host memory by the physical
address, to HBM4 by an uncached page as the strand's PID reads it; a store to another page of host memory is sent later, and
no byte changes before. -/
def Obligations.StoreFrame : Prop :=
  ∀ (s s0 : State) (d b : BitVec 5) (o : BitVec 11) (z h : BitVec 2) (x : Xlate), Ready s Need.access →
    Calm s → s.hart.pend = [] → Memory.wf s.mem = true →
    let n := 2 ^ z.toNat
    let ea := s.hart.getG b + (o.signExtend 64 <<< z.toNat)
    let bs := natLe n (s.hart.getG d).toNat
    let Kept (t : State) (at_ : Nat) : Prop :=
      (∀ c, c < at_ ∨ at_ + n ≤ c → memGet t.mem c = memGet s.mem c) ∧ memBytes t.mem at_ n = bs ∧
      t.hart.g = s.hart.g ∧ t.hart.v = s.hart.v ∧ t.hart.p = s.hart.p ∧ t.hart.fxf = s.hart.fxf ∧ t.hart.status = s.hart.status
    ea.toNat % n = 0 →
    (ea.toNat < 2 ^ 18 → ∃ t, exec (.stL d b o z h) s = .next t ∧ Kept t (2 ^ 52 + s.coreNo * 2 ^ 18 + ea.toNat)) ∧
    (∀ t b_ off, SramAt s ea t b_ off → ((s.tile t).bank b_).mode = 1 → (s.tile t).ownerOf (slabOf b_ off) = 0 →
      ∃ u, exec (.stS d b o z 0 h) s = .next u ∧ Kept u (2 ^ 53 + ea.toNat)) ∧
    (s.translate (quadOf (s.hid / 16)) s.hart.pid s.hart.status.exec ea .write = (.ok x, s0) →
      s0.hart = s.hart → s0.hid = s.hid → s0.mem = s.mem → s0.cores = s.cores → s.hart.record.opt = false →
      (∀ w ∈ (s.core s.coreNo).wc, w.strand ≠ s.hart.sid) →
      (s0.region x.pa = .host → x.hostOrd = true → ∃ t, exec (.stG d b o z 0 h) s = .next t ∧ Kept t x.pa) ∧
      (s0.region x.pa = .host → x.hostOrd = false → ∃ t, exec (.stG d b o z 0 h) s = .next t ∧ t.mem = s.mem ∧
        t.hart.g = s.hart.g ∧ t.hart.v = s.hart.v ∧ t.hart.p = s.hart.p ∧
        t.hart.pend.flatMap (fun k => k.elems) = pieces x.pa n 0 bs) ∧
      (s0.region x.pa = .hbm → x.cached = false → ∃ t, exec (.stG d b o z 0 h) s = .next t ∧
        (∀ c, c < x.pa ∨ x.pa + n ≤ c → t.homeByte s.hart.pid c = s0.homeByte s.hart.pid c) ∧
        t.homeBytes s.hart.pid x.pa n = bs ∧ t.hart.g = s.hart.g ∧ t.hart.v = s.hart.v ∧ t.hart.p = s.hart.p))

/-! ## Families in two parts -/

/-- 02 R36; 04 R109; 15 R381: what every instruction answers, and the faults of the memory forms. -/
def Obligations.ExecAnswersNext : Prop := AnswersAndFaults ∧ MemoryFaults
/-- 04 R104 to R106, R143; 13 R325: non-temporal stores, prefetch and cache maintenance, and the stores of logical processes. -/
def Obligations.CacheControl : Prop := CacheForms ∧ LogicalProcessStores
/-- The register forms of 03 R55: on two registers, and on one. -/
def Obligations.IntegerForms : Prop := IntegerRegisterForms ∧ IntegerUnaryForms
/-- 03 R70 to R72, R75: conditional branches, jumps and calls. -/
def Obligations.ControlTransfers : Prop := ConditionalBranches ∧ JumpsAndCalls
/-- 03 R74: beginning a hardware loop, and its loop-end step. -/
def Obligations.HardwareLoops : Prop := LoopsBegin ∧ LoopEndStep
/-- 04 R100, R102: scalar and vector accesses to local store. -/
def Obligations.LocalStore : Prop := LocalStoreScalars ∧ LocalStoreVectors
/-- 04 R81 to R89, R100, R102: scalar and vector accesses to scratchpad. -/
def Obligations.Scratchpad : Prop := ScratchpadScalars ∧ ScratchpadVectors
/-- 04 R102 to R104: vector accesses to global memory, and what a store does with each element. -/
def Obligations.GlobalVectorAccesses : Prop := GlobalVectors ∧ VectorStoreElements
/-- 04 R82, R85: `bankcfg`, and the switch it asks for. -/
def Obligations.BankSwitches : Prop := BankModes ∧ BankSwitchPerformed
/-- 06 R140, R141: atomics, and reductions. -/
def Obligations.AtomicsAndReductions : Prop := Atomics ∧ Reductions
/-- 06 R146, R147: reservations, and the events of their queues. -/
def Obligations.ReservedLines : Prop := Reservations ∧ ReservationEvents
/-- 06 R152, R153: owner codes, and the group barrier. -/
def Obligations.OwnersAndBarrier : Prop := Owners ∧ GroupBarrier
/-- 08 R186, R195, R196: comparisons, and masks. -/
def Obligations.ComparesAndMasks : Prop := VectorCompares ∧ MaskForms
/-- 08: moves, permutations and shapes, and conversions. -/
def Obligations.VectorMovesAndConversions : Prop := VectorMovesAndShapes ∧ VectorConversions
/-- 04 R105 to R108: copy commands, and the copy engine. -/
def Obligations.Copies : Prop := CopyInstructions ∧ CopyEngine
/-- 11: `xmm` commands, and the matrix unit with the leave it is granted. -/
def Obligations.MatrixUnit : Prop := MatrixInstructions ∧ MatrixUnitAndLeave
/-- 09: the palette and decompression engines, and the states of an optical tile. -/
def Obligations.OpticalTiles : Prop := PaletteEngines ∧ OpticalTileStates
/-- 10: optical passes from their start to their end. -/
def Obligations.Passes : Prop := PassesStartAndEnter ∧ PassesWriteAndEnd
/-- 14 R368 to R374: collectives. -/
def Obligations.Collectives : Prop := CollectiveInstructions ∧ CollectiveEvents
/-- 12 R296 to R308: placement, cancels and pre-emption. -/
def Obligations.Scheduling : Prop := PlacementEvents ∧ CancelAndPreemptEvents
/-- 13 R316, R320, R326 to R330: arrival of messages, and rollback. -/
def Obligations.MessagesArriveAndRollBack : Prop := MessageEvents ∧ Rollback
/-- 15 R379, R380: the system-register instructions, and the registers they reach. -/
def Obligations.SystemRegisters : Prop := SystemRegisterInstructions ∧ SystemRegisterMap
/-- 01 R7; 14 R358 to R367: links, and the laser. -/
def Obligations.LinksAndLaser : Prop := LinkEvents ∧ LaserEvents
/-- 14 R349 to R356: remote accesses, and migration. -/
def Obligations.RemoteAndMigration : Prop := RemoteEvents ∧ MigrationEvents
end
end

