-- ==== Sys2Proof/Laws/State.lean ====
section
/-!
SUPPORT. What every update of the state and of a slot leaves: one lemma a field, so that no proof unfolds a record update.
-/

namespace Sys2Proof.Machine

@[simp] theorem State.modHart_hid (s : State) (f : Slot → Slot) : (s.modHart f).hid = s.hid := rfl
@[simp] theorem State.modHart_others (s : State) (f : Slot → Slot) : (s.modHart f).others = s.others := rfl
@[simp] theorem State.modHart_cores (s : State) (f : Slot → Slot) : (s.modHart f).cores = s.cores := rfl
@[simp] theorem State.modHart_tiles (s : State) (f : Slot → Slot) : (s.modHart f).tiles = s.tiles := rfl
@[simp] theorem State.modHart_mem (s : State) (f : Slot → Slot) : (s.modHart f).mem = s.mem := rfl
@[simp] theorem State.modHart_sectors (s : State) (f : Slot → Slot) : (s.modHart f).sectors = s.sectors := rfl
@[simp] theorem State.modHart_tlb (s : State) (f : Slot → Slot) : (s.modHart f).tlb = s.tlb := rfl
@[simp] theorem State.modHart_pidtb (s : State) (f : Slot → Slot) : (s.modHart f).pidtb = s.pidtb := rfl
@[simp] theorem State.modHart_xvec (s : State) (f : Slot → Slot) : (s.modHart f).xvec = s.xvec := rfl
@[simp] theorem State.modHart_profbuf (s : State) (f : Slot → Slot) : (s.modHart f).profbuf = s.profbuf := rfl
@[simp] theorem State.modHart_profPos (s : State) (f : Slot → Slot) : (s.modHart f).profPos = s.profPos := rfl
@[simp] theorem State.modHart_profWrap (s : State) (f : Slot → Slot) : (s.modHart f).profWrap = s.profWrap := rfl
@[simp] theorem State.modHart_corr (s : State) (f : Slot → Slot) : (s.modHart f).corr = s.corr := rfl
@[simp] theorem State.modHart_uncorr (s : State) (f : Slot → Slot) : (s.modHart f).uncorr = s.uncorr := rfl
@[simp] theorem State.modHart_poison (s : State) (f : Slot → Slot) : (s.modHart f).poison = s.poison := rfl
@[simp] theorem State.modHart_dumpQ (s : State) (f : Slot → Slot) : (s.modHart f).dumpQ = s.dumpQ := rfl
@[simp] theorem State.modHart_jobs (s : State) (f : Slot → Slot) : (s.modHart f).jobs = s.jobs := rfl
@[simp] theorem State.modHart_items (s : State) (f : Slot → Slot) : (s.modHart f).items = s.items := rfl
@[simp] theorem State.modHart_away (s : State) (f : Slot → Slot) : (s.modHart f).away = s.away := rfl
@[simp] theorem State.modHart_rsvqs (s : State) (f : Slot → Slot) : (s.modHart f).rsvqs = s.rsvqs := rfl
@[simp] theorem State.modHart_barriers (s : State) (f : Slot → Slot) : (s.modHart f).barriers = s.barriers := rfl
@[simp] theorem State.modHart_deferred (s : State) (f : Slot → Slot) : (s.modHart f).deferred = s.deferred := rfl
@[simp] theorem State.modHart_cancels (s : State) (f : Slot → Slot) : (s.modHart f).cancels = s.cancels := rfl
@[simp] theorem State.modHart_preempts (s : State) (f : Slot → Slot) : (s.modHart f).preempts = s.preempts := rfl
@[simp] theorem State.modHart_known (s : State) (f : Slot → Slot) : (s.modHart f).known = s.known := rfl
@[simp] theorem State.modHart_transit (s : State) (f : Slot → Slot) : (s.modHart f).transit = s.transit := rfl
@[simp] theorem State.modHart_prefetch (s : State) (f : Slot → Slot) : (s.modHart f).prefetch = s.prefetch := rfl
@[simp] theorem State.modHart_hostAdds (s : State) (f : Slot → Slot) : (s.modHart f).hostAdds = s.hostAdds := rfl
@[simp] theorem State.modHart_varnNow (s : State) (f : Slot → Slot) : (s.modHart f).varnNow = s.varnNow := rfl
@[simp] theorem State.modHart_remote (s : State) (f : Slot → Slot) : (s.modHart f).remote = s.remote := rfl
@[simp] theorem State.modHart_fabReply (s : State) (f : Slot → Slot) : (s.modHart f).fabReply = s.fabReply := rfl
@[simp] theorem State.modHart_farCancels (s : State) (f : Slot → Slot) : (s.modHart f).farCancels = s.farCancels := rfl
@[simp] theorem State.modHart_reroute (s : State) (f : Slot → Slot) : (s.modHart f).reroute = s.reroute := rfl
@[simp] theorem State.modHart_migOut (s : State) (f : Slot → Slot) : (s.modHart f).migOut = s.migOut := rfl
@[simp] theorem State.modHart_nextTag (s : State) (f : Slot → Slot) : (s.modHart f).nextTag = s.nextTag := rfl
@[simp] theorem State.modHart_replies (s : State) (f : Slot → Slot) : (s.modHart f).replies = s.replies := rfl
@[simp] theorem State.modHart_colls (s : State) (f : Slot → Slot) : (s.modHart f).colls = s.colls := rfl
@[simp] theorem State.modHart_collQ (s : State) (f : Slot → Slot) : (s.modHart f).collQ = s.collQ := rfl
@[simp] theorem State.modHart_links (s : State) (f : Slot → Slot) : (s.modHart f).links = s.links := rfl
@[simp] theorem State.modHart_table (s : State) (f : Slot → Slot) : (s.modHart f).table = s.table := rfl
@[simp] theorem State.modHart_agreed (s : State) (f : Slot → Slot) : (s.modHart f).agreed = s.agreed := rfl
@[simp] theorem State.modHart_changing (s : State) (f : Slot → Slot) : (s.modHart f).changing = s.changing := rfl
@[simp] theorem State.modHart_lastRec (s : State) (f : Slot → Slot) : (s.modHart f).lastRec = s.lastRec := rfl
@[simp] theorem State.modHart_ports (s : State) (f : Slot → Slot) : (s.modHart f).ports = s.ports := rfl
@[simp] theorem State.modHart_queues (s : State) (f : Slot → Slot) : (s.modHart f).queues = s.queues := rfl
@[simp] theorem State.modHart_sketch (s : State) (f : Slot → Slot) : (s.modHart f).sketch = s.sketch := rfl
@[simp] theorem State.modHart_skHead (s : State) (f : Slot → Slot) : (s.modHart f).skHead = s.skHead := rfl
@[simp] theorem State.modHart_skFreeze (s : State) (f : Slot → Slot) : (s.modHart f).skFreeze = s.skFreeze := rfl
@[simp] theorem State.modHart_skFrozen (s : State) (f : Slot → Slot) : (s.modHart f).skFrozen = s.skFrozen := rfl
@[simp] theorem State.modHart_ticks (s : State) (f : Slot → Slot) : (s.modHart f).ticks = s.ticks := rfl
@[simp] theorem State.modHart_plat (s : State) (f : Slot → Slot) : (s.modHart f).plat = s.plat := rfl
@[simp] theorem State.modHart_agenda (s : State) (f : Slot → Slot) : (s.modHart f).agenda = s.agenda := rfl
@[simp] theorem State.modHart_regq (s : State) (f : Slot → Slot) : (s.modHart f).regq = s.regq := rfl
@[simp] theorem State.modHart_freeCtr (s : State) (f : Slot → Slot) : (s.modHart f).freeCtr = s.freeCtr := rfl

@[simp] theorem State.modHart_hart (s : State) (f : Slot → Slot) : (s.modHart f).hart = f s.hart := rfl

@[simp] theorem State.modCore_hid (s : State) (n : Nat) (f : Core → Core) : (s.modCore n f).hid = s.hid := rfl
@[simp] theorem State.modCore_hart (s : State) (n : Nat) (f : Core → Core) : (s.modCore n f).hart = s.hart := rfl
@[simp] theorem State.modCore_others (s : State) (n : Nat) (f : Core → Core) : (s.modCore n f).others = s.others := rfl
@[simp] theorem State.modCore_tiles (s : State) (n : Nat) (f : Core → Core) : (s.modCore n f).tiles = s.tiles := rfl
@[simp] theorem State.modCore_mem (s : State) (n : Nat) (f : Core → Core) : (s.modCore n f).mem = s.mem := rfl
@[simp] theorem State.modCore_sectors (s : State) (n : Nat) (f : Core → Core) : (s.modCore n f).sectors = s.sectors := rfl
@[simp] theorem State.modCore_tlb (s : State) (n : Nat) (f : Core → Core) : (s.modCore n f).tlb = s.tlb := rfl
@[simp] theorem State.modCore_pidtb (s : State) (n : Nat) (f : Core → Core) : (s.modCore n f).pidtb = s.pidtb := rfl
@[simp] theorem State.modCore_xvec (s : State) (n : Nat) (f : Core → Core) : (s.modCore n f).xvec = s.xvec := rfl
@[simp] theorem State.modCore_profbuf (s : State) (n : Nat) (f : Core → Core) : (s.modCore n f).profbuf = s.profbuf := rfl
@[simp] theorem State.modCore_profPos (s : State) (n : Nat) (f : Core → Core) : (s.modCore n f).profPos = s.profPos := rfl
@[simp] theorem State.modCore_profWrap (s : State) (n : Nat) (f : Core → Core) : (s.modCore n f).profWrap = s.profWrap := rfl
@[simp] theorem State.modCore_corr (s : State) (n : Nat) (f : Core → Core) : (s.modCore n f).corr = s.corr := rfl
@[simp] theorem State.modCore_uncorr (s : State) (n : Nat) (f : Core → Core) : (s.modCore n f).uncorr = s.uncorr := rfl
@[simp] theorem State.modCore_poison (s : State) (n : Nat) (f : Core → Core) : (s.modCore n f).poison = s.poison := rfl
@[simp] theorem State.modCore_dumpQ (s : State) (n : Nat) (f : Core → Core) : (s.modCore n f).dumpQ = s.dumpQ := rfl
@[simp] theorem State.modCore_jobs (s : State) (n : Nat) (f : Core → Core) : (s.modCore n f).jobs = s.jobs := rfl
@[simp] theorem State.modCore_items (s : State) (n : Nat) (f : Core → Core) : (s.modCore n f).items = s.items := rfl
@[simp] theorem State.modCore_away (s : State) (n : Nat) (f : Core → Core) : (s.modCore n f).away = s.away := rfl
@[simp] theorem State.modCore_rsvqs (s : State) (n : Nat) (f : Core → Core) : (s.modCore n f).rsvqs = s.rsvqs := rfl
@[simp] theorem State.modCore_barriers (s : State) (n : Nat) (f : Core → Core) : (s.modCore n f).barriers = s.barriers := rfl
@[simp] theorem State.modCore_deferred (s : State) (n : Nat) (f : Core → Core) : (s.modCore n f).deferred = s.deferred := rfl
@[simp] theorem State.modCore_cancels (s : State) (n : Nat) (f : Core → Core) : (s.modCore n f).cancels = s.cancels := rfl
@[simp] theorem State.modCore_preempts (s : State) (n : Nat) (f : Core → Core) : (s.modCore n f).preempts = s.preempts := rfl
@[simp] theorem State.modCore_known (s : State) (n : Nat) (f : Core → Core) : (s.modCore n f).known = s.known := rfl
@[simp] theorem State.modCore_transit (s : State) (n : Nat) (f : Core → Core) : (s.modCore n f).transit = s.transit := rfl
@[simp] theorem State.modCore_prefetch (s : State) (n : Nat) (f : Core → Core) : (s.modCore n f).prefetch = s.prefetch := rfl
@[simp] theorem State.modCore_hostAdds (s : State) (n : Nat) (f : Core → Core) : (s.modCore n f).hostAdds = s.hostAdds := rfl
@[simp] theorem State.modCore_varnNow (s : State) (n : Nat) (f : Core → Core) : (s.modCore n f).varnNow = s.varnNow := rfl
@[simp] theorem State.modCore_remote (s : State) (n : Nat) (f : Core → Core) : (s.modCore n f).remote = s.remote := rfl
@[simp] theorem State.modCore_fabReply (s : State) (n : Nat) (f : Core → Core) : (s.modCore n f).fabReply = s.fabReply := rfl
@[simp] theorem State.modCore_farCancels (s : State) (n : Nat) (f : Core → Core) : (s.modCore n f).farCancels = s.farCancels := rfl
@[simp] theorem State.modCore_reroute (s : State) (n : Nat) (f : Core → Core) : (s.modCore n f).reroute = s.reroute := rfl
@[simp] theorem State.modCore_migOut (s : State) (n : Nat) (f : Core → Core) : (s.modCore n f).migOut = s.migOut := rfl
@[simp] theorem State.modCore_nextTag (s : State) (n : Nat) (f : Core → Core) : (s.modCore n f).nextTag = s.nextTag := rfl
@[simp] theorem State.modCore_replies (s : State) (n : Nat) (f : Core → Core) : (s.modCore n f).replies = s.replies := rfl
@[simp] theorem State.modCore_colls (s : State) (n : Nat) (f : Core → Core) : (s.modCore n f).colls = s.colls := rfl
@[simp] theorem State.modCore_collQ (s : State) (n : Nat) (f : Core → Core) : (s.modCore n f).collQ = s.collQ := rfl
@[simp] theorem State.modCore_links (s : State) (n : Nat) (f : Core → Core) : (s.modCore n f).links = s.links := rfl
@[simp] theorem State.modCore_table (s : State) (n : Nat) (f : Core → Core) : (s.modCore n f).table = s.table := rfl
@[simp] theorem State.modCore_agreed (s : State) (n : Nat) (f : Core → Core) : (s.modCore n f).agreed = s.agreed := rfl
@[simp] theorem State.modCore_changing (s : State) (n : Nat) (f : Core → Core) : (s.modCore n f).changing = s.changing := rfl
@[simp] theorem State.modCore_lastRec (s : State) (n : Nat) (f : Core → Core) : (s.modCore n f).lastRec = s.lastRec := rfl
@[simp] theorem State.modCore_ports (s : State) (n : Nat) (f : Core → Core) : (s.modCore n f).ports = s.ports := rfl
@[simp] theorem State.modCore_queues (s : State) (n : Nat) (f : Core → Core) : (s.modCore n f).queues = s.queues := rfl
@[simp] theorem State.modCore_sketch (s : State) (n : Nat) (f : Core → Core) : (s.modCore n f).sketch = s.sketch := rfl
@[simp] theorem State.modCore_skHead (s : State) (n : Nat) (f : Core → Core) : (s.modCore n f).skHead = s.skHead := rfl
@[simp] theorem State.modCore_skFreeze (s : State) (n : Nat) (f : Core → Core) : (s.modCore n f).skFreeze = s.skFreeze := rfl
@[simp] theorem State.modCore_skFrozen (s : State) (n : Nat) (f : Core → Core) : (s.modCore n f).skFrozen = s.skFrozen := rfl
@[simp] theorem State.modCore_ticks (s : State) (n : Nat) (f : Core → Core) : (s.modCore n f).ticks = s.ticks := rfl
@[simp] theorem State.modCore_plat (s : State) (n : Nat) (f : Core → Core) : (s.modCore n f).plat = s.plat := rfl
@[simp] theorem State.modCore_agenda (s : State) (n : Nat) (f : Core → Core) : (s.modCore n f).agenda = s.agenda := rfl
@[simp] theorem State.modCore_regq (s : State) (n : Nat) (f : Core → Core) : (s.modCore n f).regq = s.regq := rfl
@[simp] theorem State.modCore_freeCtr (s : State) (n : Nat) (f : Core → Core) : (s.modCore n f).freeCtr = s.freeCtr := rfl

@[simp] theorem State.modTile_hid (s : State) (n : Nat) (f : Tile → Tile) : (s.modTile n f).hid = s.hid := rfl
@[simp] theorem State.modTile_hart (s : State) (n : Nat) (f : Tile → Tile) : (s.modTile n f).hart = s.hart := rfl
@[simp] theorem State.modTile_others (s : State) (n : Nat) (f : Tile → Tile) : (s.modTile n f).others = s.others := rfl
@[simp] theorem State.modTile_cores (s : State) (n : Nat) (f : Tile → Tile) : (s.modTile n f).cores = s.cores := rfl
@[simp] theorem State.modTile_mem (s : State) (n : Nat) (f : Tile → Tile) : (s.modTile n f).mem = s.mem := rfl
@[simp] theorem State.modTile_sectors (s : State) (n : Nat) (f : Tile → Tile) : (s.modTile n f).sectors = s.sectors := rfl
@[simp] theorem State.modTile_tlb (s : State) (n : Nat) (f : Tile → Tile) : (s.modTile n f).tlb = s.tlb := rfl
@[simp] theorem State.modTile_pidtb (s : State) (n : Nat) (f : Tile → Tile) : (s.modTile n f).pidtb = s.pidtb := rfl
@[simp] theorem State.modTile_xvec (s : State) (n : Nat) (f : Tile → Tile) : (s.modTile n f).xvec = s.xvec := rfl
@[simp] theorem State.modTile_profbuf (s : State) (n : Nat) (f : Tile → Tile) : (s.modTile n f).profbuf = s.profbuf := rfl
@[simp] theorem State.modTile_profPos (s : State) (n : Nat) (f : Tile → Tile) : (s.modTile n f).profPos = s.profPos := rfl
@[simp] theorem State.modTile_profWrap (s : State) (n : Nat) (f : Tile → Tile) : (s.modTile n f).profWrap = s.profWrap := rfl
@[simp] theorem State.modTile_corr (s : State) (n : Nat) (f : Tile → Tile) : (s.modTile n f).corr = s.corr := rfl
@[simp] theorem State.modTile_uncorr (s : State) (n : Nat) (f : Tile → Tile) : (s.modTile n f).uncorr = s.uncorr := rfl
@[simp] theorem State.modTile_poison (s : State) (n : Nat) (f : Tile → Tile) : (s.modTile n f).poison = s.poison := rfl
@[simp] theorem State.modTile_dumpQ (s : State) (n : Nat) (f : Tile → Tile) : (s.modTile n f).dumpQ = s.dumpQ := rfl
@[simp] theorem State.modTile_jobs (s : State) (n : Nat) (f : Tile → Tile) : (s.modTile n f).jobs = s.jobs := rfl
@[simp] theorem State.modTile_items (s : State) (n : Nat) (f : Tile → Tile) : (s.modTile n f).items = s.items := rfl
@[simp] theorem State.modTile_away (s : State) (n : Nat) (f : Tile → Tile) : (s.modTile n f).away = s.away := rfl
@[simp] theorem State.modTile_rsvqs (s : State) (n : Nat) (f : Tile → Tile) : (s.modTile n f).rsvqs = s.rsvqs := rfl
@[simp] theorem State.modTile_barriers (s : State) (n : Nat) (f : Tile → Tile) : (s.modTile n f).barriers = s.barriers := rfl
@[simp] theorem State.modTile_deferred (s : State) (n : Nat) (f : Tile → Tile) : (s.modTile n f).deferred = s.deferred := rfl
@[simp] theorem State.modTile_cancels (s : State) (n : Nat) (f : Tile → Tile) : (s.modTile n f).cancels = s.cancels := rfl
@[simp] theorem State.modTile_preempts (s : State) (n : Nat) (f : Tile → Tile) : (s.modTile n f).preempts = s.preempts := rfl
@[simp] theorem State.modTile_known (s : State) (n : Nat) (f : Tile → Tile) : (s.modTile n f).known = s.known := rfl
@[simp] theorem State.modTile_transit (s : State) (n : Nat) (f : Tile → Tile) : (s.modTile n f).transit = s.transit := rfl
@[simp] theorem State.modTile_prefetch (s : State) (n : Nat) (f : Tile → Tile) : (s.modTile n f).prefetch = s.prefetch := rfl
@[simp] theorem State.modTile_hostAdds (s : State) (n : Nat) (f : Tile → Tile) : (s.modTile n f).hostAdds = s.hostAdds := rfl
@[simp] theorem State.modTile_varnNow (s : State) (n : Nat) (f : Tile → Tile) : (s.modTile n f).varnNow = s.varnNow := rfl
@[simp] theorem State.modTile_remote (s : State) (n : Nat) (f : Tile → Tile) : (s.modTile n f).remote = s.remote := rfl
@[simp] theorem State.modTile_fabReply (s : State) (n : Nat) (f : Tile → Tile) : (s.modTile n f).fabReply = s.fabReply := rfl
@[simp] theorem State.modTile_farCancels (s : State) (n : Nat) (f : Tile → Tile) : (s.modTile n f).farCancels = s.farCancels := rfl
@[simp] theorem State.modTile_reroute (s : State) (n : Nat) (f : Tile → Tile) : (s.modTile n f).reroute = s.reroute := rfl
@[simp] theorem State.modTile_migOut (s : State) (n : Nat) (f : Tile → Tile) : (s.modTile n f).migOut = s.migOut := rfl
@[simp] theorem State.modTile_nextTag (s : State) (n : Nat) (f : Tile → Tile) : (s.modTile n f).nextTag = s.nextTag := rfl
@[simp] theorem State.modTile_replies (s : State) (n : Nat) (f : Tile → Tile) : (s.modTile n f).replies = s.replies := rfl
@[simp] theorem State.modTile_colls (s : State) (n : Nat) (f : Tile → Tile) : (s.modTile n f).colls = s.colls := rfl
@[simp] theorem State.modTile_collQ (s : State) (n : Nat) (f : Tile → Tile) : (s.modTile n f).collQ = s.collQ := rfl
@[simp] theorem State.modTile_links (s : State) (n : Nat) (f : Tile → Tile) : (s.modTile n f).links = s.links := rfl
@[simp] theorem State.modTile_table (s : State) (n : Nat) (f : Tile → Tile) : (s.modTile n f).table = s.table := rfl
@[simp] theorem State.modTile_agreed (s : State) (n : Nat) (f : Tile → Tile) : (s.modTile n f).agreed = s.agreed := rfl
@[simp] theorem State.modTile_changing (s : State) (n : Nat) (f : Tile → Tile) : (s.modTile n f).changing = s.changing := rfl
@[simp] theorem State.modTile_lastRec (s : State) (n : Nat) (f : Tile → Tile) : (s.modTile n f).lastRec = s.lastRec := rfl
@[simp] theorem State.modTile_ports (s : State) (n : Nat) (f : Tile → Tile) : (s.modTile n f).ports = s.ports := rfl
@[simp] theorem State.modTile_queues (s : State) (n : Nat) (f : Tile → Tile) : (s.modTile n f).queues = s.queues := rfl
@[simp] theorem State.modTile_sketch (s : State) (n : Nat) (f : Tile → Tile) : (s.modTile n f).sketch = s.sketch := rfl
@[simp] theorem State.modTile_skHead (s : State) (n : Nat) (f : Tile → Tile) : (s.modTile n f).skHead = s.skHead := rfl
@[simp] theorem State.modTile_skFreeze (s : State) (n : Nat) (f : Tile → Tile) : (s.modTile n f).skFreeze = s.skFreeze := rfl
@[simp] theorem State.modTile_skFrozen (s : State) (n : Nat) (f : Tile → Tile) : (s.modTile n f).skFrozen = s.skFrozen := rfl
@[simp] theorem State.modTile_ticks (s : State) (n : Nat) (f : Tile → Tile) : (s.modTile n f).ticks = s.ticks := rfl
@[simp] theorem State.modTile_plat (s : State) (n : Nat) (f : Tile → Tile) : (s.modTile n f).plat = s.plat := rfl
@[simp] theorem State.modTile_agenda (s : State) (n : Nat) (f : Tile → Tile) : (s.modTile n f).agenda = s.agenda := rfl
@[simp] theorem State.modTile_regq (s : State) (n : Nat) (f : Tile → Tile) : (s.modTile n f).regq = s.regq := rfl
@[simp] theorem State.modTile_freeCtr (s : State) (n : Nat) (f : Tile → Tile) : (s.modTile n f).freeCtr = s.freeCtr := rfl

@[simp] theorem State.modOpt_hid (s : State) (n : Nat) (f : Optics → Optics) : (s.modOpt n f).hid = s.hid := rfl
@[simp] theorem State.modOpt_hart (s : State) (n : Nat) (f : Optics → Optics) : (s.modOpt n f).hart = s.hart := rfl
@[simp] theorem State.modOpt_others (s : State) (n : Nat) (f : Optics → Optics) : (s.modOpt n f).others = s.others := rfl
@[simp] theorem State.modOpt_cores (s : State) (n : Nat) (f : Optics → Optics) : (s.modOpt n f).cores = s.cores := rfl
@[simp] theorem State.modOpt_mem (s : State) (n : Nat) (f : Optics → Optics) : (s.modOpt n f).mem = s.mem := rfl
@[simp] theorem State.modOpt_sectors (s : State) (n : Nat) (f : Optics → Optics) : (s.modOpt n f).sectors = s.sectors := rfl
@[simp] theorem State.modOpt_tlb (s : State) (n : Nat) (f : Optics → Optics) : (s.modOpt n f).tlb = s.tlb := rfl
@[simp] theorem State.modOpt_pidtb (s : State) (n : Nat) (f : Optics → Optics) : (s.modOpt n f).pidtb = s.pidtb := rfl
@[simp] theorem State.modOpt_xvec (s : State) (n : Nat) (f : Optics → Optics) : (s.modOpt n f).xvec = s.xvec := rfl
@[simp] theorem State.modOpt_profbuf (s : State) (n : Nat) (f : Optics → Optics) : (s.modOpt n f).profbuf = s.profbuf := rfl
@[simp] theorem State.modOpt_profPos (s : State) (n : Nat) (f : Optics → Optics) : (s.modOpt n f).profPos = s.profPos := rfl
@[simp] theorem State.modOpt_profWrap (s : State) (n : Nat) (f : Optics → Optics) : (s.modOpt n f).profWrap = s.profWrap := rfl
@[simp] theorem State.modOpt_corr (s : State) (n : Nat) (f : Optics → Optics) : (s.modOpt n f).corr = s.corr := rfl
@[simp] theorem State.modOpt_uncorr (s : State) (n : Nat) (f : Optics → Optics) : (s.modOpt n f).uncorr = s.uncorr := rfl
@[simp] theorem State.modOpt_poison (s : State) (n : Nat) (f : Optics → Optics) : (s.modOpt n f).poison = s.poison := rfl
@[simp] theorem State.modOpt_dumpQ (s : State) (n : Nat) (f : Optics → Optics) : (s.modOpt n f).dumpQ = s.dumpQ := rfl
@[simp] theorem State.modOpt_jobs (s : State) (n : Nat) (f : Optics → Optics) : (s.modOpt n f).jobs = s.jobs := rfl
@[simp] theorem State.modOpt_items (s : State) (n : Nat) (f : Optics → Optics) : (s.modOpt n f).items = s.items := rfl
@[simp] theorem State.modOpt_away (s : State) (n : Nat) (f : Optics → Optics) : (s.modOpt n f).away = s.away := rfl
@[simp] theorem State.modOpt_rsvqs (s : State) (n : Nat) (f : Optics → Optics) : (s.modOpt n f).rsvqs = s.rsvqs := rfl
@[simp] theorem State.modOpt_barriers (s : State) (n : Nat) (f : Optics → Optics) : (s.modOpt n f).barriers = s.barriers := rfl
@[simp] theorem State.modOpt_deferred (s : State) (n : Nat) (f : Optics → Optics) : (s.modOpt n f).deferred = s.deferred := rfl
@[simp] theorem State.modOpt_cancels (s : State) (n : Nat) (f : Optics → Optics) : (s.modOpt n f).cancels = s.cancels := rfl
@[simp] theorem State.modOpt_preempts (s : State) (n : Nat) (f : Optics → Optics) : (s.modOpt n f).preempts = s.preempts := rfl
@[simp] theorem State.modOpt_known (s : State) (n : Nat) (f : Optics → Optics) : (s.modOpt n f).known = s.known := rfl
@[simp] theorem State.modOpt_transit (s : State) (n : Nat) (f : Optics → Optics) : (s.modOpt n f).transit = s.transit := rfl
@[simp] theorem State.modOpt_prefetch (s : State) (n : Nat) (f : Optics → Optics) : (s.modOpt n f).prefetch = s.prefetch := rfl
@[simp] theorem State.modOpt_hostAdds (s : State) (n : Nat) (f : Optics → Optics) : (s.modOpt n f).hostAdds = s.hostAdds := rfl
@[simp] theorem State.modOpt_varnNow (s : State) (n : Nat) (f : Optics → Optics) : (s.modOpt n f).varnNow = s.varnNow := rfl
@[simp] theorem State.modOpt_remote (s : State) (n : Nat) (f : Optics → Optics) : (s.modOpt n f).remote = s.remote := rfl
@[simp] theorem State.modOpt_fabReply (s : State) (n : Nat) (f : Optics → Optics) : (s.modOpt n f).fabReply = s.fabReply := rfl
@[simp] theorem State.modOpt_farCancels (s : State) (n : Nat) (f : Optics → Optics) : (s.modOpt n f).farCancels = s.farCancels := rfl
@[simp] theorem State.modOpt_reroute (s : State) (n : Nat) (f : Optics → Optics) : (s.modOpt n f).reroute = s.reroute := rfl
@[simp] theorem State.modOpt_migOut (s : State) (n : Nat) (f : Optics → Optics) : (s.modOpt n f).migOut = s.migOut := rfl
@[simp] theorem State.modOpt_nextTag (s : State) (n : Nat) (f : Optics → Optics) : (s.modOpt n f).nextTag = s.nextTag := rfl
@[simp] theorem State.modOpt_replies (s : State) (n : Nat) (f : Optics → Optics) : (s.modOpt n f).replies = s.replies := rfl
@[simp] theorem State.modOpt_colls (s : State) (n : Nat) (f : Optics → Optics) : (s.modOpt n f).colls = s.colls := rfl
@[simp] theorem State.modOpt_collQ (s : State) (n : Nat) (f : Optics → Optics) : (s.modOpt n f).collQ = s.collQ := rfl
@[simp] theorem State.modOpt_links (s : State) (n : Nat) (f : Optics → Optics) : (s.modOpt n f).links = s.links := rfl
@[simp] theorem State.modOpt_table (s : State) (n : Nat) (f : Optics → Optics) : (s.modOpt n f).table = s.table := rfl
@[simp] theorem State.modOpt_agreed (s : State) (n : Nat) (f : Optics → Optics) : (s.modOpt n f).agreed = s.agreed := rfl
@[simp] theorem State.modOpt_changing (s : State) (n : Nat) (f : Optics → Optics) : (s.modOpt n f).changing = s.changing := rfl
@[simp] theorem State.modOpt_lastRec (s : State) (n : Nat) (f : Optics → Optics) : (s.modOpt n f).lastRec = s.lastRec := rfl
@[simp] theorem State.modOpt_ports (s : State) (n : Nat) (f : Optics → Optics) : (s.modOpt n f).ports = s.ports := rfl
@[simp] theorem State.modOpt_queues (s : State) (n : Nat) (f : Optics → Optics) : (s.modOpt n f).queues = s.queues := rfl
@[simp] theorem State.modOpt_sketch (s : State) (n : Nat) (f : Optics → Optics) : (s.modOpt n f).sketch = s.sketch := rfl
@[simp] theorem State.modOpt_skHead (s : State) (n : Nat) (f : Optics → Optics) : (s.modOpt n f).skHead = s.skHead := rfl
@[simp] theorem State.modOpt_skFreeze (s : State) (n : Nat) (f : Optics → Optics) : (s.modOpt n f).skFreeze = s.skFreeze := rfl
@[simp] theorem State.modOpt_skFrozen (s : State) (n : Nat) (f : Optics → Optics) : (s.modOpt n f).skFrozen = s.skFrozen := rfl
@[simp] theorem State.modOpt_ticks (s : State) (n : Nat) (f : Optics → Optics) : (s.modOpt n f).ticks = s.ticks := rfl
@[simp] theorem State.modOpt_plat (s : State) (n : Nat) (f : Optics → Optics) : (s.modOpt n f).plat = s.plat := rfl
@[simp] theorem State.modOpt_agenda (s : State) (n : Nat) (f : Optics → Optics) : (s.modOpt n f).agenda = s.agenda := rfl
@[simp] theorem State.modOpt_regq (s : State) (n : Nat) (f : Optics → Optics) : (s.modOpt n f).regq = s.regq := rfl
@[simp] theorem State.modOpt_freeCtr (s : State) (n : Nat) (f : Optics → Optics) : (s.modOpt n f).freeCtr = s.freeCtr := rfl

@[simp] theorem State.modJob_hid (s : State) (p : BitVec 12) (f : Job → Job) : (s.modJob p f).hid = s.hid := rfl
@[simp] theorem State.modJob_hart (s : State) (p : BitVec 12) (f : Job → Job) : (s.modJob p f).hart = s.hart := rfl
@[simp] theorem State.modJob_others (s : State) (p : BitVec 12) (f : Job → Job) : (s.modJob p f).others = s.others := rfl
@[simp] theorem State.modJob_cores (s : State) (p : BitVec 12) (f : Job → Job) : (s.modJob p f).cores = s.cores := rfl
@[simp] theorem State.modJob_tiles (s : State) (p : BitVec 12) (f : Job → Job) : (s.modJob p f).tiles = s.tiles := rfl
@[simp] theorem State.modJob_mem (s : State) (p : BitVec 12) (f : Job → Job) : (s.modJob p f).mem = s.mem := rfl
@[simp] theorem State.modJob_sectors (s : State) (p : BitVec 12) (f : Job → Job) : (s.modJob p f).sectors = s.sectors := rfl
@[simp] theorem State.modJob_tlb (s : State) (p : BitVec 12) (f : Job → Job) : (s.modJob p f).tlb = s.tlb := rfl
@[simp] theorem State.modJob_pidtb (s : State) (p : BitVec 12) (f : Job → Job) : (s.modJob p f).pidtb = s.pidtb := rfl
@[simp] theorem State.modJob_xvec (s : State) (p : BitVec 12) (f : Job → Job) : (s.modJob p f).xvec = s.xvec := rfl
@[simp] theorem State.modJob_profbuf (s : State) (p : BitVec 12) (f : Job → Job) : (s.modJob p f).profbuf = s.profbuf := rfl
@[simp] theorem State.modJob_profPos (s : State) (p : BitVec 12) (f : Job → Job) : (s.modJob p f).profPos = s.profPos := rfl
@[simp] theorem State.modJob_profWrap (s : State) (p : BitVec 12) (f : Job → Job) : (s.modJob p f).profWrap = s.profWrap := rfl
@[simp] theorem State.modJob_corr (s : State) (p : BitVec 12) (f : Job → Job) : (s.modJob p f).corr = s.corr := rfl
@[simp] theorem State.modJob_uncorr (s : State) (p : BitVec 12) (f : Job → Job) : (s.modJob p f).uncorr = s.uncorr := rfl
@[simp] theorem State.modJob_poison (s : State) (p : BitVec 12) (f : Job → Job) : (s.modJob p f).poison = s.poison := rfl
@[simp] theorem State.modJob_dumpQ (s : State) (p : BitVec 12) (f : Job → Job) : (s.modJob p f).dumpQ = s.dumpQ := rfl
@[simp] theorem State.modJob_items (s : State) (p : BitVec 12) (f : Job → Job) : (s.modJob p f).items = s.items := rfl
@[simp] theorem State.modJob_away (s : State) (p : BitVec 12) (f : Job → Job) : (s.modJob p f).away = s.away := rfl
@[simp] theorem State.modJob_rsvqs (s : State) (p : BitVec 12) (f : Job → Job) : (s.modJob p f).rsvqs = s.rsvqs := rfl
@[simp] theorem State.modJob_barriers (s : State) (p : BitVec 12) (f : Job → Job) : (s.modJob p f).barriers = s.barriers := rfl
@[simp] theorem State.modJob_deferred (s : State) (p : BitVec 12) (f : Job → Job) : (s.modJob p f).deferred = s.deferred := rfl
@[simp] theorem State.modJob_cancels (s : State) (p : BitVec 12) (f : Job → Job) : (s.modJob p f).cancels = s.cancels := rfl
@[simp] theorem State.modJob_preempts (s : State) (p : BitVec 12) (f : Job → Job) : (s.modJob p f).preempts = s.preempts := rfl
@[simp] theorem State.modJob_known (s : State) (p : BitVec 12) (f : Job → Job) : (s.modJob p f).known = s.known := rfl
@[simp] theorem State.modJob_transit (s : State) (p : BitVec 12) (f : Job → Job) : (s.modJob p f).transit = s.transit := rfl
@[simp] theorem State.modJob_prefetch (s : State) (p : BitVec 12) (f : Job → Job) : (s.modJob p f).prefetch = s.prefetch := rfl
@[simp] theorem State.modJob_hostAdds (s : State) (p : BitVec 12) (f : Job → Job) : (s.modJob p f).hostAdds = s.hostAdds := rfl
@[simp] theorem State.modJob_varnNow (s : State) (p : BitVec 12) (f : Job → Job) : (s.modJob p f).varnNow = s.varnNow := rfl
@[simp] theorem State.modJob_remote (s : State) (p : BitVec 12) (f : Job → Job) : (s.modJob p f).remote = s.remote := rfl
@[simp] theorem State.modJob_fabReply (s : State) (p : BitVec 12) (f : Job → Job) : (s.modJob p f).fabReply = s.fabReply := rfl
@[simp] theorem State.modJob_farCancels (s : State) (p : BitVec 12) (f : Job → Job) : (s.modJob p f).farCancels = s.farCancels := rfl
@[simp] theorem State.modJob_reroute (s : State) (p : BitVec 12) (f : Job → Job) : (s.modJob p f).reroute = s.reroute := rfl
@[simp] theorem State.modJob_migOut (s : State) (p : BitVec 12) (f : Job → Job) : (s.modJob p f).migOut = s.migOut := rfl
@[simp] theorem State.modJob_nextTag (s : State) (p : BitVec 12) (f : Job → Job) : (s.modJob p f).nextTag = s.nextTag := rfl
@[simp] theorem State.modJob_replies (s : State) (p : BitVec 12) (f : Job → Job) : (s.modJob p f).replies = s.replies := rfl
@[simp] theorem State.modJob_colls (s : State) (p : BitVec 12) (f : Job → Job) : (s.modJob p f).colls = s.colls := rfl
@[simp] theorem State.modJob_collQ (s : State) (p : BitVec 12) (f : Job → Job) : (s.modJob p f).collQ = s.collQ := rfl
@[simp] theorem State.modJob_links (s : State) (p : BitVec 12) (f : Job → Job) : (s.modJob p f).links = s.links := rfl
@[simp] theorem State.modJob_table (s : State) (p : BitVec 12) (f : Job → Job) : (s.modJob p f).table = s.table := rfl
@[simp] theorem State.modJob_agreed (s : State) (p : BitVec 12) (f : Job → Job) : (s.modJob p f).agreed = s.agreed := rfl
@[simp] theorem State.modJob_changing (s : State) (p : BitVec 12) (f : Job → Job) : (s.modJob p f).changing = s.changing := rfl
@[simp] theorem State.modJob_lastRec (s : State) (p : BitVec 12) (f : Job → Job) : (s.modJob p f).lastRec = s.lastRec := rfl
@[simp] theorem State.modJob_ports (s : State) (p : BitVec 12) (f : Job → Job) : (s.modJob p f).ports = s.ports := rfl
@[simp] theorem State.modJob_queues (s : State) (p : BitVec 12) (f : Job → Job) : (s.modJob p f).queues = s.queues := rfl
@[simp] theorem State.modJob_sketch (s : State) (p : BitVec 12) (f : Job → Job) : (s.modJob p f).sketch = s.sketch := rfl
@[simp] theorem State.modJob_skHead (s : State) (p : BitVec 12) (f : Job → Job) : (s.modJob p f).skHead = s.skHead := rfl
@[simp] theorem State.modJob_skFreeze (s : State) (p : BitVec 12) (f : Job → Job) : (s.modJob p f).skFreeze = s.skFreeze := rfl
@[simp] theorem State.modJob_skFrozen (s : State) (p : BitVec 12) (f : Job → Job) : (s.modJob p f).skFrozen = s.skFrozen := rfl
@[simp] theorem State.modJob_ticks (s : State) (p : BitVec 12) (f : Job → Job) : (s.modJob p f).ticks = s.ticks := rfl
@[simp] theorem State.modJob_plat (s : State) (p : BitVec 12) (f : Job → Job) : (s.modJob p f).plat = s.plat := rfl
@[simp] theorem State.modJob_agenda (s : State) (p : BitVec 12) (f : Job → Job) : (s.modJob p f).agenda = s.agenda := rfl
@[simp] theorem State.modJob_regq (s : State) (p : BitVec 12) (f : Job → Job) : (s.modJob p f).regq = s.regq := rfl
@[simp] theorem State.modJob_freeCtr (s : State) (p : BitVec 12) (f : Job → Job) : (s.modJob p f).freeCtr = s.freeCtr := rfl

@[simp] theorem State.modQueue_hid (s : State) (n : Nat) (f : LaunchQueue → LaunchQueue) : (s.modQueue n f).hid = s.hid := rfl
@[simp] theorem State.modQueue_hart (s : State) (n : Nat) (f : LaunchQueue → LaunchQueue) : (s.modQueue n f).hart = s.hart := rfl
@[simp] theorem State.modQueue_others (s : State) (n : Nat) (f : LaunchQueue → LaunchQueue) : (s.modQueue n f).others = s.others := rfl
@[simp] theorem State.modQueue_cores (s : State) (n : Nat) (f : LaunchQueue → LaunchQueue) : (s.modQueue n f).cores = s.cores := rfl
@[simp] theorem State.modQueue_tiles (s : State) (n : Nat) (f : LaunchQueue → LaunchQueue) : (s.modQueue n f).tiles = s.tiles := rfl
@[simp] theorem State.modQueue_mem (s : State) (n : Nat) (f : LaunchQueue → LaunchQueue) : (s.modQueue n f).mem = s.mem := rfl
@[simp] theorem State.modQueue_sectors (s : State) (n : Nat) (f : LaunchQueue → LaunchQueue) : (s.modQueue n f).sectors = s.sectors := rfl
@[simp] theorem State.modQueue_tlb (s : State) (n : Nat) (f : LaunchQueue → LaunchQueue) : (s.modQueue n f).tlb = s.tlb := rfl
@[simp] theorem State.modQueue_pidtb (s : State) (n : Nat) (f : LaunchQueue → LaunchQueue) : (s.modQueue n f).pidtb = s.pidtb := rfl
@[simp] theorem State.modQueue_xvec (s : State) (n : Nat) (f : LaunchQueue → LaunchQueue) : (s.modQueue n f).xvec = s.xvec := rfl
@[simp] theorem State.modQueue_profbuf (s : State) (n : Nat) (f : LaunchQueue → LaunchQueue) : (s.modQueue n f).profbuf = s.profbuf := rfl
@[simp] theorem State.modQueue_profPos (s : State) (n : Nat) (f : LaunchQueue → LaunchQueue) : (s.modQueue n f).profPos = s.profPos := rfl
@[simp] theorem State.modQueue_profWrap (s : State) (n : Nat) (f : LaunchQueue → LaunchQueue) : (s.modQueue n f).profWrap = s.profWrap := rfl
@[simp] theorem State.modQueue_corr (s : State) (n : Nat) (f : LaunchQueue → LaunchQueue) : (s.modQueue n f).corr = s.corr := rfl
@[simp] theorem State.modQueue_uncorr (s : State) (n : Nat) (f : LaunchQueue → LaunchQueue) : (s.modQueue n f).uncorr = s.uncorr := rfl
@[simp] theorem State.modQueue_poison (s : State) (n : Nat) (f : LaunchQueue → LaunchQueue) : (s.modQueue n f).poison = s.poison := rfl
@[simp] theorem State.modQueue_dumpQ (s : State) (n : Nat) (f : LaunchQueue → LaunchQueue) : (s.modQueue n f).dumpQ = s.dumpQ := rfl
@[simp] theorem State.modQueue_jobs (s : State) (n : Nat) (f : LaunchQueue → LaunchQueue) : (s.modQueue n f).jobs = s.jobs := rfl
@[simp] theorem State.modQueue_items (s : State) (n : Nat) (f : LaunchQueue → LaunchQueue) : (s.modQueue n f).items = s.items := rfl
@[simp] theorem State.modQueue_away (s : State) (n : Nat) (f : LaunchQueue → LaunchQueue) : (s.modQueue n f).away = s.away := rfl
@[simp] theorem State.modQueue_rsvqs (s : State) (n : Nat) (f : LaunchQueue → LaunchQueue) : (s.modQueue n f).rsvqs = s.rsvqs := rfl
@[simp] theorem State.modQueue_barriers (s : State) (n : Nat) (f : LaunchQueue → LaunchQueue) : (s.modQueue n f).barriers = s.barriers := rfl
@[simp] theorem State.modQueue_deferred (s : State) (n : Nat) (f : LaunchQueue → LaunchQueue) : (s.modQueue n f).deferred = s.deferred := rfl
@[simp] theorem State.modQueue_cancels (s : State) (n : Nat) (f : LaunchQueue → LaunchQueue) : (s.modQueue n f).cancels = s.cancels := rfl
@[simp] theorem State.modQueue_preempts (s : State) (n : Nat) (f : LaunchQueue → LaunchQueue) : (s.modQueue n f).preempts = s.preempts := rfl
@[simp] theorem State.modQueue_known (s : State) (n : Nat) (f : LaunchQueue → LaunchQueue) : (s.modQueue n f).known = s.known := rfl
@[simp] theorem State.modQueue_transit (s : State) (n : Nat) (f : LaunchQueue → LaunchQueue) : (s.modQueue n f).transit = s.transit := rfl
@[simp] theorem State.modQueue_prefetch (s : State) (n : Nat) (f : LaunchQueue → LaunchQueue) : (s.modQueue n f).prefetch = s.prefetch := rfl
@[simp] theorem State.modQueue_hostAdds (s : State) (n : Nat) (f : LaunchQueue → LaunchQueue) : (s.modQueue n f).hostAdds = s.hostAdds := rfl
@[simp] theorem State.modQueue_varnNow (s : State) (n : Nat) (f : LaunchQueue → LaunchQueue) : (s.modQueue n f).varnNow = s.varnNow := rfl
@[simp] theorem State.modQueue_remote (s : State) (n : Nat) (f : LaunchQueue → LaunchQueue) : (s.modQueue n f).remote = s.remote := rfl
@[simp] theorem State.modQueue_fabReply (s : State) (n : Nat) (f : LaunchQueue → LaunchQueue) : (s.modQueue n f).fabReply = s.fabReply := rfl
@[simp] theorem State.modQueue_farCancels (s : State) (n : Nat) (f : LaunchQueue → LaunchQueue) : (s.modQueue n f).farCancels = s.farCancels := rfl
@[simp] theorem State.modQueue_reroute (s : State) (n : Nat) (f : LaunchQueue → LaunchQueue) : (s.modQueue n f).reroute = s.reroute := rfl
@[simp] theorem State.modQueue_migOut (s : State) (n : Nat) (f : LaunchQueue → LaunchQueue) : (s.modQueue n f).migOut = s.migOut := rfl
@[simp] theorem State.modQueue_nextTag (s : State) (n : Nat) (f : LaunchQueue → LaunchQueue) : (s.modQueue n f).nextTag = s.nextTag := rfl
@[simp] theorem State.modQueue_replies (s : State) (n : Nat) (f : LaunchQueue → LaunchQueue) : (s.modQueue n f).replies = s.replies := rfl
@[simp] theorem State.modQueue_colls (s : State) (n : Nat) (f : LaunchQueue → LaunchQueue) : (s.modQueue n f).colls = s.colls := rfl
@[simp] theorem State.modQueue_collQ (s : State) (n : Nat) (f : LaunchQueue → LaunchQueue) : (s.modQueue n f).collQ = s.collQ := rfl
@[simp] theorem State.modQueue_links (s : State) (n : Nat) (f : LaunchQueue → LaunchQueue) : (s.modQueue n f).links = s.links := rfl
@[simp] theorem State.modQueue_table (s : State) (n : Nat) (f : LaunchQueue → LaunchQueue) : (s.modQueue n f).table = s.table := rfl
@[simp] theorem State.modQueue_agreed (s : State) (n : Nat) (f : LaunchQueue → LaunchQueue) : (s.modQueue n f).agreed = s.agreed := rfl
@[simp] theorem State.modQueue_changing (s : State) (n : Nat) (f : LaunchQueue → LaunchQueue) : (s.modQueue n f).changing = s.changing := rfl
@[simp] theorem State.modQueue_lastRec (s : State) (n : Nat) (f : LaunchQueue → LaunchQueue) : (s.modQueue n f).lastRec = s.lastRec := rfl
@[simp] theorem State.modQueue_ports (s : State) (n : Nat) (f : LaunchQueue → LaunchQueue) : (s.modQueue n f).ports = s.ports := rfl
@[simp] theorem State.modQueue_sketch (s : State) (n : Nat) (f : LaunchQueue → LaunchQueue) : (s.modQueue n f).sketch = s.sketch := rfl
@[simp] theorem State.modQueue_skHead (s : State) (n : Nat) (f : LaunchQueue → LaunchQueue) : (s.modQueue n f).skHead = s.skHead := rfl
@[simp] theorem State.modQueue_skFreeze (s : State) (n : Nat) (f : LaunchQueue → LaunchQueue) : (s.modQueue n f).skFreeze = s.skFreeze := rfl
@[simp] theorem State.modQueue_skFrozen (s : State) (n : Nat) (f : LaunchQueue → LaunchQueue) : (s.modQueue n f).skFrozen = s.skFrozen := rfl
@[simp] theorem State.modQueue_ticks (s : State) (n : Nat) (f : LaunchQueue → LaunchQueue) : (s.modQueue n f).ticks = s.ticks := rfl
@[simp] theorem State.modQueue_plat (s : State) (n : Nat) (f : LaunchQueue → LaunchQueue) : (s.modQueue n f).plat = s.plat := rfl
@[simp] theorem State.modQueue_agenda (s : State) (n : Nat) (f : LaunchQueue → LaunchQueue) : (s.modQueue n f).agenda = s.agenda := rfl
@[simp] theorem State.modQueue_regq (s : State) (n : Nat) (f : LaunchQueue → LaunchQueue) : (s.modQueue n f).regq = s.regq := rfl
@[simp] theorem State.modQueue_freeCtr (s : State) (n : Nat) (f : LaunchQueue → LaunchQueue) : (s.modQueue n f).freeCtr = s.freeCtr := rfl

@[simp] theorem State.modPlat_hid (s : State) (f : Platform → Platform) : (s.modPlat f).hid = s.hid := rfl
@[simp] theorem State.modPlat_hart (s : State) (f : Platform → Platform) : (s.modPlat f).hart = s.hart := rfl
@[simp] theorem State.modPlat_others (s : State) (f : Platform → Platform) : (s.modPlat f).others = s.others := rfl
@[simp] theorem State.modPlat_cores (s : State) (f : Platform → Platform) : (s.modPlat f).cores = s.cores := rfl
@[simp] theorem State.modPlat_tiles (s : State) (f : Platform → Platform) : (s.modPlat f).tiles = s.tiles := rfl
@[simp] theorem State.modPlat_mem (s : State) (f : Platform → Platform) : (s.modPlat f).mem = s.mem := rfl
@[simp] theorem State.modPlat_sectors (s : State) (f : Platform → Platform) : (s.modPlat f).sectors = s.sectors := rfl
@[simp] theorem State.modPlat_tlb (s : State) (f : Platform → Platform) : (s.modPlat f).tlb = s.tlb := rfl
@[simp] theorem State.modPlat_pidtb (s : State) (f : Platform → Platform) : (s.modPlat f).pidtb = s.pidtb := rfl
@[simp] theorem State.modPlat_xvec (s : State) (f : Platform → Platform) : (s.modPlat f).xvec = s.xvec := rfl
@[simp] theorem State.modPlat_profbuf (s : State) (f : Platform → Platform) : (s.modPlat f).profbuf = s.profbuf := rfl
@[simp] theorem State.modPlat_profPos (s : State) (f : Platform → Platform) : (s.modPlat f).profPos = s.profPos := rfl
@[simp] theorem State.modPlat_profWrap (s : State) (f : Platform → Platform) : (s.modPlat f).profWrap = s.profWrap := rfl
@[simp] theorem State.modPlat_corr (s : State) (f : Platform → Platform) : (s.modPlat f).corr = s.corr := rfl
@[simp] theorem State.modPlat_uncorr (s : State) (f : Platform → Platform) : (s.modPlat f).uncorr = s.uncorr := rfl
@[simp] theorem State.modPlat_poison (s : State) (f : Platform → Platform) : (s.modPlat f).poison = s.poison := rfl
@[simp] theorem State.modPlat_dumpQ (s : State) (f : Platform → Platform) : (s.modPlat f).dumpQ = s.dumpQ := rfl
@[simp] theorem State.modPlat_jobs (s : State) (f : Platform → Platform) : (s.modPlat f).jobs = s.jobs := rfl
@[simp] theorem State.modPlat_items (s : State) (f : Platform → Platform) : (s.modPlat f).items = s.items := rfl
@[simp] theorem State.modPlat_away (s : State) (f : Platform → Platform) : (s.modPlat f).away = s.away := rfl
@[simp] theorem State.modPlat_rsvqs (s : State) (f : Platform → Platform) : (s.modPlat f).rsvqs = s.rsvqs := rfl
@[simp] theorem State.modPlat_barriers (s : State) (f : Platform → Platform) : (s.modPlat f).barriers = s.barriers := rfl
@[simp] theorem State.modPlat_deferred (s : State) (f : Platform → Platform) : (s.modPlat f).deferred = s.deferred := rfl
@[simp] theorem State.modPlat_cancels (s : State) (f : Platform → Platform) : (s.modPlat f).cancels = s.cancels := rfl
@[simp] theorem State.modPlat_preempts (s : State) (f : Platform → Platform) : (s.modPlat f).preempts = s.preempts := rfl
@[simp] theorem State.modPlat_known (s : State) (f : Platform → Platform) : (s.modPlat f).known = s.known := rfl
@[simp] theorem State.modPlat_transit (s : State) (f : Platform → Platform) : (s.modPlat f).transit = s.transit := rfl
@[simp] theorem State.modPlat_prefetch (s : State) (f : Platform → Platform) : (s.modPlat f).prefetch = s.prefetch := rfl
@[simp] theorem State.modPlat_hostAdds (s : State) (f : Platform → Platform) : (s.modPlat f).hostAdds = s.hostAdds := rfl
@[simp] theorem State.modPlat_varnNow (s : State) (f : Platform → Platform) : (s.modPlat f).varnNow = s.varnNow := rfl
@[simp] theorem State.modPlat_remote (s : State) (f : Platform → Platform) : (s.modPlat f).remote = s.remote := rfl
@[simp] theorem State.modPlat_fabReply (s : State) (f : Platform → Platform) : (s.modPlat f).fabReply = s.fabReply := rfl
@[simp] theorem State.modPlat_farCancels (s : State) (f : Platform → Platform) : (s.modPlat f).farCancels = s.farCancels := rfl
@[simp] theorem State.modPlat_reroute (s : State) (f : Platform → Platform) : (s.modPlat f).reroute = s.reroute := rfl
@[simp] theorem State.modPlat_migOut (s : State) (f : Platform → Platform) : (s.modPlat f).migOut = s.migOut := rfl
@[simp] theorem State.modPlat_nextTag (s : State) (f : Platform → Platform) : (s.modPlat f).nextTag = s.nextTag := rfl
@[simp] theorem State.modPlat_replies (s : State) (f : Platform → Platform) : (s.modPlat f).replies = s.replies := rfl
@[simp] theorem State.modPlat_colls (s : State) (f : Platform → Platform) : (s.modPlat f).colls = s.colls := rfl
@[simp] theorem State.modPlat_collQ (s : State) (f : Platform → Platform) : (s.modPlat f).collQ = s.collQ := rfl
@[simp] theorem State.modPlat_links (s : State) (f : Platform → Platform) : (s.modPlat f).links = s.links := rfl
@[simp] theorem State.modPlat_table (s : State) (f : Platform → Platform) : (s.modPlat f).table = s.table := rfl
@[simp] theorem State.modPlat_agreed (s : State) (f : Platform → Platform) : (s.modPlat f).agreed = s.agreed := rfl
@[simp] theorem State.modPlat_changing (s : State) (f : Platform → Platform) : (s.modPlat f).changing = s.changing := rfl
@[simp] theorem State.modPlat_lastRec (s : State) (f : Platform → Platform) : (s.modPlat f).lastRec = s.lastRec := rfl
@[simp] theorem State.modPlat_ports (s : State) (f : Platform → Platform) : (s.modPlat f).ports = s.ports := rfl
@[simp] theorem State.modPlat_queues (s : State) (f : Platform → Platform) : (s.modPlat f).queues = s.queues := rfl
@[simp] theorem State.modPlat_sketch (s : State) (f : Platform → Platform) : (s.modPlat f).sketch = s.sketch := rfl
@[simp] theorem State.modPlat_skHead (s : State) (f : Platform → Platform) : (s.modPlat f).skHead = s.skHead := rfl
@[simp] theorem State.modPlat_skFreeze (s : State) (f : Platform → Platform) : (s.modPlat f).skFreeze = s.skFreeze := rfl
@[simp] theorem State.modPlat_skFrozen (s : State) (f : Platform → Platform) : (s.modPlat f).skFrozen = s.skFrozen := rfl
@[simp] theorem State.modPlat_ticks (s : State) (f : Platform → Platform) : (s.modPlat f).ticks = s.ticks := rfl
@[simp] theorem State.modPlat_agenda (s : State) (f : Platform → Platform) : (s.modPlat f).agenda = s.agenda := rfl
@[simp] theorem State.modPlat_regq (s : State) (f : Platform → Platform) : (s.modPlat f).regq = s.regq := rfl
@[simp] theorem State.modPlat_freeCtr (s : State) (f : Platform → Platform) : (s.modPlat f).freeCtr = s.freeCtr := rfl

@[simp] theorem State.modPlat_plat (s : State) (f : Platform → Platform) : (s.modPlat f).plat = f s.plat := rfl

@[simp] theorem State.tickFree_hid (s : State) : (s.tickFree).hid = s.hid := rfl
@[simp] theorem State.tickFree_hart (s : State) : (s.tickFree).hart = s.hart := rfl
@[simp] theorem State.tickFree_others (s : State) : (s.tickFree).others = s.others := rfl
@[simp] theorem State.tickFree_cores (s : State) : (s.tickFree).cores = s.cores := rfl
@[simp] theorem State.tickFree_tiles (s : State) : (s.tickFree).tiles = s.tiles := rfl
@[simp] theorem State.tickFree_mem (s : State) : (s.tickFree).mem = s.mem := rfl
@[simp] theorem State.tickFree_sectors (s : State) : (s.tickFree).sectors = s.sectors := rfl
@[simp] theorem State.tickFree_tlb (s : State) : (s.tickFree).tlb = s.tlb := rfl
@[simp] theorem State.tickFree_pidtb (s : State) : (s.tickFree).pidtb = s.pidtb := rfl
@[simp] theorem State.tickFree_xvec (s : State) : (s.tickFree).xvec = s.xvec := rfl
@[simp] theorem State.tickFree_profbuf (s : State) : (s.tickFree).profbuf = s.profbuf := rfl
@[simp] theorem State.tickFree_profPos (s : State) : (s.tickFree).profPos = s.profPos := rfl
@[simp] theorem State.tickFree_profWrap (s : State) : (s.tickFree).profWrap = s.profWrap := rfl
@[simp] theorem State.tickFree_corr (s : State) : (s.tickFree).corr = s.corr := rfl
@[simp] theorem State.tickFree_uncorr (s : State) : (s.tickFree).uncorr = s.uncorr := rfl
@[simp] theorem State.tickFree_poison (s : State) : (s.tickFree).poison = s.poison := rfl
@[simp] theorem State.tickFree_dumpQ (s : State) : (s.tickFree).dumpQ = s.dumpQ := rfl
@[simp] theorem State.tickFree_jobs (s : State) : (s.tickFree).jobs = s.jobs := rfl
@[simp] theorem State.tickFree_items (s : State) : (s.tickFree).items = s.items := rfl
@[simp] theorem State.tickFree_away (s : State) : (s.tickFree).away = s.away := rfl
@[simp] theorem State.tickFree_rsvqs (s : State) : (s.tickFree).rsvqs = s.rsvqs := rfl
@[simp] theorem State.tickFree_barriers (s : State) : (s.tickFree).barriers = s.barriers := rfl
@[simp] theorem State.tickFree_deferred (s : State) : (s.tickFree).deferred = s.deferred := rfl
@[simp] theorem State.tickFree_cancels (s : State) : (s.tickFree).cancels = s.cancels := rfl
@[simp] theorem State.tickFree_preempts (s : State) : (s.tickFree).preempts = s.preempts := rfl
@[simp] theorem State.tickFree_known (s : State) : (s.tickFree).known = s.known := rfl
@[simp] theorem State.tickFree_transit (s : State) : (s.tickFree).transit = s.transit := rfl
@[simp] theorem State.tickFree_prefetch (s : State) : (s.tickFree).prefetch = s.prefetch := rfl
@[simp] theorem State.tickFree_hostAdds (s : State) : (s.tickFree).hostAdds = s.hostAdds := rfl
@[simp] theorem State.tickFree_varnNow (s : State) : (s.tickFree).varnNow = s.varnNow := rfl
@[simp] theorem State.tickFree_remote (s : State) : (s.tickFree).remote = s.remote := rfl
@[simp] theorem State.tickFree_fabReply (s : State) : (s.tickFree).fabReply = s.fabReply := rfl
@[simp] theorem State.tickFree_farCancels (s : State) : (s.tickFree).farCancels = s.farCancels := rfl
@[simp] theorem State.tickFree_reroute (s : State) : (s.tickFree).reroute = s.reroute := rfl
@[simp] theorem State.tickFree_migOut (s : State) : (s.tickFree).migOut = s.migOut := rfl
@[simp] theorem State.tickFree_nextTag (s : State) : (s.tickFree).nextTag = s.nextTag := rfl
@[simp] theorem State.tickFree_replies (s : State) : (s.tickFree).replies = s.replies := rfl
@[simp] theorem State.tickFree_colls (s : State) : (s.tickFree).colls = s.colls := rfl
@[simp] theorem State.tickFree_collQ (s : State) : (s.tickFree).collQ = s.collQ := rfl
@[simp] theorem State.tickFree_links (s : State) : (s.tickFree).links = s.links := rfl
@[simp] theorem State.tickFree_table (s : State) : (s.tickFree).table = s.table := rfl
@[simp] theorem State.tickFree_agreed (s : State) : (s.tickFree).agreed = s.agreed := rfl
@[simp] theorem State.tickFree_changing (s : State) : (s.tickFree).changing = s.changing := rfl
@[simp] theorem State.tickFree_lastRec (s : State) : (s.tickFree).lastRec = s.lastRec := rfl
@[simp] theorem State.tickFree_ports (s : State) : (s.tickFree).ports = s.ports := rfl
@[simp] theorem State.tickFree_queues (s : State) : (s.tickFree).queues = s.queues := rfl
@[simp] theorem State.tickFree_sketch (s : State) : (s.tickFree).sketch = s.sketch := rfl
@[simp] theorem State.tickFree_skHead (s : State) : (s.tickFree).skHead = s.skHead := rfl
@[simp] theorem State.tickFree_skFreeze (s : State) : (s.tickFree).skFreeze = s.skFreeze := rfl
@[simp] theorem State.tickFree_skFrozen (s : State) : (s.tickFree).skFrozen = s.skFrozen := rfl
@[simp] theorem State.tickFree_ticks (s : State) : (s.tickFree).ticks = s.ticks := rfl
@[simp] theorem State.tickFree_plat (s : State) : (s.tickFree).plat = s.plat := rfl
@[simp] theorem State.tickFree_agenda (s : State) : (s.tickFree).agenda = s.agenda := rfl
@[simp] theorem State.tickFree_regq (s : State) : (s.tickFree).regq = s.regq := rfl

@[simp] theorem State.setSlot_hid (s : State) (n : Nat) (x : Slot) : (s.setSlot n x).hid = s.hid := by
  unfold State.setSlot; split <;> rfl
@[simp] theorem State.setSlot_cores (s : State) (n : Nat) (x : Slot) : (s.setSlot n x).cores = s.cores := by
  unfold State.setSlot; split <;> rfl
@[simp] theorem State.setSlot_tiles (s : State) (n : Nat) (x : Slot) : (s.setSlot n x).tiles = s.tiles := by
  unfold State.setSlot; split <;> rfl
@[simp] theorem State.setSlot_mem (s : State) (n : Nat) (x : Slot) : (s.setSlot n x).mem = s.mem := by
  unfold State.setSlot; split <;> rfl
@[simp] theorem State.setSlot_sectors (s : State) (n : Nat) (x : Slot) : (s.setSlot n x).sectors = s.sectors := by
  unfold State.setSlot; split <;> rfl
@[simp] theorem State.setSlot_tlb (s : State) (n : Nat) (x : Slot) : (s.setSlot n x).tlb = s.tlb := by
  unfold State.setSlot; split <;> rfl
@[simp] theorem State.setSlot_pidtb (s : State) (n : Nat) (x : Slot) : (s.setSlot n x).pidtb = s.pidtb := by
  unfold State.setSlot; split <;> rfl
@[simp] theorem State.setSlot_xvec (s : State) (n : Nat) (x : Slot) : (s.setSlot n x).xvec = s.xvec := by
  unfold State.setSlot; split <;> rfl
@[simp] theorem State.setSlot_profbuf (s : State) (n : Nat) (x : Slot) : (s.setSlot n x).profbuf = s.profbuf := by
  unfold State.setSlot; split <;> rfl
@[simp] theorem State.setSlot_profPos (s : State) (n : Nat) (x : Slot) : (s.setSlot n x).profPos = s.profPos := by
  unfold State.setSlot; split <;> rfl
@[simp] theorem State.setSlot_profWrap (s : State) (n : Nat) (x : Slot) : (s.setSlot n x).profWrap = s.profWrap := by
  unfold State.setSlot; split <;> rfl
@[simp] theorem State.setSlot_corr (s : State) (n : Nat) (x : Slot) : (s.setSlot n x).corr = s.corr := by
  unfold State.setSlot; split <;> rfl
@[simp] theorem State.setSlot_uncorr (s : State) (n : Nat) (x : Slot) : (s.setSlot n x).uncorr = s.uncorr := by
  unfold State.setSlot; split <;> rfl
@[simp] theorem State.setSlot_poison (s : State) (n : Nat) (x : Slot) : (s.setSlot n x).poison = s.poison := by
  unfold State.setSlot; split <;> rfl
@[simp] theorem State.setSlot_dumpQ (s : State) (n : Nat) (x : Slot) : (s.setSlot n x).dumpQ = s.dumpQ := by
  unfold State.setSlot; split <;> rfl
@[simp] theorem State.setSlot_jobs (s : State) (n : Nat) (x : Slot) : (s.setSlot n x).jobs = s.jobs := by
  unfold State.setSlot; split <;> rfl
@[simp] theorem State.setSlot_items (s : State) (n : Nat) (x : Slot) : (s.setSlot n x).items = s.items := by
  unfold State.setSlot; split <;> rfl
@[simp] theorem State.setSlot_away (s : State) (n : Nat) (x : Slot) : (s.setSlot n x).away = s.away := by
  unfold State.setSlot; split <;> rfl
@[simp] theorem State.setSlot_rsvqs (s : State) (n : Nat) (x : Slot) : (s.setSlot n x).rsvqs = s.rsvqs := by
  unfold State.setSlot; split <;> rfl
@[simp] theorem State.setSlot_barriers (s : State) (n : Nat) (x : Slot) : (s.setSlot n x).barriers = s.barriers := by
  unfold State.setSlot; split <;> rfl
@[simp] theorem State.setSlot_deferred (s : State) (n : Nat) (x : Slot) : (s.setSlot n x).deferred = s.deferred := by
  unfold State.setSlot; split <;> rfl
@[simp] theorem State.setSlot_cancels (s : State) (n : Nat) (x : Slot) : (s.setSlot n x).cancels = s.cancels := by
  unfold State.setSlot; split <;> rfl
@[simp] theorem State.setSlot_preempts (s : State) (n : Nat) (x : Slot) : (s.setSlot n x).preempts = s.preempts := by
  unfold State.setSlot; split <;> rfl
@[simp] theorem State.setSlot_known (s : State) (n : Nat) (x : Slot) : (s.setSlot n x).known = s.known := by
  unfold State.setSlot; split <;> rfl
@[simp] theorem State.setSlot_transit (s : State) (n : Nat) (x : Slot) : (s.setSlot n x).transit = s.transit := by
  unfold State.setSlot; split <;> rfl
@[simp] theorem State.setSlot_prefetch (s : State) (n : Nat) (x : Slot) : (s.setSlot n x).prefetch = s.prefetch := by
  unfold State.setSlot; split <;> rfl
@[simp] theorem State.setSlot_hostAdds (s : State) (n : Nat) (x : Slot) : (s.setSlot n x).hostAdds = s.hostAdds := by
  unfold State.setSlot; split <;> rfl
@[simp] theorem State.setSlot_varnNow (s : State) (n : Nat) (x : Slot) : (s.setSlot n x).varnNow = s.varnNow := by
  unfold State.setSlot; split <;> rfl
@[simp] theorem State.setSlot_remote (s : State) (n : Nat) (x : Slot) : (s.setSlot n x).remote = s.remote := by
  unfold State.setSlot; split <;> rfl
@[simp] theorem State.setSlot_fabReply (s : State) (n : Nat) (x : Slot) : (s.setSlot n x).fabReply = s.fabReply := by
  unfold State.setSlot; split <;> rfl
@[simp] theorem State.setSlot_farCancels (s : State) (n : Nat) (x : Slot) : (s.setSlot n x).farCancels = s.farCancels := by
  unfold State.setSlot; split <;> rfl
@[simp] theorem State.setSlot_reroute (s : State) (n : Nat) (x : Slot) : (s.setSlot n x).reroute = s.reroute := by
  unfold State.setSlot; split <;> rfl
@[simp] theorem State.setSlot_migOut (s : State) (n : Nat) (x : Slot) : (s.setSlot n x).migOut = s.migOut := by
  unfold State.setSlot; split <;> rfl
@[simp] theorem State.setSlot_nextTag (s : State) (n : Nat) (x : Slot) : (s.setSlot n x).nextTag = s.nextTag := by
  unfold State.setSlot; split <;> rfl
@[simp] theorem State.setSlot_replies (s : State) (n : Nat) (x : Slot) : (s.setSlot n x).replies = s.replies := by
  unfold State.setSlot; split <;> rfl
@[simp] theorem State.setSlot_colls (s : State) (n : Nat) (x : Slot) : (s.setSlot n x).colls = s.colls := by
  unfold State.setSlot; split <;> rfl
@[simp] theorem State.setSlot_collQ (s : State) (n : Nat) (x : Slot) : (s.setSlot n x).collQ = s.collQ := by
  unfold State.setSlot; split <;> rfl
@[simp] theorem State.setSlot_links (s : State) (n : Nat) (x : Slot) : (s.setSlot n x).links = s.links := by
  unfold State.setSlot; split <;> rfl
@[simp] theorem State.setSlot_table (s : State) (n : Nat) (x : Slot) : (s.setSlot n x).table = s.table := by
  unfold State.setSlot; split <;> rfl
@[simp] theorem State.setSlot_agreed (s : State) (n : Nat) (x : Slot) : (s.setSlot n x).agreed = s.agreed := by
  unfold State.setSlot; split <;> rfl
@[simp] theorem State.setSlot_changing (s : State) (n : Nat) (x : Slot) : (s.setSlot n x).changing = s.changing := by
  unfold State.setSlot; split <;> rfl
@[simp] theorem State.setSlot_lastRec (s : State) (n : Nat) (x : Slot) : (s.setSlot n x).lastRec = s.lastRec := by
  unfold State.setSlot; split <;> rfl
@[simp] theorem State.setSlot_ports (s : State) (n : Nat) (x : Slot) : (s.setSlot n x).ports = s.ports := by
  unfold State.setSlot; split <;> rfl
@[simp] theorem State.setSlot_queues (s : State) (n : Nat) (x : Slot) : (s.setSlot n x).queues = s.queues := by
  unfold State.setSlot; split <;> rfl
@[simp] theorem State.setSlot_sketch (s : State) (n : Nat) (x : Slot) : (s.setSlot n x).sketch = s.sketch := by
  unfold State.setSlot; split <;> rfl
@[simp] theorem State.setSlot_skHead (s : State) (n : Nat) (x : Slot) : (s.setSlot n x).skHead = s.skHead := by
  unfold State.setSlot; split <;> rfl
@[simp] theorem State.setSlot_skFreeze (s : State) (n : Nat) (x : Slot) : (s.setSlot n x).skFreeze = s.skFreeze := by
  unfold State.setSlot; split <;> rfl
@[simp] theorem State.setSlot_skFrozen (s : State) (n : Nat) (x : Slot) : (s.setSlot n x).skFrozen = s.skFrozen := by
  unfold State.setSlot; split <;> rfl
@[simp] theorem State.setSlot_ticks (s : State) (n : Nat) (x : Slot) : (s.setSlot n x).ticks = s.ticks := by
  unfold State.setSlot; split <;> rfl
@[simp] theorem State.setSlot_plat (s : State) (n : Nat) (x : Slot) : (s.setSlot n x).plat = s.plat := by
  unfold State.setSlot; split <;> rfl
@[simp] theorem State.setSlot_agenda (s : State) (n : Nat) (x : Slot) : (s.setSlot n x).agenda = s.agenda := by
  unfold State.setSlot; split <;> rfl
@[simp] theorem State.setSlot_regq (s : State) (n : Nat) (x : Slot) : (s.setSlot n x).regq = s.regq := by
  unfold State.setSlot; split <;> rfl
@[simp] theorem State.setSlot_freeCtr (s : State) (n : Nat) (x : Slot) : (s.setSlot n x).freeCtr = s.freeCtr := by
  unfold State.setSlot; split <;> rfl

@[simp] theorem State.modSlot_hid (s : State) (n : Nat) (f : Slot → Slot) : (s.modSlot n f).hid = s.hid := State.setSlot_hid s n _
@[simp] theorem State.modSlot_cores (s : State) (n : Nat) (f : Slot → Slot) : (s.modSlot n f).cores = s.cores := State.setSlot_cores s n _
@[simp] theorem State.modSlot_tiles (s : State) (n : Nat) (f : Slot → Slot) : (s.modSlot n f).tiles = s.tiles := State.setSlot_tiles s n _
@[simp] theorem State.modSlot_mem (s : State) (n : Nat) (f : Slot → Slot) : (s.modSlot n f).mem = s.mem := State.setSlot_mem s n _
@[simp] theorem State.modSlot_sectors (s : State) (n : Nat) (f : Slot → Slot) : (s.modSlot n f).sectors = s.sectors := State.setSlot_sectors s n _
@[simp] theorem State.modSlot_tlb (s : State) (n : Nat) (f : Slot → Slot) : (s.modSlot n f).tlb = s.tlb := State.setSlot_tlb s n _
@[simp] theorem State.modSlot_pidtb (s : State) (n : Nat) (f : Slot → Slot) : (s.modSlot n f).pidtb = s.pidtb := State.setSlot_pidtb s n _
@[simp] theorem State.modSlot_xvec (s : State) (n : Nat) (f : Slot → Slot) : (s.modSlot n f).xvec = s.xvec := State.setSlot_xvec s n _
@[simp] theorem State.modSlot_profbuf (s : State) (n : Nat) (f : Slot → Slot) : (s.modSlot n f).profbuf = s.profbuf := State.setSlot_profbuf s n _
@[simp] theorem State.modSlot_profPos (s : State) (n : Nat) (f : Slot → Slot) : (s.modSlot n f).profPos = s.profPos := State.setSlot_profPos s n _
@[simp] theorem State.modSlot_profWrap (s : State) (n : Nat) (f : Slot → Slot) : (s.modSlot n f).profWrap = s.profWrap := State.setSlot_profWrap s n _
@[simp] theorem State.modSlot_corr (s : State) (n : Nat) (f : Slot → Slot) : (s.modSlot n f).corr = s.corr := State.setSlot_corr s n _
@[simp] theorem State.modSlot_uncorr (s : State) (n : Nat) (f : Slot → Slot) : (s.modSlot n f).uncorr = s.uncorr := State.setSlot_uncorr s n _
@[simp] theorem State.modSlot_poison (s : State) (n : Nat) (f : Slot → Slot) : (s.modSlot n f).poison = s.poison := State.setSlot_poison s n _
@[simp] theorem State.modSlot_dumpQ (s : State) (n : Nat) (f : Slot → Slot) : (s.modSlot n f).dumpQ = s.dumpQ := State.setSlot_dumpQ s n _
@[simp] theorem State.modSlot_jobs (s : State) (n : Nat) (f : Slot → Slot) : (s.modSlot n f).jobs = s.jobs := State.setSlot_jobs s n _
@[simp] theorem State.modSlot_items (s : State) (n : Nat) (f : Slot → Slot) : (s.modSlot n f).items = s.items := State.setSlot_items s n _
@[simp] theorem State.modSlot_away (s : State) (n : Nat) (f : Slot → Slot) : (s.modSlot n f).away = s.away := State.setSlot_away s n _
@[simp] theorem State.modSlot_rsvqs (s : State) (n : Nat) (f : Slot → Slot) : (s.modSlot n f).rsvqs = s.rsvqs := State.setSlot_rsvqs s n _
@[simp] theorem State.modSlot_barriers (s : State) (n : Nat) (f : Slot → Slot) : (s.modSlot n f).barriers = s.barriers := State.setSlot_barriers s n _
@[simp] theorem State.modSlot_deferred (s : State) (n : Nat) (f : Slot → Slot) : (s.modSlot n f).deferred = s.deferred := State.setSlot_deferred s n _
@[simp] theorem State.modSlot_cancels (s : State) (n : Nat) (f : Slot → Slot) : (s.modSlot n f).cancels = s.cancels := State.setSlot_cancels s n _
@[simp] theorem State.modSlot_preempts (s : State) (n : Nat) (f : Slot → Slot) : (s.modSlot n f).preempts = s.preempts := State.setSlot_preempts s n _
@[simp] theorem State.modSlot_known (s : State) (n : Nat) (f : Slot → Slot) : (s.modSlot n f).known = s.known := State.setSlot_known s n _
@[simp] theorem State.modSlot_transit (s : State) (n : Nat) (f : Slot → Slot) : (s.modSlot n f).transit = s.transit := State.setSlot_transit s n _
@[simp] theorem State.modSlot_prefetch (s : State) (n : Nat) (f : Slot → Slot) : (s.modSlot n f).prefetch = s.prefetch := State.setSlot_prefetch s n _
@[simp] theorem State.modSlot_hostAdds (s : State) (n : Nat) (f : Slot → Slot) : (s.modSlot n f).hostAdds = s.hostAdds := State.setSlot_hostAdds s n _
@[simp] theorem State.modSlot_varnNow (s : State) (n : Nat) (f : Slot → Slot) : (s.modSlot n f).varnNow = s.varnNow := State.setSlot_varnNow s n _
@[simp] theorem State.modSlot_remote (s : State) (n : Nat) (f : Slot → Slot) : (s.modSlot n f).remote = s.remote := State.setSlot_remote s n _
@[simp] theorem State.modSlot_fabReply (s : State) (n : Nat) (f : Slot → Slot) : (s.modSlot n f).fabReply = s.fabReply := State.setSlot_fabReply s n _
@[simp] theorem State.modSlot_farCancels (s : State) (n : Nat) (f : Slot → Slot) : (s.modSlot n f).farCancels = s.farCancels := State.setSlot_farCancels s n _
@[simp] theorem State.modSlot_reroute (s : State) (n : Nat) (f : Slot → Slot) : (s.modSlot n f).reroute = s.reroute := State.setSlot_reroute s n _
@[simp] theorem State.modSlot_migOut (s : State) (n : Nat) (f : Slot → Slot) : (s.modSlot n f).migOut = s.migOut := State.setSlot_migOut s n _
@[simp] theorem State.modSlot_nextTag (s : State) (n : Nat) (f : Slot → Slot) : (s.modSlot n f).nextTag = s.nextTag := State.setSlot_nextTag s n _
@[simp] theorem State.modSlot_replies (s : State) (n : Nat) (f : Slot → Slot) : (s.modSlot n f).replies = s.replies := State.setSlot_replies s n _
@[simp] theorem State.modSlot_colls (s : State) (n : Nat) (f : Slot → Slot) : (s.modSlot n f).colls = s.colls := State.setSlot_colls s n _
@[simp] theorem State.modSlot_collQ (s : State) (n : Nat) (f : Slot → Slot) : (s.modSlot n f).collQ = s.collQ := State.setSlot_collQ s n _
@[simp] theorem State.modSlot_links (s : State) (n : Nat) (f : Slot → Slot) : (s.modSlot n f).links = s.links := State.setSlot_links s n _
@[simp] theorem State.modSlot_table (s : State) (n : Nat) (f : Slot → Slot) : (s.modSlot n f).table = s.table := State.setSlot_table s n _
@[simp] theorem State.modSlot_agreed (s : State) (n : Nat) (f : Slot → Slot) : (s.modSlot n f).agreed = s.agreed := State.setSlot_agreed s n _
@[simp] theorem State.modSlot_changing (s : State) (n : Nat) (f : Slot → Slot) : (s.modSlot n f).changing = s.changing := State.setSlot_changing s n _
@[simp] theorem State.modSlot_lastRec (s : State) (n : Nat) (f : Slot → Slot) : (s.modSlot n f).lastRec = s.lastRec := State.setSlot_lastRec s n _
@[simp] theorem State.modSlot_ports (s : State) (n : Nat) (f : Slot → Slot) : (s.modSlot n f).ports = s.ports := State.setSlot_ports s n _
@[simp] theorem State.modSlot_queues (s : State) (n : Nat) (f : Slot → Slot) : (s.modSlot n f).queues = s.queues := State.setSlot_queues s n _
@[simp] theorem State.modSlot_sketch (s : State) (n : Nat) (f : Slot → Slot) : (s.modSlot n f).sketch = s.sketch := State.setSlot_sketch s n _
@[simp] theorem State.modSlot_skHead (s : State) (n : Nat) (f : Slot → Slot) : (s.modSlot n f).skHead = s.skHead := State.setSlot_skHead s n _
@[simp] theorem State.modSlot_skFreeze (s : State) (n : Nat) (f : Slot → Slot) : (s.modSlot n f).skFreeze = s.skFreeze := State.setSlot_skFreeze s n _
@[simp] theorem State.modSlot_skFrozen (s : State) (n : Nat) (f : Slot → Slot) : (s.modSlot n f).skFrozen = s.skFrozen := State.setSlot_skFrozen s n _
@[simp] theorem State.modSlot_ticks (s : State) (n : Nat) (f : Slot → Slot) : (s.modSlot n f).ticks = s.ticks := State.setSlot_ticks s n _
@[simp] theorem State.modSlot_plat (s : State) (n : Nat) (f : Slot → Slot) : (s.modSlot n f).plat = s.plat := State.setSlot_plat s n _
@[simp] theorem State.modSlot_agenda (s : State) (n : Nat) (f : Slot → Slot) : (s.modSlot n f).agenda = s.agenda := State.setSlot_agenda s n _
@[simp] theorem State.modSlot_regq (s : State) (n : Nat) (f : Slot → Slot) : (s.modSlot n f).regq = s.regq := State.setSlot_regq s n _
@[simp] theorem State.modSlot_freeCtr (s : State) (n : Nat) (f : Slot → Slot) : (s.modSlot n f).freeCtr = s.freeCtr := State.setSlot_freeCtr s n _

@[simp] theorem State.parkAt_hid (s : State) (h : BitVec 2) (p : Park) : (s.parkAt h p).hid = s.hid := rfl
@[simp] theorem State.parkAt_others (s : State) (h : BitVec 2) (p : Park) : (s.parkAt h p).others = s.others := rfl
@[simp] theorem State.parkAt_cores (s : State) (h : BitVec 2) (p : Park) : (s.parkAt h p).cores = s.cores := rfl
@[simp] theorem State.parkAt_tiles (s : State) (h : BitVec 2) (p : Park) : (s.parkAt h p).tiles = s.tiles := rfl
@[simp] theorem State.parkAt_mem (s : State) (h : BitVec 2) (p : Park) : (s.parkAt h p).mem = s.mem := rfl
@[simp] theorem State.parkAt_sectors (s : State) (h : BitVec 2) (p : Park) : (s.parkAt h p).sectors = s.sectors := rfl
@[simp] theorem State.parkAt_tlb (s : State) (h : BitVec 2) (p : Park) : (s.parkAt h p).tlb = s.tlb := rfl
@[simp] theorem State.parkAt_pidtb (s : State) (h : BitVec 2) (p : Park) : (s.parkAt h p).pidtb = s.pidtb := rfl
@[simp] theorem State.parkAt_xvec (s : State) (h : BitVec 2) (p : Park) : (s.parkAt h p).xvec = s.xvec := rfl
@[simp] theorem State.parkAt_profbuf (s : State) (h : BitVec 2) (p : Park) : (s.parkAt h p).profbuf = s.profbuf := rfl
@[simp] theorem State.parkAt_profPos (s : State) (h : BitVec 2) (p : Park) : (s.parkAt h p).profPos = s.profPos := rfl
@[simp] theorem State.parkAt_profWrap (s : State) (h : BitVec 2) (p : Park) : (s.parkAt h p).profWrap = s.profWrap := rfl
@[simp] theorem State.parkAt_corr (s : State) (h : BitVec 2) (p : Park) : (s.parkAt h p).corr = s.corr := rfl
@[simp] theorem State.parkAt_uncorr (s : State) (h : BitVec 2) (p : Park) : (s.parkAt h p).uncorr = s.uncorr := rfl
@[simp] theorem State.parkAt_poison (s : State) (h : BitVec 2) (p : Park) : (s.parkAt h p).poison = s.poison := rfl
@[simp] theorem State.parkAt_dumpQ (s : State) (h : BitVec 2) (p : Park) : (s.parkAt h p).dumpQ = s.dumpQ := rfl
@[simp] theorem State.parkAt_jobs (s : State) (h : BitVec 2) (p : Park) : (s.parkAt h p).jobs = s.jobs := rfl
@[simp] theorem State.parkAt_items (s : State) (h : BitVec 2) (p : Park) : (s.parkAt h p).items = s.items := rfl
@[simp] theorem State.parkAt_away (s : State) (h : BitVec 2) (p : Park) : (s.parkAt h p).away = s.away := rfl
@[simp] theorem State.parkAt_rsvqs (s : State) (h : BitVec 2) (p : Park) : (s.parkAt h p).rsvqs = s.rsvqs := rfl
@[simp] theorem State.parkAt_barriers (s : State) (h : BitVec 2) (p : Park) : (s.parkAt h p).barriers = s.barriers := rfl
@[simp] theorem State.parkAt_deferred (s : State) (h : BitVec 2) (p : Park) : (s.parkAt h p).deferred = s.deferred := rfl
@[simp] theorem State.parkAt_cancels (s : State) (h : BitVec 2) (p : Park) : (s.parkAt h p).cancels = s.cancels := rfl
@[simp] theorem State.parkAt_preempts (s : State) (h : BitVec 2) (p : Park) : (s.parkAt h p).preempts = s.preempts := rfl
@[simp] theorem State.parkAt_known (s : State) (h : BitVec 2) (p : Park) : (s.parkAt h p).known = s.known := rfl
@[simp] theorem State.parkAt_transit (s : State) (h : BitVec 2) (p : Park) : (s.parkAt h p).transit = s.transit := rfl
@[simp] theorem State.parkAt_prefetch (s : State) (h : BitVec 2) (p : Park) : (s.parkAt h p).prefetch = s.prefetch := rfl
@[simp] theorem State.parkAt_hostAdds (s : State) (h : BitVec 2) (p : Park) : (s.parkAt h p).hostAdds = s.hostAdds := rfl
@[simp] theorem State.parkAt_varnNow (s : State) (h : BitVec 2) (p : Park) : (s.parkAt h p).varnNow = s.varnNow := rfl
@[simp] theorem State.parkAt_remote (s : State) (h : BitVec 2) (p : Park) : (s.parkAt h p).remote = s.remote := rfl
@[simp] theorem State.parkAt_fabReply (s : State) (h : BitVec 2) (p : Park) : (s.parkAt h p).fabReply = s.fabReply := rfl
@[simp] theorem State.parkAt_farCancels (s : State) (h : BitVec 2) (p : Park) : (s.parkAt h p).farCancels = s.farCancels := rfl
@[simp] theorem State.parkAt_reroute (s : State) (h : BitVec 2) (p : Park) : (s.parkAt h p).reroute = s.reroute := rfl
@[simp] theorem State.parkAt_migOut (s : State) (h : BitVec 2) (p : Park) : (s.parkAt h p).migOut = s.migOut := rfl
@[simp] theorem State.parkAt_nextTag (s : State) (h : BitVec 2) (p : Park) : (s.parkAt h p).nextTag = s.nextTag := rfl
@[simp] theorem State.parkAt_replies (s : State) (h : BitVec 2) (p : Park) : (s.parkAt h p).replies = s.replies := rfl
@[simp] theorem State.parkAt_colls (s : State) (h : BitVec 2) (p : Park) : (s.parkAt h p).colls = s.colls := rfl
@[simp] theorem State.parkAt_collQ (s : State) (h : BitVec 2) (p : Park) : (s.parkAt h p).collQ = s.collQ := rfl
@[simp] theorem State.parkAt_links (s : State) (h : BitVec 2) (p : Park) : (s.parkAt h p).links = s.links := rfl
@[simp] theorem State.parkAt_table (s : State) (h : BitVec 2) (p : Park) : (s.parkAt h p).table = s.table := rfl
@[simp] theorem State.parkAt_agreed (s : State) (h : BitVec 2) (p : Park) : (s.parkAt h p).agreed = s.agreed := rfl
@[simp] theorem State.parkAt_changing (s : State) (h : BitVec 2) (p : Park) : (s.parkAt h p).changing = s.changing := rfl
@[simp] theorem State.parkAt_lastRec (s : State) (h : BitVec 2) (p : Park) : (s.parkAt h p).lastRec = s.lastRec := rfl
@[simp] theorem State.parkAt_ports (s : State) (h : BitVec 2) (p : Park) : (s.parkAt h p).ports = s.ports := rfl
@[simp] theorem State.parkAt_queues (s : State) (h : BitVec 2) (p : Park) : (s.parkAt h p).queues = s.queues := rfl
@[simp] theorem State.parkAt_sketch (s : State) (h : BitVec 2) (p : Park) : (s.parkAt h p).sketch = s.sketch := rfl
@[simp] theorem State.parkAt_skHead (s : State) (h : BitVec 2) (p : Park) : (s.parkAt h p).skHead = s.skHead := rfl
@[simp] theorem State.parkAt_skFreeze (s : State) (h : BitVec 2) (p : Park) : (s.parkAt h p).skFreeze = s.skFreeze := rfl
@[simp] theorem State.parkAt_skFrozen (s : State) (h : BitVec 2) (p : Park) : (s.parkAt h p).skFrozen = s.skFrozen := rfl
@[simp] theorem State.parkAt_ticks (s : State) (h : BitVec 2) (p : Park) : (s.parkAt h p).ticks = s.ticks := rfl
@[simp] theorem State.parkAt_plat (s : State) (h : BitVec 2) (p : Park) : (s.parkAt h p).plat = s.plat := rfl
@[simp] theorem State.parkAt_agenda (s : State) (h : BitVec 2) (p : Park) : (s.parkAt h p).agenda = s.agenda := rfl
@[simp] theorem State.parkAt_regq (s : State) (h : BitVec 2) (p : Park) : (s.parkAt h p).regq = s.regq := rfl
@[simp] theorem State.parkAt_freeCtr (s : State) (h : BitVec 2) (p : Park) : (s.parkAt h p).freeCtr = s.freeCtr := rfl

@[simp] theorem Slot.setG_occ (x : Slot) (d : BitVec 5) (v : Word) : (x.setG d v).occ = x.occ := rfl
@[simp] theorem Slot.setG_pc (x : Slot) (d : BitVec 5) (v : Word) : (x.setG d v).pc = x.pc := rfl
@[simp] theorem Slot.setG_record (x : Slot) (d : BitVec 5) (v : Word) : (x.setG d v).record = x.record := rfl
@[simp] theorem Slot.setG_v (x : Slot) (d : BitVec 5) (v : Word) : (x.setG d v).v = x.v := rfl
@[simp] theorem Slot.setG_p (x : Slot) (d : BitVec 5) (v : Word) : (x.setG d v).p = x.p := rfl
@[simp] theorem Slot.setG_kbank (x : Slot) (d : BitVec 5) (v : Word) : (x.setG d v).kbank = x.kbank := rfl
@[simp] theorem Slot.setG_lc (x : Slot) (d : BitVec 5) (v : Word) : (x.setG d v).lc = x.lc := rfl
@[simp] theorem Slot.setG_loops (x : Slot) (d : BitVec 5) (v : Word) : (x.setG d v).loops = x.loops := rfl
@[simp] theorem Slot.setG_loopSpare (x : Slot) (d : BitVec 5) (v : Word) : (x.setG d v).loopSpare = x.loopSpare := rfl
@[simp] theorem Slot.setG_fxf (x : Slot) (d : BitVec 5) (v : Word) : (x.setG d v).fxf = x.fxf := rfl
@[simp] theorem Slot.setG_vxf (x : Slot) (d : BitVec 5) (v : Word) : (x.setG d v).vxf = x.vxf := rfl
@[simp] theorem Slot.setG_vw (x : Slot) (d : BitVec 5) (v : Word) : (x.setG d v).vw = x.vw := rfl
@[simp] theorem Slot.setG_vlr (x : Slot) (d : BitVec 5) (v : Word) : (x.setG d v).vlr = x.vlr := rfl
@[simp] theorem Slot.setG_vwin (x : Slot) (d : BitVec 5) (v : Word) : (x.setG d v).vwin = x.vwin := rfl
@[simp] theorem Slot.setG_fmt (x : Slot) (d : BitVec 5) (v : Word) : (x.setG d v).fmt = x.fmt := rfl
@[simp] theorem Slot.setG_scl (x : Slot) (d : BitVec 5) (v : Word) : (x.setG d v).scl = x.scl := rfl
@[simp] theorem Slot.setG_floor (x : Slot) (d : BitVec 5) (v : Word) : (x.setG d v).floor = x.floor := rfl
@[simp] theorem Slot.setG_emulate (x : Slot) (d : BitVec 5) (v : Word) : (x.setG d v).emulate = x.emulate := rfl
@[simp] theorem Slot.setG_psum (x : Slot) (d : BitVec 5) (v : Word) : (x.setG d v).psum = x.psum := rfl
@[simp] theorem Slot.setG_barGen (x : Slot) (d : BitVec 5) (v : Word) : (x.setG d v).barGen = x.barGen := rfl
@[simp] theorem Slot.setG_floorPend (x : Slot) (d : BitVec 5) (v : Word) : (x.setG d v).floorPend = x.floorPend := rfl
@[simp] theorem Slot.setG_status (x : Slot) (d : BitVec 5) (v : Word) : (x.setG d v).status = x.status := rfl
@[simp] theorem Slot.setG_xpc (x : Slot) (d : BitVec 5) (v : Word) : (x.setG d v).xpc = x.xpc := rfl
@[simp] theorem Slot.setG_xsw (x : Slot) (d : BitVec 5) (v : Word) : (x.setG d v).xsw = x.xsw := rfl
@[simp] theorem Slot.setG_xcause (x : Slot) (d : BitVec 5) (v : Word) : (x.setG d v).xcause = x.xcause := rfl
@[simp] theorem Slot.setG_xval (x : Slot) (d : BitVec 5) (v : Word) : (x.setG d v).xval = x.xval := rfl
@[simp] theorem Slot.setG_xtmp (x : Slot) (d : BitVec 5) (v : Word) : (x.setG d v).xtmp = x.xtmp := rfl
@[simp] theorem Slot.setG_park (x : Slot) (d : BitVec 5) (v : Word) : (x.setG d v).park = x.park := rfl
@[simp] theorem Slot.setG_since (x : Slot) (d : BitVec 5) (v : Word) : (x.setG d v).since = x.since := rfl
@[simp] theorem Slot.setG_parkSh (x : Slot) (d : BitVec 5) (v : Word) : (x.setG d v).parkSh = x.parkSh := rfl
@[simp] theorem Slot.setG_pend (x : Slot) (d : BitVec 5) (v : Word) : (x.setG d v).pend = x.pend := rfl
@[simp] theorem Slot.setG_ordr (x : Slot) (d : BitVec 5) (v : Word) : (x.setG d v).ordr = x.ordr := rfl
@[simp] theorem Slot.setG_rsvLine (x : Slot) (d : BitVec 5) (v : Word) : (x.setG d v).rsvLine = x.rsvLine := rfl
@[simp] theorem Slot.setG_revoked (x : Slot) (d : BitVec 5) (v : Word) : (x.setG d v).revoked = x.revoked := rfl
@[simp] theorem Slot.setG_cpOut (x : Slot) (d : BitVec 5) (v : Word) : (x.setG d v).cpOut = x.cpOut := rfl
@[simp] theorem Slot.setG_cpFail (x : Slot) (d : BitVec 5) (v : Word) : (x.setG d v).cpFail = x.cpFail := rfl
@[simp] theorem Slot.setG_ticket (x : Slot) (d : BitVec 5) (v : Word) : (x.setG d v).ticket = x.ticket := rfl
@[simp] theorem Slot.setG_okeep (x : Slot) (d : BitVec 5) (v : Word) : (x.setG d v).okeep = x.okeep := rfl
@[simp] theorem Slot.setG_xkeep (x : Slot) (d : BitVec 5) (v : Word) : (x.setG d v).xkeep = x.xkeep := rfl
@[simp] theorem Slot.setG_passOut (x : Slot) (d : BitVec 5) (v : Word) : (x.setG d v).passOut = x.passOut := rfl
@[simp] theorem Slot.setG_acks (x : Slot) (d : BitVec 5) (v : Word) : (x.setG d v).acks = x.acks := rfl
@[simp] theorem Slot.setG_lateLoad (x : Slot) (d : BitVec 5) (v : Word) : (x.setG d v).lateLoad = x.lateLoad := rfl
@[simp] theorem Slot.setG_lateStore (x : Slot) (d : BitVec 5) (v : Word) : (x.setG d v).lateStore = x.lateStore := rfl
@[simp] theorem Slot.setG_xmmOut (x : Slot) (d : BitVec 5) (v : Word) : (x.setG d v).xmmOut = x.xmmOut := rfl
@[simp] theorem Slot.setG_pooled (x : Slot) (d : BitVec 5) (v : Word) : (x.setG d v).pooled = x.pooled := rfl
@[simp] theorem Slot.setG_rstate (x : Slot) (d : BitVec 5) (v : Word) : (x.setG d v).rstate = x.rstate := rfl
@[simp] theorem Slot.setG_rmax (x : Slot) (d : BitVec 5) (v : Word) : (x.setG d v).rmax = x.rmax := rfl
@[simp] theorem Slot.setG_badRegs (x : Slot) (d : BitVec 5) (v : Word) : (x.setG d v).badRegs = x.badRegs := rfl
@[simp] theorem Slot.setG_counted (x : Slot) (d : BitVec 5) (v : Word) : (x.setG d v).counted = x.counted := rfl
@[simp] theorem Slot.setG_bound (x : Slot) (d : BitVec 5) (v : Word) : (x.setG d v).bound = x.bound := rfl
@[simp] theorem Slot.setG_lp (x : Slot) (d : BitVec 5) (v : Word) : (x.setG d v).lp = x.lp := rfl
@[simp] theorem Slot.setG_skips (x : Slot) (d : BitVec 5) (v : Word) : (x.setG d v).skips = x.skips := rfl
@[simp] theorem Slot.setG_notBefore (x : Slot) (d : BitVec 5) (v : Word) : (x.setG d v).notBefore = x.notBefore := rfl
@[simp] theorem Slot.setG_ready (x : Slot) (d : BitVec 5) (v : Word) : (x.setG d v).ready = x.ready := rfl
@[simp] theorem Slot.setG_sbHint (x : Slot) (d : BitVec 5) (v : Word) : (x.setG d v).sbHint = x.sbHint := rfl
@[simp] theorem Slot.setG_lbuf (x : Slot) (d : BitVec 5) (v : Word) : (x.setG d v).lbuf = x.lbuf := rfl
@[simp] theorem Slot.setG_landed (x : Slot) (d : BitVec 5) (v : Word) : (x.setG d v).landed = x.landed := rfl

@[simp] theorem Slot.setV_occ (x : Slot) (d : BitVec 5) (v : VReg) : (x.setV d v).occ = x.occ := rfl
@[simp] theorem Slot.setV_pc (x : Slot) (d : BitVec 5) (v : VReg) : (x.setV d v).pc = x.pc := rfl
@[simp] theorem Slot.setV_record (x : Slot) (d : BitVec 5) (v : VReg) : (x.setV d v).record = x.record := rfl
@[simp] theorem Slot.setV_g (x : Slot) (d : BitVec 5) (v : VReg) : (x.setV d v).g = x.g := rfl
@[simp] theorem Slot.setV_p (x : Slot) (d : BitVec 5) (v : VReg) : (x.setV d v).p = x.p := rfl
@[simp] theorem Slot.setV_kbank (x : Slot) (d : BitVec 5) (v : VReg) : (x.setV d v).kbank = x.kbank := rfl
@[simp] theorem Slot.setV_lc (x : Slot) (d : BitVec 5) (v : VReg) : (x.setV d v).lc = x.lc := rfl
@[simp] theorem Slot.setV_loops (x : Slot) (d : BitVec 5) (v : VReg) : (x.setV d v).loops = x.loops := rfl
@[simp] theorem Slot.setV_loopSpare (x : Slot) (d : BitVec 5) (v : VReg) : (x.setV d v).loopSpare = x.loopSpare := rfl
@[simp] theorem Slot.setV_fxf (x : Slot) (d : BitVec 5) (v : VReg) : (x.setV d v).fxf = x.fxf := rfl
@[simp] theorem Slot.setV_vxf (x : Slot) (d : BitVec 5) (v : VReg) : (x.setV d v).vxf = x.vxf := rfl
@[simp] theorem Slot.setV_vw (x : Slot) (d : BitVec 5) (v : VReg) : (x.setV d v).vw = x.vw := rfl
@[simp] theorem Slot.setV_vlr (x : Slot) (d : BitVec 5) (v : VReg) : (x.setV d v).vlr = x.vlr := rfl
@[simp] theorem Slot.setV_vwin (x : Slot) (d : BitVec 5) (v : VReg) : (x.setV d v).vwin = x.vwin := rfl
@[simp] theorem Slot.setV_fmt (x : Slot) (d : BitVec 5) (v : VReg) : (x.setV d v).fmt = x.fmt := rfl
@[simp] theorem Slot.setV_scl (x : Slot) (d : BitVec 5) (v : VReg) : (x.setV d v).scl = x.scl := rfl
@[simp] theorem Slot.setV_floor (x : Slot) (d : BitVec 5) (v : VReg) : (x.setV d v).floor = x.floor := rfl
@[simp] theorem Slot.setV_emulate (x : Slot) (d : BitVec 5) (v : VReg) : (x.setV d v).emulate = x.emulate := rfl
@[simp] theorem Slot.setV_psum (x : Slot) (d : BitVec 5) (v : VReg) : (x.setV d v).psum = x.psum := rfl
@[simp] theorem Slot.setV_barGen (x : Slot) (d : BitVec 5) (v : VReg) : (x.setV d v).barGen = x.barGen := rfl
@[simp] theorem Slot.setV_floorPend (x : Slot) (d : BitVec 5) (v : VReg) : (x.setV d v).floorPend = x.floorPend := rfl
@[simp] theorem Slot.setV_status (x : Slot) (d : BitVec 5) (v : VReg) : (x.setV d v).status = x.status := rfl
@[simp] theorem Slot.setV_xpc (x : Slot) (d : BitVec 5) (v : VReg) : (x.setV d v).xpc = x.xpc := rfl
@[simp] theorem Slot.setV_xsw (x : Slot) (d : BitVec 5) (v : VReg) : (x.setV d v).xsw = x.xsw := rfl
@[simp] theorem Slot.setV_xcause (x : Slot) (d : BitVec 5) (v : VReg) : (x.setV d v).xcause = x.xcause := rfl
@[simp] theorem Slot.setV_xval (x : Slot) (d : BitVec 5) (v : VReg) : (x.setV d v).xval = x.xval := rfl
@[simp] theorem Slot.setV_xtmp (x : Slot) (d : BitVec 5) (v : VReg) : (x.setV d v).xtmp = x.xtmp := rfl
@[simp] theorem Slot.setV_park (x : Slot) (d : BitVec 5) (v : VReg) : (x.setV d v).park = x.park := rfl
@[simp] theorem Slot.setV_since (x : Slot) (d : BitVec 5) (v : VReg) : (x.setV d v).since = x.since := rfl
@[simp] theorem Slot.setV_parkSh (x : Slot) (d : BitVec 5) (v : VReg) : (x.setV d v).parkSh = x.parkSh := rfl
@[simp] theorem Slot.setV_pend (x : Slot) (d : BitVec 5) (v : VReg) : (x.setV d v).pend = x.pend := rfl
@[simp] theorem Slot.setV_ordr (x : Slot) (d : BitVec 5) (v : VReg) : (x.setV d v).ordr = x.ordr := rfl
@[simp] theorem Slot.setV_rsvLine (x : Slot) (d : BitVec 5) (v : VReg) : (x.setV d v).rsvLine = x.rsvLine := rfl
@[simp] theorem Slot.setV_revoked (x : Slot) (d : BitVec 5) (v : VReg) : (x.setV d v).revoked = x.revoked := rfl
@[simp] theorem Slot.setV_cpOut (x : Slot) (d : BitVec 5) (v : VReg) : (x.setV d v).cpOut = x.cpOut := rfl
@[simp] theorem Slot.setV_cpFail (x : Slot) (d : BitVec 5) (v : VReg) : (x.setV d v).cpFail = x.cpFail := rfl
@[simp] theorem Slot.setV_ticket (x : Slot) (d : BitVec 5) (v : VReg) : (x.setV d v).ticket = x.ticket := rfl
@[simp] theorem Slot.setV_okeep (x : Slot) (d : BitVec 5) (v : VReg) : (x.setV d v).okeep = x.okeep := rfl
@[simp] theorem Slot.setV_xkeep (x : Slot) (d : BitVec 5) (v : VReg) : (x.setV d v).xkeep = x.xkeep := rfl
@[simp] theorem Slot.setV_passOut (x : Slot) (d : BitVec 5) (v : VReg) : (x.setV d v).passOut = x.passOut := rfl
@[simp] theorem Slot.setV_acks (x : Slot) (d : BitVec 5) (v : VReg) : (x.setV d v).acks = x.acks := rfl
@[simp] theorem Slot.setV_lateLoad (x : Slot) (d : BitVec 5) (v : VReg) : (x.setV d v).lateLoad = x.lateLoad := rfl
@[simp] theorem Slot.setV_lateStore (x : Slot) (d : BitVec 5) (v : VReg) : (x.setV d v).lateStore = x.lateStore := rfl
@[simp] theorem Slot.setV_xmmOut (x : Slot) (d : BitVec 5) (v : VReg) : (x.setV d v).xmmOut = x.xmmOut := rfl
@[simp] theorem Slot.setV_pooled (x : Slot) (d : BitVec 5) (v : VReg) : (x.setV d v).pooled = x.pooled := rfl
@[simp] theorem Slot.setV_rstate (x : Slot) (d : BitVec 5) (v : VReg) : (x.setV d v).rstate = x.rstate := rfl
@[simp] theorem Slot.setV_rmax (x : Slot) (d : BitVec 5) (v : VReg) : (x.setV d v).rmax = x.rmax := rfl
@[simp] theorem Slot.setV_badRegs (x : Slot) (d : BitVec 5) (v : VReg) : (x.setV d v).badRegs = x.badRegs := rfl
@[simp] theorem Slot.setV_counted (x : Slot) (d : BitVec 5) (v : VReg) : (x.setV d v).counted = x.counted := rfl
@[simp] theorem Slot.setV_bound (x : Slot) (d : BitVec 5) (v : VReg) : (x.setV d v).bound = x.bound := rfl
@[simp] theorem Slot.setV_lp (x : Slot) (d : BitVec 5) (v : VReg) : (x.setV d v).lp = x.lp := rfl
@[simp] theorem Slot.setV_skips (x : Slot) (d : BitVec 5) (v : VReg) : (x.setV d v).skips = x.skips := rfl
@[simp] theorem Slot.setV_notBefore (x : Slot) (d : BitVec 5) (v : VReg) : (x.setV d v).notBefore = x.notBefore := rfl
@[simp] theorem Slot.setV_ready (x : Slot) (d : BitVec 5) (v : VReg) : (x.setV d v).ready = x.ready := rfl
@[simp] theorem Slot.setV_sbHint (x : Slot) (d : BitVec 5) (v : VReg) : (x.setV d v).sbHint = x.sbHint := rfl
@[simp] theorem Slot.setV_lbuf (x : Slot) (d : BitVec 5) (v : VReg) : (x.setV d v).lbuf = x.lbuf := rfl
@[simp] theorem Slot.setV_landed (x : Slot) (d : BitVec 5) (v : VReg) : (x.setV d v).landed = x.landed := rfl

@[simp] theorem Slot.setPhysV_occ (x : Slot) (d : Nat) (v : VReg) : (x.setPhysV d v).occ = x.occ := rfl
@[simp] theorem Slot.setPhysV_pc (x : Slot) (d : Nat) (v : VReg) : (x.setPhysV d v).pc = x.pc := rfl
@[simp] theorem Slot.setPhysV_record (x : Slot) (d : Nat) (v : VReg) : (x.setPhysV d v).record = x.record := rfl
@[simp] theorem Slot.setPhysV_g (x : Slot) (d : Nat) (v : VReg) : (x.setPhysV d v).g = x.g := rfl
@[simp] theorem Slot.setPhysV_p (x : Slot) (d : Nat) (v : VReg) : (x.setPhysV d v).p = x.p := rfl
@[simp] theorem Slot.setPhysV_kbank (x : Slot) (d : Nat) (v : VReg) : (x.setPhysV d v).kbank = x.kbank := rfl
@[simp] theorem Slot.setPhysV_lc (x : Slot) (d : Nat) (v : VReg) : (x.setPhysV d v).lc = x.lc := rfl
@[simp] theorem Slot.setPhysV_loops (x : Slot) (d : Nat) (v : VReg) : (x.setPhysV d v).loops = x.loops := rfl
@[simp] theorem Slot.setPhysV_loopSpare (x : Slot) (d : Nat) (v : VReg) : (x.setPhysV d v).loopSpare = x.loopSpare := rfl
@[simp] theorem Slot.setPhysV_fxf (x : Slot) (d : Nat) (v : VReg) : (x.setPhysV d v).fxf = x.fxf := rfl
@[simp] theorem Slot.setPhysV_vxf (x : Slot) (d : Nat) (v : VReg) : (x.setPhysV d v).vxf = x.vxf := rfl
@[simp] theorem Slot.setPhysV_vw (x : Slot) (d : Nat) (v : VReg) : (x.setPhysV d v).vw = x.vw := rfl
@[simp] theorem Slot.setPhysV_vlr (x : Slot) (d : Nat) (v : VReg) : (x.setPhysV d v).vlr = x.vlr := rfl
@[simp] theorem Slot.setPhysV_vwin (x : Slot) (d : Nat) (v : VReg) : (x.setPhysV d v).vwin = x.vwin := rfl
@[simp] theorem Slot.setPhysV_fmt (x : Slot) (d : Nat) (v : VReg) : (x.setPhysV d v).fmt = x.fmt := rfl
@[simp] theorem Slot.setPhysV_scl (x : Slot) (d : Nat) (v : VReg) : (x.setPhysV d v).scl = x.scl := rfl
@[simp] theorem Slot.setPhysV_floor (x : Slot) (d : Nat) (v : VReg) : (x.setPhysV d v).floor = x.floor := rfl
@[simp] theorem Slot.setPhysV_emulate (x : Slot) (d : Nat) (v : VReg) : (x.setPhysV d v).emulate = x.emulate := rfl
@[simp] theorem Slot.setPhysV_psum (x : Slot) (d : Nat) (v : VReg) : (x.setPhysV d v).psum = x.psum := rfl
@[simp] theorem Slot.setPhysV_barGen (x : Slot) (d : Nat) (v : VReg) : (x.setPhysV d v).barGen = x.barGen := rfl
@[simp] theorem Slot.setPhysV_floorPend (x : Slot) (d : Nat) (v : VReg) : (x.setPhysV d v).floorPend = x.floorPend := rfl
@[simp] theorem Slot.setPhysV_status (x : Slot) (d : Nat) (v : VReg) : (x.setPhysV d v).status = x.status := rfl
@[simp] theorem Slot.setPhysV_xpc (x : Slot) (d : Nat) (v : VReg) : (x.setPhysV d v).xpc = x.xpc := rfl
@[simp] theorem Slot.setPhysV_xsw (x : Slot) (d : Nat) (v : VReg) : (x.setPhysV d v).xsw = x.xsw := rfl
@[simp] theorem Slot.setPhysV_xcause (x : Slot) (d : Nat) (v : VReg) : (x.setPhysV d v).xcause = x.xcause := rfl
@[simp] theorem Slot.setPhysV_xval (x : Slot) (d : Nat) (v : VReg) : (x.setPhysV d v).xval = x.xval := rfl
@[simp] theorem Slot.setPhysV_xtmp (x : Slot) (d : Nat) (v : VReg) : (x.setPhysV d v).xtmp = x.xtmp := rfl
@[simp] theorem Slot.setPhysV_park (x : Slot) (d : Nat) (v : VReg) : (x.setPhysV d v).park = x.park := rfl
@[simp] theorem Slot.setPhysV_since (x : Slot) (d : Nat) (v : VReg) : (x.setPhysV d v).since = x.since := rfl
@[simp] theorem Slot.setPhysV_parkSh (x : Slot) (d : Nat) (v : VReg) : (x.setPhysV d v).parkSh = x.parkSh := rfl
@[simp] theorem Slot.setPhysV_pend (x : Slot) (d : Nat) (v : VReg) : (x.setPhysV d v).pend = x.pend := rfl
@[simp] theorem Slot.setPhysV_ordr (x : Slot) (d : Nat) (v : VReg) : (x.setPhysV d v).ordr = x.ordr := rfl
@[simp] theorem Slot.setPhysV_rsvLine (x : Slot) (d : Nat) (v : VReg) : (x.setPhysV d v).rsvLine = x.rsvLine := rfl
@[simp] theorem Slot.setPhysV_revoked (x : Slot) (d : Nat) (v : VReg) : (x.setPhysV d v).revoked = x.revoked := rfl
@[simp] theorem Slot.setPhysV_cpOut (x : Slot) (d : Nat) (v : VReg) : (x.setPhysV d v).cpOut = x.cpOut := rfl
@[simp] theorem Slot.setPhysV_cpFail (x : Slot) (d : Nat) (v : VReg) : (x.setPhysV d v).cpFail = x.cpFail := rfl
@[simp] theorem Slot.setPhysV_ticket (x : Slot) (d : Nat) (v : VReg) : (x.setPhysV d v).ticket = x.ticket := rfl
@[simp] theorem Slot.setPhysV_okeep (x : Slot) (d : Nat) (v : VReg) : (x.setPhysV d v).okeep = x.okeep := rfl
@[simp] theorem Slot.setPhysV_xkeep (x : Slot) (d : Nat) (v : VReg) : (x.setPhysV d v).xkeep = x.xkeep := rfl
@[simp] theorem Slot.setPhysV_passOut (x : Slot) (d : Nat) (v : VReg) : (x.setPhysV d v).passOut = x.passOut := rfl
@[simp] theorem Slot.setPhysV_acks (x : Slot) (d : Nat) (v : VReg) : (x.setPhysV d v).acks = x.acks := rfl
@[simp] theorem Slot.setPhysV_lateLoad (x : Slot) (d : Nat) (v : VReg) : (x.setPhysV d v).lateLoad = x.lateLoad := rfl
@[simp] theorem Slot.setPhysV_lateStore (x : Slot) (d : Nat) (v : VReg) : (x.setPhysV d v).lateStore = x.lateStore := rfl
@[simp] theorem Slot.setPhysV_xmmOut (x : Slot) (d : Nat) (v : VReg) : (x.setPhysV d v).xmmOut = x.xmmOut := rfl
@[simp] theorem Slot.setPhysV_pooled (x : Slot) (d : Nat) (v : VReg) : (x.setPhysV d v).pooled = x.pooled := rfl
@[simp] theorem Slot.setPhysV_rstate (x : Slot) (d : Nat) (v : VReg) : (x.setPhysV d v).rstate = x.rstate := rfl
@[simp] theorem Slot.setPhysV_rmax (x : Slot) (d : Nat) (v : VReg) : (x.setPhysV d v).rmax = x.rmax := rfl
@[simp] theorem Slot.setPhysV_badRegs (x : Slot) (d : Nat) (v : VReg) : (x.setPhysV d v).badRegs = x.badRegs := rfl
@[simp] theorem Slot.setPhysV_counted (x : Slot) (d : Nat) (v : VReg) : (x.setPhysV d v).counted = x.counted := rfl
@[simp] theorem Slot.setPhysV_bound (x : Slot) (d : Nat) (v : VReg) : (x.setPhysV d v).bound = x.bound := rfl
@[simp] theorem Slot.setPhysV_lp (x : Slot) (d : Nat) (v : VReg) : (x.setPhysV d v).lp = x.lp := rfl
@[simp] theorem Slot.setPhysV_skips (x : Slot) (d : Nat) (v : VReg) : (x.setPhysV d v).skips = x.skips := rfl
@[simp] theorem Slot.setPhysV_notBefore (x : Slot) (d : Nat) (v : VReg) : (x.setPhysV d v).notBefore = x.notBefore := rfl
@[simp] theorem Slot.setPhysV_ready (x : Slot) (d : Nat) (v : VReg) : (x.setPhysV d v).ready = x.ready := rfl
@[simp] theorem Slot.setPhysV_sbHint (x : Slot) (d : Nat) (v : VReg) : (x.setPhysV d v).sbHint = x.sbHint := rfl
@[simp] theorem Slot.setPhysV_lbuf (x : Slot) (d : Nat) (v : VReg) : (x.setPhysV d v).lbuf = x.lbuf := rfl
@[simp] theorem Slot.setPhysV_landed (x : Slot) (d : Nat) (v : VReg) : (x.setPhysV d v).landed = x.landed := rfl

@[simp] theorem Slot.setP_occ (x : Slot) (d : BitVec 3) (v : Mask) : (x.setP d v).occ = x.occ := by
  unfold Slot.setP; split <;> rfl
@[simp] theorem Slot.setP_pc (x : Slot) (d : BitVec 3) (v : Mask) : (x.setP d v).pc = x.pc := by
  unfold Slot.setP; split <;> rfl
@[simp] theorem Slot.setP_record (x : Slot) (d : BitVec 3) (v : Mask) : (x.setP d v).record = x.record := by
  unfold Slot.setP; split <;> rfl
@[simp] theorem Slot.setP_g (x : Slot) (d : BitVec 3) (v : Mask) : (x.setP d v).g = x.g := by
  unfold Slot.setP; split <;> rfl
@[simp] theorem Slot.setP_v (x : Slot) (d : BitVec 3) (v : Mask) : (x.setP d v).v = x.v := by
  unfold Slot.setP; split <;> rfl
@[simp] theorem Slot.setP_kbank (x : Slot) (d : BitVec 3) (v : Mask) : (x.setP d v).kbank = x.kbank := by
  unfold Slot.setP; split <;> rfl
@[simp] theorem Slot.setP_lc (x : Slot) (d : BitVec 3) (v : Mask) : (x.setP d v).lc = x.lc := by
  unfold Slot.setP; split <;> rfl
@[simp] theorem Slot.setP_loops (x : Slot) (d : BitVec 3) (v : Mask) : (x.setP d v).loops = x.loops := by
  unfold Slot.setP; split <;> rfl
@[simp] theorem Slot.setP_loopSpare (x : Slot) (d : BitVec 3) (v : Mask) : (x.setP d v).loopSpare = x.loopSpare := by
  unfold Slot.setP; split <;> rfl
@[simp] theorem Slot.setP_fxf (x : Slot) (d : BitVec 3) (v : Mask) : (x.setP d v).fxf = x.fxf := by
  unfold Slot.setP; split <;> rfl
@[simp] theorem Slot.setP_vxf (x : Slot) (d : BitVec 3) (v : Mask) : (x.setP d v).vxf = x.vxf := by
  unfold Slot.setP; split <;> rfl
@[simp] theorem Slot.setP_vw (x : Slot) (d : BitVec 3) (v : Mask) : (x.setP d v).vw = x.vw := by
  unfold Slot.setP; split <;> rfl
@[simp] theorem Slot.setP_vlr (x : Slot) (d : BitVec 3) (v : Mask) : (x.setP d v).vlr = x.vlr := by
  unfold Slot.setP; split <;> rfl
@[simp] theorem Slot.setP_vwin (x : Slot) (d : BitVec 3) (v : Mask) : (x.setP d v).vwin = x.vwin := by
  unfold Slot.setP; split <;> rfl
@[simp] theorem Slot.setP_fmt (x : Slot) (d : BitVec 3) (v : Mask) : (x.setP d v).fmt = x.fmt := by
  unfold Slot.setP; split <;> rfl
@[simp] theorem Slot.setP_scl (x : Slot) (d : BitVec 3) (v : Mask) : (x.setP d v).scl = x.scl := by
  unfold Slot.setP; split <;> rfl
@[simp] theorem Slot.setP_floor (x : Slot) (d : BitVec 3) (v : Mask) : (x.setP d v).floor = x.floor := by
  unfold Slot.setP; split <;> rfl
@[simp] theorem Slot.setP_emulate (x : Slot) (d : BitVec 3) (v : Mask) : (x.setP d v).emulate = x.emulate := by
  unfold Slot.setP; split <;> rfl
@[simp] theorem Slot.setP_psum (x : Slot) (d : BitVec 3) (v : Mask) : (x.setP d v).psum = x.psum := by
  unfold Slot.setP; split <;> rfl
@[simp] theorem Slot.setP_barGen (x : Slot) (d : BitVec 3) (v : Mask) : (x.setP d v).barGen = x.barGen := by
  unfold Slot.setP; split <;> rfl
@[simp] theorem Slot.setP_floorPend (x : Slot) (d : BitVec 3) (v : Mask) : (x.setP d v).floorPend = x.floorPend := by
  unfold Slot.setP; split <;> rfl
@[simp] theorem Slot.setP_status (x : Slot) (d : BitVec 3) (v : Mask) : (x.setP d v).status = x.status := by
  unfold Slot.setP; split <;> rfl
@[simp] theorem Slot.setP_xpc (x : Slot) (d : BitVec 3) (v : Mask) : (x.setP d v).xpc = x.xpc := by
  unfold Slot.setP; split <;> rfl
@[simp] theorem Slot.setP_xsw (x : Slot) (d : BitVec 3) (v : Mask) : (x.setP d v).xsw = x.xsw := by
  unfold Slot.setP; split <;> rfl
@[simp] theorem Slot.setP_xcause (x : Slot) (d : BitVec 3) (v : Mask) : (x.setP d v).xcause = x.xcause := by
  unfold Slot.setP; split <;> rfl
@[simp] theorem Slot.setP_xval (x : Slot) (d : BitVec 3) (v : Mask) : (x.setP d v).xval = x.xval := by
  unfold Slot.setP; split <;> rfl
@[simp] theorem Slot.setP_xtmp (x : Slot) (d : BitVec 3) (v : Mask) : (x.setP d v).xtmp = x.xtmp := by
  unfold Slot.setP; split <;> rfl
@[simp] theorem Slot.setP_park (x : Slot) (d : BitVec 3) (v : Mask) : (x.setP d v).park = x.park := by
  unfold Slot.setP; split <;> rfl
@[simp] theorem Slot.setP_since (x : Slot) (d : BitVec 3) (v : Mask) : (x.setP d v).since = x.since := by
  unfold Slot.setP; split <;> rfl
@[simp] theorem Slot.setP_parkSh (x : Slot) (d : BitVec 3) (v : Mask) : (x.setP d v).parkSh = x.parkSh := by
  unfold Slot.setP; split <;> rfl
@[simp] theorem Slot.setP_pend (x : Slot) (d : BitVec 3) (v : Mask) : (x.setP d v).pend = x.pend := by
  unfold Slot.setP; split <;> rfl
@[simp] theorem Slot.setP_ordr (x : Slot) (d : BitVec 3) (v : Mask) : (x.setP d v).ordr = x.ordr := by
  unfold Slot.setP; split <;> rfl
@[simp] theorem Slot.setP_rsvLine (x : Slot) (d : BitVec 3) (v : Mask) : (x.setP d v).rsvLine = x.rsvLine := by
  unfold Slot.setP; split <;> rfl
@[simp] theorem Slot.setP_revoked (x : Slot) (d : BitVec 3) (v : Mask) : (x.setP d v).revoked = x.revoked := by
  unfold Slot.setP; split <;> rfl
@[simp] theorem Slot.setP_cpOut (x : Slot) (d : BitVec 3) (v : Mask) : (x.setP d v).cpOut = x.cpOut := by
  unfold Slot.setP; split <;> rfl
@[simp] theorem Slot.setP_cpFail (x : Slot) (d : BitVec 3) (v : Mask) : (x.setP d v).cpFail = x.cpFail := by
  unfold Slot.setP; split <;> rfl
@[simp] theorem Slot.setP_ticket (x : Slot) (d : BitVec 3) (v : Mask) : (x.setP d v).ticket = x.ticket := by
  unfold Slot.setP; split <;> rfl
@[simp] theorem Slot.setP_okeep (x : Slot) (d : BitVec 3) (v : Mask) : (x.setP d v).okeep = x.okeep := by
  unfold Slot.setP; split <;> rfl
@[simp] theorem Slot.setP_xkeep (x : Slot) (d : BitVec 3) (v : Mask) : (x.setP d v).xkeep = x.xkeep := by
  unfold Slot.setP; split <;> rfl
@[simp] theorem Slot.setP_passOut (x : Slot) (d : BitVec 3) (v : Mask) : (x.setP d v).passOut = x.passOut := by
  unfold Slot.setP; split <;> rfl
@[simp] theorem Slot.setP_acks (x : Slot) (d : BitVec 3) (v : Mask) : (x.setP d v).acks = x.acks := by
  unfold Slot.setP; split <;> rfl
@[simp] theorem Slot.setP_lateLoad (x : Slot) (d : BitVec 3) (v : Mask) : (x.setP d v).lateLoad = x.lateLoad := by
  unfold Slot.setP; split <;> rfl
@[simp] theorem Slot.setP_lateStore (x : Slot) (d : BitVec 3) (v : Mask) : (x.setP d v).lateStore = x.lateStore := by
  unfold Slot.setP; split <;> rfl
@[simp] theorem Slot.setP_xmmOut (x : Slot) (d : BitVec 3) (v : Mask) : (x.setP d v).xmmOut = x.xmmOut := by
  unfold Slot.setP; split <;> rfl
@[simp] theorem Slot.setP_pooled (x : Slot) (d : BitVec 3) (v : Mask) : (x.setP d v).pooled = x.pooled := by
  unfold Slot.setP; split <;> rfl
@[simp] theorem Slot.setP_rstate (x : Slot) (d : BitVec 3) (v : Mask) : (x.setP d v).rstate = x.rstate := by
  unfold Slot.setP; split <;> rfl
@[simp] theorem Slot.setP_rmax (x : Slot) (d : BitVec 3) (v : Mask) : (x.setP d v).rmax = x.rmax := by
  unfold Slot.setP; split <;> rfl
@[simp] theorem Slot.setP_badRegs (x : Slot) (d : BitVec 3) (v : Mask) : (x.setP d v).badRegs = x.badRegs := by
  unfold Slot.setP; split <;> rfl
@[simp] theorem Slot.setP_counted (x : Slot) (d : BitVec 3) (v : Mask) : (x.setP d v).counted = x.counted := by
  unfold Slot.setP; split <;> rfl
@[simp] theorem Slot.setP_bound (x : Slot) (d : BitVec 3) (v : Mask) : (x.setP d v).bound = x.bound := by
  unfold Slot.setP; split <;> rfl
@[simp] theorem Slot.setP_lp (x : Slot) (d : BitVec 3) (v : Mask) : (x.setP d v).lp = x.lp := by
  unfold Slot.setP; split <;> rfl
@[simp] theorem Slot.setP_skips (x : Slot) (d : BitVec 3) (v : Mask) : (x.setP d v).skips = x.skips := by
  unfold Slot.setP; split <;> rfl
@[simp] theorem Slot.setP_notBefore (x : Slot) (d : BitVec 3) (v : Mask) : (x.setP d v).notBefore = x.notBefore := by
  unfold Slot.setP; split <;> rfl
@[simp] theorem Slot.setP_ready (x : Slot) (d : BitVec 3) (v : Mask) : (x.setP d v).ready = x.ready := by
  unfold Slot.setP; split <;> rfl
@[simp] theorem Slot.setP_sbHint (x : Slot) (d : BitVec 3) (v : Mask) : (x.setP d v).sbHint = x.sbHint := by
  unfold Slot.setP; split <;> rfl
@[simp] theorem Slot.setP_lbuf (x : Slot) (d : BitVec 3) (v : Mask) : (x.setP d v).lbuf = x.lbuf := by
  unfold Slot.setP; split <;> rfl
@[simp] theorem Slot.setP_landed (x : Slot) (d : BitVec 3) (v : Mask) : (x.setP d v).landed = x.landed := by
  unfold Slot.setP; split <;> rfl

@[simp] theorem Slot.orFxf_occ (x : Slot) (f : BitVec 6) : (x.orFxf f).occ = x.occ := rfl
@[simp] theorem Slot.orFxf_pc (x : Slot) (f : BitVec 6) : (x.orFxf f).pc = x.pc := rfl
@[simp] theorem Slot.orFxf_record (x : Slot) (f : BitVec 6) : (x.orFxf f).record = x.record := rfl
@[simp] theorem Slot.orFxf_g (x : Slot) (f : BitVec 6) : (x.orFxf f).g = x.g := rfl
@[simp] theorem Slot.orFxf_v (x : Slot) (f : BitVec 6) : (x.orFxf f).v = x.v := rfl
@[simp] theorem Slot.orFxf_p (x : Slot) (f : BitVec 6) : (x.orFxf f).p = x.p := rfl
@[simp] theorem Slot.orFxf_kbank (x : Slot) (f : BitVec 6) : (x.orFxf f).kbank = x.kbank := rfl
@[simp] theorem Slot.orFxf_lc (x : Slot) (f : BitVec 6) : (x.orFxf f).lc = x.lc := rfl
@[simp] theorem Slot.orFxf_loops (x : Slot) (f : BitVec 6) : (x.orFxf f).loops = x.loops := rfl
@[simp] theorem Slot.orFxf_loopSpare (x : Slot) (f : BitVec 6) : (x.orFxf f).loopSpare = x.loopSpare := rfl
@[simp] theorem Slot.orFxf_vxf (x : Slot) (f : BitVec 6) : (x.orFxf f).vxf = x.vxf := rfl
@[simp] theorem Slot.orFxf_vw (x : Slot) (f : BitVec 6) : (x.orFxf f).vw = x.vw := rfl
@[simp] theorem Slot.orFxf_vlr (x : Slot) (f : BitVec 6) : (x.orFxf f).vlr = x.vlr := rfl
@[simp] theorem Slot.orFxf_vwin (x : Slot) (f : BitVec 6) : (x.orFxf f).vwin = x.vwin := rfl
@[simp] theorem Slot.orFxf_fmt (x : Slot) (f : BitVec 6) : (x.orFxf f).fmt = x.fmt := rfl
@[simp] theorem Slot.orFxf_scl (x : Slot) (f : BitVec 6) : (x.orFxf f).scl = x.scl := rfl
@[simp] theorem Slot.orFxf_floor (x : Slot) (f : BitVec 6) : (x.orFxf f).floor = x.floor := rfl
@[simp] theorem Slot.orFxf_emulate (x : Slot) (f : BitVec 6) : (x.orFxf f).emulate = x.emulate := rfl
@[simp] theorem Slot.orFxf_psum (x : Slot) (f : BitVec 6) : (x.orFxf f).psum = x.psum := rfl
@[simp] theorem Slot.orFxf_barGen (x : Slot) (f : BitVec 6) : (x.orFxf f).barGen = x.barGen := rfl
@[simp] theorem Slot.orFxf_floorPend (x : Slot) (f : BitVec 6) : (x.orFxf f).floorPend = x.floorPend := rfl
@[simp] theorem Slot.orFxf_status (x : Slot) (f : BitVec 6) : (x.orFxf f).status = x.status := rfl
@[simp] theorem Slot.orFxf_xpc (x : Slot) (f : BitVec 6) : (x.orFxf f).xpc = x.xpc := rfl
@[simp] theorem Slot.orFxf_xsw (x : Slot) (f : BitVec 6) : (x.orFxf f).xsw = x.xsw := rfl
@[simp] theorem Slot.orFxf_xcause (x : Slot) (f : BitVec 6) : (x.orFxf f).xcause = x.xcause := rfl
@[simp] theorem Slot.orFxf_xval (x : Slot) (f : BitVec 6) : (x.orFxf f).xval = x.xval := rfl
@[simp] theorem Slot.orFxf_xtmp (x : Slot) (f : BitVec 6) : (x.orFxf f).xtmp = x.xtmp := rfl
@[simp] theorem Slot.orFxf_park (x : Slot) (f : BitVec 6) : (x.orFxf f).park = x.park := rfl
@[simp] theorem Slot.orFxf_since (x : Slot) (f : BitVec 6) : (x.orFxf f).since = x.since := rfl
@[simp] theorem Slot.orFxf_parkSh (x : Slot) (f : BitVec 6) : (x.orFxf f).parkSh = x.parkSh := rfl
@[simp] theorem Slot.orFxf_pend (x : Slot) (f : BitVec 6) : (x.orFxf f).pend = x.pend := rfl
@[simp] theorem Slot.orFxf_ordr (x : Slot) (f : BitVec 6) : (x.orFxf f).ordr = x.ordr := rfl
@[simp] theorem Slot.orFxf_rsvLine (x : Slot) (f : BitVec 6) : (x.orFxf f).rsvLine = x.rsvLine := rfl
@[simp] theorem Slot.orFxf_revoked (x : Slot) (f : BitVec 6) : (x.orFxf f).revoked = x.revoked := rfl
@[simp] theorem Slot.orFxf_cpOut (x : Slot) (f : BitVec 6) : (x.orFxf f).cpOut = x.cpOut := rfl
@[simp] theorem Slot.orFxf_cpFail (x : Slot) (f : BitVec 6) : (x.orFxf f).cpFail = x.cpFail := rfl
@[simp] theorem Slot.orFxf_ticket (x : Slot) (f : BitVec 6) : (x.orFxf f).ticket = x.ticket := rfl
@[simp] theorem Slot.orFxf_okeep (x : Slot) (f : BitVec 6) : (x.orFxf f).okeep = x.okeep := rfl
@[simp] theorem Slot.orFxf_xkeep (x : Slot) (f : BitVec 6) : (x.orFxf f).xkeep = x.xkeep := rfl
@[simp] theorem Slot.orFxf_passOut (x : Slot) (f : BitVec 6) : (x.orFxf f).passOut = x.passOut := rfl
@[simp] theorem Slot.orFxf_acks (x : Slot) (f : BitVec 6) : (x.orFxf f).acks = x.acks := rfl
@[simp] theorem Slot.orFxf_lateLoad (x : Slot) (f : BitVec 6) : (x.orFxf f).lateLoad = x.lateLoad := rfl
@[simp] theorem Slot.orFxf_lateStore (x : Slot) (f : BitVec 6) : (x.orFxf f).lateStore = x.lateStore := rfl
@[simp] theorem Slot.orFxf_xmmOut (x : Slot) (f : BitVec 6) : (x.orFxf f).xmmOut = x.xmmOut := rfl
@[simp] theorem Slot.orFxf_pooled (x : Slot) (f : BitVec 6) : (x.orFxf f).pooled = x.pooled := rfl
@[simp] theorem Slot.orFxf_rstate (x : Slot) (f : BitVec 6) : (x.orFxf f).rstate = x.rstate := rfl
@[simp] theorem Slot.orFxf_rmax (x : Slot) (f : BitVec 6) : (x.orFxf f).rmax = x.rmax := rfl
@[simp] theorem Slot.orFxf_badRegs (x : Slot) (f : BitVec 6) : (x.orFxf f).badRegs = x.badRegs := rfl
@[simp] theorem Slot.orFxf_counted (x : Slot) (f : BitVec 6) : (x.orFxf f).counted = x.counted := rfl
@[simp] theorem Slot.orFxf_bound (x : Slot) (f : BitVec 6) : (x.orFxf f).bound = x.bound := rfl
@[simp] theorem Slot.orFxf_lp (x : Slot) (f : BitVec 6) : (x.orFxf f).lp = x.lp := rfl
@[simp] theorem Slot.orFxf_skips (x : Slot) (f : BitVec 6) : (x.orFxf f).skips = x.skips := rfl
@[simp] theorem Slot.orFxf_notBefore (x : Slot) (f : BitVec 6) : (x.orFxf f).notBefore = x.notBefore := rfl
@[simp] theorem Slot.orFxf_ready (x : Slot) (f : BitVec 6) : (x.orFxf f).ready = x.ready := rfl
@[simp] theorem Slot.orFxf_sbHint (x : Slot) (f : BitVec 6) : (x.orFxf f).sbHint = x.sbHint := rfl
@[simp] theorem Slot.orFxf_lbuf (x : Slot) (f : BitVec 6) : (x.orFxf f).lbuf = x.lbuf := rfl
@[simp] theorem Slot.orFxf_landed (x : Slot) (f : BitVec 6) : (x.orFxf f).landed = x.landed := rfl

@[simp] theorem Slot.orVxf_occ (x : Slot) (f : BitVec 6) : (x.orVxf f).occ = x.occ := rfl
@[simp] theorem Slot.orVxf_pc (x : Slot) (f : BitVec 6) : (x.orVxf f).pc = x.pc := rfl
@[simp] theorem Slot.orVxf_record (x : Slot) (f : BitVec 6) : (x.orVxf f).record = x.record := rfl
@[simp] theorem Slot.orVxf_g (x : Slot) (f : BitVec 6) : (x.orVxf f).g = x.g := rfl
@[simp] theorem Slot.orVxf_v (x : Slot) (f : BitVec 6) : (x.orVxf f).v = x.v := rfl
@[simp] theorem Slot.orVxf_p (x : Slot) (f : BitVec 6) : (x.orVxf f).p = x.p := rfl
@[simp] theorem Slot.orVxf_kbank (x : Slot) (f : BitVec 6) : (x.orVxf f).kbank = x.kbank := rfl
@[simp] theorem Slot.orVxf_lc (x : Slot) (f : BitVec 6) : (x.orVxf f).lc = x.lc := rfl
@[simp] theorem Slot.orVxf_loops (x : Slot) (f : BitVec 6) : (x.orVxf f).loops = x.loops := rfl
@[simp] theorem Slot.orVxf_loopSpare (x : Slot) (f : BitVec 6) : (x.orVxf f).loopSpare = x.loopSpare := rfl
@[simp] theorem Slot.orVxf_fxf (x : Slot) (f : BitVec 6) : (x.orVxf f).fxf = x.fxf := rfl
@[simp] theorem Slot.orVxf_vw (x : Slot) (f : BitVec 6) : (x.orVxf f).vw = x.vw := rfl
@[simp] theorem Slot.orVxf_vlr (x : Slot) (f : BitVec 6) : (x.orVxf f).vlr = x.vlr := rfl
@[simp] theorem Slot.orVxf_vwin (x : Slot) (f : BitVec 6) : (x.orVxf f).vwin = x.vwin := rfl
@[simp] theorem Slot.orVxf_fmt (x : Slot) (f : BitVec 6) : (x.orVxf f).fmt = x.fmt := rfl
@[simp] theorem Slot.orVxf_scl (x : Slot) (f : BitVec 6) : (x.orVxf f).scl = x.scl := rfl
@[simp] theorem Slot.orVxf_floor (x : Slot) (f : BitVec 6) : (x.orVxf f).floor = x.floor := rfl
@[simp] theorem Slot.orVxf_emulate (x : Slot) (f : BitVec 6) : (x.orVxf f).emulate = x.emulate := rfl
@[simp] theorem Slot.orVxf_psum (x : Slot) (f : BitVec 6) : (x.orVxf f).psum = x.psum := rfl
@[simp] theorem Slot.orVxf_barGen (x : Slot) (f : BitVec 6) : (x.orVxf f).barGen = x.barGen := rfl
@[simp] theorem Slot.orVxf_floorPend (x : Slot) (f : BitVec 6) : (x.orVxf f).floorPend = x.floorPend := rfl
@[simp] theorem Slot.orVxf_status (x : Slot) (f : BitVec 6) : (x.orVxf f).status = x.status := rfl
@[simp] theorem Slot.orVxf_xpc (x : Slot) (f : BitVec 6) : (x.orVxf f).xpc = x.xpc := rfl
@[simp] theorem Slot.orVxf_xsw (x : Slot) (f : BitVec 6) : (x.orVxf f).xsw = x.xsw := rfl
@[simp] theorem Slot.orVxf_xcause (x : Slot) (f : BitVec 6) : (x.orVxf f).xcause = x.xcause := rfl
@[simp] theorem Slot.orVxf_xval (x : Slot) (f : BitVec 6) : (x.orVxf f).xval = x.xval := rfl
@[simp] theorem Slot.orVxf_xtmp (x : Slot) (f : BitVec 6) : (x.orVxf f).xtmp = x.xtmp := rfl
@[simp] theorem Slot.orVxf_park (x : Slot) (f : BitVec 6) : (x.orVxf f).park = x.park := rfl
@[simp] theorem Slot.orVxf_since (x : Slot) (f : BitVec 6) : (x.orVxf f).since = x.since := rfl
@[simp] theorem Slot.orVxf_parkSh (x : Slot) (f : BitVec 6) : (x.orVxf f).parkSh = x.parkSh := rfl
@[simp] theorem Slot.orVxf_pend (x : Slot) (f : BitVec 6) : (x.orVxf f).pend = x.pend := rfl
@[simp] theorem Slot.orVxf_ordr (x : Slot) (f : BitVec 6) : (x.orVxf f).ordr = x.ordr := rfl
@[simp] theorem Slot.orVxf_rsvLine (x : Slot) (f : BitVec 6) : (x.orVxf f).rsvLine = x.rsvLine := rfl
@[simp] theorem Slot.orVxf_revoked (x : Slot) (f : BitVec 6) : (x.orVxf f).revoked = x.revoked := rfl
@[simp] theorem Slot.orVxf_cpOut (x : Slot) (f : BitVec 6) : (x.orVxf f).cpOut = x.cpOut := rfl
@[simp] theorem Slot.orVxf_cpFail (x : Slot) (f : BitVec 6) : (x.orVxf f).cpFail = x.cpFail := rfl
@[simp] theorem Slot.orVxf_ticket (x : Slot) (f : BitVec 6) : (x.orVxf f).ticket = x.ticket := rfl
@[simp] theorem Slot.orVxf_okeep (x : Slot) (f : BitVec 6) : (x.orVxf f).okeep = x.okeep := rfl
@[simp] theorem Slot.orVxf_xkeep (x : Slot) (f : BitVec 6) : (x.orVxf f).xkeep = x.xkeep := rfl
@[simp] theorem Slot.orVxf_passOut (x : Slot) (f : BitVec 6) : (x.orVxf f).passOut = x.passOut := rfl
@[simp] theorem Slot.orVxf_acks (x : Slot) (f : BitVec 6) : (x.orVxf f).acks = x.acks := rfl
@[simp] theorem Slot.orVxf_lateLoad (x : Slot) (f : BitVec 6) : (x.orVxf f).lateLoad = x.lateLoad := rfl
@[simp] theorem Slot.orVxf_lateStore (x : Slot) (f : BitVec 6) : (x.orVxf f).lateStore = x.lateStore := rfl
@[simp] theorem Slot.orVxf_xmmOut (x : Slot) (f : BitVec 6) : (x.orVxf f).xmmOut = x.xmmOut := rfl
@[simp] theorem Slot.orVxf_pooled (x : Slot) (f : BitVec 6) : (x.orVxf f).pooled = x.pooled := rfl
@[simp] theorem Slot.orVxf_rstate (x : Slot) (f : BitVec 6) : (x.orVxf f).rstate = x.rstate := rfl
@[simp] theorem Slot.orVxf_rmax (x : Slot) (f : BitVec 6) : (x.orVxf f).rmax = x.rmax := rfl
@[simp] theorem Slot.orVxf_badRegs (x : Slot) (f : BitVec 6) : (x.orVxf f).badRegs = x.badRegs := rfl
@[simp] theorem Slot.orVxf_counted (x : Slot) (f : BitVec 6) : (x.orVxf f).counted = x.counted := rfl
@[simp] theorem Slot.orVxf_bound (x : Slot) (f : BitVec 6) : (x.orVxf f).bound = x.bound := rfl
@[simp] theorem Slot.orVxf_lp (x : Slot) (f : BitVec 6) : (x.orVxf f).lp = x.lp := rfl
@[simp] theorem Slot.orVxf_skips (x : Slot) (f : BitVec 6) : (x.orVxf f).skips = x.skips := rfl
@[simp] theorem Slot.orVxf_notBefore (x : Slot) (f : BitVec 6) : (x.orVxf f).notBefore = x.notBefore := rfl
@[simp] theorem Slot.orVxf_ready (x : Slot) (f : BitVec 6) : (x.orVxf f).ready = x.ready := rfl
@[simp] theorem Slot.orVxf_sbHint (x : Slot) (f : BitVec 6) : (x.orVxf f).sbHint = x.sbHint := rfl
@[simp] theorem Slot.orVxf_lbuf (x : Slot) (f : BitVec 6) : (x.orVxf f).lbuf = x.lbuf := rfl
@[simp] theorem Slot.orVxf_landed (x : Slot) (f : BitVec 6) : (x.orVxf f).landed = x.landed := rfl

@[simp] theorem Slot.finish_occ (x : Slot) (len : Nat) (h : BitVec 2) : (x.finish len h).occ = x.occ := rfl
@[simp] theorem Slot.finish_record (x : Slot) (len : Nat) (h : BitVec 2) : (x.finish len h).record = x.record := rfl
@[simp] theorem Slot.finish_g (x : Slot) (len : Nat) (h : BitVec 2) : (x.finish len h).g = x.g := rfl
@[simp] theorem Slot.finish_v (x : Slot) (len : Nat) (h : BitVec 2) : (x.finish len h).v = x.v := rfl
@[simp] theorem Slot.finish_p (x : Slot) (len : Nat) (h : BitVec 2) : (x.finish len h).p = x.p := rfl
@[simp] theorem Slot.finish_kbank (x : Slot) (len : Nat) (h : BitVec 2) : (x.finish len h).kbank = x.kbank := rfl
@[simp] theorem Slot.finish_loopSpare (x : Slot) (len : Nat) (h : BitVec 2) : (x.finish len h).loopSpare = x.loopSpare := rfl
@[simp] theorem Slot.finish_fxf (x : Slot) (len : Nat) (h : BitVec 2) : (x.finish len h).fxf = x.fxf := rfl
@[simp] theorem Slot.finish_vxf (x : Slot) (len : Nat) (h : BitVec 2) : (x.finish len h).vxf = x.vxf := rfl
@[simp] theorem Slot.finish_vw (x : Slot) (len : Nat) (h : BitVec 2) : (x.finish len h).vw = x.vw := rfl
@[simp] theorem Slot.finish_vlr (x : Slot) (len : Nat) (h : BitVec 2) : (x.finish len h).vlr = x.vlr := rfl
@[simp] theorem Slot.finish_vwin (x : Slot) (len : Nat) (h : BitVec 2) : (x.finish len h).vwin = x.vwin := rfl
@[simp] theorem Slot.finish_fmt (x : Slot) (len : Nat) (h : BitVec 2) : (x.finish len h).fmt = x.fmt := rfl
@[simp] theorem Slot.finish_scl (x : Slot) (len : Nat) (h : BitVec 2) : (x.finish len h).scl = x.scl := rfl
@[simp] theorem Slot.finish_floor (x : Slot) (len : Nat) (h : BitVec 2) : (x.finish len h).floor = x.floor := rfl
@[simp] theorem Slot.finish_emulate (x : Slot) (len : Nat) (h : BitVec 2) : (x.finish len h).emulate = x.emulate := rfl
@[simp] theorem Slot.finish_psum (x : Slot) (len : Nat) (h : BitVec 2) : (x.finish len h).psum = x.psum := rfl
@[simp] theorem Slot.finish_barGen (x : Slot) (len : Nat) (h : BitVec 2) : (x.finish len h).barGen = x.barGen := rfl
@[simp] theorem Slot.finish_floorPend (x : Slot) (len : Nat) (h : BitVec 2) : (x.finish len h).floorPend = x.floorPend := rfl
@[simp] theorem Slot.finish_status (x : Slot) (len : Nat) (h : BitVec 2) : (x.finish len h).status = x.status := rfl
@[simp] theorem Slot.finish_xpc (x : Slot) (len : Nat) (h : BitVec 2) : (x.finish len h).xpc = x.xpc := rfl
@[simp] theorem Slot.finish_xsw (x : Slot) (len : Nat) (h : BitVec 2) : (x.finish len h).xsw = x.xsw := rfl
@[simp] theorem Slot.finish_xcause (x : Slot) (len : Nat) (h : BitVec 2) : (x.finish len h).xcause = x.xcause := rfl
@[simp] theorem Slot.finish_xval (x : Slot) (len : Nat) (h : BitVec 2) : (x.finish len h).xval = x.xval := rfl
@[simp] theorem Slot.finish_xtmp (x : Slot) (len : Nat) (h : BitVec 2) : (x.finish len h).xtmp = x.xtmp := rfl
@[simp] theorem Slot.finish_since (x : Slot) (len : Nat) (h : BitVec 2) : (x.finish len h).since = x.since := rfl
@[simp] theorem Slot.finish_parkSh (x : Slot) (len : Nat) (h : BitVec 2) : (x.finish len h).parkSh = x.parkSh := rfl
@[simp] theorem Slot.finish_pend (x : Slot) (len : Nat) (h : BitVec 2) : (x.finish len h).pend = x.pend := rfl
@[simp] theorem Slot.finish_ordr (x : Slot) (len : Nat) (h : BitVec 2) : (x.finish len h).ordr = x.ordr := rfl
@[simp] theorem Slot.finish_rsvLine (x : Slot) (len : Nat) (h : BitVec 2) : (x.finish len h).rsvLine = x.rsvLine := rfl
@[simp] theorem Slot.finish_revoked (x : Slot) (len : Nat) (h : BitVec 2) : (x.finish len h).revoked = x.revoked := rfl
@[simp] theorem Slot.finish_cpOut (x : Slot) (len : Nat) (h : BitVec 2) : (x.finish len h).cpOut = x.cpOut := rfl
@[simp] theorem Slot.finish_cpFail (x : Slot) (len : Nat) (h : BitVec 2) : (x.finish len h).cpFail = x.cpFail := rfl
@[simp] theorem Slot.finish_ticket (x : Slot) (len : Nat) (h : BitVec 2) : (x.finish len h).ticket = x.ticket := rfl
@[simp] theorem Slot.finish_okeep (x : Slot) (len : Nat) (h : BitVec 2) : (x.finish len h).okeep = x.okeep := rfl
@[simp] theorem Slot.finish_xkeep (x : Slot) (len : Nat) (h : BitVec 2) : (x.finish len h).xkeep = x.xkeep := rfl
@[simp] theorem Slot.finish_passOut (x : Slot) (len : Nat) (h : BitVec 2) : (x.finish len h).passOut = x.passOut := rfl
@[simp] theorem Slot.finish_acks (x : Slot) (len : Nat) (h : BitVec 2) : (x.finish len h).acks = x.acks := rfl
@[simp] theorem Slot.finish_lateLoad (x : Slot) (len : Nat) (h : BitVec 2) : (x.finish len h).lateLoad = x.lateLoad := rfl
@[simp] theorem Slot.finish_lateStore (x : Slot) (len : Nat) (h : BitVec 2) : (x.finish len h).lateStore = x.lateStore := rfl
@[simp] theorem Slot.finish_xmmOut (x : Slot) (len : Nat) (h : BitVec 2) : (x.finish len h).xmmOut = x.xmmOut := rfl
@[simp] theorem Slot.finish_pooled (x : Slot) (len : Nat) (h : BitVec 2) : (x.finish len h).pooled = x.pooled := rfl
@[simp] theorem Slot.finish_rstate (x : Slot) (len : Nat) (h : BitVec 2) : (x.finish len h).rstate = x.rstate := rfl
@[simp] theorem Slot.finish_rmax (x : Slot) (len : Nat) (h : BitVec 2) : (x.finish len h).rmax = x.rmax := rfl
@[simp] theorem Slot.finish_badRegs (x : Slot) (len : Nat) (h : BitVec 2) : (x.finish len h).badRegs = x.badRegs := rfl
@[simp] theorem Slot.finish_counted (x : Slot) (len : Nat) (h : BitVec 2) : (x.finish len h).counted = x.counted := rfl
@[simp] theorem Slot.finish_lp (x : Slot) (len : Nat) (h : BitVec 2) : (x.finish len h).lp = x.lp := rfl
@[simp] theorem Slot.finish_notBefore (x : Slot) (len : Nat) (h : BitVec 2) : (x.finish len h).notBefore = x.notBefore := rfl
@[simp] theorem Slot.finish_ready (x : Slot) (len : Nat) (h : BitVec 2) : (x.finish len h).ready = x.ready := rfl
@[simp] theorem Slot.finish_lbuf (x : Slot) (len : Nat) (h : BitVec 2) : (x.finish len h).lbuf = x.lbuf := rfl

/-! ## Reading back -/

@[simp] theorem Slot.getG_setG_same (x : Slot) (d : BitVec 5) (v : Word) : (x.setG d v).getG d = v := by
  simp [Slot.getG, Slot.setG]

theorem Slot.getG_setG_of_ne (x : Slot) (d e : BitVec 5) (v : Word) (h : e ≠ d) : (x.setG d v).getG e = x.getG e := by
  have : d.toNat ≠ e.toNat := fun hn => h (BitVec.eq_of_toNat_eq hn.symm)
  simp [Slot.getG, Slot.setG, this]

@[simp] theorem Slot.getG_finish (x : Slot) (len : Nat) (h : BitVec 2) (n : BitVec 5) : (x.finish len h).getG n = x.getG n := rfl
@[simp] theorem Slot.getG_orFxf (x : Slot) (f : BitVec 6) (n : BitVec 5) : (x.orFxf f).getG n = x.getG n := rfl
@[simp] theorem Slot.getG_orVxf (x : Slot) (f : BitVec 6) (n : BitVec 5) : (x.orVxf f).getG n = x.getG n := rfl
@[simp] theorem Slot.getG_setV (x : Slot) (d n : BitVec 5) (v : VReg) : (x.setV d v).getG n = x.getG n := rfl

@[simp] theorem Slot.getV_setV_same (x : Slot) (d : BitVec 5) (v : VReg) : (x.setV d v).getV d = v := by
  simp [Slot.getV, Slot.setV]

theorem Slot.getP_zero (x : Slot) : x.getP 0 = BitVec.allOnes 256 := rfl

@[simp] theorem Slot.setP_zero (x : Slot) (v : Mask) : x.setP 0 v = x := rfl

theorem Slot.getP_setP_same (x : Slot) (d : BitVec 3) (v : Mask) (h : d ≠ 0) : (x.setP d v).getP d = v := by
  unfold Slot.getP Slot.setP
  rw [if_neg h, if_neg h]
  simp

theorem State.setSlot_others_self (s : State) (n : Nat) (x : Slot) (h : n = s.hid) : (s.setSlot n x).others = s.others := by
  unfold State.setSlot; rw [if_pos h]

@[simp] theorem State.slotAt_hid (s : State) : s.slotAt s.hid = s.hart := if_pos rfl

@[simp] theorem State.setSlot_hid_eq (s : State) (x : Slot) : s.setSlot s.hid x = s.modHart (fun _ => x) := if_pos rfl

@[simp] theorem State.modSlot_hid_eq (s : State) (f : Slot → Slot) : s.modSlot s.hid f = s.modHart f := by
  simp [State.modSlot, State.modHart]

/-- A value set at a key is read back. -/
@[simp] theorem alGet_alSet_same {α : Type} (l : List (Nat × α)) (k : Nat) (v : α) : alGet (alSet l k v) k = some v := by
  induction l with
  | nil => simp [alSet, alGet]
  | cons e r ih =>
    obtain ⟨n, w⟩ := e
    unfold alSet
    split
    · simp [alGet]
    · split
      · simp [alGet]
      · simp [alGet, ih]; intro hn; contradiction

/-- Setting one key leaves every other. -/
theorem alGet_alSet_of_ne {α : Type} (l : List (Nat × α)) (k j : Nat) (v : α) (h : j ≠ k) :
    alGet (alSet l k v) j = alGet l j := by
  induction l with
  | nil => simp [alSet, alGet]; intro hk; exact absurd hk.symm h
  | cons e r ih =>
    obtain ⟨n, w⟩ := e
    unfold alSet
    split
    · simp only [alGet]; rw [if_neg (fun hk => h hk.symm)]
    · split
      · subst_vars; simp only [alGet]; rw [if_neg (fun hk => h hk.symm), if_neg (fun hk => h hk.symm)]
      · simp only [alGet, ih]

@[simp] theorem State.slotAt_setSlot_same (s : State) (n : Nat) (x : Slot) : (s.setSlot n x).slotAt n = x := by
  unfold State.setSlot
  split
  · rename_i h; simp [State.slotAt, h]
  · rename_i h; simp [State.slotAt, h]

theorem State.slotAt_setSlot_of_ne (s : State) (n m : Nat) (x : Slot) (h : m ≠ n) :
    (s.setSlot n x).slotAt m = s.slotAt m := by
  unfold State.setSlot
  split
  · rename_i e; subst e; simp [State.slotAt, h]
  · simp only [State.slotAt]; rw [alGet_alSet_of_ne _ _ _ _ h]

@[simp] theorem State.slotAt_modSlot_same (s : State) (n : Nat) (f : Slot → Slot) :
    (s.modSlot n f).slotAt n = f (s.slotAt n) := State.slotAt_setSlot_same s n _

theorem State.slotAt_modSlot_of_ne (s : State) (n m : Nat) (f : Slot → Slot) (h : m ≠ n) :
    (s.modSlot n f).slotAt m = s.slotAt m := State.slotAt_setSlot_of_ne s n m _ h

@[simp] theorem State.tile_modTile_same (s : State) (n : Nat) (f : Tile → Tile) : (s.modTile n f).tile n = f (s.tile n) := by
  simp [State.modTile, State.setTile, State.tile]

theorem State.tile_modTile_of_ne (s : State) (n m : Nat) (f : Tile → Tile) (h : m ≠ n) :
    (s.modTile n f).tile m = s.tile m := by
  simp [State.modTile, State.setTile, State.tile, alGet_alSet_of_ne _ _ _ _ h]

@[simp] theorem State.tile_modHart (s : State) (f : Slot → Slot) (n : Nat) : (s.modHart f).tile n = s.tile n := rfl
@[simp] theorem State.core_modHart (s : State) (f : Slot → Slot) (n : Nat) : (s.modHart f).core n = s.core n := rfl
@[simp] theorem State.job_modHart (s : State) (f : Slot → Slot) (p : BitVec 12) : (s.modHart f).job p = s.job p := rfl
@[simp] theorem State.tile_modCore (s : State) (n m : Nat) (f : Core → Core) : (s.modCore n f).tile m = s.tile m := rfl
@[simp] theorem State.core_modTile (s : State) (n m : Nat) (f : Tile → Tile) : (s.modTile n f).core m = s.core m := rfl
@[simp] theorem State.job_modTile (s : State) (n : Nat) (p : BitVec 12) (f : Tile → Tile) : (s.modTile n f).job p = s.job p := rfl

@[simp] theorem State.tile_modOpt_same (s : State) (n : Nat) (f : Optics → Optics) :
    (s.modOpt n f).tile n = { s.tile n with opt := f (s.tile n).opt } := by
  simp [State.modOpt]

theorem State.tile_modOpt_of_ne (s : State) (n m : Nat) (f : Optics → Optics) (h : m ≠ n) :
    (s.modOpt n f).tile m = s.tile m := by
  simp [State.modOpt, State.tile_modTile_of_ne _ _ _ _ h]

@[simp] theorem State.core_modCore_same (s : State) (n : Nat) (f : Core → Core) : (s.modCore n f).core n = f (s.core n) := by
  simp [State.modCore, State.setCore, State.core]

theorem State.core_modCore_of_ne (s : State) (n m : Nat) (f : Core → Core) (h : m ≠ n) :
    (s.modCore n f).core m = s.core m := by
  simp [State.modCore, State.setCore, State.core, alGet_alSet_of_ne _ _ _ _ h]

@[simp] theorem State.job_modJob_same (s : State) (p : BitVec 12) (f : Job → Job) : (s.modJob p f).job p = f (s.job p) := by
  simp [State.modJob, State.setJob, State.job]

theorem State.job_modJob_of_ne (s : State) (p q : BitVec 12) (f : Job → Job) (h : q ≠ p) :
    (s.modJob p f).job q = s.job q := by
  have : q.toNat ≠ p.toNat := fun e => h (BitVec.eq_of_toNat_eq e)
  simp [State.modJob, State.setJob, State.job, alGet_alSet_of_ne _ _ _ _ this]

@[simp] theorem State.queue_modQueue_same (s : State) (n : Nat) (f : LaunchQueue → LaunchQueue) :
    (s.modQueue n f).queue n = f (s.queue n) := by
  simp [State.modQueue, State.queue]

end Sys2Proof.Machine
end

