-- ==== Sys2Proof/Laws/Memory.lean ====
section
/-!
SUPPORT. Memory: a byte written is read back, every other byte is left, and every operation keeps the canonical form.
-/

namespace Sys2Proof.Machine

/-! ## The canonical form -/

theorem Memory.wfFrom_mono {lo lo' : Nat} (h : lo ≤ lo') : ∀ {m : List Host.Cell}, Memory.wfFrom lo' m = true → Memory.wfFrom lo m = true
  | [], _ => rfl
  | (a, b) :: r, hm => by
    simp only [Memory.wfFrom, Bool.and_eq_true, decide_eq_true_eq] at hm ⊢
    exact ⟨⟨le_trans h hm.1.1, hm.1.2⟩, hm.2⟩

/-- An address below the first one listed reads 0. -/
theorem memGet_of_wfFrom {lo a : Nat} (h : a < lo) : ∀ {m : List Host.Cell}, Memory.wfFrom lo m = true → memGet m a = 0
  | [], _ => rfl
  | (k, v) :: r, hm => by
    simp only [Memory.wfFrom, Bool.and_eq_true, decide_eq_true_eq] at hm
    have : a < k := lt_of_lt_of_le h hm.1.1
    rw [memGet, if_neg (Nat.ne_of_gt this), if_pos this]

theorem memSet_wfFrom {lo a : Nat} (h : lo ≤ a) (b : Byte) : ∀ {m : List Host.Cell}, Memory.wfFrom lo m = true →
    Memory.wfFrom lo (memSet m a b) = true
  | [], _ => by
    unfold memSet
    split <;> simp_all [Memory.wfFrom]
  | (k, v) :: r, hm => by
    have hm' := hm
    simp only [Memory.wfFrom, Bool.and_eq_true, decide_eq_true_eq] at hm'
    obtain ⟨⟨h1, h2⟩, h3⟩ := hm'
    unfold memSet
    split
    · rename_i hlt
      split
      · exact hm
      · rename_i hb
        simp only [Memory.wfFrom, Bool.and_eq_true, decide_eq_true_eq]
        exact ⟨⟨h, hb⟩, ⟨⟨hlt, h2⟩, h3⟩⟩
    · split
      · rename_i he
        subst he
        split
        · exact Memory.wfFrom_mono (Nat.le_succ_of_le h1) h3
        · rename_i hb
          simp only [Memory.wfFrom, Bool.and_eq_true, decide_eq_true_eq]
          exact ⟨⟨h, hb⟩, h3⟩
      · rename_i hlt hne
        simp only [Memory.wfFrom, Bool.and_eq_true, decide_eq_true_eq]
        exact ⟨⟨h1, h2⟩, memSet_wfFrom (by omega) b h3⟩

/-- Writing a byte keeps the canonical form. -/
theorem memSet_wf (m : List Host.Cell) (a : Nat) (b : Byte) (h : Memory.wf m = true) : Memory.wf (memSet m a b) = true :=
  memSet_wfFrom (Nat.zero_le a) b h

/-- Writing bytes keeps the canonical form. -/
theorem memPut_wf (bs : List Byte) : ∀ (m : List Host.Cell) (a : Nat), Memory.wf m = true → Memory.wf (memPut m a bs) = true := by
  induction bs with
  | nil => exact fun _ _ h => h
  | cons b bs ih => exact fun m a h => ih _ _ (memSet_wf m a b h)

/-- Clearing a set of addresses keeps the canonical form. -/
theorem filter_wfFrom (p : Host.Cell → Bool) : ∀ (m : List Host.Cell) (lo : Nat), Memory.wfFrom lo m = true →
    Memory.wfFrom lo (m.filter p) = true
  | [], _, _ => rfl
  | (k, v) :: r, lo, hm => by
    simp only [Memory.wfFrom, Bool.and_eq_true, decide_eq_true_eq] at hm
    rw [List.filter_cons]
    split
    · simp only [Memory.wfFrom, Bool.and_eq_true, decide_eq_true_eq]
      exact ⟨hm.1, filter_wfFrom p r _ hm.2⟩
    · exact Memory.wfFrom_mono (Nat.le_succ_of_le hm.1.1) (filter_wfFrom p r _ hm.2)

theorem filter_wf (p : Host.Cell → Bool) (m : List Host.Cell) (h : Memory.wf m = true) : Memory.wf (m.filter p) = true :=
  filter_wfFrom p m 0 h

/-- Memory after reset is in its canonical form. -/
theorem reset_mem_wf : Memory.wf State.reset.mem = true := rfl

/-! ## Read after write -/

theorem memGet_memSet_same (a : Nat) (b : Byte) : ∀ {lo : Nat} {m : List Host.Cell}, Memory.wfFrom lo m = true →
    memGet (memSet m a b) a = b
  | _, [], _ => by
    unfold memSet
    split <;> simp_all [memGet]
  | lo, (k, v) :: r, hm => by
    simp only [Memory.wfFrom, Bool.and_eq_true, decide_eq_true_eq] at hm
    unfold memSet
    split
    · rename_i hlt
      split
      · rename_i hb
        rw [memGet, if_neg (Nat.ne_of_gt hlt), if_pos hlt, hb]
      · rw [memGet, if_pos rfl]
    · split
      · rename_i he
        subst he
        split
        · rename_i hb
          rw [memGet_of_wfFrom (Nat.lt_succ_self _) hm.2, hb]
        · rw [memGet, if_pos rfl]
      · rename_i hlt hne
        rw [memGet, if_neg hne, if_neg hlt, memGet_memSet_same a b hm.2]

/-- A byte written to memory in its canonical form is read back. -/
theorem memGet_memSet (m : List Host.Cell) (a : Nat) (b : Byte) (h : Memory.wf m = true) : memGet (memSet m a b) a = b :=
  memGet_memSet_same a b h

theorem memGet_memSet_ne (a : Nat) (b : Byte) (c : Nat) (hc : c ≠ a) : ∀ {lo : Nat} {m : List Host.Cell},
    Memory.wfFrom lo m = true → memGet (memSet m a b) c = memGet m c
  | _, [], _ => by
    unfold memSet
    split
    · rfl
    · simp only [memGet]; split <;> simp_all
  | lo, (k, v) :: r, hm => by
    simp only [Memory.wfFrom, Bool.and_eq_true, decide_eq_true_eq] at hm
    unfold memSet
    split
    · rename_i hlt
      split
      · rfl
      · rw [memGet, if_neg (Ne.symm hc)]
        split
        · rename_i hca
          rw [memGet, if_neg (by omega), if_pos (by omega)]
        · rfl
    · split
      · rename_i he
        subst he
        have hr : (if c < k then (0 : Byte) else memGet r c) = memGet r c := by
          split
          · rename_i hck
            rw [memGet_of_wfFrom (by omega) hm.2]
          · rfl
        split
        · rw [memGet, if_neg (Ne.symm hc), hr]
        · rw [memGet, memGet, if_neg (Ne.symm hc), if_neg (Ne.symm hc)]
      · rw [memGet, memGet, memGet_memSet_ne a b c hc hm.2]

/-- Writing a byte leaves every other byte. -/
theorem memGet_memSet_of_ne (m : List Host.Cell) (a : Nat) (b : Byte) (c : Nat) (hc : c ≠ a) (h : Memory.wf m = true) :
    memGet (memSet m a b) c = memGet m c := memGet_memSet_ne a b c hc h

/-- Writing bytes leaves every byte outside them. -/
theorem memGet_memPut_of_not_mem (bs : List Byte) : ∀ (m : List Host.Cell) (a c : Nat), Memory.wf m = true →
    (c < a ∨ a + bs.length ≤ c) → memGet (memPut m a bs) c = memGet m c := by
  induction bs with
  | nil => exact fun _ _ _ _ _ => rfl
  | cons b bs ih =>
    intro m a c h hc
    simp only [List.length_cons] at hc
    rw [memPut, ih _ _ _ (memSet_wf m a b h) (by omega), memGet_memSet_of_ne m a b c (by omega) h]

/-- Bytes written are read back. -/
theorem memBytes_memPut (bs : List Byte) : ∀ (m : List Host.Cell) (a : Nat), Memory.wf m = true →
    memBytes (memPut m a bs) a bs.length = bs := by
  induction bs with
  | nil => exact fun _ _ _ => rfl
  | cons b bs ih =>
    intro m a h
    have hw := memSet_wf m a b h
    rw [memPut, List.length_cons, memBytes, ih _ _ hw,
      memGet_memPut_of_not_mem bs _ _ a hw (.inl (Nat.lt_succ_self a)), memGet_memSet m a b h]

/-! ## Operations over the state -/

/-- Memory of the state is in its canonical form. -/
abbrev State.MemWf (s : State) : Prop := Memory.wf s.mem = true

theorem State.claim_wf (s : State) (pid : BitVec 12) (sec : Nat) (h : s.MemWf) : (s.claim pid sec).MemWf := by
  unfold State.claim
  split
  · split
    · exact h
    · split
      · exact h
      · generalize s.homeBytes pid (64 * sec) 64 = bs
        exact memPut_wf bs s.mem (64 * sec) h
  · exact h

theorem State.homePutByte_wf (s : State) (pid : BitVec 12) (pa : Nat) (b : Byte) (h : s.MemWf) :
    (s.homePutByte pid pa b).MemWf := memSet_wf _ _ _ (s.claim_wf pid _ h)

theorem State.homePut_wf (pid : BitVec 12) (bs : List Byte) : ∀ (s : State) (pa : Nat), s.MemWf → (s.homePut pid pa bs).MemWf := by
  induction bs with
  | nil => exact fun _ _ h => h
  | cons b bs ih => exact fun s pa h => ih _ _ (s.homePutByte_wf pid pa b h)

theorem State.homePutMask_wf (pid : BitVec 12) (line : Nat) (mask : Mask) (data : VReg) (n : Nat) :
    ∀ (s : State) (i : Nat), s.MemWf → (s.homePutMask pid line mask data i n).MemWf := by
  induction n with
  | zero => exact fun _ _ h => h
  | succ n ih =>
    intro s i h
    unfold State.homePutMask
    refine ih _ _ ?_
    split
    · exact s.homePutByte_wf _ _ _ h
    · exact h

theorem State.localWrite_wf (s : State) (a : Nat) (bs : List Byte) (h : s.MemWf) : (s.localWrite a bs).MemWf :=
  memPut_wf _ _ _ h

theorem State.spWrite_wf (s : State) (a : Nat) (bs : List Byte) (h : s.MemWf) : (s.spWrite a bs).MemWf := by
  unfold State.spWrite
  split
  · exact memPut_wf _ _ _ h
  · exact memPut_wf _ _ _ h

theorem State.clearBank_wf (s : State) (t b : Nat) (h : s.MemWf) : (s.clearBank t b).MemWf := filter_wf _ _ h

end Sys2Proof.Machine
end

