-- ==== Sys2Proof/Laws/Ops.lean ====
section
/-!
SUPPORT. What the shared operations do: the checks of an instruction, its completion, raising a fault, trap entry.
-/

namespace Sys2Proof.Machine

open Sys2Proof.Claim

/-! ## The checks -/

/-- A ready instruction meets no fault of its first checks. -/
theorem needFault_of_ready {s : State} {c : Need} (h : Ready s c) : s.needFault c = none := by
  obtain ⟨h1, h2, h3, h4, h5, h6⟩ := h
  unfold State.needFault
  have v : c.vs.any s.hart.vregMissing = false := by
    rw [List.any_eq_false]
    intro n hn
    have := h1 n hn
    show ¬ (decide (modeRegs s.hart.record.mode ≤ physV s.hart.vwin n) = true)
    unfold physV
    simp only [decide_eq_true_eq]
    omega
  have p : (c.priv && !s.hart.status.exec) = false := by
    cases hp : c.priv <;> simp_all
  have i : (c.iss && !isIssuing s.coreNo) = false := by
    cases hp : c.iss <;> simp_all [isIssuing]
  have o : (c.opt && s.hart.record.opt) = false := by
    cases hp : c.opt <;> simp_all
  have m : (c.mem && s.hart.record.opt && !s.hart.lp.inh) = false := by
    cases hp : c.mem <;> cases hq : s.hart.record.opt <;> simp_all
  simp [v, p, i, o, h5, m]

/-- A ready instruction has its effect. -/
theorem issue_of_ready {s : State} {c : Need} (h : Ready s c) (k : Result) : s.issue c k = k := by
  rw [State.issue, needFault_of_ready h]

/-- An instruction whose first check fails raises that fault. -/
theorem issue_fault {s : State} {c : Need} {f : Cause} (h : s.needFault c = some f) (k : Result) :
    s.issue c k = s.raise f 0 := by
  rw [State.issue, h]

/-! ## Outcomes -/

theorem completes_next (t : State) : completes (.next t) := ⟨t, rfl⟩

theorem completes_done (s : State) (h : BitVec 2) (f : Slot → Slot) : completes (s.done h f) := ⟨_, rfl⟩

theorem completes_doneG (s : State) (h : BitVec 2) (d : BitVec 5) (v : Word) : completes (s.doneG h d v) := ⟨_, rfl⟩

theorem completes_doneFlags (s : State) (len : Nat) (h : BitVec 2) (d : BitVec 5) (v : Word) (fl : BitVec 6) :
    completes (s.doneFlags len h d v fl) := ⟨_, rfl⟩

theorem completes_raise (s : State) (c : Cause) (x : Word) : completes (s.raise c x) := ⟨_, rfl⟩

theorem completes_issue {s : State} {c : Need} {k : Result} (h : completes k) : completes (s.issue c k) := by
  unfold State.issue
  split
  · exact completes_raise _ _ _
  · exact h

theorem completes_jump (s : State) (h : BitVec 2) (a : Word) (l : Option (BitVec 5)) : completes (s.jump h a l) := by
  unfold State.jump
  split <;> exact ⟨_, rfl⟩

/-! ## Completion -/

/-- While no loop entry ends there and no trap is handled, the PC goes past the instruction. -/
theorem finish_pc_straight (x : Slot) (len : Nat) (h : BitVec 2) (hl : ∀ e ∈ x.loops.head?, e.fin ≠ x.pc + BitVec.ofNat 64 (len - 4)) :
    (x.finish len h).pc = x.pc + BitVec.ofNat 64 len := by
  unfold Slot.finish
  simp only
  split
  · rfl
  · cases hx : x.loops with
    | nil => rfl
    | cons e r =>
      have := hl e (by simp [hx])
      simp [loopEnd, this]

/-- In a trap handler the loop stack is untouched and the PC goes past the instruction. -/
theorem finish_trap (x : Slot) (len : Nat) (h : BitVec 2) (ht : x.status.trap = true) :
    (x.finish len h).pc = x.pc + BitVec.ofNat 64 len ∧ (x.finish len h).loops = x.loops ∧ (x.finish len h).lc = x.lc := by
  simp [Slot.finish, ht]

/-! ## Flags -/

@[simp] theorem Slot.orFxf_zero (x : Slot) : x.orFxf 0 = x := by
  simp [Slot.orFxf]

@[simp] theorem Slot.orVxf_zero (x : Slot) : x.orVxf 0 = x := by
  simp [Slot.orVxf]

/-! ## Traps -/

/-- A fault that no logical process holds, of a strand that handles no trap and whose traps wait for nothing, is taken as a
trap. -/
theorem raiseAt_takeTrap {s : State} {n : Nat} (code : BitVec 16) (xpc xval : Word) (late : Bool)
    (ht : (s.slotAt n).status.trap = false) (hh : s.holdsFault (s.slotAt n) code = false)
    (hr : s.trapWaits n = false) : s.raiseAt n code xpc xval late = s.takeTrap n code xpc xval late := by
  simp [State.raiseAt, State.raiseFault, ht, hh, hr]

/-- A fault while TRAP = 1 makes the context fatal. -/
theorem raiseAt_nested {s : State} {n : Nat} (code : BitVec 16) (xpc xval : Word) (late : Bool)
    (ht : (s.slotAt n).status.trap = true) : s.raiseAt n code xpc xval late = s.fatalNested n code xval := by
  simp [State.raiseAt, State.raiseFault, ht]

/-- Nothing holds a fault of a strand that is no logical process. -/
theorem holdsFault_plain {s : State} {x : Slot} (h : x.record.opt = false) (code : BitVec 16) : s.holdsFault x code = false := by
  simp [State.holdsFault, h]

/-- Without an ordering instruction waiting nothing is done. -/
theorem orderingDone_none {s : State} {n : Nat} (h : (s.slotAt n).ordr = none) : s.orderingDone n = s := by
  simp [State.orderingDone, h]

/-- Without deferred accesses nothing is performed. -/
theorem performAll_nil {s : State} {n : Nat} (h : (s.slotAt n).pend = []) :
    s.performAll n = s.modSlot n (fun x => { x with pend := [] }) := by
  simp [State.performAll, h]

/-- Without write-combining buffers of the strand nothing drains. -/
theorem drainWc_nil {s : State} {core sid : Nat} (h : ∀ b ∈ (s.core core).wc, b.strand ≠ sid) :
    s.drainWc core sid = s.modCore core (fun c => { c with wc := c.wc.filter (fun b => !decide (b.strand = sid)) }) := by
  have : (s.core core).wc.filter (fun b => decide (b.strand = sid)) = [] := by
    rw [List.filter_eq_nil_iff]
    simpa using h
  simp [State.drainWc, State.drainWcIf, this]

end Sys2Proof.Machine
end

