-- ==== Sys2Proof/Laws/Fetch.lean ====
section
/-!
SUPPORT. What translation, the consumption of bytes and instruction fetches leave unchanged.
-/

namespace Sys2Proof.Machine

/-- `t` differs from `s` at most in what translation and fetching leave behind: cached translations, poison consumed with the
fatal context it makes, and free values taken. -/
structure State.Fetches (s t : State) : Prop where
  hart   : t.hart = s.hart
  hid    : t.hid = s.hid
  others : t.others = s.others
  cores  : t.cores = s.cores
  tiles  : t.tiles = s.tiles
  mem    : t.mem = s.mem
  remote : t.remote = s.remote

/-- A state differs from itself in nothing. -/
theorem State.Fetches.refl (s : State) : s.Fetches s := ⟨rfl, rfl, rfl, rfl, rfl, rfl, rfl⟩

/-- Differences of this kind compose. -/
theorem State.Fetches.trans {s t u : State} (a : s.Fetches t) (b : t.Fetches u) : s.Fetches u :=
  ⟨b.hart.trans a.hart, b.hid.trans a.hid, b.others.trans a.others, b.cores.trans a.cores, b.tiles.trans a.tiles,
    b.mem.trans a.mem, b.remote.trans a.remote⟩

/-- What a translation does: it caches at most one translation. -/
theorem translate_fetches (s : State) (q : Nat) (pid : BitVec 12) (exec : Bool) (va : Word) (acc : Acc) :
    s.Fetches (s.translate q pid exec va acc).2 := by
  unfold State.translate
  split
  · exact .refl s
  · simp only
    split
    · exact .refl s
    · split
      · exact .refl s
      · exact ⟨rfl, rfl, rfl, rfl, rfl, rfl, rfl⟩

/-- A sketchbook record changes the sketchbook only. -/
theorem sketchAdd_fetches (s : State) (r : SkRec) : s.Fetches (s.sketchAdd r) := by
  unfold State.sketchAdd
  split
  · exact .refl s
  · exact ⟨rfl, rfl, rfl, rfl, rfl, rfl, rfl⟩

/-- A fatal event changes its context and the sketchbook only. -/
theorem fatalCause_fetches (s : State) (pid : BitVec 12) (e : CauseEntry) : s.Fetches (s.fatalCause pid e) := by
  have h : s.Fetches (s.chainCause pid e) := ⟨rfl, rfl, rfl, rfl, rfl, rfl, rfl⟩
  exact h.trans (sketchAdd_fetches _ _)

/-- What consuming bytes does: it takes poison away and makes its context fatal. -/
theorem consume_fetches (s : State) (slot : Option Nat) (pid : BitVec 12) (a n : Nat) : s.Fetches (s.consume slot pid a n) := by
  unfold State.consume
  split
  · exact .refl s
  · rename_i e _
    have h : s.Fetches { s with poison := s.poison.erase e } := ⟨rfl, rfl, rfl, rfl, rfl, rfl, rfl⟩
    cases slot <;> exact h.trans (fatalCause_fetches _ _ _)

/-- A read at the home copies changes nothing. -/
theorem readPath_home (s : State) (pid : BitVec 12) (hint : BitVec 2) (fuel : Nat) : ∀ (pa n : Nat),
    (s.readPath { tile := none, pid := pid, hint := hint } pa n fuel).2 = s := by
  induction fuel with
  | zero => intro pa n; rfl
  | succ k ih =>
    intro pa n
    simp only [State.readPath]
    split
    · rfl
    · simp [State.readSector, ih]

/-- What a read past every tile cache does: it takes free values at most. -/
theorem paRead_fetches (s : State) (pid : BitVec 12) (hint : BitVec 2) (pa n : Nat) :
    s.Fetches (s.paRead { tile := none, pid := pid, hint := hint } pa n).2 := by
  unfold State.paRead
  split
  · rw [readPath_home]; exact .refl s
  · exact .refl s
  · exact .refl s
  · exact ⟨rfl, rfl, rfl, rfl, rfl, rfl, rfl⟩

/-- What a fetch does. -/
theorem fetchBy_fetches (s : State) (id n : Nat) (a : Word) : s.Fetches (s.fetchBy id n a).2 := by
  unfold State.fetchBy
  simp only
  split
  · rename_i h; have := translate_fetches s (slotQuad n) (s.slotAt n).pid (s.slotAt n).status.exec a .fetch; rw [h] at this; exact this
  · rename_i t s1 h
    have h1 := translate_fetches s (slotQuad n) (s.slotAt n).pid (s.slotAt n).status.exec a .fetch; rw [h] at h1
    split
    · exact h1
    · exact h1.trans ((consume_fetches _ _ _ _ _).trans (paRead_fetches _ _ _ _ _))

/-- What the checks of a transfer's target do. -/
theorem targetBy_fetches (s : State) (id n : Nat) (a : Word) : s.Fetches (s.targetBy id n a).2 := by
  unfold State.targetBy
  simp only
  have h1 := translate_fetches s (slotQuad n) (s.slotAt n).pid (s.slotAt n).status.exec a .fetch
  split
  · rename_i h; rw [h] at h1; exact h1
  · rename_i t s0 h; rw [h] at h1
    split
    · exact h1
    · split
      · have h2 := fetchBy_fetches s0 id n (a - 4)
        split <;> rename_i w <;> rw [w] at h2 <;> exact h1.trans h2
      · exact h1

/-- What the checks of a transfer that issues do. -/
theorem targetFault_fetches (s : State) (n : Nat) (a : Word) : s.Fetches (s.targetFault n a).2 := targetBy_fetches s _ n a

end Sys2Proof.Machine
end

