-- ==== Sys2Proof/Tests/Slice0.lean ====
section
/-!
SUPPORT. The model's own tests: words written out from the encodings, ill-formed terms, single steps with the results the
spec's text gives, and for every statement with hypotheses a concrete state and operands that meet them.
-/

namespace Sys2Proof.Tests

open Sys2Proof Sys2Proof.Machine Sys2Proof.Claim

set_option Elab.async false

/-! ## Decoding: words written out bit by bit from the encodings -/

/-- 03 R55: `add g3, g1, g2`. -/
theorem test_decode_add : decodeTableWord 32 0b00000100011000010001000000000000 = some (.add 3 1 2 0) := by decide +kernel
/-- 03 R57: `sll g3, g1, 40`. -/
theorem test_decode_sll_immediate : decodeTableWord 32 0x04614184 = some (.sllImm 3 1 8 1 0) := by decide +kernel
/-- 03 R58: `srl.w g5, g6, 3`. -/
theorem test_decode_srl_w : decodeTableWord 32 0x04A61B88 = some (.srlWImm 5 6 3 0) := by decide +kernel
/-- 03 R58: an immediate `.w` shift with n[5] = 1 is no instruction. -/
theorem test_decode_w_shift_by_32 : decodeTableWord 32 0x04A61B84 = none := by decide +kernel
/-- 03 R60: `add g3, g1, -40`. -/
theorem test_decode_add_immediate : decodeTableWord 32 0x0861FF60 = some (.addImm 3 1 0x3FD8 0) := by decide +kernel
/-- 03 R62: `fadd.rz g4, g2, g3`. -/
theorem test_decode_fadd_rz : decodeTableWord 32 0x20821A00 = some (.fadd 4 2 3 1 0) := by decide +kernel
/-- 03 R62: `fabs g4, g2` with rm 1 is no instruction. -/
theorem test_decode_fabs_rm : decodeTableWord 32 0x20820228 = none := by decide +kernel
/-- 03 R71: `ret`, `callr g30, g7` and `call g30` forward by 16 words. -/
theorem test_decode_transfers : decodeTableWord 32 0x4C1E0000 = some (.jr 30 0) ∧
    decodeTableWord 32 0x4FC70004 = some (.callr 30 7 0) ∧ decodeTableWord 32 0x4BC00040 = some (.call 30 16 0) := by decide +kernel
/-- 03 R73: `loopi lc0, 5` with m = 2; the same with d = 3, with m = 0 and with m = 257 is no instruction. -/
theorem test_decode_loopi : decodeTableWord 32 0x54050008 = some (.loopi 0 5 2 0) ∧ decodeTableWord 32 0x54650008 = none ∧
    decodeTableWord 32 0x54050000 = none ∧ decodeTableWord 32 0x54050404 = none := by decide +kernel
/-- 04 R103: `vld.g v3, [g2 + g5]`. -/
theorem test_decode_vld_g : decodeTableWord 32 0x78622810 = some (.vldG 3 2 5 0 0 0) := by decide +kernel
/-- 05 R118: `fence.d`. -/
theorem test_decode_fence : decodeTableWord 32 0xE8000010 = some (.fence 4 0) := by decide +kernel
/-- 06 R150: `lde g2, [g13]`. -/
theorem test_decode_lde : decodeTableWord 32 0xE44D0020 = some (.lde 2 13 0) := by decide +kernel
/-- 07 R171: `setfmt [g5]` and `stfmt [g5]`. -/
theorem test_decode_setfmt : decodeTableWord 32 0xB0050000 = some (.setfmt 5 0) ∧
    decodeTableWord 32 0xB0050004 = some (.stfmt 5 0) := by decide +kernel
/-- 08 R189: `vadd.rz v3, v1, v2` and `vfma v6, v4, v5, p2`. -/
theorem test_decode_vadd : decodeTableWord 32 0x80611040 = some (.vadd 3 1 2 0 1 0) ∧
    decodeTableWord 32 0x80C42A0C = some (.vfma 6 4 5 2 0 0) := by decide +kernel
/-- 08 R183, R196, R197: `vshape 4, 16, 32`, `vcmp.lt p1, v2, v3`, `pset p4, g9`, `pcnt g5, p1`, `vwin 1`. -/
theorem test_decode_vector_masks : decodeTableWord 32 0xA4008800 = some (.vshape 2 2 0) ∧
    decodeTableWord 32 0x88221808 = some (.vcmpLt 1 2 3 0 0) ∧ decodeTableWord 32 0x90890028 = some (.pset 4 9 0) ∧
    decodeTableWord 32 0x90A10024 = some (.pcnt 5 1 0) ∧ decodeTableWord 32 0xA8000004 = some (.vwin 1 0) := by decide +kernel
/-- 04 R107: `cp g4, g7`. -/
theorem test_decode_cp : decodeTableWord 32 0xC0043800 = some (.cp 4 7 0) := by decide +kernel
/-- 09 R219, 10 R244: `psel g7`, `dcmp.ack g5, g4, g3`, `pass g4`, `passr.ack g3, g6`, `pflr g10`, `ptkt g9`. -/
theorem test_decode_optical : decodeTableWord 32 0xC8070020 = some (.psel 7 0) ∧
    decodeTableWord 32 0xC8A41838 = some (.dcmpAck 5 4 3 0) ∧ decodeTableWord 32 0xC4040000 = some (.pass 4 0) ∧
    decodeTableWord 32 0xC4660018 = some (.passrAck 3 6 0) ∧ decodeTableWord 32 0xC40A0030 = some (.pflr 10 0) ∧
    decodeTableWord 32 0xC5200048 = some (.ptkt 9 0) := by decide +kernel
/-- 12 R290 to R307: `spawn g6`, `gdep g4, g5`, `gcnt g3, g2`, `cancel.g g6`, `prmt g1, g2`, `exit`. -/
theorem test_decode_strands : decodeTableWord 32 0xD8060000 = some (.spawn 6 0) ∧
    decodeTableWord 32 0xD8042910 = some (.gdep 4 5 0) ∧ decodeTableWord 32 0xD8620128 = some (.gcnt 3 2 0) ∧
    decodeTableWord 32 0xD8060080 = some (.cancelG 6 0) ∧ decodeTableWord 32 0xD8011100 = some (.prmt 1 2 0) ∧
    decodeTableWord 32 0xD8000010 = some (.exit 0) := by decide +kernel
/-- 15 R380, R385, R386, R396: `srr g1, XCAUSE`, `srw XTMP0, g1`, `srset XSW, g2`, `rtx`, `sys`, `brk`, `clkm g3`. -/
theorem test_decode_system : decodeTableWord 32 0xF0208020 = some (.srr 1 0x802 0) ∧
    decodeTableWord 32 0xF0018054 = some (.srw 1 0x805 0) ∧ decodeTableWord 32 0xF0028018 = some (.srset 2 0x801 0) ∧
    decodeTableWord 32 0xF4000000 = some (.rtx 0) ∧ decodeTableWord 32 0xF4000004 = some (.sys 0) ∧
    decodeTableWord 32 0xF4000008 = some (.brk 0) ∧ decodeTableWord 32 0xF4030020 = some (.clkm 3 0) := by decide +kernel
/-- 03 R69: `movn g2, =0x12345678`, a carrier with its literal word. -/
theorem test_decode_literal : decodeTableWord 64 0x1234567838405400 = some (.movnLit 2 0x12345678 0) := by decide +kernel
/-- 02 R35: a word of zeros, an unlisted opcode, and `rtx` with a reserved bit set. -/
theorem test_decode_refuses : decodeTableWord 32 0 = none ∧ decodeTableWord 32 0xFC000000 = none ∧
    decodeTableWord 32 0xF4200000 = none := by decide +kernel

/-! ## Ill-formed terms, one for each check of WellFormed -/

/-- 03 R73: counters are lc0 to lc2, and m lies in 1 to 256. -/
theorem test_wf_loops : (Instr.loop 3 1 1 0).wf = false ∧ (Instr.loop 2 1 0 0).wf = false ∧ (Instr.loop 2 1 257 0).wf = false ∧
    (Instr.loopi 3 1 1 0).wf = false ∧ (Instr.loopi 0 1 0 0).wf = false ∧ (Instr.loopi 0 1 257 0).wf = false ∧
    (Instr.loop 2 1 256 0).wf = true ∧ (Instr.loopi 0 31 1 0).wf = true := by decide
/-- 07 R176: code 7 is unassigned, `to` differs from `from`, and a part lies below the ratio of the widths. -/
theorem test_wf_vcvt : (Instr.vcvt 1 2 0 0 7 0 0).wf = false ∧ (Instr.vcvt 1 2 0 0 0 7 0).wf = false ∧
    (Instr.vcvt 1 2 0 0 1 1 0).wf = false ∧ (Instr.vcvt 1 2 2 0 1 0 0).wf = false ∧ (Instr.vcvt 1 2 1 0 1 0 0).wf = true := by
  decide
/-- 08 R183: the rows of a shape are at most its elements. -/
theorem test_wf_vshape : (Instr.vshape 0 9 0).wf = false ∧ (Instr.vshape 3 6 0).wf = false ∧ (Instr.vshape 3 5 0).wf = true := by
  decide
/-- 02 R35: an event is no instruction word. -/
theorem test_wf_event : (Instr.coldReset).wf = false ∧ (Instr.bankSwitch 0 0).wf = false := by decide

/-! ## States for the tests -/

/-- An executive strand of PID 1 on an issuing core, at address 0, whose page is host memory. -/
def base : State := State.reset.withFetchWord 32 0x04611000

/-- `base` with values in g registers. -/
def withG (l : List (BitVec 5 × Word)) : State := l.foldl (fun s e => s.modHart (fun x => x.setG e.1 e.2)) base

/-- `base` with its strand changed. -/
def withHart (f : Slot → Slot) : State := base.modHart f

/-- The outcome is a next state for which `p` holds. -/
def nexts (r : Host.Outcome State Fault Refusal) (p : State → Bool) : Bool :=
  match r with
  | .next t => p t
  | _ => false

/-- `Ready`, decided. -/
def ready (s : State) (c : Need) : Bool := decide (Ready s c)

/-- An access that succeeds, with what holds of its result. -/
def oks {α ε : Type} (r : Except ε α × State) (p : α → State → Bool) : Bool :=
  match r with
  | (.ok a, t) => p a t
  | _ => false

/-- `base` with the page at address 0 in local HBM4 at 2^20, uncached, and a key for PID 1. -/
def hbmBase : State :=
  { base.modJob 1 (fun j => { j with key := some 0 }) with tlb := [{ placeEntry with base := 0x100000, hostOrd := false }] }

/-- `base` with the page at address 0 at the device registers of 0x20000. -/
def devBase : State := { base with tlb := [{ placeEntry with base := 0x2000000020000 }] }

/-- `base` with bank 3 of tile 2 in a mode of scratchpad. -/
def spBase_ (m : BitVec 2) : State := base.modBank 2 3 (fun b => { b with mode := m, pid := 1 })

/-- The accesses of the slot at an address translate to a place `p` holds of, and the strand stays as it is. -/
def reaches (s : State) (ea : Word) (acc : Acc) (p : Xlate → State → Bool) : Bool :=
  oks (s.translate (quadOf (s.hid / 16)) s.hart.pid s.hart.status.exec ea acc) (fun x s0 =>
    decide (s0.hart.g = s.hart.g) && decide (s0.hid = s.hid) && p x s0)

/-- `SramAt`, decided. -/
def sramAt (s : State) (ea : Word) (t b off : Nat) : Bool :=
  decide (spLoc ea = some (.sram t b off)) && !((s.tile t).bank b).sw && ((s.tile t).bank b).held.isEmpty &&
    (s.hart.status.exec || decide (((s.tile t).bank b).pid = s.hart.pid))

/-! ## Single steps -/

/-- 02 R25 and 03 R55: a placed `add g3, g1, g2` is the first instruction that runs. -/
theorem test_step_add : nexts (step ((withG [(1, 5), (2, 7)]).withFetchWord 32 0x04611000)) (fun t => decide (t.hart.pc = 4)) = true := by
  decide +kernel
/-- 03 R55: addition wraps at 64 bits; a destination that is a source. -/
theorem test_add_wraps : nexts (exec (.add 1 1 2 0) (withG [(1, 0xFFFFFFFFFFFFFFFF), (2, 2)])) (fun t =>
    decide (t.hart.getG 1 = 1) && decide (t.hart.pc = 4)) = true := by decide +kernel
/-- 03 R56: -2^63 by -1. -/
theorem test_div_overflow : nexts (exec (.div 3 1 2 0) (withG [(1, 0x8000000000000000), (2, 0xFFFFFFFFFFFFFFFF)])) (fun t =>
    decide (t.hart.getG 3 = 0x8000000000000000)) = true := by decide +kernel
/-- 03 R59: the largest signed value and 1 saturate with FXF.SAT. -/
theorem test_adds_saturates : nexts (exec (.adds 3 1 2 0) (withG [(1, 0x7FFFFFFFFFFFFFFF), (2, 1)])) (fun t =>
    decide (t.hart.getG 3 = 0x7FFFFFFFFFFFFFFF) && decide (t.hart.fxf = flagSAT)) = true := by decide +kernel
/-- 03 R69: `movn g2, =0x12345678` goes past its literal. -/
theorem test_step_literal : nexts (step (State.reset.withFetchWord 64 0x1234567838405400)) (fun t =>
    decide (t.hart.getG 2 = 0x12345678) && decide (t.hart.pc = 8)) = true := by decide +kernel
/-- 15 R381, R386: a placed `brk` takes class 3 of BRK at its own address. -/
theorem test_step_brk : nexts (step (State.reset.withFetchWord 32 0xF4000008)) (fun t =>
    decide (t.hart.xpc = 0) && decide (t.hart.xcause = Cause.brk.code.setWidth 17) && t.hart.status.trap) = true := by decide +kernel
/-- 02 R35: a placed word of zeros raises ZWORD. -/
theorem test_step_zero : nexts (step (State.reset.withFetchWord 32 0)) (fun t =>
    decide (t.hart.xcause = Cause.zword.code.setWidth 17)) = true := by decide +kernel

/-! ## Witnesses: for every statement with hypotheses, states and operands that meet them -/

/-- Of IntegerForms, ShiftForms, WordForms, ImmediateForms, FloatRegisterForms, FloatConversionForms and
ConstantAndLiteralForms: their one hypothesis, with operands at the ends of their ranges. -/
theorem witness_IntegerForms : Ready (withG [(1, 0), (2, 0xFFFFFFFFFFFFFFFF)]) Need.any := by decide +kernel
theorem witness_ShiftForms : Ready (withG [(1, 1), (2, 63)]) Need.any := by decide +kernel
theorem witness_WordForms : Ready (withG [(1, 0x80000000), (2, 0xFFFFFFFF)]) Need.any := by decide +kernel
theorem witness_ImmediateForms : Ready (withG [(1, 0x7FFFFFFFFFFFFFFF)]) Need.any := by decide +kernel
theorem witness_FloatRegisterForms : Ready (withG [(1, 0x7F800001), (2, 0xFF800000)]) Need.any := by decide +kernel
theorem witness_FloatConversionForms : Ready (withG [(1, 0x8000000000000000)]) Need.any := by decide +kernel
theorem witness_ConstantAndLiteralForms : Ready (withG [(1, 0xFFFFFFFF)]) Need.any := by decide +kernel

/-- A zero divisor; the most negative value by -1, and by 1. -/
theorem witness_DivisionForms : [((7 : Word), (0 : Word)), (0x8000000000000000, 0xFFFFFFFFFFFFFFFF), (0x8000000000000000, 1)].all
    (fun e => let s := withG [(1, e.1), (2, e.2)]
      ready s Need.any && decide (s.hart.getG 1 = e.1) && decide (s.hart.getG 2 = e.2)) = true := by decide +kernel

/-- `adds` at its upper bound, above it, and below its lower bound. -/
theorem witness_SaturatingForms : [((0x7FFFFFFFFFFFFFFE : Word), (1 : Word), (0 : Int)), (0x7FFFFFFFFFFFFFFF, 1, 1),
    (0x8000000000000000, 0xFFFFFFFFFFFFFFFF, -1)].all (fun e => let s := withG [(1, e.1), (2, e.2.1)]
      let v := (s.hart.getG 1).toInt + (s.hart.getG 2).toInt
      ready s Need.any && decide (e.2.2 = if v < -2 ^ 63 then -1 else if 2 ^ 63 - 1 < v then 1 else 0)) = true := by decide +kernel

/-- The two zeros, a quiet NaN, and a signalling one. -/
theorem witness_ScalarCompares : [((0x80000000 : Word), false, false), (0x7FC00000, true, false), (0x7FBFFFFF, true, true)].all
    (fun e => let s := withG [(1, e.1)]
      let x : BitVec 32 := (s.hart.getG 1).extractLsb' 0 32
      ready s Need.any && decide ((x.extractLsb' 23 8 = 0xFF ∧ x.extractLsb' 0 23 ≠ 0) = (e.2.1 = true)) &&
        (e.2.2 == (e.2.1 && !x.getLsbD 22))) = true := by decide +kernel

/-- Every relation to zero; a mask with one lane and one with none. -/
theorem witness_ConditionalBranches : ([((0 : Word), (0 : Int)), (1, 1), (0xFFFFFFFFFFFFFFFF, -1)].all (fun e =>
      let s := (withG [(1, e.1)]).modHart (fun x => x.setP 1 (1#256 <<< 63))
      ready s Need.any && decide ((s.hart.getG 1).toInt = e.2) && decide (2048 / (8 * 2 ^ s.hart.vw.toNat) = 64) &&
        (s.hart.getP 1).getLsbD 63 && !(s.hart.getP 1).getLsbD 0 && decide (s.hart.getP 2 = 0))) = true := by decide +kernel

/-- A target that passes its checks, with a loop active, and a misaligned one. -/
theorem witness_JumpsAndCalls : [((8 : Word), true), (6, false)].all (fun e =>
      let s := (withG [(1, e.1)]).modHart (fun x => { x with loops := [{ n := 0, start := 0, fin := 4 }] })
      ready s Need.any && ((s.targetFault s.hid (s.hart.getG 1)).1.isNone == e.2) && !s.hart.status.trap) = true := by
  decide +kernel

/-- A body of 1 word and one of 256 words, with counts that are zero and not. -/
theorem witness_LoopsBegin : [((0 : Word), (1 : BitVec 14)), (1, 1), (0, 256), (1, 256)].all (fun e =>
      let s := withG [(1, e.1)]
      let x := s.hart
      let last := x.pc + BitVec.ofNat 64 (4 * e.2.toNat)
      ready s Need.any && oks (s.fetchBy (loopId s.hid) s.hid last) (fun w _ =>
        match w with
        | some w => decide (((if w.extractLsb' 26 6 = 0x0E then last + 4 else last) - x.pc).toNat ≤ 1024) && x.loops.isEmpty
        | none => false)) = true := by decide +kernel

/-- An entry whose body ends elsewhere, and one that ends here with a counter at 2 and at 1; and TRAP = 1. -/
theorem witness_LoopEndStep : [(true, (0 : Word), (1 : Word)), (false, 8, 1), (false, 0, 1), (false, 0, 2)].all (fun c =>
      let e : LoopEntry := { n := 2, start := 0, fin := c.2.1 }
      let x : Slot := { base.hart with loops := [e], lc := Vector.replicate 3 c.2.2, status := { base.hart.status with trap := c.1 } }
      decide (e.n.toNat < 3) && decide (lcGet x.lc e.n = c.2.2) && decide (x.loops = [e])) = true := by decide +kernel

/-! ### Memory -/

/-- A translation leaves the strand and the platform alone where the station holds it. -/
theorem witness_translations_keep : (hbmBase.translate 0 1 true 0x40 .write).2 = hbmBase ∧ (base.translate 3 1 true 0x40 .read).2 = base ∧
    (devBase.translate 3 1 true 8 .read).2 = devBase := ⟨rfl, rfl, rfl⟩

/-- An access of 8 bytes at the top of local store, and one of a byte at the bottom. -/
theorem witness_LocalStoreScalars : [((0x3FFF8 : Word), (3 : BitVec 2)), (0, 0)].all (fun e => let s := withG [(2, e.1)]
      let ea := s.hart.getG 2 + ((0 : BitVec 11).signExtend 64 <<< e.2.toNat)
      ready s Need.access && decide (ea.toNat < 2 ^ 18) && decide (ea.toNat % 2 ^ e.2.toNat = 0)) = true := by decide +kernel

/-- The top 256 bytes of local store with every lane and with none. -/
theorem witness_LocalStoreVectors : [(0 : BitVec 3), 1].all (fun p => let s := withG [(2, 0x3FF00)]
      let ea := s.hart.getG 2 + s.hart.getG 3
      ready s { Need.access with vs := [7] } && ((s.hart.active p).isEmpty == decide (p = 1)) && decide (ea.toNat < 2 ^ 18) &&
        decide (ea.toNat % 256 = 0)) = true := by decide +kernel

/-- The last doubleword of a bank in plain scratchpad mode, and a FIFO bank that is empty and holds a word. -/
theorem witness_ScratchpadScalars : ([(1 : BitVec 2), 2].all (fun m =>
      let s := ((spBase_ m).modBank 2 3 (fun b => { b with fifo := if m = 2 then [5] else [] })).modHart (fun x => x.setG 2 0x23FFFF8)
      let ea := s.hart.getG 2
      ready s Need.access && sramAt s ea 2 3 0xFFFF8 && decide (ea.toNat % 8 = 0) && decide (((s.tile 2).bank 3).mode = m) &&
        decide ((s.tile 2).ownerOf (slabOf 3 0xFFFF8) = 0) && s.hart.ordr.isNone && ((s.tile 2).bank 3).waits.isEmpty &&
        decide (s.findSlot s.hart.sid = some s.hid) && !(s.settleRange s.hid true ea.toNat 8).hart.status.unwr)) = true := by
  decide +kernel

/-- The last 256 bytes of a bank, and elements of a gather at its first bytes, with every lane and with none. -/
theorem witness_ScratchpadVectors : [(0 : BitVec 3), 1].all (fun p =>
      let s := (spBase_ 1).modHart (fun x => x.setG 2 0x23FFF00)
      let ea := s.hart.getG 2 + s.hart.getG 3
      let l := s.hart.active p
      ready s { Need.access with vs := [7] } && s.hart.ordr.isNone && !s.hart.status.unwr && (l.isEmpty == decide (p = 1)) &&
        sramAt s ea 2 3 0xFFF00 && decide (((s.tile 2).bank 3).mode = 1) &&
        decide ((s.tile 2).ownerOf (slabOf 3 0xFFF00) = 0) && decide (ea.toNat % 256 = 0) &&
        !(s.settleRange s.hid true ea.toNat 256).hart.status.unwr) = true := by decide +kernel
theorem witness_ScratchpadVectors_gather :
    (let s := (spBase_ 1).modHart (fun x => x.setG 2 0x2300000)
     let l := s.hart.active 0
     ready s { Need.access with vs := [7, 3] } && !l.isEmpty && (s.gatherGate 2 3 l).isNone && (s.gatherCheckS 2 3 false l).isNone &&
       (s.gatherCheckS 2 3 true l).isNone && !(s.performAll s.hid).hart.status.unwr) = true := by decide +kernel

/-- The last aligned doubleword of a page of host memory, of HBM4, and a device register. -/
theorem witness_GlobalScalars : [base, { base with tlb := [{ placeEntry with hostOrd := false }] }, hbmBase, devBase].all (fun s0 => let s := s0.modHart (fun x => x.setG 2 0xFFF8)
      let ea := s.hart.getG 2
      let p (x : Xlate) (t : State) : Bool := match t.region x.pa with | .remote _ _ => false | .nomem => false | _ => true
      ready s Need.access && decide (ea.toNat % 8 = 0) && reaches s ea .read p && reaches s ea .write p && s.hart.ordr.isNone &&
        !s.hart.record.opt) = true := by decide +kernel
/-- 16 bytes of zeros for `setfmt`. -/
theorem witness_GlobalScalars_formats : [base, hbmBase].all (fun s0 => let s := s0.modHart (fun x => x.setG 2 0xFFF0)
      let e2 := s.hart.getG 2
      ready s Need.access && decide (e2.toNat % 16 = 0) && reaches s e2 .write (fun _ _ => true) &&
        reaches s e2 .read (fun x t =>
          let w := bytesWords (t.loadNow x x.pa 16).1 2
          decide ((nthW w 0).toNat < 16) && decide (fld (nthW w 1) 63 48 = 0) && decide (fld (nthW w 1) 31 30 = 0) &&
            decide (fld (nthW w 1) 2 0 = 0))) = true := by decide +kernel

/-- The last 256 bytes of a page, with every lane and with none. -/
theorem witness_GlobalVectors : [(base, (0 : BitVec 3)), (hbmBase, 0), (base, 1)].all (fun e =>
      let s := e.1.modHart (fun x => x.setG 2 0xFF00)
      let l := s.hart.active e.2
      let ea := s.hart.getG 2 + s.hart.getG 3
      let here (x : Xlate) (t : State) : Bool :=
        (List.range 256).all (fun j => match t.region (x.pa + j) with | .remote _ _ => false | _ => true)
      ready s { Need.access with vs := [7] } && !s.hart.record.opt && s.hart.ordr.isNone && decide (ea.toNat % 256 = 0) &&
        (l.isEmpty == decide (e.2 = 1)) && reaches s ea .read here && reaches s ea .write here) = true := by decide +kernel
/-- A gather of one element. -/
theorem witness_GlobalVectors_gather : [Acc.read, Acc.write].all (fun acc =>
      let s := hbmBase.modHart (fun x => (x.setG 2 0x100).setP 1 2)
      ready s { Need.access with vs := [7, 3] } &&
        oks (s.gatherPlaces 2 3 acc (s.hart.active 1)) (fun pl t => !pl.isEmpty && decide (t.hart.g = s.hart.g) &&
          pl.all (fun q => decide (t.region q.x.pa = .hbm)))) = true := by decide +kernel
/-- The first element of a store to HBM4. -/
theorem witness_VectorStoreElements :
    (decide (hbmBase.region 0x100000 = .hbm) && decide (hbmBase.region (Config.hbmBytes - 1) = .hbm) && !hbmBase.hart.record.opt &&
      decide ((hbmBase.settleRange hbmBase.hid false 0x100000 4).region 0x100000 = .hbm) && (hbmBase.core 51).wc.isEmpty) = true := by
  decide +kernel

/-- The places of non-temporal stores, prefetch and cache maintenance; and an address that no walk finds. -/
theorem witness_CacheControl :
    (let s := hbmBase.modHart (fun x => x.setG 1 0xFFF8)
     let hb (x : Xlate) (t : State) : Bool := decide (t.region x.pa = .hbm) && !x.far && !isService t.coreNo
     ready s Need.access && !s.hart.record.opt && s.hart.ordr.isNone && s.hart.pend.isEmpty &&
       decide ((s.hart.getG 1).toNat % 8 = 0) && reaches s (s.hart.getG 1) .write hb &&
       reaches s (s.hart.getG 1 + s.hart.getG 2) .read hb &&
       (match (s.translate 3 1 true 0x10000 .read).1 with | .error _ => true | .ok _ => false)) = true := by decide +kernel

/-- A bank in cache mode and one in scratchpad mode, commands for every mode, no owner. -/
theorem witness_BankModes : [(0 : Word), 1, 2].all (fun m => let s := (spBase_ 1).modHart (fun x => (x.setG 1 0x23).setG 2 m)
      let ga := s.hart.getG 1
      let bk := (s.tile (fld ga 7 4)).bank (fld ga 3 0)
      ready s Need.access && decide (fld ga 63 8 = 0) && decide ((s.hart.getG 2).toNat ≤ 2) && s.hart.status.exec && bk.queue.isEmpty && bk.held.isEmpty &&
        decide (bk.mode = 1) && s.hart.ordr.isNone && (s.tile (fld ga 7 4)).owners.isEmpty) = true := by decide +kernel
/-- A switch to every mode from a FIFO bank, with no strand in any slot. -/
theorem witness_BankSwitchPerformed : [(0 : BitVec 2), 1, 2].all (fun m =>
      let s := State.reset.modBank 2 15 (fun b => { b with mode := 2, queue := [(7, m)], sw := true })
      decide (((s.tile 2).bank 15).queue = [(7, m)]) && ((s.tile 2).bank 15).waits.isEmpty && s.occSlots.isEmpty && s.others.isEmpty && s.hart.pend.isEmpty &&
        ((s.tile 2).bank 15).held.isEmpty && s.away.isEmpty &&
        decide (((s.tile 2).bank 15).mode = 2)) = true := by decide +kernel

/-- A deferred access of each kind. -/
theorem witness_HierarchyEvents_deferred : [PendKind.loadG 31, .loadV 127 1, .store, .red 10 false].all (fun k =>
      let q : Pend := { kind := k, scratch := false, va := none, elems := [{ addr := 0x100000, len := 4, idx := 0, data := 0 }], cacheable := false, hint := 0, hostOrd := false }
      let s := withHart (fun x => { x with pend := [q] })
      decide ((s.slotAt 816).pend = [q]) && s.plat.returned.isEmpty) = true := by decide +kernel
/-- A walk through five levels of a table in host memory, for the last station. -/
def walkState : State :=
  let dir (a : Nat) (v : Nat) (m : List Host.Cell) := memPut m (2 ^ 48 + a) (natLe 8 v)
  { State.reset with
    pidtb := 0x1000000000000
    mem := dir 0x10 0x1000000001001 (dir 0x1000 0x1000000002001 (dir 0x2000 0x1000000003001 (dir 0x3000 0x1000000004001 (dir 0x4000 0x1000000005001
      (dir 0x5000 0x100001F [])))))}
theorem witness_HierarchyEvents_walk : ((walkState.tlbFind 7 1 0).isNone && (match walkState.walk 7 1 0 with
      | .ok e => decide (e.base = 0x1000000) && decide (e.station = 7) &&
          decide ((walkState.tlb.filter (fun k => k.station = e.station)).length < 69632)
      | .error _ => false)) = true := by decide +kernel
/-- A station that holds as many translations as one likes, none of them of the PID. -/
theorem witness_HierarchyEvents_full (n : Nat) :
    let s : State := { walkState with tlb := List.replicate n { placeEntry with station := 7, pid := 2 } }
    s.tlbFind 7 1 0 = none ∧ (s.tlb.filter (fun k => k.station = 7)).length = n :=
  ⟨by simp [State.tlbFind], by simp⟩
theorem witness_HierarchyEvents_queues :
    (let w : WcBuf := { strand := 0, pid := 1, line := 0x1000, va := 0, mask := 1, data := 0 }
     let f : Prefetch := { tile := some 0, line := 0x1000, pid := 1, hint := 0 }
     let s : State := { base.modCore 51 (fun c => { c with wc := [w] }) with prefetch := [f] }
     decide ((s.core 51).wc.length = 1) && !(s.core 51).hold && decide (s.prefetch.length = 1)) = true := by decide +kernel

/-! ### Ordering, atomics, reservations, full/empty, owners, barriers -/

theorem witness_OrderingInstructions : (ready base Need.any &&
    (let s := withHart (fun x => { x with ordr := some { kind := 2, scope := 4, mask := 3 } })
     decide ((s.slotAt 816).ordr = some { kind := 2, scope := 4, mask := 3 }) && s.remote.isEmpty &&
       !s.drainHeld 816 { kind := 2, scope := 4, mask := 3 })) = true := by decide +kernel

/-- The last doubleword and the last word of a page of HBM4, and where its home copy is after the line went home. -/
theorem witness_AtomicsAndReductions : [((0xFFF8 : Word), (8 : Nat)), (0xFFFC, 4)].all (fun e =>
      let s := hbmBase.modHart (fun x => x.setG 1 e.1)
      ready s Need.access && !s.hart.record.opt && s.hart.ordr.isNone && decide ((s.hart.getG 1).toNat % e.2 = 0) &&
        reaches s (s.hart.getG 1) .write (fun x s0 =>
          let s1 := s0.beforeHome x e.2
          let s2 := s0.sendHome s0.coreNo x
          decide (s0.region x.pa = .hbm) && decide (s1.region x.pa = .hbm) && !s1.hart.record.opt && decide (s2.region x.pa = .hbm) &&
            decide (s2.hart.g = s.hart.g))) = true := by decide +kernel
theorem witness_Reductions_hart : (hbmBase.sendHome 51 { pa := 0x100000, far := false, timed := false, hostOrd := false, cached := false, hint := 0, migrate := false }).hart =
    hbmBase.hart := rfl

/-- A line that none holds, and one that the strand holds. -/
theorem witness_ReservedLines : [true, false].all (fun held =>
      let q : RsvQueue := { line := 0x10FF, waiters := [base.hart.sid], granted := true, since := 0 }
      let s : State := { hbmBase.modHart (fun x => x.setG 1 0xFFF8) with rsvqs := if held then [q] else [] }
      ready s Need.access && !s.hart.record.opt && s.hart.ordr.isNone && s.hart.rsvLine.isNone && decide ((s.hart.getG 1).toNat % 8 = 0) &&
        reaches s (s.hart.getG 1) .write (fun x s0 =>
          let s1 := ((s0.settleIf s0.hid (fun p => p.isRed && p.elems.any (fun e => decide (e.addr / 256 = x.pa / 256)))).settle x.pa
            8).sendHome s0.coreNo x
          decide (x.pa / 256 = 0x10FF) && decide (s0.region x.pa = .hbm) && (s1.holdsLine s1.hart.sid (x.pa / 256) == held) &&
            !s1.hart.record.opt && (held || (s0.beforeHome x 8).rsvqs.isEmpty))) = true := by decide +kernel
/-- A waiting `lrw` and a strand that is gone; a reservation that is held for longer than 64 µs. -/
theorem witness_ReservedLines_events : [(true, false), (false, false), (true, true)].all (fun e =>
      let sid := base.hart.sid
      let q : RsvQueue := { line := 0x1000, waiters := [if e.1 then sid else sid + 1], granted := e.2, since := 0 }
      let s : State := { hbmBase.modHart (fun x => { x with park := some (.lrw 3 0x100000) }) with rsvqs := [q], ticks := 128001 }
      decide (s.rsvOf 0x1000 = some q) && decide (q.since + 128000 < s.ticks) &&
        (match s.strandOf sid with
         | some y => decide (y.park = some (.lrw 3 0x100000))
         | none => false) && (s.strandOf (sid + 1)).isNone) = true := by decide +kernel

/-- The last word of a plain scratchpad bank, FULL and EMPTY. -/
theorem witness_FullEmpty : [true, false].all (fun full =>
      let s := ((spBase_ 1).modTile 2 (fun t => { t with empties := if full then [] else [0x23FFFF8] })).modHart (fun x => x.setG 1 0x23FFFF8)
      let ea := s.hart.getG 1
      let s1 := s.settleRange s.hid true ea.toNat 8
      ready s Need.access && s.hart.ordr.isNone && sramAt s ea 2 3 0xFFFF8 && decide (((s.tile 2).bank 3).mode = 1) &&
        decide ((s.tile 2).ownerOf (slabOf 3 0xFFFF8) = 0) && decide (ea.toNat % 8 = 0) && !s1.hart.status.unwr &&
        ((((s1.consumeHart (spBase ea.toNat) 8).tile (spBankOf ea.toNat).1).isEmptyWord ea.toNat) == !full)) = true := by decide +kernel

/-- A slab, with the first and the last code, and a half of the pass buffers. -/
theorem witness_OwnersAndBarrier_give : [((0x2300000 : Word), (1 : Word)), (0x2300000, 4), (0x12C00000, 3)].all (fun e =>
      let s := (spBase_ 1).modHart (fun x => (x.setG 1 e.1).setG 2 e.2)
      let ea := s.hart.getG 1
      ready s Need.access && s.hart.ordr.isNone && (s.bankBusy s.hart.sid ea).isNone && decide (1 ≤ (s.hart.getG 2).toNat) &&
        decide ((s.hart.getG 2).toNat ≤ 4) && (decide (e.2 ≠ 4) || !inHalf ea) &&
        (match (s.bankPass s.hart.sid ea).ownedCheck ea with
         | .ok o => decide ((s.bankPass s.hart.sid ea).ownerGet o = 0)
         | .error _ => false)) = true := by decide +kernel
/-- A strand of no group, and one of a group whose block can be read. -/
theorem witness_OwnersAndBarrier_bar : [(0 : Word), 0x1000].all (fun gcb =>
      let s := base.modHart (fun x => { x with record := { x.record with gcb := gcb } })
      let s1 := ((s.orderingDone s.hid).releaseActions s.hid 4).acquireActions s.hid 4 0
      let r := s1.hart.record
      let q := quadOf (s1.hid / 16)
      ready s Need.access && decide (r.gcb = gcb) &&
        (decide (gcb = 0) || ((s1.farBlock q r.pid (r.gcb + 8)).isNone && (s1.vaWordAt q r.pid (r.gcb + 8)).isSome))) = true := by decide +kernel

/-! ### Vector instructions -/

/-- Every width, with a mask of one lane. -/
theorem witness_VectorForms : [(0 : BitVec 2), 1, 2, 3].all (fun w =>
      let s := withHart (fun x => { x.setP 1 1 with vw := w })
      ready s (Need.vec [7, 6, 5]) && (s.hart.elt.isNone == decide (w = 3)) && (s.hart.getP 1).getLsbD 0 && !(s.hart.getP 1).getLsbD 1) = true := by
  decide +kernel
theorem witness_VectorFloatForms : Ready base (Need.vec [7, 0, 7]) := by decide +kernel
theorem witness_VectorIntegerForms : Ready (withHart (fun x => { x with vw := 3 })) (Need.vec [7, 7, 7]) := by decide +kernel
theorem witness_ComparesAndMasks : Ready base (Need.vec [0, 7]) ∧ Ready base Need.any := by decide +kernel
/-- Grids of 64 rows and of 128 rows, with a format and without one. -/
theorem witness_VectorReductions : [((2 : BitVec 2), (6 : BitVec 4), (64 : Nat), true), (0, 7, 128, true), (3, 5, 32, false)].all (fun e =>
      let s := withHart (fun x => { x with vw := e.1, vlr := e.2.1 })
      ready s (Need.vec [7, 6, 5]) && decide (2 ^ s.hart.vlr.toNat = e.2.2.1) && (s.hart.elt.isSome == e.2.2.2)) = true := by decide +kernel
/-- IEEE, tapered and no format; shapes and windows at the ends of their ranges. -/
theorem witness_VectorMovesAndConversions : ([((2 : BitVec 2), (0 : BitVec 4)), (1, 0), (0, 0), (3, 0)].all (fun e =>
      let s := withHart (fun x => { x with vw := e.1, fmt := e.2 })
      ready s (Need.vec [7, 6, 5]) && decide ((s.hart.ew = 8) = (e.1 = 0))) &&
    decide ((5 : BitVec 4).toNat ≤ 8 - (3 : BitVec 2).toNat) && decide (8 - (3 : BitVec 2).toNat < (6 : BitVec 4).toNat) &&
    decide (32 * (0 : BitVec 2).toNat < modeRegs base.hart.record.mode) && decide (modeRegs base.hart.record.mode ≤ 32 * (1 : BitVec 2).toNat)) = true := by
  decide +kernel
/-- Parts of `vcvt` below and at the ratio of the widths; operands of a pack with and without a NaN. -/
theorem witness_VectorMovesAndConversions_parts : ([((0 : BitVec 2), true), (3, true)].all (fun e =>
      let r := Nat.max (cvtTy 0 base.hart.ew).2 (cvtTy 3 base.hart.ew).2 / Nat.min (cvtTy 0 base.hart.ew).2 (cvtTy 3 base.hart.ew).2
      decide (r = 4) && (decide (e.1.toNat < r) == e.2)) &&
    decide (Nat.max (cvtTy 0 base.hart.ew).2 (cvtTy 1 base.hart.ew).2 / Nat.min (cvtTy 0 base.hart.ew).2 (cvtTy 1 base.hart.ew).2 ≤ (2 : BitVec 2).toNat)) = true := by
  decide +kernel

/-! ### Engines of a tile -/

/-- A copy command of one row of 8 bytes. -/
def copyCmd : CopyCmd :=
  { strand := 0, pid := 1, exec := true, isLp := false, core := 51, tile := 2, src := 0x2300000, dst := 0x2300040, word2 := 0x30001000008,
    word3 := 0, stat := 0, bad := false, running := true, cancel := false, asked := false, failed := none, moved := none }

/-- Slabs of bank 3 of tile 2 owned by the copy engine, and its queue. -/
def copyState (owner : BitVec 3) (c : CopyCmd) : State :=
  (spBase_ 1).modTile 2 (fun t => { t.setOwner (slabOf 3 0) owner with copies := [c] })

/-- The last places of a descriptor and of a status area. -/
theorem witness_Copies_issue : (let s := withG [(1, 0x3FFE0), (2, 0x3FFF0)]
    ready s Need.access && decide ((s.hart.getG 1).toNat < 0x40000) && decide ((s.hart.getG 2).toNat < 0x40000) &&
      decide ((s.hart.getG 1).toNat % 32 = 0) && decide ((s.hart.getG 2).toNat % 16 = 0) &&
      decide (((((s.beforeAccess true).releaseActions s.hid 1).tile s.tileNo).copies).length < 64)) = true := by decide +kernel
/-- Commands that begin, that move their data, that meet an owner, that are cancelled, bad, and of a logical process. -/
theorem witness_Copies_engine : ([({ copyCmd with running := false }, (1 : BitVec 3), (0 : Nat)), (copyCmd, 1, 0), (copyCmd, 0, 3),
    ({ copyCmd with cancel := true }, 1, 6), ({ copyCmd with bad := true }, 1, 1),
    ({ copyCmd with isLp := true, word2 := 0x10001000008 }, 1, 5)].all (fun e =>
      let s := copyState e.2.1 e.1
      let s0 := s.copyAsk e.1
      decide ((s.tile 2).copies = [e.1]) && decide (e.1.tile = 2) && !s.copyHeld e.1 && e.1.moved.isNone && !s0.engineAwaits (copyId 2) &&
        !((s0.copyMove e.1).2.engineForget (copyId 2)).engineAwaits (copyId 2) && (match (s.copyMove e.1).1 with
        | .ok _ => decide (e.2.2 = 0)
        | .error x => decide (x.code = e.2.2)))) = true := by decide +kernel

/-- A descriptor at the last place of local store, palettes and places at the ends of their ranges, no floor fault. -/
theorem witness_OpticalInstructions : ([((0x3FFF0 : Word), (3 : Word)), (0x100, 3), (0x4000, 0x4003), (0, 0x0100)].all (fun e =>
      let s := withG [(1, e.1), (2, e.2)]
      ready s Need.command && ready s { Need.command with opt := true } && ready s { Need.any with iss := true } &&
        s.hart.floorPend.isNone && decide (s.hart.passOut = 0) &&
        decide ((((s.beforeAccess true).releaseActions s.hid 1).tile s.tileNo).opt.queue.length < 64)) &&
    decide ((0x3FFF0 : Nat) % 16 = 0) && decide (fld (0x4003 : Word) 63 15 = 0) && decide (fld (0x4003 : Word) 7 2 = 0) &&
    decide (fld (0x4003 : Word) 14 8 = 64) && decide (fld (0x0100 : Word) 14 8 = 1) && decide (0x4000 % 16384 = 0) && decide (base.tileNo = 0)) = true := by
  decide +kernel
/-- Floors at the end of the range with both policies; a floor fault that is pending. -/
theorem witness_OpticalInstructions_floor : ([(0x17F : Word), 0].all (fun v => let s := withG [(1, v)]
      ready s { Need.any with iss := true } && s.hart.floorPend.isNone && decide ((s.hart.getG 1).toNat % 2 ^ 8 < 2 ^ 7) &&
        decide ((s.hart.getG 1).toNat < 2 ^ 9)) &&
    (let s := withHart (fun x => { x with floorPend := some (7, 0) })
     ready s Need.command && decide (s.hart.floorPend = some (7, 0)))) = true := by decide +kernel

/-- An optical command of tile 2. -/
def optCmd (k : OptKind) : OptCmd :=
  { kind := k, tile := 2, strand := 0, pid := 1, exec := true, isLp := false, handler := 0, ack := none, pal := 0, addr := 0, n := 1,
    desc0 := 0x0FF0000000010000, desc1 := 0, floor := 0, emulate := true, ticket := 1, varn := false, running := false, cancel := false }

/-- A palette of PID 1 that tile 2 has converted under its current calibration. -/
def palette : Palette :=
  { mesh := [], att := [], screen := [], sw := 0, n := 64, febc := 127, tag := 0, pid := 1, pebc0 := 64, conv := some 1 }

/-- `base` with every station mapping the page at address 0, and the optical tile 2 changed. -/
def opticState (f : Optics → Optics) : State :=
  { base with tlb := (List.range 8).map (fun k => { placeEntry with station := k }) }.modOpt 2 (fun o => f { o with calgen := 1 })

/-- The optical tile with palette 0 written, and a command queued. -/
def withCmd (c : OptCmd) (k : Option Palette) : State :=
  opticState (fun o => { o with queue := [c], pals := o.pals.setIfInBounds 0 k })

/-- Commands of each kind waiting and running, on a palette that is EMPTY, their own, and another PID's. -/
theorem witness_OpticalTiles_palettes : ([none, some palette, some { palette with pid := 2 }].all (fun k =>
    [OptKind.phld, .phst, .psel, .dcmp].all (fun q =>
      let s := withCmd (optCmd q) k
      let t := withCmd { optCmd q with running := true } k
      let o := (s.tile 2).opt
      s.engineOn 2 && !t.engineAwaits (loaderId 2) && decide (o.startable (fun j => decide (j = q)) = some (0, optCmd q)) && (!q.isLoad || decide (o.startable OptKind.isLoad = some (0, optCmd q))) &&
        decide ((t.tile 2).opt.running q = some (0, { optCmd q with running := true })) &&
        (o.foreign (optCmd q) == decide (k.any (fun p => decide (p.pid = 2)))) && ((o.pal 0).isNone == k.isNone)))) = true := by decide +kernel
/-- An image that can be read and is not well formed, and one that cannot be read. -/
theorem witness_OpticalTiles_image : ([((0 : Word), true), (0x10000, false)].all (fun e =>
      let c := { optCmd .phld with addr := e.1, running := true }
      let s0 := (withCmd c none).imageAsk 2 0 c
      !s0.engineAwaits (loaderId 2) && (match s0.loaderRead 2 1 true e.1 16640 300 with
      | (.ok bs, _) => e.2 && !imageOk bs
      | (.error _, _) => !e.2))) = true := by decide +kernel
/-- An image that is stored with no answer to wait for. -/
theorem witness_OpticalTiles_store : (let s := withCmd { optCmd .phst with running := true } (some palette)
    match s.engineWrite 2 1 true 0 palette.image 300 with
    | (none, s1) => !s1.engineAwaits (loaderId 2)
    | (some _, _) => false) = true := by decide +kernel
/-- A well-formed image: N = 1 and zeros. -/
theorem witness_OpticalTiles_image_ok : imageOk (natLe 4 0x31504C5A ++ natLe 2 1 ++ [1] ++ List.replicate 16633 0) = true := by
  decide +kernel
/-- A slab in plain scratchpad mode owned by code 2, and not; a block that fails and one that does not. -/
theorem witness_OpticalTiles_dcmp : ([(2 : BitVec 3), 0].all (fun w =>
      let c := { optCmd .dcmp with addr := 0x2300000 }
      let s := ((spBase_ 1).modTile 2 (fun t => t.setOwner (slabOf 3 0) w)).modOpt 2 (fun o => { o with queue := [c] })
      let b := (s.tile 2).bank (c.addr.toNat % 2 ^ 24 / 2 ^ 20)
      decide ((s.tile 2).opt.startable (fun k => decide (k = .dcmp)) = some (0, c)) && !(s.tile 2).opt.foreign c && decide (b.mode = 1) &&
        decide (b.pid = c.pid) && decide (s.ownerGet c.slab = w)) &&
    decide ((factorise [[0x7F800000]] 1).status ≠ 0)) = true := by decide +kernel
theorem witness_OpticalTiles_factorised : (factorise [[0x3F800000]] 1).status = 0 := by decide +kernel

/-- States of an optical tile for every event of its control: READY and HOLD, CALIB, DIGITAL, with light and a request. -/
theorem witness_OpticalTiles_states : ([TileState.dark, .calib, .ready, .hold, .digital].all (fun st =>
      let s := (opticState (fun o => { o with state := st, calReq := true, live := 0x80, off := false, pals := o.pals.setIfInBounds 0 (some palette), queue := [optCmd .clr] })).modPlat (fun p =>
        { p with cur := 0 })
      let o := (s.tile 2).opt
      decide (o.state = st) && o.calReq && !o.inFlight && decide (s.plat.cur ≠ 3) && decide (o.queue.length < 64) && !o.off &&
        decide (o.startable (fun k => decide (k = .clr)) = some (0, optCmd .clr)) && o.live.getLsbD 7 && decide ((o.pal o.active.toNat).isSome))) = true := by
  decide +kernel

/-- The start of a pass: a legal descriptor and an illegal one, halves that are owned and not, a palette that is EMPTY, another
PID's, stale for a logical process, and standing. -/
theorem witness_Passes_start : ([(optCmd .pass, (2 : BitVec 3), some palette), ({ optCmd .pass with desc0 := 0 }, 2, some palette),
    (optCmd .passr, 0, some palette), (optCmd .pass, 2, none), (optCmd .pass, 2, some { palette with pid := 2 }),
    ({ optCmd .pass with isLp := true }, 2, some { palette with conv := none })].all (fun e =>
      let s := (withCmd e.1 e.2.2).modTile 2 (fun t => { t with halves := Vector.replicate 4 e.2.1 })
      let o := (s.tile 2).opt
      s.engineOn 2 && decide (o.startable OptKind.isPass = some (0, e.1)) && decide (e.1.tile = 2) && !e.1.cancel && (e.1.legal == decide (e.1.desc0 ≠ 0)) &&
        decide ((s.tile 2).halfOwner e.1.ih = e.2.1) && decide ((s.tile 2).halfOwner e.1.oh = e.2.1) && decide (o.pal 0 = e.2.2) &&
        (o.standing 0 == e.2.2.any (fun k => k.conv.isSome)) && decide (e.1.count ≤ 1024))) = true := by decide +kernel
/-- A group at a floor it meets, below it, and with no wavelength in service, under both policies. -/
theorem witness_Passes_enter : ([((0xFF : BitVec 8), (0 : BitVec 7), true), (0xFF, 127, true), (0, 0, true), (0, 0, false)].all (fun e =>
      let c := { optCmd .pass with floor := e.2.1, emulate := e.2.2 }
      let r := startRun c true true
      let s := (opticState (fun o => { o with state := .ready, live := e.1, runs := [r], lastSw := Vector.replicate 8 (some 0), pals := o.pals.setIfInBounds 0 (some palette) })).modTile 2
        (fun t => { t with halves := Vector.replicate 4 2 })
      let o := (s.tile 2).opt
      let n := Nat.min (c.groupSize o.live) (c.count - r.next)
      s.engineOn 2 && s.passHolds c && decide (o.state ≠ .hold) && !o.calReq && decide (o.entering = some r) && !r.leave && !o.setDue && !o.swatchFirst (c.lmask &&& o.live) n && !s.allNan c r.next n &&
        (decide (c.lmask &&& o.live = 0) == decide (e.1 = 0)) &&
        (decide (c.floor.toNat ≤ o.declared s.ticks 0 c.gain) == decide (e.2.1 = 0)))) = true := by decide +kernel
/-- A group that has gone through the meshes and one left to emulation. -/
theorem witness_Passes_write : ([true, false].all (fun emu =>
      let c := optCmd .pass
      let g : PassGroup := { first := 0, count := 1, emu := emu, ebc := 64 }
      let r := { startRun c true true with groups := [g], next := 1 }
      let s := (opticState (fun o => { o with runs := [r], pals := o.pals.setIfInBounds 0 (some palette) })).modTile 2 (fun t => { t with halves := Vector.replicate 4 2 })
      let o := (s.tile 2).opt
      s.engineOn 2 && s.passHolds c && decide (o.oldestGroup = some (r, g)) && decide (o.pal c.pal.toNat = some palette) && (s.tile 2).xmms.isEmpty && !s.allNan c 0 1 &&
        decide (c.ofmt = 0) && !c.acc && decide (s.inScale c 0 ≠ 0xFF))) = true := by decide +kernel
/-- A pass that can end, with a reply and without. -/
theorem witness_Passes_end : ([none, some (31 : BitVec 5)].all (fun a =>
      let c := { optCmd .pass with ack := a }
      let r := { startRun c true true with next := 1 }
      let s := (opticState (fun o => { o with runs := [r] })).modTile 2 (fun t => { t with halves := Vector.replicate 4 2 })
      decide ((s.tile 2).opt.runs = [r]) && decide (s.ownerGet (.half 2 c.ih) = 2) && decide (s.ownerGet (.half 2 c.oh) = 2) && r.groups.isEmpty && r.allIn && !c.cancel && decide (r.status = 0) && r.inOwned && r.outOwned &&
        c.legal && decide (c.iafter ≠ 2) && !c.okeep && decide (c.ack = a))) = true := by decide +kernel

/-- A command of the exact matrix unit of tile 0 with K = `k`. -/
def xmmCmd (k : Nat) : XmmCmd :=
  { strand := 0, pid := 1, ack := none, strict := false, core := 51, d0 := 0x0030000000300000, d1 := BitVec.ofNat 64 (0x304000 + k * 2 ^ 32),
    d2 := 0, d3 := 0, running := false, leave := false, cancel := false, status := 0 }

/-- Bank 3 of tile 0 in plain scratchpad mode, its first two slabs owned by code 3. -/
def xmmState (c : XmmCmd) : State :=
  (base.modBank 0 3 (fun b => { b with mode := 1, pid := 1 })).modTile 0 (fun t => { (t.setOwner (slabOf 3 0) 3).setOwner (slabOf 3 0x4000) 3 with xmms := [c] })

/-- The last place of a descriptor, with room in the unit's queue. -/
theorem witness_MatrixUnit_issue : (let s := withG [(1, 0x3FFE0)]
    ready s Need.command && decide ((s.hart.getG 1).toNat % 32 = 0) && decide ((s.hart.getG 1).toNat ≤ 0x3FFE0) &&
      decide (((((s.beforeAccess true).releaseActions s.hid 1).tile s.tileNo).xmms).length < 16)) = true := by decide +kernel
/-- K of 1 and of 8, a cancelled and an illegal command; commands that run. -/
theorem witness_MatrixUnit : ([(xmmCmd 1, (0 : Nat)), (xmmCmd 8, 0), ({ xmmCmd 1 with cancel := true }, 7), (xmmCmd 0, 10), (xmmCmd 65, 10), ({ xmmCmd 1 with writing := true }, 0)].all (fun e =>
      let s := xmmState e.1
      let t := xmmState { e.1 with running := true, status := BitVec.ofNat 8 e.2 }
      s.engineOn 0 && decide (s.xmmStatus e.1 = e.2) && (s.xmmLegal e.1 == decide (e.2 ≠ 10)) && !(s.tile 0).opt.emuWaits && decide ((s.tile 0).xmms = [e.1]) &&
        !(s.job e.1.pid).ft && decide (((t.tile 0).xmms.map (fun c => (c.running, c.leave, c.ack))) = [(true, false, none)]))) = true := by decide +kernel
theorem witness_MatrixUnit_leave : [(0 : Nat), 1, 2].all (fun k =>
    decide (((base.modTile 0 (fun t => { t with leaveQ := [k] })).tile 0).leaveQ = [k])) = true := by decide +kernel

/-! ### Collectives -/

/-- A collective of 64 KiB from bank 4 of tile 0 to bank 5, by device 0 alone; its table is at address 0. -/
def collOf (state : BitVec 8) : Coll :=
  { strand := 0, pid := 1, exec := true, d0 := 0x0400000700010000, d1 := 0x0050000000400000, d2 := 0, d3 := 0, state := state, status := 0,
    cancel := false, members := [0], trees := [], restarts := 0, version := 0, marks := [0], asked := 0, granted := 0, flags := 0, inbox := [],
    outbox := [] }

/-- The last place of a descriptor with room in the engine; a CID at the end of its range. -/
theorem witness_Collectives_issue : (let s := withG [(1, 0x3FFE0), (2, 0xFFFF)]
    let s1 := (s.beforeAccess true).releaseActions s.hid 1
    ready s Need.access && decide ((s.hart.getG 1).toNat % 32 = 0) && decide ((s.hart.getG 1).toNat ≤ 0x3FFE0) && s1.collFree && s1.hart.occ &&
      s1.others.all (fun e => e.2.park.isNone) && decide ((s.hart.getG 2).toNat < 2 ^ 16)) = true := by decide +kernel
/-- Start checks that pass, that fail on the table, a cancel, a bad descriptor. -/
theorem witness_Collectives_start : ([(collOf 1, (0 : Nat)), ({ collOf 1 with d2 := 0x10000 }, 2), ({ collOf 1 with cancel := true }, 7), ({ collOf 1 with d3 := 0x800 }, 10)].all (fun e =>
      let own (t : Tile) : Tile := { t with owners := (List.range 8).map (fun k => (256 + 16 * k, (4 : BitVec 3))) ++ (List.range 256).map (fun k => (256 + k, (4 : BitVec 3))) }
      let s : State := { (((base.modBank 0 4 (fun b => { b with mode := 1, pid := 1 })).modBank 0 5 (fun b => { b with mode := 1, pid := 1 })).modTile 0 own) with
        collQ := [e.1], tlb := (List.range 8).map (fun k => { placeEntry with station := k }), mem := memPut [] (2 ^ 48) (natLe 8 1) }
      let s1 : State := { s with collQ := s.collQ.erase e.1 }
      decide (s.collQ.find? (fun c => decide (c.cid = 7)) = some e.1) && (s1.coll 7).isNone && (match s1.collCheck e.1 with
        | (some (.ok m), _) => decide (e.2 = 0) && decide (m = [0])
        | (some (.error st), _) => decide (st = e.2)
        | (none, _) => false))) = true := by decide +kernel
/-- Collectives in each state, with and without trees, with a transfer that is new and one that is known, and one to send. -/
theorem witness_Collectives_events : ([(1 : BitVec 8), 2, 3].all (fun st =>
      let x : ChunkXfer := { chunk := 0, dev := 1, version := 0, down := false, pass := 0, elems := [], aux := [] }
      let c := { collOf st with marks := [2], inbox := [x], outbox := [(1, x)] }
      let d := { collOf st with members := [0, 1] }
      let s := base.setColl 7 c
      decide (s.coll 7 = some c) && !s.changing && !c.cancel && !(s.buildTrees c [] 0 c.kmax).isEmpty && (s.buildTrees d [] 0 d.kmax).isEmpty &&
        decide (x.version = s.agreed) && (c.got 0 0 false 1).isSome && (c.got 1 0 false 1).isNone && c.ready 0 &&
        decide (c.outbox.find? (fun e => decide (e.1 = 1) && decide (e.2.chunk = 0)) = some (1, x)) &&
        c.members.all (fun m => decide (m = s.plat.dev.toNat)) && !s.reach 1)) = true := by decide +kernel

/-! ### Strands, groups and scheduling -/

/-- `hbmBase` and `base` with every station mapping the page at address 0. -/
def wideHbm : State := { hbmBase with tlb := (List.range 8).map (fun k => { placeEntry with station := k, base := 0x100000, hostOrd := false }) }
def wideHost : State := { base with tlb := (List.range 8).map (fun k => { placeEntry with station := k }) }

/-- Doublewords at virtual addresses of the page, under the key of PID 1. -/
def withWords (s : State) (l : List (Nat × Word)) : State := l.foldl (fun t e => t.homePut 1 (0x100000 + e.1) (natLe 8 e.2.toNat)) s

/-- The eight doublewords of a template with a frame at 0x400, and of one with a group. -/
def template (gcb : Word) : List Word := ({ Rec.zero with frame := 0x400, gcb := gcb } : Rec).words 0x40 0 0

/-- A state with a block at 0x1000 whose first and fourth words are given. -/
def withBlock (w0 w3 : Word) : State := withWords wideHbm [(0x1000, w0), (0x1018, w3)]

/-- A template that can be read; one without a group, one with a group that waits for nothing, and one that waits. -/
theorem witness_LaunchInstructions_spawn : ([(0 : Word), 0x1000].all (fun g =>
      let s := (withWords (withBlock 2 0) ((template g).zipIdx.map (fun e => (8 * e.2, e.1)))).modHart (fun x => x.setG 1 0)
      ready s Need.access && !s.hart.record.opt && oks (s.globalCheck 0 64 .read) (fun x s0 =>
        let l := ((s0.beforeAccess true).releaseActions s0.hid 4).loadNow x x.pa 64
        let off (t : State) : Bool := match t.region x.pa with
          | .remote _ _ => false
          | _ => true
        off s0 && off ((s0.beforeAccess true).releaseActions s0.hid 4) && decide (bytesWords l.1 8 = template g) && (match l.2.spawnWords (l.2.launcher l.2.hid) 0 (bytesWords l.1 8) false with
          | .ok _ => true
          | .error _ => false)))) = true := by decide +kernel
theorem witness_LaunchInstructions_group : ([(0 : Word), 1].all (fun pred =>
      let s := withBlock 2 pred
      let l := s.launcher s.hid
      let b := s.blockWordsAt l.quad l.pid 0x1000
      !templateBad (template 0) l.exec && !templateBad (template 0x1000) l.exec && decide ((Rec.ofWords (template 0)).gcb = 0) &&
        decide ((Rec.ofWords (template 0x1000)).gcb = 0x1000) && !(Rec.ofWords (template 0x1000)).opt &&
        (match s.blockCheck l.quad l.pid l.exec 0x1000 true with
         | .ok h => h
         | .error _ => false) && !gcbBad b && decide (blockState b = 0) && decide (groupN b = 2) && decide (fld (nthW b 3) 31 0 = pred.toNat))) = true := by
  decide +kernel
theorem witness_LaunchInstructions_gdep : (let s := withWords (withBlock 2 0) [(0x1028, 0x3000), (0x1030, 1 <<< 48), (0x2000, 2)]
    ready s Need.access && !s.hart.record.opt && (match (s.beforeAccess true).gdepFor (slotQuad s.hid) 1 true 0x1000 0x2000 with
      | .ok _ => true
      | .error _ => false)) = true := by decide +kernel
/-- Blocks of a group and of a graph in each STATE that can be cancelled. -/
theorem witness_LaunchInstructions_cancel : ([((0 : Word), true), (1, true), (2, true), (0, false), (1, false)].all (fun e =>
      let s := (withBlock ((e.1 <<< 58) ||| (if e.2 then 2 else 1 <<< 62)) 0).modHart (fun x => x.setG 1 0x1000)
      let s1 := s.beforeAccess true
      let b := s1.blockWordsAt (slotQuad s1.hid) 1 0x1000
      ready s Need.access && !s.hart.record.opt && (match s1.blockCheck (slotQuad s1.hid) 1 true 0x1000 true with
        | .ok h => h
        | .error _ => false) && (match (s.beforeAccess false).blockCheck (slotQuad s.hid) 1 true 0x1000 false with
        | .ok h => h
        | .error _ => false) && decide (blockState b < 3) && (gcbBad b == !e.2) && (graphBad b == e.2))) = true := by decide +kernel
/-- A user strand that names its own job, and an executive one that names the last PID. -/
theorem witness_LaunchInstructions_job : ([((false : Bool), (0 : Word)), (true, 0xFFF)].all (fun e =>
      let s := withHart (fun x => { x.setG 1 e.2 with status := { x.status with exec := e.1 } })
      ready s Need.access && !s.hart.record.opt && (s.hart.status.exec == e.1) && ((s.beforeAccess true).hart.status.exec == e.1) &&
        decide (fld (s.hart.getG 1) 63 12 = 0))) = true := by decide +kernel

/-- A strand outside virtual time and a logical process outside a handler; a mask at the last place of local store, with strands
of lower priority and none; places of `migr` in HBM4, in host memory and on another module. -/
theorem witness_LeavingInstructions : ([false, true].all (fun o =>
      let s := withHart (fun x => { x with record := { x.record with opt := o } })
      ready s Need.any && s.hart.floorPend.isNone && (s.hart.record.opt == o) && !s.hart.lp.inh && !s.hart.counted)) = true := by decide +kernel
theorem witness_LeavingInstructions_prmt : ([((1 : Word), (0x08 : Byte)), (0x11, 0x08), (1, 0)].all (fun e =>
      let s := ({ base with mem := memPut base.mem (localBase 51 + 0x3FFE6) [e.2] }).modHart (fun x => (x.setG 1 0x3FFE0).setG 2 e.1)
      let s1 := s.beforeAccess false
      let m : Mask := BitVec.ofNat 256 (leNat (s1.localRead 0x3FFE0 32))
      ready s { Need.access with priv := true } && decide (fld (s.hart.getG 2) 63 5 = 0) && decide ((s.hart.getG 1).toNat % 32 = 0) &&
        decide ((s.hart.getG 1).toNat < 0x40000) && (bitOf (s.hart.getG 2) 4 == decide (e.1 = 0x11)) &&
        (((s1.setRsv m 1).preempted m (fld e.1 3 0)).isEmpty == decide (e.2 = 0)))) = true := by decide +kernel
theorem witness_LeavingInstructions_migr : ([((0x100000 : Nat), Region.hbm), (2 ^ 48, .host), (2 ^ 51 + 2 ^ 40, .remote 1 0)].all (fun e =>
      let s : State := { hbmBase with tlb := [{ placeEntry with base := e.1, migrate := true }] }
      ready s Need.any && oks (s.translate (slotQuad s.hid) 1 true 0 .read) (fun x s1 => decide (s1.region x.pa = e.2)))) = true := by decide +kernel

/-- A work item with its hint at (3, 3). -/
def itemAt (x y radius : Nat) : Item :=
  { record := { Rec.zero with pid := 1, hx := 3, hy := 3, frame := 0x400 }, pc := 0, x := x, y := y, radius := radius, rmax := 15, ring := some 0,
    ovq := none, taken := none, total := 1, since := 0 }

/-- Items away from their hint, at their ring, below and at RMAX, and taken. -/
theorem witness_Scheduling_items : ([(itemAt 0 0 1, false), (itemAt 3 4 1, true), (itemAt 3 3 15, true)].all (fun e =>
      let i := e.1
      let s : State := { wideHbm with items := [i], ticks := 4000 }
      let c := gridCore i.x i.y
      decide (s.items[0]? = some i) && i.taken.isNone && i.ovq.isNone &&
        (decide (gridDist i.x i.y i.record.hx.toNat i.record.hy.toNat ≤ i.radius) == e.2) && !s.underTest c && (s.roomFor c i.record).isSome &&
        ((s.offerOverflow c).roomFor c i.record).isSome && !(s.offerOverflow c).outranked 0 i && i.ring.isSome && decide (i.since + 4000 ≤ s.ticks))) = true := by decide +kernel
theorem witness_Scheduling_pickup : (let i : Item := { itemAt 3 3 1 with taken := some (51, 15) }
    let s : State := { wideHbm with items := [i] }
    decide (s.items[0]? = some i) && !s.isFrozen 1 && !(s.slotAt (16 * 51 + 15)).occ && !(s.pickAsk 831 i.record).engineAwaits (pickId 831) && !((s.pickAsk 831 i.record).job 1).ft) = true := by decide +kernel
theorem witness_Scheduling_evict : (let s : State := { withHart (fun x => { x with park := some .mrecv, record := { x.record with frame := 0x400 } }) with ticks := 40001 }
    s.evictable 816) = true := by decide +kernel
theorem witness_Scheduling_deferred : ([(2 : Word), 4].all (fun st =>
    let k : Known := { pid := 1, gcb := 0x1000, spawned := true, exec := true, prio := 0, quiet := false }
    let w := withWords (withBlock ((st <<< 58) ||| 1) 0) ((0x1020, 0x2000) :: (template 0x1000).zipIdx.map (fun e => (0x2000 + 8 * e.2, e.1)))
    let s : State := { w with deferred := [(1, 0x1000)], known := [k] }
    decide (s.knownOf 1 0x1000 = some k) && (s.job 1).causes.isEmpty && (match s.vaGet 0 1 true 0x1000 64 with
      | (.error _, _) => false
      | (.ok bs, s1) =>
        let b := bytesWords bs 8
        decide (blockState b = st.toNat) && !gcbBad b && (match s1.blockCheck 0 1 true 0x1000 true with
          | .ok h => h
          | .error _ => false) && (match s1.vaGet 0 1 true (addr57 (nthW b 4)) 64 with
          | (.error _, _) => false
          | (.ok l, _) => !templateBad (bytesWords l 8) true)))) = true := by decide +kernel
theorem witness_Scheduling_cancels : ([(0 : BitVec 2), 1, 2].all (fun l => [true, false].all (fun w =>
      let c : CancelReq := { level := l, pid := 1, addr := 0, prior := 0, swept := w }
      let s : State := { base with cancels := [c] }
      if w then (s.cancels.find? (fun k => !k.swept)).isNone && decide (s.cancels.find? (fun k => s.jobSwept k.pid) = some c)
      else decide (s.cancels.find? (fun k => !k.swept) = some c)))) = true := by decide +kernel
/-- A strand that is cancelled, at a safe point and past its bound; one that is pre-empted, parked and not, and past its bound;
and the one that is pre-empted is away after its write-back. -/
theorem witness_Scheduling_bounds : ([((true : Bool), (none : Option Park)), (false, none), (false, some .mrecv)].all (fun e =>
      let s : State := { withHart (fun x => { x with park := e.2, record := { x.record with frame := 0x400 }, bound := { x.bound with cancel := e.1, preempt := !e.1 } }) with
        ticks := 80001, preempts := [{ issuer := 0, left := [({ base.hart with record := { base.hart.record with frame := 0x400 } } : Slot).sid], since := 0 }] }
      let x := s.slotAt 816
      x.occ && (x.bound.cancel == e.1) && (x.bound.preempt == !e.1) && !x.status.trap && s.atSafePoint 816 && !s.isFrozen x.pid &&
        decide (x.bound.cancelAt + 80000 < s.ticks) && s.prmtoDue x.sid && (!e.1 || s.cancelNow 816) && !x.bound.prmto && x.acks.isEmpty && !s.remoteBusy x.sid)) = true := by
  decide +kernel
theorem witness_Scheduling_preempted : (let s : State := wideHbm.modHart (fun x => { x with record := { x.record with frame := 0x400 } })
    (alGet (s.writeBackStrand 816 3).away s.hart.sid).isSome) = true := by decide +kernel
/-! ### Messages and virtual time -/

/-- A state whose PID 1 has its job block at 0x2000: 16 processes, logs of 64 KiB, and a word of the device map. -/
def vtBase (dmap : Word) : State :=
  (withWords wideHbm [(0x2008, 16), (0x2028, 0x10000), (0x2060, dmap)]).modJob 1 (fun j => { j with vjb := some 0x2000, vpt := 5 })

/-- Its strand as the logical process 2, in a handler or not. -/
def lpBase (inh : Bool) : State :=
  (vtBase 0).modHart (fun x => { x with record := { x.record with opt := true }, lp := { x.lp with lpid := 2, lvt := 5, inh := inh } })

/-- A message for the process 3, at 7. -/
def msg7 : Msg :=
  { pid := 1, dest := 3, sender := 0x80000000, vrt := 7, seq := 1, inc := 0, sel := 0, size := 192, anti := false, colour := false, nolp := true,
    svt := 5, fabric := false, skid := false, payload := 0 }

/-- The process 3 with messages in its queue. -/
def withQueue (s : State) (id : Nat) (l : List QMsg) : State := s.modLp 1 id (fun p => { p with state := .live, queue := l, strand := s.hart.sid })

/-- A line at the last place of local store: a strand that is no process sends it, and a process in a handler. -/
theorem witness_MessageInstructions_send : ([false, true].all (fun o =>
      let s0 := if o then lpBase true else vtBase 0
      let s := ({ s0 with mem := memPut s0.mem (localBase 51 + 0x3FF00) ([3, 0, 0, 0, 0, 0, 0, 0x80, 7] ++ List.replicate 17 0 ++ [192]) }).modHart (fun x => x.setG 1 0x3FF00)
      let ga := s.hart.getG 1
      let l := bytesV (s.localRead ga.toNat 256)
      let m0 := Msg.ofLine s.hart.pid false l
      let m := s.fillMsg m0
      ready s Need.access && s.hart.ordr.isNone && decide (ga.toNat % 256 = 0) && decide (ga.toNat ≤ 0x3FF00) && (s.job s.hart.pid).vjb.isSome &&
        !s.lineBad l m0 && !s.sendPast m0 && (s.hart.record.opt == o) && decide (m0.vrt = 7) &&
        s.logFits s.hart [.send m.dest m.seq m.inc m.vrt] 0)) = true := by decide +kernel
/-- A process in a handler, and one outside; one that waits with no message, and with one that it may take. -/
theorem witness_MessageInstructions_recv : ([false, true].all (fun b =>
      let s := (withQueue (lpBase b) 2 (if b then [{ msg := { msg7 with dest := 2, vrt := 5 }, processed := false, line := 0 }] else [])).modHart (fun x => { x with park := some .mrecv })
      let x := s.hart
      ready s Need.any && x.record.opt && (x.lp.inh == b) && (x.inHandler == b) && decide ((s.strandOf x.sid).map (fun y => y.park) = some (some .mrecv)) &&
        decide (((s.job x.pid).lp x.lp.lpid.toNat).due = none) && ((s.recvReady x).isSome == b) && s.logFits x [.ckpt (x.checkpoint msg7)] 0)) = true := by
  decide +kernel
/-- A STORE action at the last place of local store. -/
theorem witness_MessageInstructions_varn : (let s0 := lpBase true
    let s := ({ s0 with mem := memPut s0.mem (localBase 51 + 0x3FFE8) [8] }).modHart (fun x => x.setG 1 0x3FFE0)
    let ga := s.hart.getG 1
    let w := bytesWords (s.localRead ga.toNat 32) 4
    ready s Need.access && s.hart.inHandler && s.hart.ordr.isNone && decide (ga.toNat % 32 = 0) && decide (ga.toNat < 0x40000) && !actionBad w &&
      decide (nthW w 1 = 8) &&
      s.logFits s.hart [.varn { d0 := nthW w 0, a := nthW w 1, b := nthW w 2, vtime := s.hart.lp.lvt, lp := s.hart.lp.lpid, idx := ((s.job s.hart.pid).lp s.hart.lp.lpid.toNat).nvarn, prio := s.hart.record.prio }] 0) = true := by decide +kernel

/-- A message for a process that has exited, and for one that holds its anti-message, and for one that does not; an
anti-message without its twin, with it processed, and not processed. -/
theorem witness_MessagesArriveAndRollBack_messages : ([(LpState.exited, false), (.live, true), (.live, false)].all (fun e =>
      let s : State := { (vtBase 0).modLp 1 3 (fun p => { p with state := e.1, antis := if e.2 then [{ msg7 with anti := true }] else [] }) with transit := [msg7] }
      let p := (s.job msg7.pid).lp msg7.dest.toNat
      decide (s.transit[0]? = some msg7) && (s.job msg7.pid).vjb.isSome && (s.lpDevice msg7.pid msg7.dest).isNone && decide (p.state = e.1) &&
        (p.antis.any (fun a => a.twin msg7) == e.2))) = true := by decide +kernel
theorem witness_MessagesArriveAndRollBack_antis : ([(LpState.exited, none), (.live, none), (.live, some true), (.live, some false)].all (fun e =>
      let q : List QMsg := match e.2 with
        | none => []
        | some b => [{ msg := msg7, processed := b, line := 0 }]
      let m : Msg := { msg7 with anti := true }
      let s : State := { (vtBase 0).modLp 1 3 (fun p => { p with state := e.1, queue := q }) with transit := [m] }
      let s1 := (s.dropTransit 0).modJob m.pid (fun j => j.countReceived m)
      let r := (s1.job m.pid).lp m.dest.toNat
      decide (s.transit[0]? = some m) && (s.job m.pid).vjb.isSome && (s.lpDevice m.pid m.dest).isNone && m.anti && decide (r.state = e.1) &&
        decide ((r.queue.find? (fun q => q.msg.twin m)).map (fun q => q.processed) = e.2))) = true := by decide +kernel
theorem witness_MessagesArriveAndRollBack_full : (let s : State := { (vtBase 0).modJob 1 (fun j => { j with fullAt := some 0 }) with ticks := 2000000 }
    decide ((s.job 1).fullAt = some 0) && !(s.job 1).fullEvt && decide (0 + 2000000 ≤ s.ticks)) = true := by decide +kernel
/-- A process that is ready for a rollback, whose log reaches back to the handler it undoes, and whose log does not. -/
theorem witness_MessagesArriveAndRollBack_rollback : ([true, false].all (fun b =>
      let s0 := lpBase true
      let s := s0.modLp 1 2 (fun p => { p with state := .live, strand := s0.hart.sid, due := some (7, 0x80000000, 1, 0), log := if b then [.ckpt (s0.hart.checkpoint msg7)] else [] })
      let p := (s.job 1).lp 2
      s.rollbackReady 1 2 && decide (p.due = some (7, 0x80000000, 1, 0)) && (s.strandOf p.strand).isSome &&
        ((targetOf (undoSplit (msgKey 7 0x80000000 1 0) p.log).1).isSome == b))) = true := by decide +kernel

/-- A job of one device and of several, whose old colour has come in and has not. -/
theorem witness_VanishingPoint_round : ([((0 : Word), (0 : Nat)), (0x3000, 0), (0, 1)].all (fun e =>
      let s := (vtBase e.1).modJob 1 (fun j => { j with round := true, colour := true, sent := Vector.replicate 2 e.2 })
      let j := s.job 1
      let s1 := s.setJob 1 j
      let s2 := s1.setJob 1 { j with gmin := BitVec.ofNat 64 (s1.localMin 1 true) }
      (s.job 1).vjb.isSome && j.round && decide (addr57 (s2.vjbWord 1 12) = e.1) && decide ((colourLeft j.sent j.recvd (!j.colour) = 0) ↔ e.2 = 0))) = true := by
  decide +kernel
/-- A job of several devices in each phase of a fabric round, balanced and not. -/
theorem witness_VanishingPoint_fabric : ([((0 : Nat), (0 : Int)), (2, 0), (2, 1), (3, 0)].all (fun e =>
      let s := (vtBase 0x3000).modJob 1 (fun j => { j with fround := e.1 })
      let j := s.job 1
      (s.job 1).vjb.isSome && decide (addr57 (s.vjbWord 1 12) ≠ 0) && decide (j.fround = e.1) && !s.changing && (s.vpTree 1).isSome &&
        decide ((e.2 + j.gsum = 0) ↔ e.2 = 0))) = true := by decide +kernel
/-- An action that VPT has passed: a STORE that can be performed, and one whose address does not translate. -/
theorem witness_VanishingPoint_varnish : ([((0x100 : Word), true), (0x40000000, false)].all (fun e =>
      let a : Action := { d0 := 0x300, a := e.1, b := 1, vtime := 4, lp := 2, idx := 0, prio := 0 }
      let s0 := (vtBase 0).modJob 1 (fun j => { j with varnish := [a] })
      let s : State := { s0 with tlb := s0.tlb.map (fun t => { t with u := true }) }
      let s1 := s.modJob 1 (fun j => { j with varnish := j.varnish.erase a })
      s.varnNow.isNone && !s1.varnWaits && decide (s.varnNext = some (1, a)) && (match (s.modJob 1 (fun j => { j with varnish := j.varnish.erase a })).varnPerform 1 a with
        | some (.ok _) => e.2
        | some (.error _) => !e.2
        | none => false))) = true := by decide +kernel
/-- An action that waits for an addition to host memory; one that is under way, whose request to another device failed, or has
ended. -/
theorem witness_VanishingPoint_under_way : (
    let a : Action := { d0 := 0x300, a := 0x100, b := 1, vtime := 4, lp := 2, idx := 0, prio := 0 }
    let w : State := { (vtBase 0).modJob 1 (fun j => { j with varnish := [a] }) with hostAdds := [{ pa := 2 ^ 48, dbl := true, op := 0, v := 1, old := none, varn := some 1 }] }
    w.varnNow.isNone && (w.modJob 1 (fun j => { j with varnish := j.varnish.erase a })).varnWaits && decide (w.varnNext = some (1, a)) &&
    [none, some MigFail.refused].all (fun e =>
      let r : RemoteOut :=
        { tag := 9, strand := varnId, dev := 1, offset := 0, len := 8, va := 0x100, kind := .store, data := [], dst := .store, elems := [], relaxed := false, logs := [], lvt := 0, attempts := 1,
          since := 0, inFlight := true, reply := some [], fault := e }
      let s : State := { vtBase 0 with varnNow := some (1, a, true), remote := [r] }
      decide (s.varnNow = some (1, a, true)) && !s.varnWaits && decide (s.remote.findSome? (fun r => if r.strand = varnId then r.fault else none) = e))) = true := by
  decide +kernel
/-- Registrations of PID 1 that end, and of a block at 0x2000; a frame pool at 2^20 + 64 with one frame. -/
theorem witness_VanishingPoint_registers : ([((1 : BitVec 64) <<< 52, true), (1 <<< 52 ||| 0x100040, false)].all (fun e =>
      let s : State := { base with mem := memPut base.mem 0x100040 ([1] ++ List.replicate 15 0 ++ [1]) }
      let pa := 64 * fld e.1 51 6
      (decide (fld e.1 51 6 = 0) == e.2) && (e.2 || (decide ((s.jobs.filter (fun k => k.2.pool.isSome && decide (k.1 ≠ 1))).length < 256) &&
        decide (s.region pa = .hbm) && !s.poolBad pa)))) = true := by decide +kernel
/-! ### System registers, traps, clocks, cores, platform -/

/-- The executive's strand on the issuing core, and a user strand; registers below 0x800 and above. -/
theorem witness_SystemRegisters : ([((0x000 : Nat), false), (0x016, false), (0x836, false), (0x822, true), (0x825, true)].all (fun e =>
      sysAssigned e.1 && !sysNeverWritten e.1 && (sysParks e.1 == e.2) &&
        ready base { Need.any with priv := decide (0x800 ≤ e.1), iss := sysIssuing e.1 } &&
        ready base { Need.any with priv := decide (0x800 ≤ e.1) || !sysUserWrites e.1, iss := sysIssuing e.1 })) = true := by decide +kernel
theorem witness_SystemRegisters_denied : (let s := withHart (fun x => { x with status := { x.status with exec := false }, park := some .sysreg })
    !s.hart.status.exec && sysAssigned 0x800 && !sysUserWrites 0x008 && !sysAssigned 0x017 && !sysAssigned 0xFFF &&
      (s.slotAt 816).occ && decide ((s.slotAt 816).park = some .sysreg)) = true := by decide +kernel

/-- A load from another device that a strand awaits. -/
def awaited : RemoteOut :=
  { tag := 9, strand := base.hart.sid, dev := 1, offset := 0, len := 8, va := 0, kind := .load, data := [], dst := .loadG 3, elems := [], relaxed := true, logs := [], lvt := 0, attempts := 1, since := 0,
    inFlight := true, reply := none }

/-- A logical process in a handler holds its fault; a strand that awaits another device takes it later. -/
theorem witness_TrapEntry_later : (let p := withHart (fun x => { x with record := { x.record with opt := true }, lp := { x.lp with inh := true, lvt := 7 } })
    let r : State := { base with remote := [awaited] }
    !(r.slotAt 816).status.trap && r.remoteBusy (r.slotAt 816).sid && !(p.slotAt 816).status.trap && !p.remoteBusy (p.slotAt 816).sid &&
      p.holdsFault (p.slotAt 816) Cause.maln.code && !base.holdsFault (base.slotAt 816) Cause.maln.code) = true := by decide +kernel
theorem witness_TrapEntry : (ready base Need.any && !base.hart.status.trap && !base.hart.inHandler && !base.remoteBusy base.hart.sid &&
    (withHart (fun x => { x with status := { x.status with trap := true } })).hart.status.trap) = true := by decide +kernel
/-- A trap handler with an XSW that can be restored, one with reserved bits set, and a strand in no handler. -/
theorem witness_TrapReturn : ([((true : Bool), (0 : Word)), (true, 0xFFFFFFFFFFFFFFFF), (false, 0)].all (fun e =>
      let x := (withHart (fun x => { x with xsw := e.2, status := { x.status with trap := e.1 } })).hart
      ready (withHart (fun x => { x with xsw := e.2, status := { x.status with trap := e.1 } })) { Need.any with priv := true } && (x.status.trap == e.1) &&
        (x.xswOk == decide (e.2 = 0)))) = true := by decide +kernel
theorem witness_TrapReturn_user : (withHart (fun x => { x with status := { x.status with exec := false } })).hart.status.exec = false := by decide +kernel

/-- Executive events that wait and none; a stopped profile; TIMEADJ before and after; a strand held for SRESUME; a stop. -/
theorem witness_RegisterEffects : (let s := base.modCore 3 (fun c => { c with events := [(0x0E, 5)] })
    let b := base.modPlat (fun p => { p with boot := 3 })
    let k := ({ base with away := [(7, { base.hart with rstate := 6, occ := false, record := { base.hart.record with frame := 0x400 } })] } : State)
    let d := withHart (fun x => { x with bound := { x.bound with stop := some true } })
    decide ((s.core 3).events = [(0x0E, 5)]) && decide ((base.core 3).events = []) && decide (b.plat.boot = 3) && !b.plat.adjusted &&
      decide (base.plat.boot ≠ 3) && (base.away.find? (fun e => decide (e.2.rstate = 6) && decide (addr57 e.2.record.frame = addr57 0x400))).isNone &&
      ((k.away.find? (fun e => decide (e.2.rstate = 6) && decide (addr57 e.2.record.frame = addr57 0x400))).map (fun e => e.1) == some 7) &&
      (alGet (k.leaveWaits 7).away 7).isSome && d.stopDue 816 && bitOf ((base.modTile 1 (fun t => { t with profctl := 0x10000 })).tile 1).profctl 16) = true := by
  decide +kernel

/-- Contexts that may enter fixed-timing mode, that may not, that are in it; tiles with room and without, pinned and not. -/
theorem witness_Clocks : ([((false : Bool), (false : Bool)), (true, false), (true, true)].all (fun e =>
      let s := base.modJob 1 (fun j => { j with ftOk := e.1, ft := e.2 })
      ready s Need.any && ((s.job 1).ft == e.2) && ((s.job 1).ftOk == e.1) && decide (s.hart.pid = 1) && !(s.tile s.tileNo).rsvFull 1)) = true := by decide +kernel
theorem witness_Clocks_tiles : ([true, false].all (fun p =>
      let s := base.modTile 3 (fun t => { t with pinned := p, pinReq := !p })
      ((s.tile 3).pinned == p) && ((s.tile 3).pinReq == !p))) = true := by decide +kernel
/-- The executive's strand on a service core, of a context that may enter fixed-timing mode. -/
theorem witness_Clocks_service : (let s : State := ({ base with hid := 4096 } : State).modJob 1 (fun j => { j with ftOk := true })
    ready s Need.any && isService s.coreNo && !(s.job s.hart.pid).ft && (s.job s.hart.pid).ftOk) = true := by decide +kernel
theorem witness_Clocks_unpin : (let s := base.modTile 5 (fun t => { t with pinned := true })
    (s.tile 5).pinned && s.mayUnpin 5 && decide ((1600 : Nat) % 25 = 0) && decide ((2400 : Nat) % 25 = 0)) = true := by decide +kernel

/-- Words of the three causes; an elevator in service; a core that holds for a failed one; contexts that the sequencer takes. -/
theorem witness_CoreEvents : (let h := (base.modCore 9 (fun c => { c with hold := true })).modPlat (fun p => { p with elevs := [(4, 1)] })
    let two := h.modCore 10 (fun c => { c with hold := true })
    (isCarrier 0x38405400 && carrierOk 0x38405400) && !(isCarrier 0xFC000000 && carrierOk 0xFC000000) && decide (base.elevState 63 = 0) && (h.core 9).hold &&
      h.plat.elevs.any (fun e => decide (e.2 = 1)) && decide (h.plat.scState = 0) &&
      !(List.range 260).any (fun n => ((h.modCore 9 (fun k => { k with hold := false })).core n).hold) &&
      !h.packetsOut 9 && (h.modPlat (fun p => { p with returned := [9] })).plat.returned.contains 9 && (List.range 260).any (fun n => ((two.modCore 9 (fun k => { k with hold := false })).core n).hold)) = true := by decide +kernel
theorem witness_CoreEvents_dump : ([((0 : Nat), (none : Option (Nat × Bool))), (1, none), (1, some (0x1000, false)), (1, some (2 ^ 41, true)), (2, none)].all (fun e =>
      let s : State := { base.modJob 1 (fun j => { j with dumping := e.1, dump := e.2 }) with dumpQ := [1] }
      decide (s.dumpQ.find? (fun p => decide ((s.job p).dumping = 0)) = (if e.1 = 0 then some 1 else none)) && s.settled 1 &&
        decide (((s.settleStrands 1).job 1).dump = e.2) && (match e.2 with
          | some (area, compat) => (s.settleStrands 1).areaOk area == !compat
          | none => true))) = true := by decide +kernel

/-- Each step of the bring-up; a key operation asked for, under way, and none; a window access at the end of HBM4, and past it. -/
theorem witness_BringUp : ([(0 : Nat), 3].all (fun b =>
      let s := base.modPlat (fun p => { p with boot := b })
      decide (s.plat.boot = b) && decide (s.plat.bootErr = 0) && decide (s.plat.keyOp = 0) && decide (s.plat.minVer ≤ s.plat.minVer + 1) &&
        decide ((s.modPlat (fun p => { p with minVer := 2, keyOp := 1, fabv := true })).plat.keyOp = 1))) = true := by decide +kernel
/-- The record of an executive strand of a service core that is vacant. -/
theorem witness_BringUp_start : (let r : BitVec 512 := BitVec.ofNat 512 (0x400 * 2 ^ 192)
    let w := (List.range 8).map (fun k => r.extractLsb' (64 * k) 64)
    !(base.slotAt (16 * 259)).occ && (base.strandOf (strandId (Rec.ofWords w).pid (Rec.ofWords w).frame)).isNone) = true := by decide +kernel
theorem witness_BringUp_window : (let s := hbmBase.modPlat (fun p => { p with winEn := true, winPid := 1 })
    s.windowOk (Config.hbmBytes - 8) 8 && !s.windowOk (Config.hbmBytes - 7) 8 && s.windowOk 0 4096) = true := by decide +kernel

/-- A record at the end of the window of a queue with room, of a disabled one; one to launch, that can be and cannot. -/
theorem witness_HostServices_queues : (let s := (base.modQueue 4095 (fun q => { q with en := true, pid := 1 })).modPlat (fun p => { p with svc := 1 })
    decide (s.plat.svc ≠ 0) && (s.queue 4095).en && decide ((s.queue 4095).fifo.length < 256) && !s.isFrozen (s.queue 4095).pid && !(s.queue 0).en &&
      decide (base.plat.svc = 0) && decide (4032 + 64 ≤ 4096)) = true := by decide +kernel
theorem witness_HostServices_launch : ([((0x400 : Nat), true), (0x401, false)].all (fun e =>
      let r : BitVec 512 := BitVec.ofNat 512 (e.1 * 2 ^ 192)
      let s := wideHbm.modQueue 7 (fun q => { q with en := true, pid := 1, fifo := [r] })
      let k := s.queue 7
      let s1 := s.modQueue 7 (fun q => { q with fifo := [] })
      let l : Launcher := { pid := k.pid, exec := false, prio := k.pmax, router := coreRouter (256 + k.quad.toNat), quad := k.quad.toNat }
      decide (k.fifo = [r]) && !s1.isFrozen k.pid && (match s1.spawnWords l 0 (recordWords r) true with
        | .ok _ => e.2
        | .error _ => !e.2))) = true := by decide +kernel
/-- Each mailbox command that waits, and each that has its result; a core under test in each state. -/
theorem witness_HostServices_mailbox : ([(1 : Nat), 2, 3, 4].all (fun c =>
      let s := base.modPlat (fun p => { p with mbStat := 0, mbCmd := BitVec.ofNat 64 c, mbArg := BitVec.ofNat 384 (4096 * 2 ^ 64), mbRes := if c = 4 then some 0 else none })
      (s.mailPending c == decide (c ≠ 4)) && !bitOf s.plat.mbStat 0 && decide (s.plat.mbCmd.toNat = c) &&
        decide (s.plat.mbArg.toNat / 2 ^ 64 % 2 ^ 64 ≤ 4096))) = true := by decide +kernel
theorem witness_HostServices_scan : (let s := ({ base with ticks := 80001, items := [{ itemAt 3 3 1 with ring := none }] }).modPlat (fun p => { p with scState := 1, scAt := 0, scPrio := 0, runTarget := 51 })
    let r := base.modPlat (fun p => { p with scState := 2, runElev := false })
    decide (s.plat.scState = 1) && decide (s.plat.scAt + 80000 < s.ticks) && decide (r.plat.scState = 2) && !r.plat.runElev && s.underTest (gridCore 3 3) && decide (gridDist 3 3 3 3 ≤ 1) && decide ((s.items[0]?.map (fun i => (i.taken, i.ovq))) = some (none, none)) &&
      decide (s.plat.scPrio.toNat ≤ 0)) = true := by decide +kernel
/-! ### Links, laser, remote accesses, migration -/

/-- A state with port 0 changed. -/
def withPort (f : Port → Port) : State := base.modPort 0 f

/-- Ports that train, are UP, and narrow; the last lane of a live port. -/
theorem witness_LinksAndLaser_ports : ([(1 : Nat), 2, 3, 4].all (fun st =>
      let s := withPort (fun p => { p with state := BitVec.ofNat 3 st })
      (match s.ports[0]? with
       | some p => decide (p.state.toNat = st) && (p.stands == decide (st ≠ 1)) && decide (p.lanes[15]?.isSome)
       | none => false) && s.ports[7]?.isSome)) = true := by decide +kernel
theorem witness_LinksAndLaser_window : (let s : State := { base with ticks := 200000 }
    match s.ports[7]? with
    | some p => decide (p.window < s.ticks / 200000)
    | none => false) = true := by decide +kernel
/-- A lane that failed 100 ms ago; a live port with a replay buffer; a group with the next number and with another. -/
theorem witness_LinksAndLaser_lanes : (let s : State :=
      { withPort (fun p => { p with state := 2, unacked := [4, 5], out := 2, lanes := p.lanes.setIfInBounds 15 { state := 3, power := 0, margin := 0, ber := 0, lcerr := 0, badAt := 0 } }) with ticks := 200000000 }
    match s.ports[0]? with
    | some p => p.live && (p.unacked.take p.out).contains 5 && decide (p.rxSeq = 0) && (match p.lanes[15]? with
      | some l => decide (l.state = 3) && decide (l.badAt + 200000000 ≤ s.ticks)
      | none => false)
    | none => false) = true := by decide +kernel
/-- A record that is new, and one that is known; an agreement that is due. -/
theorem witness_LinksAndLaser_records : (let r : LinkRec := { dev := 5, port := 2, up := true, epoch := 3, reporter := 5 }
    let s : State := { base with links := [r], changing := true, lastRec := 0, ticks := 100000 }
    (base.linkRec (5, 2)).isNone && decide (s.linkRec (r.dev.toNat, r.port.toNat) = some r) && s.changing && decide (s.lastRec + 100000 ≤ s.ticks)) = true := by
  decide +kernel
/-- A transition to each state; a module asleep with a packet that waits; a laser that fails, and one that is replaced. -/
theorem witness_LinksAndLaser_laser : ([(0 : BitVec 2), 1, 2, 3].all (fun t =>
      let s := base.modPlat (fun p => { p with busy := true, target := some t })
      decide (s.plat.target = some t) && s.ports.toList.all (fun p => decide (p.state ≠ 3) && decide (p.out = 0)))) = true := by decide +kernel
theorem witness_LinksAndLaser_wake : (let s := (withPort (fun p => { p with state := 4, unacked := [1] })).modPlat (fun p => { p with cur := 2 })
    decide (s.plat.cur = 2) && !s.plat.busy && s.ports.toList.any (fun p => decide (p.state = 4) && !p.unacked.isEmpty) &&
      (base.modPlat (fun p => { p with spare := true, switching := false })).plat.spare &&
      (base.modPlat (fun p => { p with switching := true })).plat.switching) = true := by decide +kernel

/-- A request of device 3 for the last doubleword of HBM4. -/
def requestAt (k : RemoteKind) : RemoteReq := { src := 3, tag := 9, pid := 1, kind := k, offset := 0xBFFFFFFFF8, len := 8, data := List.replicate 16 0 }

/-- Requests that are refused and that are not; one that is known already. -/
theorem witness_RemoteAndMigration_target : ([RemoteKind.load, .store, .amo 0 true false].all (fun k =>
      let r := requestAt k
      let s : State := { hbmBase with replies := [{ src := 3, pid := 1, tag := 9, reply := [], since := 0 }] }
      base.reqRefused r && !hbmBase.reqRefused r && (hbmBase.replied r.src r.tag).isNone && decide (hbmBase.replies.length < 65536) && (s.replied r.src r.tag).isSome)) = true := by
  decide +kernel
/-- A reply cache without room. -/
theorem witness_RemoteAndMigration_full (n : Nat) :
    let s : State := { hbmBase with replies := List.replicate n { src := 4, pid := 1, tag := 0, reply := [], since := 0 } }
    s.replies.length = n ∧ s.replied 3 9 = none :=
  ⟨by simp, by simp [State.replied]⟩

/-- A request of the strand to device 1, after its first and its fourth attempt, with a route and without one. -/
theorem witness_RemoteAndMigration_source : ([((1 : Nat), true), (4, true), (1, false)].all (fun e =>
      let r : RemoteOut := { tag := 9, strand := base.hart.sid, dev := 1, offset := 0, len := 8, va := 0, kind := .amo 0 true false, data := [], dst := .store, elems := [], relaxed := false, logs := [], lvt := 0, attempts := e.1, since := 0, inFlight := true, reply := none }
      let s0 : State := { base with ticks := 500000, remote := [r], table := if e.2 then [{ dev := 0, port := 0, epoch := 1, up := true, reporter := 0 }] else [] }
      let s := s0.modPlat (fun p => { p with fabv := true })
      decide (s.request 9 = some r) && r.inFlight && decide (r.attempts ≠ 0) && decide (r.since + 500000 ≤ s.ticks) && (s.reach r.dev.toNat == e.2))) = true := by decide +kernel

/-- The packet of a strand of PID 1. -/
def packet1 : MigPacket :=
  { src := 3, tag := 9, record := BitVec.ofNat 512 (2 ^ 116), gregs := [], special := [], loops := [], status := 0, target := 0 }

/-- A packet that is known, one of a PID that cannot take it, and one that takes the last frame of a pool. -/
theorem witness_RemoteAndMigration_arrive : (let known : State := { base with replies := [{ src := 3, pid := 1, tag := 9, reply := [], since := 0 }] }
    let pool : State := { hbmBase.modJob 1 (fun j => { j with pool := some 0x100040 }) with mem := memPut base.mem 0x100040 ([1] ++ List.replicate 15 0 ++ [1]) }
    (known.replied 3 9).isSome && (base.replied 3 9).isNone && decide ((packetSlot packet1).pid = 1) && decide (base.canArrive (packetSlot packet1).pid = none) &&
      decide (pool.canArrive (packetSlot packet1).pid = some 0x100040) && (pool.replied 3 9).isNone) = true := by decide +kernel
/-- A strand that has left with a tag: its record can be written, and each reason why it comes back. -/
theorem witness_RemoteAndMigration_source_side : (let m : MigOut :=
      { tag := 9, strand := wideHbm.hart.sid, dev := 1, va := 0, slot := { wideHbm.hart with record := { wideHbm.hart.record with frame := 0x400 } }, since := 0, attempts := 4 }
    let s : State := { wideHbm with migOut := [m], ticks := 500000 }
    let s1 : State := { s with migOut := [] }
    decide ((s.migOut.find? (fun m => m.tag = 9)).map (fun m => m.tag) = some 9) && s.migFailed m .refused && s.migFailed m .timedOut && s.migFailed m .unreachable &&
      (match (s1.modJob 1 (fun j => { j with count := j.count - 1 })).recordWrite 0 m.slot 7 1 with
       | .ok _ => true
       | .error _ => false)) = true := by decide +kernel

/-! ### The machine -/

theorem witness_StepRunsDecoded_fetch : (let x := base.slotAt 816
    x.loops.isEmpty && oks (base.translate (slotQuad 816) x.pid x.status.exec x.pc .fetch) (fun y s1 => decide (s1.region y.pa = .host) && s1.poison.isEmpty)) = true := by
  decide +kernel
/-- An addition, and a literal carrier with its literal word. -/
theorem witness_StepRunsDecoded_visit : ([((32 : Nat), (0x04611000 : Nat)), (64, 0x1234567838405400)].all (fun e =>
      let s := State.reset.withFetchWord e.1 e.2
      let x := s.slotAt 816
      let c := s.core 51
      let w := BitVec.ofNat 32 e.2
      let k := BitVec.ofNat 32 (e.2 / 2 ^ 32)
      x.occ && decide (x.pc.toNat % 4 = 0) && !s.isFrozen x.pid && (s.boundary 816).isNone && x.park.isNone && !x.bound.prmto && x.bound.late.isNone && !x.record.opt &&
        decide (x.notBefore ≤ c.cycle) && !x.landed && decide (x.skips = 0) && (match (s.fetchAt 816 x.pc).1 with
        | .ok v => decide (v = w)
        | .error _ => false) && (isCarrier w == decide (e.1 = 64)) && (decide (e.1 = 32) || (decide (x.pc.toNat % 8 = 0) && (match ((s.fetchAt 816 x.pc).2.fetchAt 816 (x.pc + 4)).1 with
        | .ok v => decide (v = k)
        | .error _ => false))) && (match decodeWord w k with
        | some i => let u := instrUse x i
          !c.unitBusy u.unit && !s.accessHeld 816 i && (x.lateAt i u.needs).isNone && !x.notReady c.cycle u.needs && (s.pendingRegs 816).isEmpty
        | none => false))) = true := by decide +kernel
theorem witness_StepRunsDecoded_turn : (let s0 : State := { base with agenda := [] }
    base.regq.isEmpty && decide (base.agenda = [.core 51]) && !base.plat.fatal && (match s0.scanRound (s0.roundSlots 51) with
      | ([], some (816, .instr (.add 3 1 2 0) false)) => true
      | _ => false)) = true := by decide +kernel

theorem witness_StepRunsDecoded_register : (let s : State := { base with regq := [(0x18, 1)] }
    decide (s.regq = [(0x18, 1)]) && !s.plat.fatal) = true := by decide +kernel

/-- A device-fatal device with no turn left, and with the turn of a core. -/
theorem witness_DeviceFatalStays : ([[], [Turn.core 51], [Turn.event .laserWake]].all (fun l =>
      let s : State := { base.modPlat (fun p => { p with fatal := true }) with agenda := l, regq := if l.isEmpty then [] else [(0x18, 1)] }
      s.plat.fatal && s.regq.all (fun e => decide (e.1 ≠ 8)) && l.all (fun t => match t with
        | .event i => !isRecovery i
        | .core _ => true))) = true := by decide +kernel
theorem witness_CompletionFrame : Completes base (.add 3 1 2 0) 4 0 (fun x => x.setG 3 (base.hart.getG 1 + base.hart.getG 2)) :=
  issue_of_ready (s := base) (c := Need.any) (by decide +kernel) (base.doneG 0 3 (base.hart.getG 1 + base.hart.getG 2))
/-- The last word of local store, of a plain bank, and of a page of host memory and of HBM4. -/
theorem witness_StoreFrame : ([(base, (0x3FFF8 : Word)), (spBase_ 1, 0x23FFFF8), (base, 0xFFF8), ({ base with tlb := base.tlb.map (fun t => { t with hostOrd := false }) }, 0xFFF0), (hbmBase, 0xFFF8)].all (fun e =>
      let s := e.1.modHart (fun x => x.setG 2 e.2)
      let ea := s.hart.getG 2 + ((0 : BitVec 11).signExtend 64 <<< 3)
      ready s Need.access && s.hart.ordr.isNone && s.hart.pend.isEmpty && Memory.wf s.mem && decide (ea.toNat % 8 = 0) && (s.core s.coreNo).wc.isEmpty &&
        !s.hart.record.opt && (if e.2 = 0x3FFF8 then decide (ea.toNat < 2 ^ 18)
        else if e.2 = 0x23FFFF8 then sramAt s ea 2 3 0xFFFF8 && decide (((s.tile 2).bank 3).mode = 1) && decide ((s.tile 2).ownerOf (slabOf 3 0xFFFF8) = 0)
        else reaches s ea .write (fun x s0 => ((decide (s0.region x.pa = .host) && (x.hostOrd == decide (e.2 = 0xFFF8))) || (decide (s0.region x.pa = .hbm) && !x.cached)) &&
          decide (s0.mem.length = s.mem.length) && decide (s0.cores.length = s.cores.length))))) = true := by decide +kernel
theorem witness_StepKeepsMemoryForm : (Memory.wf base.mem && nexts (step base) (fun t => decide (t.hart.pc = 4))) = true := by decide +kernel
/-- An addition to host memory that waits. -/
theorem witness_Scheduling_addition : ([none, some 7].all (fun o =>
    decide (({ base with hostAdds := [{ pa := 2 ^ 48, dbl := true, op := 0, v := 1, old := o, varn := none }] } : State).hostAdds.length = 1))) = true := by
  decide +kernel
/-- Instructions that are well formed, one of each length. -/
theorem witness_DecodeInvertsEncode : (Instr.add 3 1 2 0).wf = true ∧ (Instr.movnLit 2 0x12345678 0).wf = true := by decide

/-! ### What holds an access, and the forms of memory -/

/-- `base` with the page at address 0 in another device's memory, this device being device 0. -/
def farBase : State := ({ base with tlb := (List.range 8).map (fun k => { placeEntry with station := k, base := 2 ^ 51 + 2 ^ 40 }), table := [{ dev := 0, port := 0, epoch := 1, up := true, reporter := 0 }] }).modPlat (fun p => { p with fabv := true })

/-- Nothing holds the strand's next access: nothing deferred, a relaxed store deferred; and one plain store not yet sent does. -/
theorem witness_Calm : ([(0 : Nat), 1, 2].all (fun k =>
      let q : Pend := { kind := .store, scratch := false, va := none, elems := [{ addr := 2 ^ 48, len := 8, idx := 0, data := 0 }], cacheable := false, hint := 0, hostOrd := false, plain := decide (k = 2) }
      let s := withHart (fun x => { x with pend := if k = 0 then [] else [q] })
      s.hart.ordr.isNone && (s.hart.pend.all (fun p => !p.plain) == decide (k ≠ 2)))) = true := by decide +kernel

/-- A target in the upper half of a doubleword that another device holds. -/
theorem witness_JumpsAndCalls_far : (let s := farBase.modHart (fun x => (x.setG 1 12).setG 2 8)
    ready s Need.any && s.targetFar (targetId s.hid) s.hid (s.hart.getG 1) && !s.targetFar (targetId s.hid) s.hid (s.hart.getG 2)) = true := by
  decide +kernel
/-- Stacks whose top entry holds the target, and whose lower one alone does. -/
theorem witness_JumpsAndCalls_stacks : ([((0 : Word), true), (0x100, false)].all (fun e =>
      let top : LoopEntry := { n := 0, start := e.1, fin := e.1 + 8 }
      let s := (withG [(1, 8)]).modHart (fun x => { x with loops := [top, { n := 1, start := 0, fin := 0x200 }] })
      ready s Need.any && !s.hart.status.trap && (s.targetFault s.hid 8).1.isNone && (top.has 8 == e.2))) = true := by decide +kernel
/-- A body of 257 words with the literal word of its label, one that ends behind the innermost body, a full stack. -/
theorem witness_LoopsBegin_faults : ((let s := (withG []).withFetchWord 32 0x04611000
      decide ((s.hart.pc + BitVec.ofNat 64 (4 * 256) + 4 - s.hart.pc).toNat = 1028)) &&
    [([{ n := 2, start := 0, fin := 0 }] : List LoopEntry), [{ n := 1, start := 0, fin := 0x400 }], [{ n := 0, start := 0, fin := 0x400 }, { n := 1, start := 0, fin := 0x400 }, { n := 2, start := 0, fin := 0x400 }], []].all (fun l =>
      let s := withHart (fun x => { x with loops := l })
      ready s Need.any && decide (s.hart.loops = l) && oks (s.fetchBy (loopId s.hid) s.hid (s.hart.pc + 4)) (fun w _ => w.isSome))) = true := by
  decide +kernel
/-- Two bodies that end at one word: the inner one's last pass, the outer one going on. -/
theorem witness_LoopEndStep_shared : (let e : LoopEntry := { n := 1, start := 0, fin := 0 }
    let f : LoopEntry := { n := 0, start := 0, fin := 0 }
    let x : Slot := { base.hart with loops := [e, f], lc := #v[5, 1, 0] }
    !x.status.trap && decide (x.loops = [e, f]) && decide (e.fin = x.pc + BitVec.ofNat 64 0) && decide (e.n ≠ f.n) && decide (lcGet x.lc e.n = 1) &&
      decide (lcGet x.lc f.n ≠ 1) && decide ((x.finish 4 0).loops = [f]) && decide (lcGet (x.finish 4 0).lc 0 = 4)) = true := by decide +kernel

/-- Prefetch and maintenance of a host page, a device register and another device's place; and of HBM4 by a service core. -/
theorem witness_CacheControl_elsewhere : ([base, devBase, farBase].all (fun s =>
      ready s Need.access && ready s Need.any && s.hart.ordr.isNone && s.hart.pend.isEmpty && reaches s 0 .read (fun x t => decide (t.region x.pa ≠ .hbm) || x.far)) &&
    (let s : State := { hbmBase with hid := 4096, tlb := (List.range 8).map (fun k => { placeEntry with station := k, base := 0x100000 }) }
     ready s Need.access && reaches s 0 .read (fun x t => decide (t.region x.pa = .hbm) && isService t.coreNo))) = true := by decide +kernel
/-- A logical process in a handler, on a timed page of HBM4 and on one without T, whose log has room and has not. -/
def lpOn (timed : Bool) (log : Nat) (wait : Word) : State :=
  let s0 := withWords wideHbm [(0x2008, 16), (0x2028, wait <<< 32 ||| BitVec.ofNat 64 log)]
  let s1 : State := { s0.modJob 1 (fun j => { j with vjb := some 0x2000 }) with tlb := s0.tlb.map (fun e => { e with timed := timed }) }
  s1.modHart (fun x => { x with record := { x.record with opt := true }, lp := { x.lp with lpid := 2, lvt := 5, inh := true } })
theorem witness_LogicalProcessStores : ([(true, (0x10000 : Nat), (0 : Word)), (false, 0x10000, 0), (true, 0, 1), (true, 0, 0)].all (fun e =>
      let s := (lpOn e.1 e.2.1 e.2.2).modHart (fun x => (x.setG 1 0x108).setG 3 0x100)
      let old : List LogEntry := [.store 0x100108 0 5]
      ready s Need.access && ready s { Need.access with vs := [7] } && s.hart.record.opt && s.hart.ordr.isNone && s.hart.pend.isEmpty &&
        reaches s 0x108 .write (fun x t => (x.timed == e.1) && decide (t.region x.pa = .hbm) && decide (t.hart = s.hart) &&
          (t.logFits t.hart old 0 == decide (e.2.1 ≠ 0)) && (t.logWait 1 == decide (e.2.2 = 1))) &&
        !(s.hart.active 0).isEmpty && reaches s 0x100 .write (fun x t => (x.timed == e.1) && decide (t.region x.pa = .hbm)))) = true := by decide +kernel
/-- Its scatter of one element. -/
theorem witness_LogicalProcessStores_scatter : (let s := (lpOn true 0x10000 0).modHart (fun x => (x.setG 2 0x100).setP 1 2)
    ready s { Need.access with vs := [7, 3] } && oks (s.gatherPlaces 2 3 .write (s.hart.active 1)) (fun pl t => decide (pl.length = 1) &&
      pl.all (fun c => c.x.timed && decide (t.region c.x.pa = .hbm)) && t.logFits t.hart [.store 0x100100 0 5] 0)) = true := by decide +kernel
/-- A switch out of cache mode, with a dirty line of the bank's way. -/
theorem witness_BankSwitchPerformed_lines : ([(1 : BitVec 2), 2].all (fun m =>
      let l : CLine := { way := 15, line := 0x1000, pid := 1, hint := 0, valid := 1, dirty := 1, data := 7 }
      let s := (State.reset.modBank 2 15 (fun b => { b with mode := 0, queue := [(7, m)], sw := true })).modTile 2 (fun t => { t with cache := [l] })
      decide (((s.tile 2).bank 15).queue = [(7, m)]) && decide (((s.tile 2).bank 15).mode = 0) && decide ((s.tile 2).cache = [l]) && s.occSlots.isEmpty &&
        nexts (exec (.bankSwitch 2 15) s) (fun u => (u.tile 2).cache.isEmpty && decide (memGet u.mem 0x100000 = 7)))) = true := by decide +kernel

/-- An ordering instruction that sends buffered stores to another device, that awaits an answer, that ROUTE.HOLD keeps, and one
that acts; with a line that an acquire names. -/
theorem witness_OrderingInstructions_events : ([(0 : Nat), 1, 2, 3].all (fun k =>
      let w (pa : Nat) : WcBuf := { strand := base.hart.sid, pid := 1, line := pa / 256, va := 0, mask := 1, data := 0 }
      let r : RemoteOut := { tag := 9, strand := base.hart.sid, dev := 1, offset := 0, len := 8, va := 0, kind := .load, data := [], dst := .loadG 3, elems := [], relaxed := true, logs := [], lvt := 0, attempts := 1, since := 0, inFlight := true, reply := none }
      let o : Machine.Ordering := { kind := 0, scope := 6, mask := 0 }
      let s0 := hbmBase.modCore 51 (fun c => { c with hold := decide (k = 2), wc := if k = 0 then [w (2 ^ 51 + 2 ^ 40)] else if k = 2 then [w 0x100000] else [] })
      let s : State := { s0.modHart (fun x => { x with ordr := some o }) with remote := if k = 1 then [r] else [] }
      decide ((s.slotAt 816).ordr = some o) && (s.orderSends 816 o == decide (k = 0)) && (s.orderOpen 816 o == decide (k ≠ 3)) &&
        (s.orderWaits s.hart.sid o == decide (k = 1)) && (s.drainHeld 816 o == decide (k = 2)))) = true := by decide +kernel

/-- Words on which `lde` and `stf` wait, with no strand waiting at the bank before them and with 64. -/
theorem witness_FullEmpty_waits : ([(0 : Nat), 64].all (fun k => [true, false].all (fun full =>
      let e : WaitEntry := { strand := 5, what := .lde 1 0x2300000, chained := false }
      let s := (((spBase_ 1).modTile 2 (fun t => { t with empties := if full then [] else [0x23FFFF8] })).modBank 2 3 (fun b =>
        { b with waits := List.replicate k e })).modHart (fun x => x.setG 1 0x23FFFF8)
      let s1 := s.settleRange s.hid true 0x23FFFF8 8
      ready s Need.access && sramAt s (s.hart.getG 1) 2 3 0xFFFF8 && !s1.hart.status.unwr &&
        decide ((((s1.tile 2).bank 3).waits.filter (fun e => !e.chained)).length = k) && (((s1.tile 2).isEmptyWord 0x23FFFF8) == !full)))) = true := by decide +kernel

/-- A vector instruction of mode 16 whose scalar operands are g31. -/
theorem witness_VectorMovesAndShapes_scalars : (let s := withHart (fun x => { x with record := { x.record with mode := 0 } })
    ready s (Need.vec [15]) && !ready s (Need.vec [31]) && ready s (Need.vec [])) = true := by decide +kernel

/-! ### Engines, collectives, placement, pre-emption -/

/-- A strand with a pass outstanding; a logical process in a handler. -/
theorem witness_OpticalInstructions_waits : ([(1 : Nat), 0].all (fun n =>
      let s := withHart (fun x => { x with passOut := n, record := { x.record with opt := decide (n = 0) }, lp := { x.lp with inh := true } })
      ready s Need.command && s.hart.floorPend.isNone && decide ((s.beforeAccess false).hart.passOut = n))) = true := by decide +kernel
/-- A request for leave while the power is above its limit. -/
theorem witness_MatrixUnit_leave_tight : ([true, false].all (fun b =>
      let s := base.modTile 0 (fun t => { t with leaveQ := [1], tight := b })
      ((s.tile 0).tight == b) && decide ((s.tile 0).leaveQ = [1]))) = true := by decide +kernel

/-- Three modules in a line under the agreed table, this one at an end of it or in the middle. -/
def threeDevices (me : BitVec 11) : State :=
  let l (d p : Nat) : LinkRec := { dev := BitVec.ofNat 11 d, port := BitVec.ofNat 3 p, epoch := 1, up := true, reporter := 0 }
  ({ base with table := [l 0 0, l 1 1, l 1 0, l 2 1] } : State).modPlat (fun p => { p with fabv := true, dev := me })
/-- The wave on tree 0 at its root, below it, and at a member whose own chunk is not done; with the children's parts and the parent's
come and not come. -/
theorem witness_Collectives_wave : ([((1 : Nat), false), (1, true), (3, false)].all (fun e =>
      let c0 := { collOf 2 with members := [0], marks := [2], trees := if e.1 = 3 then [(1, [(1, 0)])] else [(0, [(0, 1)])] }
      let c := { c0 with waves := if e.2 then [(1, false)] else [] }
      let s := base.setColl 7 c
      let edges := (c.treeOf 0).2
      decide (s.coll 7 = some c) && decide (c.cid = 7) && decide (c.state = 2) && c.ready 0 && !({ c with marks := [1] } : Coll).ready 0 && decide (c.version = s.agreed) && !c.waved && ({ c with waves := [(1, true)], waved := true } : Coll).waves.contains (1, true) &&
        ((childrenOf edges 0).all (fun k => c.waves.contains (k, false)) == (e.2 || decide (e.1 = 3))) && ((parentOf edges 0).isNone == decide (e.1 = 1)))) = true := by decide +kernel
/-- A restart with the marks of every other member, with marks of too few chunks and with none; with the slabs owned and not; with
members that a tree joins, and that only another device joins. -/
theorem witness_Collectives_restart : ([([((1 : BitVec 11), [2])], true, 1), ([(1, [2])], false, 1), ([(1, [])], true, 1), ([], true, 1), ([(2, [2])], true, 2)].all (fun e =>
      let own (t : Tile) : Tile := { t with owners := (List.range 8).map (fun k => (256 + 16 * k, (4 : BitVec 3))) ++ (List.range 256).map (fun k => (256 + k, (4 : BitVec 3))) }
      let c := { collOf 3 with members := [0, e.2.2] }
      let s := ((threeDevices 0).modTile 0 (if e.2.1 then own else id)).setColl 7 c
      decide (s.coll 7 = some c) && decide (c.state = 3) && s.reach e.2.2 && decide (c.chunks = 1) &&
        (c.members.all (fun d => decide (d = s.plat.dev.toNat) || e.1.any (fun m => decide (m.1.toNat = d) && decide (m.2.length = c.chunks))) == decide (e.1.map (fun m => m.2) = [[2]])) &&
        (s.collHolds c == e.2.1) && ((s.buildTrees c [] 0 c.kmax).isEmpty == decide (e.2.2 = 2)))) = true := by decide +kernel
/-- Start checks that wait for another device's table, and whose table holds no members. -/
theorem witness_Collectives_tables : ([true, false].all (fun far =>
      let c := { collOf 1 with d2 := 0 }
      let s0 : State := { farBase with collQ := [c] }
      let s : State := if far then s0 else { wideHost with collQ := [c] }
      !c.cancel && !c.bad && (s.coll c.cid).isNone && (match s.memberTable c with
        | (.ok none, _) => far
        | (.ok (some none), _) => !far
        | _ => false))) = true := by decide +kernel

/-- Items of one router: the first of its queue, and a later one; a core without room, one under test. -/
theorem witness_Scheduling_queues : (let i (p : BitVec 4) : Item := let j := itemAt 0 0 1; { j with record := { j.record with prio := p }, ring := none }
    let s : State := { wideHbm with items := [{ i 1 with arrived := 1 }, { i 2 with arrived := 2 }] }
    !s.routerFirst 0 { i 1 with arrived := 1 } && s.routerFirst 1 { i 2 with arrived := 2 } && !s.underTest 0 &&
      ((s.modPlat (fun p => { p with coreMap := 0 })).roomFor 0 (i 1).record).isNone) = true := by decide +kernel
/-- A taken item at a core that holds, at one whose tile has reservations for four other contexts, and at one that is to pin. -/
theorem witness_Scheduling_pickup_fixed : ([(0 : Nat), 1, 2, 3].all (fun k =>
      let i : Item := { itemAt 3 3 1 with taken := some (51, 15) }
      let s0 := (wideHbm.modJob 1 (fun j => { j with ft := true })).modTile 0 (fun t => { t with rsvs := if k = 1 then [2, 3, 4, 5] else [], pinned := decide (k = 3) })
      let s : State := { s0.modCore 51 (fun c => { c with hold := decide (k = 0) }) with items := [i] }
      decide (tileOf 51 = s.tileNo) && decide (s.items[0]? = some i) && !s.isFrozen 1 && !(s.slotAt 831).occ && ((s.core 51).hold == decide (k = 0)) && !(s.pickAsk 831 i.record).engineAwaits (pickId 831) &&
        (s.ftRoom (tileOf 51) 1 == decide (k ≠ 1)))) = true := by decide +kernel
/-- A group whose successors are still to be released; a template that another device holds, and one that cannot be read. -/
theorem witness_Scheduling_deferred_far : (([some 0, none].all (fun n =>
      let k : Known := { pid := 1, gcb := 0x1000, spawned := true, exec := true, prio := 0, quiet := false, ending := n }
      let s : State := { withBlock ((2 : Word) <<< 58 ||| 1) 0 with deferred := [(1, 0x1000)], known := [k] }
      decide (s.deferred[0]? = some (1, 0x1000)) && decide ((s.knownOf 1 0x1000).map (fun e => e.ending) = some n) && !s.engineAwaits (groupId 1 0x1000) && (s.job 1).causes.isEmpty)) &&
    (match (farBase.engineRead (groupId 1 0x1000) 0 1 true 0x2000 64).1 with
     | .ok none => true
     | _ => false) && (match (base.engineRead (groupId 1 0x1000) 0 1 true 0x10000 64).1 with
     | .error _ => true
     | _ => false)) = true := by decide +kernel
/-- A cancel of a graph whose successors' list another device holds, before and after the answer. -/
theorem witness_Scheduling_sweep : (let c : CancelReq := { level := 1, pid := 1, addr := 0x1000, prior := 0, swept := false }
    ((({ base with cancels := [c], remote := [{ awaited with strand := sweepId }] } : State).sweepAsks c).isSome) && (base.sweepAsks { c with level := 0 }).isNone) = true := by
  decide +kernel
/-- A pre-empted strand past its bound: at no safe point, parked where it can be abandoned and where not, with a remote access open;
at a safe point, of a fixed-timing context whose tile has no reservation left, and with a remote access open. -/
theorem witness_Scheduling_bound_waits : ([(0 : Nat), 1, 2, 3].all (fun k =>
      let h (x : Slot) : Slot := { x with okeep := true, park := if k = 1 then some .mrecv else if k = 2 then some .clkm else none, record := { x.record with frame := 0x400 },
                                          bound := { x.bound with preempt := true } }
      let s0 := withHart h
      let s : State := { s0 with ticks := 80001, preempts := [{ issuer := 0, left := [s0.hart.sid], since := 0 }], remote := if k = 3 then [{ awaited with strand := s0.hart.sid }] else [] }
      let x := s.slotAt 816
      !s.isFrozen x.pid && !x.status.trap && !x.bound.cancel && !x.bound.prmto && s.prmtoDue x.sid && !x.stepDue && !s.atSafePoint 816 && x.acks.isEmpty &&
        (match x.park with
         | some p => (s.parkAbandoned x.sid p == decide (k = 1))
         | none => decide (k = 0) || decide (k = 3)) && (s.trapWaits 816 == decide (k = 3)) && (s.leaveHeld 816 == decide (k = 3)))) = true := by decide +kernel
theorem witness_Scheduling_no_room : (let s := ((withHart (fun x => { x with bound := { x.bound with preempt := true } })).modJob 1 (fun j => { j with ft := true })).modTile 0 (fun t =>
      { t with rsvs := [2, 3, 4, 5] })
    let x := s.slotAt 816
    x.occ && x.bound.preempt && !x.bound.cancel && s.atSafePoint 816 && !(s.core 51).hold && !s.ftRoom (tileOf 51) x.pid && !s.leaveHeld 816) = true := by decide +kernel

/-! ### Virtual time, traps, clocks, platform, links: what waits, and what the second review added -/

/-- A message of a context whose units have been reset. -/
theorem witness_MessagesArriveAndRollBack_reset : (let s : State := { (vtBase 0).modJob 1 (fun j => { j with dumping := 2, compat := 4 }) with transit := [msg7] }
    decide (s.transit[0]? = some msg7) && (s.job msg7.pid).unitsReset && !((vtBase 0).job 1).unitsReset) = true := by decide +kernel
/-- An action that holds the varnish stage, of a job that runs and of one that is fatal; one that finds its tile's queue full. -/
theorem witness_VanishingPoint_stage : (let a : Action := { d0 := 0x300, a := 0x100, b := 1, vtime := 4, lp := 2, idx := 0, prio := 0 }
    let s : State := { vtBase 0 with varnNow := some (1, a, false) }
    let f := s.fatalCause 1 { cause := 1, src := 0, flags := 0, xpc := 0, xval := 0, time := 0 }
    decide (s.varnNow = some (1, a, false)) && !s.varnWaits && (s.job 1).causes.isEmpty && !f.varnWaits && decide (f.varnNow = some (1, a, false)) && !(f.job 1).causes.isEmpty &&
      (let p : Action := { a with d0 := 5, a := 0 }
       let q := (vtBase 0).modTile 0 (fun t => { t with opt := { t.opt with queue := List.replicate 64 (optCmd .clr) } })
       (q.varnPerform 1 p).isNone && ((vtBase 0).varnPerform 1 p).isSome)) = true := by decide +kernel

/-- A job block whose device map another device still has to send. -/
theorem witness_SystemRegisters_map : (let s : State := { base with remote := [{ awaited with strand := noStrand + 120001 }] }
    s.mapsAwaited && !base.mapsAwaited) = true := by decide +kernel
/-- A fault of a strand whose stores to another device, and under ROUTE.HOLD to HBM4, are still in buffers; and of one in a handler. -/
theorem witness_TrapEntry_buffers : ([(0x8010000000000 : Nat), 0x100000].all (fun pa =>
      let s := hbmBase.modCore 51 (fun c => { c with hold := decide (pa = 0x100000), wc := [{ strand := hbmBase.hart.sid, pid := 1, line := pa / 256, va := 0, mask := 1, data := 0 }] })
      s.trapWaits 816 && !(s.slotAt 816).status.trap && !hbmBase.trapWaits 816 && (s.holdsBuffers 51 s.hart.sid == decide (pa = 0x100000)) &&
        (s.farBuffered 51 s.hart.sid == decide (pa ≠ 0x100000)))) = true := by decide +kernel
/-- A word whose stall hint has failed, in a state in which it meets no earlier fault and in one in which it does. -/
theorem witness_AnswersAndFaults : ([false, true].all (fun o =>
      let s := withHart (fun x => { x with sbHint := true, record := { x.record with opt := o } })
      s.hart.sbHint && (Instr.add 3 1 2 0).wf && (Instr.migr 1 0).wf && nexts (exec (.add 3 1 2 0) s) (fun t => decide (t.hart.xcause = Cause.sbhint.code.setWidth 17)))) = true := by
  decide +kernel
/-- A stop whose strand has a remote access open, and none. -/
theorem witness_RegisterEffects_stop : ([true, false].all (fun k =>
      let d := withHart (fun x => { x with bound := { x.bound with stop := some k } })
      d.stopDue 816 && !d.leaveHeld 816 && decide ((d.slotAt 816).bound.stop = some k))) = true := by decide +kernel
/-- A governor that lowers and that raises, with the power above its limit and not. -/
theorem witness_Clocks_governor : ([true, false].all (fun p =>
      let s := base.modTile 3 (fun t => { t with pinned := p, freq := 2000, tight := p })
      ((s.tile 3).pinned == p) && ((s.tile 3).tight == p) && decide ((s.tile 3).freq.toNat < 2400) && decide (1600 ≤ (s.tile 3).freq.toNat))) = true := by decide +kernel

/-- The first and the last register of an occupied slot with uncorrectable data, read and not read. -/
theorem witness_CoreEvents_registers : ([(0 : Nat), 31, 32, 159, 160, 167].all (fun r =>
      let s := withHart (fun x => { x with badRegs := [(fileReg r, 8)] })
      (s.slotAt 816).occ && !(s.slotAt 0).occ && decide ((s.slotAt 816).badRegs.find? (fun e => decide (e.1 = fileReg r)) = some (fileReg r, 8)) &&
        ((s.slotAt 816).badRegs.find? (fun e => decide (e.1 = .g 33))).isNone)) = true := by decide +kernel
/-- Images that are verified, that have failed, that are too old, and that no verification has seen; an elevator that has failed. -/
theorem witness_BringUp_images : ([(none : Option (BitVec 8 × Nat)), some (0, 3), some (0, 1), some (2, 3)].all (fun v =>
      let s := base.modPlat (fun p => { p with boot := 0, minVer := 2, verified := v })
      decide (s.plat.boot = 0) && decide (s.plat.bootErr = 0) && decide (s.plat.verified = v) && decide (s.elevState 63 = 0) &&
        decide ((s.modPlat (fun p => { p with elevs := [(63, 2)] })).elevState 63 ≠ 0) && decide (s.plat.minVer = 2))) = true := by decide +kernel
theorem witness_BringUp_failed : ((base.modPlat (fun p => { p with bootErr := 3 })).plat.bootErr ≠ 0 ∧ base.plat.bootErr = 0) ∧
    slicesOk (List.replicate 16 3) = true ∧ hstOk (List.replicate 16 3) ((List.range 48).map (fun k => k % 16)) = true := by decide +kernel
/-- An item that aborts a test: of a core that is empty, and of one with a strand at no safe point. -/
theorem witness_HostServices_abort : ([true, false].all (fun e =>
      let i := { itemAt 3 3 1 with ring := none }
      let h := withHart (fun x => { x with okeep := true })
      let s := (if e then ({ State.reset with items := [i] } : State) else ({ h with items := [i] } : State)).modPlat (fun p => { p with scState := 1, scPrio := 0, runTarget := 51 })
      let s0 := s.scanDrain 51
      decide (s.plat.scState = 1) && s.underTest (gridCore i.x i.y) && i.taken.isNone && i.ovq.isNone && decide (s.items[0]? = some i) && ((s0.usedSlots 51).isEmpty == e))) = true := by decide +kernel

/-- A port that comes up with groups left over, one asleep, and one that narrows; NAKs of a group that is unacknowledged and of another. -/
theorem witness_LinksAndLaser_states : ([(1 : BitVec 3), 2, 3, 4].all (fun st =>
      let s := withPort (fun p => { p with state := st, unacked := [(4, 2), (5, everyone)], out := 2 })
      match s.ports[0]? with
      | some p => decide (p.state = st) && (p.unacked.take p.out).any (fun k => k.1 = 5) && !(p.unacked.take p.out).any (fun k => k.1 = 6) &&
          ((p.unacked.map Prod.snd).filter (fun d => decide (d ≠ everyone))).length == 1
      | none => false)) = true := by decide +kernel
/-- A group for this device, for another one, for nobody named, and while this device has no number. -/
theorem witness_LinksAndLaser_transit : ([(none : Option (BitVec 11)), some 0, some 1].all (fun d => [true, false].all (fun v =>
      let s := base.modPlat (fun p => { p with fabv := v })
      let g : LinkGroup := { seq := 0, tagOk := true, cls := .msg, pid := 1, lines := [], flits := 6, ack := none, dest := d }
      (s.inTransit g).isSome == (d.isSome && !(v && decide (d = some 0)))))) = true := by decide +kernel
/-- A group that waits for a route, with one and without. -/
theorem witness_LinksAndLaser_reroute : ([true, false].all (fun r =>
      let s : State := { (if r then threeDevices 0 else base.modPlat (fun p => { p with fabv := true })) with reroute := [1] }
      let s1 : State := { s with reroute := [] }
      decide (s.reroute = [1]) && ((s1.route 1).isSome == r))) = true := by decide +kernel
/-- A cancelled strand whose acknowledgement comes. -/
theorem witness_RemoteAndMigration_cancelled : (let m : MigOut :=
      { tag := 9, strand := wideHbm.hart.sid, dev := 1, va := 0, slot := { wideHbm.hart with bound := { wideHbm.hart.bound with cancel := true }, record := { wideHbm.hart.record with frame := 0x400 } }, since := 0, attempts := 4 }
    let s : State := { wideHbm with migOut := [m] }
    ((s.migOut.find? (fun m => m.tag = 9)).map (fun m => m.slot.bound.cancel)) = some true) := by decide +kernel
/-- A slot whose registers hold uncorrectable data, of which the instruction reads none, and reads one. -/
theorem witness_StepRunsDecoded_registers : ([(9 : Nat), 1].all (fun r =>
      let s := withHart (fun x => { x with badRegs := [(.g r, 0)] })
      let u := instrUse (s.slotAt 816) (.add 3 1 2 0)
      (u.needs.contains (.g r) == decide (r = 1)) && !s.sendsFirst 816 (.add 3 1 2 0))) = true := by decide +kernel

/-! ### Memory faults -/

/-- Local store: its last byte, the first one past it, and a misaligned address below it. -/
theorem witness_MemoryFaults_local : ([((0x40000 : Word), (0 : BitVec 2)), (0x3FFFC, 3), (0x3FFFF, 1)].all (fun e => let s := withG [(2, e.1)]
      let ea := s.hart.getG 2 + ((0 : BitVec 11).signExtend 64 <<< e.2.toNat)
      ready s Need.access && (decide (0x40000 ≤ ea.toNat) || decide (ea.toNat % 2 ^ e.2.toNat ≠ 0)))) = true := by decide +kernel
/-- Translations that a station holds and that fail, each for its own reason, and a non-canonical address. -/
theorem witness_MemoryFaults_translation : ([((0 : Nat), Cause.tuser), (1, .tperm), (2, .tnomem), (3, .tnomem), (4, .tnc)].all (fun e =>
      let f (t : TlbEntry) : TlbEntry := if e.1 = 0 then { t with u := false } else if e.1 = 1 then { t with w := false } else if e.1 = 2 then { t with base := 3 * 2 ^ 48 }
        else if e.1 = 3 then { t with base := 0x100000 } else t
      let s : State := { withHart (fun x => { x with status := { x.status with exec := false } }) with tlb := base.tlb.map f }
      let va : Word := if e.1 = 4 then 0x200000000000000 else 8
      ready s Need.access && (s.tlbFind (stationOf (quadOf 51) va.toNat) 1 va.toNat).isSome == decide (e.1 ≠ 4) && (match (s.translate (quadOf 51) 1 false va .write).1 with
        | .error c => decide (c = e.2)
        | .ok _ => false))) = true := by decide +kernel
/-- Scratchpad places that are none, misaligned, a control word and its neighbour, a half of another PID's and one that an engine
owns, and a bank in cache mode, in FIFO mode for a word of 4 bytes and for a gather, of another PID, and with a slab that is owned. -/
theorem witness_MemoryFaults_scratchpad : ([((0 : Nat), Cause.sprange), (1, .maln), (2, .spro), (3, .spro), (4, .sppid), (5, .owner), (6, .spmode), (7, .spmode), (8, .fifosz), (9, .sppid), (10, .owner)].all (fun e =>
      let b0 : Bank := base.tile 2 |>.bank 3
      let bk : Bank := if e.1 = 6 then { b0 with mode := 0, pid := 1 } else if e.1 = 7 || e.1 = 8 then { b0 with mode := 2, pid := 1 } else if e.1 = 9 then { b0 with mode := 1, pid := 2 } else { b0 with mode := 1, pid := 1 }
      let t0 := (base.tile 2).setOwner (slabOf 3 0) (if e.1 = 10 then 1 else 0)
      let s := ((base.modTile 2 (fun _ => { t0 with pbPid := if e.1 = 4 then 2 else 1, halves := if e.1 = 5 then Vector.replicate 4 2 else t0.halves })).modBank 2 3 (fun _ => bk))
      let addr : Word := if e.1 = 0 then 0x40000000 else if e.1 = 1 then 0x2300001 else if e.1 = 2 || e.1 = 3 then 0x22000000 else if e.1 = 4 || e.1 = 5 then 0x12C00000 else 0x2300000
      let form : SpForm := if e.1 = 2 || e.1 = 8 then .scalar 4 else if e.1 = 7 then .element 4 else .scalar 8
      (match s.spCheck { addr := addr, write := decide (e.1 = 3), form := form, pid := 1, exec := false } with
       | .error c => decide (c = e.2)
       | .ok _ => false))) = true := by decide +kernel
/-- Gathers whose first element faults, and whose second does. -/
theorem witness_MemoryFaults_gather : ([(1 : Nat), 3].all (fun k =>
      let s := (spBase_ 1).modHart (fun x => { (x.setG 2 (if k = 1 then 0x2400000 else 0x23FFFFC)) with v := x.v })
      ready s { Need.access with vs := [7, 3] } && (s.gatherGate 2 3 [0]).isNone && (match s.gatherCheckS 2 3 false [0] with
        | some (c, _) => decide (c = .spmode) && decide (k = 1)
        | none => decide (k = 3)))) = true := by decide +kernel
theorem witness_MemoryFaults_gather_global : ([(base, (0x10000 : Word)), (lpOn false 0x10000 0, 0x100)].all (fun e =>
      let s := e.1.modHart (fun x => x.setG 2 e.2)
      ready s { Need.access with vs := [7, 3] } && (match (s.gatherPlaces 2 3 .write [0]).1 with
        | .error (c, va) => decide (va = e.2) && decide ((c = .optst) ↔ e.2 = 0x100)
        | .ok _ => false))) = true := by decide +kernel
end Sys2Proof.Tests
end

namespace Sys2Proof.Proofs

/-!
How scalar instructions complete: the outcome of an instruction whose meaning is its first checks followed by a write of gd,
with or without flags.
-/

open Sys2Proof.Machine Sys2Proof.Claim

/-- An instruction that checks its needs and then writes `v` to gd does so when it is ready. -/
theorem writesG_of_issue {s : State} {c : Need} {i : Instr} {h : BitVec 2} {d : BitVec 5} {v : Word}
    (ready : Ready s c) (meaning : exec i s = s.issue c (s.doneG h d v)) : WritesG s i h d v :=
  meaning.trans (issue_of_ready ready _)

/-- An instruction that checks its needs and then writes `v` and the flags `fl` does so when it is ready. -/
theorem writesGF_of_issue {s : State} {c : Need} {i : Instr} {len : Nat} {h : BitVec 2} {d : BitVec 5} {v : Word}
    {fl : BitVec 6} (ready : Ready s c) (meaning : exec i s = s.issue c (s.doneFlags len h d v fl)) :
    WritesGF s i len h d v fl :=
  meaning.trans (issue_of_ready ready _)

/-- A write with no flag leaves FXF as it is. -/
theorem writesGF_noFlags {s : State} {i : Instr} {h : BitVec 2} {d : BitVec 5} {v : Word} :
    WritesGF s i 4 h d v 0 ↔ WritesG s i h d v := by
  simp only [WritesGF, WritesG, Slot.orFxf_zero]

end Sys2Proof.Proofs

namespace Sys2Proof.Proofs

/-!
Integer division (03 R56): what quotient and remainder of the model are, for a zero and for any other divisor.
-/

open Sys2Proof.Machine Sys2Proof.Claim

section Division

variable {n : Nat} (x : BitVec n) {y : BitVec n}

theorem divSigned_zero : divSigned x 0 = BitVec.allOnes n := if_pos rfl

theorem divUnsigned_zero : divUnsigned x 0 = BitVec.allOnes n := if_pos rfl

theorem remSigned_zero : remSigned x 0 = x := if_pos rfl

theorem remUnsigned_zero : remUnsigned x 0 = x := if_pos rfl

theorem divSigned_of_ne (hy : y ≠ 0) : divSigned x y = x.sdiv y := if_neg hy

theorem divUnsigned_of_ne (hy : y ≠ 0) : divUnsigned x y = x / y := if_neg hy

theorem remSigned_of_ne (hy : y ≠ 0) : remSigned x y = x.srem y := if_neg hy

theorem remUnsigned_of_ne (hy : y ≠ 0) : remUnsigned x y = x % y := if_neg hy

/-- Quotient and remainder compose as integers, and wrapping to the width keeps that: also for -2^63 by -1. -/
theorem divSigned_mul_add_remSigned (hy : y ≠ 0) : divSigned x y * y + remSigned x y = x := by
  have quot : x.sdiv y = BitVec.ofInt n (x.toInt.tdiv y.toInt) :=
    BitVec.eq_of_toInt_eq (by rw [BitVec.toInt_sdiv, BitVec.toInt_ofInt])
  have rem : x.srem y = BitVec.ofInt n (x.toInt.tmod y.toInt) := by
    rw [← BitVec.toInt_srem, BitVec.ofInt_toInt]
  calc divSigned x y * y + remSigned x y
      = BitVec.ofInt n (x.toInt.tdiv y.toInt) * BitVec.ofInt n y.toInt + BitVec.ofInt n (x.toInt.tmod y.toInt) := by
        rw [divSigned_of_ne x hy, remSigned_of_ne x hy, quot, rem, BitVec.ofInt_toInt]
    _ = BitVec.ofInt n (x.toInt.tdiv y.toInt * y.toInt + x.toInt.tmod y.toInt) := by
        rw [← BitVec.ofInt_mul, ← BitVec.ofInt_add]
    _ = x := by rw [Int.tdiv_mul_add_tmod, BitVec.ofInt_toInt]

theorem divUnsigned_mul_add_remUnsigned (hy : y ≠ 0) : divUnsigned x y * y + remUnsigned x y = x := by
  apply BitVec.eq_of_toNat_eq
  rw [divUnsigned_of_ne x hy, remUnsigned_of_ne x hy, BitVec.toNat_add, BitVec.toNat_mul, Nat.mod_add_mod,
    BitVec.toNat_udiv, BitVec.toNat_umod, Nat.div_add_mod', Nat.mod_eq_of_lt x.isLt]

end Division

/-- Settles O1: each form writes what the model's quotient or remainder gives, and these are the library's outside a zero
divisor. -/
theorem divisionForms : Obligations.DivisionForms := by
  intro s d a b h ready x y
  refine ⟨divSigned x y, remSigned x y, divUnsigned x y, remUnsigned x y,
    writesG_of_issue ready rfl, writesG_of_issue ready rfl, writesG_of_issue ready rfl, writesG_of_issue ready rfl,
    fun zero => ?_, fun hy => ?_, fun hx hy => ?_, fun hy noOverflow => ?_⟩
  · rw [zero, divSigned_zero, remSigned_zero, divUnsigned_zero, remUnsigned_zero]
    exact ⟨rfl, rfl, rfl, rfl⟩
  · refine ⟨divSigned_mul_add_remSigned x hy, divUnsigned_mul_add_remUnsigned x hy, ?_, ?_, ?_⟩
    · rw [divUnsigned_of_ne x hy, BitVec.toNat_udiv]
    · rw [remUnsigned_of_ne x hy, BitVec.toNat_umod]
    · rw [remSigned_of_ne x hy, BitVec.toInt_srem]
  · rw [hx, hy]
    decide
  · rw [divSigned_of_ne x hy]
    exact BitVec.toInt_sdiv_of_ne_or_ne x y (not_and_or.mp noOverflow)

end Sys2Proof.Proofs

namespace Sys2Proof.Proofs

/-!
Saturating sums and differences (03 R59): the range of a result type, and the three cases of clamping to it.
-/

open Sys2Proof.Machine Sys2Proof.Claim

/-- The least value of an integer type of `n` bits. -/
def intLeast (n : Nat) (signed : Bool) : Int := if signed then -(2 ^ (n - 1) : Nat) else 0

/-- The greatest value of an integer type of `n` bits. -/
def intGreatest (n : Nat) (signed : Bool) : Int := if signed then ((2 ^ (n - 1) : Nat) : Int) - 1 else ((2 ^ n : Nat) : Int) - 1

theorem intLeast_le_intGreatest (n : Nat) (signed : Bool) : intLeast n signed ≤ intGreatest n signed := by
  have := Nat.two_pow_pos (n - 1)
  have := Nat.two_pow_pos n
  cases signed <;> simp only [intLeast, intGreatest, if_true, Bool.false_eq_true, if_false] <;> omega

section Clamping

variable {n : Nat} {signed : Bool} {v : Int}

theorem clampInt_of_mem (lo : intLeast n signed ≤ v) (hi : v ≤ intGreatest n signed) : clampInt n signed v = (v, 0) :=
  (if_neg (Int.not_lt.mpr lo)).trans (if_neg (Int.not_lt.mpr hi))

theorem clampInt_of_lt (lo : v < intLeast n signed) : clampInt n signed v = (intLeast n signed, flagSAT) :=
  if_pos lo

theorem clampInt_of_gt (hi : intGreatest n signed < v) : clampInt n signed v = (intGreatest n signed, flagSAT) :=
  (if_neg (Int.not_lt.mpr ((intLeast_le_intGreatest n signed).trans hi.le))).trans (if_pos hi)

end Clamping

/-- An instruction of one word writes the exact value where it lies between the bounds, else the nearer bound with SAT. -/
def WritesClamped (s : State) (i : Instr) (h : BitVec 2) (d : BitVec 5) (v lo hi : Int) : Prop :=
  (lo ≤ v ∧ v ≤ hi → WritesG s i h d (BitVec.ofInt 64 v)) ∧
  (v < lo → WritesGF s i 4 h d (BitVec.ofInt 64 lo) flagSAT) ∧
  (hi < v → WritesGF s i 4 h d (BitVec.ofInt 64 hi) flagSAT)

/-- An instruction that completes with `satResult` clamps to the range of the 64-bit type. -/
theorem writesClamped_of_issue {s : State} {c : Need} {i : Instr} {h : BitVec 2} {d : BitVec 5} {signed : Bool} {v : Int}
    (ready : Ready s c)
    (meaning : exec i s = s.issue c (s.doneFlags 4 h d (satResult signed v).1 (satResult signed v).2)) :
    WritesClamped s i h d v (intLeast 64 signed) (intGreatest 64 signed) := by
  have write : WritesGF s i 4 h d (BitVec.ofInt 64 (clampInt 64 signed v).1) (clampInt 64 signed v).2 :=
    writesGF_of_issue ready meaning
  refine ⟨fun ⟨lo, hi⟩ => ?_, fun lo => ?_, fun hi => ?_⟩
  · rw [clampInt_of_mem lo hi] at write
    exact writesGF_noFlags.mp write
  · rwa [clampInt_of_lt lo] at write
  · rwa [clampInt_of_gt hi] at write

/-- Settles O4: each form completes with `satResult` of its exact sum or difference. -/
theorem saturatingForms : Obligations.SaturatingForms := by
  intro s d a b h ready x y Clamped
  have signed (i : Instr) (v : Int)
      (meaning : exec i s = s.issue Need.any (s.doneFlags 4 h d (satResult true v).1 (satResult true v).2)) :
      Clamped i v (-2 ^ 63) (2 ^ 63 - 1) := writesClamped_of_issue ready meaning
  have unsigned (i : Instr) (v : Int)
      (meaning : exec i s = s.issue Need.any (s.doneFlags 4 h d (satResult false v).1 (satResult false v).2)) :
      Clamped i v 0 (2 ^ 64 - 1) := writesClamped_of_issue ready meaning
  exact ⟨signed _ _ rfl, signed _ _ rfl, unsigned _ _ rfl, unsigned _ _ rfl⟩

end Sys2Proof.Proofs

namespace Sys2Proof.Proofs

/-!
FP32 encodings as numbers (03 R61, R66; 07 R156): the magnitude of an encoding orders the values it stands for, so that
exact comparison of decoded values is comparison of signed magnitudes.
-/

open Sys2Proof.Machine Sys2Proof.Claim

/-- A number with a sign. -/
def withSign (neg : Bool) (n : Nat) : Int := if neg then -(n : Int) else (n : Int)

/-- A strictly increasing map that fixes zero keeps the order of signed numbers. -/
theorem withSign_lt_iff_of_strictMono {f : Nat → Nat} (mono : StrictMono f) (zero : f 0 = 0) (s₁ s₂ : Bool) (n₁ n₂ : Nat) :
    withSign s₁ (f n₁) < withSign s₂ (f n₂) ↔ withSign s₁ n₁ < withSign s₂ n₂ := by
  have lt (a b : Nat) : f a < f b ↔ a < b := mono.lt_iff_lt
  have pos (a : Nat) : 0 < f a ↔ 0 < a := by rw [← lt 0 a, zero]
  have := lt n₁ n₂
  have := lt n₂ n₁
  have := pos n₁
  have := pos n₂
  cases s₁ <;> cases s₂ <;> simp only [withSign, Bool.false_eq_true, if_true, if_false] <;> omega

/-- The greater magnitude decides by its sign: on the left. -/
theorem withSign_lt_of_gt {n₁ n₂ : Nat} (h : n₂ < n₁) (s₁ s₂ : Bool) : withSign s₁ n₁ < withSign s₂ n₂ ↔ s₁ = true := by
  cases s₁ <;> cases s₂ <;> simp [withSign] <;> omega

/-- The greater magnitude decides by its sign: on the right. -/
theorem withSign_lt_of_lt {n₁ n₂ : Nat} (h : n₁ < n₂) (s₁ s₂ : Bool) : withSign s₁ n₁ < withSign s₂ n₂ ↔ s₂ = false := by
  cases s₁ <;> cases s₂ <;> simp [withSign] <;> omega

/-- Of two numbers with one magnitude only the negative is below the positive. -/
theorem withSign_lt_same {n : Nat} (h : 0 < n) (s₁ s₂ : Bool) : withSign s₁ n < withSign s₂ n ↔ s₁ = true ∧ s₂ = false := by
  cases s₁ <;> cases s₂ <;> simp [withSign]
  omega

/-- Two finite values whose exponents lie at or above `q` compare as the multiples of 2^q that they are. -/
theorem FVal_lt_num (s₁ s₂ : Bool) (m₁ m₂ k₁ k₂ : Nat) (q : Int) :
    (FVal.num s₁ m₁ (q + k₁)).lt (.num s₂ m₂ (q + k₂)) =
      decide (withSign s₁ (m₁ * 2 ^ k₁) < withSign s₂ (m₂ * 2 ^ k₂)) := by
  have shift (m k : Nat) (hk : min k₁ k₂ ≤ k) :
      m * 2 ^ k = m * 2 ^ (q + k - min (q + k₁) (q + k₂)).toNat * 2 ^ min k₁ k₂ := by
    rw [show (q + k - min (q + k₁) (q + k₂)).toNat = k - min k₁ k₂ by omega, mul_assoc, ← pow_add, Nat.sub_add_cancel hk]
  rw [shift m₁ k₁ (min_le_left _ _), shift m₂ k₂ (min_le_right _ _)]
  exact decide_eq_decide.mpr (withSign_lt_iff_of_strictMono (f := (· * 2 ^ min k₁ k₂))
    (strictMono_mul_right_of_pos (Nat.two_pow_pos _)) (zero_mul _) s₁ s₂ _ _).symm

/-- The encoding without its sign bit. -/
def magnitude (c : BitVec 32) : Nat := c.toNat % 2 ^ 31

/-- The magnitude of the infinities. -/
def infMagnitude : Nat := 255 * 2 ^ 23

/-- The value of a finite encoding of magnitude `n` as a multiple of 2^-149. -/
def finiteValue (n : Nat) : Nat := if n < 2 ^ 23 then n else (2 ^ 23 + n % 2 ^ 23) * 2 ^ (n / 2 ^ 23 - 1)

theorem finiteValue_subnormal {n : Nat} (hn : n < 2 ^ 23) : finiteValue n = n := if_pos hn

theorem finiteValue_normal {e m : Nat} (hm : m < 2 ^ 23) : finiteValue ((e + 1) * 2 ^ 23 + m) = (2 ^ 23 + m) * 2 ^ e := by
  rw [finiteValue, if_neg (by omega), show ((e + 1) * 2 ^ 23 + m) % 2 ^ 23 = m by omega,
    show ((e + 1) * 2 ^ 23 + m) / 2 ^ 23 - 1 = e by omega]

/-- Behind the last fraction of an exponent field comes twice the weight of its implied bit. -/
theorem finiteValue_normal_succ {e m : Nat} (hm : m < 2 ^ 23) :
    finiteValue ((e + 1) * 2 ^ 23 + (m + 1)) = (2 ^ 23 + (m + 1)) * 2 ^ e := by
  rcases Nat.lt_or_ge (m + 1) (2 ^ 23) with same | step
  · exact finiteValue_normal same
  · have twice : 2 ^ 23 + (m + 1) = 2 * 2 ^ 23 := by omega
    calc finiteValue ((e + 1) * 2 ^ 23 + (m + 1))
        = finiteValue ((e + 1 + 1) * 2 ^ 23 + 0) := congrArg finiteValue (by omega)
      _ = (2 ^ 23 + 0) * 2 ^ (e + 1) := finiteValue_normal (Nat.two_pow_pos 23)
      _ = (2 ^ 23 + (m + 1)) * 2 ^ e := by rw [twice]; ring

/-- A greater encoding stands for a greater value, also where the exponent field steps. -/
theorem finiteValue_strictMono : StrictMono finiteValue := by
  refine strictMono_nat_of_lt_succ fun n => ?_
  rcases Nat.lt_or_ge n (2 ^ 23) with subnormal | normal
  · rw [finiteValue_subnormal subnormal]
    rcases Nat.lt_or_ge (n + 1) (2 ^ 23) with low | high
    · rw [finiteValue_subnormal low]
      exact Nat.lt_succ_self n
    · rw [show n + 1 = (0 + 1) * 2 ^ 23 + 0 by omega, finiteValue_normal (by omega)]
      omega
  · obtain ⟨e, m, hm, rfl⟩ : ∃ e m, m < 2 ^ 23 ∧ n = (e + 1) * 2 ^ 23 + m :=
      ⟨n / 2 ^ 23 - 1, n % 2 ^ 23, by omega, by omega⟩
    rw [finiteValue_normal hm, Nat.add_assoc, finiteValue_normal_succ hm]
    exact Nat.mul_lt_mul_of_pos_right (by omega) (Nat.two_pow_pos e)

/-! ## What an encoding decodes to, by its magnitude -/

section Decoding

variable {c : BitVec 32}

/-- Decoding in terms of sign bit and magnitude. -/
theorem d32_eq (c : BitVec 32) :
    d32 c.toNat =
      if magnitude c / 2 ^ 23 = 255 then
        if magnitude c % 2 ^ 23 = 0 then .inf (c.getLsbD 31) else .nan (c.getLsbD 31) (magnitude c % 2 ^ 23)
      else if magnitude c / 2 ^ 23 = 0 then .num (c.getLsbD 31) (magnitude c % 2 ^ 23) (-149)
      else .num (c.getLsbD 31) (2 ^ 23 + magnitude c % 2 ^ 23) (-149 + (magnitude c / 2 ^ 23 - 1 : Nat)) := by
  have sign : decide (c.toNat / 2 ^ 31 % 2 = 1) = c.getLsbD 31 := Nat.testBit_eq_decide_div_mod_eq.symm
  have exponent : c.toNat / 2 ^ 23 % 2 ^ 8 = magnitude c / 2 ^ 23 := by unfold magnitude; omega
  have fraction : c.toNat % 2 ^ 23 = magnitude c % 2 ^ 23 := by unfold magnitude; omega
  rw [← sign, ← exponent, ← fraction]
  rfl

theorem d32_of_nan (h : infMagnitude < magnitude c) : d32 c.toNat = .nan (c.getLsbD 31) (magnitude c % 2 ^ 23) := by
  have bound : magnitude c < 2 ^ 31 := Nat.mod_lt _ (Nat.two_pow_pos 31)
  unfold infMagnitude at h
  rw [d32_eq, if_pos (by omega), if_neg (by omega)]

theorem d32_of_inf (h : magnitude c = infMagnitude) : d32 c.toNat = .inf (c.getLsbD 31) := by
  rw [d32_eq, h]
  rfl

theorem d32_of_finite (h : magnitude c < infMagnitude) :
    ∃ m k : Nat, d32 c.toNat = .num (c.getLsbD 31) m (-149 + k) ∧ m * 2 ^ k = finiteValue (magnitude c) := by
  unfold infMagnitude at h
  rw [d32_eq, if_neg (by omega)]
  split
  case isTrue zero =>
    have small : magnitude c < 2 ^ 23 := by omega
    exact ⟨magnitude c, 0, by rw [Nat.mod_eq_of_lt small]; rfl, by rw [finiteValue_subnormal small, pow_zero, mul_one]⟩
  case isFalse nonzero =>
    exact ⟨_, _, rfl, by rw [finiteValue, if_neg (by omega)]⟩

end Decoding

end Sys2Proof.Proofs

namespace Sys2Proof.Proofs

/-!
Scalar compares (03 R66): which encodings are NaNs, and the order of those that are not.
-/

open Sys2Proof.Machine Sys2Proof.Claim

/-- The encoding is a NaN: the exponent field is all ones and the fraction is not zero. -/
def NanCode (c : BitVec 32) : Prop := c.extractLsb' 23 8 = 0xFF ∧ c.extractLsb' 0 23 ≠ 0

/-- The encoding is a signalling NaN: its quiet bit is clear. -/
def SignallingCode (c : BitVec 32) : Prop := NanCode c ∧ c.getLsbD 22 = false

/-- The signed magnitude of an encoding, which is 0 for both zeros. -/
def orderKey (c : BitVec 32) : Int := withSign (c.getLsbD 31) (magnitude c)

/-- The NaNs are the encodings above the infinities. -/
theorem nanCode_iff {c : BitVec 32} : NanCode c ↔ infMagnitude < magnitude c := by
  unfold NanCode infMagnitude magnitude
  rw [Ne, BitVec.toNat_inj.symm, BitVec.toNat_inj.symm, BitVec.extractLsb'_toNat, BitVec.extractLsb'_toNat,
    Nat.shiftRight_eq_div_pow, Nat.shiftRight_eq_div_pow]
  have := c.isLt
  change c.toNat / 2 ^ 23 % 2 ^ 8 = 255 ∧ ¬c.toNat / 2 ^ 0 % 2 ^ 23 = 0 ↔ _
  omega

theorem finite_or_inf_of_not_nan {c : BitVec 32} (h : ¬NanCode c) : magnitude c < infMagnitude ∨ magnitude c = infMagnitude := by
  rw [nanCode_iff] at h
  omega

theorem isNan_d32 {c : BitVec 32} : (d32 c.toNat).isNan = true ↔ NanCode c := by
  rw [nanCode_iff]
  rcases Nat.lt_trichotomy (magnitude c) infMagnitude with finite | inf | nan
  · obtain ⟨m, k, decoded, -⟩ := d32_of_finite finite
    simp [decoded, FVal.isNan, finite.le]
  · simp [d32_of_inf inf, FVal.isNan, inf]
  · simp [d32_of_nan nan, FVal.isNan, nan]

theorem isNan_of_isSnan {f : Fmt} {v : FVal} (h : v.isSnan f = true) : v.isNan = true := by
  cases v with
  | nan neg frac => rfl
  | inf neg => exact h
  | num neg man exp => exact h

theorem isSnan_d32 {c : BitVec 32} : (d32 c.toNat).isSnan fmt32 = true ↔ SignallingCode c := by
  by_cases nan : NanCode c
  · have quiet : c.getLsbD 22 = decide (magnitude c % 2 ^ 23 / 2 ^ 22 % 2 = 1) := by
      rw [show magnitude c % 2 ^ 23 / 2 ^ 22 % 2 = c.toNat / 2 ^ 22 % 2 by unfold magnitude; omega]
      exact Nat.testBit_eq_decide_div_mod_eq
    rw [d32_of_nan (nanCode_iff.mp nan), SignallingCode, and_iff_right nan, quiet, decide_eq_false_iff_not]
    exact decide_eq_true_iff.trans Nat.mod_two_ne_one.symm
  · exact ⟨fun sig => absurd (isNan_d32.mp (isNan_of_isSnan sig)) nan, fun sig => absurd sig.1 nan⟩

/-- Comparison of decoded values is comparison of keys: finite values by their multiples of 2^-149, an infinity by its sign. -/
theorem lt_d32 {x y : BitVec 32} (hx : ¬NanCode x) (hy : ¬NanCode y) :
    (d32 x.toNat).lt (d32 y.toNat) = decide (orderKey x < orderKey y) := by
  rw [Bool.eq_iff_iff, decide_eq_true_iff, orderKey, orderKey]
  rcases finite_or_inf_of_not_nan hx with xFinite | xInf <;> rcases finite_or_inf_of_not_nan hy with yFinite | yInf
  · obtain ⟨m₁, k₁, xNum, xValue⟩ := d32_of_finite xFinite
    obtain ⟨m₂, k₂, yNum, yValue⟩ := d32_of_finite yFinite
    rw [xNum, yNum, FVal_lt_num, xValue, yValue, decide_eq_true_iff]
    exact withSign_lt_iff_of_strictMono finiteValue_strictMono rfl _ _ _ _
  · obtain ⟨m₁, k₁, xNum, -⟩ := d32_of_finite xFinite
    rw [xNum, d32_of_inf yInf, withSign_lt_of_lt (yInf ▸ xFinite)]
    exact Iff.of_eq (Bool.not_eq_true' _)
  · obtain ⟨m₂, k₂, yNum, -⟩ := d32_of_finite yFinite
    rw [yNum, d32_of_inf xInf, withSign_lt_of_gt (xInf ▸ yFinite)]
    rfl
  · rw [d32_of_inf xInf, d32_of_inf yInf, xInf, yInf, withSign_lt_same (by decide)]
    exact (Bool.and_eq_true_iff ..).trans (and_congr_right' (Iff.of_eq (Bool.not_eq_true' _)))

/-! ## The four relations -/

section Relations

variable {f : Fmt} {c : Nat} {a b : FVal}

/-- With a NaN operand only `ne` and `un` hold. -/
theorem fRel_holds_of_nan (h : (a.isNan || b.isNan) = true) : (fRel f c a b).1 = (decide (c = 1) || decide (c = 6)) :=
  congrArg Prod.fst (if_pos h)

theorem fRel_eq_holds (h : ¬(a.isNan || b.isNan) = true) : (fRel f 0 a b).1 = (!a.lt b && !b.lt a) :=
  congrArg Prod.fst (if_neg h)

theorem fRel_lt_holds (h : ¬(a.isNan || b.isNan) = true) : (fRel f 2 a b).1 = a.lt b :=
  congrArg Prod.fst (if_neg h)

theorem fRel_le_holds (h : ¬(a.isNan || b.isNan) = true) : (fRel f 3 a b).1 = !b.lt a :=
  congrArg Prod.fst (if_neg h)

theorem fRel_un_holds (h : ¬(a.isNan || b.isNan) = true) : (fRel f 6 a b).1 = false :=
  congrArg Prod.fst (if_neg h)

/-- The flags of a relation do not depend on which of its branches is taken. -/
theorem fRel_flags : (fRel f c a b).2 =
    if c = 0 || c = 1 || c = 6 then snanFlags f [a, b] else if a.isNan || b.isNan then flagNV else 0 := by
  unfold fRel
  dsimp only
  split <;> rfl

end Relations

/-- A comparison that came to `r` says whether `rel` holds, and raises NV just where `nv` holds. -/
structure Compares (r : Bool × BitVec 6) (rel nv : Prop) : Prop where
  holds : r.1 = true ↔ rel
  raised : nv → r.2 = flagNV
  silent : ¬nv → r.2 = 0

section CompareCodes

variable (x y : BitVec 32)

theorem someNan_iff : ((d32 x.toNat).isNan || (d32 y.toNat).isNan) = true ↔ NanCode x ∨ NanCode y := by
  rw [Bool.or_eq_true, isNan_d32, isNan_d32]

theorem someSignalling_iff :
    [d32 x.toNat, d32 y.toNat].any (FVal.isSnan fmt32) = true ↔ SignallingCode x ∨ SignallingCode y := by
  rw [List.any_cons, List.any_cons, List.any_nil, Bool.or_false, Bool.or_eq_true, isSnan_d32, isSnan_d32]

/-- A quiet relation raises NV for a signalling operand only. -/
theorem compares_quiet {c : Nat} {rel : Prop} (quiet : (c = 0 || c = 1 || c = 6) = true)
    (holds : (fRel fmt32 c (d32 x.toNat) (d32 y.toNat)).1 = true ↔ rel) :
    Compares (fRel fmt32 c (d32 x.toNat) (d32 y.toNat)) rel (SignallingCode x ∨ SignallingCode y) where
  holds := holds
  raised sig := by rw [fRel_flags, if_pos quiet, snanFlags, if_pos ((someSignalling_iff x y).mpr sig)]
  silent sig := by rw [fRel_flags, if_pos quiet, snanFlags, if_neg ((someSignalling_iff x y).not.mpr sig)]

/-- The other relations raise NV for any NaN operand. -/
theorem compares_ordered {c : Nat} {rel : Prop} (ordered : ¬(c = 0 || c = 1 || c = 6) = true)
    (holds : (fRel fmt32 c (d32 x.toNat) (d32 y.toNat)).1 = true ↔ rel) :
    Compares (fRel fmt32 c (d32 x.toNat) (d32 y.toNat)) rel (NanCode x ∨ NanCode y) where
  holds := holds
  raised nan := by rw [fRel_flags, if_neg ordered, if_pos ((someNan_iff x y).mpr nan)]
  silent nan := by rw [fRel_flags, if_neg ordered, if_neg ((someNan_iff x y).not.mpr nan)]

/-- A relation that is false for NaN operands holds as `order` says of the keys. -/
theorem fRel_holds_iff {c : Nat} {order : Prop} (unordered : c ≠ 1 ∧ c ≠ 6)
    (ordered : ¬(NanCode x ∨ NanCode y) → ((fRel fmt32 c (d32 x.toNat) (d32 y.toNat)).1 = true ↔ order)) :
    (fRel fmt32 c (d32 x.toNat) (d32 y.toNat)).1 = true ↔ ¬(NanCode x ∨ NanCode y) ∧ order := by
  by_cases nan : NanCode x ∨ NanCode y
  · simp [fRel_holds_of_nan ((someNan_iff x y).mpr nan), unordered, nan]
  · rw [ordered nan, and_iff_right nan]

theorem compares_eq : Compares (fRel fmt32 0 (d32 x.toNat) (d32 y.toNat))
    (¬(NanCode x ∨ NanCode y) ∧ orderKey x = orderKey y) (SignallingCode x ∨ SignallingCode y) := by
  refine compares_quiet x y rfl (fRel_holds_iff x y (by decide) fun num => ?_)
  obtain ⟨hx, hy⟩ := not_or.mp num
  rw [fRel_eq_holds ((someNan_iff x y).not.mpr num), lt_d32 hx hy, lt_d32 hy hx]
  simp only [Bool.and_eq_true, Bool.not_eq_true', decide_eq_false_iff_not]
  omega

theorem compares_lt : Compares (fRel fmt32 2 (d32 x.toNat) (d32 y.toNat))
    (¬(NanCode x ∨ NanCode y) ∧ orderKey x < orderKey y) (NanCode x ∨ NanCode y) := by
  refine compares_ordered x y (by decide) (fRel_holds_iff x y (by decide) fun num => ?_)
  obtain ⟨hx, hy⟩ := not_or.mp num
  rw [fRel_lt_holds ((someNan_iff x y).not.mpr num), lt_d32 hx hy, decide_eq_true_iff]

theorem compares_le : Compares (fRel fmt32 3 (d32 x.toNat) (d32 y.toNat))
    (¬(NanCode x ∨ NanCode y) ∧ orderKey x ≤ orderKey y) (NanCode x ∨ NanCode y) := by
  refine compares_ordered x y (by decide) (fRel_holds_iff x y (by decide) fun num => ?_)
  obtain ⟨hx, hy⟩ := not_or.mp num
  rw [fRel_le_holds ((someNan_iff x y).not.mpr num), lt_d32 hy hx, Bool.not_eq_true', decide_eq_false_iff_not, Int.not_lt]

theorem compares_un : Compares (fRel fmt32 6 (d32 x.toNat) (d32 y.toNat))
    (NanCode x ∨ NanCode y) (SignallingCode x ∨ SignallingCode y) := by
  refine compares_quiet x y rfl ?_
  by_cases nan : NanCode x ∨ NanCode y
  · simp [fRel_holds_of_nan ((someNan_iff x y).mpr nan), nan]
  · simp [fRel_un_holds ((someNan_iff x y).not.mpr nan), nan]

end CompareCodes

/-! ## The instructions -/

/-- The FP32 operand of a scalar instruction is the low half of its register (03 R61). -/
theorem getF_eq (x : Slot) (n : BitVec 5) : x.getF n = d32 ((x.getG n).extractLsb' 0 32).toNat := by
  rw [← BitVec.setWidth_eq_extractLsb' (by decide)]
  rfl

/-- An instruction of one word writes 1 where `rel` holds, else 0, and raises NV where `nv` holds. -/
def WritesCompare (s : State) (i : Instr) (h : BitVec 2) (d : BitVec 5) (rel nv : Prop) : Prop :=
  (rel → nv → WritesGF s i 4 h d 1 flagNV) ∧ (rel → ¬nv → WritesGF s i 4 h d 1 0) ∧
  (¬rel → nv → WritesGF s i 4 h d 0 flagNV) ∧ (¬rel → ¬nv → WritesGF s i 4 h d 0 0)

/-- An instruction that completes with a comparison of two registers writes what the comparison of their low halves says. -/
theorem writesCompare_of_issue {s : State} {i : Instr} {h : BitVec 2} {d a b : BitVec 5} {c : Nat} {rel nv : Prop}
    (ready : Ready s Need.any)
    (meaning : exec i s = s.issue Need.any (s.doneFlags 4 h d (boolWord (fRel fmt32 c (s.hart.getF a) (s.hart.getF b)).1)
      (fRel fmt32 c (s.hart.getF a) (s.hart.getF b)).2))
    (compares : Compares (fRel fmt32 c (d32 ((s.hart.getG a).extractLsb' 0 32).toNat)
      (d32 ((s.hart.getG b).extractLsb' 0 32).toNat)) rel nv) :
    WritesCompare s i h d rel nv := by
  have write := writesGF_of_issue ready meaning
  rw [getF_eq, getF_eq] at write
  obtain ⟨holds, raised, silent⟩ := compares
  have one (hr : rel) := congrArg boolWord (holds.mpr hr)
  have zero (hr : ¬rel) := congrArg boolWord (Bool.eq_false_iff.mpr (holds.not.mpr hr))
  refine ⟨fun hr hn => ?_, fun hr hn => ?_, fun hr hn => ?_, fun hr hn => ?_⟩
  · rwa [one hr, raised hn] at write
  · rwa [one hr, silent hn] at write
  · rwa [zero hr, raised hn] at write
  · rwa [zero hr, silent hn] at write

/-- Settles O7: each form completes with the model's comparison of its operands, and that is comparison of signed magnitudes
for operands that are no NaN. -/
theorem scalarCompares : Obligations.ScalarCompares := by
  intro s d a b h ready x y nan signalling key some_ sig Writes
  exact ⟨writesCompare_of_issue ready rfl (compares_eq x y), writesCompare_of_issue ready rfl (compares_lt x y),
    writesCompare_of_issue ready rfl (compares_le x y), writesCompare_of_issue ready rfl (compares_un x y)⟩

end Sys2Proof.Proofs

section

/-! The declarations below are elaborated one after another, which keeps the whole text within the memory that the check allows. -/

set_option Elab.async false


namespace Sys2Proof.Proofs

/-!
The decoder after the encoder (02 R25 to R35): one case an instruction, each the lemma about its own words. An event has no
words and is not well formed.
-/

open Sys2Proof.Laws

theorem encodesBack (i : Instr) : EncodesBack.Statement i := by
  cases i with
  | add => apply EncodesBack.add
  | sub => apply EncodesBack.sub
  | and => apply EncodesBack.and
  | or => apply EncodesBack.or
  | xor => apply EncodesBack.xor
  | andn => apply EncodesBack.andn
  | orn => apply EncodesBack.orn
  | xnor => apply EncodesBack.xnor
  | sll => apply EncodesBack.sll
  | srl => apply EncodesBack.srl
  | sra => apply EncodesBack.sra
  | rol => apply EncodesBack.rol
  | mul => apply EncodesBack.mul
  | mulh => apply EncodesBack.mulh
  | mulhn => apply EncodesBack.mulhn
  | div => apply EncodesBack.div
  | divn => apply EncodesBack.divn
  | rem => apply EncodesBack.rem
  | remn => apply EncodesBack.remn
  | min => apply EncodesBack.min
  | max => apply EncodesBack.max
  | minn => apply EncodesBack.minn
  | maxn => apply EncodesBack.maxn
  | adds => apply EncodesBack.adds
  | subs => apply EncodesBack.subs
  | addsn => apply EncodesBack.addsn
  | subsn => apply EncodesBack.subsn
  | clz => apply EncodesBack.clz
  | ctz => apply EncodesBack.ctz
  | popc => apply EncodesBack.popc
  | brev => apply EncodesBack.brev
  | bswap => apply EncodesBack.bswap
  | sextB => apply EncodesBack.sextB
  | sextH => apply EncodesBack.sextH
  | sextW => apply EncodesBack.sextW
  | zextB => apply EncodesBack.zextB
  | zextH => apply EncodesBack.zextH
  | zextW => apply EncodesBack.zextW
  | cmpEq => apply EncodesBack.cmpEq
  | cmpNe => apply EncodesBack.cmpNe
  | cmpLt => apply EncodesBack.cmpLt
  | cmpGe => apply EncodesBack.cmpGe
  | cmpLtn => apply EncodesBack.cmpLtn
  | cmpGen => apply EncodesBack.cmpGen
  | sel => apply EncodesBack.sel
  | sllImm => apply EncodesBack.sllImm
  | srlImm => apply EncodesBack.srlImm
  | sraImm => apply EncodesBack.sraImm
  | rolImm => apply EncodesBack.rolImm
  | addW => apply EncodesBack.addW
  | subW => apply EncodesBack.subW
  | sllW => apply EncodesBack.sllW
  | srlW => apply EncodesBack.srlW
  | sraW => apply EncodesBack.sraW
  | rolW => apply EncodesBack.rolW
  | mulW => apply EncodesBack.mulW
  | divW => apply EncodesBack.divW
  | divnW => apply EncodesBack.divnW
  | remW => apply EncodesBack.remW
  | remnW => apply EncodesBack.remnW
  | sllWImm => apply EncodesBack.sllWImm
  | srlWImm => apply EncodesBack.srlWImm
  | sraWImm => apply EncodesBack.sraWImm
  | rolWImm => apply EncodesBack.rolWImm
  | addImm => apply EncodesBack.addImm
  | andImm => apply EncodesBack.andImm
  | orImm => apply EncodesBack.orImm
  | xorImm => apply EncodesBack.xorImm
  | cmpLtImm => apply EncodesBack.cmpLtImm
  | cmpLtnImm => apply EncodesBack.cmpLtnImm
  | fadd => apply EncodesBack.fadd
  | fsub => apply EncodesBack.fsub
  | fmul => apply EncodesBack.fmul
  | fdiv => apply EncodesBack.fdiv
  | fma => apply EncodesBack.fma
  | fnma => apply EncodesBack.fnma
  | fsqrt => apply EncodesBack.fsqrt
  | fmin => apply EncodesBack.fmin
  | fmax => apply EncodesBack.fmax
  | fabs => apply EncodesBack.fabs
  | fneg => apply EncodesBack.fneg
  | fcmpEq => apply EncodesBack.fcmpEq
  | fcmpLt => apply EncodesBack.fcmpLt
  | fcmpLe => apply EncodesBack.fcmpLe
  | fcmpUn => apply EncodesBack.fcmpUn
  | fcvtI32F => apply EncodesBack.fcvtI32F
  | fcvtI64F => apply EncodesBack.fcvtI64F
  | fcvtN32F => apply EncodesBack.fcvtN32F
  | fcvtN64F => apply EncodesBack.fcvtN64F
  | fcvtFI32 => apply EncodesBack.fcvtFI32
  | fcvtFI64 => apply EncodesBack.fcvtFI64
  | fcvtFN32 => apply EncodesBack.fcvtFN32
  | fcvtFN64 => apply EncodesBack.fcvtFN64
  | fmov => apply EncodesBack.fmov
  | faddK => apply EncodesBack.faddK
  | fsubK => apply EncodesBack.fsubK
  | fmulK => apply EncodesBack.fmulK
  | fmaK => apply EncodesBack.fmaK
  | fnmaK => apply EncodesBack.fnmaK
  | fminK => apply EncodesBack.fminK
  | fmaxK => apply EncodesBack.fmaxK
  | fmovK => apply EncodesBack.fmovK
  | addK => apply EncodesBack.addK
  | andK => apply EncodesBack.andK
  | orK => apply EncodesBack.orK
  | xorK => apply EncodesBack.xorK
  | movK => apply EncodesBack.movK
  | movnK => apply EncodesBack.movnK
  | cmpEqK => apply EncodesBack.cmpEqK
  | cmpLtK => apply EncodesBack.cmpLtK
  | faddLit => apply EncodesBack.faddLit
  | fsubLit => apply EncodesBack.fsubLit
  | fmulLit => apply EncodesBack.fmulLit
  | fmaLit => apply EncodesBack.fmaLit
  | fnmaLit => apply EncodesBack.fnmaLit
  | fminLit => apply EncodesBack.fminLit
  | fmaxLit => apply EncodesBack.fmaxLit
  | fmovLit => apply EncodesBack.fmovLit
  | addLit => apply EncodesBack.addLit
  | andLit => apply EncodesBack.andLit
  | orLit => apply EncodesBack.orLit
  | xorLit => apply EncodesBack.xorLit
  | movLit => apply EncodesBack.movLit
  | movnLit => apply EncodesBack.movnLit
  | cmpEqLit => apply EncodesBack.cmpEqLit
  | cmpLtLit => apply EncodesBack.cmpLtLit
  | beqz => apply EncodesBack.beqz
  | bnez => apply EncodesBack.bnez
  | bltz => apply EncodesBack.bltz
  | bgez => apply EncodesBack.bgez
  | bgtz => apply EncodesBack.bgtz
  | blez => apply EncodesBack.blez
  | bany => apply EncodesBack.bany
  | ball => apply EncodesBack.ball
  | bnone => apply EncodesBack.bnone
  | j => apply EncodesBack.j
  | call => apply EncodesBack.call
  | jr => apply EncodesBack.jr
  | callr => apply EncodesBack.callr
  | loop => apply EncodesBack.loop
  | loopi => apply EncodesBack.loopi
  | nop => apply EncodesBack.nop
  | ldL => apply EncodesBack.ldL
  | stL => apply EncodesBack.stL
  | ldS => apply EncodesBack.ldS
  | stS => apply EncodesBack.stS
  | ldG => apply EncodesBack.ldG
  | stG => apply EncodesBack.stG
  | vldL => apply EncodesBack.vldL
  | vstL => apply EncodesBack.vstL
  | vldS => apply EncodesBack.vldS
  | vstS => apply EncodesBack.vstS
  | vldG => apply EncodesBack.vldG
  | vstG => apply EncodesBack.vstG
  | vgthS => apply EncodesBack.vgthS
  | vsctS => apply EncodesBack.vsctS
  | vgthG => apply EncodesBack.vgthG
  | vsctG => apply EncodesBack.vsctG
  | pfG => apply EncodesBack.pfG
  | cwb => apply EncodesBack.cwb
  | cinv => apply EncodesBack.cinv
  | cwbi => apply EncodesBack.cwbi
  | bankcfg => apply EncodesBack.bankcfg
  | bankSwitch => apply EncodesBack.bankSwitch
  | stGBNt => apply EncodesBack.stGBNt
  | stGHNt => apply EncodesBack.stGHNt
  | stGWNt => apply EncodesBack.stGWNt
  | stGDNt => apply EncodesBack.stGDNt
  | vadd => apply EncodesBack.vadd
  | vsub => apply EncodesBack.vsub
  | vmul => apply EncodesBack.vmul
  | vfma => apply EncodesBack.vfma
  | vfnma => apply EncodesBack.vfnma
  | vmin => apply EncodesBack.vmin
  | vmax => apply EncodesBack.vmax
  | vabs => apply EncodesBack.vabs
  | vneg => apply EncodesBack.vneg
  | vdiv => apply EncodesBack.vdiv
  | vsqrt => apply EncodesBack.vsqrt
  | vrcp => apply EncodesBack.vrcp
  | vrsqrt => apply EncodesBack.vrsqrt
  | vexp2 => apply EncodesBack.vexp2
  | vlog2 => apply EncodesBack.vlog2
  | vscale => apply EncodesBack.vscale
  | vaddI => apply EncodesBack.vaddI
  | vsubI => apply EncodesBack.vsubI
  | vmulI => apply EncodesBack.vmulI
  | vmlaI => apply EncodesBack.vmlaI
  | vminI => apply EncodesBack.vminI
  | vminN => apply EncodesBack.vminN
  | vmaxI => apply EncodesBack.vmaxI
  | vmaxN => apply EncodesBack.vmaxN
  | vandI => apply EncodesBack.vandI
  | vorI => apply EncodesBack.vorI
  | vxorI => apply EncodesBack.vxorI
  | vsllI => apply EncodesBack.vsllI
  | vsrlI => apply EncodesBack.vsrlI
  | vsraI => apply EncodesBack.vsraI
  | vaddsI => apply EncodesBack.vaddsI
  | vaddsN => apply EncodesBack.vaddsN
  | vsubsI => apply EncodesBack.vsubsI
  | vsubsN => apply EncodesBack.vsubsN
  | vabsI => apply EncodesBack.vabsI
  | vmulhI => apply EncodesBack.vmulhI
  | vmulhN => apply EncodesBack.vmulhN
  | vcmpEq => apply EncodesBack.vcmpEq
  | vcmpNe => apply EncodesBack.vcmpNe
  | vcmpLt => apply EncodesBack.vcmpLt
  | vcmpLe => apply EncodesBack.vcmpLe
  | vcmpGt => apply EncodesBack.vcmpGt
  | vcmpGe => apply EncodesBack.vcmpGe
  | vcmpUn => apply EncodesBack.vcmpUn
  | vcmpEqI => apply EncodesBack.vcmpEqI
  | vcmpNeI => apply EncodesBack.vcmpNeI
  | vcmpLtI => apply EncodesBack.vcmpLtI
  | vcmpLeI => apply EncodesBack.vcmpLeI
  | vcmpGtI => apply EncodesBack.vcmpGtI
  | vcmpGeI => apply EncodesBack.vcmpGeI
  | vcmpEqN => apply EncodesBack.vcmpEqN
  | vcmpNeN => apply EncodesBack.vcmpNeN
  | vcmpLtN => apply EncodesBack.vcmpLtN
  | vcmpLeN => apply EncodesBack.vcmpLeN
  | vcmpGtN => apply EncodesBack.vcmpGtN
  | vcmpGeN => apply EncodesBack.vcmpGeN
  | vrsum => apply EncodesBack.vrsum
  | vcsum => apply EncodesBack.vcsum
  | vrmax => apply EncodesBack.vrmax
  | vcmax => apply EncodesBack.vcmax
  | vrmin => apply EncodesBack.vrmin
  | vcmin => apply EncodesBack.vcmin
  | vdot => apply EncodesBack.vdot
  | vtrn => apply EncodesBack.vtrn
  | pand => apply EncodesBack.pand
  | por => apply EncodesBack.por
  | pxor => apply EncodesBack.pxor
  | pandn => apply EncodesBack.pandn
  | pnot => apply EncodesBack.pnot
  | pfirst => apply EncodesBack.pfirst
  | pcnt => apply EncodesBack.pcnt
  | pset => apply EncodesBack.pset
  | vcvt => apply EncodesBack.vcvt
  | vpkBfp8 => apply EncodesBack.vpkBfp8
  | vupkBfp8 => apply EncodesBack.vupkBfp8
  | vpk => apply EncodesBack.vpk
  | vupk => apply EncodesBack.vupk
  | vbcast => apply EncodesBack.vbcast
  | vins => apply EncodesBack.vins
  | vext => apply EncodesBack.vext
  | vperm => apply EncodesBack.vperm
  | vmov => apply EncodesBack.vmov
  | vsel => apply EncodesBack.vsel
  | vzero => apply EncodesBack.vzero
  | vrng => apply EncodesBack.vrng
  | vrngf => apply EncodesBack.vrngf
  | vshape => apply EncodesBack.vshape
  | vwin => apply EncodesBack.vwin
  | vfmov => apply EncodesBack.vfmov
  | setfmt => apply EncodesBack.setfmt
  | stfmt => apply EncodesBack.stfmt
  | cp => apply EncodesBack.cp
  | cpstat => apply EncodesBack.cpstat
  | copyStart => apply EncodesBack.copyStart
  | copyComplete => apply EncodesBack.copyComplete
  | pass => apply EncodesBack.pass
  | passAck => apply EncodesBack.passAck
  | passr => apply EncodesBack.passr
  | passrAck => apply EncodesBack.passrAck
  | pebc => apply EncodesBack.pebc
  | pflr => apply EncodesBack.pflr
  | ptkt => apply EncodesBack.ptkt
  | phld => apply EncodesBack.phld
  | phldAck => apply EncodesBack.phldAck
  | phst => apply EncodesBack.phst
  | phstAck => apply EncodesBack.phstAck
  | psel => apply EncodesBack.psel
  | pselAck => apply EncodesBack.pselAck
  | dcmp => apply EncodesBack.dcmp
  | dcmpAck => apply EncodesBack.dcmpAck
  | paletteLoadStart => apply EncodesBack.paletteLoadStart
  | paletteLoadDone => apply EncodesBack.paletteLoadDone
  | paletteStoreStart => apply EncodesBack.paletteStoreStart
  | paletteStoreDone => apply EncodesBack.paletteStoreDone
  | paletteSwitch => apply EncodesBack.paletteSwitch
  | decompStart => apply EncodesBack.decompStart
  | decompDone => apply EncodesBack.decompDone
  | xmm => apply EncodesBack.xmm
  | xmmAck => apply EncodesBack.xmmAck
  | xmmStrict => apply EncodesBack.xmmStrict
  | xmmStrictAck => apply EncodesBack.xmmStrictAck
  | xmmStart => apply EncodesBack.xmmStart
  | xmmComplete => apply EncodesBack.xmmComplete
  | coll => apply EncodesBack.coll
  | cstat => apply EncodesBack.cstat
  | migr => apply EncodesBack.migr
  | spawn => apply EncodesBack.spawn
  | exit => apply EncodesBack.exit
  | cancelG => apply EncodesBack.cancelG
  | cancelGr => apply EncodesBack.cancelGr
  | cancelJ => apply EncodesBack.cancelJ
  | prmt => apply EncodesBack.prmt
  | gdep => apply EncodesBack.gdep
  | gcnt => apply EncodesBack.gcnt
  | amoAdd => apply EncodesBack.amoAdd
  | amoAnd => apply EncodesBack.amoAnd
  | amoOr => apply EncodesBack.amoOr
  | amoXor => apply EncodesBack.amoXor
  | amoMin => apply EncodesBack.amoMin
  | amoMax => apply EncodesBack.amoMax
  | amoMinn => apply EncodesBack.amoMinn
  | amoMaxn => apply EncodesBack.amoMaxn
  | amoSwap => apply EncodesBack.amoSwap
  | amoCas => apply EncodesBack.amoCas
  | amoFadd => apply EncodesBack.amoFadd
  | redAdd => apply EncodesBack.redAdd
  | redAnd => apply EncodesBack.redAnd
  | redOr => apply EncodesBack.redOr
  | redXor => apply EncodesBack.redXor
  | redMin => apply EncodesBack.redMin
  | redMax => apply EncodesBack.redMax
  | redMinn => apply EncodesBack.redMinn
  | redMaxn => apply EncodesBack.redMaxn
  | redFadd => apply EncodesBack.redFadd
  | amoHomePerform => apply EncodesBack.amoHomePerform
  | lrw => apply EncodesBack.lrw
  | scr => apply EncodesBack.scr
  | reservationGrant => apply EncodesBack.reservationGrant
  | reservationTimeout => apply EncodesBack.reservationTimeout
  | lde => apply EncodesBack.lde
  | stf => apply EncodesBack.stf
  | ldew => apply EncodesBack.ldew
  | stfw => apply EncodesBack.stfw
  | feq => apply EncodesBack.feq
  | give => apply EncodesBack.give
  | ownw => apply EncodesBack.ownw
  | bar => apply EncodesBack.bar
  | fence => apply EncodesBack.fence
  | rel => apply EncodesBack.rel
  | acq => apply EncodesBack.acq
  | orderingActionsDone => apply EncodesBack.orderingActionsDone
  | msend => apply EncodesBack.msend
  | mrecv => apply EncodesBack.mrecv
  | mend => apply EncodesBack.mend
  | varn => apply EncodesBack.varn
  | srr => apply EncodesBack.srr
  | srw => apply EncodesBack.srw
  | srset => apply EncodesBack.srset
  | srclr => apply EncodesBack.srclr
  | rtx => apply EncodesBack.rtx
  | sys => apply EncodesBack.sys
  | brk => apply EncodesBack.brk
  | clkm => apply EncodesBack.clkm
  | loadReturn => apply EncodesBack.loadReturn
  | storePerform => apply EncodesBack.storePerform
  | translationWalkDone => apply EncodesBack.translationWalkDone
  | wcDrain => apply EncodesBack.wcDrain
  | sysregEffectDone => apply EncodesBack.sysregEffectDone
  | tsinvPage => apply EncodesBack.tsinvPage
  | tsinvPid => apply EncodesBack.tsinvPid
  | tsinvAll => apply EncodesBack.tsinvAll
  | elevatorRetire => apply EncodesBack.elevatorRetire
  | elevatorReissue => apply EncodesBack.elevatorReissue
  | passStart => apply EncodesBack.passStart
  | leaveGrant => apply EncodesBack.leaveGrant
  | groupEntry => apply EncodesBack.groupEntry
  | groupOutput => apply EncodesBack.groupOutput
  | groupEmulate => apply EncodesBack.groupEmulate
  | passEnd => apply EncodesBack.passEnd
  | swatchInject => apply EncodesBack.swatchInject
  | thermalLoop => apply EncodesBack.thermalLoop
  | debcEval => apply EncodesBack.debcEval
  | otctlClr => apply EncodesBack.otctlClr
  | otctlClrEffect => apply EncodesBack.otctlClrEffect
  | otctlCal => apply EncodesBack.otctlCal
  | calibEnter => apply EncodesBack.calibEnter
  | otctlOff => apply EncodesBack.otctlOff
  | tileCalibDone => apply EncodesBack.tileCalibDone
  | messageArrive => apply EncodesBack.messageArrive
  | antiMessageArrive => apply EncodesBack.antiMessageArrive
  | msgfull => apply EncodesBack.msgfull
  | rollback => apply EncodesBack.rollback
  | vpRound => apply EncodesBack.vpRound
  | vpRoundAbandon => apply EncodesBack.vpRoundAbandon
  | fabricVpRound => apply EncodesBack.fabricVpRound
  | fabricVpRetry => apply EncodesBack.fabricVpRetry
  | varnishPerform => apply EncodesBack.varnishPerform
  | vjbsetWrite => apply EncodesBack.vjbsetWrite
  | mpsetWrite => apply EncodesBack.mpsetWrite
  | itemHop => apply EncodesBack.itemHop
  | ringRadiusGrow => apply EncodesBack.ringRadiusGrow
  | overflowPark => apply EncodesBack.overflowPark
  | pickup => apply EncodesBack.pickup
  | parkEvict => apply EncodesBack.parkEvict
  | deferredLaunch => apply EncodesBack.deferredLaunch
  | hostAddition => apply EncodesBack.hostAddition
  | cancelSweep => apply EncodesBack.cancelSweep
  | cancelTrap => apply EncodesBack.cancelTrap
  | cancelStopTimeout => apply EncodesBack.cancelStopTimeout
  | preemptWriteback => apply EncodesBack.preemptWriteback
  | prmto => apply EncodesBack.prmto
  | tilePin => apply EncodesBack.tilePin
  | tileUnpin => apply EncodesBack.tileUnpin
  | droopDetect => apply EncodesBack.droopDetect
  | governorAdjust => apply EncodesBack.governorAdjust
  | junctionOvertemp => apply EncodesBack.junctionOvertemp
  | xholdWrite => apply EncodesBack.xholdWrite
  | xfatalWrite => apply EncodesBack.xfatalWrite
  | sresumeWrite => apply EncodesBack.sresumeWrite
  | ftsetWrite => apply EncodesBack.ftsetWrite
  | dumpsetWrite => apply EncodesBack.dumpsetWrite
  | dumpSequence => apply EncodesBack.dumpSequence
  | compatEngineReset => apply EncodesBack.compatEngineReset
  | dbgstopStop => apply EncodesBack.dbgstopStop
  | dbgstopFree => apply EncodesBack.dbgstopFree
  | profctlWrite => apply EncodesBack.profctlWrite
  | profileCounterClear => apply EncodesBack.profileCounterClear
  | evpopRead => apply EncodesBack.evpopRead
  | registerWrite => apply EncodesBack.registerWrite
  | coldReset => apply EncodesBack.coldReset
  | warmReset => apply EncodesBack.warmReset
  | bootSequence => apply EncodesBack.bootSequence
  | aperturesOpen => apply EncodesBack.aperturesOpen
  | timeadjWrite => apply EncodesBack.timeadjWrite
  | fabcfgWrite => apply EncodesBack.fabcfgWrite
  | linkTrainDone => apply EncodesBack.linkTrainDone
  | keyctlGenerate => apply EncodesBack.keyctlGenerate
  | keyctlErase => apply EncodesBack.keyctlErase
  | keyctlDone => apply EncodesBack.keyctlDone
  | windowRead => apply EncodesBack.windowRead
  | windowWrite => apply EncodesBack.windowWrite
  | launchRecordWrite => apply EncodesBack.launchRecordWrite
  | serviceLaunch => apply EncodesBack.serviceLaunch
  | qctlWrite => apply EncodesBack.qctlWrite
  | qctlTear => apply EncodesBack.qctlTear
  | attest => apply EncodesBack.attest
  | ident => apply EncodesBack.ident
  | fwwrite => apply EncodesBack.fwwrite
  | mailboxCommandDone => apply EncodesBack.mailboxCommandDone
  | scanStart => apply EncodesBack.scanStart
  | scanDrainTimeout => apply EncodesBack.scanDrainTimeout
  | scanAbort => apply EncodesBack.scanAbort
  | scanPatternDone => apply EncodesBack.scanPatternDone
  | laserSwitchover => apply EncodesBack.laserSwitchover
  | laserSwitchoverDone => apply EncodesBack.laserSwitchoverDone
  | laserRequest => apply EncodesBack.laserRequest
  | laserTransitionDone => apply EncodesBack.laserTransitionDone
  | laserWake => apply EncodesBack.laserWake
  | lctlRetrain => apply EncodesBack.lctlRetrain
  | lctlEnable => apply EncodesBack.lctlEnable
  | laneFailingReport => apply EncodesBack.laneFailingReport
  | narrowNegotiateDone => apply EncodesBack.narrowNegotiateDone
  | laneHealthUpdate => apply EncodesBack.laneHealthUpdate
  | laneRecover => apply EncodesBack.laneRecover
  | lutilWindow => apply EncodesBack.lutilWindow
  | groupReceive => apply EncodesBack.groupReceive
  | nakReceive => apply EncodesBack.nakReceive
  | linkRecordReceive => apply EncodesBack.linkRecordReceive
  | tableAgree => apply EncodesBack.tableAgree
  | remoteRequestArrive => apply EncodesBack.remoteRequestArrive
  | remoteReplyArrive => apply EncodesBack.remoteReplyArrive
  | remoteReissue => apply EncodesBack.remoteReissue
  | requestAgeDiscard => apply EncodesBack.requestAgeDiscard
  | replyCacheRetry => apply EncodesBack.replyCacheRetry
  | migrationArrive => apply EncodesBack.migrationArrive
  | migrationAck => apply EncodesBack.migrationAck
  | migrationRefused => apply EncodesBack.migrationRefused
  | collStart => apply EncodesBack.collStart
  | collJoined => apply EncodesBack.collJoined
  | chunkReceive => apply EncodesBack.chunkReceive
  | chunkAckReceive => apply EncodesBack.chunkAckReceive
  | completionWave => apply EncodesBack.completionWave
  | collRestart => apply EncodesBack.collRestart
  | idleRound => apply EncodesBack.idleRound
  | illegalInstruction => apply EncodesBack.illegalInstruction
  | fetchFault => apply EncodesBack.fetchFault
  | prefetchFill => apply EncodesBack.prefetchFill
  | replyCacheExpiry => apply EncodesBack.replyCacheExpiry
  | softError => apply EncodesBack.softError

/-- Settles O32: the words of each instruction decode to it, whatever follows them. -/
theorem decodeInvertsEncode : Obligations.DecodeInvertsEncode := encodesBack

end Sys2Proof.Proofs

namespace Sys2Proof.Proofs

/-!
Steps of the machine: what a device-fatal device does with the turn that stands first (15 R392), which events stand on no agenda
of its, and a step as the decoded instruction.
-/

open Sys2Proof.Machine Sys2Proof.Claim

theorem step_regq_fatal {s : State} {off : Nat} {v : BitVec 64} {r : List (Nat × BitVec 64)} (fatal : s.plat.fatal = true)
    (hq : s.regq = (off, v) :: r) (hoff : off ≠ 8) : step s = .next { s with regq := r } := by
  simp [step, hq, fatal, isRecovery, hoff]

theorem step_core_fatal {s : State} {n : Nat} {r : List Turn} (fatal : s.plat.fatal = true)
    (hq : s.regq = []) (ha : s.agenda = .core n :: r) : step s = .next { s with agenda := r } := by
  simp [step, State.turn, hq, ha, fatal]

theorem step_event_fatal {s : State} {i : Instr} {r : List Turn} (fatal : s.plat.fatal = true)
    (hq : s.regq = []) (ha : s.agenda = .event i :: r) (hi : isRecovery i = false) :
    step s = .next { s with agenda := r } := by
  simp [step, State.turn, hq, ha, fatal, hi]

theorem step_idle_fatal {s : State} (fatal : s.plat.fatal = true) (hq : s.regq = []) (ha : s.agenda = []) :
    step s = .fault .deviceFatal := by
  simp [step, State.turn, hq, ha, fatal]

/-- Settles O35: by what stands first, a store on its way, a core's turn or an event, or nothing. -/
theorem deviceFatalStays : Obligations.DeviceFatalStays := by
  intro s fatal noReset noResetWrite
  refine ⟨fun hq ha => step_idle_fatal fatal hq ha, fun t ht => ?_⟩
  cases hq : s.regq with
  | cons e r =>
    obtain ⟨off, v⟩ := e
    have hoff : off ≠ 8 := noResetWrite (off, v) (by simp [hq])
    obtain rfl : _ = t := by simpa [step_regq_fatal fatal hq hoff] using ht
    refine ⟨fatal, noReset, fun e he => noResetWrite e (by simp [hq, he]), by simp [← hq], ?_⟩
    simp only [List.length_cons]
    omega
  | nil =>
    cases ha : s.agenda with
    | nil => simp [step_idle_fatal fatal hq ha] at ht
    | cons turn r =>
      have dropped : step s = .next { s with agenda := r } := by
        cases turn with
        | core n => exact step_core_fatal fatal hq ha
        | event i => exact step_event_fatal fatal hq ha (noReset i (by simp [ha]))
      obtain rfl : _ = t := by simpa [dropped] using ht
      refine ⟨fatal, fun i hi => noReset i (by simp [ha, hi]), noResetWrite, by simp [← ha, ← hq], ?_⟩
      simp [hq]

/-- Settles O31: by evaluation of the decoder on each word. -/
theorem decodedWords : Obligations.DecodedWords := by
  unfold Obligations.DecodedWords
  decide

end Sys2Proof.Proofs

namespace Sys2Proof.Proofs

/-!
What a cold reset leaves (16 R412): every slot, core, tile and queue is that of its own reset value, whatever its number.
-/

open Sys2Proof.Machine

@[simp] theorem reset_slotAt (n : Nat) : State.reset.slotAt n = Slot.vacant := by
  unfold State.slotAt
  split <;> rfl

@[simp] theorem reset_tile (t : Nat) : State.reset.tile t = Tile.reset := rfl

@[simp] theorem reset_core (c : Nat) : State.reset.core c = Core.reset := rfl

@[simp] theorem reset_queue (q : Nat) : State.reset.queue q = LaunchQueue.reset := rfl

theorem reset_bank {b : Nat} (hb : b < 16) : Tile.reset.bank b = Bank.reset := by
  simp [Tile.bank, Tile.reset, hb]

theorem reset_ports : ∀ p ∈ State.reset.ports.toList, p = Port.reset :=
  fun _ hp => List.eq_of_mem_replicate (n := 8) hp

/-- Settles O33: what a slot, a core, a tile, a queue and a port read is their own reset value. -/
theorem resetState : Obligations.ResetState := by
  unfold Obligations.ResetState
  intro s
  have bank (t b : Nat) (hb : b < 16) : ((s.tile t).bank b).mode = 0 := by
    rw [reset_tile, reset_bank hb]
    rfl
  have port (p : Port) (hp : p ∈ s.ports.toList) : p.en = true ∧ p.skid = false ∧ p.maxw = 4 ∧ p.state = 0 := by
    rw [reset_ports p hp]
    decide
  refine ⟨fun n => congrArg Slot.occ (reset_slotAt n), rfl, rfl, rfl, rfl, rfl, rfl, rfl, rfl, rfl, rfl, rfl, by decide, by decide, rfl, by decide,
    fun t => ⟨rfl, rfl, rfl, rfl, rfl, rfl, rfl, bank t⟩, fun c => ⟨rfl, rfl, rfl⟩, fun q => ⟨rfl, rfl⟩,
    rfl, rfl, rfl, rfl, rfl, port, rfl⟩

end Sys2Proof.Proofs

namespace Sys2Proof.Proofs

/-!
A step as the decoded instruction (02 R25, R30, R32; 03 R50): what a fetch from host memory gives, what a visit finds, and the
turn of a core whose slot acts with an instruction.
-/

open Sys2Proof.Machine Sys2Proof.Claim

theorem buffered_of_no_loops {x : Slot} (h : x.loops = []) (a : Word) : x.buffered a = none := by
  simp [Slot.buffered, h]

theorem consume_of_no_poison {s : State} (h : s.poison = []) (slot : Option Nat) (pid : BitVec 12) (a n : Nat) :
    s.consume slot pid a n = s := by
  simp [State.consume, h]

theorem fetchWord_host {s s1 : State} {n : Nat} {a : Word} {x : Xlate}
    (ht : s.translate (slotQuad n) (s.slotAt n).pid (s.slotAt n).status.exec a .fetch = (.ok x, s1))
    (hr : s1.region x.pa = .host) (hp : s1.poison = []) :
    s.fetchWord n a = (.ok (some (BitVec.ofNat 32 (leNat (memBytes s1.mem x.pa 4)))), s1) := by
  simp [State.fetchWord, State.fetchBy, ht, hr, consume_of_no_poison hp, State.paRead]

/-- A word read past the loop buffer is what the fetch answers. -/
theorem fetchAt_of_fetchWord {s s1 : State} {n : Nat} {a : Word} {w : BitVec 32} (hb : (s.slotAt n).buffered a = none)
    (h : s.fetchWord n a = (.ok (some w), s1)) : (s.fetchAt n a).1 = .ok (some w) := by
  simp [State.fetchAt, hb, h]

theorem fetchRest_of_decode {s : State} {n : Nat} {pc : Word} {w k : BitVec 32} {i : Instr} (hd : decodeWord w k = some i)
    (hk : (isCarrier w = false ∧ k = 0) ∨
      (isCarrier w = true ∧ pc.toNat % 8 = 0 ∧ (s.fetchAt n (pc + 4)).1 = .ok (some k))) :
    (s.fetchRest n pc w).1 = .instr i := by
  rcases hk with ⟨hc, rfl⟩ | ⟨hc, h8, hf⟩
  · simp only [State.fetchRest, hc, hd, Bool.not_false, if_true]
  · rcases hr : s.fetchAt n (pc + 4) with ⟨r, s1⟩
    obtain rfl : r = .ok (some k) := by rwa [hr] at hf
    simp only [State.fetchRest, hc, h8, hr, hd, Bool.not_true, Bool.false_eq_true, ne_eq, not_true, if_false]

theorem fetchNext_of_fetchAt {s : State} {n : Nat} {w : BitVec 32} {f : Fetched} (ha : (s.slotAt n).pc.toNat % 4 = 0)
    (hl : (s.slotAt n).landed = false) (hw : (s.fetchAt n (s.slotAt n).pc).1 = .ok (some w))
    (hf : ((s.fetchAt n (s.slotAt n).pc).2.fetchRest n (s.slotAt n).pc w).1 = f) : (s.fetchNext n).1 = f := by
  rcases hr : s.fetchAt n (s.slotAt n).pc with ⟨r, s1⟩
  obtain rfl : r = .ok (some w) := by simpa [hr] using hw
  rw [hr] at hf
  simp [State.fetchNext, ha, hr, hl, hf]

/-- Nothing holds the slot before its fetch: the visit is that of the fetched instruction. -/
theorem visit_eq_visitFetched {s : State} {n : Nat} (hocc : (s.slotAt n).occ = true) (hfr : s.isFrozen (s.slotAt n).pid = false)
    (hb : s.boundary n = none) (hpark : (s.slotAt n).park = none) (hprmto : (s.slotAt n).bound.prmto = false)
    (hlate : (s.slotAt n).bound.late = none) (hopt : (s.slotAt n).record.opt = false)
    (hnb : (s.slotAt n).notBefore ≤ (s.core (n / 16)).cycle) : s.visit n = s.visitFetched n (s.fetchNext n).1 := by
  simp [State.visit, hocc, hfr, hb, hpark, hprmto, hlate, hopt, Nat.not_lt.mpr hnb]

theorem visitFetched_instr {s : State} {n : Nat} {i : Instr} (hskips : (s.slotAt n).skips = 0)
    (hunit : (s.core (n / 16)).unitBusy (instrUse (s.slotAt n) i).unit = false) (hsend : s.sendsFirst n i = false)
    (hheld : s.accessHeld n i = false) (hlate : (s.slotAt n).lateAt i (instrUse (s.slotAt n) i).needs = none)
    (hready : (s.slotAt n).notReady (s.core (n / 16)).cycle (instrUse (s.slotAt n) i).needs = false)
    (hpend : ∀ r ∈ s.pendingRegs n, r ∉ (instrUse (s.slotAt n) i).needs ∧ r ∉ (instrUse (s.slotAt n) i).writes)
    (hacks : ∀ d ∈ (s.slotAt n).acks, RegName.g d.toNat ∉ (instrUse (s.slotAt n) i).needs ∧
      RegName.g d.toNat ∉ (instrUse (s.slotAt n) i).writes) :
    s.visitFetched n (.instr i) = .act (.instr i false) := by
  have pend : ∀ r ∈ s.pendingRegs n, ¬(((instrUse (s.slotAt n) i).needs.contains r ||
      (instrUse (s.slotAt n) i).writes.contains r) = true) := by
    intro r hr
    simpa using hpend r hr
  have acks : ∀ r ∈ (s.slotAt n).acks.map (fun d => RegName.g d.toNat),
      ¬(((instrUse (s.slotAt n) i).needs.contains r || (instrUse (s.slotAt n) i).writes.contains r) = true) := by
    intro r hr
    obtain ⟨d, hd, rfl⟩ := List.mem_map.mp hr
    simpa using hacks d hd
  simp only [State.visitFetched, hskips, hunit, hsend, hheld, hlate, hready, List.any_eq_false.mpr pend,
    List.any_eq_false.mpr acks, Nat.lt_irrefl, Bool.false_and, Bool.false_eq_true, if_false]

theorem consumeRegs_of_none {s : State} {n : Nat} (h : (s.slotAt n).badRegs = []) (sel : RegName → Bool) :
    s.consumeRegs n sel = s := by
  simp [State.consumeRegs, h]

theorem step_of_no_regq {s : State} (hq : s.regq = []) : step s = s.turn := by
  simp only [step, hq]

theorem turn_core {s : State} {core : Nat} {r : List Turn} (ha : s.agenda = .core core :: r) (hf : s.plat.fatal = false) :
    s.turn = ({ s with agenda := r } : State).coreTurn core := by
  simp [State.turn, ha, hf]

theorem coreTurn_act {s : State} {core n : Nat} {passes : List (Nat × SlotPass)} {a : Act}
    (hs : s.scanRound (s.roundSlots core) = (passes, some (n, a))) : s.coreTurn core = s.perform core n passes a := by
  simp only [State.coreTurn, hs]

/-- A slot that acts with an instruction executes it once the registers it reads are consumed; one cycle passes then. -/
theorem perform_instr {s t : State} {core n : Nat} {passes : List (Nat × SlotPass)} {i : Instr} {hf : Bool}
    (h : exec i (((s.enterVisit core n passes).fetched n hf).consumeRegs n
      (instrUse (((s.enterVisit core n passes).fetched n hf).slotAt n) i).needs.contains) = .next t) :
    s.perform core n passes (.instr i hf) =
      let pre := (((s.enterVisit core n passes).fetched n hf).consumeRegs n
        (instrUse (((s.enterVisit core n passes).fetched n hf).slotAt n) i).needs.contains).slotAt n
      .next ((t.issued core n pre (instrUse pre i)).tick core) := by
  simp only [State.perform, h, andThen]

theorem exec_registerWrite (off : Nat) (v : BitVec 64) (s : State) :
    exec (.registerWrite off v) s = .next (s.regWrite off v) := rfl

/-- Settles O30: fetch, visit, round and turn each take the branch that the hypotheses name. -/
theorem stepRunsDecoded : Obligations.StepRunsDecoded := by
  refine ⟨?fetch, ?visit, ?scan, ?turn, ?reg⟩
  case fetch =>
    intro s s1 n a x hl ht hr hp
    exact fetchAt_of_fetchWord (buffered_of_no_loops hl a) (fetchWord_host ht hr hp)
  case visit =>
    intro s n w k i x c hocc hfr hb hpark hprmto hlate hopt hnb hlanded hskips hpc hw hd hk u hunit hsend hheld hlateAt hready
      hpend hacks
    rw [visit_eq_visitFetched hocc hfr hb hpark hprmto hlate hopt hnb,
      fetchNext_of_fetchAt hpc hlanded hw (fetchRest_of_decode hd hk)]
    exact visitFetched_instr hskips hunit hsend hheld hlateAt hready hpend hacks
  case scan =>
    intro s n r a hv
    simp [State.scanRound, hv]
  case turn =>
    intro s core n r passes i hq ha hf s0 hs s2 s1 pre
    refine ⟨fun hbad => consumeRegs_of_none hbad _, fun t ht => ?_⟩
    rw [step_of_no_regq hq, turn_core ha hf, coreTurn_act hs]
    exact perform_instr ht
  case reg =>
    intro s off v r hq hf
    simp [step, hq, hf, exec_registerWrite]

end Sys2Proof.Proofs

namespace Sys2Proof.Proofs

/-!
Scalar forms on registers, immediates, the constant bank and literals (03 R55, R57, R58, R60, R62, R65 to R69; 07 R175): each
checks nothing but its words and then writes one value, which the lemmas on words bring into the form of the statements.
-/

open Sys2Proof.Machine Sys2Proof.Claim

/-! ## Values -/

theorem writesG_of_issue_eq {s : State} {c : Need} {i : Instr} {h : BitVec 2} {d : BitVec 5} {v w : Word}
    (ready : Ready s c) (meaning : exec i s = s.issue c (s.doneG h d v)) (e : v = w) : WritesG s i h d w :=
  e ▸ writesG_of_issue ready meaning

theorem writesGF_of_issue_eq {s : State} {c : Need} {i : Instr} {len : Nat} {h : BitVec 2} {d : BitVec 5} {v w : Word}
    {fl : BitVec 6} (ready : Ready s c) (meaning : exec i s = s.issue c (s.doneFlags len h d v fl)) (e : v = w) :
    WritesGF s i len h d w fl :=
  e ▸ writesGF_of_issue ready meaning

/-- The model's word of a Boolean is the statements' word of the proposition that it decides. -/
theorem boolWord_eq_truth {b : Bool} {p : Prop} [Decidable p] (h : b = true ↔ p) : boolWord b = truth p := by
  unfold boolWord truth
  simp only [h]

theorem slt_iff_toInt_lt {x y : Word} : x.slt y = true ↔ x.toInt < y.toInt := by
  rw [BitVec.slt_iff_toInt_lt]

theorem ult_iff_toNat_lt {x y : Word} : x.ult y = true ↔ x.toNat < y.toNat := by
  rw [BitVec.ult_iff_lt, BitVec.lt_def]

theorem not_slt_iff_toInt_le {x y : Word} : (!x.slt y) = true ↔ y.toInt ≤ x.toInt := by
  rw [Bool.not_eq_true', ← Bool.not_eq_true, slt_iff_toInt_lt, Int.not_lt]

theorem not_ult_iff_toNat_le {x y : Word} : (!x.ult y) = true ↔ y.toNat ≤ x.toNat := by
  rw [Bool.not_eq_true', ← Bool.not_eq_true, ult_iff_toNat_lt, Nat.not_lt]

theorem rotateLeft_of_lt {n : Nat} (x : BitVec n) {c : Nat} (hc : c < n) : x.rotateLeft c = x <<< c ||| x >>> (n - c) := by
  rw [BitVec.rotateLeft_def, Nat.mod_eq_of_lt hc]

theorem setWidth_eq_low (n : Nat) (x : Word) (hn : n ≤ 64) : x.setWidth n = x.extractLsb' 0 n :=
  BitVec.setWidth_eq_extractLsb' hn

/-! ## Shifts, `.w` forms and immediates -/

theorem immCount_lt (n : BitVec 5) (m : BitVec 1) : immCount n m < 64 := by
  have := n.isLt
  have := m.isLt
  unfold immCount
  omega

/-- Settles O2: a count is below 64, so that a rotation is the two shifts. -/
theorem shiftForms : Obligations.ShiftForms := by
  intro s d a b n m h ready x c k
  have count : c < 64 := Nat.mod_lt _ (by decide)
  exact ⟨writesG_of_issue ready rfl, writesG_of_issue ready rfl, writesG_of_issue ready rfl, writesG_of_issue ready rfl,
    writesG_of_issue ready rfl, writesG_of_issue ready rfl,
    writesG_of_issue_eq ready rfl (rotateLeft_of_lt x count), writesG_of_issue_eq ready rfl (rotateLeft_of_lt x (immCount_lt n m))⟩

theorem divSigned_eq {n : Nat} (x y : BitVec n) :
    divSigned x y = if y = 0 then BitVec.allOnes n else BitVec.ofInt n (x.toInt.tdiv y.toInt) := by
  unfold divSigned
  congr 1
  exact BitVec.eq_of_toInt_eq (by rw [BitVec.toInt_sdiv, BitVec.toInt_ofInt])

theorem divUnsigned_eq {n : Nat} (x y : BitVec n) :
    divUnsigned x y = if y = 0 then BitVec.allOnes n else BitVec.ofNat n (x.toNat / y.toNat) := by
  unfold divUnsigned
  congr 1
  exact BitVec.eq_of_toNat_eq (by rw [BitVec.udiv_eq, BitVec.toNat_udiv, BitVec.toNat_ofNat, Nat.mod_eq_of_lt]; exact (Nat.div_le_self _ _).trans_lt x.isLt)

theorem remSigned_eq {n : Nat} (x y : BitVec n) :
    remSigned x y = if y = 0 then x else BitVec.ofInt n (x.toInt.tmod y.toInt) := by
  unfold remSigned
  congr 1
  rw [← BitVec.toInt_srem, BitVec.ofInt_toInt]

theorem remUnsigned_eq {n : Nat} (x y : BitVec n) :
    remUnsigned x y = if y = 0 then x else BitVec.ofNat n (x.toNat % y.toNat) := by
  unfold remUnsigned
  congr 1
  exact BitVec.eq_of_toNat_eq (by rw [BitVec.umod_eq, BitVec.toNat_umod, BitVec.toNat_ofNat, Nat.mod_eq_of_lt ((Nat.mod_le _ _).trans_lt x.isLt)])

/-- A `.w` form that completes with its 32-bit result on low halves writes it sign-extended. -/
theorem writesG_wordResult {s : State} {i : Instr} {h : BitVec 2} {d : BitVec 5} {r w : BitVec 32} (ready : Ready s Need.any)
    (meaning : exec i s = s.issue Need.any (s.doneG h d (wordResult r))) (e : r = w) : WritesG s i h d (w.signExtend 64) :=
  writesG_of_issue_eq ready meaning (congrArg wordResult e)

/-- Settles O3: the low half is the field [31:0], and each 32-bit result is the one named. -/
theorem wordForms : Obligations.WordForms := by
  intro s d a b n h ready x y c W
  have hx : lowW (s.hart.getG a) = x := setWidth_eq_low 32 _ (by decide)
  have hy : lowW (s.hart.getG b) = y := setWidth_eq_low 32 _ (by decide)
  have count : c < 32 := Nat.mod_lt _ (by decide)
  have word {i : Instr} {r w : BitVec 32} (meaning : exec i s = s.issue Need.any (s.doneG h d (wordResult r)))
      (e : r = w) : W i w := writesG_wordResult ready meaning e
  refine ⟨word rfl ?_, word rfl ?_, word rfl ?_, word rfl ?_, word rfl ?_, word rfl ?_, word rfl ?_, word rfl ?_,
    word rfl ?_, word rfl ?_, word rfl ?_, word rfl ?_, word rfl ?_, word rfl ?_, word rfl ?_⟩ <;> rw [hx]
  · rw [hy]
  · rw [hy]
  · rw [hy]
  · rw [hy, divSigned_eq]; rfl
  · rw [hy, divUnsigned_eq]; rfl
  · rw [hy, remSigned_eq]
  · rw [hy, remUnsigned_eq]
  · exact rotateLeft_of_lt x count
  · exact rotateLeft_of_lt x n.isLt

/-- Settles O5: each form completes with its operation on the sign-extended immediate. -/
theorem immediateForms : Obligations.ImmediateForms := by
  intro s d a imm h ready x y
  exact ⟨writesG_of_issue ready rfl, writesG_of_issue ready rfl, writesG_of_issue ready rfl, writesG_of_issue ready rfl,
    writesG_of_issue_eq ready rfl (boolWord_eq_truth slt_iff_toInt_lt),
    writesG_of_issue_eq ready rfl (boolWord_eq_truth ult_iff_toNat_lt)⟩

/-! ## Scalar floating point -/

theorem getW_toNat (x : Slot) (n : BitVec 5) : (x.getW n).toNat = (x.getG n).toNat % 2 ^ 32 := BitVec.toNat_setWidth _ _

theorem getF_eq_mod (x : Slot) (n : BitVec 5) : x.getF n = d32 ((x.getG n).toNat % 2 ^ 32) := congrArg d32 (getW_toNat x n)

theorem abs_word (x : Word) : (x.setWidth 32 &&& 0x7FFFFFFF).setWidth 64 = BitVec.ofNat 64 (x.toNat % 2 ^ 31) := by
  apply BitVec.eq_of_toNat_eq
  have mask : ((0x7FFFFFFF : BitVec 32)).toNat = 2 ^ 31 - 1 := by decide
  rw [BitVec.toNat_setWidth, BitVec.toNat_and, BitVec.toNat_setWidth, mask, Nat.and_two_pow_sub_one_eq_mod, BitVec.toNat_ofNat]
  omega

/-- Settles O6: each form completes with its operation on the FP32 values of the low halves. -/
theorem floatRegisterForms : Obligations.FloatRegisterForms := by
  intro s d a b r h ready x y z F C
  have hx : s.hart.getF a = x := getF_eq_mod _ _
  have hy : s.hart.getF b = y := getF_eq_mod _ _
  have hz : s.hart.getF d = z := getF_eq_mod _ _
  have rounds {i : Instr} {rm : Nat} {v w : FRes} (meaning : exec i s = s.issue Need.any (s.doneFp 4 h d rm v))
      (e : v = w) : F i rm w := e ▸ writesGF_of_issue ready meaning
  have compares {i : Instr} {rel : Nat} (meaning : exec i s = s.issue Need.any
      (s.doneFlags 4 h d (boolWord (fRel fmt32 rel (s.hart.getF a) (s.hart.getF b)).1)
        (fRel fmt32 rel (s.hart.getF a) (s.hart.getF b)).2)) : C i rel := by
    rw [hx, hy] at meaning
    exact writesGF_of_issue_eq ready meaning (boolWord_eq_truth Iff.rfl)
  refine ⟨rounds rfl ?_, rounds rfl ?_, rounds rfl ?_, rounds rfl ?_, rounds rfl ?_, rounds rfl ?_, rounds rfl ?_,
    rounds rfl ?_, rounds rfl ?_, writesG_of_issue_eq ready rfl (abs_word _), writesG_of_issue_eq ready rfl ?_,
    compares rfl, compares rfl, compares rfl, compares rfl⟩
  case refine_10 => rw [Slot.getW, setWidth_eq_low 32 _ (by decide)]
  all_goals simp only [hx, hy, hz]

/-- Settles O8: each conversion completes with the model's conversion of its operand. -/
theorem floatConversionForms : Obligations.FloatConversionForms := by
  intro s d a r h imm ready g x ToInt OfInt
  have hx : s.hart.getF a = x := getF_eq_mod _ _
  have toInt {i : Instr} {w : Nat} {signed : Bool} (meaning : exec i s = s.issue Need.any
      (s.doneFlags 4 h d (BitVec.ofInt 64 (floatToInt (s.hart.getF a) w signed r.toNat).1)
        (floatToInt (s.hart.getF a) w signed r.toNat).2)) : ToInt i w signed := by
    rw [hx] at meaning
    exact writesGF_of_issue ready meaning
  have ofInt {i : Instr} {u v w : Nat} {signed : Bool} (meaning : exec i s = s.issue Need.any
      (s.doneFlags 4 h d (BitVec.ofNat 64 (convert u (.int w signed) (.flt (.ieee fmt32)) r.toNat).1)
        (convert u (.int w signed) (.flt (.ieee fmt32)) r.toNat).2)) (e : u = v) : OfInt i v w signed :=
    e ▸ writesGF_of_issue ready meaning
  exact ⟨toInt rfl, toInt rfl, toInt rfl, toInt rfl, ofInt rfl (getW_toNat _ _), ofInt rfl rfl, ofInt rfl (getW_toNat _ _),
    ofInt rfl rfl, writesG_of_issue ready rfl⟩

/-! ## Constants and literals -/

/-- The two forms of a function write its value and flags: with K from the constant bank past one word, and with K from the
literal past two. -/
def WritesBoth (s : State) (k : BitVec 8) (lit : BitVec 32) (h : BitVec 2) (d : BitVec 5) (i j : Instr)
    (f : BitVec 32 → Word × BitVec 6) : Prop :=
  WritesGF s i 4 h d (f (s.hart.getK k)).1 (f (s.hart.getK k)).2 ∧ WritesGF s j 8 h d (f lit).1 (f lit).2

section Both

variable {s : State} {k : BitVec 8} {lit : BitVec 32} {h : BitVec 2} {d : BitVec 5} {i j : Instr}

theorem writesBoth_fp (f : BitVec 32 → FRes) (ready : Ready s Need.any)
    (bank : exec i s = s.issue Need.any (s.doneFp 4 h d 0 (f (s.hart.getK k))))
    (literal : exec j s = s.issue Need.any (s.doneFp 8 h d 0 (f lit))) :
    WritesBoth s k lit h d i j (fun c => (BitVec.ofNat 64 (f32 0 (f c)).1, (f32 0 (f c)).2)) :=
  ⟨writesGF_of_issue ready bank, writesGF_of_issue ready literal⟩

theorem writesBoth_word (f : BitVec 32 → Word) (ready : Ready s Need.any)
    (bank : exec i s = s.issue Need.any (s.doneFlags 4 h d (f (s.hart.getK k)) 0))
    (literal : exec j s = s.issue Need.any (s.doneFlags 8 h d (f lit) 0)) :
    WritesBoth s k lit h d i j (fun c => (f c, 0)) :=
  ⟨writesGF_of_issue ready bank, writesGF_of_issue ready literal⟩

end Both

theorem truth_eq_eq_boolWord (x y : Word) : truth (x = y) = boolWord (decide (x = y)) :=
  (boolWord_eq_truth decide_eq_true_iff).symm

theorem truth_lt_eq_boolWord (x y : Word) : truth (x.toInt < y.toInt) = boolWord (x.slt y) :=
  (boolWord_eq_truth slt_iff_toInt_lt).symm

/-- Settles O9: the two forms of a function complete alike, but for the operand and the words they go past. -/
theorem constantAndLiteralForms : Obligations.ConstantAndLiteralForms := by
  intro s d a k lit h ready g x z kk Both fp
  have hx : x = s.hart.getF a := (getF_eq_mod _ _).symm
  have hz : z = s.hart.getF d := (getF_eq_mod _ _).symm
  rw [hx, hz]
  simp only [truth_eq_eq_boolWord, truth_lt_eq_boolWord]
  exact ⟨writesBoth_fp (fun c => fAdd fmt32 0 (s.hart.getF a) (d32 c.toNat)) ready rfl rfl,
    writesBoth_fp (fun c => fSub fmt32 0 (s.hart.getF a) (d32 c.toNat)) ready rfl rfl,
    writesBoth_fp (fun c => fMul fmt32 (s.hart.getF a) (d32 c.toNat)) ready rfl rfl,
    writesBoth_fp (fun c => fFma fmt32 0 false (s.hart.getF d) (s.hart.getF a) (d32 c.toNat)) ready rfl rfl,
    writesBoth_fp (fun c => fFma fmt32 0 true (s.hart.getF d) (s.hart.getF a) (d32 c.toNat)) ready rfl rfl,
    writesBoth_fp (fun c => fMinMax fmt32 false (s.hart.getF a) (d32 c.toNat)) ready rfl rfl,
    writesBoth_fp (fun c => fMinMax fmt32 true (s.hart.getF a) (d32 c.toNat)) ready rfl rfl,
    writesBoth_word zextK ready rfl rfl, writesBoth_word (g + sextK ·) ready rfl rfl,
    writesBoth_word (g &&& sextK ·) ready rfl rfl, writesBoth_word (g ||| sextK ·) ready rfl rfl,
    writesBoth_word (g ^^^ sextK ·) ready rfl rfl, writesBoth_word sextK ready rfl rfl, writesBoth_word zextK ready rfl rfl,
    writesBoth_word (fun c => boolWord (decide (g = sextK c))) ready rfl rfl,
    writesBoth_word (fun c => boolWord (g.slt (sextK c))) ready rfl rfl⟩

end Sys2Proof.Proofs

namespace Sys2Proof.Proofs

/-!
Bytes of numbers (00 R2): the little-endian bytes of a number and the number of a list of bytes, byte by byte.
-/

open Sys2Proof.Machine

@[simp] theorem length_natLe : ∀ n v : Nat, (natLe n v).length = n
  | 0, _ => rfl
  | n + 1, v => congrArg Nat.succ (length_natLe n (v / 256))

theorem getElem?_natLe : ∀ {n v j : Nat}, j < n → (natLe n v)[j]? = some (BitVec.ofNat 8 (v / 256 ^ j))
  | 0, _, _, h => absurd h (Nat.not_lt_zero _)
  | n + 1, v, 0, _ => by simp [natLe]
  | n + 1, v, j + 1, h => by
    rw [natLe, List.getElem?_cons_succ, getElem?_natLe (Nat.lt_of_succ_lt_succ h), Nat.div_div_eq_div_mul, ← Nat.pow_succ']

theorem leNat_lt (l : List Byte) : leNat l < 256 ^ l.length := by
  induction l with
  | nil => exact Nat.one_pos
  | cons b l ih =>
    have := b.isLt
    rw [leNat, List.length_cons, Nat.pow_succ]
    omega

theorem leNat_digit : ∀ (l : List Byte) (j : Nat), leNat l / 256 ^ j % 256 = (l[j]?.getD 0).toNat
  | [], j => by simp [leNat]
  | b :: l, 0 => by
    have := b.isLt
    rw [leNat]
    simp only [pow_zero, Nat.div_one, List.getElem?_cons_zero, Option.getD_some]
    omega
  | b :: l, j + 1 => by
    have := b.isLt
    have tail : (b.toNat + 256 * leNat l) / 256 = leNat l := by omega
    rw [leNat, List.getElem?_cons_succ, ← leNat_digit l j, Nat.pow_succ', ← Nat.div_div_eq_div_mul, tail]

end Sys2Proof.Proofs

namespace Sys2Proof.Proofs

/-!
Integer forms on registers (03 R55): the words that the two-operand forms write, and what counts, reversals and extensions give.
-/

open Sys2Proof.Machine Sys2Proof.Claim

/-! ## Two operands -/

theorem mul_eq_ofNat (x y : Word) : x * y = BitVec.ofNat 64 (x.toNat * y.toNat) :=
  BitVec.eq_of_toNat_eq (by rw [BitVec.toNat_mul, BitVec.toNat_ofNat])

/-- A choice by `<` is one by `≤` where equal keys leave nothing to choose. -/
theorem ite_lt_eq_ite_le {κ α : Type} [LinearOrder κ] {k l : κ} {b : Bool} (hb : b = true ↔ k < l) {u v : α}
    (tie : k = l → u = v) : (if b then u else v) = if k ≤ l then u else v := by
  rcases lt_trichotomy k l with h | h | h
  · rw [if_pos (hb.mpr h), if_pos h.le]
  · rw [tie h, ite_self, ite_self]
  · rw [if_neg (fun e => absurd (hb.mp e) h.asymm), if_neg h.not_ge]

/-- The forms of 03 R55 on two registers. -/
theorem integerRegisterForms : IntegerRegisterForms := by
  intro s d a b h ready x y
  have signed (u v : Word → Word → Word) (e : ∀ z, u z z = v z z) :
      (if x.slt y then u x y else v x y) = if x.toInt ≤ y.toInt then u x y else v x y :=
    ite_lt_eq_ite_le slt_iff_toInt_lt (fun k => by rw [BitVec.eq_of_toInt_eq k, e])
  have unsigned (u v : Word → Word → Word) (e : ∀ z, u z z = v z z) :
      (if x.ult y then u x y else v x y) = if x.toNat ≤ y.toNat then u x y else v x y :=
    ite_lt_eq_ite_le ult_iff_toNat_lt (fun k => by rw [BitVec.eq_of_toNat_eq k, e])
  exact ⟨writesG_of_issue ready rfl, writesG_of_issue ready rfl, writesG_of_issue ready rfl, writesG_of_issue ready rfl,
    writesG_of_issue ready rfl, writesG_of_issue ready rfl, writesG_of_issue ready rfl, writesG_of_issue ready rfl,
    writesG_of_issue_eq ready rfl (mul_eq_ofNat x y), writesG_of_issue ready rfl, writesG_of_issue ready rfl,
    writesG_of_issue_eq ready rfl (signed (fun x _ => x) (fun _ y => y) fun _ => rfl),
    writesG_of_issue_eq ready rfl (signed (fun _ y => y) (fun x _ => x) fun _ => rfl),
    writesG_of_issue_eq ready rfl (unsigned (fun x _ => x) (fun _ y => y) fun _ => rfl),
    writesG_of_issue_eq ready rfl (unsigned (fun _ y => y) (fun x _ => x) fun _ => rfl),
    writesG_of_issue_eq ready rfl (boolWord_eq_truth decide_eq_true_iff),
    writesG_of_issue_eq ready rfl (boolWord_eq_truth decide_eq_true_iff),
    writesG_of_issue_eq ready rfl (boolWord_eq_truth slt_iff_toInt_lt),
    writesG_of_issue_eq ready rfl (boolWord_eq_truth not_slt_iff_toInt_le),
    writesG_of_issue_eq ready rfl (boolWord_eq_truth ult_iff_toNat_lt),
    writesG_of_issue_eq ready rfl (boolWord_eq_truth not_ult_iff_toNat_le), writesG_of_issue ready rfl⟩

/-! ## One operand -/

theorem clz64_le (x : Word) : clz64 x ≤ 64 := by
  unfold clz64
  split <;> omega

theorem log2_lt_of_ne_zero {x : Word} (hx : x ≠ 0) : Nat.log2 x.toNat < 64 :=
  (Nat.log2_lt (fun h => hx (BitVec.eq_of_toNat_eq h))).mpr x.isLt

theorem clz64_zeros (x : Word) {j : Nat} (hj : j < clz64 x) : x.getLsbD (63 - j) = false := by
  by_cases hx : x = 0
  · rw [hx]
    exact BitVec.getLsbD_zero
  · rw [clz64, if_neg hx] at hj
    have := log2_lt_of_ne_zero hx
    exact Nat.testBit_lt_two_pow ((Nat.log2_lt (fun h => hx (BitVec.eq_of_toNat_eq h))).mp (by omega))

theorem clz64_one (x : Word) (h : clz64 x < 64) : x.getLsbD (63 - clz64 x) = true := by
  have hx : x ≠ 0 := by
    rintro rfl
    exact absurd h (by decide)
  have := log2_lt_of_ne_zero hx
  rw [clz64, if_neg hx, show 63 - (63 - Nat.log2 x.toNat) = Nat.log2 x.toNat by omega]
  exact Nat.testBit_log2 (fun h => hx (BitVec.eq_of_toNat_eq h))

theorem ctzFrom_le (x : Word) : ∀ (n i : Nat), ctzFrom x i n ≤ n
  | 0, _ => Nat.le_refl _
  | n + 1, i => by
    have := ctzFrom_le x n (i + 1)
    unfold ctzFrom
    split <;> omega

theorem ctzFrom_zeros (x : Word) : ∀ (n i j : Nat), j < ctzFrom x i n → x.getLsbD (i + j) = false
  | 0, _, _, h => absurd h (Nat.not_lt_zero _)
  | n + 1, i, j, h => by
    unfold ctzFrom at h
    split at h
    · exact absurd h (Nat.not_lt_zero _)
    · rename_i hi
      cases j with
      | zero => exact Bool.eq_false_iff.mpr hi
      | succ j => rw [← Nat.add_assoc, Nat.add_right_comm]; exact ctzFrom_zeros x n (i + 1) j (by omega)

theorem ctzFrom_one (x : Word) : ∀ (n i : Nat), ctzFrom x i n < n → x.getLsbD (i + ctzFrom x i n) = true
  | 0, _, h => absurd h (Nat.not_lt_zero _)
  | n + 1, i, h => by
    unfold ctzFrom at h ⊢
    split at h
    · rename_i hi
      rw [if_pos hi]
      exact hi
    · rename_i hi
      rw [if_neg hi, ← Nat.add_assoc, Nat.add_right_comm]
      exact ctzFrom_one x n (i + 1) (by omega)

theorem popcount_eq_length (x : Nat) (n : Nat) : popcount x n = ((List.range n).filter (fun j => x.testBit j)).length := by
  induction n with
  | zero => rfl
  | succ n ih =>
    have bit : ([n].filter (fun j => x.testBit j)).length = x / 2 ^ n % 2 := by
      rcases Nat.mod_two_eq_zero_or_one (x / 2 ^ n) with h | h <;> simp [List.filter, h, Nat.testBit_eq_decide_div_mod_eq]
    rw [popcount, ih, List.range_succ, List.filter_append, List.length_append, bit]

theorem byteSwap_byte (x : Word) {j : Nat} (hj : j < 8) :
    (byteSwap x).extractLsb' (8 * j) 8 = x.extractLsb' (8 * (7 - j)) 8 := by
  have pow (k : Nat) : 2 ^ (8 * k) = 256 ^ k := by rw [Nat.pow_mul]
  have bound : leNat (natLe 8 x.toNat).reverse < 2 ^ 64 := by
    have := leNat_lt (natLe 8 x.toNat).reverse
    rwa [List.length_reverse, length_natLe] at this
  apply BitVec.eq_of_toNat_eq
  rw [BitVec.extractLsb'_toNat, BitVec.extractLsb'_toNat, byteSwap, BitVec.toNat_ofNat, Nat.mod_eq_of_lt bound,
    Nat.shiftRight_eq_div_pow, Nat.shiftRight_eq_div_pow, pow, pow]
  change leNat _ / 256 ^ j % 256 = _ % 256
  rw [leNat_digit, List.getElem?_reverse (by simpa using hj), length_natLe, getElem?_natLe (by omega), Option.getD_some,
    BitVec.toNat_ofNat]

/-- The forms of 03 R55 on one register. -/
theorem integerUnaryForms : IntegerUnaryForms := by
  intro s d a h ready x
  have low (n : Nat) (hn : n ≤ 64) : x.setWidth n = x.extractLsb' 0 n := setWidth_eq_low n x hn
  refine ⟨⟨clz64 x, clz64_le x, writesG_of_issue ready rfl, fun j hj => clz64_zeros x hj, clz64_one x⟩,
    ⟨ctzFrom x 0 64, ctzFrom_le x 64 0, writesG_of_issue ready rfl, fun j hj => ?zeros, fun hlt => ?one⟩,
    writesG_of_issue_eq ready rfl (congrArg (BitVec.ofNat 64) (popcount_eq_length x.toNat 64)),
    ⟨x.reverse, writesG_of_issue ready rfl, fun j hj => ?reverse⟩,
    ⟨byteSwap x, writesG_of_issue ready rfl, fun j hj => byteSwap_byte x hj⟩,
    writesG_of_issue_eq ready rfl (congrArg _ (low 8 (by decide))),
    writesG_of_issue_eq ready rfl (congrArg _ (low 16 (by decide))),
    writesG_of_issue_eq ready rfl (congrArg _ (low 32 (by decide))),
    writesG_of_issue_eq ready rfl (congrArg _ (low 8 (by decide))),
    writesG_of_issue_eq ready rfl (congrArg _ (low 16 (by decide))),
    writesG_of_issue_eq ready rfl (congrArg _ (low 32 (by decide)))⟩
  case zeros => simpa using ctzFrom_zeros x 64 0 j hj
  case one => simpa using ctzFrom_one x 64 0 hlt
  case reverse =>
    rw [BitVec.getLsbD_reverse, BitVec.getMsbD]
    simp [hj]

/-- Settles O39. -/
theorem integerForms : Obligations.IntegerForms := ⟨integerRegisterForms, integerUnaryForms⟩

end Sys2Proof.Proofs

namespace Sys2Proof.Proofs

/-!
The frame of a completion and of register writes (03 R54, R74; 08 R186).
-/

open Sys2Proof.Machine Sys2Proof.Claim

/-- Changing the executing slot leaves every other one. -/
theorem slotAt_modHart_of_ne {s : State} {f : Slot → Slot} {n : Nat} (h : n ≠ s.hid) : (s.modHart f).slotAt n = s.slotAt n := by
  simp [State.slotAt, h]

theorem getG_setG (x : Slot) (d n : BitVec 5) (v : Word) : (x.setG d v).getG n = if n = d then v else x.getG n := by
  simp only [Slot.getG, Slot.setG, Vector.getElem_set, ← BitVec.toNat_inj, eq_comm]

theorem physV_inj {w : BitVec 2} {n d : BitVec 5} : physV w n = physV w d ↔ n = d := by
  rw [← BitVec.toNat_inj, physV, physV, Nat.add_left_cancel_iff]

theorem getV_setV (x : Slot) (d n : BitVec 5) (v : VReg) : (x.setV d v).getV n = if n = d then v else x.getV n := by
  simp only [Slot.getV, Slot.setV, Vector.getElem_set, physV_inj, eq_comm]

theorem getP_setP (x : Slot) (d n : BitVec 3) (m : Mask) :
    (x.setP d m).getP n = if n = d ∧ d ≠ 0 then m else x.getP n := by
  unfold Slot.setP
  split
  · rename_i hd
    rw [if_neg (fun h => h.2 hd)]
  · rename_i hd
    simp only [Slot.getP, Vector.getElem_set, BitVec.toNat_inj]
    by_cases hn : n = d
    · subst hn
      rw [if_neg hd, if_pos rfl, if_pos ⟨rfl, hd⟩]
    · simp [hn, Ne.symm hn]

theorem setP_frame (x : Slot) (d : BitVec 3) (m : Mask) : { x.setP d m with p := x.p } = x := by
  unfold Slot.setP
  split <;> rfl

/-- Settles O37: completion changes the executing slot by a record update, and each write one register of its file. -/
theorem completionFrame : Obligations.CompletionFrame := by
  refine ⟨fun s i len h f complete => ⟨_, complete, rfl, rfl, fun _ => rfl, fun n hn => slotAt_modHart_of_ne hn⟩,
    fun x len h => ?finish, fun x d n v => ⟨getG_setG x d n v, rfl⟩, fun x d n v => ⟨getV_setV x d n v, rfl⟩,
    fun x d n m => ⟨getP_setP x d n m, setP_frame x d m⟩, fun x fl => ⟨rfl, rfl⟩⟩
  case finish =>
    exact ⟨rfl, rfl, rfl, rfl, rfl, rfl, rfl, rfl, rfl, rfl, rfl, rfl, rfl, rfl, rfl, rfl, rfl, rfl, rfl, rfl⟩

end Sys2Proof.Proofs

namespace Sys2Proof.Proofs

/-!
What asking other devices leaves unchanged (14 R349, R350): the strands, the cores, the tiles and the memory of this one.
-/

open Sys2Proof.Machine

/-- `t` differs from `s` at most in what translations, fetches and requests to other devices leave behind. -/
structure Asks (s t : State) : Prop where
  hart   : t.hart = s.hart
  hid    : t.hid = s.hid
  others : t.others = s.others
  cores  : t.cores = s.cores
  tiles  : t.tiles = s.tiles
  mem    : t.mem = s.mem

theorem Asks.refl (s : State) : Asks s s := ⟨rfl, rfl, rfl, rfl, rfl, rfl⟩

theorem Asks.trans {s t u : State} (a : Asks s t) (b : Asks t u) : Asks s u :=
  ⟨b.hart.trans a.hart, b.hid.trans a.hid, b.others.trans a.others, b.cores.trans a.cores, b.tiles.trans a.tiles,
    b.mem.trans a.mem⟩

/-- A fetch asks nothing but may translate. -/
theorem Asks.of_fetches {s t : State} (a : s.Fetches t) : Asks s t := ⟨a.hart, a.hid, a.others, a.cores, a.tiles, a.mem⟩

theorem modPort_asks (s : State) (n : Nat) (f : Port → Port) : Asks s (s.modPort n f) := by
  unfold State.modPort
  split
  · exact ⟨rfl, rfl, rfl, rfl, rfl, rfl⟩
  · exact .refl _

theorem inject_asks (s : State) (dev bytes : Nat) : Asks s (s.inject dev bytes) := by
  unfold State.inject
  split
  · exact modPort_asks _ _ _
  · exact .refl _

theorem remoteSend_asks (s : State) (r : RemoteOut) : Asks s (s.remoteSend r) := by
  unfold State.remoteSend
  simp only
  split
  · exact ⟨rfl, rfl, rfl, rfl, rfl, rfl⟩
  · refine Asks.trans ?_ (inject_asks _ _ _)
    exact ⟨rfl, rfl, rfl, rfl, rfl, rfl⟩

theorem remoteRelease_asks (l : List RemoteOut) : ∀ (s : State) (before : List RemoteOut), Asks s (s.remoteRelease before l) := by
  induction l with
  | nil => exact fun _ _ => ⟨rfl, rfl, rfl, rfl, rfl, rfl⟩
  | cons r rest ih =>
    intro s before
    unfold State.remoteRelease
    split
    · exact (inject_asks _ _ _).trans (ih _ _)
    · exact ih _ _

theorem remoteEnd_asks (s : State) (sel : RemoteOut → Bool) : Asks s (s.remoteEnd sel) := remoteRelease_asks _ _ _

theorem engineForget_asks (s : State) (id : Nat) : Asks s (s.engineForget id) := by
  unfold State.engineForget
  simp only
  split
  · exact remoteEnd_asks _ _
  · exact .refl _

theorem translate_asks {s s1 : State} {q : Nat} {pid : BitVec 12} {exec : Bool} {va : Word} {acc : Acc}
    {r : Except Cause Xlate} (h : s.translate q pid exec va acc = (r, s1)) : Asks s s1 := by
  have := translate_fetches s q pid exec va acc
  rw [h] at this
  exact .of_fetches this

theorem fetchAsk_asks (s : State) (id n : Nat) (va : Word) : Asks s (s.fetchAsk id n va) := by
  unfold State.fetchAsk
  split
  · exact .refl _
  · dsimp only
    split
    · rename_i h
      exact translate_asks h
    · rename_i h
      have a := translate_asks h
      split
      · split
        · exact a.trans ((engineForget_asks _ _).trans (remoteSend_asks _ _))
        · exact a
      · exact a

end Sys2Proof.Proofs

namespace Sys2Proof.Proofs

/-!
Branches, jumps and calls (03 R70 to R72, R75): where a taken transfer goes, and when a branch is taken.
-/

open Sys2Proof.Machine Sys2Proof.Claim

/-! ## A taken transfer -/

/-- The registers of the strand after a transfer to `a` whose checks found `bad`, on a core at a cycle. -/
def jumped (x : Slot) (h : BitVec 2) (a : Word) (l : Option (BitVec 5)) (bad : Option Cause) (cycle : Nat) : Slot :=
  let y : Slot := { x with
    pc := a
    landed := true
    skips := skipsOf h
    sbHint := false
    notBefore := cycle + 4
    bound := { x.bound with step := x.status.step } }
  if bad.isSome then y
  else
    let z : Slot := { y with loops := if x.status.trap then x.loops else popLoops a x.loops }
    match l with
    | some d => z.setG d (x.pc + 4)
    | none => z

theorem jump_far {s : State} {h : BitVec 2} {a : Word} {l : Option (BitVec 5)}
    (far : s.targetFar (targetId s.hid) s.hid a = true) :
    s.jump h a l = .next ((s.fetchAsk (targetId s.hid) s.hid (a - 4)).parkAt h .again) := by
  rw [State.jump, if_pos far]

theorem jump_near {s : State} {h : BitVec 2} {a : Word} {l : Option (BitVec 5)}
    (far : s.targetFar (targetId s.hid) s.hid a = false) :
    s.jump h a l = .next (((s.targetFault s.hid a).2.engineForget (targetId s.hid)).modHart (fun x =>
      jumped x h a l (s.targetFault s.hid a).1 (s.targetFault s.hid a).2.now)) := by
  rw [State.jump, far]
  rfl

section Jumped

variable (x : Slot) (h : BitVec 2) (a : Word) (l : Option (BitVec 5)) (bad : Option Cause) (cycle : Nat)

theorem jumped_frame : (jumped x h a l bad cycle).pc = a ∧ (jumped x h a l bad cycle).v = x.v ∧
    (jumped x h a l bad cycle).p = x.p ∧ (jumped x h a l bad cycle).lc = x.lc ∧
    (jumped x h a l bad cycle).status = x.status := by
  unfold jumped
  cases bad
  · cases l <;> exact ⟨rfl, rfl, rfl, rfl, rfl⟩
  · exact ⟨rfl, rfl, rfl, rfl, rfl⟩

theorem jumped_getG (r : BitVec 5) : (jumped x h a l none cycle).getG r = if l = some r then x.pc + 4 else x.getG r := by
  unfold jumped
  cases l with
  | none => rfl
  | some d =>
    refine (getG_setG _ d r _).trans ?_
    simp only [Option.some.injEq, eq_comm]
    rfl

theorem jumped_loops : (jumped x h a l none cycle).loops = if x.status.trap then x.loops else popLoops a x.loops := by
  cases l <;> rfl

theorem jumped_bad (c : Cause) : (jumped x h a l (some c) cycle).g = x.g ∧ (jumped x h a l (some c) cycle).loops = x.loops :=
  ⟨rfl, rfl⟩

end Jumped

theorem popLoops_eq (a : Word) (l : List LoopEntry) :
    popLoops a l = if l.head?.all (fun e => e.has a) then l else l.filter (fun e => e.has a) := by
  cases l with
  | nil => rfl
  | cons e r => by_cases h : e.has a <;> simp [popLoops, h]

/-- Where the target is no other device's word, and where it is. -/
theorem transfers_of_jump {s : State} {i : Instr} {h : BitVec 2} {a : Word} {l : Option (BitVec 5)}
    (meaning : exec i s = s.jump h a l) : Transfers s i a l := by
  refine ⟨fun far => ?_, fun far => ?_⟩
  · have asks : Asks s ((s.targetFault s.hid a).2.engineForget (targetId s.hid)) :=
      (Asks.of_fetches (targetFault_fetches _ _ _)).trans (engineForget_asks _ _)
    have hart := asks.hart
    obtain ⟨hpc, hv, hp, hlc, hst⟩ := jumped_frame s.hart h a l (s.targetFault s.hid a).1 (s.targetFault s.hid a).2.now
    refine ⟨_, meaning.trans (jump_near far), ?_⟩
    simp only [State.modHart_hart, State.modHart_mem, hart, asks.mem]
    refine ⟨hpc, trivial, hv, hp, hlc, hst, fun ok => ?_, fun bad => ?_⟩
    · rw [ok]
      refine ⟨jumped_getG _ _ _ _ _, fun ht => ?_, fun ht => ?_⟩
      · rw [jumped_loops, ht, popLoops_eq]
        rfl
      · rw [jumped_loops, ht]
        rfl
    · obtain ⟨c, hc⟩ := Option.ne_none_iff_exists'.mp bad
      rw [hc]
      exact jumped_bad _ _ _ _ _ _
  · have asks := fetchAsk_asks s (targetId s.hid) s.hid (a - 4)
    refine ⟨_, meaning.trans (jump_far far), ?_⟩
    simp only [State.parkAt, State.modHart_hart, State.modHart_mem, asks.hart, asks.mem, and_self]

/-! ## Branches -/

theorem branch_taken {s : State} {h : BitVec 2} {off : BitVec 14} {b : Bool} (hb : b = true) :
    s.branch h b off = s.jump h (s.cbTarget off) none := if_pos hb

theorem branch_not_taken {s : State} {h : BitVec 2} {off : BitVec 14} {b : Bool} (hb : ¬b = true) :
    s.branch h b off = s.done h id := if_neg hb

/-- A branch whose condition the model decides goes to its target or past its word. -/
theorem branches_of_issue {s : State} {i : Instr} {h : BitVec 2} {off : BitVec 14} {b : Bool} {taken : Prop}
    (ready : Ready s Need.any) (meaning : exec i s = s.issue Need.any (s.branch h b off)) (hb : b = true ↔ taken) :
    (taken → Transfers s i (s.hart.pc + (off.signExtend 64 <<< 2)) none) ∧ (¬taken → Completes s i 4 h id) := by
  rw [issue_of_ready ready] at meaning
  exact ⟨fun t => transfers_of_jump (meaning.trans (branch_taken (hb.mpr t))),
    fun t => meaning.trans (branch_not_taken (fun k => t (hb.mp k)))⟩

theorem lanes_le (x : Slot) : x.lanes ≤ 256 := by
  unfold Slot.lanes Slot.ew
  exact (Nat.div_le_div_left (Nat.le_mul_of_pos_right 8 (Nat.two_pow_pos _)) (by decide)).trans (by decide)

theorem getLsbD_ones256 {n : Nat} (hn : n ≤ 256) (j : Nat) : (ones256 0 n).getLsbD j = decide (j < n) := by
  unfold ones256
  rw [pow_zero, Nat.mul_one, BitVec.getLsbD_ofNat, Nat.testBit_two_pow_sub_one]
  by_cases h : j < n
  · simp [h, show j < 256 by omega]
  · simp [h]

theorem getLsbD_getP (x : Slot) (p : BitVec 3) {j : Nat} (hj : j < 256) :
    (x.getP p).getLsbD j = true ↔ p = 0 ∨ (x.getP p).getLsbD j = true := by
  refine ⟨Or.inr, fun h => h.elim (fun h0 => ?_) id⟩
  rw [Slot.getP, if_pos h0, BitVec.getLsbD_allOnes]
  exact decide_eq_true hj

theorem getLsbD_maskL (x : Slot) (p : BitVec 3) (j : Nat) :
    (x.maskL p).getLsbD j = true ↔ j < x.lanes ∧ (p = 0 ∨ (x.getP p).getLsbD j = true) := by
  rw [Slot.maskL, BitVec.getLsbD_and, getLsbD_ones256 (lanes_le x), Bool.and_eq_true, decide_eq_true_iff, and_comm]
  exact and_congr_right fun hj => getLsbD_getP x p (hj.trans_le (lanes_le x))

theorem maskL_eq_zero_iff (x : Slot) (p : BitVec 3) :
    x.maskL p = 0 ↔ ∀ j < x.lanes, ¬(p = 0 ∨ (x.getP p).getLsbD j = true) := by
  refine ⟨fun h j hj hb => ?_, fun h => BitVec.eq_of_getLsbD_eq fun j _ => ?_⟩
  · have := (getLsbD_maskL x p j).mpr ⟨hj, hb⟩
    rw [h] at this
    exact absurd this (by simp)
  · rw [show (0 : Mask).getLsbD j = false from BitVec.getLsbD_zero, ← Bool.not_eq_true, getLsbD_maskL]
    exact fun hj => h j hj.1 hj.2

theorem maskL_eq_ones_iff (x : Slot) (p : BitVec 3) :
    x.maskL p = ones256 0 x.lanes ↔ ∀ j < x.lanes, p = 0 ∨ (x.getP p).getLsbD j = true := by
  refine ⟨fun h j hj => ?_, fun h => BitVec.eq_of_getLsbD_eq fun j _ => ?_⟩
  · refine ((getLsbD_maskL x p j).mp ?_).2
    rw [h, getLsbD_ones256 (lanes_le x)]
    exact decide_eq_true hj
  · rw [Bool.eq_iff_iff, getLsbD_maskL, getLsbD_ones256 (lanes_le x), decide_eq_true_iff]
    exact ⟨fun hj => hj.1, fun hj => ⟨hj, h j hj⟩⟩

/-- The conditional branches of 03 R70, each by the condition that the model decides. -/
theorem conditionalBranches : ConditionalBranches := by
  intro s a p off h ready v lanes bit Branch
  have zero : decide (s.hart.getG a = 0) = true ↔ v = 0 := by
    rw [decide_eq_true_iff, ← BitVec.toInt_inj]
    rfl
  have any : decide (s.hart.maskL p ≠ 0) = true ↔ ∃ j < lanes, bit j := by
    rw [decide_eq_true_iff, Ne, maskL_eq_zero_iff]
    simp only [not_forall, not_not, exists_prop]
    rfl
  have notZero : decide (s.hart.getG a ≠ 0) = true ↔ v ≠ 0 := by
    rw [decide_eq_true_iff]
    exact not_congr (decide_eq_true_iff.symm.trans zero)
  exact ⟨branches_of_issue ready rfl zero, branches_of_issue ready rfl notZero,
    branches_of_issue ready rfl decide_eq_true_iff, branches_of_issue ready rfl decide_eq_true_iff,
    branches_of_issue ready rfl decide_eq_true_iff, branches_of_issue ready rfl decide_eq_true_iff,
    branches_of_issue ready rfl any, branches_of_issue ready rfl (decide_eq_true_iff.trans (maskL_eq_ones_iff _ _)),
    branches_of_issue ready rfl (decide_eq_true_iff.trans (maskL_eq_zero_iff _ _)), issue_of_ready ready _⟩

/-- The jumps and calls of 03 R71, R72. -/
theorem jumpsAndCalls : JumpsAndCalls := by
  intro s l a off h ready
  exact ⟨transfers_of_jump (issue_of_ready ready _), transfers_of_jump (issue_of_ready ready _),
    transfers_of_jump (issue_of_ready ready _), transfers_of_jump (issue_of_ready ready _)⟩

/-- Settles O40. -/
theorem controlTransfers : Obligations.ControlTransfers := ⟨conditionalBranches, jumpsAndCalls⟩

end Sys2Proof.Proofs

namespace Sys2Proof.Proofs

/-!
Hardware loops (03 R74): the loop-end step as the relation of the statements, and what begins a loop.
-/

open Sys2Proof.Machine Sys2Proof.Claim

/-! ## The loop-end step -/

theorem lcGet_lcSet_same {lc : Vector Word 3} {n : BitVec 2} (hn : n.toNat < 3) (v : Word) : lcGet (lcSet lc n v) n = v := by
  simp [lcGet, lcSet, hn]

theorem lcGet_lcSet_of_ne {lc : Vector Word 3} {n k : BitVec 2} (h : n ≠ k) (v : Word) : lcGet (lcSet lc n v) k = lcGet lc k := by
  have : n.toNat ≠ k.toNat := fun e => h (BitVec.eq_of_toNat_eq e)
  simp [lcGet, lcSet, this]

section LoopEnd

variable {lc : Vector Word 3} {fin next : Word} {e : LoopEntry} {r : List LoopEntry}

theorem loopEnd_past (h : e.fin ≠ fin) : loopEnd lc fin next (e :: r) = (lc, e :: r, next) := by
  rw [loopEnd, if_neg h]

theorem loopEnd_again (h : e.fin = fin) (c : lcGet lc e.n ≠ 1) :
    loopEnd lc fin next (e :: r) = (lcSet lc e.n (lcGet lc e.n - 1), e :: r, e.start) := by
  have : lcGet lc e.n - 1 ≠ 0 := fun h0 => c (sub_eq_zero.mp h0)
  rw [loopEnd, if_pos h]
  simp only
  rw [if_pos this]

theorem loopEnd_pop (h : e.fin = fin) (c : lcGet lc e.n = 1) :
    loopEnd lc fin next (e :: r) = loopEnd (lcSet lc e.n 0) fin next r := by
  rw [loopEnd, if_pos h, c]
  rfl

end LoopEnd

/-- The model's loop-end step is the relation of 03 R74. -/
theorem wordEnds_loopEnd (fin next : Word) (l : List LoopEntry) : ∀ lc : Vector Word 3,
    WordEnds fin next lc l (loopEnd lc fin next l).1 (loopEnd lc fin next l).2.1 (loopEnd lc fin next l).2.2 := by
  induction l with
  | nil => exact fun lc => .past lc [] (by simp)
  | cons e r ih =>
    intro lc
    by_cases h : e.fin = fin
    · by_cases c : lcGet lc e.n = 1
      · rw [loopEnd_pop h c]
        exact .pop lc _ e r _ _ h c (ih _)
      · rw [loopEnd_again h c]
        exact .again lc e r h c
    · rw [loopEnd_past h]
      exact .past lc (e :: r) (by simpa using h)

/-- Outside a trap handler a completion makes the loop-end step. -/
theorem finish_loopEnd {x : Slot} {len : Nat} {h : BitVec 2} (ht : x.status.trap = false) :
    ((x.finish len h).lc, (x.finish len h).loops, (x.finish len h).pc) =
      loopEnd x.lc (x.pc + BitVec.ofNat 64 (len - 4)) (x.pc + BitVec.ofNat 64 len) x.loops := by
  simp [Slot.finish, ht]

/-- The loop-end step of 03 R74. -/
theorem loopEndStep : LoopEndStep := by
  intro x h k _ fin y
  refine ⟨fun ht => ?trap, fun ht => ?ends, fun e f r ht hl he hf hen hfn hne ce cf => ?nested⟩
  case trap =>
    obtain ⟨hpc, hloops, hlc⟩ := finish_trap x k h ht
    exact ⟨hpc, hlc, hloops⟩
  case ends =>
    have := wordEnds_loopEnd fin (x.pc + BitVec.ofNat 64 k) x.loops x.lc
    rw [← finish_loopEnd (h := h) ht] at this
    exact this
  case nested =>
    have inner : lcGet (lcSet x.lc e.n 0) f.n = lcGet x.lc f.n := lcGet_lcSet_of_ne hne 0
    have step := finish_loopEnd (len := k) (h := h) ht
    rw [hl, loopEnd_pop he ce, loopEnd_again hf (inner ▸ cf), inner, Prod.mk.injEq, Prod.mk.injEq] at step
    obtain ⟨hlc, hloops, hpc⟩ := step
    refine ⟨hpc, hloops, ?_, ?_⟩
    · rw [hlc, lcGet_lcSet_of_ne hne.symm, lcGet_lcSet_same hen]
    · rw [hlc, lcGet_lcSet_same hfn]

/-! ## Beginning a loop -/

section LoopBegin

variable {x : Slot} {n : BitVec 2} {count last : Word} {h : BitVec 2}

theorem loopBegin_body (hc : count ≠ 0) : (x.loopBegin n count last h).pc = x.pc + 4 ∧ (x.loopBegin n count last h).g = x.g ∧
    (x.loopBegin n count last h).lc = lcSet x.lc n count ∧
    (x.loopBegin n count last h).loops = { n := n, start := x.pc + 4, fin := last } :: x.loops := by
  simp only [Slot.loopBegin, if_neg hc, and_self]

theorem loopBegin_zero_g : (x.loopBegin n 0 last h).g = x.g := rfl

theorem loopBegin_zero_trap (ht : x.status.trap = true) : (x.loopBegin n 0 last h).pc = last + 4 ∧
    (x.loopBegin n 0 last h).lc = x.lc ∧ (x.loopBegin n 0 last h).loops = x.loops := by
  simp [Slot.loopBegin, ht]

theorem loopBegin_zero_ends (ht : x.status.trap = false) :
    WordEnds last (last + 4) x.lc x.loops (x.loopBegin n 0 last h).lc (x.loopBegin n 0 last h).loops
      (x.loopBegin n 0 last h).pc := by
  have : ((x.loopBegin n 0 last h).lc, (x.loopBegin n 0 last h).loops, (x.loopBegin n 0 last h).pc) =
      loopEnd x.lc last (last + 4) x.loops := by simp [Slot.loopBegin, ht]
  have ends := wordEnds_loopEnd last (last + 4) x.loops x.lc
  rw [← this] at ends
  exact ends

end LoopBegin

/-- Two checks in turn with one outcome are one check. -/
theorem ite_ite_eq_or {α : Type} (a b : Bool) (u v : α) :
    (if a then u else if b then u else v) = if a || b then u else v := by
  cases a <;> rfl

/-- What `loopAny` does once the last word of the body is here: LOOPLEN, LOOPNEST, or the loop begins. -/
theorem loopAny_fetched {s s0 : State} {n : BitVec 5} {count : Word} {m : BitVec 14} {h : BitVec 2} {w : BitVec 32}
    (hf : s.fetchBy (loopId s.hid) s.hid (s.hart.pc + BitVec.ofNat 64 (4 * m.toNat)) = (.ok (some w), s0)) :
    let last := s.hart.pc + BitVec.ofNat 64 (4 * m.toNat)
    let s1 := s0.engineForget (loopId s.hid)
    let fin := if isLitCarrier w then last + 4 else last
    s.loopAny n count m h =
      if 1024 < (fin - s.hart.pc).toNat then s1.raise .looplen 0
      else if s.hart.loops.length = 3 || s.hart.loops.any (fun e => e.n = n.setWidth 2) ||
          s.hart.loops.head?.any (fun e => decide (e.fin.toNat < fin.toNat)) then s1.raise .loopnest 0
      else .next (s1.modHart (fun y => y.loopBegin (n.setWidth 2) count fin h)) := by
  simp only [State.loopAny, hf, ite_ite_eq_or]

theorem fin_carrier (w : BitVec 32) (last : Word) :
    (if isLitCarrier w then last + 4 else last) = if w.extractLsb' 26 6 = 0x0E then last + 4 else last := by
  simp only [isLitCarrier, decide_eq_true_eq]

/-- A counter number up to 2 is itself in two bits. -/
theorem setWidth_two_toNat {n : BitVec 5} (hn : n.toNat ≤ 2) : (n.setWidth 2).toNat = n.toNat := by
  rw [BitVec.toNat_setWidth, Nat.mod_eq_of_lt (by omega)]

theorem nest_iff {n : BitVec 5} (hn : n.toNat ≤ 2) (l : List LoopEntry) (fin : Word) :
    (l.length = 3 || l.any (fun e => e.n = n.setWidth 2) || l.head?.any (fun e => decide (e.fin.toNat < fin.toNat))) = true ↔
      l.length = 3 ∨ (∃ e ∈ l, e.n.toNat = n.toNat) ∨ ∃ e ∈ l.head?, e.fin.toNat < fin.toNat := by
  have counter (e : LoopEntry) : e.n = n.setWidth 2 ↔ e.n.toNat = n.toNat := by
    rw [← BitVec.toNat_inj, setWidth_two_toNat hn]
  simp only [Bool.or_eq_true, decide_eq_true_eq, List.any_eq_true, Option.any_eq_true, counter, or_assoc, Option.mem_def]

theorem lcSet_getElem (lc : Vector Word 3) {n : BitVec 5} (hn : n.toNat ≤ 2) (v : Word) (k : Fin 3) :
    (lcSet lc (n.setWidth 2) v)[k] = if k.val = n.toNat then v else lc[k] := by
  simp only [lcSet, setWidth_two_toNat hn, Fin.getElem_fin, Vector.getElem_setIfInBounds, eq_comm]

/-- `loop` and `loopi` with their last word fetched (03 R74). -/
theorem loopsBegin : LoopsBegin := by
  intro s n a c m h w ready hn x last fetched s1 fin long bad Begins
  have asks : Asks s s1 := (Asks.of_fetches (fetchBy_fetches _ _ _ _)).trans (engineForget_asks _ _)
  have hart : s1.hart = s.hart := asks.hart
  have begins {i : Instr} {count : Word} (meaning : exec i s = s.issue Need.any (s.loopAny n count m h)) : Begins i count := by
    have run := loopAny_fetched (s0 := (s.fetchBy (loopId s.hid) s.hid last).2) (count := count) (n := n) (h := h)
      (Prod.ext fetched rfl)
    simp only [fin_carrier] at run
    rw [issue_of_ready ready, run] at meaning
    have bad_iff := nest_iff hn s.hart.loops fin
    refine ⟨fun hl => ?_, fun hl hb => ?_, fun hl hb hc => ?_, fun hl hb hc => ?_⟩
    · rw [if_pos hl] at meaning
      exact meaning
    · rw [if_neg hl, if_pos (bad_iff.mpr hb)] at meaning
      exact meaning
    · rw [if_neg hl, if_neg (fun k => hb (bad_iff.mp k))] at meaning
      obtain ⟨hpc, hg, hlc, hloops⟩ := loopBegin_body (x := s.hart) (n := n.setWidth 2) (last := fin) (h := h) hc
      refine ⟨_, meaning, ?_⟩
      rw [State.modHart_hart, show State.hart _ = s.hart from hart]
      exact ⟨hpc, hg, fun k => by rw [hlc]; exact lcSet_getElem _ hn _ _, hloops⟩
    · rw [if_neg hl, if_neg (fun k => hb (bad_iff.mp k)), hc] at meaning
      refine ⟨_, meaning, ?_⟩
      rw [State.modHart_hart, show State.hart _ = s.hart from hart]
      exact ⟨loopBegin_zero_g, fun ht => loopBegin_zero_trap ht, fun ht => loopBegin_zero_ends ht⟩
  exact ⟨begins rfl, begins rfl⟩

/-- Settles O41. -/
theorem hardwareLoops : Obligations.HardwareLoops := ⟨loopsBegin, loopEndStep⟩

end Sys2Proof.Proofs

namespace Sys2Proof.Proofs

/-!
States and tests for counterexamples.
-/

open Sys2Proof.Machine

/-- The outcome is a next state that a test accepts. -/
def outcomeHas (r : Result) (p : State → Bool) : Bool :=
  match r with
  | .next t => p t
  | _ => false

/-- An executive strand of PID 1, placed on an issuing core. -/
def placed : State := State.reset.withFetchWord 32 0

end Sys2Proof.Proofs

namespace Sys2Proof.Proofs

/-!
Accesses to local store (04 R100, R102): with the checks of the instruction passed and an address below 2^18 that is
aligned, what is left of each form is its completion.
-/

open Sys2Proof.Machine Sys2Proof.Claim

/-- An aligned address of the local store passes its check. -/
theorem localCheck_none {a : Word} {n : Nat} (hlow : a.toNat < 2 ^ 18) (hal : a.toNat % n = 0) :
    localCheck a n = none := by
  have hrange : ¬ 0x40000 ≤ a.toNat := by omega
  simp [localCheck, hrange, hal]

theorem localStoreScalars : LocalStoreScalars := by
  intro s d b o z h ready n ea at_ hlow hal
  have hcheck : localCheck (s.eaOf b o z) (sizeOf_ z) = none := localCheck_none hlow hal
  constructor
  · change s.scalarLdL d b o z h = _
    rw [State.scalarLdL, issue_of_ready ready]
    simp only [hcheck]
    rfl
  · change s.scalarStL d b o z h = _
    rw [State.scalarStL, issue_of_ready ready]
    simp only [hcheck]
    rfl

theorem localStoreVectors : LocalStoreVectors := by
  intro s v a b p h ready ea l
  have hld : exec (.vldL v a b p h) s = s.vecLdL v a b p h := rfl
  have hst : exec (.vstL v a b p h) s = s.vecStL v a b p h := rfl
  rw [State.vecLdL, issue_of_ready ready] at hld
  rw [State.vecStL, issue_of_ready ready] at hst
  constructor
  · intro hl
    have hempty : (s.hart.active p).isEmpty = true := List.isEmpty_iff.mpr hl
    rw [if_pos hempty] at hld hst
    exact ⟨hld, hst⟩
  · intro hl hlow hal
    have hempty : ¬ (s.hart.active p).isEmpty = true := fun e => hl (List.isEmpty_iff.mp e)
    have hcheck : localCheck (s.hart.getG a + s.hart.getG b) 256 = none := localCheck_none hlow hal
    rw [if_neg hempty, hcheck] at hld hst
    exact ⟨hld, hst⟩

/-- Settles O42. -/
theorem localStore : Obligations.LocalStore := ⟨localStoreScalars, localStoreVectors⟩

end Sys2Proof.Proofs

namespace Sys2Proof.Proofs

/-!
Gathers from scratchpad (04 R102; 05 R116). The model performs, before a plain gather, the slot's deferred accesses only where
one of them touches the gathered bytes; the statement has every deferred access performed.
-/

open Sys2Proof.Machine Sys2Proof.Claim

/-- A relaxed 8-byte load of another word of bank 3 of tile 2, still deferred. -/
def deferredElsewhere : Pend :=
  { kind := .loadG 5, scratch := true, va := none, elems := [{ addr := 0x2300100, len := 8, idx := 0, data := 0 }],
    cacheable := false, hint := 0, hostOrd := false }

/-- A strand with that load deferred, about to gather one element from the first word of the bank. -/
def gatherElsewhere : State :=
  (placed.modBank 2 3 (fun b => { b with mode := 1, pid := 1 })).modHart (fun x => { ((x.setG 2 0x2300000).setP 1 1) with pend := [deferredElsewhere] })

/-- The strand of an outcome has no deferred access. -/
def nothingDeferred (r : Result) : Bool := outcomeHas r (fun u => u.hart.pend.isEmpty)

/-- The hypotheses of the gather hold of the state. -/
theorem gatherElsewhere_ready : Ready gatherElsewhere { Need.access with vs := [7] } ∧ Calm gatherElsewhere ∧
    Ready gatherElsewhere { Need.access with vs := [7, 0] } ∧ gatherElsewhere.hart.status.unwr = false ∧
    gatherElsewhere.hart.active 1 ≠ [] ∧ gatherElsewhere.gatherGate 2 0 (gatherElsewhere.hart.active 1) = none ∧
    gatherElsewhere.gatherCheckS 2 0 false (gatherElsewhere.hart.active 1) = none ∧
    (gatherElsewhere.performAll gatherElsewhere.hid).hart.status.unwr = false := by
  decide +kernel

/-- The gather leaves the load deferred. -/
theorem gatherElsewhere_keeps : nothingDeferred (exec (.vgthS 7 2 0 1 0 0) gatherElsewhere) = false := by decide +kernel

/-- Where every deferred access is performed, none is left. -/
theorem gatherElsewhere_stated : nothingDeferred (.next (((gatherElsewhere.performAll gatherElsewhere.hid).landScratch 7
    (gatherElsewhere.hart.gatherElems 2 0 (gatherElsewhere.hart.active 1) 0)).modHart (fun x => (id x).finish 4 0))) = true := by
  decide +kernel

/-- Refutes O43: a plain gather leaves a deferred load of other bytes deferred, where the statement has it performed. -/
theorem not_scratchpad : ¬ Obligations.Scratchpad := by
  rintro ⟨-, vectors⟩
  obtain ⟨ready, calm, ready2, unwr, active, gate, check, unwr2⟩ := gatherElsewhere_ready
  obtain ⟨-, -, gather⟩ := vectors gatherElsewhere 7 2 0 1 0 0 2 3 0 ready calm unwr
  obtain ⟨plain, -⟩ := gather ready2 active gate
  have completes := (plain check).2 rfl unwr2
  have same := gatherElsewhere_keeps.symm.trans ((congrArg nothingDeferred completes).trans gatherElsewhere_stated)
  exact Bool.noConfusion same

end Sys2Proof.Proofs

namespace Sys2Proof.Proofs

/-!
Accesses to memory of this device by a strand that nothing holds up: what orders an access changes nothing, the gate of remote
accesses lets it pass, and a strand that is no logical process makes no log entry (04 R100, R109; 05 R113, R116, R118; 13 R325).
-/

open Sys2Proof.Machine Sys2Proof.Claim

section Access

variable {s : State} {x : Xlate} {h : BitVec 2}

/-- Where no deferred access is selected, none is performed. -/
theorem settleIf_of_none {n : Nat} {sel : Pend → Bool} (none : ∀ p ∈ (s.slotAt n).pend, sel p = false) : s.settleIf n sel = s := by
  have hany : (s.slotAt n).pend.any sel = false := List.any_eq_false.mpr fun p hp => by simp [none p hp]
  simp [State.settleIf, hany]

theorem orderedBefore_of_none (ordr : s.hart.ordr = none) (w : Bool) : s.orderedBefore w = s := by
  simp [State.orderedBefore, ordr]

theorem beforeAccess_of_calm (calm : Calm s) (w : Bool) : s.beforeAccess w = s := by
  obtain ⟨ordr, plain⟩ := calm
  have hsettle : s.settleIf s.hid (fun p => p.plain) = s := settleIf_of_none (by simpa using plain)
  rw [State.beforeAccess, hsettle, orderedBefore_of_none ordr]

theorem beforeStore_of_calm (calm : Calm s) (l : List Nat) : s.beforeStore l = s := by
  rw [State.beforeStore, beforeAccess_of_calm calm, orderedBefore_of_none calm.1, ite_self]

theorem calm_of_hart {t : State} (same : t.hart = s.hart) (calm : Calm s) : Calm t := by
  rw [Calm, same]
  exact calm

/-- The place of a translation is no other device's. -/
abbrev Near (s : State) (pa : Nat) : Prop := ∀ dev off, s.region pa ≠ .remote dev off

theorem isRemote_of_near {pa : Nat} (near : Near s pa) : s.isRemote pa = false := by
  unfold State.isRemote
  split
  · next dev off e => exact absurd e (near dev off)
  · rfl

theorem remoteGate_of_near (near : Near s x.pa) (va : Word) (n : Nat) (relaxed : Bool) (k : Result) :
    s.remoteGate h x va n relaxed k = k := by
  unfold State.remoteGate
  split
  · next dev off e => exact absurd e (near dev off)
  · rfl

/-- What is done at a place that may be another device's is, at one that is not, the other alternative. -/
theorem region_match_of_near {α : Type} {pa : Nat} (near : Near s pa) (f : Nat → Nat → α) (k : α) :
    (match s.region pa with | .remote dev off => f dev off | _ => k) = k := by
  split
  · next dev off e => exact absurd e (near dev off)
  · rfl

theorem optstAt_of_plain (plain : s.hart.record.opt = false) : s.optstAt x = false := by simp [State.optstAt, plain]

theorem loggedWords_of_plain (plain : s.hart.record.opt = false) (pa n : Nat) : s.loggedWords x pa n = [] := by
  simp [State.loggedWords, Slot.inHandler, plain]

theorem storeEntries_of_plain (plain : s.hart.record.opt = false) (pa n : Nat) : s.storeEntries x pa n = [] := by
  simp [State.storeEntries, loggedWords_of_plain plain]

theorem farWords_of_plain (plain : s.hart.record.opt = false) (pa n : Nat) : s.farWords x pa n = [] := by
  simp [State.farWords, loggedWords_of_plain plain]

theorem logThenFar_nothing (k : State → Result) : s.logThenFar h [] 0 k = k s := rfl

/-- An aligned access is checked by its translation alone. -/
theorem globalCheck_of_aligned {a : Word} {n : Nat} (aligned : a.toNat % n = 0) (acc : Acc) :
    s.globalCheck a n acc = s.translate (quadOf (s.hid / 16)) s.hart.pid s.hart.status.exec a acc := by
  rw [State.globalCheck, if_neg (by simp [aligned])]
  rfl

theorem sizeOf_le (z : BitVec 2) : sizeOf_ z ≤ 8 :=
  (Nat.pow_le_pow_right (by omega) (by omega : z.toNat ≤ 3)).trans (by decide)

/-- A store at one place of this device, by where the place is. -/
theorem putPlace_near (near : Near s x.pa) (va : Word) (w idx : Nat) (bs : List Byte) (relaxed : Bool) :
    s.putPlace x va w idx bs relaxed =
      if s.region x.pa = .host then
        (if relaxed = true ∨ x.hostOrd = false then s.deferGlobal x .store va bs.length (pieces x.pa w idx bs) (!relaxed)
         else (s.settleIf s.hid (fun p => p.hostOrd)).storeNow x va x.pa bs)
      else if relaxed = true then s.deferGlobal x .store va bs.length (pieces x.pa w idx bs)
      else s.storeNow x va x.pa bs := by
  unfold State.putPlace
  cases hr : s.region x.pa with
  | remote dev off => exact absurd hr (near dev off)
  | host => simp [State.storeLater, hr]
  | hbm => simp
  | devreg off => simp
  | nomem => simp

/-- A store at one place of this device completes. -/
theorem putOut_near (near : Near s x.pa) (va : Word) (bs : List Byte) (relaxed : Bool) :
    s.putOut x va bs relaxed h = (s.putPlace x va (Nat.min 8 bs.length) 0 bs relaxed).done h id := by
  simp [State.putOut, State.putDone, isRemote_of_near near]

end Access

end Sys2Proof.Proofs

namespace Sys2Proof.Proofs

/-!
Scalar loads and stores of global memory at a place of this device (04 R96 to R100, 07 R171).
-/

open Sys2Proof.Machine Sys2Proof.Claim

section Scalars

variable {s s0 : State} {d b : BitVec 5} {o : BitVec 11} {z : BitVec 2} {r : BitVec 1} {h : BitVec 2} {x : Xlate}

/-- A scalar load of a place of this device, once its address is translated. -/
theorem scalarLdG_near (ready : Ready s Need.access) (near : Near s0 x.pa) (calm : Calm s0)
    (aligned : (s.eaOf b o z).toNat % sizeOf_ z = 0)
    (trans : s.translate (quadOf (s.hid / 16)) s.hart.pid s.hart.status.exec (s.eaOf b o z) .read = (.ok x, s0)) :
    s.scalarLdG d b o z r h =
      if r = 1 then
        (s0.deferGlobal x (.loadG d) (s.eaOf b o z) (sizeOf_ z)
          [{ addr := x.pa, len := sizeOf_ z, idx := 0, data := 0 }]).done h id
      else (s0.loadNow x x.pa (sizeOf_ z)).2.doneG h d (BitVec.ofNat 64 (leNat (s0.loadNow x x.pa (sizeOf_ z)).1)) := by
  rw [State.scalarLdG, issue_of_ready ready, globalCheck_of_aligned aligned, trans]
  simp only
  rw [remoteGate_of_near near, beforeAccess_of_calm calm]
  exact region_match_of_near near _ _

/-- A store of bytes by a strand that is no logical process, once its address is translated. -/
theorem store_near (near : Near s0 x.pa) (calm : Calm s0) (plain : s0.hart.record.opt = false) (va : Word) (n : Nat)
    (bs : List Byte) (relaxed : Bool) (fault : Result) :
    (if s0.optstAt x then fault
      else s0.remoteGate h x va n relaxed
        ((s0.beforeStore [x.pa]).logThenFar h ((s0.beforeStore [x.pa]).storeEntries x x.pa n)
          ((s0.beforeStore [x.pa]).farWords x x.pa n).length (fun s2 => s2.putOut x va bs relaxed h))) =
      (s0.putPlace x va (Nat.min 8 bs.length) 0 bs relaxed).done h id := by
  rw [optstAt_of_plain plain, beforeStore_of_calm calm, storeEntries_of_plain plain, farWords_of_plain plain,
    remoteGate_of_near near]
  exact putOut_near near va bs relaxed

theorem scalarStG_near (ready : Ready s Need.access) (near : Near s0 x.pa) (calm : Calm s0)
    (plain : s0.hart.record.opt = false) (aligned : (s.eaOf b o z).toNat % sizeOf_ z = 0)
    (trans : s.translate (quadOf (s.hid / 16)) s.hart.pid s.hart.status.exec (s.eaOf b o z) .write = (.ok x, s0)) :
    s.scalarStG d b o z r h =
      (s0.putPlace x (s.eaOf b o z) (sizeOf_ z) 0 (natLe (sizeOf_ z) (s.hart.getG d).toNat) (decide (r = 1))).done h id := by
  rw [State.scalarStG, issue_of_ready ready, globalCheck_of_aligned aligned, trans]
  simp only
  have hmin : Nat.min 8 (sizeOf_ z) = sizeOf_ z := Nat.min_eq_right (sizeOf_le z)
  rw [store_near near calm plain, length_natLe, hmin]

theorem setfmt_near (ready : Ready s Need.access) (near : Near s0 x.pa) (calm : Calm s0)
    (aligned : (s.hart.getG b).toNat % 16 = 0)
    (trans : s.translate (quadOf (s.hid / 16)) s.hart.pid s.hart.status.exec (s.hart.getG b) .read = (.ok x, s0))
    (legal : fmtReserved (nthW (bytesWords (s0.loadNow x x.pa 16).1 2) 0) (nthW (bytesWords (s0.loadNow x x.pa 16).1 2) 1) = false) :
    execSetfmt b h s = (s0.loadNow x x.pa 16).2.done h (fun y =>
      y.putFmt (nthW (bytesWords (s0.loadNow x x.pa 16).1 2) 0) (nthW (bytesWords (s0.loadNow x x.pa 16).1 2) 1)) := by
  rw [execSetfmt, issue_of_ready ready, globalCheck_of_aligned aligned, trans]
  simp only
  rw [remoteGate_of_near near, beforeAccess_of_calm calm, legal]
  exact region_match_of_near near _ _

theorem stfmt_near (ready : Ready s Need.access) (near : Near s0 x.pa) (calm : Calm s0)
    (plain : s0.hart.record.opt = false) (aligned : (s.hart.getG b).toNat % 16 = 0)
    (trans : s.translate (quadOf (s.hid / 16)) s.hart.pid s.hart.status.exec (s.hart.getG b) .write = (.ok x, s0)) :
    execStfmt b h s =
      (s0.putPlace x (s.hart.getG b) 8 0 (wordsBytes [s.hart.fmt.zeroExtend 64, s.hart.scl]) false).done h id := by
  rw [execStfmt, issue_of_ready ready, globalCheck_of_aligned aligned, trans]
  simp only
  rw [store_near near calm plain]
  have hlen : (wordsBytes [s.hart.fmt.setWidth 64, s.hart.scl]).length = 16 := by simp [wordsBytes]
  rw [hlen]
  rfl

end Scalars

/-- The reserved bits of a descriptor are clear. -/
theorem fmtReserved_eq_false {f c : Word} (hf : f.toNat < 16) (hi : fld c 63 48 = 0) (mid : fld c 31 30 = 0) (lo : fld c 2 0 = 0) :
    fmtReserved f c = false := by
  have hfld : fld f 63 4 = 0 := by simp [fld, Nat.div_eq_of_lt hf]
  simp [fmtReserved, hfld, hi, mid, lo]

theorem ne_one_eq_not (r : BitVec 1) : decide (r ≠ 1) = !decide (r = 1) := by simp

/-- Settles O10. -/
theorem globalScalars : Obligations.GlobalScalars := by
  intro s s0 d b o z r h x ready n ea e2 q near same calm
  have calm0 : Calm s0 := calm_of_hart same calm
  refine ⟨fun aligned trans => ?_, fun aligned trans plain => ?_, fun aligned trans => ?_, fun aligned trans plain => ?_⟩
  · have load := scalarLdG_near (d := d) (r := r) (h := h) ready near calm0 aligned trans
    constructor
    · rintro rfl
      exact load
    · rintro rfl
      exact load
  · have store := scalarStG_near (d := d) (r := r) (h := h) ready near calm0 (same ▸ plain) aligned trans
    rw [putPlace_near near] at store
    simp only [length_natLe, decide_eq_true_eq, ← ne_one_eq_not] at store
    exact store
  · intro f c hf hi mid lo
    exact setfmt_near ready near calm0 aligned trans (fmtReserved_eq_false hf hi mid lo)
  · have store := stfmt_near (h := h) ready near calm0 (same ▸ plain) aligned trans
    have hlen : (wordsBytes [s.hart.fmt.zeroExtend 64, s.hart.scl]).length = 16 := by simp [wordsBytes]
    rw [putPlace_near near, hlen] at store
    simp only [Bool.false_eq_true, false_or, if_false, Bool.not_false] at store
    exact store

end Sys2Proof.Proofs

namespace Sys2Proof.Proofs

/-!
Home copies in local HBM4 as a PID reads them (04 R94, R95): what claiming a sector and writing bytes under the PID's key leave
readable.
-/

open Sys2Proof.Machine Sys2Proof.Claim

section Home

variable {s : State} {pid : BitVec 12}

@[simp] theorem length_homeBytes (s : State) (pid : BitVec 12) : ∀ n pa : Nat, (s.homeBytes pid pa n).length = n
  | 0, _ => rfl
  | n + 1, pa => by rw [State.homeBytes, List.length_cons, length_homeBytes s pid n]

/-- A byte of memory after bytes were written: theirs, or what it was. -/
theorem memGet_memPut (bs : List Byte) : ∀ (m : List Host.Cell) (a c : Nat), Memory.wf m = true →
    memGet (memPut m a bs) c = if a ≤ c ∧ c < a + bs.length then bs[c - a]?.getD 0 else memGet m c := by
  induction bs with
  | nil =>
    intro m a c _
    rw [if_neg (by simp only [List.length_nil]; omega)]
    rfl
  | cons b bs ih =>
    intro m a c wf
    rw [memPut, ih _ _ _ (memSet_wf m a b wf), List.length_cons]
    by_cases hc : c = a
    · subst hc
      rw [if_neg (by omega), if_pos (by omega), memGet_memSet m c b wf, Nat.sub_self]
      rfl
    · rw [memGet_memSet_of_ne m a b c hc wf]
      by_cases hin : a + 1 ≤ c ∧ c < a + 1 + bs.length
      · have hidx : c - a = c - (a + 1) + 1 := by omega
        rw [if_pos hin, if_pos (by omega), hidx, List.getElem?_cons_succ]
      · rw [if_neg hin, if_neg (by omega)]

theorem getElem?_homeBytes (s : State) (pid : BitVec 12) : ∀ (n pa j : Nat), j < n →
    (s.homeBytes pid pa n)[j]? = some (s.homeByte pid (pa + j))
  | n + 1, pa, 0, _ => rfl
  | n + 1, pa, j + 1, h => by
    rw [State.homeBytes, List.getElem?_cons_succ, getElem?_homeBytes s pid n (pa + 1) j (by omega)]
    exact congrArg (fun k => some (s.homeByte pid k)) (by omega)

/-- What a byte of HBM4 reads as, by the key its sector was written under. -/
theorem homeByte_eq (s : State) (pid : BitVec 12) {pa : Nat} (inside : pa < Config.hbmBytes) :
    s.homeByte pid pa = match alGet s.sectors (pa / 64) with
      | none => memGet s.mem pa
      | some g => if g = s.keyOf pid then memGet s.mem pa else garbage pa g (s.keyOf pid) :=
  if_pos inside

theorem homeByte_outside (s : State) (pid : BitVec 12) {pa : Nat} (outside : ¬ pa < Config.hbmBytes) :
    s.homeByte pid pa = memGet s.mem pa := by
  rw [State.homeByte, if_neg outside]

/-- A sector with its PID's key reads as memory holds it. -/
theorem homeByte_of_key {pa : Nat} (key : alGet s.sectors (pa / 64) = some (s.keyOf pid)) : s.homeByte pid pa = memGet s.mem pa := by
  by_cases inside : pa < Config.hbmBytes
  · rw [homeByte_eq s pid inside, key]
    exact if_pos rfl
  · exact homeByte_outside s pid inside

/-- The three cases of bringing a sector under a PID's key: past HBM4, or with its key, nothing happens; what no key wrote takes
the key; what another wrote becomes what the PID reads there. -/
theorem claim_cases (s : State) (pid : BitVec 12) (sec : Nat) :
    (s.claim pid sec = s ∧ (64 * sec < Config.hbmBytes → alGet s.sectors sec = some (s.keyOf pid))) ∨
    (64 * sec < Config.hbmBytes ∧ alGet s.sectors sec = none ∧
      s.claim pid sec = { s with sectors := alSet s.sectors sec (s.keyOf pid) }) ∨
    (64 * sec < Config.hbmBytes ∧ s.claim pid sec =
      { s with mem := memPut s.mem (64 * sec) (s.homeBytes pid (64 * sec) 64), sectors := alSet s.sectors sec (s.keyOf pid) }) := by
  unfold State.claim
  split
  · next inside =>
    split
    · next free => exact .inr (.inl ⟨inside, free, rfl⟩)
    · next g held =>
      split
      · next own => exact .inl ⟨rfl, fun _ => by rw [held, own]⟩
      · exact .inr (.inr ⟨inside, rfl⟩)
  · next outside => exact .inl ⟨rfl, fun h => absurd h outside⟩

theorem keyOf_of_jobs {t : State} (same : t.jobs = s.jobs) (p : BitVec 12) : t.keyOf p = s.keyOf p := by
  simp only [State.keyOf, State.job, same]

@[simp] theorem keyOf_claim (s : State) (p q : BitVec 12) (sec : Nat) : (s.claim p sec).keyOf q = s.keyOf q := by
  refine keyOf_of_jobs ?_ q
  rcases claim_cases s p sec with ⟨e, -⟩ | ⟨-, -, e⟩ | ⟨-, e⟩ <;> rw [e]

theorem sectors_claim_same (s : State) (pid : BitVec 12) {sec : Nat} (inside : 64 * sec < Config.hbmBytes) :
    alGet (s.claim pid sec).sectors sec = some (s.keyOf pid) := by
  rcases claim_cases s pid sec with ⟨e, key⟩ | ⟨-, -, e⟩ | ⟨-, e⟩ <;> rw [e]
  · exact key inside
  · exact alGet_alSet_same _ _ _
  · exact alGet_alSet_same _ _ _

theorem sectors_claim_of_ne (s : State) (pid : BitVec 12) {sec k : Nat} (ne : k ≠ sec) :
    alGet (s.claim pid sec).sectors k = alGet s.sectors k := by
  rcases claim_cases s pid sec with ⟨e, -⟩ | ⟨-, -, e⟩ | ⟨-, e⟩ <;> rw [e]
  · exact alGet_alSet_of_ne _ _ _ _ ne
  · exact alGet_alSet_of_ne _ _ _ _ ne

/-- The end of HBM4 is the end of a sector. -/
theorem sector_inside {c : Nat} : c < Config.hbmBytes ↔ 64 * (c / 64) < Config.hbmBytes := by
  have : Config.hbmBytes = 64 * 0x300000000 := rfl
  omega

/-- A byte of memory after a sector was claimed: what the PID reads there, or, in another sector, what it was. -/
theorem memGet_claim (wf : s.MemWf) {sec c : Nat} (inside : 64 * sec < Config.hbmBytes) :
    memGet (s.claim pid sec).mem c = if c / 64 = sec then s.homeByte pid c else memGet s.mem c := by
  rcases claim_cases s pid sec with ⟨e, key⟩ | ⟨-, free, e⟩ | ⟨-, e⟩ <;> rw [e]
  · split
    · next hc =>
      subst hc
      exact (homeByte_of_key (key inside)).symm
    · rfl
  · split
    · next hc =>
      subst hc
      rw [homeByte_eq s pid (sector_inside.mpr inside), free]
    · rfl
  · dsimp only
    rw [memGet_memPut _ _ _ _ wf, length_homeBytes]
    by_cases hc : c / 64 = sec
    · rw [if_pos hc, if_pos (by omega), getElem?_homeBytes s pid 64 _ _ (by omega), Option.getD_some]
      congr 1
      omega
    · rw [if_neg hc, if_neg (by omega)]

theorem claim_outside {sec : Nat} (outside : ¬ 64 * sec < Config.hbmBytes) : s.claim pid sec = s := by
  rw [State.claim, if_neg outside]

/-- Bringing a sector under a PID's key changes nothing that the PID reads. -/
theorem homeByte_claim (wf : s.MemWf) (sec c : Nat) : (s.claim pid sec).homeByte pid c = s.homeByte pid c := by
  by_cases inside : 64 * sec < Config.hbmBytes
  · have hmem := memGet_claim (pid := pid) (c := c) wf inside
    by_cases hc : c / 64 = sec
    · rw [if_pos hc] at hmem
      rw [homeByte_of_key (by rw [hc, sectors_claim_same s pid inside, keyOf_claim]), hmem]
    · rw [if_neg hc] at hmem
      by_cases hin : c < Config.hbmBytes
      · rw [homeByte_eq _ pid hin, homeByte_eq _ pid hin, sectors_claim_of_ne s pid hc, keyOf_claim, hmem]
      · rw [homeByte_outside _ pid hin, homeByte_outside _ pid hin, hmem]
  · rw [claim_outside inside]

/-- A byte written under a PID's key is what the PID then reads there; it reads every other byte as before. -/
theorem homeByte_homePutByte (wf : s.MemWf) (pa c : Nat) (b : Byte) :
    (s.homePutByte pid pa b).homeByte pid c = if c = pa then b else s.homeByte pid c := by
  have hwf := s.claim_wf pid (pa / 64) wf
  have key (k : BitVec 12) : (s.homePutByte pid pa b).keyOf k = (s.claim pid (pa / 64)).keyOf k := rfl
  have sectors : (s.homePutByte pid pa b).sectors = (s.claim pid (pa / 64)).sectors := rfl
  have hget (a : Nat) : memGet (s.homePutByte pid pa b).mem a = if a = pa then b else memGet (s.claim pid (pa / 64)).mem a := by
    show memGet (memSet (s.claim pid (pa / 64)).mem pa b) a = _
    split
    · next ha => rw [ha, memGet_memSet _ _ _ hwf]
    · next ha => rw [memGet_memSet_of_ne _ _ _ _ ha hwf]
  by_cases hc : c = pa
  · subst hc
    rw [if_pos rfl]
    have hg := hget c
    rw [if_pos rfl] at hg
    by_cases hin : c < Config.hbmBytes
    · rw [homeByte_of_key (by rw [sectors, key, sectors_claim_same s pid (sector_inside.mp hin), keyOf_claim]), hg]
    · rw [homeByte_outside _ pid hin, hg]
  · rw [if_neg hc, ← homeByte_claim (pid := pid) wf (pa / 64) c]
    have hg := hget c
    rw [if_neg hc] at hg
    by_cases hin : c < Config.hbmBytes
    · rw [homeByte_eq _ pid hin, homeByte_eq _ pid hin, sectors, key, hg]
    · rw [homeByte_outside _ pid hin, homeByte_outside _ pid hin, hg]

/-- Bytes written under a PID's key leave what it reads outside them. -/
theorem homeByte_homePut_of_not_mem (bs : List Byte) : ∀ (s : State) (pa c : Nat), s.MemWf → c < pa ∨ pa + bs.length ≤ c →
    (s.homePut pid pa bs).homeByte pid c = s.homeByte pid c := by
  induction bs with
  | nil => exact fun _ _ _ _ _ => rfl
  | cons b bs ih =>
    intro s pa c wf hc
    rw [List.length_cons] at hc
    rw [State.homePut, ih _ _ _ (s.homePutByte_wf pid pa b wf) (by omega), homeByte_homePutByte wf, if_neg (by omega)]

/-- Bytes written under a PID's key are what it reads there. -/
theorem homeBytes_homePut (bs : List Byte) : ∀ (s : State) (pa : Nat), s.MemWf →
    (s.homePut pid pa bs).homeBytes pid pa bs.length = bs := by
  induction bs with
  | nil => exact fun _ _ _ => rfl
  | cons b bs ih =>
    intro s pa wf
    have hwf := s.homePutByte_wf pid pa b wf
    rw [State.homePut, List.length_cons, State.homeBytes, ih _ _ hwf,
      homeByte_homePut_of_not_mem bs _ _ _ hwf (.inl (Nat.lt_succ_self pa)), homeByte_homePutByte wf, if_pos rfl]

theorem homePut_append (pid : BitVec 12) (l r : List Byte) : ∀ (s : State) (pa : Nat),
    s.homePut pid pa (l ++ r) = (s.homePut pid pa l).homePut pid (pa + l.length) r := by
  induction l with
  | nil => exact fun _ _ => rfl
  | cons b l ih =>
    intro s pa
    rw [List.cons_append, State.homePut, ih, State.homePut, List.length_cons, Nat.add_right_comm, Nat.add_assoc]

/-- A write past every tile cache goes to the home copies. -/
theorem writePath_home (pid : BitVec 12) (hint : BitVec 2) (fuel : Nat) : ∀ (s : State) (pa : Nat) (bs : List Byte),
    bs.length < fuel → s.writePath { tile := none, pid := pid, hint := hint } pa bs fuel = s.homePut pid pa bs := by
  induction fuel with
  | zero => exact fun _ _ _ h => absurd h (Nat.not_lt_zero _)
  | succ k ih =>
    intro s pa bs short
    unfold State.writePath
    cases bs with
    | nil => rfl
    | cons b l =>
      have hpos : 0 < Nat.min (l.length + 1) (64 - pa % 64) := Nat.lt_min.mpr ⟨by omega, by omega⟩
      have hle : Nat.min (l.length + 1) (64 - pa % 64) ≤ l.length + 1 := Nat.min_le_left _ _
      simp only [List.isEmpty_cons, Bool.false_eq_true, if_false, List.length_cons, State.writeSector]
      generalize hn : Nat.min (l.length + 1) (64 - pa % 64) = n at hpos hle ⊢
      rw [ih _ _ _ (by rw [List.length_drop]; simp only [List.length_cons] at short ⊢; omega)]
      conv_rhs => rw [← List.take_append_drop n (b :: l), homePut_append]
      rw [List.length_take, List.length_cons, Nat.min_eq_left hle]

@[simp] theorem homePut_hart (pid : BitVec 12) (bs : List Byte) : ∀ (s : State) (pa : Nat), (s.homePut pid pa bs).hart = s.hart := by
  induction bs with
  | nil => exact fun _ _ => rfl
  | cons b bs ih =>
    intro s pa
    rw [State.homePut, ih]
    show (s.claim pid (pa / 64)).hart = s.hart
    rcases claim_cases s pid (pa / 64) with ⟨e, -⟩ | ⟨-, -, e⟩ | ⟨-, e⟩ <;> rw [e]

end Home

end Sys2Proof.Proofs

namespace Sys2Proof.Proofs

/-!
The bytes that a scalar store changes (04 R94, R95, R100).
-/

open Sys2Proof.Machine Sys2Proof.Claim

section Stores

variable {s : State}

/-- An access to a bank that is not switching and holds no access passes the bank's gate. -/
theorem bankGate_of_sramAt {ea : Word} {t b off : Nat} (at_ : SramAt s ea t b off) (h : BitVec 2) (k : State → Result) :
    s.bankGate h ea k = k s := by
  obtain ⟨loc, sw, held, -⟩ := at_
  simp [State.bankGate, State.bankBusy, State.bankPass, State.heldBefore, loc, sw, held]

/-- An aligned scalar access to a word of a bank in plain scratchpad mode that strands own passes its checks. -/
theorem spCheck_plain {ea : Word} {t b off n : Nat} (at_ : SramAt s ea t b off) (mode : ((s.tile t).bank b).mode = 1)
    (owner : (s.tile t).ownerOf (slabOf b off) = 0) (aligned : ea.toNat % n = 0) (write : Bool) :
    s.spCheck (s.spReq ea write (.scalar n)) = .ok (.sram t b off) := by
  obtain ⟨loc, -, -, pid⟩ := at_
  rcases pid with exec | pid
  · simp [State.spCheck, State.spReq, SpForm.align, loc, mode, owner, aligned, exec]
  · simp [State.spCheck, State.spReq, SpForm.align, loc, mode, owner, aligned, pid]

@[simp] theorem spWrite_mem (s : State) (a : Nat) (bs : List Byte) : (s.spWrite a bs).mem = memPut s.mem (spBase a) bs := by
  unfold State.spWrite
  split <;> rfl

@[simp] theorem spWrite_hart (s : State) (a : Nat) (bs : List Byte) : (s.spWrite a bs).hart = s.hart := by
  unfold State.spWrite
  split <;> rfl

/-- With no deferred access, none is performed before an access. -/
theorem settleIf_of_nil (idle : s.hart.pend = []) (sel : Pend → Bool) : s.settleIf s.hid sel = s :=
  settleIf_of_none (by simp [idle])

/-- A plain store to a bank in plain scratchpad mode, with nothing deferred. -/
theorem scalarStS_plain {d c : BitVec 5} {o : BitVec 11} {z h : BitVec 2} {t b off : Nat} (ready : Ready s Need.access)
    (calm : Calm s) (idle : s.hart.pend = []) (at_ : SramAt s (s.eaOf c o z) t b off) (mode : ((s.tile t).bank b).mode = 1)
    (owner : (s.tile t).ownerOf (slabOf b off) = 0) (aligned : (s.eaOf c o z).toNat % sizeOf_ z = 0) :
    s.scalarStS d c o z 0 h = (s.spWrite (s.eaOf c o z).toNat (natLe (sizeOf_ z) (s.hart.getG d).toNat)).done h id := by
  have fifo : s.isFifo (.sram t b off) = false := by simp [State.isFifo, mode]
  rw [State.scalarStS, issue_of_ready ready, bankGate_of_sramAt at_]
  simp only [spCheck_plain at_ mode owner aligned, beforeAccess_of_calm calm, fifo, State.settleRange, settleIf_of_nil idle]
  rfl

/-- With nothing deferred and no buffer of the strand's, nothing is performed before an access. -/
theorem settle_of_idle {t : State} (idle : t.hart.pend = []) (drained : ∀ w ∈ (t.core t.coreNo).wc, w.strand ≠ t.hart.sid)
    (pa n : Nat) : t.settle pa n = t := by
  have hcovers : (t.core (t.hid / 16)).wc.any (fun b => b.covers (t.slotAt t.hid).sid pa n) = false := by
    refine List.any_eq_false.mpr fun w hw => ?_
    have : w.strand ≠ t.hart.sid := drained w hw
    simp [WcBuf.covers, this]
  rw [State.settle, State.settleRange, settleIf_of_nil idle, State.settleLine, if_neg (by simpa using hcovers)]

theorem deferGlobal_of_idle {t : State} (drained : ∀ w ∈ (t.core t.coreNo).wc, w.strand ≠ t.hart.sid)
    (x : Xlate) (va : Word) (n : Nat) (l : List PendElem) (plain : Bool) :
    ∃ p : Pend, p.elems = l ∧ t.deferGlobal x .store va n l plain = t.modHart (fun y => { y with pend := y.pend ++ [p] }) := by
  have hcovers : (t.core (t.hid / 16)).wc.any (fun b => b.covers (t.slotAt t.hid).sid x.pa n) = false := by
    refine List.any_eq_false.mpr fun w hw => ?_
    have : w.strand ≠ t.hart.sid := drained w hw
    simp [WcBuf.covers, this]
  rw [State.deferGlobal, State.settleLine, if_neg (by simpa using hcovers)]
  exact ⟨_, rfl, rfl⟩

/-- A store performed now at a place in host memory writes its bytes there. -/
theorem storeNow_host {t : State} (idle : t.hart.pend = []) (drained : ∀ w ∈ (t.core t.coreNo).wc, w.strand ≠ t.hart.sid)
    {x : Xlate} (host : t.region x.pa = .host) (va : Word) (bs : List Byte) :
    t.storeNow x va x.pa bs = { t with mem := memPut t.mem x.pa bs } := by
  rw [State.storeNow, settle_of_idle idle drained, State.paWrite, host]
  simp only [State.homeStore, host]

/-- A store performed now at a place in HBM4, by an uncached page, writes its bytes to the home copies. -/
theorem storeNow_uncached {t : State} (idle : t.hart.pend = []) (drained : ∀ w ∈ (t.core t.coreNo).wc, w.strand ≠ t.hart.sid)
    {x : Xlate} (hbm : t.region x.pa = .hbm) (uncached : x.cached = false) (va : Word) (bs : List Byte) :
    t.storeNow x va x.pa bs = t.homePut t.hart.pid x.pa bs := by
  rw [State.storeNow, settle_of_idle idle drained, State.paWrite, hbm, uncached]
  exact writePath_home _ _ _ _ _ _ (Nat.lt_succ_self _)

@[simp] theorem homeBytes_modHart (s : State) (f : Slot → Slot) (pid : BitVec 12) :
    ∀ n pa : Nat, (s.modHart f).homeBytes pid pa n = s.homeBytes pid pa n
  | 0, _ => rfl
  | n + 1, pa => congrArg (s.homeByte pid pa :: ·) (homeBytes_modHart s f pid n (pa + 1))

end Stores

/-- Settles O38. -/
theorem storeFrame : Obligations.StoreFrame := by
  intro s s0 d b o z h x ready calm idle wf n ea bs Kept aligned
  have hlen : bs.length = n := length_natLe _ _
  have kept {t : State} {at_ : Nat} (hmem : t.mem = memPut s.mem at_ bs) (hhart : t.hart = s.hart.finish 4 h) : Kept t at_ := by
    refine ⟨fun c hc => ?_, ?_, ?_⟩
    · rw [hmem, memGet_memPut_of_not_mem bs s.mem at_ c wf (by rwa [hlen])]
    · rw [hmem, ← hlen, memBytes_memPut bs s.mem at_ wf]
    · rw [hhart]
      exact ⟨rfl, rfl, rfl, rfl, rfl⟩
  refine ⟨fun low => ?_, fun t b_ off at_ mode owner => ?_, fun trans hart hid mem cores plain drained => ?_⟩
  · obtain ⟨-, store⟩ := localStoreScalars s d b o z h ready low aligned
    rw [beforeAccess_of_calm calm] at store
    exact ⟨_, store, kept rfl rfl⟩
  · refine ⟨_, scalarStS_plain ready calm idle at_ mode owner aligned, kept ?_ ?_⟩
    · exact spWrite_mem _ _ _
    · exact congrArg (fun y : Slot => y.finish 4 h) (spWrite_hart _ _ _)
  · have idle0 : s0.hart.pend = [] := hart ▸ idle
    have drained0 : ∀ w ∈ (s0.core s0.coreNo).wc, w.strand ≠ s0.hart.sid := by
      rw [hart, show s0.core s0.coreNo = s.core s.coreNo by simp only [State.core, State.coreNo, cores, hid]]
      exact drained
    have store (near : Near s0 x.pa) := scalarStG_near (d := d) (r := 0) (h := h) ready near (calm_of_hart hart calm)
      (by rw [hart]; exact plain) aligned trans
    refine ⟨fun host ordered => ?_, fun host free => ?_, fun hbm uncached => ?_⟩
    · have out := store (fun dev off => by rw [host]; exact nofun)
      rw [putPlace_near (fun dev off => by rw [host]; exact nofun), if_pos host, if_neg (by simp [ordered]),
        settleIf_of_nil idle0, storeNow_host idle0 drained0 host] at out
      exact ⟨_, out, kept (congrArg (memPut · x.pa bs) mem) (congrArg (·.finish 4 h) hart)⟩
    · have out := store (fun dev off => by rw [host]; exact nofun)
      rw [putPlace_near (fun dev off => by rw [host]; exact nofun), if_pos host, if_pos (.inr free)] at out
      obtain ⟨p, helems, hdefer⟩ := deferGlobal_of_idle drained0 x (s.eaOf b o z) bs.length (pieces x.pa n 0 bs) (!decide ((0 : BitVec 1) = 1))
      rw [show s0.deferGlobal x .store (s.eaOf b o z) (natLe (sizeOf_ z) (s.hart.getG d).toNat).length
        (pieces x.pa (sizeOf_ z) 0 (natLe (sizeOf_ z) (s.hart.getG d).toNat)) (!decide ((0 : BitVec 1) = 1)) = _ from hdefer] at out
      refine ⟨_, out, mem, congrArg (·.g) hart, congrArg (·.v) hart, congrArg (·.p) hart, ?_⟩
      show (s0.hart.pend ++ [p]).flatMap (fun k => k.elems) = _
      simp [idle0, helems]
    · have out := store (fun dev off => by rw [hbm]; exact nofun)
      rw [putPlace_near (fun dev off => by rw [hbm]; exact nofun), if_neg (by simp [hbm]), if_neg (by decide),
        storeNow_uncached idle0 drained0 hbm uncached, hart] at out
      have wf0 : s0.MemWf := (congrArg Memory.wf mem).trans wf
      refine ⟨_, out, fun c hc => ?_, ?_, ?_, ?_, ?_⟩
      · exact homeByte_homePut_of_not_mem bs s0 x.pa c wf0 (by rwa [hlen])
      · have := homeBytes_homePut (pid := s.hart.pid) bs s0 x.pa wf0
        rwa [hlen, ← homeBytes_modHart _ (fun y => (id y).finish 4 h)] at this
      · exact congrArg (·.g) ((homePut_hart _ _ _ _).trans hart)
      · exact congrArg (·.v) ((homePut_hart _ _ _ _).trans hart)
      · exact congrArg (·.p) ((homePut_hart _ _ _ _).trans hart)

end Sys2Proof.Proofs

namespace Sys2Proof.Proofs

/-!
What performing accesses of strands leaves as it was (04 R90, R94, R104; 05 R116): the platform, the cores with their
write-combining buffers, and of a slot all but what a load or a late fault writes.
-/

open Sys2Proof.Machine Sys2Proof.Claim

/-- A slot after accesses were performed for it: what they return, and late faults, may have changed. -/
def Served (x y : Slot) : Prop :=
  ∃ g v ll ls lt, y = { x with g := g, v := v, lateLoad := ll, lateStore := ls, bound := { x.bound with late := lt } }

namespace Served

theorem refl (x : Slot) : Served x x := ⟨_, _, _, _, _, rfl⟩

theorem trans {x y z : Slot} : Served x y → Served y z → Served x z := by
  rintro ⟨_, _, _, _, _, rfl⟩ ⟨_, _, _, _, _, rfl⟩
  exact ⟨_, _, _, _, _, rfl⟩

theorem pend {x y : Slot} : Served x y → y.pend = x.pend := by
  rintro ⟨_, _, _, _, _, rfl⟩
  rfl

theorem ordr {x y : Slot} : Served x y → y.ordr = x.ordr := by
  rintro ⟨_, _, _, _, _, rfl⟩
  rfl

theorem record {x y : Slot} : Served x y → y.record = x.record := by
  rintro ⟨_, _, _, _, _, rfl⟩
  rfl

theorem park {x y : Slot} : Served x y → y.park = x.park := by
  rintro ⟨_, _, _, _, _, rfl⟩
  rfl

theorem pc {x y : Slot} : Served x y → y.pc = x.pc := by
  rintro ⟨_, _, _, _, _, rfl⟩
  rfl

theorem status {x y : Slot} : Served x y → y.status = x.status := by
  rintro ⟨_, _, _, _, _, rfl⟩
  rfl

theorem of_remoteLate (x : Slot) (k : PendKind) (c : Cause) (va : Word) : Served x (x.remoteLate k c va) := by
  unfold Slot.remoteLate
  simp only
  split
  · exact ⟨_, _, _, _, _, rfl⟩
  · exact ⟨_, _, _, _, _, rfl⟩
  · split
    · exact refl x
    · exact ⟨_, _, _, _, _, rfl⟩

theorem of_lateFault (x : Slot) (c : Cause) (va : Word) : Served x (x.lateFault c va) := by
  unfold Slot.lateFault
  split
  · exact refl x
  · exact ⟨_, _, _, _, _, rfl⟩

theorem of_landElem (x : Slot) (k : PendKind) (idx : Nat) (bs : List Byte) : Served x (x.landElem k idx bs) := by
  unfold Slot.landElem
  split
  · exact ⟨_, _, _, _, _, rfl⟩
  · exact ⟨_, _, _, _, _, rfl⟩
  · exact refl x

end Served

/-- What performing accesses leaves. -/
structure Serves (s t : State) : Prop where
  hid   : t.hid = s.hid
  cores : t.cores = s.cores
  plat  : t.plat = s.plat
  slot  : ∀ n, Served (s.slotAt n) (t.slotAt n)
  wf    : s.MemWf → t.MemWf

namespace Serves

variable {s t : State}

theorem refl (s : State) : Serves s s := ⟨rfl, rfl, rfl, fun _ => .refl _, id⟩

theorem trans {u : State} (a : Serves s t) (b : Serves t u) : Serves s u :=
  ⟨b.hid.trans a.hid, b.cores.trans a.cores, b.plat.trans a.plat, fun n => (a.slot n).trans (b.slot n), b.wf ∘ a.wf⟩

/-- A change outside the slots, the cores and the platform. -/
theorem of_eq (hid : t.hid = s.hid) (hart : t.hart = s.hart) (others : t.others = s.others) (cores : t.cores = s.cores)
    (plat : t.plat = s.plat) (wf : s.MemWf → t.MemWf) : Serves s t :=
  ⟨hid, cores, plat, fun n => by
    have same : t.slotAt n = s.slotAt n := by simp only [State.slotAt, hid, hart, others]
    rw [same]
    exact .refl _, wf⟩

theorem region (a : Serves s t) (pa : Nat) : t.region pa = s.region pa := by
  simp only [State.region, a.plat]

theorem core (a : Serves s t) (n : Nat) : t.core n = s.core n := by simp only [State.core, a.cores]

theorem hart (a : Serves s t) : Served s.hart t.hart := by
  have h := a.slot s.hid
  rw [State.slotAt_hid, ← a.hid, State.slotAt_hid] at h
  exact h

theorem foldl {α : Type} {f : State → α → State} (step : ∀ u x, Serves u (f u x)) (l : List α) : ∀ s, Serves s (l.foldl f s) := by
  induction l with
  | nil => exact refl
  | cons x l ih => exact fun s => (step s x).trans (ih _)

end Serves

section Parts

variable (s : State)

theorem setSlot_serves {n : Nat} {x : Slot} (h : Served (s.slotAt n) x) : Serves s (s.setSlot n x) := by
  have same (m : Nat) : Served (s.slotAt m) ((s.setSlot n x).slotAt m) := by
    by_cases hm : m = n
    · rw [hm, State.slotAt_setSlot_same]
      exact h
    · rw [State.slotAt_setSlot_of_ne s n m x hm]
      exact .refl _
  unfold State.setSlot at same ⊢
  split
  · next hn =>
    rw [if_pos hn] at same
    exact ⟨rfl, rfl, rfl, same, id⟩
  · next hn =>
    rw [if_neg hn] at same
    exact ⟨rfl, rfl, rfl, same, id⟩

theorem modSlot_serves {n : Nat} {f : Slot → Slot} (h : Served (s.slotAt n) (f (s.slotAt n))) : Serves s (s.modSlot n f) :=
  setSlot_serves s h

theorem modTile_serves (n : Nat) (f : Tile → Tile) : Serves s (s.modTile n f) := .of_eq rfl rfl rfl rfl rfl id

theorem modStrand_serves {f : Slot → Slot} (h : ∀ x, Served x (f x)) (sid : Nat) : Serves s (s.modStrand sid f) := by
  unfold State.modStrand
  split
  · exact modSlot_serves s (h _)
  · split
    · exact .of_eq rfl rfl rfl rfl rfl id
    · exact .refl s

theorem modPort_serves (n : Nat) (f : Port → Port) : Serves s (s.modPort n f) := by
  unfold State.modPort
  split
  · exact .of_eq rfl rfl rfl rfl rfl id
  · exact .refl s

theorem inject_serves (dev bytes : Nat) : Serves s (s.inject dev bytes) := by
  unfold State.inject
  split
  · exact modPort_serves s _ _
  · exact .refl s

theorem remoteSend_serves (r : RemoteOut) : Serves s (s.remoteSend r) := by
  unfold State.remoteSend
  simp only
  split
  · exact .of_eq rfl rfl rfl rfl rfl id
  · refine Serves.trans ?_ (inject_serves _ _ _)
    exact .of_eq rfl rfl rfl rfl rfl id

theorem sketchAdd_serves (r : SkRec) : Serves s (s.sketchAdd r) := by
  unfold State.sketchAdd
  split
  · exact .refl s
  · exact .of_eq rfl rfl rfl rfl rfl id

theorem fatalCause_serves (pid : BitVec 12) (e : CauseEntry) : Serves s (s.fatalCause pid e) := by
  refine Serves.trans ?_ (sketchAdd_serves _ _)
  exact .of_eq rfl rfl rfl rfl rfl id

theorem consume_serves (slot : Option Nat) (pid : BitVec 12) (a n : Nat) : Serves s (s.consume slot pid a n) := by
  unfold State.consume
  split
  · exact .refl s
  · refine Serves.trans ?_ (fatalCause_serves _ _ _)
    exact .of_eq rfl rfl rfl rfl rfl id

/-! ## Memory -/

theorem claim_serves (pid : BitVec 12) (sec : Nat) : Serves s (s.claim pid sec) := by
  have wf := s.claim_wf pid sec
  rcases claim_cases s pid sec with ⟨e, -⟩ | ⟨-, -, e⟩ | ⟨-, e⟩ <;> rw [e] at wf ⊢
  · exact .refl s
  · exact .of_eq rfl rfl rfl rfl rfl wf
  · exact .of_eq rfl rfl rfl rfl rfl wf

theorem homePutByte_serves (pid : BitVec 12) (pa : Nat) (b : Byte) : Serves s (s.homePutByte pid pa b) := by
  refine (claim_serves s pid (pa / 64)).trans ?_
  exact .of_eq rfl rfl rfl rfl rfl (memSet_wf _ _ _)

theorem homePut_serves (pid : BitVec 12) (bs : List Byte) : ∀ (s : State) (pa : Nat), Serves s (s.homePut pid pa bs) := by
  induction bs with
  | nil => exact fun s _ => .refl s
  | cons b bs ih => exact fun s pa => (homePutByte_serves s pid pa b).trans (ih _ _)

theorem homePutMask_serves (pid : BitVec 12) (line : Nat) (mask : Mask) (data : VReg) (n : Nat) :
    ∀ (s : State) (i : Nat), Serves s (s.homePutMask pid line mask data i n) := by
  induction n with
  | zero => exact fun s _ => .refl s
  | succ n ih =>
    intro s i
    unfold State.homePutMask
    refine Serves.trans ?_ (ih _ _)
    split
    · exact homePutByte_serves s _ _ _
    · exact .refl s

theorem flushLine_serves (c : CLine) : Serves s (s.flushLine c) := homePutMask_serves _ _ _ _ _ _ _

theorem dropCached_serves (t line : Nat) : Serves s (s.dropCached t line) := by
  unfold State.dropCached
  split
  · exact .refl s
  · exact (flushLine_serves s _).trans (modTile_serves _ _ _)

theorem tickFree_serves : Serves s s.tickFree := .of_eq rfl rfl rfl rfl rfl id

theorem fillSector_serves (t : Nat) (pid : BitVec 12) (hint : BitVec 2) (line sec : Nat) :
    Serves s (s.fillSector t pid hint line sec) := by
  unfold State.fillSector
  split
  · split
    · exact .refl s
    · exact modTile_serves s _ _
  · split
    · exact .refl s
    · simp only
      split
      · refine Serves.trans ?_ (modTile_serves _ _ _)
        exact (dropCached_serves s t _).trans (tickFree_serves _)
      · exact modTile_serves s _ _

theorem readSector_serves (p : Path) (pa n : Nat) : Serves s (s.readSector p pa n).2 := by
  unfold State.readSector
  split
  · exact .refl s
  · simp only
    split
    · split
      · dsimp only
        split
        · exact dropCached_serves s _ _
        · exact .refl s
      · split
        · exact .refl s
        · exact fillSector_serves s _ _ _ _ _
    · split
      · exact .refl s
      · exact fillSector_serves s _ _ _ _ _

theorem readPath_serves (p : Path) (fuel : Nat) : ∀ (s : State) (pa n : Nat), Serves s (s.readPath p pa n fuel).2 := by
  induction fuel with
  | zero => exact fun s _ _ => .refl s
  | succ k ih =>
    intro s pa n
    unfold State.readPath
    split
    · exact .refl s
    · exact (readSector_serves s p pa _).trans (ih _ _ _)

/-- Merging bytes into a line that the tile caches. -/
theorem mergeLine_serves (t line : Nat) (f : CLine → Tile → Tile) :
    Serves s (match (s.tile t).findLine line with | some c => s.modTile t (f c) | none => s) := by
  split
  · exact modTile_serves s _ _
  · exact .refl s

theorem writeSector_serves (p : Path) (pa : Nat) (bs : List Byte) : Serves s (s.writeSector p pa bs) := by
  unfold State.writeSector
  split
  · exact homePut_serves _ _ _ _
  · simp only
    split
    · split
      · split
        · exact (modTile_serves s _ _).trans (dropCached_serves _ _ _)
        · exact homePut_serves _ _ _ _
      · exact (fillSector_serves s _ _ _ _ _).trans (mergeLine_serves _ _ _ _)
    · split
      · exact homePut_serves _ _ _ _
      · exact (fillSector_serves s _ _ _ _ _).trans (mergeLine_serves _ _ _ _)

theorem writePath_serves (p : Path) (fuel : Nat) : ∀ (s : State) (pa : Nat) (bs : List Byte), Serves s (s.writePath p pa bs fuel) := by
  induction fuel with
  | zero => exact fun s _ _ => .refl s
  | succ k ih =>
    intro s pa bs
    unfold State.writePath
    split
    · exact .refl s
    · exact (writeSector_serves s p pa _).trans (ih _ _ _)

theorem homeStore_serves (strand : Nat) (pid : BitVec 12) (va : Word) (pa : Nat) (bs : List Byte) :
    Serves s (s.homeStore strand pid va pa bs) := by
  unfold State.homeStore
  split
  · exact homePut_serves _ _ _ _
  · exact .of_eq rfl rfl rfl rfl rfl (memPut_wf _ _ _)
  · split
    · exact .of_eq rfl rfl rfl rfl rfl id
    · exact .refl s
  · split
    · exact remoteSend_serves s _
    · exact modStrand_serves s (fun x => .of_remoteLate x _ _ _) _
  · exact .refl s

theorem storeRuns_serves (strand : Nat) (pid : BitVec 12) (va : Word) (line : Nat) (mask : Mask) (data : VReg) (n : Nat) :
    ∀ (s : State) (i : Nat) (run : List Byte), Serves s (s.storeRuns strand pid va line mask data i run n) := by
  induction n with
  | zero =>
    intro s i run
    unfold State.storeRuns
    split
    · exact .refl s
    · exact homeStore_serves s _ _ _ _ _
  | succ n ih =>
    intro s i run
    unfold State.storeRuns
    split
    · exact ih _ _ _
    · refine Serves.trans ?_ (ih _ _ _)
      split
      · exact .refl s
      · exact homeStore_serves s _ _ _ _ _

theorem drainBuf_serves (core : Nat) (b : WcBuf) : Serves s (s.drainBuf core b) := by
  unfold State.drainBuf
  split
  · exact (dropCached_serves s _ _).trans (homePutMask_serves _ _ _ _ _ _ _)
  · exact storeRuns_serves _ _ _ _ _ _ _ _ _ _

theorem paRead_serves (p : Path) (pa n : Nat) : Serves s (s.paRead p pa n).2 := by
  unfold State.paRead
  split
  · exact readPath_serves _ _ _ _ _
  · exact .refl s
  · exact .refl s
  · exact .of_eq rfl rfl rfl rfl rfl id

theorem paWrite_serves (p : Path) (strand : Nat) (va : Word) (pa : Nat) (bs : List Byte) : Serves s (s.paWrite p strand va pa bs) := by
  unfold State.paWrite
  split
  · exact writePath_serves _ _ _ _ _
  · exact homeStore_serves s _ _ _ _ _

theorem spWrite_serves (a : Nat) (bs : List Byte) : Serves s (s.spWrite a bs) := by
  have wf := s.spWrite_wf a bs
  unfold State.spWrite at wf ⊢
  simp only at wf ⊢
  split at wf
  · next h =>
    rw [if_pos h]
    exact .of_eq rfl rfl rfl rfl rfl wf
  · next h =>
    rw [if_neg h]
    exact .of_eq rfl rfl rfl rfl rfl wf

/-! ## Deferred accesses -/

theorem placeRead_serves (core : Nat) (pid : BitVec 12) (p : Pend) (a n : Nat) : Serves s (s.placeRead core pid p a n).2 := by
  unfold State.placeRead
  split
  · split <;> exact .refl s
  · exact paRead_serves s _ _ _

theorem placeWrite_serves (core strand : Nat) (pid : BitVec 12) (p : Pend) (a : Nat) (bs : List Byte) :
    Serves s (s.placeWrite core strand pid p a bs) := by
  unfold State.placeWrite
  split
  · split
    · exact modTile_serves s _ _
    · exact spWrite_serves s _ _
  · exact paWrite_serves s _ _ _ _ _

theorem redAt_serves (tile : Option Nat) (pid : BitVec 12) (pa op : Nat) (dbl : Bool) (v : Word) :
    Serves s (s.redAt tile pid pa op dbl v) := by
  unfold State.redAt
  refine Serves.trans ?_ (homePut_serves _ _ _ _)
  split
  · exact dropCached_serves s _ _
  · exact .refl s

theorem performElem_serves (n : Nat) (p : Pend) (e : PendElem) : Serves s (s.performElem n p e) := by
  unfold State.performElem
  simp only
  split
  · refine modSlot_serves s ?_
    split
    · exact .of_remoteLate _ _ _ _
    · exact .of_lateFault _ _ _
  · split
    · exact placeWrite_serves s _ _ _ _ _ _
    · exact (consume_serves s _ _ _ _).trans (redAt_serves _ _ _ _ _ _ _)
    · exact (consume_serves s _ _ _ _).trans ((placeRead_serves _ _ _ _ _ _).trans (modSlot_serves _ (.of_landElem _ _ _ _)))

theorem performPend_serves (n : Nat) (p : Pend) : Serves s (s.performPend n p) :=
  Serves.foldl (fun u e => performElem_serves u n p e) _ _

end Parts

end Sys2Proof.Proofs

namespace Sys2Proof.Proofs

/-!
What settling earlier accesses leaves as it was (05 R116, R118): a slot's list of deferred accesses and a core's write-combining
buffers lose entries, and what the accesses return is written; nothing else of a slot or core changes.
-/

open Sys2Proof.Machine Sys2Proof.Claim

/-- What performing deferred accesses and draining buffers leaves. -/
structure Settles (s t : State) : Prop where
  hid  : t.hid = s.hid
  plat : t.plat = s.plat
  wf   : s.MemWf → t.MemWf
  slot : ∀ n, ∃ l, l ⊆ (s.slotAt n).pend ∧ Served { s.slotAt n with pend := l } (t.slotAt n)
  core : ∀ n, ∃ l, l ⊆ (s.core n).wc ∧ t.core n = { s.core n with wc := l }

theorem Served.with_pend {x y : Slot} (l : List Pend) : Served x y → Served { x with pend := l } { y with pend := l } := by
  rintro ⟨_, _, _, _, _, rfl⟩
  exact ⟨_, _, _, _, _, rfl⟩

theorem Served.of_pend_eq {x y : Slot} {l : List Pend} (h : y.pend = l) (a : Served x y) : Served { x with pend := l } y := by
  have := a.with_pend l
  subst h
  exact this

namespace Settles

variable {s t : State}

theorem of_serves (a : Serves s t) : Settles s t :=
  ⟨a.hid, a.plat, a.wf, fun n => ⟨_, fun _ h => h, a.slot n⟩, fun n => ⟨_, fun _ h => h, a.core n⟩⟩

theorem refl (s : State) : Settles s s := of_serves (.refl s)

theorem trans {u : State} (a : Settles s t) (b : Settles t u) : Settles s u := by
  refine ⟨b.hid.trans a.hid, b.plat.trans a.plat, b.wf ∘ a.wf, fun n => ?_, fun n => ?_⟩
  · obtain ⟨l, hl, first⟩ := a.slot n
    obtain ⟨k, hk, second⟩ := b.slot n
    rw [first.pend] at hk
    exact ⟨k, fun p hp => hl (hk hp), (first.with_pend k).trans second⟩
  · obtain ⟨l, hl, first⟩ := a.core n
    obtain ⟨k, hk, second⟩ := b.core n
    rw [first] at hk second
    exact ⟨k, fun p hp => hl (hk hp), second⟩

theorem region (a : Settles s t) (pa : Nat) : t.region pa = s.region pa := by
  simp only [State.region, a.plat]

theorem hart (a : Settles s t) : ∃ l, l ⊆ s.hart.pend ∧ Served { s.hart with pend := l } t.hart := by
  have h := a.slot s.hid
  rw [State.slotAt_hid, ← a.hid, State.slotAt_hid] at h
  exact h

theorem foldl {α : Type} {f : State → α → State} (step : ∀ u x, Settles u (f u x)) (l : List α) : ∀ s, Settles s (l.foldl f s) := by
  induction l with
  | nil => exact refl
  | cons x l ih => exact fun s => (step s x).trans (ih _)

theorem record (a : Settles s t) (n : Nat) : (t.slotAt n).record = (s.slotAt n).record := by
  obtain ⟨l, -, h⟩ := a.slot n
  exact h.record

theorem ordr (a : Settles s t) (n : Nat) : (t.slotAt n).ordr = (s.slotAt n).ordr := by
  obtain ⟨l, -, h⟩ := a.slot n
  exact h.ordr

theorem sid (a : Settles s t) (n : Nat) : (t.slotAt n).sid = (s.slotAt n).sid := by
  rw [Slot.sid, a.record, Slot.sid]

theorem pend (a : Settles s t) (n : Nat) : (t.slotAt n).pend ⊆ (s.slotAt n).pend := by
  obtain ⟨l, hl, h⟩ := a.slot n
  rw [h.pend]
  exact hl

theorem wc (a : Settles s t) (n : Nat) : (t.core n).wc ⊆ (s.core n).wc := by
  obtain ⟨l, hl, h⟩ := a.core n
  rw [h]
  exact hl

end Settles

section Parts

variable (s : State)

/-- Of a slot's deferred accesses only some are kept. -/
theorem keepPend_settles (n : Nat) {l : List Pend} (h : l ⊆ (s.slotAt n).pend) :
    Settles s (s.modSlot n (fun x => { x with pend := l })) := by
  have hslot (m : Nat) : ∃ k, k ⊆ (s.slotAt m).pend ∧
      Served { s.slotAt m with pend := k } ((s.modSlot n (fun x => { x with pend := l })).slotAt m) := by
    by_cases hm : m = n
    · rw [hm, State.slotAt_modSlot_same]
      exact ⟨l, h, .refl _⟩
    · rw [State.slotAt_modSlot_of_ne s n m _ hm]
      exact ⟨_, fun _ hp => hp, .refl _⟩
  have hcore (m : Nat) : (s.modSlot n (fun x => { x with pend := l })).core m = s.core m := by
    simp only [State.core, State.modSlot_cores]
  refine ⟨State.modSlot_hid s n _, State.modSlot_plat s n _, fun wf => ?_, hslot, fun m => ⟨_, fun _ hb => hb, hcore m⟩⟩
  rw [State.MemWf, State.modSlot_mem]
  exact wf

theorem performPends_settles (n : Nat) (l : List Pend) : Settles s (l.foldl (fun a p => a.performPend n p) s) :=
  .of_serves (Serves.foldl (fun u p => performPend_serves u n p) l s)

/-- What is left of a list once the marked entries, or the others, are taken. -/
theorem needed_subset (sel : Pend → Bool) (l : List Pend) (q : Pend × Bool → Bool) :
    ((needed sel l).filter q).map (fun e => e.1) ⊆ l := by
  have hmap (l : List Pend) : (needed sel l).map (fun e => e.1) = l := by
    induction l with
    | nil => rfl
    | cons p r ih => simp [needed, ih]
  intro p hp
  obtain ⟨e, he, rfl⟩ := List.mem_map.mp hp
  have := List.mem_map_of_mem (f := fun e : Pend × Bool => e.1) (List.mem_filter.mp he).1
  rwa [hmap] at this

theorem performIf_settles (n : Nat) (sel : Pend → Bool) : Settles s (s.performIf n sel) :=
  (keepPend_settles s n (needed_subset sel _ _)).trans (performPends_settles _ n _)

theorem settleIf_settles (n : Nat) (sel : Pend → Bool) : Settles s (s.settleIf n sel) := by
  unfold State.settleIf
  split
  · exact performIf_settles s n sel
  · exact .refl s

theorem performAll_settles (n : Nat) : Settles s (s.performAll n) :=
  (keepPend_settles s n (List.nil_subset _)).trans (performPends_settles _ n _)

/-- Of a core's buffers only some are kept. -/
theorem keepWc_settles (n : Nat) {f : Core → List WcBuf} (h : f (s.core n) ⊆ (s.core n).wc) :
    Settles s (s.modCore n (fun c => { c with wc := f c })) := by
  refine ⟨rfl, rfl, id, fun m => ⟨_, fun _ hp => hp, .refl _⟩, fun m => ?_⟩
  by_cases hm : m = n
  · rw [hm, State.core_modCore_same]
    exact ⟨_, h, rfl⟩
  · rw [State.core_modCore_of_ne s n m _ hm]
    exact ⟨_, fun _ hb => hb, rfl⟩

theorem drainBufs_serves (core : Nat) (l : List WcBuf) : Serves s (l.foldl (fun a b => a.drainBuf core b) s) :=
  Serves.foldl (fun u b => drainBuf_serves u core b) l s

theorem drainWcIf_settles (core : Nat) (sel : WcBuf → Bool) : Settles s (s.drainWcIf core sel) :=
  (Settles.of_serves (drainBufs_serves s core _)).trans (keepWc_settles _ core (f := fun c => c.wc.filter (fun b => !sel b))
    (List.filter_subset_self _))

/-- The buffers that are left once those of a test have drained. -/
theorem drainWcIf_wc (core : Nat) (sel : WcBuf → Bool) :
    ((s.drainWcIf core sel).core core).wc = (s.core core).wc.filter (fun b => !sel b) := by
  rw [State.drainWcIf, State.core_modCore_same]
  exact congrArg (fun c : Core => c.wc.filter (fun b => !sel b)) ((drainBufs_serves s core _).core core)

theorem settleLine_settles (n a len : Nat) : Settles s (s.settleLine n a len) := by
  unfold State.settleLine
  split
  · exact drainWcIf_settles s _ _
  · exact .refl s

theorem settleRange_settles (n : Nat) (scratch : Bool) (a len : Nat) : Settles s (s.settleRange n scratch a len) :=
  settleIf_settles s n _

theorem settle_settles (pa n : Nat) : Settles s (s.settle pa n) := (settleRange_settles s _ _ _ _).trans (settleLine_settles _ _ _ _)

theorem loadNow_settles (x : Xlate) (pa n : Nat) : Settles s (s.loadNow x pa n).2 :=
  (settle_settles s pa n).trans (.of_serves ((consume_serves _ _ _ _ _).trans (paRead_serves _ _ _ _)))

theorem storeNow_settles (x : Xlate) (va : Word) (pa : Nat) (bs : List Byte) : Settles s (s.storeNow x va pa bs) :=
  (settle_settles s pa _).trans (.of_serves (paWrite_serves _ _ _ _ _ _))

theorem deferGlobal_region (x : Xlate) (k : PendKind) (va : Word) (n : Nat) (el : List PendElem) (plain : Bool) (pa : Nat) :
    (s.deferGlobal x k va n el plain).region pa = s.region pa := (settleLine_settles s _ _ _).region pa

end Parts

end Sys2Proof.Proofs

namespace Sys2Proof.Proofs

/-!
Vector loads and stores of global memory at places of this device (04 R102 to R104).
-/

open Sys2Proof.Machine Sys2Proof.Claim

/-- Two ways to fold a list agree where they agree from every value that an invariant holds of. -/
theorem foldl_eq_of_invariant {α β : Type} {P : β → Prop} {f g : β → α → β} (l : List α)
    (step : ∀ b, P b → ∀ a ∈ l, f b a = g b a ∧ P (g b a)) : ∀ b, P b → l.foldl f b = l.foldl g b := by
  induction l with
  | nil => exact fun _ _ => rfl
  | cons a l ih =>
    intro b hb
    obtain ⟨same, kept⟩ := step b hb a List.mem_cons_self
    rw [List.foldl_cons, List.foldl_cons, same]
    exact ih (fun c hc e he => step c hc e (List.mem_cons_of_mem _ he)) _ kept

/-- The places of the runs of a list begin at elements of the list. -/
theorem runsOf_fst_mem : ∀ {l : List Nat} {e : Nat × Nat}, e ∈ runsOf l → e.1 ∈ l
  | i :: r, e, h => by
    have tail {k : Nat × Nat} (hk : k ∈ runsOf r) : k.1 ∈ i :: r := List.mem_cons_of_mem _ (runsOf_fst_mem hk)
    unfold runsOf at h
    split at h
    · next j c t hr =>
      split at h
      · rcases List.mem_cons.mp h with rfl | ht
        · exact List.mem_cons_self
        · exact tail (hr ▸ List.mem_cons_of_mem _ ht)
      · rcases List.mem_cons.mp h with rfl | ht
        · exact List.mem_cons_self
        · exact tail (hr ▸ ht)
    · rcases List.mem_singleton.mp h with rfl
      exact List.mem_cons_self

/-- An active element of a register lies in its 256 bytes. -/
theorem active_lt (x : Slot) (p : BitVec 3) {i : Nat} (h : i ∈ x.active p) : x.wb * i < 256 := by
  have hi : i < x.lanes := List.mem_range.mp (List.mem_filter.mp h).1
  have hmul : i * x.ew < 2048 := Nat.lt_of_lt_of_le (Nat.mul_lt_mul_of_pos_right hi (Nat.mul_pos (by decide) (Nat.two_pow_pos _)))
    (Nat.div_mul_le_self 2048 x.ew)
  have hew : x.ew = 8 * x.wb := rfl
  rw [hew, Nat.mul_left_comm, Nat.mul_comm i] at hmul
  omega

section Vectors

variable {s s0 : State} {v a b : BitVec 5} {p : BitVec 3} {r t : BitVec 1} {h : BitVec 2} {x : Xlate}

theorem remoteGates_of_near (relaxed : Bool) (k : Result) : ∀ pl : List VPlace, (∀ e ∈ pl, Near s0 e.x.pa) →
    s0.remoteGates h relaxed k pl = k
  | [], _ => rfl
  | e :: r, near => by
    rw [State.remoteGates, remoteGate_of_near (near e List.mem_cons_self),
      remoteGates_of_near relaxed k r fun f hf => near f (List.mem_cons_of_mem _ hf)]

theorem vecEntries_of_plain (plain : s0.hart.record.opt = false) (pl : List VPlace) (c : Bool) : s0.vecEntries pl c = [] := by
  have hflat : pl.flatMap (fun e => s0.storeEntries e.x e.x.pa e.len) = [] :=
    List.flatMap_eq_nil_iff.mpr fun e _ => storeEntries_of_plain plain _ _
  simp [State.vecEntries, hflat]

theorem vecFar_of_plain (plain : s0.hart.record.opt = false) (pl : List VPlace) : s0.vecFar pl = 0 := by
  have hstep : ∀ n : Nat, pl.foldl (fun n (e : VPlace) => n + (s0.farWords e.x e.x.pa e.len).length) n = n := by
    induction pl with
    | nil => exact fun _ => rfl
    | cons e pl ih =>
      intro n
      rw [List.foldl_cons, farWords_of_plain plain, List.length_nil, Nat.add_zero]
      exact ih n
  exact hstep 0

theorem not_any_remote {pl : List VPlace} (near : ∀ e ∈ pl, Near s0 e.x.pa) : pl.any (fun e => s0.isRemote e.x.pa) = false :=
  List.any_eq_false.mpr fun e he => by simp [isRemote_of_near (near e he)]

/-- A vector store to places of this device by a strand that is no logical process: each place in turn. -/
theorem vecStore_near {pl : List VPlace} (near : ∀ e ∈ pl, Near s0 e.x.pa) (plain : s0.hart.record.opt = false) (c : Bool) :
    s0.logThenFar h (s0.vecEntries pl c) (s0.vecFar pl) (fun s2 => s2.vecPut pl (s2.hart.getV v) (decide (r = 1)) (decide (t = 1)) h) =
      (pl.foldl (fun (u : State) e => u.vecPlace e (s0.hart.getV v) (decide (r = 1)) (decide (t = 1))) s0).done h id := by
  rw [vecEntries_of_plain plain, vecFar_of_plain plain, logThenFar_nothing, State.vecPut, not_any_remote near]
  rfl

theorem vecLdG_near (ready : Ready s { Need.access with vs := [v] }) (near : Near s0 x.pa) (calm : Calm s0)
    (some_ : ¬ (s.hart.active p).isEmpty = true) (aligned : (s.hart.getG a + s.hart.getG b).toNat % 256 = 0)
    (trans : s.translate (quadOf (s.hid / 16)) s.hart.pid s.hart.status.exec (s.hart.getG a + s.hart.getG b) .read = (.ok x, s0)) :
    s.vecLdG v a b p r h =
      if r = 1 then
        (s0.deferGlobal x (.loadV (physV s0.hart.vwin v) s0.hart.wb) (s.hart.getG a + s.hart.getG b) 256
          (s0.hart.elemsAt (s0.hart.active p) x.pa 0)).done h id
      else (s0.loadNow x x.pa 256).2.done h (fun y =>
        y.setV v (vMerge (y.getV v) (bytesV (s0.loadNow x x.pa 256).1) y.wb (y.active p))) := by
  rw [State.vecLdG, issue_of_ready ready, if_neg some_, globalCheck_of_aligned aligned, trans]
  simp only
  rw [remoteGate_of_near near, beforeAccess_of_calm calm]
  exact region_match_of_near near _ _

theorem vecStG_near (ready : Ready s { Need.access with vs := [v] }) (near : Near s0 x.pa)
    (nears : ∀ e ∈ s0.hart.runPlaces (s.hart.getG a + s.hart.getG b) x (s0.hart.active p), Near s0 e.x.pa)
    (calm : Calm s0) (plain : s0.hart.record.opt = false)
    (some_ : ¬ (s.hart.active p).isEmpty = true) (aligned : (s.hart.getG a + s.hart.getG b).toNat % 256 = 0)
    (trans : s.translate (quadOf (s.hid / 16)) s.hart.pid s.hart.status.exec (s.hart.getG a + s.hart.getG b) .write = (.ok x, s0)) :
    s.vecStG v a b p r t h =
      ((s0.hart.runPlaces (s.hart.getG a + s.hart.getG b) x (s0.hart.active p)).foldl (fun (u : State) e =>
        u.vecPlace e (s0.hart.getV v) (decide (r = 1)) (decide (t = 1))) s0).done h id := by
  rw [State.vecStG, issue_of_ready ready, if_neg some_, globalCheck_of_aligned aligned, trans]
  simp only
  rw [optstAt_of_plain plain, remoteGate_of_near near, beforeStore_of_calm calm]
  exact vecStore_near nears plain true

/-- One element of a gather from this device: read now, or deferred. -/
def gatherStep (v : BitVec 5) (r : BitVec 1) (y : Slot) (c : State × VReg) (e : VPlace) : State × VReg :=
  if r = 1 then
    (c.1.deferGlobal e.x (.loadV (physV y.vwin v) y.wb) e.va y.wb [{ addr := e.x.pa, len := y.wb, idx := e.idx, data := 0 }], c.2)
  else ((c.1.loadNow e.x e.x.pa y.wb).2, vPut c.2 (y.wb * e.idx) (c.1.loadNow e.x e.x.pa y.wb).1)

theorem gatherG_near {pl : List VPlace} (ready : Ready s { Need.access with vs := [v, b] }) (near : ∀ e ∈ pl, Near s0 e.x.pa)
    (calm : Calm s0) (some_ : pl ≠ []) (places : s.gatherPlaces a b .read (s.hart.active p) = (.ok pl, s0)) :
    s.gatherG v a b p r h =
      (pl.foldl (gatherStep v r s0.hart) (s0, s0.hart.getV v)).1.done h (fun y =>
        y.setV v (pl.foldl (gatherStep v r s0.hart) (s0, s0.hart.getV v)).2) := by
  have hempty : ¬ pl.isEmpty = true := fun e => some_ (List.isEmpty_iff.mp e)
  rw [State.gatherG, issue_of_ready ready, places]
  simp only
  rw [if_neg hempty, remoteGates_of_near _ _ pl near, beforeAccess_of_calm calm, not_any_remote near]
  simp only [Bool.false_eq_true, if_false, Bool.false_and]
  rw [foldl_eq_of_invariant (g := gatherStep v r s0.hart) (P := fun c => ∀ pa, c.1.region pa = s0.region pa) pl]
  · rfl
  · intro c hc e he
    constructor
    · have near : Near c.1 e.x.pa := fun dev off => hc e.x.pa ▸ near e he dev off
      unfold gatherStep
      split
      · next dev off far => exact absurd far (near dev off)
      · by_cases hr : r = 1 <;> simp [hr]
    · unfold gatherStep
      split
      · exact fun pa => (deferGlobal_region _ _ _ _ _ _ _ pa).trans (hc pa)
      · exact fun pa => ((loadNow_settles _ _ _ _).region pa).trans (hc pa)
  · exact fun _ => rfl

/-- A relaxed gather defers its elements in turn and leaves its register. -/
theorem gatherStep_relaxed (y : Slot) (w : VReg) (pl : List VPlace) : ∀ u : State,
    pl.foldl (gatherStep v 1 y) (u, w) =
      (pl.foldl (fun (t1 : State) e => t1.deferGlobal e.x (.loadV (physV y.vwin v) y.wb) e.va y.wb
        [{ addr := e.x.pa, len := y.wb, idx := e.idx, data := 0 }]) u, w) := by
  induction pl with
  | nil => exact fun _ => rfl
  | cons e pl ih => exact fun u => ih _

theorem scatterG_near {pl : List VPlace} (ready : Ready s { Need.access with vs := [v, b] }) (near : ∀ e ∈ pl, Near s0 e.x.pa)
    (calm : Calm s0) (plain : s0.hart.record.opt = false) (some_ : pl ≠ [])
    (places : s.gatherPlaces a b .write (s.hart.active p) = (.ok pl, s0)) :
    s.scatterG v a b p r t h =
      (pl.foldl (fun (u : State) e => u.vecPlace e (s0.hart.getV v) (decide (r = 1)) (decide (t = 1))) s0).done h id := by
  have hempty : ¬ pl.isEmpty = true := fun e => some_ (List.isEmpty_iff.mp e)
  rw [State.scatterG, issue_of_ready ready, places]
  simp only
  rw [if_neg hempty, remoteGates_of_near _ _ pl near, beforeStore_of_calm calm]
  exact vecStore_near near plain false

end Vectors

/-- A contiguous or gathered vector access of global memory. -/
theorem globalVectors : GlobalVectors := by
  intro s s0 v a b p r t h x pl ready plain calm same l wb ea q k put
  have calm0 : Calm s0 := calm_of_hart same calm
  have plain0 : s0.hart.record.opt = false := same ▸ plain
  refine ⟨fun hl => ?_, fun hl nears aligned => ?_, fun ready2 hpl nears => ?_⟩
  · have hempty : (s.hart.active p).isEmpty = true := List.isEmpty_iff.mpr hl
    have hld : exec (.vldG v a b p r h) s = s.vecLdG v a b p r h := rfl
    have hst : exec (.vstG v a b p r t h) s = s.vecStG v a b p r t h := rfl
    rw [State.vecLdG, issue_of_ready ready, if_pos hempty] at hld
    rw [State.vecStG, issue_of_ready ready, if_pos hempty] at hst
    exact ⟨hld, hst⟩
  · have hempty : ¬ (s.hart.active p).isEmpty = true := fun e => hl (List.isEmpty_iff.mp e)
    have near : Near s0 x.pa := nears 0 (by decide)
    constructor
    · intro trans
      have load := vecLdG_near (r := r) (h := h) ready near calm0 hempty aligned trans
      rw [same] at load
      constructor
      · rintro rfl
        exact load
      · rintro rfl
        exact load
    · intro trans
      have places : ∀ e ∈ s0.hart.runPlaces (s.hart.getG a + s.hart.getG b) x (s0.hart.active p), Near s0 e.x.pa := by
        intro e he
        obtain ⟨run, hrun, rfl⟩ := List.mem_map.mp he
        exact nears _ (active_lt _ _ (runsOf_fst_mem hrun))
      have store := vecStG_near (r := r) (t := t) (h := h) ready near places calm0 plain0 hempty aligned trans
      rw [same] at store
      exact store
  · constructor
    · intro places
      have gather := gatherG_near (r := r) (h := h) ready2 nears calm0 hpl places
      rw [same] at gather
      constructor
      · rintro rfl
        exact gather
      · rintro rfl
        rw [gatherStep_relaxed] at gather
        exact gather
    · intro places
      have scatter := scatterG_near (r := r) (t := t) (h := h) ready2 nears calm0 plain0 hpl places
      rw [same] at scatter
      exact scatter

/-- A non-temporal store to a place of HBM4 by a strand that is no logical process enters the write-combining buffers. -/
theorem ntPlace_near {s : State} {x : Xlate} {va : Word} {bs : List Byte}
    (near : Near (s.settleRange s.hid false x.pa bs.length) x.pa) :
    s.ntPlace x va bs = (s.settleRange s.hid false x.pa bs.length).wcStore (s.settleRange s.hid false x.pa bs.length).coreNo
      (s.settleRange s.hid false x.pa bs.length).hart.sid (s.settleRange s.hid false x.pa bs.length).hart.pid va x.pa bs := by
  unfold State.ntPlace
  simp only
  split
  · next dev off _ _ far _ => exact absurd far (near dev off)
  · rfl

theorem vectorStoreElements : VectorStoreElements := by
  intro s v relaxed e hbm plain bs s1
  have near : Near s e.x.pa := fun dev off => by rw [hbm]; exact nofun
  refine ⟨fun hbm1 => ?_, ?_, ?_, fun k n el uncovered => ?_⟩
  · exact ntPlace_near fun dev off => by rw [show State.region _ e.x.pa = _ from hbm1]; exact nofun
  · rw [State.vecPlace, if_neg (by simp), putPlace_near near, hbm]
    rfl
  · rw [State.vecPlace, if_neg (by simp), putPlace_near near, hbm]
    rfl
  · have hany : (s.core (s.hid / 16)).wc.any (fun b => b.covers (s.slotAt s.hid).sid e.x.pa n) = false :=
      List.any_eq_false.mpr fun w hw => Bool.not_eq_true _ ▸ uncovered w hw
    unfold State.deferGlobal State.settleLine
    rw [if_neg (Bool.not_eq_true _ ▸ hany)]
    exact ⟨_, rfl, rfl, rfl, rfl, rfl⟩

/-- Settles O44. -/
theorem globalVectorAccesses : Obligations.GlobalVectorAccesses := ⟨globalVectors, vectorStoreElements⟩

end Sys2Proof.Proofs

namespace Sys2Proof.Proofs

/-!
A bank switch over memory that is not in its canonical form (04 R85). The statement speaks of every state; in one whose cells do not
rise, removing a bank's cells uncovers a cell that was hidden behind them.
-/

open Sys2Proof.Machine Sys2Proof.Claim

/-- A FIFO bank with a switch to scratchpad mode queued, and a cell at address 0 listed behind one of the bank's. -/
def hiddenCell : State :=
  { State.reset.modBank 0 0 (fun k => { k with mode := 2, queue := [(7, 1)] }) with mem := [(spBase 0, 1), (0, 5)] }

/-- What address 0 reads as in the state of an outcome. -/
def firstByte (r : Result) : Option Byte :=
  match r with
  | .next t => some (memGet t.mem 0)
  | _ => none

theorem hiddenCell_bank : ((hiddenCell.tile 0).bank 0).queue = [(7, 1)] ∧ ((hiddenCell.tile 0).bank 0).waits = [] ∧
    ((hiddenCell.tile 0).bank 0).held = [] ∧ ((hiddenCell.tile 0).bank 0).mode = 2 ∧ alGet hiddenCell.away 7 = none := by
  decide +kernel

theorem hiddenCell_idle (n : Nat) : (hiddenCell.slotAt n).pend = [] := by
  unfold State.slotAt
  split <;> rfl

/-- The switch uncovers the cell. -/
theorem hiddenCell_uncovered : firstByte (exec (.bankSwitch 0 0) hiddenCell) = some 5 := by decide +kernel

/-- Before it, address 0 reads as 0. -/
theorem hiddenCell_hidden : memGet hiddenCell.mem 0 = 0 := by decide +kernel

/-- Refutes O45: of a memory that is not in its canonical form the switch changes what a byte outside the bank reads as. -/
theorem not_bankSwitches : ¬ Obligations.BankSwitches := by
  rintro ⟨-, performed⟩
  obtain ⟨queue, waits, held, mode, away⟩ := hiddenCell_bank
  obtain ⟨u, hexec, -, -, -, -, -, -, hmem⟩ := performed hiddenCell 0 0 7 1 (by decide) queue waits held hiddenCell_idle away
  have read : memGet u.mem 0 = 5 := Option.some.inj ((congrArg firstByte hexec).symm.trans hiddenCell_uncovered)
  have kept := hmem 0
  rw [read, mode, if_neg (by decide), if_neg (by decide), hiddenCell_hidden] at kept
  exact absurd kept (by decide)

end Sys2Proof.Proofs

namespace Sys2Proof.Proofs

/-!
A wait list that holds a chained entry though it has room (06 R148, R151). The statement speaks of every state; in this one, joining
the list takes the chained entry into it, so that the entries before the new one do not stay as they were.
-/

open Sys2Proof.Machine Sys2Proof.Claim

/-- A strand about to store to the full word at the start of bank 3 of tile 2, whose wait list holds one entry, chained. -/
def chainedEntry : State :=
  (placed.modBank 2 3 (fun b => { b with mode := 1, pid := 1, waits := [{ strand := 9, what := .held, chained := true }] })).modHart
    (fun x => x.setG 2 0x2300000)

theorem chainedEntry_ready : Ready chainedEntry Need.access ∧ Calm chainedEntry ∧
    spLoc (chainedEntry.hart.getG 2) = some (.sram 2 3 0) ∧ ((chainedEntry.tile 2).bank 3).sw = false ∧
    ((chainedEntry.tile 2).bank 3).held = [] ∧ chainedEntry.hart.status.exec = true ∧ ((chainedEntry.tile 2).bank 3).mode = 1 ∧
    (chainedEntry.tile 2).ownerOf (slabOf 3 0) = 0 ∧ (chainedEntry.hart.getG 2).toNat % 8 = 0 := by
  decide +kernel

/-- The state in which the word is looked at, and what it shows. -/
theorem chainedEntry_settled :
    let s1 := chainedEntry.settleRange chainedEntry.hid true (chainedEntry.hart.getG 2).toNat 8
    s1.hart.status.unwr = false ∧ (s1.tile (spBankOf (chainedEntry.hart.getG 2).toNat).1).isEmptyWord (chainedEntry.hart.getG 2).toNat = false ∧
      (((s1.tile 2).bank 3).waits.filter (fun e => !e.chained)).length < 64 ∧ (((s1.tile 2).bank 3).waits.any (fun e => e.chained)) = true := by
  decide +kernel

/-- Some entry on the wait list of bank 3 of tile 2 is chained, in the state of an outcome. -/
def someChained (r : Result) : Bool := outcomeHas r (fun u => ((u.tile 2).bank 3).waits.any (fun e => e.chained))

theorem chainedEntry_taken : someChained (exec (.stf 2 1 0) chainedEntry) = false := by decide +kernel

/-- Refutes O14: a strand that joins a list with room and a chained entry takes that entry into the list. -/
theorem not_fullEmpty : ¬ Obligations.FullEmpty := by
  intro claim
  obtain ⟨ready, calm, loc, sw, held, exec_, mode, owner, aligned⟩ := chainedEntry_ready
  obtain ⟨unwr, full, room, chained⟩ := chainedEntry_settled
  obtain ⟨onFull, -⟩ := claim chainedEntry 0 2 1 0 2 3 0 ready calm ⟨loc, sw, held, .inl exec_⟩ mode owner aligned unwr
  obtain ⟨-, -, ⟨parks, -⟩, -, -⟩ := onFull full
  obtain ⟨u, hexec, -, -, -, -, hwaits⟩ := parks room
  have none_ : ((u.tile 2).bank 3).waits.any (fun e => e.chained) = false :=
    (congrArg someChained hexec).symm.trans chainedEntry_taken
  rw [hwaits, List.any_append, chained] at none_
  exact Bool.noConfusion none_

end Sys2Proof.Proofs

namespace Sys2Proof.Proofs

/-!
The events of the memory hierarchy (04 R97, R99, R104, R105; 05 R116).
-/

open Sys2Proof.Machine Sys2Proof.Claim

section Deferred

variable {s : State} {n : Nat} {p : Pend} {r : List Pend}

/-- The oldest deferred access of a slot is performed, and leaves the list, unless its packet has come back. -/
theorem packetPerform_first (hp : (s.slotAt n).pend = p :: r) (back : s.plat.returned.contains (n / 16) = false) :
    s.packetPerform n 0 = (s.modSlot n (fun x => { x with pend := r })).performPend n p := by
  have erased : s.modSlot n (fun x => { x with pend := x.pend.eraseIdx 0 }) = s.modSlot n (fun x => { x with pend := r }) := by
    simp only [State.modSlot, hp, List.eraseIdx_cons_zero]
  simp only [State.packetPerform, back, Bool.and_false, Bool.false_eq_true, if_false, State.performAt, hp,
    List.getElem?_cons_zero, List.take_zero, List.any_nil, erased]

theorem deferredEvents (hp : (s.slotAt n).pend = p :: r) (back : s.plat.returned.contains (n / 16) = false) :
    let s1 := (s.modSlot n (fun x => { x with pend := r })).performPend n p
    (∀ d, p.kind = .loadG d → exec (.loadReturn n 0) s = .next s1) ∧
    (∀ v w, p.kind = .loadV v w → exec (.loadReturn n 0) s = .next s1) ∧
    (p.kind = .store → exec (.storePerform n 0) s = .next s1) ∧
    (∀ o w, p.kind = .red o w → exec (.amoHomePerform n 0) s = .next s1) := by
  have first : (s.slotAt n).pend[0]? = some p := by rw [hp]; rfl
  have performed := packetPerform_first hp back
  refine ⟨fun d kind => ?_, fun v w kind => ?_, fun kind => ?_, fun o w kind => ?_⟩
  · show execLoadReturn n 0 s = _
    simp only [execLoadReturn, first, kind, performed]
  · show execLoadReturn n 0 s = _
    simp only [execLoadReturn, first, kind, performed]
  · show execStorePerform n 0 s = _
    simp only [execStorePerform, first, kind, performed]
  · show execAmoHomePerform n 0 s = _
    simp only [execAmoHomePerform, first, kind, performed]

end Deferred

/-- A walk that finds an entry has it cached, in place of the oldest one of a full station. -/
theorem walkDone {s : State} {st : Nat} {pid : BitVec 12} {va : Word} {e : TlbEntry} (hst : st < 8) (hva : va.toNat < 2 ^ 57)
    (new : s.tlbFind st pid va.toNat = none) (found : s.walk st pid va.toNat = .ok e) (station : e.station = st) :
    exec (.translationWalkDone st pid va) s = .next { s with tlb :=
      if 69632 ≤ (s.tlb.filter (fun k => k.station = st)).length then (s.tlb ++ [e]).eraseP (fun k => k.station = st) else s.tlb ++ [e] } := by
  have top : fld va 63 57 = 0 := by
    rw [fld, Nat.div_eq_of_lt hva, Nat.zero_mod]
  show execTranslationWalkDone st pid va s = _
  simp [execTranslationWalkDone, top, Nat.not_le.mpr hst, new, found, State.tlbAdd, tlbCapacity, station]

/-- Settles O12. -/
theorem hierarchyEvents : Obligations.HierarchyEvents := by
  refine ⟨fun s n p r hp back => deferredEvents hp back, fun s st pid va e hst hva new found station => ?_, fun s c w r hwc hold => ?_,
    fun s f r hf => ?_, fun s pid vpn => ⟨⟨_, rfl, fun e => ?_⟩, ⟨_, rfl, fun e => ?_⟩, rfl⟩⟩
  · have done := walkDone hst hva new found station
    constructor
    · intro room
      rw [if_neg (Nat.not_le.mpr room)] at done
      exact done
    · intro full
      rw [if_pos full] at done
      exact done
  · show execWcDrain c 0 s = _
    simp [execWcDrain, hold, State.drainAt, hwc]
  · show execPrefetchFill 0 s = _
    simp [execPrefetchFill, hf]
  · simp only [List.mem_filter, Bool.not_eq_true', Bool.and_eq_false_iff, decide_eq_false_iff_not]
    tauto
  · simp [List.mem_filter]

end Sys2Proof.Proofs

namespace Sys2Proof.Proofs

/-!
Fences, releases and acquires (05 R118): when their actions may begin, what they are, and what they leave.
-/

open Sys2Proof.Machine Sys2Proof.Claim

/-! ## Tiles -/

theorem claim_tiles (s : State) (pid : BitVec 12) (sec : Nat) : (s.claim pid sec).tiles = s.tiles := by
  rcases claim_cases s pid sec with ⟨e, -⟩ | ⟨-, -, e⟩ | ⟨-, e⟩ <;> rw [e]

theorem homePut_tiles (pid : BitVec 12) (bs : List Byte) : ∀ (s : State) (pa : Nat), (s.homePut pid pa bs).tiles = s.tiles := by
  induction bs with
  | nil => exact fun _ _ => rfl
  | cons b bs ih => exact fun s pa => (ih _ _).trans (claim_tiles s pid _)

theorem homePutMask_tiles (pid : BitVec 12) (line : Nat) (mask : Mask) (data : VReg) (n : Nat) :
    ∀ (s : State) (i : Nat), (s.homePutMask pid line mask data i n).tiles = s.tiles := by
  induction n with
  | zero => exact fun _ _ => rfl
  | succ n ih =>
    intro s i
    rw [State.homePutMask, ih]
    split
    · exact claim_tiles s pid _
    · rfl

theorem flushLine_tiles (s : State) (c : CLine) : (s.flushLine c).tiles = s.tiles := homePutMask_tiles _ _ _ _ _ _ _

/-- Writing home lines of a list changes no tile. -/
theorem flushLines_tiles (sel : CLine → Bool) (l : List CLine) : ∀ s : State,
    (l.foldl (fun (a : State) c => if sel c then a.flushLine c else a) s).tiles = s.tiles := by
  induction l with
  | nil => exact fun _ => rfl
  | cons c l ih =>
    intro s
    rw [List.foldl_cons, ih]
    split
    · exact flushLine_tiles s c
    · rfl

theorem modStrand_tiles (s : State) (sid : Nat) (f : Slot → Slot) : (s.modStrand sid f).tiles = s.tiles := by
  unfold State.modStrand
  split
  · exact State.modSlot_tiles s _ _
  · split <;> rfl

theorem homeStore_tiles (s : State) (strand : Nat) (pid : BitVec 12) (va : Word) (pa : Nat) (bs : List Byte) :
    (s.homeStore strand pid va pa bs).tiles = s.tiles := by
  unfold State.homeStore
  split
  · exact homePut_tiles _ _ _ _
  · rfl
  · split <;> rfl
  · split
    · exact (remoteSend_asks s _).tiles
    · exact modStrand_tiles s _ _
  · rfl

theorem storeRuns_tiles (strand : Nat) (pid : BitVec 12) (va : Word) (line : Nat) (mask : Mask) (data : VReg) (n : Nat) :
    ∀ (s : State) (i : Nat) (run : List Byte), (s.storeRuns strand pid va line mask data i run n).tiles = s.tiles := by
  induction n with
  | zero =>
    intro s i run
    unfold State.storeRuns
    split
    · rfl
    · exact homeStore_tiles s _ _ _ _ _
  | succ n ih =>
    intro s i run
    unfold State.storeRuns
    split
    · exact ih _ _ _
    · rw [ih]
      split
      · rfl
      · exact homeStore_tiles s _ _ _ _ _

theorem tile_of_tiles {s t : State} (same : t.tiles = s.tiles) (n : Nat) : t.tile n = s.tile n := by
  simp only [State.tile, same]

/-- A line written home and dropped leaves lines that stood before. -/
theorem dropCached_cache (s : State) (k line n : Nat) : ((s.dropCached k line).tile n).cache ⊆ (s.tile n).cache := by
  unfold State.dropCached
  split
  · exact fun _ h => h
  · next c _ =>
    have same := tile_of_tiles (flushLine_tiles s c)
    by_cases hn : n = k
    · rw [hn, State.tile_modTile_same, same]
      exact List.filter_subset_self _
    · rw [State.tile_modTile_of_ne _ _ _ _ hn, same]
      exact fun _ h => h

/-- A buffer that drains leaves cached lines that stood before. -/
theorem drainBuf_cache (s : State) (core : Nat) (b : WcBuf) (n : Nat) : ((s.drainBuf core b).tile n).cache ⊆ (s.tile n).cache := by
  unfold State.drainBuf
  split
  · rw [tile_of_tiles (homePutMask_tiles _ _ _ _ _ _ _)]
    exact dropCached_cache s _ _ n
  · rw [tile_of_tiles (storeRuns_tiles _ _ _ _ _ _ _ _ _ _)]
    exact fun _ h => h

theorem drainWcIf_cache (s : State) (core : Nat) (sel : WcBuf → Bool) (n : Nat) :
    ((s.drainWcIf core sel).tile n).cache ⊆ (s.tile n).cache := by
  suffices ∀ (l : List WcBuf) (s : State), ((l.foldl (fun a b => a.drainBuf core b) s).tile n).cache ⊆ (s.tile n).cache from
    this _ s
  intro l
  induction l with
  | nil => exact fun _ _ h => h
  | cons b l ih => exact fun s _ h => drainBuf_cache s core b n (ih _ h)

/-! ## The parts of a release and of an acquire -/

section Parts

variable (s : State)

theorem flushLines_serves (sel : CLine → Bool) (l : List CLine) :
    Serves s (l.foldl (fun (a : State) c => if sel c then a.flushLine c else a) s) := by
  refine Serves.foldl (fun u c => ?_) l s
  split
  · exact flushLine_serves u c
  · exact .refl u

theorem coreWriteBack_serves (core : Nat) : Serves s (s.coreWriteBack core) := by
  unfold State.coreWriteBack State.writeBackTile
  split
  · exact (Serves.foldl (fun u c => flushLine_serves u c) _ s).trans (modTile_serves _ _ _)
  · exact .refl s

theorem coreInvalidate_serves (core : Nat) (mask : BitVec 2) : Serves s (s.coreInvalidate core mask) := by
  unfold State.coreInvalidate State.invalidateTile
  split
  · exact (flushLines_serves s _ _).trans (modTile_serves _ _ _)
  · exact .refl s

theorem releaseActions_settles (n x : Nat) : Settles s (s.releaseActions n x) := by
  have back : Settles s (if 2 ≤ x then (s.performAll n).coreWriteBack (n / 16) else s.performAll n) := by
    split
    · exact (performAll_settles s n).trans (.of_serves (coreWriteBack_serves _ _))
    · exact performAll_settles s n
  unfold State.releaseActions
  simp only
  split
  · exact back.trans (drainWcIf_settles _ _ _)
  · exact back

theorem acquireActions_settles (n x : Nat) (mask : BitVec 2) : Settles s (s.acquireActions n x mask) := by
  unfold State.acquireActions
  simp only
  split
  · exact (settleIf_settles s n _).trans (.of_serves (coreInvalidate_serves _ _ _))
  · exact settleIf_settles s n _

/-- Once every deferred access of a slot is performed, none is left. -/
theorem performAll_pend (n : Nat) : ((s.performAll n).slotAt n).pend = [] := by
  have kept := (Serves.foldl (fun u p => performPend_serves u n p) (s.slotAt n).pend (s.modSlot n (fun x => { x with pend := [] }))).slot n
  rw [State.slotAt_modSlot_same] at kept
  exact kept.pend

/-- Of the accesses that are not needed none is selected. -/
theorem needed_rest (sel : Pend → Bool) (l : List Pend) {p : Pend}
    (hp : p ∈ ((needed sel l).filter (fun e => !e.2)).map (fun e => e.1)) : sel p = false := by
  have marks : ∀ l : List Pend, ∀ e ∈ needed sel l, e.2 = false → sel e.1 = false := by
    intro l
    induction l with
    | nil => exact nofun
    | cons q r ih =>
      intro e he hfalse
      rcases List.mem_cons.mp he with rfl | hr
      · exact (Bool.or_eq_false_iff.mp hfalse).1
      · exact ih e hr hfalse
  obtain ⟨e, he, rfl⟩ := List.mem_map.mp hp
  obtain ⟨hmem, hnot⟩ := List.mem_filter.mp he
  exact marks l e hmem (by simpa using hnot)

/-- Once the accesses that a test selects are settled, none of them is left. -/
theorem settleIf_pend (n : Nat) (sel : Pend → Bool) {p : Pend} (hp : p ∈ ((s.settleIf n sel).slotAt n).pend) : sel p = false := by
  unfold State.settleIf at hp
  split at hp
  · have kept := (Serves.foldl (fun u p => performPend_serves u n p)
      (((needed sel (s.slotAt n).pend).filter (fun e => e.2)).map (fun e => e.1))
      (s.modSlot n (fun x => { x with pend := ((needed sel (s.slotAt n).pend).filter (fun e => !e.2)).map (fun e => e.1) }))).slot n
    rw [State.slotAt_modSlot_same] at kept
    rw [State.performIf, kept.pend] at hp
    exact needed_rest sel _ hp
  · next none_ => exact Bool.eq_false_iff.mpr (fun h => none_ (List.any_eq_true.mpr ⟨p, hp, h⟩))

/-- WriteBackTile for a core at tile scope or wider. -/
theorem coreWriteBack_at (core X : Nat) : (if 2 ≤ X then s.coreWriteBack core else s) =
    if 2 ≤ X ∧ isService core = false then
      ((s.tile (tileOf core)).cache.foldl (fun (u : State) c => u.flushLine c) s).modTile (tileOf core) (fun k =>
        { k with cache := k.cache.map (fun c => { c with dirty := 0 }) })
    else s := by
  cases hs : isService core <;> simp [State.coreWriteBack, cacheTile, hs, State.writeBackTile]

/-- InvalidateTile for a core at tile scope or wider. -/
theorem coreInvalidate_at (core X : Nat) (mask : BitVec 2) : (if 2 ≤ X then s.coreInvalidate core mask else s) =
    if 2 ≤ X ∧ isService core = false then
      ((s.tile (tileOf core)).cache.foldl (fun (u : State) k => if maskNames mask k.hint then u.flushLine k else u) s).modTile
        (tileOf core) (fun k => { k with cache := k.cache.filter (fun k => !maskNames mask k.hint) })
    else s := by
  cases hs : isService core <;> simp [State.coreInvalidate, cacheTile, hs, State.invalidateTile]

end Parts

section Waiting

variable {s : State} {n : Nat} {o : Machine.Ordering}

/-- A line of another device's in a strand's buffer. -/
theorem farLine_iff {sid : Nat} {b : WcBuf} :
    s.farLine sid b = true ↔ b.strand = sid ∧ ∃ dev off, s.region (256 * b.line) = .remote dev off := by
  unfold State.farLine
  cases hr : s.region (256 * b.line) <;> simp

theorem orderSends_iff : s.orderSends n o = true ↔ o.kind ≠ 2 ∧ 6 ≤ o.scope.toNat ∧ ∃ b ∈ (s.core (n / 16)).wc,
    b.strand = (s.slotAt n).sid ∧ ∃ dev off, s.region (256 * b.line) = .remote dev off := by
  simp only [State.orderSends, State.farBuffered, Bool.and_eq_true, decide_eq_true_eq, List.any_eq_true, farLine_iff]
  tauto

/-- An answer that an ordering instruction waits for. -/
theorem orderWaits_iff {sid : Nat} : s.orderWaits sid o = true ↔ ∃ r ∈ s.remote, r.strand = sid ∧
    (r.kind = .load ∨ (∃ k dbl, r.kind = .amo k dbl false) ∨ (o.kind ≠ 2 ∧ 6 ≤ o.scope.toNat)) := by
  simp only [State.orderWaits, List.any_eq_true, Bool.and_eq_true, decide_eq_true_eq]
  refine exists_congr fun r => and_congr_right fun _ => and_congr_right fun _ => ?_
  cases hk : r.kind with
  | load => simp
  | store => simp [and_comm]
  | amo k dbl isRed => cases isRed <;> simp [and_comm]

theorem drainHeld_iff : s.drainHeld n o = true ↔ o.kind ≠ 2 ∧ 5 ≤ o.scope.toNat ∧ (s.core (n / 16)).hold = true ∧
    ∃ b ∈ (s.core (n / 16)).wc, b.strand = (s.slotAt n).sid := by
  simp only [State.drainHeld, Bool.and_eq_true, decide_eq_true_eq, List.any_eq_true]
  tauto

theorem orderingActionsDone_eq (ho : (s.slotAt n).ordr = some o) : exec (.orderingActionsDone n) s =
    .next (if s.orderSends n o then s.sendBuffers n else if s.orderOpen n o then s else s.orderingDone n) := by
  show execOrderingActionsDone n s = _
  rw [execOrderingActionsDone, ho]
  simp only
  split
  · rfl
  · split <;> rfl

/-- Sending the buffers that hold lines of other devices leaves none of them, and the ordering instruction waiting. -/
theorem sendBuffers_sends : ((s.sendBuffers n).slotAt n).ordr = (s.slotAt n).ordr ∧
    ∀ b ∈ ((s.sendBuffers n).core (n / 16)).wc, ¬ s.farLine (s.slotAt n).sid b = true := by
  unfold State.sendBuffers State.drainFar
  split
  · refine ⟨(drainWcIf_settles s _ _).ordr n, fun b hb => ?_⟩
    rw [drainWcIf_wc] at hb
    simpa using (List.mem_filter.mp hb).2
  · next none_ =>
    exact ⟨rfl, fun b hb far => none_ (List.any_eq_true.mpr ⟨b, hb, far⟩)⟩

end Waiting

/-! ## The actions together -/

section Actions

variable (s : State) (n : Nat) (o : Machine.Ordering)

/-- What a release leaves: the state its actions lead to, or the state as it was where the instruction is no release. -/
def released : State := if o.kind = 2 then s else s.releaseActions n o.scope.toNat

/-- What the acquire after it leaves. -/
def acquired : State :=
  if o.kind = 1 then released s n o else (released s n o).acquireActions n o.scope.toNat (if o.kind = 2 then o.mask else 0)

theorem orderingDone_of_some (ho : (s.slotAt n).ordr = some o) :
    s.orderingDone n = (acquired s n o).modSlot n (fun x => { x with ordr := none }) := by
  simp only [State.orderingDone, ho]
  rfl

theorem released_settles : Settles s (released s n o) := by
  unfold released
  split
  · exact .refl s
  · exact releaseActions_settles s n _

theorem acquired_settles : Settles (released s n o) (acquired s n o) := by
  unfold acquired
  split
  · exact .refl _
  · exact acquireActions_settles _ n _ _

end Actions

section Left

variable {s : State} {n X : Nat}

/-- The write-back part of a release. -/
def writtenBack (s : State) (n X : Nat) : State :=
  if 2 ≤ X then (s.performAll n).coreWriteBack (n / 16) else s.performAll n

theorem releaseActions_eq : s.releaseActions n X =
    if 5 ≤ X then (writtenBack s n X).drainWc (n / 16) ((writtenBack s n X).slotAt n).sid else writtenBack s n X := rfl

theorem writtenBack_serves (s : State) (n X : Nat) : Serves (s.performAll n) (writtenBack s n X) := by
  unfold writtenBack
  split
  · exact coreWriteBack_serves _ _
  · exact .refl _

theorem releaseActions_pend : ((s.releaseActions n X).slotAt n).pend = [] := by
  have back : Settles (s.performAll n) (s.releaseActions n X) := by
    rw [releaseActions_eq]
    split
    · exact (Settles.of_serves (writtenBack_serves s n X)).trans (drainWcIf_settles _ _ _)
    · exact .of_serves (writtenBack_serves s n X)
  exact List.eq_nil_of_subset_nil (performAll_pend s n ▸ back.pend n)

theorem releaseActions_wc (wide : 5 ≤ X) {b : WcBuf} (hb : b ∈ ((s.releaseActions n X).core (n / 16)).wc) :
    b.strand ≠ ((s.releaseActions n X).slotAt n).sid := by
  rw [releaseActions_eq, if_pos wide] at hb ⊢
  have same := (drainWcIf_settles (writtenBack s n X) (n / 16) (fun b => b.strand = ((writtenBack s n X).slotAt n).sid)).sid n
  rw [State.drainWc, drainWcIf_wc] at hb
  rw [State.drainWc, same]
  simpa using (List.mem_filter.mp hb).2

theorem releaseActions_clean (tiled : 2 ≤ X ∧ isService (n / 16) = false) {c : CLine}
    (hc : c ∈ ((s.releaseActions n X).tile (tileOf (n / 16))).cache) : c.dirty = 0 := by
  have clean : ∀ c ∈ ((writtenBack s n X).tile (tileOf (n / 16))).cache, c.dirty = 0 := by
    rw [writtenBack, coreWriteBack_at, if_pos tiled, State.tile_modTile_same]
    rintro c hc
    obtain ⟨k, -, rfl⟩ := List.mem_map.mp hc
    rfl
  rw [releaseActions_eq] at hc
  split at hc
  · exact clean c (drainWcIf_cache _ _ _ _ hc)
  · exact clean c hc

theorem acquireActions_loads {mask : BitVec 2} {p : Pend} (hp : p ∈ ((s.acquireActions n X mask).slotAt n).pend) : p.isLoad = false := by
  unfold State.acquireActions at hp
  simp only at hp
  split at hp
  · exact settleIf_pend s n _ ((Settles.of_serves (coreInvalidate_serves _ _ _)).pend n hp)
  · exact settleIf_pend s n _ hp

theorem acquireActions_named {mask : BitVec 2} (tiled : 2 ≤ X ∧ isService (n / 16) = false) {c : CLine}
    (hc : c ∈ ((s.acquireActions n X mask).tile (tileOf (n / 16))).cache) : maskNames mask c.hint = false := by
  unfold State.acquireActions at hc
  simp only at hc
  rw [coreInvalidate_at, if_pos tiled, State.tile_modTile_same] at hc
  simpa using (List.mem_filter.mp hc).2

end Left

/-- Completing an ordering instruction defers nothing. -/
theorem orderingDone_pend (s : State) (n : Nat) : (s.orderingDone n).hart.pend ⊆ s.hart.pend := by
  cases ho : (s.slotAt n).ordr with
  | none => rw [orderingDone_none ho]; exact fun _ h => h
  | some o =>
    have acts := (released_settles s n o).trans (acquired_settles s n o)
    have pend (m : Nat) : (((acquired s n o).modSlot n (fun x => { x with ordr := none })).slotAt m).pend =
        ((acquired s n o).slotAt m).pend := by
      by_cases hm : m = n
      · rw [hm, State.slotAt_modSlot_same]
      · rw [State.slotAt_modSlot_of_ne _ _ _ _ hm]
    rw [orderingDone_of_some s n o ho, ← State.slotAt_hid, ← State.slotAt_hid, State.modSlot_hid, acts.hid, pend]
    exact acts.pend s.hid

/-- The actions of an ordering instruction one by one. -/
theorem released_parts {s : State} {n : Nat} {o : Machine.Ordering} (rel : o.kind ≠ 2) :
    released s n o = s.releaseActions n o.scope.toNat := if_neg rel

/-- Settles O13. -/
theorem orderingInstructions : Obligations.OrderingInstructions := by
  refine ⟨fun s sc m h ready => ?_, fun s n none_ => orderingDone_none none_, fun s n o ho => ?_, fun s w l => ?_⟩
  · intro s1
    have order (k : Machine.Ordering) : s.order h k = s1.done h (fun x => { x with ordr := some k }) := issue_of_ready ready _
    exact ⟨order _, order _, order _⟩
  · intro core sid X rel acq tiled mask named far open_ sends
    have hsends : s.orderSends n o = true ↔ sends := orderSends_iff
    have hopen : s.orderOpen n o = true ↔ open_ ∨ sends := by
      rw [State.orderOpen, Bool.or_eq_true, Bool.or_eq_true, hsends, orderWaits_iff, drainHeld_iff]
    refine ⟨fun hs => ?_, fun hs ho_ => ?_, fun hs ho_ => ?_, ?_, ?_⟩
    · have exec_ := orderingActionsDone_eq ho
      rw [if_pos (hsends.mpr hs)] at exec_
      obtain ⟨kept, sent⟩ := sendBuffers_sends (s := s) (n := n)
      exact ⟨_, exec_, kept.trans ho, fun b hb hfar => sent b hb (farLine_iff.mpr hfar)⟩
    · have exec_ := orderingActionsDone_eq ho
      rwa [if_neg (fun e => hs (hsends.mp e)), if_pos (hopen.mpr (.inl ho_))] at exec_
    · have exec_ := orderingActionsDone_eq ho
      rwa [if_neg (fun e => hs (hsends.mp e)), if_neg (fun e => (hopen.mp e).elim ho_ hs)] at exec_
    · intro a b c e f
      have hb : rel → writtenBack s n X = b := fun hrel => by
        rw [writtenBack, coreWriteBack_at]
        by_cases ht : tiled
        · rw [if_pos ht, show b = _ from if_pos ⟨hrel, ht⟩, show a = _ from if_pos hrel]
          rfl
        · rw [if_neg ht, show b = _ from if_neg (fun h => ht h.2), show a = _ from if_pos hrel]
          rfl
      have hc : released s n o = c := by
        by_cases hrel : rel
        · rw [released_parts hrel, releaseActions_eq, hb hrel]
          by_cases wide : 5 ≤ X
          · rw [if_pos wide, show c = _ from if_pos ⟨hrel, wide⟩]
            rfl
          · rw [if_neg wide, show c = _ from if_neg (fun h => wide h.2)]
        · rw [show c = b from if_neg (fun h => hrel h.1), show b = a from if_neg (fun h => hrel h.1), show a = s from if_neg hrel]
          exact if_pos (not_not.mp hrel)
      have hf : acquired s n o = f := by
        by_cases hacq : acq
        · rw [acquired, if_neg hacq, hc, State.acquireActions, coreInvalidate_at]
          by_cases ht : tiled
          · rw [if_pos ht, show f = _ from if_pos ⟨hacq, ht⟩, show e = _ from if_pos hacq]
            rfl
          · rw [if_neg ht, show f = _ from if_neg (fun h => ht h.2), show e = _ from if_pos hacq]
        · rw [show f = e from if_neg (fun h => hacq h.1), show e = c from if_neg hacq, ← hc]
          exact if_pos (not_not.mp hacq)
      rw [orderingDone_of_some s n o ho, hf]
    · intro u
      have hu : u = (acquired s n o).modSlot n (fun x => { x with ordr := none }) := orderingDone_of_some s n o ho
      have uslot : u.slotAt n = { (acquired s n o).slotAt n with ordr := none } := by rw [hu, State.slotAt_modSlot_same]
      have ucore : u.core core = (acquired s n o).core core := by rw [hu]; simp only [State.core, State.modSlot_cores]
      have utile (k : Nat) : u.tile k = (acquired s n o).tile k := by rw [hu]; simp only [State.tile, State.modSlot_tiles]
      rw [uslot, ucore, utile]
      have later := acquired_settles s n o
      refine ⟨rfl, fun hrel => ?_, fun hacq p hp => ?_, fun hrel wide b hb => ?_, fun hkind ht c hc => ?_, fun hacq ht c hc => ?_⟩
      · have nil : ((released s n o).slotAt n).pend = [] := by rw [released_parts hrel]; exact releaseActions_pend
        exact List.eq_nil_of_subset_nil (nil ▸ later.pend n)
      · have hp' : p ∈ ((acquired s n o).slotAt n).pend := hp
        rw [acquired, if_neg hacq] at hp'
        exact acquireActions_loads hp'
      · have hb' := later.wc core hb
        have same : ((acquired s n o).slotAt n).sid = ((released s n o).slotAt n).sid := later.sid n
        show b.strand ≠ ((acquired s n o).slotAt n).sid
        rw [same]
        rw [released_parts hrel] at hb' ⊢
        exact releaseActions_wc wide hb'
      · have hc' : c ∈ ((s.releaseActions n X).tile (tileOf core)).cache := by
          have hrel : o.kind ≠ 2 := by rw [hkind]; decide
          rwa [acquired, if_pos hkind, released_parts hrel] at hc
        exact releaseActions_clean ht hc'
      · rw [acquired, if_neg hacq] at hc
        exact acquireActions_named ht hc
  · refine ⟨fun calm => ⟨beforeAccess_of_calm calm w, beforeStore_of_calm calm l⟩, fun p hp => ?_, fun o ho plain => ?_⟩
    · have settled : ∀ p ∈ (s.settleIf s.hid (fun p => p.plain)).hart.pend, p.plain = false := by
        have hid := (settleIf_settles s s.hid (fun p => p.plain)).hid
        intro p hp
        refine settleIf_pend s s.hid (fun p => p.plain) ?_
        rw [← State.slotAt_hid, hid] at hp
        exact hp
      unfold State.beforeAccess State.orderedBefore at hp
      split at hp
      · split at hp
        · exact settled p (orderingDone_pend _ _ hp)
        · exact settled p hp
      · exact settled p hp
    · have settled : s.settleIf s.hid (fun p => p.plain) = s := settleIf_of_none (by simpa using plain)
      rw [State.beforeAccess, settled, State.orderedBefore, ho]
      simp only [Machine.Ordering.holds]
      by_cases hk : o.kind = 1 <;> cases w <;> simp [hk]

end Sys2Proof.Proofs

namespace Sys2Proof.Proofs

/-!
Atomics and reductions at home slices (06 R140, R141).
-/

open Sys2Proof.Machine Sys2Proof.Claim

/-- The two's complement value of a number of a width. -/
theorem toSigned_eq_toInt (n u : Nat) : toSigned n u = (BitVec.ofNat n u).toInt := by
  rw [toSigned, BitVec.toInt_eq_toNat_cond, BitVec.toNat_ofNat]
  cases n with
  | zero => simp [Nat.mod_one]
  | succ n =>
    rw [Nat.add_sub_cancel, Nat.pow_succ]
    generalize u % (2 ^ n * 2) = v
    by_cases hv : v < 2 ^ n
    · rw [if_pos hv, if_pos (by omega)]
    · rw [if_neg hv, if_neg (by omega)]
      push_cast
      rfl

/-- A word of 32 bits, sign-extended. -/
theorem ofInt_toSigned_32 (old : Nat) : BitVec.ofInt 64 (toSigned 32 old) = (BitVec.ofNat 32 old).signExtend 64 := by
  rw [toSigned_eq_toInt, BitVec.signExtend]

section Home

variable {s s0 : State} {d a b : BitVec 5} {w : BitVec 1} {h : BitVec 2} {x : Xlate}

/-- An aligned address that translates to HBM4 passes the checks of an operation at the home slice. -/
theorem amoCheck_hbm {ea : Word} {n : Nat} (aligned : ea.toNat % n = 0) (remoteOk : Bool)
    (trans : s.translate (quadOf (s.hid / 16)) s.hart.pid s.hart.status.exec ea .write = (.ok x, s0))
    (hbm : s0.region x.pa = .hbm) : s.amoCheck ea n remoteOk = (.ok x, s0) := by
  simp only [State.amoCheck, globalCheck_of_aligned aligned, trans, hbm]

theorem near_of_hbm {t : State} {pa : Nat} (hbm : t.region pa = .hbm) : Near t pa := fun dev off => by rw [hbm]; exact nofun

/-- An atomic at a home slice of this device, for a strand that is no logical process. -/
theorem amo_hbm (op : Nat) (ready : Ready s Need.access) (calm : Calm s0) (plain : s0.hart.record.opt = false)
    (hbm : s0.region x.pa = .hbm) (aligned : (s.hart.getG a).toNat % (amoBits w / 8) = 0)
    (trans : s.translate (quadOf (s.hid / 16)) s.hart.pid s.hart.status.exec (s.hart.getG a) .write = (.ok x, s0))
    (hbm1 : (s0.beforeHome x (amoBits w / 8)).region x.pa = .hbm)
    (plain1 : (s0.beforeHome x (amoBits w / 8)).hart.record.opt = false) :
    let s1 := s0.beforeHome x (amoBits w / 8)
    let old := leNat (s1.homeBytes s1.hart.pid x.pa (amoBits w / 8))
    let r := amoNew op (amoBits w) old ((s.hart.getG b).toNat % 2 ^ amoBits w) ((s.hart.getG d).toNat % 2 ^ amoBits w)
    s.amo op d a b w h = (if r.2.1 then s1.homePut s1.hart.pid x.pa (natLe (amoBits w / 8) r.1) else s1).done h
      (fun y => (y.orFxf r.2.2).setG d (amoResult op (amoBits w) old)) := by
  intro s1 old r
  rw [State.amo, issue_of_ready ready, amoCheck_hbm aligned true trans hbm]
  simp only
  rw [optstAt_of_plain plain, remoteGate_of_near (near_of_hbm hbm), beforeAccess_of_calm calm]
  have none_ : (if r.2.1 = true then s1.storeEntries x x.pa (amoBits w / 8) else []) = [] := by
    rw [storeEntries_of_plain plain1, ite_self]
  refine (region_match_of_near (near_of_hbm hbm1) _ _).trans ?_
  exact congrArg (fun l => s1.logThen h l _) none_

/-- An atomic form: what it writes at the home slice and to gd, by the old value. -/
theorem completes_amo {i : Instr} {op k n : Nat} (out : Nat → Word) (new : Nat → Nat × Bool × BitVec 6)
    (meaning : exec i s = s.amo op d a b w h) (hn : amoBits w = n) (hk : n / 8 = k)
    (hnew : ∀ old, amoNew op n old ((s.hart.getG b).toNat % 2 ^ n) ((s.hart.getG d).toNat % 2 ^ n) = new old)
    (hout : ∀ old, amoResult op n old = out old)
    (ready : Ready s Need.access) (calm : Calm s0) (plain : s0.hart.record.opt = false) (hbm : s0.region x.pa = .hbm)
    (aligned : (s.hart.getG a).toNat % k = 0)
    (trans : s.translate (quadOf (s.hid / 16)) s.hart.pid s.hart.status.exec (s.hart.getG a) .write = (.ok x, s0))
    (hbm1 : (s0.beforeHome x k).region x.pa = .hbm) (plain1 : (s0.beforeHome x k).hart.record.opt = false) :
    let s1 := s0.beforeHome x k
    let old := leNat (s1.homeBytes s1.hart.pid x.pa k)
    CompletesFrom s i (if (new old).2.1 then s1.homePut s1.hart.pid x.pa (natLe k (new old).1) else s1) 4 h
      (fun y => (y.orFxf (new old).2.2).setG d (out old)) := by
  subst hn hk
  intro s1 old
  have done := amo_hbm op ready calm plain hbm aligned trans hbm1 plain1 (h := h) (d := d) (b := b)
  simp only [hnew, hout] at done
  exact meaning.trans done

/-- What an `amo` other than an unsigned one writes to gd. -/
theorem amoResult_signed {op : Nat} (hop : (op = 6 || op = 7 || op = 10) = false) (old : Nat) :
    amoResult op (amoBits w) old = if w = 1 then BitVec.ofNat 64 old else (BitVec.ofNat 32 old).signExtend 64 := by
  by_cases hw : w = 1
  · simp [amoResult, amoBits, hw]
  · simp [amoResult, amoBits, hop, ofInt_toSigned_32]

theorem amoResult_unsigned {op : Nat} (hop : (op = 6 || op = 7 || op = 10) = true) (old : Nat) :
    amoResult op (amoBits w) old = BitVec.ofNat 64 old := by
  simp [amoResult, hop]

theorem amoBits_eq (w : BitVec 1) : amoBits w = 8 * (if w = 1 then 8 else 4) := by
  unfold amoBits
  split <;> rfl

theorem atomics : Atomics := by
  intro s s0 d a b w h x ready plain calm same hid hbm ea P k n v sx zx sg
  have hn : amoBits w = n := amoBits_eq w
  have hk : n / 8 = k := Nat.mul_div_cancel_left k (by decide)
  have signed {op : Nat} (hop : (op = 6 || op = 7 || op = 10) = false) (old : Nat) : amoResult op n old = sx old :=
    hn ▸ amoResult_signed hop old
  have unsigned {op : Nat} (hop : (op = 6 || op = 7 || op = 10) = true) (old : Nat) : amoResult op n old = zx old :=
    hn ▸ amoResult_unsigned hop old
  have form {i : Instr} {op : Nat} {out : Nat → Word} {new : Nat → Nat × Bool × BitVec 6} (meaning : exec i s = s.amo op d a b w h)
      (hnew : ∀ old, amoNew op n old v ((s.hart.getG d).toNat % 2 ^ n) = new old) (hout : ∀ old, amoResult op n old = out old) :
      P i k out new := fun aligned trans =>
    completes_amo out new meaning hn hk hnew hout ready (calm_of_hart same calm) (by rw [same]; exact plain) hbm aligned trans
  refine ⟨form (op := 0) rfl (fun _ => rfl) (signed rfl), form (op := 1) rfl (fun _ => rfl) (signed rfl),
    form (op := 2) rfl (fun _ => rfl) (signed rfl), form (op := 3) rfl (fun _ => rfl) (signed rfl),
    form (op := 4) (new := fun old => (if sg v < sg old then v else old, true, 0)) rfl (fun old => ?_) (signed rfl),
    form (op := 5) (new := fun old => (if sg old < sg v then v else old, true, 0)) rfl (fun old => ?_) (signed rfl),
    form (op := 6) rfl (fun _ => rfl) (unsigned rfl), form (op := 7) rfl (fun _ => rfl) (unsigned rfl),
    form (op := 8) rfl (fun _ => rfl) (signed rfl), form (op := 9) rfl (fun _ => rfl) (signed rfl), fun aligned trans => ?_⟩
  · simp only [amoNew, toSigned_eq_toInt]
    rfl
  · simp only [amoNew, toSigned_eq_toInt]
    rfl
  · exact completes_amo (w := 0) (op := 10) _ _ rfl rfl rfl (fun _ => rfl) (fun _ => rfl) ready (calm_of_hart same calm)
      (by rw [same]; exact plain) hbm aligned trans

/-- A reduction at a home slice of this device, for a strand that is no logical process. -/
theorem red_hbm (op : Nat) {k : Nat} (hk : amoBits w / 8 = k) (ready : Ready s Need.access) (calm : Calm s0)
    (plain : s0.hart.record.opt = false) (hbm : s0.region x.pa = .hbm) (aligned : (s.hart.getG a).toNat % k = 0)
    (trans : s.translate (quadOf (s.hid / 16)) s.hart.pid s.hart.status.exec (s.hart.getG a) .write = (.ok x, s0))
    (hbm1 : (s0.sendHome s0.coreNo x).region x.pa = .hbm) (plain1 : (s0.sendHome s0.coreNo x).hart.record.opt = false) :
    s.red op a b w h = ((s0.sendHome s0.coreNo x).deferGlobal x (.red (BitVec.ofNat 4 op) (decide (w = 1))) (s.hart.getG a) k
      [{ addr := x.pa, len := k, idx := 0, data := s.hart.getG b }]).done h id := by
  subst hk
  rw [State.red, issue_of_ready ready, amoCheck_hbm aligned true trans hbm]
  simp only
  rw [optstAt_of_plain plain, remoteGate_of_near (near_of_hbm hbm), beforeAccess_of_calm calm, storeEntries_of_plain plain1,
    farWords_of_plain plain1]
  exact region_match_of_near (near_of_hbm hbm1) _ _

theorem amoBytes_eq (w : BitVec 1) : amoBits w / 8 = if decide (w = 1) then 8 else 4 := by
  unfold amoBits
  by_cases hw : w = 1
  · rw [if_pos hw, if_pos (decide_eq_true hw)]
  · rw [if_neg hw, if_neg (by simpa using hw)]

theorem reductions : Reductions := by
  intro s s0 a b w h x ready plain calm same hid hbm ea s1 hbm1 same1 P dbl
  have plain1 : s1.hart.record.opt = false := by rw [same1]; exact plain
  have form {i : Instr} (op : Nat) (meaning : exec i s = s.red op a b w h) : P i (BitVec.ofNat 4 op) dbl := fun aligned trans =>
    meaning.trans (red_hbm op (amoBytes_eq w) ready (calm_of_hart same calm) (by rw [same]; exact plain) hbm aligned trans hbm1 plain1)
  refine ⟨form 0 rfl, form 1 rfl, form 2 rfl, form 3 rfl, form 4 rfl, form 5 rfl, form 6 rfl, form 7 rfl, fun aligned trans => ?_⟩
  exact red_hbm (w := 0) 10 rfl ready (calm_of_hart same calm) (by rw [same]; exact plain) hbm aligned trans hbm1 plain1

end Home

/-- Settles O46. -/
theorem atomicsAndReductions : Obligations.AtomicsAndReductions := ⟨atomics, reductions⟩

end Sys2Proof.Proofs

namespace Sys2Proof.Proofs

/-!
Queued reservations (06 R146, R147).
-/

open Sys2Proof.Machine Sys2Proof.Claim

section Reserve

variable {s s0 : State} {d a b : BitVec 5} {h : BitVec 2} {x : Xlate}

/-- A state with the same memory, sectors and keys reads the same home copies. -/
theorem homeBytes_congr {s t : State} (mem : t.mem = s.mem) (sectors : t.sectors = s.sectors) (jobs : t.jobs = s.jobs)
    (pid : BitVec 12) : ∀ n pa : Nat, t.homeBytes pid pa n = s.homeBytes pid pa n
  | 0, _ => rfl
  | n + 1, pa => by
    have byte : t.homeByte pid pa = s.homeByte pid pa := by
      simp only [State.homeByte, mem, sectors, keyOf_of_jobs jobs]
    rw [State.homeBytes, State.homeBytes, byte, homeBytes_congr mem sectors jobs pid n (pa + 1)]

/-- A strand that joins a line that none holds or awaits holds it. -/
theorem rsvOf_rsvJoin_free {line sid : Nat} (free : ∀ q ∈ s.rsvqs, q.line ≠ line) :
    (s.rsvJoin sid line).rsvOf line = some { line := line, waiters := [sid], granted := true, since := s.ticks } ∧
      s.rsvJoin sid line = { s with rsvqs := s.rsvqs ++ [{ line := line, waiters := [sid], granted := true, since := s.ticks }] } := by
  have none_ : s.rsvOf line = none := List.find?_eq_none.mpr fun q hq => by simpa using free q hq
  have join : s.rsvJoin sid line = { s with rsvqs := s.rsvqs ++ [{ line := line, waiters := [sid], granted := true, since := s.ticks }] } := by
    rw [State.rsvJoin, none_]
  refine ⟨?_, join⟩
  rw [join, State.rsvOf]
  dsimp only
  rw [List.find?_append, show s.rsvqs.find? (fun q => q.line = line) = none from none_]
  simp

/-- The executing strand joins the queue of a line and holds its reservation. -/
def joined (t : State) (line : Nat) : State :=
  (t.rsvJoin t.hart.sid line).modHart (fun y => { y with rsvLine := some line, revoked := false })

theorem joined_eq {t : State} {line : Nat} (free : ∀ q ∈ t.rsvqs, q.line ≠ line) : joined t line =
    { t with rsvqs := t.rsvqs ++ [{ line := line, waiters := [t.hart.sid], granted := true, since := t.ticks }],
             hart := { t.hart with rsvLine := some line, revoked := false } } := by
  rw [joined, (rsvOf_rsvJoin_free free).2]
  rfl

theorem joined_holds {t : State} {line : Nat} (free : ∀ q ∈ t.rsvqs, q.line ≠ line) :
    (joined t line).holdsLine (joined t line).hart.sid line = true := by
  have rsvOf : (joined t line).rsvOf line = _ := (rsvOf_rsvJoin_free (sid := t.hart.sid) free).1
  have sid : (joined t line).hart.sid = t.hart.sid := by rw [joined_eq free]; rfl
  simp [State.holdsLine, rsvOf, sid]

theorem joined_homeBytes {t : State} {line : Nat} (free : ∀ q ∈ t.rsvqs, q.line ≠ line) (pa n : Nat) :
    (joined t line).homeBytes (joined t line).hart.pid pa n = t.homeBytes t.hart.pid pa n := by
  have same := joined_eq free
  rw [homeBytes_congr (s := t) (by rw [same]) (by rw [same]) (by rw [same]), same]
  rfl

/-- `lrw` of a strand that holds no reservation, on a line of HBM4 that none holds or awaits. -/
theorem lrw_hbm (ready : Ready s Need.access) (calm : Calm s0) (hbm : s0.region x.pa = .hbm)
    (aligned : (s.hart.getG a).toNat % 8 = 0)
    (trans : s.translate (quadOf (s.hid / 16)) s.hart.pid s.hart.status.exec (s.hart.getG a) .write = (.ok x, s0))
    (empty : s.hart.rsvLine = none) (free : ∀ q ∈ (s0.beforeHome x 8).rsvqs, q.line ≠ x.pa / 256) :
    execLrw d a h s = (joined (s0.beforeHome x 8) (x.pa / 256)).doneG h d
      (BitVec.ofNat 64 (leNat ((s0.beforeHome x 8).homeBytes (s0.beforeHome x 8).hart.pid x.pa 8))) := by
  rw [execLrw, issue_of_ready ready, if_neg (by simp [empty]), amoCheck_hbm aligned false trans hbm]
  simp only
  rw [remoteGate_of_near (near_of_hbm hbm), beforeAccess_of_calm calm, ← joined_homeBytes free]
  exact if_pos (joined_holds free)

/-- The state in which `scr` looks at its reservation. -/
def beforeScr (s0 : State) (x : Xlate) : State :=
  ((s0.settleIf s0.hid (fun p => p.isRed && p.elems.any (fun e => decide (e.addr / 256 = x.pa / 256)))).settle x.pa 8).sendHome
    s0.coreNo x

theorem scr_hbm (ready : Ready s Need.access) (calm : Calm s0) (plain : s0.hart.record.opt = false) (hbm : s0.region x.pa = .hbm)
    (aligned : (s.hart.getG a).toNat % 8 = 0)
    (trans : s.translate (quadOf (s.hid / 16)) s.hart.pid s.hart.status.exec (s.hart.getG a) .write = (.ok x, s0)) :
    execScr d a b h s =
      if !(beforeScr s0 x).holdsLine (beforeScr s0 x).hart.sid (x.pa / 256) then
        (beforeScr s0 x).doneG h d (if (beforeScr s0 x).hart.revoked then 2 else 1)
      else (beforeScr s0 x).logThen h ((beforeScr s0 x).storeEntries x x.pa 8) (fun s2 =>
        ((s2.homePut s2.hart.pid x.pa (natLe 8 (s.hart.getG b).toNat)).rsvPass (x.pa / 256)).done h
          (fun y => ({ y with rsvLine := none } : Slot).setG d 0)) := by
  rw [execScr, issue_of_ready ready, amoCheck_hbm aligned false trans hbm]
  simp only
  rw [optstAt_of_plain plain, remoteGate_of_near (near_of_hbm hbm), beforeAccess_of_calm calm]
  rfl

end Reserve

theorem reservations : Reservations := by
  intro s s0 d a b h x ready plain calm same hid hbm ea line aligned trans s1 s2
  have calm0 : Calm s0 := calm_of_hart same calm
  refine ⟨fun empty free => ⟨_, lrw_hbm ready calm0 hbm aligned trans empty free, ?_, ?_, ?_, ?_⟩, fun holds plain1 => ?_, fun none_ => ?_⟩
  · exact Slot.getG_setG_same _ _ _
  · rw [joined_eq free]
    rfl
  · rw [joined_eq free]
    rfl
  · rw [joined_eq free]
    exact ⟨_, List.mem_append_right _ List.mem_cons_self, rfl, rfl, rfl⟩
  · have out := scr_hbm (d := d) (b := b) (h := h) ready calm0 (by rw [same]; exact plain) hbm aligned trans
    have holder : (beforeScr s0 x).holdsLine (beforeScr s0 x).hart.sid (x.pa / 256) = true := holds
    have unlogged : (beforeScr s0 x).hart.record.opt = false := plain1
    rw [if_neg (by simp [holder]), storeEntries_of_plain unlogged] at out
    exact out
  · have out := scr_hbm (d := d) (b := b) (h := h) ready calm0 (by rw [same]; exact plain) hbm aligned trans
    have holder : (beforeScr s0 x).holdsLine (beforeScr s0 x).hart.sid (x.pa / 256) = false := none_
    rw [if_pos (by simp [holder])] at out
    exact out

theorem reservationEvents : ReservationEvents := by
  intro s line sid q r hq waiters s1
  refine ⟨fun waiting => ⟨fun y d pa strand park => ?_, fun gone => ?_⟩, fun granted late => ?_⟩
  · show execReservationGrant line s = _
    simp only [execReservationGrant, hq, waiting, waiters, strand, park]
    rfl
  · show execReservationGrant line s = _
    simp only [execReservationGrant, hq, waiting, waiters, gone]
    rfl
  · show execReservationTimeout line s = _
    simp only [execReservationTimeout, hq, granted, waiters, if_neg (Nat.not_le.mpr late)]

/-- Settles O47. -/
theorem reservedLines : Obligations.ReservedLines := ⟨reservations, reservationEvents⟩

end Sys2Proof.Proofs

namespace Sys2Proof.Proofs

/-!
Owner codes and the group barrier (06 R152, R153).
-/

open Sys2Proof.Machine Sys2Proof.Claim

section Gate

variable {s : State} {ea : Word}

/-- An access to a bank that is not busy for the strand goes on, held no longer. -/
theorem bankGate_of_free (free : s.bankBusy s.hart.sid ea = none) (h : BitVec 2) (k : State → Result) :
    s.bankGate h ea k = k (s.bankPass s.hart.sid ea) := by
  rw [State.bankGate, free]

theorem bankPass_hart (sid : Nat) : (s.bankPass sid ea).hart = s.hart := by
  unfold State.bankPass
  split
  · split <;> rfl
  · rfl

end Gate

theorem owners : Owners := by
  intro s a b h o ready
  dsimp only
  intro free check unowned
  refine ⟨fun low high half => ?_, fun calm => ?_⟩
  · have legal : (s.hart.getG b = 0 || 4 < (s.hart.getG b).toNat || (inHalf (s.hart.getG a) && decide (s.hart.getG b = 4))) = false := by
      have nonzero : s.hart.getG b ≠ 0 := fun e => by
        rw [e] at low
        exact absurd low (by decide)
      have four : inHalf (s.hart.getG a) = true → s.hart.getG b ≠ 4 := fun hin e =>
        Bool.noConfusion ((half (congrArg BitVec.toNat e)).symm.trans hin)
      have small : ¬ 4 < (s.hart.getG b).toNat := Nat.not_lt.mpr high
      rw [decide_eq_false nonzero, decide_eq_false small]
      cases hin : inHalf (s.hart.getG a)
      · rfl
      · rw [decide_eq_false (four hin)]
        rfl
    show execGive a b h s = _
    rw [execGive, issue_of_ready ready, if_neg (by rw [legal]; exact Bool.false_ne_true), bankGate_of_free free]
    simp only [check, if_neg (not_not.mpr unowned)]
    rfl
  · show execOwnw a h s = _
    have calm0 := calm_of_hart (bankPass_hart (s := s) (ea := s.hart.getG a) s.hart.sid) calm
    rw [execOwnw, issue_of_ready ready, bankGate_of_free free]
    simp only [check, beforeAccess_of_calm calm0, if_pos unowned]
    rfl

theorem groupBarrier : GroupBarrier := by
  intro s h w ready
  dsimp only
  have bar : exec (.bar h) s = _ := (issue_of_ready ready _ : execBar h s = _)
  refine ⟨fun none_ => bar.trans (if_pos none_), fun some_ near word => bar.trans ((if_neg some_).trans ?_)⟩
  simp only [slotQuad, near, word]

/-- Settles O48. -/
theorem ownersAndBarrier : Obligations.OwnersAndBarrier := ⟨owners, groupBarrier⟩

end Sys2Proof.Proofs

namespace Sys2Proof.Proofs

/-!
Vector registers as lists of elements: what replacing one element leaves, what an element-wise instruction writes (08 R186,
R187), and when such an instruction completes.
-/

open Sys2Proof.Machine Sys2Proof.Claim

/-! ## One element -/

theorem testBit_vElem (v : VReg) (w j k : Nat) : (vElem v w j).testBit k = (decide (k < w) && v.getLsbD (w * j + k)) := by
  rw [vElem, Nat.testBit_mod_two_pow, Nat.testBit_div_two_pow, BitVec.testBit_toNat, Nat.add_comm]

theorem vElem_lt (v : VReg) (w j : Nat) : vElem v w j < 2 ^ w := Nat.mod_lt _ (Nat.two_pow_pos w)

theorem getLsbD_vSetElem (v : VReg) (w i e : Nat) {n : Nat} (hn : n < 2048) : (vSetElem v w i e).getLsbD n =
    if w * i ≤ n ∧ n - w * i < w then e.testBit (n - w * i) else v.getLsbD n := by
  simp only [vSetElem, BitVec.getLsbD_or, BitVec.getLsbD_and, BitVec.getLsbD_not, BitVec.getLsbD_ofNat,
    Nat.testBit_mul_two_pow, Nat.testBit_two_pow_sub_one, Nat.testBit_mod_two_pow, hn, decide_true, Bool.true_and]
  by_cases inside : w * i ≤ n ∧ n - w * i < w
  · simp [inside]
  · rw [if_neg inside]
    rcases not_and_or.mp inside with low | high
    · simp [low]
    · simp [high]

/-- Of the elements that fit into the register, replacing one changes that one alone. -/
theorem vElem_vSetElem (v : VReg) {w i j e : Nat} (hi : w * (i + 1) ≤ 2048) (hj : w * (j + 1) ≤ 2048) :
    vElem (vSetElem v w i e) w j = if j = i then e % 2 ^ w else vElem v w j := by
  rw [Nat.mul_add_one] at hi hj
  refine Nat.eq_of_testBit_eq fun k => ?_
  rw [testBit_vElem]
  by_cases hk : k < w
  · rw [getLsbD_vSetElem _ _ _ _ (by omega)]
    by_cases same : j = i
    · subst same
      simp [hk, Nat.testBit_mod_two_pow]
    · rw [if_neg same]
      have apart : ¬(w * i ≤ w * j + k ∧ w * j + k - w * i < w) := by
        rcases Nat.lt_or_gt_of_ne same with less | more
        · have := Nat.mul_le_mul_left w (show j + 1 ≤ i from less)
          rw [Nat.mul_add_one] at this
          omega
        · have := Nat.mul_le_mul_left w (show i + 1 ≤ j from more)
          rw [Nat.mul_add_one] at this
          omega
      rw [if_neg apart, testBit_vElem]
  · by_cases same : j = i <;> simp [hk, same, Nat.testBit_mod_two_pow, testBit_vElem]

/-! ## Elements replaced one after another -/

/-- Elements `di i` of `w` bits replaced by `f i`, for the `i` of a list in turn, and their flags gathered. -/
def vFold (l : List Nat) (w : Nat) (di : Nat → Nat) (f : Nat → Nat × BitVec 6) (a : VReg × BitVec 6) : VReg × BitVec 6 :=
  l.foldl (fun acc i => (vSetElem acc.1 w (di i) (f i).1, acc.2 ||| (f i).2)) a

theorem vMap_eq_vFold (l : List Nat) (w : Nat) (old : VReg) (f : Nat → Nat × BitVec 6) :
    vMap l w old f = vFold l w id f (old, 0) := rfl

variable {w : Nat} {di : Nat → Nat} {f : Nat → Nat × BitVec 6}

theorem vElem_vFold_of_not_mem {j : Nat} (hj : w * (j + 1) ≤ 2048) : ∀ (l : List Nat) (a : VReg × BitVec 6),
    (∀ i ∈ l, w * (di i + 1) ≤ 2048) → (∀ i ∈ l, di i ≠ j) → vElem (vFold l w di f a).1 w j = vElem a.1 w j
  | [], _, _, _ => rfl
  | i :: l, a, fit, out => by
    rw [vFold, List.foldl_cons, ← vFold, vElem_vFold_of_not_mem hj l _ (fun k hk => fit k (.tail _ hk))
      (fun k hk => out k (.tail _ hk)), vElem_vSetElem _ (fit i (.head _)) hj, if_neg (out i (.head _)).symm]

theorem vElem_vFold_of_mem (inj : ∀ i k, di i = di k → i = k) {i : Nat} (l : List Nat) : ∀ a : VReg × BitVec 6,
    (∀ k ∈ l, w * (di k + 1) ≤ 2048) → i ∈ l → vElem (vFold l w di f a).1 w (di i) = (f i).1 % 2 ^ w := by
  induction l with
  | nil => exact fun a fit hi => absurd hi List.not_mem_nil
  | cons k l ih =>
    intro a fit hi
    rw [vFold, List.foldl_cons, ← vFold]
    by_cases later : i ∈ l
    · exact ih _ (fun k hk => fit k (.tail _ hk)) later
    · obtain rfl : i = k := (List.mem_cons.mp hi).resolve_right later
      rw [vElem_vFold_of_not_mem (fit i (.head _)) l _ (fun k hk => fit k (.tail _ hk))
          (fun k hk same => later (inj k i same ▸ hk)), vElem_vSetElem _ (fit i (.head _)) (fit i (.head _)), if_pos rfl]

theorem getLsbD_vFold_flags (k : Nat) : ∀ (l : List Nat) (a : VReg × BitVec 6), (vFold l w di f a).2.getLsbD k = true ↔
    a.2.getLsbD k = true ∨ ∃ i ∈ l, (f i).2.getLsbD k = true
  | [], a => by simp [vFold]
  | i :: l, a => by
    rw [vFold, List.foldl_cons, ← vFold, getLsbD_vFold_flags k l]
    simp [or_assoc]

/-! ## When an element-wise instruction completes -/

/-- An instruction that replaces the elements `di i`, for the `i` of a list, writes those and keeps the others. -/
theorem lanes_of_vFold {s : State} {i : Instr} {h : BitVec 2} {v : BitVec 5} {n : Nat} {sel : Nat → Prop}
    {g : Nat → Nat × BitVec 6} (l : List Nat) (fit : w * n ≤ 2048) (inj : ∀ i k, di i = di k → i = k)
    (chosen : ∀ j < n, sel j ↔ ∃ i ∈ l, di i = j) (below : ∀ i ∈ l, di i < n) 
    (value : ∀ i ∈ l, (g (di i)).1 % 2 ^ w = (f i).1 % 2 ^ w ∧ (g (di i)).2 = (f i).2)
    (outcome : Completes s i 4 h (fun x => (x.orVxf (vFold l w di f (s.hart.getV v, 0)).2).setV v
      (vFold l w di f (s.hart.getV v, 0)).1)) : Lanes s i h v w n sel g := by
  have room {j : Nat} (hj : j < n) : w * (j + 1) ≤ 2048 := (Nat.mul_le_mul_left w hj).trans fit
  have rooms : ∀ i ∈ l, w * (di i + 1) ≤ 2048 := fun i hi => room (below i hi)
  refine ⟨_, _, outcome, fun j hj => ⟨fun hs => ?_, fun hs => ?_⟩, fun k _ => ?_⟩
  · obtain ⟨i, hi, rfl⟩ := (chosen j hj).mp hs
    rw [vElem_vFold_of_mem inj l _ rooms hi, (value i hi).1]
  · exact vElem_vFold_of_not_mem (room hj) l _ rooms fun i hi same => hs ((chosen j hj).mpr ⟨i, hi, same⟩)
  · rw [getLsbD_vFold_flags]
    refine (or_iff_right (by simp)).trans ⟨fun ⟨i, hi, hk⟩ => ?_, fun ⟨j, hj, hs, hk⟩ => ?_⟩
    · exact ⟨di i, below i hi, (chosen _ (below i hi)).mpr ⟨i, hi, rfl⟩, by rwa [(value i hi).2]⟩
    · obtain ⟨i, hi, rfl⟩ := (chosen j hj).mp hs
      exact ⟨i, hi, by rwa [← (value i hi).2]⟩

theorem ew_mul_lanes (x : Slot) : x.ew * x.lanes ≤ 2048 := Nat.mul_div_le 2048 x.ew

theorem mem_active {x : Slot} {p : BitVec 3} {j : Nat} : j ∈ x.active p ↔ j < x.lanes ∧ (x.getP p).getLsbD j = true := by
  simp [Slot.active]

/-- The hart as an instruction sees it is the slot that its completion changes. -/
theorem done_congr {s : State} {h : BitVec 2} {f g : Slot → Slot} (same : f s.hart = g s.hart) : s.done h f = s.done h g := by
  rw [State.done, State.done, State.modHart, State.modHart, same]

/-- An instruction whose effect is `vecMap` writes the elements that its mask selects. -/
theorem lanes_of_vecMap {s : State} {i : Instr} {h : BitVec 2} {v : BitVec 5} {p : BitVec 3} {g : Nat → Nat × BitVec 6}
    (outcome : exec i s = s.vecMap h v p f)
    (value : ∀ j, (g j).1 % 2 ^ s.hart.ew = (f j).1 % 2 ^ s.hart.ew ∧ (g j).2 = (f j).2) :
    Lanes s i h v s.hart.ew s.hart.lanes (fun j => (s.hart.getP p).getLsbD j = true) g := by
  refine lanes_of_vFold (di := id) (f := f) (s.hart.active p) (ew_mul_lanes s.hart) (fun _ _ => id) (fun j hj => ?_)
    (fun j hj => (mem_active.mp hj).1) (fun j _ => value j) ?_
  · simp [mem_active, hj]
  · exact outcome.trans (done_congr rfl)

end Sys2Proof.Proofs

namespace Sys2Proof.Proofs

/-!
Element-wise floating point (08 R189 to R193): each form is the map of its value over the selected elements.
-/

open Sys2Proof.Machine Sys2Proof.Claim

/-- What names registers among those that are there is ready. -/
theorem ready_vec_subset {s : State} {l m : List (BitVec 5)} (ready : Ready s (Need.vec l)) (sub : ∀ n ∈ m, n ∈ l) :
    Ready s (Need.vec m) := by
  obtain ⟨regs, rest⟩ := ready
  exact ⟨fun n hn => regs n (sub n hn), rest⟩

variable {s : State} {i : Instr} {l m : List (BitVec 5)} {v : BitVec 5} {p : BitVec 3} {h : BitVec 2}

/-- A floating-point form: its lanes where the shape has a float format, and FMTW where it has none. -/
theorem floatForm {f g : Elt → Nat → Nat × BitVec 6} (ready : Ready s (Need.vec l))
    (meaning : exec i s = s.issue (Need.vec m) (s.vecFp h v p f)) (sub : ∀ n ∈ m, n ∈ l) (value : g = f) :
    (∀ e, s.hart.elt = some e → Lanes s i h v s.hart.ew s.hart.lanes (fun j => (s.hart.getP p).getLsbD j = true) (g e)) ∧
    (s.hart.elt = none → exec i s = .next (s.raiseAt s.hid Cause.fmtw.code s.hart.pc 0 false)) := by
  have runs : exec i s = s.vecFp h v p f := meaning.trans (issue_of_ready (ready_vec_subset ready sub) _)
  refine ⟨fun e he => lanes_of_vecMap (f := f e) (runs.trans ?_) (fun j => by rw [value]; exact ⟨rfl, rfl⟩), fun none => runs.trans ?_⟩
  · rw [State.vecFp, he]
  · rw [State.vecFp, none]
    rfl

/-- Settles O15: each form is `vecFp` of its value of the elements. -/
theorem vectorFloatForms : Obligations.VectorFloatForms := by
  intro s v a b p r h ready x sel F rnd approx
  have three : ∀ n ∈ [v, a, b], n ∈ [v, a, b] := fun _ hn => hn
  have two : ∀ n ∈ [v, a], n ∈ [v, a, b] := by simp
  have approximates (op : Nat) : approx op = fun e j => e.approx op (x.el a j) := by
    funext e j
    dsimp only [approx, Elt.approx]
    split <;> rfl
  exact ⟨floatForm ready rfl three rfl, floatForm ready rfl three rfl, floatForm ready rfl three rfl,
    floatForm ready rfl three rfl, floatForm ready rfl three rfl, floatForm ready rfl three rfl,
    floatForm ready rfl three rfl, floatForm ready rfl three rfl, floatForm ready rfl two rfl,
    floatForm ready rfl three rfl, floatForm ready rfl two rfl, floatForm ready rfl two rfl,
    floatForm ready rfl two (approximates 0), floatForm ready rfl two (approximates 1),
    floatForm ready rfl two (approximates 2), floatForm ready rfl two (approximates 3)⟩

end Sys2Proof.Proofs

namespace Sys2Proof.Proofs

/-!
Element-wise integer forms (08 R194): the value of each on the elements, as an integer, and the clamping of the saturating ones.
-/

open Sys2Proof.Machine Sys2Proof.Claim

/-! ## Elements as integers -/

/-- A natural number that is an integer's residue is the element of that integer. -/
theorem intElem {w n : Nat} {u : Int} (same : u % 2 ^ w = (n : Int) % 2 ^ w) : (u % 2 ^ w).toNat % 2 ^ w = n % 2 ^ w := by
  rw [same, show ((n : Int) % 2 ^ w) = ((n % 2 ^ w : Nat) : Int) by push_cast; rfl, Int.toNat_natCast, Nat.mod_mod]

theorem natCast_emod_self {w n : Nat} {u : Int} (same : (n : Int) = u) : u % 2 ^ w = ((n % 2 ^ w : Nat) : Int) % 2 ^ w := by
  rw [← same]
  push_cast
  rw [Int.emod_emod]

theorem sub_elem {w y z : Nat} (hz : z ≤ 2 ^ w) :
    ((y : Int) - z) % 2 ^ w = (((y + 2 ^ w - z) % 2 ^ w : Nat) : Int) % 2 ^ w := by
  rw [← natCast_emod_self (u := (y : Int) - z + 2 ^ w), Int.add_emod_right]
  rw [Nat.cast_sub (by omega)]
  push_cast
  omega

theorem ofSigned_elem (w : Nat) (u : Int) : (u % 2 ^ w).toNat % 2 ^ w = ofSigned w u % 2 ^ w := rfl

/-- The signed value of an element, as 08 R194 reads it. -/
def signedElem (w n : Nat) : Int := if n < 2 ^ (w - 1) then n else (n : Int) - 2 ^ w

theorem toSigned_elem {w n : Nat} (hn : n < 2 ^ w) : toSigned w n = signedElem w n := by
  rw [toSigned, Nat.mod_eq_of_lt hn, signedElem]

theorem signedElem_inj {w m n : Nat} (hm : m < 2 ^ w) (hn : n < 2 ^ w) (same : signedElem w m = signedElem w n) : m = n := by
  have : (m : Int) < 2 ^ w := by exact_mod_cast hm
  have : (n : Int) < 2 ^ w := by exact_mod_cast hn
  unfold signedElem at same
  split at same <;> split at same <;> omega

/-! ## The forms -/

variable {s : State} {i : Instr} {l m : List (BitVec 5)} {v a b : BitVec 5} {p : BitVec 3} {h : BitVec 2}

/-- An integer form without flags writes the residue of its integer value. -/
theorem intForm {f : Nat → Nat × BitVec 6} {g : Nat → Int} (ready : Ready s (Need.vec l))
    (meaning : exec i s = s.issue (Need.vec m) (s.vecMap h v p f)) (sub : ∀ n ∈ m, n ∈ l)
    (value : ∀ j, (g j % 2 ^ s.hart.ew).toNat % 2 ^ s.hart.ew = (f j).1 % 2 ^ s.hart.ew) (noFlag : ∀ j, (f j).2 = 0) :
    Lanes s i h v s.hart.ew s.hart.lanes (fun j => (s.hart.getP p).getLsbD j = true)
      (fun j => ((g j % 2 ^ s.hart.ew).toNat, 0)) :=
  lanes_of_vecMap (meaning.trans (issue_of_ready (ready_vec_subset ready sub) _)) fun j => ⟨value j, (noFlag j).symm⟩

/-- An integer clamped to a range, as an element with SAT where the clamp changes it. -/
def clampedElem (w : Nat) (lo hi u : Int) : Nat × BitVec 6 :=
  let c := if u < lo then lo else if hi < u then hi else u
  ((c % 2 ^ w).toNat, if c = u then 0 else flagSAT)

theorem satElem_eq (w : Nat) (signed : Bool) (u : Int) :
    satElem w signed u = clampedElem w (intLeast w signed) (intGreatest w signed) u := by
  have range := intLeast_le_intGreatest w signed
  unfold satElem clampedElem
  by_cases low : u < intLeast w signed
  · rw [clampInt_of_lt low]
    simp [low, low.ne', ofSigned]
  by_cases high : intGreatest w signed < u
  · rw [clampInt_of_gt high]
    simp [low, high, high.ne, ofSigned]
  · rw [clampInt_of_mem (by omega) (by omega)]
    simp [low, high, ofSigned]

/-- A saturating form writes its exact value clamped. -/
theorem saturatingForm {signed : Bool} {lo hi : Int} {f g : Nat → Int} (ready : Ready s (Need.vec l))
    (meaning : exec i s = s.issue (Need.vec l) (s.vecMap h v p (fun j => satElem s.hart.ew signed (f j))))
    (value : g = f) (least : lo = intLeast s.hart.ew signed) (greatest : hi = intGreatest s.hart.ew signed) :
    Lanes s i h v s.hart.ew s.hart.lanes (fun j => (s.hart.getP p).getLsbD j = true)
      (fun j => clampedElem s.hart.ew lo hi (g j)) := by
  subst value least greatest
  refine lanes_of_vecMap (meaning.trans (issue_of_ready ready _)) fun j => ?_
  rw [satElem_eq]
  exact ⟨rfl, rfl⟩

/-- Settles O16: the value of each form on its elements is the model's, modulo the width. -/
theorem vectorIntegerForms : Obligations.VectorIntegerForms := by
  intro s v a b p h ready x w F sg S
  have three : ∀ n ∈ [v, a, b], n ∈ [v, a, b] := fun _ hn => hn
  have two : ∀ n ∈ [v, a], n ∈ [v, a, b] := by simp
  have lt (r : BitVec 5) (j : Nat) : x.el r j < 2 ^ w := vElem_lt _ _ _
  have signed (r : BitVec 5) (j : Nat) : toSigned w (x.el r j) = sg (x.el r j) := toSigned_elem (lt r j)
  have tie (j : Nat) (same : sg (x.el a j) = sg (x.el b j)) : x.el a j = x.el b j := signedElem_inj (lt a j) (lt b j) same
  have smaller (j : Nat) : (if toSigned w (x.el a j) < toSigned w (x.el b j) then x.el a j else x.el b j) =
      if sg (x.el a j) ≤ sg (x.el b j) then x.el a j else x.el b j := by
    rw [signed, signed]
    simpa using ite_lt_eq_ite_le (b := decide (sg (x.el a j) < sg (x.el b j))) decide_eq_true_iff (tie j)
  have greater (j : Nat) : (if toSigned w (x.el a j) < toSigned w (x.el b j) then x.el b j else x.el a j) =
      if sg (x.el a j) ≤ sg (x.el b j) then x.el b j else x.el a j := by
    rw [signed, signed]
    simpa using ite_lt_eq_ite_le (b := decide (sg (x.el a j) < sg (x.el b j))) decide_eq_true_iff fun k => (tie j k).symm
  have least : (-2 ^ (w - 1) : Int) = intLeast w true := by simp [intLeast]
  have greatest : (2 ^ (w - 1) - 1 : Int) = intGreatest w true := by simp [intGreatest]
  have most : (2 ^ w - 1 : Int) = intGreatest w false := by simp [intGreatest]
  refine ⟨intForm ready rfl three (fun j => intElem ?_) fun _ => rfl, intForm ready rfl three (fun j => intElem ?_) fun _ => rfl,
    intForm ready rfl three (fun j => intElem ?_) fun _ => rfl, intForm ready rfl three (fun j => intElem ?_) fun _ => rfl,
    intForm ready rfl three (fun j => intElem ?_) fun _ => rfl, intForm ready rfl three (fun j => intElem ?_) fun _ => rfl,
    intForm ready rfl three (fun j => intElem ?_) fun _ => rfl, intForm ready rfl three (fun j => intElem ?_) fun _ => rfl,
    intForm ready rfl three (fun j => intElem rfl) fun _ => rfl, intForm ready rfl three (fun j => intElem rfl) fun _ => rfl,
    intForm ready rfl three (fun j => intElem rfl) fun _ => rfl, intForm ready rfl three (fun j => intElem ?_) fun _ => rfl,
    intForm ready rfl three (fun j => intElem ?_) fun _ => rfl, intForm ready rfl three (fun j => ?_) fun _ => rfl,
    intForm ready rfl two (fun j => intElem ?_) fun _ => rfl, intForm ready rfl three (fun j => ?_) fun _ => rfl,
    intForm ready rfl three (fun j => intElem ?_) fun _ => rfl,
    saturatingForm ready rfl ?_ least greatest, saturatingForm ready rfl ?_ least greatest,
    saturatingForm (signed := false) ready rfl ?_ rfl most, saturatingForm (signed := false) ready rfl ?_ rfl most⟩
  · exact natCast_emod_self (Nat.cast_add _ _)
  · exact sub_elem (lt b j).le
  · exact natCast_emod_self (Nat.cast_mul _ _)
  · exact natCast_emod_self (by push_cast; rfl)
  · rw [smaller j]
    exact congrArg (· % _) (apply_ite Nat.cast _ _ _).symm
  · rw [greater j]
    exact congrArg (· % _) (apply_ite Nat.cast _ _ _).symm
  · exact congrArg (· % _) ((apply_ite Nat.cast _ _ _).symm.trans (congrArg Nat.cast Nat.min_def.symm))
  · exact congrArg (· % _) ((apply_ite Nat.cast _ _ _).symm.trans (congrArg Nat.cast Nat.max_def.symm))
  · exact natCast_emod_self (by push_cast; rfl)
  · exact congrArg (· % _) (by push_cast; rfl)
  · rw [signed]
    exact ofSigned_elem _ _
  · rw [signed]
    rfl
  · rw [signed, signed]
    exact ofSigned_elem _ _
  · exact congrArg (· % _) (by push_cast; rfl)
  · exact funext fun j => congrArg₂ (· + ·) (signed a j).symm (signed b j).symm
  · exact funext fun j => congrArg₂ (· - ·) (signed a j).symm (signed b j).symm
  · rfl
  · rfl

end Sys2Proof.Proofs

namespace Sys2Proof.Proofs

/-!
Row and column reductions (08 R200), compares and the mask instructions (08 R196, R197).
-/

open Sys2Proof.Machine Sys2Proof.Claim

variable {s : State} {i : Instr} {l m : List (BitVec 5)} {v : BitVec 5} {p : BitVec 3} {h : BitVec 2}

/-! ## Reductions -/

/-- A reduction to at most 64 results writes them into the first FP32 elements; it faults with more, and without a float
format. -/
theorem reduction {isCol : Bool} {f : Elt → List Nat → Nat × BitVec 6} (ready : Ready s (Need.vec l))
    (meaning : exec i s = s.vecReduce v m p isCol h f) (sub : ∀ n ∈ m, n ∈ l) :
    let n := if isCol then s.hart.cols else s.hart.rows
    (64 < n → exec i s = .next (s.raiseAt s.hid Cause.illop.code s.hart.pc 0 false)) ∧
    (n ≤ 64 → s.hart.elt = none → exec i s = .next (s.raiseAt s.hid Cause.fmtw.code s.hart.pc 0 false)) ∧
    (∀ e, n ≤ 64 → s.hart.elt = some e → Lanes s i h v 32 64 (fun j => j < n) (fun k => f e (s.hart.lineOf p isCol k))) := by
  intro n
  have runs := meaning.trans (issue_of_ready (ready_vec_subset ready sub) _)
  refine ⟨fun many => runs.trans (if_pos many), fun few none => (runs.trans (if_neg few.not_gt)).trans ?_, fun e few some => ?_⟩
  · rw [none]
    rfl
  · refine lanes_of_vFold (di := id) (f := fun k => f e (s.hart.lineOf p isCol k)) (List.range n) (by decide) (fun _ _ => id)
      (fun j hj => by simp) (fun j hj => (List.mem_range.mp hj).trans_le few) (fun j _ => ⟨rfl, rfl⟩) ?_
    refine (runs.trans (if_neg few.not_gt)).trans ?_
    rw [some]
    exact done_congr rfl

/-- Settles O17: each reduction is `vecReduce` of the model's sum, extreme or dot product. -/
theorem vectorReductions : Obligations.VectorReductions := by
  intro s v a b p h ready x rows cols line R
  have two : ∀ n ∈ [v, a], n ∈ [v, a, b] := by simp
  exact ⟨reduction ready rfl two, reduction ready rfl two, reduction ready rfl two, reduction ready rfl two,
    reduction ready rfl two, reduction ready rfl two, reduction ready rfl fun _ hn => hn⟩

/-! ## Masks -/

theorem getLsbD_maskOf {n : Nat} (f : Nat → Bool) (hn : n ≤ 256) (j : Nat) :
    (maskOf n f).getLsbD j = true ↔ j < n ∧ f j = true := by
  unfold maskOf
  induction n with
  | zero => simp
  | succ n ih =>
    rw [List.range_succ, List.foldl_append, List.foldl_cons, List.foldl_nil]
    have before := ih (by omega)
    by_cases hf : f n = true
    · rw [if_pos hf, BitVec.getLsbD_or, Bool.or_eq_true, before]
      have bit : ((1 : Mask) <<< n).getLsbD j = true ↔ j = n := by
        simp [BitVec.getLsbD_shiftLeft]
        omega
      rw [bit]
      refine ⟨?_, fun ⟨hj, hfj⟩ => ?_⟩
      · rintro (⟨hj, hfj⟩ | rfl)
        · exact ⟨by omega, hfj⟩
        · exact ⟨by omega, hf⟩
      · by_cases same : j = n
        · exact .inr same
        · exact .inl ⟨by omega, hfj⟩
    · rw [if_neg hf, before]
      refine ⟨fun ⟨hj, hfj⟩ => ⟨by omega, hfj⟩, fun ⟨hj, hfj⟩ => ⟨?_, hfj⟩⟩
      have : j ≠ n := fun same => hf (same ▸ hfj)
      omega

/-- An instruction that ORs its flags and sets pd to `m` writes the bits of `m`. -/
theorem writesP_of_setP {d : BitVec 3} {fl : BitVec 6} {m : Mask} {f : Nat → Prop}
    (outcome : Completes s i 4 h (fun x => (x.orVxf fl).setP d m)) (bits : ∀ j < 256, m.getLsbD j = true ↔ f j) :
    WritesP s i h d fl f := by
  refine ⟨m, fun zero => ?_, fun other => ?_, bits⟩
  · simp only [Slot.setP, if_pos zero] at outcome
    exact outcome
  · simp only [Slot.setP, if_neg other] at outcome
    exact outcome

/-- An instruction without flags that sets pd to `m` writes the bits of `m`. -/
theorem writesP_of_issue {c : Need} {d : BitVec 3} {m : Mask} {f : Nat → Prop} (ready : Ready s c)
    (meaning : exec i s = s.issue c (s.done h (fun x => x.setP d m))) (bits : ∀ j < 256, m.getLsbD j = true ↔ f j) :
    WritesP s i h d 0 f := by
  refine writesP_of_setP ((meaning.trans (issue_of_ready ready _)).trans ?_) bits
  simp only [Slot.orVxf_zero]
  rfl

theorem compareInt {d : BitVec 3} {a b : BitVec 5} {signed : Bool} {rel : Int → Int → Bool} {f : Nat → Prop}
    (ready : Ready s (Need.vec [a, b])) (meaning : exec i s = s.vecCmpInt d a b p h signed rel)
    (related : ∀ j, rel (if signed then toSigned s.hart.ew (s.hart.el a j) else (s.hart.el a j : Int))
      (if signed then toSigned s.hart.ew (s.hart.el b j) else (s.hart.el b j : Int)) = true ↔ f j) :
    WritesP s i h d 0 (fun j => (j < s.hart.lanes ∧ (s.hart.getP p).getLsbD j = true) ∧ f j) := by
  refine writesP_of_issue ready meaning fun j _ => ?_
  rw [getLsbD_maskOf _ (lanes_le _), Bool.and_eq_true, related, and_assoc]

theorem getLsbD_foldl_or (f : Nat → BitVec 6) (k : Nat) : ∀ (l : List Nat) (a : BitVec 6),
    (l.foldl (fun r j => r ||| f j) a).getLsbD k = true ↔ a.getLsbD k = true ∨ ∃ j ∈ l, (f j).getLsbD k = true
  | [], a => by simp
  | j :: l, a => by
    rw [List.foldl_cons, getLsbD_foldl_or f k l]
    simp [or_assoc]

theorem compareFloat {d : BitVec 3} {a b : BitVec 5} {rel : Nat} (ready : Ready s (Need.vec [a, b]))
    (meaning : exec i s = s.vecCmp d a b p rel h) :
    (∀ e, s.hart.elt = some e →
      let q (j : Nat) := fRel e.nanFmt rel (e.decode (s.hart.el a j)) (e.decode (s.hart.el b j))
      ∃ fl, WritesP s i h d fl (fun j => (j < s.hart.lanes ∧ (s.hart.getP p).getLsbD j = true) ∧ (q j).1 = true) ∧
        ∀ k < 6, fl.getLsbD k = true ↔
          ∃ j, (j < s.hart.lanes ∧ (s.hart.getP p).getLsbD j = true) ∧ (q j).2.getLsbD k = true) ∧
    (s.hart.elt = none → exec i s = .next (s.raiseAt s.hid Cause.fmtw.code s.hart.pc 0 false)) := by
  have runs := meaning.trans (issue_of_ready ready _)
  refine ⟨fun e some => ?_, fun none => runs.trans ?_⟩
  · refine ⟨_, writesP_of_setP (runs.trans (by rw [some]; rfl)) fun j _ => ?_, fun k _ => ?_⟩
    · rw [getLsbD_maskOf _ (lanes_le _), Bool.and_eq_true, and_assoc]
    · rw [getLsbD_foldl_or]
      simp [mem_active]
  · rw [none]
    rfl

/-- A signed compare sets the bits of the selected lanes whose signed elements are related. -/
theorem compareSigned {d : BitVec 3} {a b : BitVec 5} (R : Int → Int → Bool) (rel : Int → Int → Prop)
    (ready : Ready s (Need.vec [a, b])) (related : ∀ y z, R y z = true ↔ rel y z)
    (meaning : exec i s = s.vecCmpInt d a b p h true R) :
    WritesP s i h d 0 (fun j => (j < s.hart.lanes ∧ (s.hart.getP p).getLsbD j = true) ∧
      rel (signedElem s.hart.ew (s.hart.el a j)) (signedElem s.hart.ew (s.hart.el b j))) := by
  refine compareInt ready meaning fun j => (related _ _).trans (iff_of_eq ?_)
  exact congrArg₂ rel (toSigned_elem (vElem_lt _ _ _)) (toSigned_elem (vElem_lt _ _ _))

/-- An unsigned compare sets the bits of the selected lanes whose elements are related. -/
theorem compareUnsigned {d : BitVec 3} {a b : BitVec 5} (R : Int → Int → Bool) (rel : Nat → Nat → Prop)
    (ready : Ready s (Need.vec [a, b])) (related : ∀ y z : Nat, R y z = true ↔ rel y z)
    (meaning : exec i s = s.vecCmpInt d a b p h false R) :
    WritesP s i h d 0 (fun j => (j < s.hart.lanes ∧ (s.hart.getP p).getLsbD j = true) ∧
      rel (s.hart.el a j) (s.hart.el b j)) :=
  compareInt ready meaning fun j => related (s.hart.el a j) (s.hart.el b j)

/-- The compares of 08 R196. -/
theorem vectorCompares : VectorCompares := by
  intro s d a b p h ready x w sel sg C S N
  refine ⟨compareFloat ready rfl, compareFloat ready rfl, compareFloat ready rfl, compareFloat ready rfl,
    compareFloat ready rfl, compareFloat ready rfl, compareFloat ready rfl, ?_⟩
  refine ⟨compareSigned (fun y z => decide (y = z)) (· = ·) ready (fun _ _ => decide_eq_true_iff) rfl,
    compareSigned (fun y z => decide (y ≠ z)) (· ≠ ·) ready (fun _ _ => decide_eq_true_iff) rfl,
    compareSigned (fun y z => decide (y < z)) (· < ·) ready (fun _ _ => decide_eq_true_iff) rfl,
    compareSigned (fun y z => decide (y ≤ z)) (· ≤ ·) ready (fun _ _ => decide_eq_true_iff) rfl,
    compareSigned (fun y z => decide (z < y)) (· > ·) ready (fun _ _ => decide_eq_true_iff) rfl,
    compareSigned (fun y z => decide (z ≤ y)) (· ≥ ·) ready (fun _ _ => decide_eq_true_iff) rfl, ?_⟩
  exact ⟨compareUnsigned (fun y z => decide (y = z)) (· = ·) ready (fun _ _ => decide_eq_true_iff.trans Int.natCast_inj) rfl,
    compareUnsigned (fun y z => decide (y ≠ z)) (· ≠ ·) ready
      (fun _ _ => decide_eq_true_iff.trans (not_congr Int.natCast_inj)) rfl,
    compareUnsigned (fun y z => decide (y < z)) (· < ·) ready (fun _ _ => decide_eq_true_iff.trans Int.ofNat_lt) rfl,
    compareUnsigned (fun y z => decide (y ≤ z)) (· ≤ ·) ready (fun _ _ => decide_eq_true_iff.trans Int.ofNat_le) rfl,
    compareUnsigned (fun y z => decide (z < y)) (· > ·) ready (fun _ _ => decide_eq_true_iff.trans Int.ofNat_lt) rfl,
    compareUnsigned (fun y z => decide (z ≤ y)) (· ≥ ·) ready (fun _ _ => decide_eq_true_iff.trans Int.ofNat_le) rfl⟩

/-! ## The mask instructions -/

/-- The first of the active lanes, as a mask. -/
def firstMask : List Nat → Mask
  | [] => 0
  | j :: _ => (1 : Mask) <<< j

theorem getLsbD_firstMask {l : List Nat} {n : Nat} (q : Nat → Bool) (hl : l = (List.range n).filter q) {j : Nat}
    (hj : j < 256) : (firstMask l).getLsbD j = true ↔ j < n ∧ q j = true ∧ ∀ k < j, ¬q k = true := by
  cases l with
  | nil =>
    refine ⟨fun bit => absurd bit (by simp [firstMask]), fun ⟨below, here, _⟩ => ?_⟩
    have : j ∈ (List.range n).filter q := List.mem_filter.mpr ⟨List.mem_range.mpr below, here⟩
    rw [← hl] at this
    exact absurd this List.not_mem_nil
  | cons i l =>
    have bit : (firstMask (i :: l)).getLsbD j = true ↔ j = i := by
      simp [firstMask, BitVec.getLsbD_shiftLeft]
      omega
    have first : i ∈ (List.range n).filter q := hl ▸ List.mem_cons_self
    obtain ⟨below, here⟩ := List.mem_filter.mp first
    have sorted : List.Pairwise (· < ·) (i :: l) := hl ▸ List.pairwise_lt_range.filter q
    have least {k : Nat} (hk : k < n) (hq : q k = true) : i ≤ k := by
      have mem : k ∈ i :: l := hl ▸ List.mem_filter.mpr ⟨List.mem_range.mpr hk, hq⟩
      rcases List.mem_cons.mp mem with same | later
      · exact same.ge
      · exact (List.rel_of_pairwise_cons sorted later).le
    rw [bit]
    refine ⟨?_, fun ⟨hjn, hq, earlier⟩ => ?_⟩
    · rintro rfl
      exact ⟨List.mem_range.mp below, here, fun k hk hq => absurd (least (hk.trans (List.mem_range.mp below)) hq) hk.not_ge⟩
    · by_contra other
      exact earlier i (lt_of_le_of_ne (least hjn hq) (Ne.symm other)) here

theorem pfirst_eq (s : State) (d a : BitVec 3) (h : BitVec 2) : exec (.pfirst d a h) s =
    s.issue Need.any (s.done h (fun x => x.setP d (firstMask (s.hart.active a)))) := by
  show execPfirst d a h s = _
  unfold execPfirst
  cases s.hart.active a <;> rfl

/-- The mask instructions of 08 R197. -/
theorem maskForms : MaskForms := by
  intro s d a b g h ready x pa pb
  refine ⟨writesP_of_issue ready rfl fun j _ => ?_, writesP_of_issue ready rfl fun j _ => ?_,
    writesP_of_issue ready rfl fun j _ => ?_, writesP_of_issue ready rfl fun j hj => ?_,
    writesP_of_issue ready rfl fun j hj => ?_, writesP_of_issue ready (pfirst_eq s d a h) fun j hj => ?_,
    writesP_of_issue ready rfl fun j hj => ?_, writesG_of_issue ready rfl⟩
  · simp [pa, pb, x]
  · simp [pa, pb, x]
  · rw [BitVec.getLsbD_xor, bne_iff_ne, Ne, Bool.eq_iff_iff]
    tauto
  · simp [pa, pb, x, hj]
  · simp [pa, x, hj]
  · exact getLsbD_firstMask _ rfl hj
  · rw [getLsbD_ones256 (Nat.min_le_right _ _), decide_eq_true_iff]
    exact (lt_min_iff (a := j)).trans (and_iff_left hj)

/-- Settles O49: compares write `maskOf` of their relation, mask instructions their bits. -/
theorem comparesAndMasks : Obligations.ComparesAndMasks := ⟨vectorCompares, maskForms⟩

end Sys2Proof.Proofs

namespace Sys2Proof.Proofs

/-!
Moves, broadcasts, permutes, shapes and random numbers (08 R183, R184, R198, R199, R202, R204), and vector conversions (07 R176
to R178).
-/

open Sys2Proof.Machine Sys2Proof.Claim

variable {s : State} {i : Instr} {l m : List (BitVec 5)} {v : BitVec 5} {p : BitVec 3} {h : BitVec 2}

/-! ## Forms without a mask -/

/-- What lanes are written depends only on which are selected. -/
theorem lanes_congr {w n : Nat} {sel sel' : Nat → Prop} {f : Nat → Nat × BitVec 6} (lanes : Lanes s i h v w n sel f)
    (same : ∀ j < n, sel j ↔ sel' j) : Lanes s i h v w n sel' f := by
  obtain ⟨r, fl, outcome, elems, flags⟩ := lanes
  refine ⟨r, fl, outcome, fun j hj => ?_, fun k hk => (flags k hk).trans ?_⟩
  · rw [← same j hj]
    exact elems j hj
  · exact exists_congr fun j => and_congr_right fun hj => and_congr_left fun _ => same j hj

/-- An instruction whose effect is `vecMap` under p0 writes every element. -/
theorem lanes_of_vecMap_all {f g : Nat → Nat × BitVec 6} (outcome : exec i s = s.vecMap h v 0 f)
    (value : ∀ j, (g j).1 % 2 ^ s.hart.ew = (f j).1 % 2 ^ s.hart.ew ∧ (g j).2 = (f j).2) :
    Lanes s i h v s.hart.ew s.hart.lanes (fun _ => True) g :=
  lanes_congr (lanes_of_vecMap outcome value) fun _ hj =>
    iff_true_intro ((getLsbD_getP s.hart 0 (hj.trans_le (lanes_le _))).mpr (.inl rfl))

theorem lanes_of_vecMap_eq {f : Nat → Nat × BitVec 6} (outcome : exec i s = s.vecMap h v p f) :
    Lanes s i h v s.hart.ew s.hart.lanes (fun j => (s.hart.getP p).getLsbD j = true) f :=
  lanes_of_vecMap outcome fun _ => ⟨rfl, rfl⟩

/-- A move: a `vecMap` of values without flags. -/
theorem moveForm {f : Nat → Nat} (ready : Ready s (Need.vec l))
    (meaning : exec i s = s.issue (Need.vec l) (s.vecMap h v p (fun j => (f j, 0)))) :
    Lanes s i h v s.hart.ew s.hart.lanes (fun j => (s.hart.getP p).getLsbD j = true) (fun j => (f j, 0)) :=
  lanes_of_vecMap_eq (meaning.trans (issue_of_ready ready _))

theorem lanes_pos (x : Slot) : 0 < x.lanes :=
  Nat.div_pos (by
    rw [Slot.ew, Nat.mul_comm]
    exact Nat.mul_le_mul (Nat.pow_le_pow_right (by decide) (show x.vw.toNat ≤ 3 by omega)) (by decide : 8 ≤ 256))
    (Nat.mul_pos (by decide) (Nat.two_pow_pos _))

/-- `vins` replaces one element. -/
theorem vins_lanes {a b : BitVec 5} (ready : Ready s (Need.vec [v])) :
    Lanes s (.vins v a b h) h v s.hart.ew s.hart.lanes (fun j => j = (s.hart.getG b).toNat % s.hart.lanes)
      (fun _ => ((s.hart.getG a).toNat, 0)) := by
  refine lanes_of_vFold (di := id) (f := fun _ => ((s.hart.getG a).toNat, 0)) [(s.hart.getG b).toNat % s.hart.lanes]
    (ew_mul_lanes _) (fun _ _ => id) (fun j _ => by simp [eq_comm]) (fun j hj => ?_) (fun j _ => ⟨rfl, rfl⟩) ?_
  · rw [List.mem_singleton.mp hj]
    exact Nat.mod_lt _ (lanes_pos _)
  · refine (issue_of_ready ready _).trans (done_congr ?_)
    exact congrArg (fun x => Slot.setV x v _) ((congrArg _ (BitVec.or_zero (x := 0))).trans (Slot.orVxf_zero s.hart)).symm

theorem rngAt_eq (x : Slot) (a b : BitVec 5) (j : Nat) : x.rngAt a b j = vrng64 (x.getG a) (x.getG b + BitVec.ofNat 64 j) := rfl

/-- `vrng` writes its random words cut to the width. -/
theorem vrng_lanes {a b : BitVec 5} (ready : Ready s (Need.vec [v])) :
    Lanes s (.vrng v a b p h) h v s.hart.ew s.hart.lanes (fun j => (s.hart.getP p).getLsbD j = true) (fun j =>
      ((vrng64 (s.hart.getG a) (s.hart.getG b + BitVec.ofNat 64 j)).toNat, 0)) := by
  have same : (fun j => (((vrng64 (s.hart.getG a) (s.hart.getG b + BitVec.ofNat 64 j)).toNat, 0) : Nat × BitVec 6)) =
      fun j => ((s.hart.rngAt a b j).toNat, 0) := funext fun j => by rw [rngAt_eq]
  rw [same]
  exact moveForm ready rfl

/-- `vrngf` writes fractions where the format is an IEEE one. -/
theorem vrngf_lanes {a b : BitVec 5} {f : Fmt} (ready : Ready s (Need.vec [v])) (ieee : s.hart.elt = some (.ieee f)) :
    Lanes s (.vrngf v a b p h) h v s.hart.ew s.hart.lanes (fun j => (s.hart.getP p).getLsbD j = true) (fun j =>
      unitElem f (f.fb + 1) ((vrng64 (s.hart.getG a) (s.hart.getG b + BitVec.ofNat 64 j)).toNat / 2 ^ (63 - f.fb))) := by
  have same : (fun j => unitElem f (f.fb + 1)
        ((vrng64 (s.hart.getG a) (s.hart.getG b + BitVec.ofNat 64 j)).toNat / 2 ^ (63 - f.fb))) =
      fun j => unitElem f (f.fb + 1) ((s.hart.rngAt a b j).toNat / 2 ^ (64 - (f.fb + 1))) := funext fun j => by
    rw [rngAt_eq, show 64 - (f.fb + 1) = 63 - f.fb by omega]
  rw [same]
  refine lanes_of_vecMap_eq ((issue_of_ready ready _).trans ?_)
  rw [ieee]

theorem vrngf_fault {a b : BitVec 5} (ready : Ready s (Need.vec [v])) (none : ∀ f, s.hart.elt ≠ some (.ieee f)) :
    exec (.vrngf v a b p h) s = .next (s.raiseAt s.hid Cause.fmtw.code s.hart.pc 0 false) := by
  refine (issue_of_ready ready _).trans ?_
  split
  next f ieee => exact absurd ieee (none f)
  next => rfl

theorem vfmov_eq {imm : BitVec 20} {e : Elt} (ready : Ready s (Need.vec [v])) (format : s.hart.elt = some e) :
    exec (.vfmov v imm) s = s.vecMap 0 v 0 (fun _ => convert (imm.toNat * 2 ^ 12) (.flt (.ieee fmt32)) (.flt e) 0) := by
  refine (issue_of_ready ready _).trans ?_
  rw [State.vecFp, format]

/-- The moves, shapes and random numbers of 08. -/
theorem vectorMovesAndShapes : VectorMovesAndShapes := by
  intro s v a b p w l imm h x V sel M el rows rng
  refine ⟨fun ready => moveForm ready rfl, fun ready => ?_, fun ready => ?_, fun ready => ?_,
    fun ready => ?_, fun ready => ?_, fun ready => ?_,
    fun ready => ?_, fun ready => ?_, fun ready f hf => ?_, fun ready none => ?_,
    fun ready e he => ?_, fun ready fits => ?_, fun ready large => ?_, fun ready fits => ?_, fun ready large => ?_⟩
  · exact lanes_of_vecMap_all (issue_of_ready ready _) fun _ => ⟨rfl, rfl⟩
  · exact issue_of_ready ready _
  · exact moveForm ready rfl
  · exact vins_lanes ready
  · exact writesG_of_issue ready rfl
  · exact moveForm ready rfl
  · exact moveForm ready rfl
  · exact vrng_lanes ready
  · exact vrngf_lanes ready hf
  · exact vrngf_fault ready none
  · exact lanes_of_vecMap_all (vfmov_eq ready he) fun _ => ⟨rfl, rfl⟩
  · exact (issue_of_ready ready _).trans (if_pos fits)
  · exact (issue_of_ready ready _).trans (if_neg large.not_ge)
  · exact (if_neg fits.not_ge).trans (issue_of_ready ready _)
  · exact if_pos large

end Sys2Proof.Proofs

namespace Sys2Proof.Proofs

/-!
Vector conversions, packs and unpacks (07 R176 to R178).
-/

open Sys2Proof.Machine Sys2Proof.Claim

variable {s : State} {v a b : BitVec 5} {p t f : BitVec 3} {q h : BitVec 2} {u : BitVec 1}

/-! ## `vcvt` -/

theorem cvtTy_width_pos (c : BitVec 3) (x : Slot) : 0 < (cvtTy c x.ew).2 := by
  have width : 0 < x.ew := Nat.mul_pos (by decide) (Nat.two_pow_pos _)
  unfold cvtTy
  split <;> first | exact width | decide

/-- The elements of a narrowing conversion's part lie in the register. -/
theorem part_fits {sw dw q n : Nat} (pos : 0 < dw) (hn : n = 2048 / Nat.max sw dw)
    (part : q < Nat.max sw dw / Nat.min sw dw) : (if dw < sw then q * n else 0) + n ≤ 2048 / dw := by
  subst hn
  split
  next narrow =>
    have hmax : Nat.max sw dw = sw := Nat.max_eq_left narrow.le
    have hmin : Nat.min sw dw = dw := Nat.min_eq_right narrow.le
    rw [hmax, hmin] at part
    rw [hmax, Nat.le_div_iff_mul_le pos, ← Nat.succ_mul]
    calc (q + 1) * (2048 / sw) * dw ≤ sw / dw * (2048 / sw) * dw := by gcongr; exact part
      _ = dw * (sw / dw) * (2048 / sw) := by ring
      _ ≤ sw * (2048 / sw) := by gcongr; exact Nat.mul_div_le _ _
      _ ≤ 2048 := Nat.mul_div_le _ _
  next wide =>
    have hmax : Nat.max sw dw = dw := Nat.max_eq_right (not_lt.mp wide)
    rw [hmax, Nat.zero_add]

/-- `vcvt` with a part that the ratio of the widths gives converts the selected elements of that part. -/
theorem vcvt_lanes (ready : Ready s (Need.vec [v, a])) {sw dw n off : Nat} (hsw : sw = (cvtTy f s.hart.ew).2)
    (hdw : dw = (cvtTy t s.hart.ew).2) (hn : n = 2048 / Nat.max sw dw) (hoff : off = if dw < sw then q.toNat * n else 0)
    (part : q.toNat < Nat.max sw dw / Nat.min sw dw) :
    Lanes s (.vcvt v a q p t f h) h v dw (2048 / dw)
      (fun k => off ≤ k ∧ k < off + n ∧ (s.hart.getP p).getLsbD (k - off) = true)
      (fun k => convert (vElem (s.hart.getV a) sw (if sw < dw then q.toNat * n + (k - off) else k - off))
        (cvtTy f s.hart.ew).1 (cvtTy t s.hart.ew).1 (s.hart.fmt.toNat % 4)) := by
  have fits : off + n ≤ 2048 / dw := hoff ▸ part_fits (hdw ▸ cvtTy_width_pos t s.hart) hn part
  have place (j : Nat) : (if dw < sw then q.toNat * n + j else j) = off + j := by
    rw [hoff]
    split
    · rfl
    · rw [Nat.zero_add]
  refine lanes_of_vFold (di := fun j => if dw < sw then q.toNat * n + j else j)
    (f := fun j => convert (vElem (s.hart.getV a) sw (if sw < dw then q.toNat * n + j else j))
      (cvtTy f s.hart.ew).1 (cvtTy t s.hart.ew).1 (s.hart.fmt.toNat % 4))
    ((List.range n).filter (fun j => (s.hart.getP p).getLsbD j)) (Nat.mul_div_le 2048 dw) (fun j k same => ?_)
    (fun j _ => ?_) (fun j hj => ?_) (fun j _ => ?_) ?_
  · simp only [place] at same
    omega
  · simp only [place, List.mem_filter, List.mem_range]
    refine ⟨fun ⟨lo, hi, sel⟩ => ⟨j - off, ⟨by omega, sel⟩, by omega⟩, ?_⟩
    rintro ⟨k, ⟨hk, sel⟩, rfl⟩
    exact ⟨by omega, by omega, by rwa [Nat.add_sub_cancel_left]⟩
  · have := List.mem_range.mp (List.mem_filter.mp hj).1
    rw [place]
    omega
  · simp only [place, Nat.add_sub_cancel_left]
    exact ⟨trivial, trivial⟩
  · subst hsw hdw hn
    exact (issue_of_ready ready _).trans ((if_neg part.not_ge).trans (done_congr rfl))

/-! ## Bytes of a register -/

theorem vSetByte_eq (r : VReg) (j : Nat) (x : Byte) : vSetByte r j x = vSetElem r 8 j x.toNat := by
  refine BitVec.eq_of_getLsbD_eq fun n hn => ?_
  rw [getLsbD_vSetElem _ _ _ _ hn, vSetByte]
  have ones (k : Nat) (hk : k < 2048) : (0xFF : VReg).getLsbD k = decide (k < 8) := by
    rw [show (0xFF : VReg) = BitVec.ofNat 2048 (2 ^ 8 - 1) from rfl, BitVec.getLsbD_ofNat, Nat.testBit_two_pow_sub_one]
    simp [hk]
  simp only [BitVec.getLsbD_or, BitVec.getLsbD_and, BitVec.getLsbD_not, BitVec.getLsbD_shiftLeft, BitVec.getLsbD_setWidth, hn,
    decide_true, Bool.true_and, ones (n - 8 * j) (by omega), BitVec.testBit_toNat]
  by_cases low : n < 8 * j
  · simp [low, low.not_ge]
  · by_cases high : n - 8 * j < 8
    · simp [low, high, show n - 8 * j < 2048 by omega, not_lt.mp low]
    · simp [low, high, BitVec.getLsbD_of_ge _ _ (not_lt.mp high)]

theorem vElem_vPut {j : Nat} (hj : j < 256) : ∀ (bs : List Byte) (off : Nat) (r : VReg), off + bs.length ≤ 256 →
    vElem (vPut r off bs) 8 j =
      if off ≤ j ∧ j < off + bs.length then (bs[j - off]?.getD 0).toNat else vElem r 8 j
  | [], off, r, _ => by rw [vPut, if_neg (by simp)]
  | x :: bs, off, r, fit => by
    rw [List.length_cons] at fit
    rw [vPut, vElem_vPut hj bs (off + 1) _ (by omega), vSetByte_eq, vElem_vSetElem _ (by omega) (by omega), List.length_cons]
    rcases Nat.lt_trichotomy j off with before | here | after
    · rw [if_neg (by omega), if_neg (by omega), if_neg (by omega)]
    · subst here
      rw [if_neg (by omega), if_pos rfl, if_pos (by omega), Nat.sub_self]
      exact Nat.mod_eq_of_lt x.isLt
    · by_cases inside : j < off + (bs.length + 1)
      · rw [if_pos (by omega), if_pos (by omega), show j - off = (j - (off + 1)) + 1 by omega, List.getElem?_cons_succ]
      · rw [if_neg (by omega), if_neg (by omega), if_neg (by omega)]

/-! ## BFP8 -/

/-- The mantissas of a BFP8 pack. -/
def bfpMants (bad : Bool) (sc : Nat) (el : List FVal) : List (Int × BitVec 6) :=
  if bad || sc = 0 then List.replicate 64 ((0 : Int), (0 : BitVec 6)) else el.map (bfpMant sc)

theorem length_bfpMants {bad : Bool} {sc : Nat} {el : List FVal} (hel : el.length = 64) :
    (bfpMants bad sc el).length = 64 := by
  unfold bfpMants
  split
  · exact List.length_replicate
  · rw [List.length_map, hel]

/-- `vpk.bfp8` writes 64 mantissas into one quarter of vd and their scale into a byte of gb. -/
theorem vpkBfp8_form (ready : Ready s (Need.vec [v, a])) {el : List FVal}
    (hel : el = (List.range 64).map (fun j => d32 (vElem (s.hart.getV a) 32 j))) :
    ∃ (r : VReg) (fl : BitVec 6) (e : Nat),
      Completes s (.vpkBfp8 v a b q h) 4 h (fun y =>
        ((y.orVxf fl).setV v r).setG b (setFld (y.getG b) (8 * q.toNat + 7) (8 * q.toNat) e)) ∧
      (∀ j, j < 64 * q.toNat ∨ (64 * q.toNat + 64 ≤ j ∧ j < 256) → vElem r 8 j = vElem (s.hart.getV v) 8 j) ∧
      (el.any (fun m => m.isNan || m.isInf) = true → e = 0xFF ∧ fl = flagNV ∧ ∀ j < 64, vElem r 8 (64 * q.toNat + j) = 0) ∧
      (el.any (fun m => m.isNan || m.isInf) = false → e = (bfpScale el).1 ∧
        ∀ j < 64, vElem r 8 (64 * q.toNat + j) =
          if e = 0 then 0 else ((bfpMant e (el[j]?.getD (.num false 0 0))).1 % 256).toNat) := by
  have length : el.length = 64 := by rw [hel, List.length_map, List.length_range]
  obtain ⟨bad, hbad⟩ : ∃ bad, bad = el.any (fun m => m.isNan || m.isInf) := ⟨_, rfl⟩
  obtain ⟨sc, hsc⟩ : ∃ sc, sc = if bad then (0xFF, flagNV) else bfpScale el := ⟨_, rfl⟩
  obtain ⟨ms, hms⟩ : ∃ ms, ms = bfpMants bad sc.1 el := ⟨_, rfl⟩
  have quarter : q.toNat < 4 := q.isLt
  have count : (ms.map (fun m => BitVec.ofInt 8 m.1)).length = 64 := by rw [List.length_map, hms, length_bfpMants length]
  refine ⟨vPut (s.hart.getV v) (64 * q.toNat) (ms.map (fun m => BitVec.ofInt 8 m.1)),
    ms.foldl (fun (f : BitVec 6) m => f ||| m.2) sc.2, sc.1, ?_, fun j hj => ?_, fun isBad => ?_, fun isGood => ?_⟩
  · subst hms hsc hbad hel
    exact (issue_of_ready ready _).trans (done_congr rfl)
  · rw [vElem_vPut (by omega) _ _ _ (by omega), count, if_neg (by omega)]
  · rw [← hbad] at isBad
    subst isBad
    rw [if_pos rfl] at hsc
    have zeros : ms = List.replicate 64 (0, 0) := hms
    subst hsc zeros
    refine ⟨rfl, by decide, fun j hj => ?_⟩
    rw [vElem_vPut (by omega) _ _ _ (by rw [count]; omega), count, if_pos (by omega), Nat.add_sub_cancel_left, List.map_replicate,
      List.getElem?_replicate, if_pos hj]
    rfl
  · rw [← hbad] at isGood
    subst isGood
    have scale : sc = bfpScale el := hsc
    refine ⟨congrArg Prod.fst scale, fun j hj => ?_⟩
    rw [vElem_vPut (by omega) _ _ _ (by rw [count]; omega), count, if_pos (by omega), Nat.add_sub_cancel_left, List.getElem?_map,
      hms, bfpMants]
    by_cases zero : sc.1 = 0
    · rw [if_pos zero, if_pos (by simp [zero]), List.getElem?_replicate, if_pos hj]
      rfl
    · rw [if_neg zero, if_neg (by simp [zero]), List.getElem?_map, List.getElem?_eq_getElem (length.symm ▸ hj)]
      exact BitVec.toNat_ofInt (n := 8) _

theorem vFold_fst {w : Nat} {di : Nat → Nat} {g : Nat → Nat × BitVec 6} : ∀ (l : List Nat) (c : VReg × BitVec 6),
    (vFold l w di g c).1 = l.foldl (fun r j => vSetElem r w (di j) (g j).1) c.1
  | [], _ => rfl
  | j :: l, c => by
    rw [vFold, List.foldl_cons, ← vFold, vFold_fst l]
    rfl

/-- An element that `vupk.bfp8` writes, for the scale `sc` and the mantissa `m`. -/
def bfpElem (sc : Nat) (m : Int) : Nat :=
  if sc = 0xFF then fmt32.defNan
  else if m = 0 ∨ (e5m3 sc).1 = 0 then 0
  else (fmt32.round 24 0 (decide (m < 0)) (m.natAbs * (e5m3 sc).1) ((e5m3 sc).2 - 7)).1

/-- `vupk.bfp8` writes the 64 products of the mantissas and the scale. -/
theorem vupkBfp8_form (ready : Ready s (Need.vec [v, a])) {sc : Nat}
    (hsc : sc = fld (s.hart.getG b) (8 * q.toNat + 7) (8 * q.toNat)) :
    ∃ r : VReg, Completes s (.vupkBfp8 v a b q h) 4 h (fun y =>
        (y.orVxf (if sc = 0xFF then flagNV else 0)).setV v r) ∧
      ∀ j < 64, vElem r 32 j = bfpElem sc (toSigned 8 (vElem (s.hart.getV a) 8 (64 * q.toNat + j))) % 2 ^ 32 := by
  refine ⟨(List.range 64).foldl (fun r j => vSetElem r 32 j
    (bfpElem sc (toSigned 8 (vElem (s.hart.getV a) 8 (64 * q.toNat + j))))) 0, ?_, fun j hj => ?_⟩
  · refine (issue_of_ready ready _).trans ?_
    subst hsc
    simp only [bfpElem, Bool.or_eq_true, decide_eq_true_eq]
    exact done_congr rfl
  · have fold := vFold_fst (w := 32) (di := id) (g := fun j =>
      (bfpElem sc (toSigned 8 (vElem (s.hart.getV a) 8 (64 * q.toNat + j))), 0)) (List.range 64) (0, 0)
    rw [show vElem _ 32 j = vElem (vFold (List.range 64) 32 id _ (0, 0)).1 32 (id j) by rw [fold]; rfl]
    exact vElem_vFold_of_mem (fun _ _ => id) _ _ (fun k hk => Nat.mul_le_mul_left 32 (List.mem_range.mp hk))
      (List.mem_range.mpr hj)

/-! ## Integer packs -/

/-- `vpk` at a width above 8 clamps the elements of va and vb to half the width. -/
theorem vpk_lanes (ready : Ready s (Need.vec [v, a, b])) (wide : s.hart.ew ≠ 8) {half : Nat → Int}
    (hhalf : half = fun j => toSigned s.hart.ew
      (if j < s.hart.lanes then s.hart.el a j else s.hart.el b (j - s.hart.lanes))) :
    Lanes s (.vpk v a b h) h v (s.hart.ew / 2) (2 * s.hart.lanes) (fun _ => True) (fun j =>
      (((clampInt (s.hart.ew / 2) true (half j)).1 % 2 ^ (s.hart.ew / 2)).toNat, (clampInt (s.hart.ew / 2) true (half j)).2)) := by
  have fits : s.hart.ew / 2 * (2 * s.hart.lanes) ≤ 2048 := by
    rw [← Nat.mul_assoc]
    exact (Nat.mul_le_mul_right _ (Nat.div_mul_le_self _ 2)).trans (ew_mul_lanes _)
  refine lanes_of_vFold (di := id) (f := fun j =>
      (((clampInt (s.hart.ew / 2) true (half j)).1 % 2 ^ (s.hart.ew / 2)).toNat, (clampInt (s.hart.ew / 2) true (half j)).2))
    (List.range (2 * s.hart.lanes)) fits (fun _ _ => id) (fun j hj => ?_) (fun j hj => List.mem_range.mp hj)
    (fun j _ => ⟨rfl, rfl⟩) ?_
  · simpa using hj
  · subst hhalf
    exact (issue_of_ready ready _).trans ((if_neg wide).trans (done_congr rfl))

/-- The conversions of 07 R176 to R178. -/
theorem vectorConversions : VectorConversions := by
  intro s v a b p t f q h u x V sw dw n off Fault sc va32 half
  refine ⟨fun ready many => (issue_of_ready ready _).trans (if_pos many), fun ready part => vcvt_lanes ready rfl rfl rfl rfl part,
    fun ready => vpkBfp8_form ready rfl, fun ready => ?_, fun ready narrow => ⟨?_, ?_⟩, fun ready wide => ⟨?_, ?_⟩⟩
  · exact vupkBfp8_form ready rfl
  · exact (issue_of_ready ready _).trans (if_pos narrow)
  · exact (issue_of_ready (ready_vec_subset ready (by simp)) _).trans (if_pos narrow)
  · exact vpk_lanes ready wide rfl
  · refine lanes_of_vecMap_all ((issue_of_ready (ready_vec_subset ready (by simp)) _).trans (if_neg wide)) fun j => ⟨rfl, rfl⟩

/-- Settles O50: moves and shapes on the elements, conversions and packs element by element. -/
theorem vectorMovesAndConversions : Obligations.VectorMovesAndConversions := ⟨vectorMovesAndShapes, vectorConversions⟩

end Sys2Proof.Proofs

namespace Sys2Proof.Proofs

/-!
Traps (15 R381, R382, R385 to R387): what a fault becomes, what trap entry writes, and the return from a trap handler.
-/

open Sys2Proof.Machine Sys2Proof.Claim

/-! ## Trap entry -/

/-- A fault outside a handler whose trap waits is kept until the strand's remote accesses are answered. -/
theorem raiseAt_waits {s : State} {n : Nat} (code : BitVec 16) (xpc xval : Word) (late : Bool)
    (user : (s.slotAt n).status.trap = false) (waits : s.trapWaits n = true) : s.raiseAt n code xpc xval late =
      (s.sendBuffers n).modSlot n (fun y => { y with
        bound := { y.bound with late := some { cause := code, xpc := xpc, xval := xval, late := late, final := false } }
        park := none }) := by
  simp [State.raiseAt, State.raiseFault, user, waits]

/-- A fault that a logical process holds is kept with it. -/
theorem raiseAt_held {s : State} {n : Nat} (code : BitVec 16) (xpc xval : Word) (late : Bool)
    (user : (s.slotAt n).status.trap = false) (ready : s.trapWaits n = false) (held : s.holdsFault (s.slotAt n) code = true) :
    s.raiseAt n code xpc xval late = s.modSlot n (fun y => { y with
      lp := { y.lp with held := some { cause := code, xpc := xpc, xval := xval, late := late, final := false } }
      park := some .held }) := by
  simp [State.raiseAt, State.raiseFault, user, ready, held]

/-- No logical process outside a handler holds a fault that is neither of the log nor of the floor. -/
theorem holdsFault_outside {s : State} {x : Slot} {code : BitVec 16} (outside : x.inHandler = false)
    (log : code ≠ Cause.logfull.code) (floor : code ≠ Cause.ebcflr.code) : s.holdsFault x code = false := by
  have : (x.record.opt && x.lp.inh) = false := outside
  simp [State.holdsFault, log, floor, this]

/-- Settles O23: the cases of `raiseFault`, the fields of trap entry, and the two instructions that raise a fault. -/
theorem trapEntry : Obligations.TrapEntry := by
  refine ⟨fun s n code xpc xval late => ?_, fun s n code xpc xval late => ?_, fun s h ready user outside calm => ⟨?_, ?_⟩⟩
  · exact ⟨rfl, raiseAt_nested code xpc xval late, raiseAt_waits code xpc xval late, raiseAt_held code xpc xval late,
      fun user ready held => raiseAt_takeTrap code xpc xval late user held ready⟩
  · intro s1 x y
    have entry : y = x.takeTrap s1.xvec (s1.core (n / 16)).cycle code xpc xval late := State.slotAt_modSlot_same _ _ _
    rw [entry]
    exact ⟨rfl, rfl, rfl, rfl, rfl, rfl, rfl, rfl, rfl, rfl, rfl, rfl, rfl, State.modSlot_mem _ _ _⟩
  · exact (issue_of_ready ready _).trans (congrArg Host.Outcome.next (raiseAt_takeTrap _ _ _ _ (by rwa [State.slotAt_hid])
      (by rw [State.slotAt_hid]; exact holdsFault_outside outside (by decide) (by decide)) calm))
  · intro s1 later
    have same : s1.slotAt s1.hid = s1.hart := State.slotAt_hid s1
    exact (issue_of_ready ready _).trans (congrArg Host.Outcome.next (raiseAt_takeTrap _ _ _ _ (by rw [same]; exact user)
      (by rw [same]; exact holdsFault_outside outside (by decide) (by decide)) later))

/-! ## Return from a trap handler -/

theorem b2n_bitOf (w : Word) (n : Nat) : b2n (bitOf w n) = w.toNat / 2 ^ n % 2 := by
  rw [bitOf, ← BitVec.testBit_toNat, Nat.testBit_eq_decide_div_mod_eq, b2n]
  have := Nat.mod_lt (w.toNat / 2 ^ n) (by decide : 2 > 0)
  split
  next one => exact (of_decide_eq_true one).symm
  next other =>
    have : w.toNat / 2 ^ n % 2 ≠ 1 := fun one => other (decide_eq_true one)
    omega

/-- An XSW that may be restored is the STATUS that it restores. -/
theorem statusWord_returnFromTrap {x : Slot} (ok : x.xswOk = true) (cycle : Nat) :
    (x.returnFromTrap cycle).statusWord = x.xsw := by
  simp only [Slot.xswOk, Bool.and_eq_true, decide_eq_true_eq, Bool.not_eq_true', beq_iff_eq] at ok
  obtain ⟨⟨⟨⟨high, mid⟩, trap⟩, mode⟩, opt⟩ := ok
  have trapBit := b2n_bitOf x.xsw 1
  have optBit := b2n_bitOf x.xsw 10
  rw [trap] at trapBit
  rw [opt] at optBit
  have small := x.xsw.isLt
  simp only [Nat.reducePow] at trapBit optBit
  simp only [fld, Nat.reduceAdd, Nat.reduceSub, Nat.reducePow] at high mid mode
  refine BitVec.eq_of_toNat_eq ?_
  simp only [Slot.statusWord, Slot.returnFromTrap, packFields, List.foldl_cons, List.foldl_nil, b2n_bitOf, BitVec.toNat_ofNat,
    optBit, ← mode]
  simp only [b2n, Bool.false_eq_true, if_false] at trapBit ⊢
  simp only [Nat.reducePow]
  omega

/-- Settles O24: `rtx`, XHOLD and XFATAL after the checks of `trapReturn`. -/
theorem trapReturn : Obligations.TrapReturn := by
  intro s h v x back
  have notrap {k : State → State} (user : x.status.trap = false) : s.trapReturn k = s.raise .notrap 0 :=
    if_pos (by rw [user]; rfl)
  have bad {k : State → State} (handler : x.status.trap = true) (no : x.xswOk = false) :
      s.trapReturn k = .next (s.fatalSlot s.hid Cause.badsw.code 0 0) :=
    (if_neg (by rw [handler]; exact Bool.false_ne_true)).trans (if_pos (by rw [no]; rfl))
  have good {k : State → State} (handler : x.status.trap = true) (ok : x.xswOk = true) : s.trapReturn k = .next (k back) :=
    (if_neg (by rw [handler]; exact Bool.false_ne_true)).trans (if_neg (by rw [ok]; exact Bool.false_ne_true))
  have hold : exec (.xholdWrite v) s = s.trapReturn (fun s1 => s1.writeBackStrand s1.hid 6) := rfl
  refine ⟨fun user => issue_fault ?_ _, fun ready => ⟨fun user => ?_, fun handler no => ?_, fun handler ok => ?_⟩,
    fun handler ok => hold.trans (good handler ok), fun handler => if_neg (by rw [handler]; exact Bool.false_ne_true),
    fun user => ⟨hold.trans (notrap user), if_pos (by rw [user]; rfl)⟩⟩
  · have user : s.hart.status.exec = false := user
    simp [State.needFault, Need.any, user]
  · exact (issue_of_ready ready _).trans (notrap user)
  · exact (issue_of_ready ready _).trans (bad handler no)
  · exact ⟨_, (issue_of_ready ready _).trans (good handler ok), statusWord_returnFromTrap ok s.now, rfl, rfl, rfl, rfl, rfl, rfl, rfl,
      rfl, rfl, rfl, rfl, rfl⟩

end Sys2Proof.Proofs

namespace Sys2Proof.Proofs

/-!
The effects of writes to executive registers (15 R387, R390, R395, R400, R402, R404 to R406; 16 R413).
-/

open Sys2Proof.Machine Sys2Proof.Claim

/-! ## The event queue and the profile tables -/

theorem evpop_cons {s : State} {core : Nat} {c : BitVec 16} {a : BitVec 48} {r : List (BitVec 16 × BitVec 48)}
    (events : (s.core core).events = (c, a) :: r) :
    s.evpop core = (packFields [(c.toNat, 48), (a.toNat, 0)], s.modCore core (fun k => { k with events := r })) := by
  rw [State.evpop, events]

theorem evpop_nil {s : State} {core : Nat} (events : (s.core core).events = []) : s.evpop core = (0, s) := by
  rw [State.evpop, events]

theorem rawPut_tiles (s : State) (pa : Nat) (bs : List Byte) : (s.rawPut pa bs).tiles = s.tiles := by
  unfold State.rawPut
  split <;> rfl

theorem spill_tiles (s : State) (t : Nat) (e : ProfEntry) : (s.spill t e).tiles = s.tiles :=
  (rawPut_tiles _ _ _).trans (rawPut_tiles _ _ _)

theorem foldl_spill_tiles (t : Nat) : ∀ (l : List ProfEntry) (s : State),
    (l.foldl (fun (u : State) e => u.spill t e) s).tiles = s.tiles
  | [], _ => rfl
  | e :: l, s => (foldl_spill_tiles t l _).trans (spill_tiles s t e)

theorem tile_congr {s t : State} (same : t.tiles = s.tiles) (n : Nat) : t.tile n = s.tile n := by
  rw [State.tile, State.tile, same]

/-- Spilling every entry of a tile leaves its table empty. -/
theorem spillIf_all_prof (s : State) (t : Nat) : ((s.spillIf t (fun _ => true)).tile t).prof = [] := by
  unfold State.spillIf
  rw [tile_congr (foldl_spill_tiles t _ _)]
  split
  next empty => simpa using empty
  next => simp

/-- PROFCTL holds the writable fields, and a tile whose EN is cleared has an empty table. -/
theorem profctlPut_tile (s : State) (t : Nat) (v : Word) :
    ((s.profctlPut t v).tile t).profctl = packFields [(fld v 63 52, 52), (fld v 17 0, 0)] ∧
    (bitOf (s.tile t).profctl 16 = true → bitOf v 16 = false → ((s.profctlPut t v).tile t).prof = []) := by
  unfold State.profctlPut
  refine ⟨by rw [State.tile_modTile_same], fun on off => ?_⟩
  rw [State.tile_modTile_same, on, off]
  exact spillIf_all_prof s t

/-! ## Fixed timing, time and stops -/

/-- FTSET holds the permission, and a context that loses it leaves fixed-timing mode. -/
theorem ftset_job (s : State) (v : Word) (pid : BitVec 12) (hpid : pid = BitVec.ofNat 12 (fld v 63 52)) :
    ((s.ftset v).job pid).ftOk = bitOf v 0 ∧ (bitOf v 0 = false → ((s.ftset v).job pid).ft = false) := by
  subst hpid
  unfold State.ftset
  by_cases on : bitOf v 0 = true
  · simp only [if_pos on]
    exact ⟨by rw [State.job_modJob_same], fun off => absurd (on.symm.trans off) (by decide)⟩
  · simp only [if_neg on]
    have left (u : State) (p : BitVec 12) : (u.leaveFt p).job p = { u.job p with ft := false } := State.job_modJob_same u p (fun j => { j with ft := false })
    rw [left, State.job_modJob_same]
    exact ⟨rfl, fun _ => rfl⟩

theorem timeadj_of_ready {s : State} {v : Word} (boot : s.plat.boot = 3) (once : s.plat.adjusted = false) :
    s.timeadj v = ({ s with ticks := s.ticks + 2 * v.toNat } : State).modPlat (fun p =>
      { p with adjusted := true, timeOff := p.timeOff + 2 * v.toNat }) := by
  rw [State.timeadj, if_pos (by simp [boot, once])]

theorem timeadj_of_not_ready {s : State} {v : Word} (no : s.plat.boot ≠ 3 ∨ s.plat.adjusted = true) :
    s.timeadj v = s.note 0x17 0 v 0 := by
  rw [State.timeadj, if_neg]
  rcases no with boot | adjusted
  · simp [boot]
  · simp [adjusted]

/-- Settles O25: each register's effect is the model's function of it, case by case. -/
theorem registerEffects : Obligations.RegisterEffects := by
  refine ⟨fun s core d c a r events => ?_, fun s core d events => ?_, fun s core n low high => ?_, fun s t v => ?_, fun s v => ?_,
    fun s v sid k => ⟨fun none => ?_, fun found x away => ?_⟩, fun s n due => ⟨fun held => ?_, fun free => ?_⟩, fun s core slot => rfl⟩
  · show execEvpopRead core d s = _
    rw [execEvpopRead, evpop_cons events]
  · show execEvpopRead core d s = _
    rw [execEvpopRead, evpop_nil events]
  · exact if_pos (by simp [low, high])
  · exact ⟨_, rfl, profctlPut_tile s t v⟩
  · refine ⟨⟨_, rfl, ftset_job s v _ rfl⟩, rfl, fun boot once => ?_, fun no => ?_⟩
    · refine ⟨_, rfl, ?_⟩
      rw [timeadj_of_ready boot once]
      exact ⟨rfl, rfl⟩
    · exact congrArg Host.Outcome.next (timeadj_of_not_ready no)
  · show Host.Outcome.next (s.sresume v) = _
    rw [State.sresume, none]
  · show Host.Outcome.next (s.sresume v) = _
    simp only [State.sresume, found, away]
  · show execDbgstopStop n s = _
    rw [execDbgstopStop, due, if_neg (by decide), if_pos held]
  · show execDbgstopStop n s = _
    rw [execDbgstopStop, due, if_neg (by decide), if_neg (by rw [free]; decide)]

end Sys2Proof.Proofs

namespace Sys2Proof.Proofs

/-!
Clocks (15 R394 to R397; 16 R420): `clkm`, pinning, droop and the governor.
-/

open Sys2Proof.Machine Sys2Proof.Claim

/-! ## `clkm` -/

section Clkm

variable {s : State} {a : BitVec 5} {h : BitVec 2} (ready : Ready s Need.any)

include ready

theorem clkm_zero (zero : s.hart.getG a = 0) :
    exec (.clkm a h) s = if (s.job s.hart.pid).ft then (s.leaveFt s.hart.pid).done h id else s.done h id := by
  show execClkm a h s = _
  simp only [execClkm, issue_of_ready ready, zero]
  rfl

/-- A request that asks for fixed timing in a context that is not in it. -/
theorem clkm_one (one : s.hart.getG a = 1) (elastic : (s.job s.hart.pid).ft = false) : exec (.clkm a h) s =
    (if !(s.job s.hart.pid).ftOk then s.raise .clkperm 0
     else if !isService s.coreNo && (s.tile s.tileNo).rsvFull s.hart.pid then s.raise .clkdeny 0
     else
       let s1 := s.modJob s.hart.pid (fun j => { j with ft := true })
       let s2 := if isService s.coreNo then s1 else s1.modTile s1.tileNo (fun k => k.reservePin s.hart.pid)
       let s3 := (s2.tilesOf s.hart.pid).foldl (fun (t : State) k => t.enterFtTile s.hart.pid k) s2
       if isService s.coreNo || (s3.tile s3.tileNo).pinned then s3.done h id else .next (s3.parkAt h .clkm)) := by
  show execClkm a h s = _
  simp only [execClkm, issue_of_ready ready, one, elastic]
  rfl

/-- On a core of a tile the tile reserves leave, and the strand waits until it is pinned. -/
theorem clkm_tile (one : s.hart.getG a = 1) (elastic : (s.job s.hart.pid).ft = false)
    (allowed : (s.job s.hart.pid).ftOk = true) (normal : isService s.coreNo = false) : exec (.clkm a h) s =
    (if (s.tile s.tileNo).rsvFull s.hart.pid = true then s.raise .clkdeny 0
     else
       let s1 := s.modJob s.hart.pid (fun j => { j with ft := true })
       let s2 := s1.modTile s1.tileNo (fun k => k.reservePin s.hart.pid)
       let s3 := (s2.tilesOf s.hart.pid).foldl (fun (t : State) k => t.enterFtTile s.hart.pid k) s2
       if (s3.tile s3.tileNo).pinned = true then s3.done h id else .next (s3.parkAt h .clkm)) := by
  rw [clkm_one ready one elastic]
  simp only [allowed, normal]
  rfl

/-- On a service core nothing is reserved and nothing waits. -/
theorem clkm_service (one : s.hart.getG a = 1) (elastic : (s.job s.hart.pid).ft = false)
    (allowed : (s.job s.hart.pid).ftOk = true) (service : isService s.coreNo = true) : exec (.clkm a h) s =
    (let s1 := s.modJob s.hart.pid (fun j => { j with ft := true })
     ((s1.tilesOf s.hart.pid).foldl (fun (t : State) k => t.enterFtTile s.hart.pid k) s1).done h id) := by
  rw [clkm_one ready one elastic]
  simp only [allowed, service]
  rfl

theorem clkm_one_fixed (one : s.hart.getG a = 1) (fixed : (s.job s.hart.pid).ft = true) :
    exec (.clkm a h) s = s.done h id := by
  show execClkm a h s = _
  simp only [execClkm, issue_of_ready ready, one, fixed]
  rfl

theorem clkm_above (above : 1 < (s.hart.getG a).toNat) : exec (.clkm a h) s = s.raise .clkarg 0 := by
  show execClkm a h s = _
  rw [execClkm, issue_of_ready ready, if_pos]
  have := (s.hart.getG a).isLt
  simp only [fld, Nat.reduceAdd, Nat.reduceSub, pow_one]
  omega

end Clkm

/-! ## Tiles -/

/-- What the droop detector of a tile counts. -/
theorem droopDetect_tile (s : State) (t pct : Nat) : ∃ u, exec (.droopDetect t pct) s = .next u ∧
    ((s.tile t).pinned = true →
      (u.tile t).fdet = BitVec.ofNat 8 (satTo 8 ((s.tile t).fdet.toNat + 1)) ∧ (u.tile t).stretch = (s.tile t).stretch) ∧
    ((s.tile t).pinned = false → (u.tile t).stretch = BitVec.ofNat 32 (satTo 32 ((s.tile t).stretch.toNat + 1)) ∧
      (u.tile t).maxs = BitVec.ofNat 8 (Nat.max (s.tile t).maxs.toNat (Nat.min pct 30)) ∧
      (u.tile t).fdet = (s.tile t).fdet) := by
  refine ⟨_, rfl, fun pinned => ?_, fun elastic => ?_⟩
  · rw [State.tile_modTile_same, if_pos pinned]
    exact ⟨rfl, rfl⟩
  · rw [State.tile_modTile_same, if_neg (by rw [elastic]; decide)]
    exact ⟨rfl, rfl, rfl⟩

/-- How the governor moves the base frequency of a tile. -/
theorem governorAdjust_tile (s : State) (t freq : Nat) (hot : Bool) :
    ∃ u, exec (.governorAdjust t (freq, hot)) s = .next u ∧ (u.tile t).tight = hot ∧
      ((s.tile t).pinned = true → (u.tile t).freq = (s.tile t).freq) ∧
      ((s.tile t).pinned = false → 1600 ≤ freq → freq ≤ 2400 → freq % 25 = 0 → hot = false ∨ freq ≤ (s.tile t).freq.toNat →
        (u.tile t).freq = BitVec.ofNat 16 freq) ∧
      (hot = true → (s.tile t).freq.toNat < freq → (u.tile t).freq = (s.tile t).freq) := by
  refine ⟨_, rfl, ?_, fun pinned => ?_, fun elastic low high step cool => ?_, fun isHot upward => ?_⟩
  all_goals rw [State.tile_modTile_same]
  · exact if_neg (by simp [pinned])
  · exact if_pos (by rcases cool with cold | down <;> simp [*])
  · exact if_neg (by simp [isHot, upward.not_ge])

theorem sketchAdd_plat (s : State) (r : SkRec) : (s.sketchAdd r).plat = s.plat := by
  unfold State.sketchAdd
  split <;> rfl

/-- Settles O26: `clkm` case by case, and the events that pin, count, adjust and stop. -/
theorem clocks : Obligations.Clocks := by
  refine ⟨fun s a h ready => ?_, fun s t pct freq => ?_, fun s => ⟨_, rfl, rfl, rfl, ?_⟩⟩
  · refine ⟨fun zero elastic => (clkm_zero ready zero).trans (if_neg (by rw [elastic]; decide)),
      fun zero fixed => (clkm_zero ready zero).trans (if_pos fixed), fun one fixed => clkm_one_fixed ready one fixed,
      fun above => clkm_above ready above,
      fun one elastic denied => (clkm_one ready one elastic).trans (if_pos (by rw [denied]; rfl)),
      fun one elastic allowed normal => ⟨fun full => ?_, fun room => ⟨fun pinned => ?_, fun waits => ?_⟩⟩,
      fun one elastic allowed service => clkm_service ready one elastic allowed service⟩
    · exact (clkm_tile ready one elastic allowed normal).trans (if_pos full)
    · exact (clkm_tile ready one elastic allowed normal).trans ((if_neg (by rw [room]; decide)).trans (if_pos pinned))
    · exact (clkm_tile ready one elastic allowed normal).trans
        ((if_neg (by rw [room]; decide)).trans (if_neg (by rw [waits]; decide)))
  · refine ⟨fun asked => if_neg (by rw [asked]; decide), fun pinned free => ⟨_, if_pos (by rw [pinned, free]; rfl), ?_⟩,
      droopDetect_tile s t pct, governorAdjust_tile s t freq, fun tight => ?_⟩
    · rw [State.tile_modTile_same]
      exact ⟨rfl, rfl⟩
    · show execLeaveGrant t s = _
      rw [execLeaveGrant, if_pos tight]
  · show (State.note s 0x13 0 0 0).plat.msix ++ [0] = _
    rw [State.note, State.noteFrom, sketchAdd_plat]

end Sys2Proof.Proofs

namespace Sys2Proof.Proofs

/-!
System registers (15 R379, R380): the instructions that read and write them, and what each number reads and writes.
-/

open Sys2Proof.Machine Sys2Proof.Claim

/-! ## The instructions -/

section

variable {s : State} {n : Nat} {writes : Bool} {k : Result}

theorem sysreg_ready (assigned : sysAssigned n = true) (written : (writes && sysNeverWritten n) = false)
    (ready : Ready s { Need.any with priv := decide (0x800 ≤ n) || (writes && !sysUserWrites n), iss := sysIssuing n }) :
    s.sysreg n writes k = k := by
  rw [State.sysreg, assigned, written]
  exact issue_of_ready ready k

theorem sysreg_unassigned (unassigned : sysAssigned n = false) : s.sysreg n writes k = s.raise .illop 0 := by
  rw [State.sysreg, unassigned]
  rfl

/-- At user level a register that needs the executive's level raises PRIV. -/
theorem sysreg_user (assigned : sysAssigned n = true) (user : s.hart.status.exec = false)
    (closed : (decide (0x800 ≤ n) || (writes && !sysUserWrites n)) = true) : s.sysreg n writes k = s.raise .priv 0 := by
  rw [State.sysreg, assigned, if_neg (by decide)]
  split
  · rfl
  · refine issue_fault ?_ k
    simp [State.needFault, Need.any, user, closed]

variable {rw one : Word} {srw : Bool} {h : BitVec 2}

/-- A write form after its checks, of a register that has an effect in the slot only. -/
theorem sysWrite_completes (assigned : sysAssigned n = true) (written : sysNeverWritten n = false) (hold : n ≠ 0x809)
    (fatal : n ≠ 0x80A) (ready : Ready s { Need.any with priv := decide (0x800 ≤ n) || !sysUserWrites n, iss := sysIssuing n })
    (parks : sysParks n = false) (clr : n ≠ 0x824 ∨ bitOf one 2 = false) :
    s.sysWrite n rw one srw h = (s.sysPut n rw one srw).done h id := by
  refine (sysreg_ready assigned (by rw [written]; rfl) ready).trans ((if_neg hold).trans ((if_neg fatal).trans ?_))
  refine (if_neg (by rw [parks]; decide)).trans (if_neg ?_)
  rcases clr with other | clear
  · simp [other]
  · simp [clear]

theorem sysWrite_parks (assigned : sysAssigned n = true) (written : sysNeverWritten n = false) (hold : n ≠ 0x809)
    (fatal : n ≠ 0x80A) (ready : Ready s { Need.any with priv := decide (0x800 ≤ n) || !sysUserWrites n, iss := sysIssuing n })
    (parks : sysParks n = true) : s.sysWrite n rw one srw h = .next ((s.sysPut n rw one srw).parkAt h .sysreg) :=
  (sysreg_ready assigned (by rw [written]; rfl) ready).trans ((if_neg hold).trans ((if_neg fatal).trans (if_pos parks)))

end

/-- `srr` and the write forms (15 R380). -/
theorem systemRegisterInstructions : SystemRegisterInstructions := by
  refine ⟨fun s d sr h assigned ready => ⟨fun other => ?_, fun event => ?_⟩,
    fun s a sr h => ?_,
    fun s n occ park => ⟨fun read => ?_, fun awaited => ?_⟩,
    fun s d a sr h assigned user => ⟨fun executive => ?_, fun closed => ?_⟩, fun s d a sr h unassigned => ?_⟩
  · exact (sysreg_ready assigned rfl (by simpa using ready)).trans (if_neg other)
  · exact (sysreg_ready assigned rfl (by simpa using ready)).trans (if_pos event)
  · intro n ga assigned written hold fatal ready old
    exact ⟨fun parks => ⟨fun clr => sysWrite_completes assigned written hold fatal ready parks clr,
      sysWrite_completes assigned written hold fatal ready parks (.inr rfl),
      sysWrite_completes assigned written hold fatal ready parks (.inr rfl)⟩,
      fun parks => sysWrite_parks assigned written hold fatal ready parks⟩
  · exact if_pos (by rw [read, occ, park]; rfl)
  · exact if_neg (by rw [awaited]; simp)
  · exact sysreg_user assigned user (by simp [executive])
  · have closes : (decide (0x800 ≤ sr.toNat) || (true && !sysUserWrites sr.toNat)) = true := by simp [closed]
    exact ⟨sysreg_user assigned user closes, sysreg_user assigned user closes, sysreg_user assigned user closes⟩
  · exact ⟨sysreg_unassigned unassigned, sysreg_unassigned unassigned, sysreg_unassigned unassigned, sysreg_unassigned unassigned⟩

/-! ## The map -/

/-- The registers of a core's counters and of virtual time, by their number in the group. -/
theorem sysRead_groups (s : State) :
    (∀ k, k < 5 → s.sysRead (0x020 + k) = s.vtReg k ∧ s.sysRead (0x030 + k) = (s.core s.coreNo).slc[k]?.getD 0) ∧
    (∀ k, k < 9 → s.sysRead (0x035 + k) = (s.core s.coreNo).rdyhWord k) := by
  refine ⟨fun k hk => ?_, fun k hk => ?_⟩
  · interval_cases k <;> simp [State.sysRead, State.sysReadUser]
  · interval_cases k <;> simp [State.sysRead, State.sysReadUser]

theorem sysRead_executive_groups (s : State) : (∀ k, k < 4 → s.sysRead (0x805 + k) = s.hart.xtmp[k]?.getD 0) ∧
    (∀ k, k < 3 → s.sysRead (0x811 + k) = s.hart.lc[k]?.getD 0 ∧ s.sysRead (0x814 + k) = (s.hart.loopAt k).startWord ∧
      s.sysRead (0x817 + k) = (s.hart.loopAt k).fin) := by
  refine ⟨fun k hk => ?_, fun k hk => ?_⟩
  · interval_cases k <;> simp [State.sysRead, State.sysReadExec]
  · interval_cases k <;> simp [State.sysRead, State.sysReadExec]

/-- A register of slot scope without writable fields ignores a write. -/
theorem sysPut_readOnly (s : State) (v one : Word) (b : Bool) {n : Nat} (low : 0x008 ≤ n) (high : n ≤ 0x015) (other : n ≠ 0x00B) :
    s.sysPut n v one b = s.modHart id := by
  interval_cases n <;> first | exact absurd rfl other | simp [State.sysPut, Slot.sysPut, State.modHart]

theorem sysPut_groups (s : State) (v one : Word) (b : Bool) :
    (∀ k, k < 4 → s.sysPut (0x805 + k) v one b = s.modHart (fun x => { x with xtmp := x.xtmp.setIfInBounds k v })) ∧
    (∀ k, k < 3 →
      s.sysPut (0x811 + k) v one b = s.modHart (fun x => { x with lc := x.lc.setIfInBounds k v }) ∧
      s.sysPut (0x814 + k) v one b = s.modHart (fun x => x.putStart k v) ∧
      s.sysPut (0x817 + k) v one b = s.modHart (fun x => x.putEnd k v)) := by
  refine ⟨fun k hk => ?_, fun k hk => ?_⟩
  · interval_cases k <;> simp [State.sysPut, Slot.sysPut]
  · interval_cases k <;> simp [State.sysPut, Slot.sysPut]

theorem sysRead_fabid (s : State) : s.sysRead 0x00D = s.fabid := by
  simp [State.sysRead, State.sysReadUser]

/-- What each number reads and writes (15 R379). -/
theorem systemRegisterMap : SystemRegisterMap := by
  refine ⟨fun s => ?_, fun s v one b => ?_⟩
  · obtain ⟨vt, rdyh⟩ := sysRead_groups s
    obtain ⟨xtmp, loops⟩ := sysRead_executive_groups s
    exact ⟨rfl, rfl, rfl, rfl, rfl, rfl, rfl, rfl, rfl, rfl, rfl, rfl, rfl, sysRead_fabid s, rfl, rfl, rfl, rfl, rfl, rfl, rfl, rfl, vt, rdyh,
      rfl, rfl, rfl, rfl, rfl, xtmp, rfl, loops, rfl, rfl, rfl, rfl, rfl, rfl⟩
  · obtain ⟨xtmp, loops⟩ := sysPut_groups s v one b
    exact ⟨rfl, rfl, rfl, rfl, rfl, rfl, rfl, rfl, rfl, xtmp, rfl, loops,
      fun n low high other => sysPut_readOnly s v one b low high other, rfl, rfl, rfl, rfl, rfl, rfl, rfl, rfl, rfl, rfl⟩

/-- Settles O58: the instructions by their checks, and the map number by number. -/
theorem systemRegisters : Obligations.SystemRegisters := ⟨systemRegisterInstructions, systemRegisterMap⟩

end Sys2Proof.Proofs

namespace Sys2Proof.Proofs

/-!
Copy-engine commands (04 R107 to R109): what `cp` and `cpstat` do, and how the engine begins and ends a command.
-/

open Sys2Proof.Machine Sys2Proof.Claim

/-! ## The instructions -/

/-- The command that `cp` makes of its descriptor, before it is routed to an engine. -/
def copyCommand (s : State) (ga gb : Nat) : CopyCmd :=
  let w := bytesWords (s.localRead ga 32) 4
  { strand := s.hart.sid, pid := s.hart.pid, exec := s.hart.status.exec, isLp := s.hart.record.opt,
    core := s.coreNo, tile := s.tileNo, src := nthW w 0, dst := nthW w 1, word2 := nthW w 2, word3 := nthW w 3,
    stat := gb, bad := false, running := false, cancel := false, asked := false, failed := none, moved := none }

/-- The command as its engine gets it. -/
def routed (own : Nat) (c : CopyCmd) : CopyCmd := { c with tile := (c.route own).1, bad := (c.route own).2 }

/-- Neither side in scratchpad: the own tile's engine gets the command. -/
theorem route_own {c : CopyCmd} {own : Nat} (src : c.srcSp = false) (dst : c.dstSp = false) : (c.route own).1 = own := by
  rw [CopyCmd.route, src, dst]

theorem route_src {c : CopyCmd} {own : Nat} {l : SpLoc} (src : c.srcSp = true) (dst : c.dstSp = false)
    (loc : spLoc c.src = some l) : (c.route own).1 = l.tile := by
  rw [CopyCmd.route, src, dst]
  simp only [sideTile, loc, Option.map_some]

theorem route_dst {c : CopyCmd} {own : Nat} {l : SpLoc} (src : c.srcSp = false) (dst : c.dstSp = true)
    (loc : spLoc c.dst = some l) : (c.route own).1 = l.tile := by
  rw [CopyCmd.route, src, dst]
  simp only [sideTile, loc, Option.map_some]

/-- The command of an aligned descriptor below 2^18 joins its engine's queue where there is room. -/
theorem cp_of_room {s : State} {a b : BitVec 5} {h : BitVec 2} (ready : Ready s Need.access)
    (gaLow : (s.hart.getG a).toNat < 0x40000) (gbLow : (s.hart.getG b).toNat < 0x40000)
    (gaAligned : (s.hart.getG a).toNat % 32 = 0) (gbAligned : (s.hart.getG b).toNat % 16 = 0) {c : CopyCmd} {s1 : State}
    (hc : c = routed s.tileNo (copyCommand s (s.hart.getG a).toNat (s.hart.getG b).toNat))
    (hs1 : s1 = (s.beforeAccess true).releaseActions s.hid (if c.tile = s.tileNo then 1 else 2))
    (room : (s1.tile c.tile).copies.length < 64) : exec (.cp a b h) s = (s1.copyAccept c).done h id := by
  refine (issue_of_ready ready _).trans ?_
  have legal : firstFault [(.lsrange, s.hart.getG a, decide (0x40000 ≤ (s.hart.getG a).toNat)),
      (.lsrange, s.hart.getG b, decide (0x40000 ≤ (s.hart.getG b).toNat)),
      (.maln, s.hart.getG a, decide ((s.hart.getG a).toNat % 32 ≠ 0)),
      (.maln, s.hart.getG b, decide ((s.hart.getG b).toNat % 16 ≠ 0))] = none := by
    simp [firstFault, gaLow.not_ge, gbLow.not_ge, gaAligned, gbAligned]
  rw [legal]
  subst hc hs1
  exact if_pos room

/-- `cp` and `cpstat` (04 R107, R108). -/
theorem copyInstructions : CopyInstructions := by
  intro s d a b h ready ga gb w
  refine ⟨fun gaLow gbLow gaAligned gbAligned => ?_, ?_⟩
  · let c := routed s.tileNo (copyCommand s ga gb)
    exact ⟨c, rfl, rfl, rfl, rfl, rfl, rfl, rfl, rfl, rfl, rfl, route_own, fun l => route_src, fun l => route_dst,
      cp_of_room ready gaLow gbLow gaAligned gbAligned rfl rfl⟩
  · refine (issue_of_ready ready _).trans (congrArg (fun f => State.done (s.beforeAccess false) h f) (funext fun x => ?_))
    refine congrArg (fun w => Slot.setG { x with cpFail := 0 } d w) (congrArg (BitVec.ofNat 64) ?_)
    simp only [List.foldl_cons, List.foldl_nil]
    omega

/-! ## The engine -/

theorem copyEnd_success (s : State) (c : CopyCmd) (t : Nat) (here : c.tile = t) :
    s.copyEnd c { code := 0, cause := 0, addr := 0 } =
      (((((s.copyStatus c { code := 0, cause := 0, addr := 0 }).flipOwned (c.named false) 1 c.after).flipOwned
        (c.named true) 1 0).modStrand c.strand (fun x => { x with cpOut := x.cpOut - 1 })).copyLeave t) := by
  subst here
  have count : (fun x : Slot =>
      { x with cpOut := x.cpOut - 1, cpFail := if x.cpFail = 0 then BitVec.ofNat 8 0 else x.cpFail }) =
      fun x => { x with cpOut := x.cpOut - 1 } := by
    funext x
    by_cases zero : x.cpFail = 0
    · rw [if_pos zero, ← show x.cpFail = BitVec.ofNat 8 0 from zero]
    · rw [if_neg zero]
  rw [State.copyEnd, if_pos rfl, count]

theorem copyEnd_failure (s : State) {c : CopyCmd} {e : CopyStop} (t : Nat) (here : c.tile = t) (failed : e.code ≠ 0) :
    s.copyEnd c e = (((((s.copyStatus c e).flipOwned (c.named true) 1 0).flipOwned (c.named false) 1 0).modStrand c.strand
      (fun x => { x with cpOut := x.cpOut - 1, cpFail := if x.cpFail = 0 then BitVec.ofNat 8 e.code else x.cpFail })).copyLeave
      t) := by
  subst here
  rw [State.copyEnd, if_neg failed]

section

variable {s : State} {t : Nat} {c : CopyCmd} {r : List CopyCmd}

/-- Why a job of the engine stopped, code 0 where it was done. -/
def stopOf : Except CopyStop Unit → CopyStop
  | .ok _ => { code := 0, cause := 0, addr := 0 }
  | .error e => e

/-- A running command that waits for nothing moves its data and ends. -/
theorem copyComplete_ends (queue : (s.tile t).copies = c :: r) (running : c.running = true) (free : s.copyHeld c = false)
    (fresh : c.moved = none) (answered : (s.copyAsk c).engineAwaits (copyId t) = false) {v : Except CopyStop Unit} {s1 : State}
    (moved : (s.copyAsk c).copyMove c = (v, s1)) (done : (s1.engineForget (copyId t)).engineAwaits (copyId t) = false) :
    exec (.copyComplete t) s = .next ((s1.engineForget (copyId t)).copyEnd c
      (stopOf v)) := by
  show execCopyComplete t s = _
  simp only [execCopyComplete, queue, running, free, answered, fresh, moved, done]
  cases v <;> rfl

theorem copyComplete_awaits (queue : (s.tile t).copies = c :: r) (running : c.running = true) (free : s.copyHeld c = false)
    (awaits : (s.copyAsk c).engineAwaits (copyId t) = true) : exec (.copyComplete t) s = .next (s.copyAsk c) := by
  show execCopyComplete t s = _
  simp only [execCopyComplete, queue, running, free, awaits]
  rfl

theorem copyStart_begins (queue : (s.tile t).copies = c :: r) (waiting : c.running = false) : exec (.copyStart t) s =
    .next (s.modTile t (fun k => { k with copies := { c with running := true, bad := c.bad || c.fieldsBad || c.sidesBad } :: r })) := by
  show execCopyStart t s = _
  simp only [execCopyStart, queue, waiting]
  rfl

/-- What stops a command before any byte moves leaves the device as it is. -/
theorem copyMove_of_stopped {e : CopyStop} (stopped : c.stopped = some e) : s.copyMove c = (.error e, s) := by
  rw [State.copyMove, stopped]

end

/-- The engine's events (04 R108; 05 R126). -/
theorem copyEngine : CopyEngine := by
  intro s t c r queue here
  refine ⟨fun waiting => copyStart_begins queue waiting, fun running free fresh => ?_⟩
  refine ⟨fun awaits => copyComplete_awaits queue running free awaits, fun v s1 answered moved => ?_, fun cancel => ?_,
    fun cancel bad => ?_, fun cancel bad lp dst => ?_⟩
  · intro s2 done
    have ends := copyComplete_ends queue running free fresh answered moved done
    refine ⟨fun ok => ?_, fun e failed error => ?_⟩
    · subst ok
      exact ends.trans (congrArg Host.Outcome.next (copyEnd_success _ c t here))
    · subst error
      exact ends.trans (congrArg Host.Outcome.next (copyEnd_failure _ t here failed))
  · exact copyMove_of_stopped (if_pos cancel)
  · exact copyMove_of_stopped ((if_neg (by rw [cancel]; decide)).trans (if_pos bad))
  · exact copyMove_of_stopped ((if_neg (by rw [cancel]; decide)).trans
      ((if_neg (by rw [bad]; decide)).trans (if_pos (by rw [lp, dst]; rfl))))

/-- Settles O51: the command and its route at issue, and the engine's events case by case. -/
theorem copies : Obligations.Copies := ⟨copyInstructions, copyEngine⟩

end Sys2Proof.Proofs

namespace Sys2Proof.Proofs

/-!
Optical commands at issue (09 R219 to R224, R230; 10 R243, R244, R262 to R264, R269), and what accepting one does.
-/

open Sys2Proof.Machine Sys2Proof.Claim

variable {s : State} {i : Instr} {need : Need} {h : BitVec 2} {c : OptCmd}

/-- An instruction that issues an optical command queues it where there is room. -/
theorem queues_of_issue (ready : Ready s need) {k : Result} (meaning : exec i s = s.issue need k) (legal : k = s.optIssue h c) :
    Queues s i h c := fun room =>
  (meaning.trans (issue_of_ready ready k)).trans (legal.trans (if_pos room))

/-! ## Floor faults -/

theorem floorThen_none {k : Result} (none : s.hart.floorPend = none) : s.floorThen k = k := by
  rw [State.floorThen, none]

theorem floorThen_some {k : Result} {tk : BitVec 32} {n : Nat} (pending : s.hart.floorPend = some (tk, n)) :
    s.floorThen k = .next ((s.modHart (fun y => { y with floorPend := none })).raiseFault s.hid
      { cause := Cause.ebcflr.code, xpc := s.hart.pc, xval := tk.setWidth 64, late := true, final := false, hno := some n }) := by
  rw [State.floorThen, pending]
  rfl

/-! ## The commands -/

/-- A pass of an aligned descriptor in local store is queued with what the descriptor says. -/
theorem passCmd_queues {kind : OptKind} {ack : Option (BitVec 5)} {a : BitVec 5} (ready : Ready s Need.command)
    (meaning : exec i s = s.passCmd kind ack a h) (aligned : (s.hart.getG a).toNat % 16 = 0)
    (low : (s.hart.getG a).toNat ≤ 0x3FFF0) (calm : s.hart.floorPend = none) :
    let w := bytesWords (memBytes s.mem (localBase s.coreNo + (s.hart.getG a).toNat) 16) 2
    Queues s i h { s.optCmd kind ack with pal := BitVec.ofNat 2 (fld (nthW w 0) 51 50), desc0 := nthW w 0, desc1 := nthW w 1 } :=
  queues_of_issue ready meaning ((floorThen_none calm).trans ((if_neg (not_not.mpr aligned)).trans (if_neg low.not_gt)))

theorem imageCmd_queues {kind : OptKind} {ack : Option (BitVec 5)} {a b : BitVec 5} (ready : Ready s Need.palette)
    (meaning : exec i s = s.imageCmd kind ack a b h) (palette : (s.hart.getG b).toNat < 4)
    (aligned : (s.hart.getG a).toNat % 256 = 0) :
    Queues s i h { s.optCmd kind ack with pal := (s.hart.getG b).setWidth 2, addr := s.hart.getG a } :=
  queues_of_issue ready meaning ((if_neg palette.not_ge).trans (if_neg (not_not.mpr aligned)))

theorem selCmd_queues {ack : Option (BitVec 5)} {a : BitVec 5} (ready : Ready s Need.palette)
    (meaning : exec i s = s.selCmd ack a h) (palette : (s.hart.getG a).toNat < 4) :
    Queues s i h { s.optCmd .psel ack with pal := (s.hart.getG a).setWidth 2 } :=
  queues_of_issue ready meaning (if_neg palette.not_ge)

theorem decompCmd_queues {ack : Option (BitVec 5)} {a b : BitVec 5} (ready : Ready s Need.palette)
    (meaning : exec i s = s.decompCmd ack a b h) (high : fld (s.hart.getG b) 63 15 = 0) (mid : fld (s.hart.getG b) 7 2 = 0)
    (least : 1 ≤ fld (s.hart.getG b) 14 8) (most : fld (s.hart.getG b) 14 8 ≤ 64)
    (aligned : (s.hart.getG a).toNat % 16384 = 0) (own : (s.hart.getG a).toNat / 2 ^ 24 = s.tileNo) :
    Queues s i h { s.optCmd .dcmp ack with
      pal := (s.hart.getG b).setWidth 2, addr := s.hart.getG a, n := fld (s.hart.getG b) 14 8 } := by
  refine queues_of_issue ready meaning ((if_neg ?_).trans ((if_neg (not_not.mpr aligned)).trans (if_neg (not_not.mpr own))))
  simp [high, mid, most.not_gt]
  omega

/-! ## Floor, summary and ticket -/

theorem pflr_completes {a : BitVec 5} (ready : Ready s { Need.any with iss := true }) (calm : s.hart.floorPend = none)
    (ebc : (s.hart.getG a).toNat % 2 ^ 8 < 2 ^ 7) (legal : (s.hart.getG a).toNat < 2 ^ 9) :
    Completes s (.pflr a h) 4 h (fun y => { y with floor := (s.hart.getG a).setWidth 7, emulate := (s.hart.getG a).getLsbD 8 }) := by
  refine ((issue_of_ready ready _).trans (floorThen_none calm)).trans (if_neg ?_)
  have bit : bitOf (s.hart.getG a) 7 = false := by
    rw [bitOf, ← BitVec.testBit_toNat, Nat.testBit_eq_decide_div_mod_eq]
    exact decide_eq_false (by omega)
  have small := (s.hart.getG a).isLt
  have field : fld (s.hart.getG a) 63 9 = 0 := by
    rw [fld, Nat.div_eq_of_lt legal, Nat.zero_mod]
  simp [bit, field]

theorem pebc_eq {d : BitVec 5} (ready : Ready s Need.command) (calm : s.hart.floorPend = none) : exec (.pebc d h) s =
    if (s.beforeAccess false).hart.passOut = 0 then (s.beforeAccess false).done h (fun x => x.takeSummary d)
    else .next ((s.beforeAccess false).parkAt h (.pebc d)) :=
  (issue_of_ready ready _).trans (floorThen_none calm)

theorem takeSummary_eq (d : BitVec 5) (y : Slot) : y.takeSummary d =
    ({ y with psum := { npass := 0, status := 0, ebc := 127 } } : Slot).setG d
      (BitVec.ofNat 64 (y.psum.ebc.toNat + y.psum.status.toNat * 2 ^ 8 + y.psum.npass.toNat * 2 ^ 16)) := by
  refine congrArg (Slot.setG _ d) (congrArg (BitVec.ofNat 64) ?_)
  simp only [List.foldl_cons, List.foldl_nil]
  omega

theorem ptkt_completes {d : BitVec 5} (ready : Ready s Need.command) (calm : s.hart.floorPend = none) {s1 : State}
    (before : s1 = s.beforeAccess false) :
    CompletesFrom s (.ptkt d h) s1 4 h (fun y => y.setG d (BitVec.ofNat 64 ((s1.tile s1.tileNo).opt.pcnt.toNat +
      (s1.hart.ticket.getD (s1.tile s1.tileNo).opt.pcnt).toNat * 2 ^ 32))) := by
  subst before
  refine ((issue_of_ready ready _).trans (floorThen_none calm)).trans (congrArg (State.doneG _ h d) (congrArg (BitVec.ofNat 64) ?_))
  simp only [List.foldl_cons, List.foldl_nil]
  omega

/-- Any pass instruction with a floor fault pending raises it for the handler that issued the pass. -/
theorem floorFault {k : Result} {tk : BitVec 32} {n : Nat} (ready : Ready s need)
    (meaning : exec i s = s.issue need (s.floorThen k)) (pending : s.hart.floorPend = some (tk, n)) :
    exec i s = .next ((s.modHart (fun y => { y with floorPend := none })).raiseFault s.hid
      { cause := Cause.ebcflr.code, xpc := s.hart.pc, xval := tk.setWidth 64, late := true, final := false, hno := some n }) :=
  (meaning.trans (issue_of_ready ready _)).trans (floorThen_some pending)

/-! ## Acceptance -/

/-- Accepting a command puts it at the end of its tile's queue, a pass with the next ticket. -/
theorem optAccept_opt (s : State) (c : OptCmd) :
    ((s.optAccept c).tile c.tile).opt.queue =
      (s.tile c.tile).opt.queue ++ [if c.kind.isPass then { c with ticket := (s.tile c.tile).opt.acc + 1 } else c] ∧
    ((s.optAccept c).tile c.tile).opt.acc =
      if c.kind.isPass then (s.tile c.tile).opt.acc + 1 else (s.tile c.tile).opt.acc := by
  unfold State.optAccept
  simp only
  split
  · rw [State.tile_modOpt_same]
    exact ⟨rfl, rfl⟩
  · rw [tile_congr (modStrand_tiles _ _ _), State.tile_modOpt_same]
    exact ⟨rfl, rfl⟩

/-- Settles O18: each command through the queue of its tile, and the three instructions that act at once. -/
theorem opticalInstructions : Obligations.OpticalInstructions := by
  refine ⟨fun s d a b h => ?_, fun s c => optAccept_opt s c⟩
  intro x ga gb
  refine ⟨fun ready aligned low calm => ?_, fun ready => ⟨fun palette aligned => ?_, fun palette => ?_, ?_⟩,
    fun ready calm ebc legal => pflr_completes ready calm ebc legal, fun ready calm => ?_, fun tk n ready pending i hi => ?_⟩
  · exact ⟨passCmd_queues ready rfl aligned low calm, passCmd_queues ready rfl aligned low calm,
      passCmd_queues ready rfl aligned low calm, passCmd_queues ready rfl aligned low calm⟩
  · exact ⟨imageCmd_queues ready rfl palette aligned, imageCmd_queues ready rfl palette aligned,
      imageCmd_queues ready rfl palette aligned, imageCmd_queues ready rfl palette aligned⟩
  · exact ⟨selCmd_queues ready rfl palette, selCmd_queues ready rfl palette⟩
  · intro high mid least most aligned own
    exact ⟨decompCmd_queues ready rfl high mid least most aligned own, decompCmd_queues ready rfl high mid least most aligned own⟩
  · intro s1
    refine ⟨fun out => (pebc_eq ready calm).trans (if_neg out), fun none => ?_, ptkt_completes ready calm rfl⟩
    exact (pebc_eq ready calm).trans ((if_pos none).trans (congrArg (State.done s1 h) (funext (takeSummary_eq d))))
  · have issuing : Ready s { Need.any with iss := true } := by
      obtain ⟨regs, priv, iss, opt, hint, mem⟩ := ready
      exact ⟨regs, priv, iss, opt, hint, fun e => absurd e (by decide)⟩
    simp only [List.mem_cons, List.not_mem_nil, or_false] at hi
    rcases hi with rfl | rfl | rfl | rfl | rfl | rfl | rfl
    · exact floorFault ready rfl pending
    · exact floorFault ready rfl pending
    · exact floorFault ready rfl pending
    · exact floorFault ready rfl pending
    · exact floorFault ready rfl pending
    · exact floorFault issuing rfl pending
    · exact floorFault ready rfl pending

end Sys2Proof.Proofs

namespace Sys2Proof.Proofs

/-!
The exact matrix unit (11 R272 to R281) and the leave that the governor grants (15 R399).
-/

open Sys2Proof.Machine Sys2Proof.Claim

/-! ## The instructions -/

/-- The command that an `xmm` instruction makes of its descriptor. -/
def xmmCommand (s : State) (strict : Bool) (ack : Option (BitVec 5)) (ga : Nat) : XmmCmd :=
  let w := bytesWords (s.localRead ga 32) 4
  { strand := s.hart.sid, pid := s.hart.pid, ack := ack, strict := strict, core := s.coreNo, d0 := nthW w 0,
    d1 := nthW w 1, d2 := nthW w 2, d3 := nthW w 3, running := false, leave := false, cancel := false, status := 0 }

theorem xmmCmd_of_room {s : State} {i : Instr} {strict : Bool} {ack : Option (BitVec 5)} {a : BitVec 5} {h : BitVec 2}
    (ready : Ready s Need.command) (meaning : exec i s = s.xmmCmd strict ack a h)
    (aligned : (s.hart.getG a).toNat % 32 = 0) (low : (s.hart.getG a).toNat ≤ 0x3FFE0) {s1 : State}
    (hs1 : s1 = (s.beforeAccess true).releaseActions s.hid 1) (room : (s1.tile s.tileNo).xmms.length < 16) :
    exec i s = (s1.xmmAccept (xmmCommand s strict ack (s.hart.getG a).toNat)).done h id := by
  subst hs1
  exact (meaning.trans (issue_of_ready ready _)).trans
    ((if_neg (not_not.mpr aligned)).trans ((if_neg low.not_gt).trans (if_pos room)))

theorem xmmAccept_eq (s : State) (c : XmmCmd) : s.xmmAccept c =
    (s.modTile c.tile (fun t => { t with xmms := t.xmms ++ [c] })).modStrand c.strand (fun x =>
      { x with xkeep := c.keep, xmmOut := x.xmmOut + 1, acks := x.acks ++ c.ack.toList }) := by
  refine congrArg (State.modStrand _ c.strand) (funext fun x => ?_)
  cases c.ack with
  | none => simp
  | some d => rfl

/-- The four forms of `xmm` (11 R272). -/
theorem matrixInstructions : MatrixInstructions := by
  intro s d a h ready ga aligned low w s1 room X
  have form (i : Instr) (strict : Bool) (ack : Option (BitVec 5)) (meaning : exec i s = s.xmmCmd strict ack a h) :
      X i strict ack :=
    ⟨xmmCommand s strict ack ga, rfl, rfl, rfl, rfl, rfl, rfl, rfl, rfl, rfl, rfl, rfl,
      (xmmCmd_of_room ready meaning aligned low rfl room).trans (congrArg (fun u => State.done u h id) (xmmAccept_eq _ _))⟩
  exact ⟨form _ _ _ rfl, form _ _ _ rfl, form _ _ _ rfl, form _ _ _ rfl⟩

/-! ## The unit -/

theorem alSet_alSet {α : Type} (k : Nat) (v w : α) : ∀ l : List (Nat × α), alSet (alSet l k v) k w = alSet l k w
  | [] => by simp [alSet]
  | (n, u) :: r => by
    unfold alSet
    rcases Nat.lt_trichotomy k n with less | same | more
    · simp [less, alSet]
    · subst same
      simp [alSet]
    · have other : n ≠ k := Nat.ne_of_lt more
      simp [more.not_gt, other, alSet, alSet_alSet k v w r]

theorem modTile_modTile (s : State) (n : Nat) (f g : Tile → Tile) :
    (s.modTile n f).modTile n g = s.modTile n (fun t => g (f t)) := by
  have read : (s.modTile n f).tile n = f (s.tile n) := State.tile_modTile_same s n f
  rw [State.modTile, read, State.modTile, State.modTile, State.setTile, State.setTile, State.setTile, alSet_alSet]

section

variable {s : State} {t : Nat} {c : XmmCmd} {r : List XmmCmd}

/-- The unit's oldest command starts with the status of its checks. -/
theorem xmmStart_eq (queue : (s.tile t).xmms = c :: r) (waiting : c.running = false) (free : (s.tile t).opt.emuWaits = false)
    (on : s.engineOn t = true) : exec (.xmmStart t) s =
    (let st := s.xmmStatus c
     let slabs := if st = 0 then s.xmmSlabs c else (s.xmmSlabs c).filter (fun o => decide (s.ownerGet o = 3))
     let ask := if st = 0 && decide (8 ≤ c.pairs) then s.askLeave t c.pid 1 else (true, s)
     .next (ask.2.modTile t (fun x =>
       { x with xmms := { c with running := true, status := BitVec.ofNat 8 st, leave := !ask.1, slabs := slabs } :: r }))) := by
  show execXmmStart t s = _
  simp only [execXmmStart, queue, waiting, free, on]
  rfl

theorem xmmStart_failed (queue : (s.tile t).xmms = c :: r) (waiting : c.running = false)
    (free : (s.tile t).opt.emuWaits = false) (on : s.engineOn t = true) (failed : s.xmmStatus c ≠ 0) :
    exec (.xmmStart t) s = .next (s.modTile t (fun x =>
      { x with xmms := { c with running := true, status := BitVec.ofNat 8 (s.xmmStatus c), leave := false,
                                slabs := (s.xmmSlabs c).filter (fun o => decide (s.ownerGet o = 3)) } :: r })) := by
  rw [xmmStart_eq queue waiting free on]
  simp [failed]

theorem xmmStart_small (queue : (s.tile t).xmms = c :: r) (waiting : c.running = false)
    (free : (s.tile t).opt.emuWaits = false) (on : s.engineOn t = true) (passed : s.xmmStatus c = 0) (small : c.pairs < 8) :
    exec (.xmmStart t) s = .next (s.modTile t (fun x =>
      { x with xmms := { c with running := true, status := 0, leave := false, slabs := s.xmmSlabs c } :: r })) := by
  rw [xmmStart_eq queue waiting free on]
  simp [passed, small.not_ge]

theorem xmmStart_asks (queue : (s.tile t).xmms = c :: r) (waiting : c.running = false)
    (free : (s.tile t).opt.emuWaits = false) (on : s.engineOn t = true) (passed : s.xmmStatus c = 0) (large : 8 ≤ c.pairs)
    (elastic : (s.job c.pid).ft = false) :
    exec (.xmmStart t) s = .next (s.modTile t (fun x =>
      { x with leaveQ := x.leaveQ ++ [1],
               xmms := { c with running := true, status := 0, leave := true, slabs := s.xmmSlabs c } :: r })) := by
  have ask : s.askLeave t c.pid 1 = (false, s.modTile t (fun x => { x with leaveQ := x.leaveQ ++ [1] })) :=
    if_neg (by simp [elastic])
  rw [xmmStart_eq queue waiting free on]
  simp [passed, large, ask, modTile_modTile]

theorem xmmComplete_writes (queue : (s.tile t).xmms = c :: r) (running : c.running = true) (granted : c.leave = false)
    (passed : c.status = 0) (live : c.cancel = false) (before : c.writing = false) :
    exec (.xmmComplete t) s = .next (s.xmmWrite t c) := by
  show execXmmComplete t s = _
  simp only [execXmmComplete, queue, running, granted, passed, live, before]
  rfl

theorem xmmComplete_ends (queue : (s.tile t).xmms = c :: r) (running : c.running = true) (granted : c.leave = false)
    (ends : c.status ≠ 0 ∨ c.cancel = true ∨ c.writing = true) (noAck : c.ack = none) {st : Nat} {s1 : State}
    (hst : st = if c.status = 0 ∧ c.cancel = true then 7 else c.status.toNat)
    (hs1 : s1 = s.xmmReport c c.prods c.flags st c.npois) : exec (.xmmComplete t) s =
      .next (((if st = 0 ∧ c.keep = true then s1 else s1.flipOwned c.slabs 3 0).modStrand c.strand
        (fun x => { x with xmmOut := x.xmmOut - 1 })).xmmLeave t) := by
  have finished : (decide (c.status = 0) && !c.cancel && !c.writing) = false := by
    rcases ends with failed | cancelled | writing
    · simp [show ¬ c.status = 0#8 from failed]
    · simp [cancelled]
    · simp [writing]
  subst hs1 hst
  show execXmmComplete t s = _
  simp only [execXmmComplete, queue, running, granted, finished, noAck, Bool.and_eq_true, decide_eq_true_eq]
  rfl

end

/-! ## Leave -/

theorem leaveGrant_tight {s : State} {t : Nat} (tight : (s.tile t).tight = true) : exec (.leaveGrant t) s = .next s := by
  show execLeaveGrant t s = _
  rw [execLeaveGrant, if_pos tight]

/-- What a grant of kind `k` does once it is counted. -/
def leaveOutcome (s1 : State) (t k : Nat) : Result :=
  if k = 0 then
    match ((s1.tile t).opt.runs.find? (fun p => p.leave)).map (fun p => p.cmd.ticket) with
    | some tk => .next (s1.modOpt t (fun o => o.modRun tk (fun p => { p with leave := false })))
    | none => .next s1
  else if k = 1 then
    .next (s1.modTile t (fun x =>
      { x with xmms := match x.xmms with | c :: l => { c with leave := false } :: l | [] => [] }))
  else
    match s1.colls.find? (fun e => decide (e.2.tile = t) && decide (e.2.granted < e.2.asked)) with
    | some (cid, c) => .next ((s1.setColl cid { c with granted := c.granted + 1 }).collGo cid)
    | none => .next s1

/-- The governor grants the oldest request, which counts. -/
theorem leaveGrant_first {s : State} {t k : Nat} {q : List Nat} (queue : (s.tile t).leaveQ = k :: q)
    (cool : (s.tile t).tight = false) :
    ∃ u, exec (.leaveGrant t) s = .next u ∧ (k ≤ 1 → (u.tile t).leaveQ = q ∧
      (u.tile t).grants.toNat = Nat.min ((s.tile t).grants.toNat + 1) (2 ^ 32 - 1)) ∧
      (∀ c r, k = 1 → (s.tile t).xmms = c :: r → (u.tile t).xmms = { c with leave := false } :: r) := by
  obtain ⟨s1, hs1⟩ : ∃ s1, s1 = (s.modTile t (fun x => { x with leaveQ := q })).leaveGranted t := ⟨_, rfl⟩
  have tile : s1.tile t = { s.tile t with
      leaveQ := q, grants := BitVec.ofNat 32 (satTo 32 ((s.tile t).grants.toNat + 1)) } := by
    rw [hs1, State.leaveGranted, State.tile_modTile_same, State.tile_modTile_same]
  have counted : (s1.tile t).leaveQ = q ∧ (s1.tile t).grants.toNat = Nat.min ((s.tile t).grants.toNat + 1) (2 ^ 32 - 1) := by
    rw [tile]
    exact ⟨rfl, Nat.mod_eq_of_lt (lt_of_le_of_lt (Nat.min_le_right _ _) (by decide))⟩
  have outcome : exec (.leaveGrant t) s = leaveOutcome s1 t k := by
    show execLeaveGrant t s = _
    rw [execLeaveGrant, cool, if_neg (by decide), queue, hs1]
    rfl
  match k with
  | 0 =>
    unfold leaveOutcome at outcome
    simp only [if_true] at outcome
    split at outcome
    next tk _ =>
      refine ⟨_, outcome, fun _ => ?_, fun c r one => absurd one (by decide)⟩
      rw [State.tile_modOpt_same]
      exact counted
    next => exact ⟨_, outcome, fun _ => counted, fun c r one => absurd one (by decide)⟩
  | 1 =>
    refine ⟨_, outcome, fun _ => ?_, fun c r _ queued => ?_⟩
    · rw [State.tile_modTile_same]
      exact counted
    · rw [State.tile_modTile_same, tile]
      simp only [queued]
  | k + 2 =>
    obtain ⟨u, next⟩ : ∃ u, leaveOutcome s1 t (k + 2) = .next u := by
      unfold leaveOutcome
      rw [if_neg (by omega), if_neg (by omega)]
      split <;> exact ⟨_, rfl⟩
    exact ⟨u, outcome.trans next, fun small => absurd small (by omega), fun c r one => absurd one (by omega)⟩

/-- The unit's events and the grants of leave. -/
theorem matrixUnitAndLeave : MatrixUnitAndLeave := by
  intro s t k c r q
  refine ⟨fun queue waiting free on => ?_, fun cancel => if_pos cancel,
    fun cancel illegal => (if_neg (by rw [cancel]; decide)).trans (if_pos (by rw [illegal]; rfl)),
    fun queue running granted => ⟨fun passed live before => xmmComplete_writes queue running granted passed live before,
      fun ends noAck => xmmComplete_ends queue running granted ends noAck rfl rfl⟩,
    leaveGrant_tight, fun queue cool => leaveGrant_first queue cool⟩
  exact ⟨xmmStart_failed queue waiting free on, xmmStart_small queue waiting free on, xmmStart_asks queue waiting free on⟩

/-- Settles O52: issue, start, completion and leave. -/
theorem matrixUnit : Obligations.MatrixUnit := ⟨matrixInstructions, matrixUnitAndLeave⟩

end Sys2Proof.Proofs

namespace Sys2Proof.Proofs

/-!
The optical tile (09 R216 to R237): the engines that load, store, activate and factorise palettes, and the tile's states.
-/

open Sys2Proof.Machine Sys2Proof.Claim

/-! ## The palette engines -/

section Engines

variable {s : State} {t i : Nat} {c : OptCmd} {e : BitVec 7}

theorem optic_of_modOpt {j : Instr} {f : Optics → Optics} (meaning : exec j s = .next (s.modOpt t f)) : Optic s j t f :=
  ⟨_, meaning, congrArg Tile.opt (State.tile_modOpt_same s t f), fun _ other => State.tile_modOpt_of_ne s t _ f other, rfl, rfl⟩

/-- An event that leaves the tiles as a change of one optical tile does, and registers and memory alone. -/
theorem optic_of_tiles {j : Instr} {f : Optics → Optics} {u : State} (meaning : exec j s = .next u)
    (tiles : u.tiles = (s.modOpt t f).tiles) (hart : u.hart = s.hart) (mem : u.mem = s.mem) : Optic s j t f :=
  ⟨u, meaning, (congrArg Tile.opt (tile_congr tiles t)).trans (congrArg Tile.opt (State.tile_modOpt_same s t f)),
    fun k other => (tile_congr tiles k).trans (State.tile_modOpt_of_ne s t k f other), hart, mem⟩

theorem loaderStart_eq {k : OptKind} (first : (s.tile t).opt.startable OptKind.isLoad = some (i, c)) (on : s.engineOn t = true)
    (kind : c.kind = k) : s.loaderStart t k = .next (s.modOpt t (fun o => o.markRunning i c)) := by
  simp only [State.loaderStart, first]
  exact if_pos (by simp [on, kind])

theorem paletteLoadDone_eq (running : (s.tile t).opt.running .phld = some (i, c)) : exec (.paletteLoadDone t e) s =
    if c.cancel then .next ((s.remoteEnd (fun q => decide (q.strand = loaderId t))).optEnd t i c 7 0 0 0)
    else if (s.tile t).opt.foreign c then .next (s.optEnd t i c 8 0 0 0)
    else
      if (s.imageAsk t i c).engineAwaits (loaderId t) then .next (s.imageAsk t i c)
      else
        match (s.imageAsk t i c).loaderRead t c.pid c.exec c.addr imageBytes 300 with
        | (.error f, s1) => .next ((s1.engineForget (loaderId t)).optEnd t i c (tfault f.1).1 0 (tfault f.1).2 f.2)
        | (.ok bs, s1) =>
          if !imageOk bs then .next ((s1.engineForget (loaderId t)).optEnd t i c 1 0 0 0)
          else .next (((s1.engineForget (loaderId t)).modOpt t (fun o =>
            o.write c.pal.toNat (imagePalette bs c.pid) e)).optEnd t i c 0 0 0 0) := by
  show execPaletteLoadDone t e s = _
  simp only [execPaletteLoadDone, running] <;> rfl

theorem paletteLoadDone_ends (running : (s.tile t).opt.running .phld = some (i, c)) (stays : c.cancel = false)
    (own : (s.tile t).opt.foreign c = false) :
    let s0 := s.imageAsk t i c
    (s0.engineAwaits (loaderId t) = true → exec (.paletteLoadDone t e) s = .next s0) ∧
    (s0.engineAwaits (loaderId t) = false →
      (∀ f a s1, s0.loaderRead t c.pid c.exec c.addr 16640 300 = (.error (f, a), s1) →
        exec (.paletteLoadDone t e) s =
          .next ((s1.engineForget (loaderId t)).optEnd t i c 2 0 (f.code.toNat % 256) a)) ∧
      (∀ bs s1, s0.loaderRead t c.pid c.exec c.addr 16640 300 = (.ok bs, s1) →
        let s2 := s1.engineForget (loaderId t)
        (imageOk bs = false → exec (.paletteLoadDone t e) s = .next (s2.optEnd t i c 1 0 0 0)) ∧
        (imageOk bs = true → exec (.paletteLoadDone t e) s =
          .next ((s2.modOpt t (fun o => o.write c.pal.toNat (imagePalette bs c.pid) e)).optEnd t i c 0 0 0 0)))) := by
  intro s0
  rw [paletteLoadDone_eq running, if_neg (by simp [stays]), if_neg (by simp [own])]
  refine ⟨fun waits => if_pos waits, fun answered => ?_⟩
  rw [if_neg (by simpa using answered)]
  refine ⟨fun f a s1 read => ?_, fun bs s1 read => ⟨fun bad => ?_, fun good => ?_⟩⟩
  · rw [show (s.imageAsk t i c).loaderRead t c.pid c.exec c.addr imageBytes 300 = _ from read]
    rfl
  · rw [show (s.imageAsk t i c).loaderRead t c.pid c.exec c.addr imageBytes 300 = _ from read]
    exact if_pos (by simp [bad])
  · rw [show (s.imageAsk t i c).loaderRead t c.pid c.exec c.addr imageBytes 300 = _ from read]
    exact if_neg (by simp [good])

theorem paletteStoreDone_eq (running : (s.tile t).opt.running .phst = some (i, c)) (answered : s.engineAwaits (loaderId t) = false)
    (stays : c.cancel = false) (first : c.moved = none) (own : (s.tile t).opt.foreign c = false) :
    exec (.paletteStoreDone t) s =
      match (s.tile t).opt.pal c.pal.toNat with
      | none => .next (s.optEnd t i c 9 0 0 0)
      | some k =>
        let p := s.engineWrite t c.pid c.exec c.addr k.image 300
        let st : Nat × Nat × Word := match p.1 with | some f => ((tfault f.1).1, (tfault f.1).2, f.2) | none => (0, 0, 0)
        if p.2.engineAwaits (loaderId t) then .next (p.2.modOpt t (fun o => o.setCmd i { c with moved := some st }))
        else .next (p.2.storeDone t i c st) := by
  show execPaletteStoreDone t s = _
  simp only [execPaletteStoreDone, running, answered, stays, first, own]
  rfl

theorem paletteSwitch_eq (first : (s.tile t).opt.startable (fun k => decide (k = .psel)) = some (i, c)) (stays : c.cancel = false)
    (on : s.engineOn t = true) (own : (s.tile t).opt.foreign c = false) : exec (.paletteSwitch t e) s =
      if ((s.tile t).opt.pal c.pal.toNat).isNone then .next (s.optEnd t i c 9 0 0 0)
      else .next ((s.modOpt t (fun o => o.activate c.pal.toNat e)).optEnd t i c 0 0 0 0) := by
  show execPaletteSwitch t e s = _
  simp only [execPaletteSwitch, first, stays, on, own]
  rfl

theorem decompStart_eq (first : (s.tile t).opt.startable (fun k => decide (k = .dcmp)) = some (i, c)) (stays : c.cancel = false)
    (on : s.engineOn t = true) (own : (s.tile t).opt.foreign c = false)
    (mode : ((s.tile t).bank (c.addr.toNat % 2 ^ 24 / 2 ^ 20)).mode = 1)
    (pid : ((s.tile t).bank (c.addr.toNat % 2 ^ 24 / 2 ^ 20)).pid = c.pid) : exec (.decompStart t) s =
      if s.ownerGet c.slab ≠ 2 then .next (s.decompEnd t i c 3 0) else .next (s.modOpt t (fun o => o.markRunning i c)) := by
  show execDecompStart t s = _
  simp only [execDecompStart, first, stays, on, own, mode, pid, ne_eq, not_true_eq_false, decide_false]
  rfl

theorem decompDone_eq (running : (s.tile t).opt.running .dcmp = some (i, c)) (stays : c.cancel = false) :
    exec (.decompDone t e) s =
      let s1 := s.decompInput c
      let f := factorise (s1.decompBlock c) c.n
      if f.status ≠ 0 then .next (s1.decompEnd t i c f.status 0)
      else .next ((s1.modOpt t (fun o => o.write c.pal.toNat
        { mesh := f.mesh, att := f.att, screen := f.screen, sw := BitVec.ofNat 8 f.sw, n := BitVec.ofNat 7 c.n,
          febc := BitVec.ofNat 7 f.febc, tag := 0, pid := c.pid, pebc0 := 0, conv := none } e)).decompEnd t i c 0 f.febc) := by
  show execDecompDone t e s = _
  simp only [execDecompDone, running, stays]
  rfl

/-- The engines of a tile take their commands and end them. -/
theorem paletteEngines : PaletteEngines := by
  intro s t i c e on o
  refine ⟨fun first => ⟨fun kind => ?_, fun kind => ?_⟩, fun running => ⟨fun cancelled => ?_, fun stays foreign => ?_, fun stays own => ?_⟩,
    fun running answered stays moved failed own => ⟨fun empty => ?_, fun k s1 full written sent => ?_⟩,
    fun first stays own => ⟨fun empty => ?_, fun full => ⟨?_, ?_⟩⟩,
    fun first stays own => ?_, fun running stays => ?_⟩
  · exact optic_of_modOpt (loaderStart_eq first on kind)
  · exact optic_of_modOpt (loaderStart_eq first on kind)
  · exact (paletteLoadDone_eq running).trans (if_pos cancelled)
  · exact (paletteLoadDone_eq running).trans ((if_neg (by simp [stays])).trans (if_pos foreign))
  · exact paletteLoadDone_ends running stays own
  · rw [paletteStoreDone_eq running answered stays moved own, show (s.tile t).opt.pal c.pal.toNat = none from empty]
  · rw [paletteStoreDone_eq running answered stays moved own, show (s.tile t).opt.pal c.pal.toNat = some k from full]
    simp only [written, sent, Bool.false_eq_true, if_false, State.storeDone, failed]
  · exact (paletteSwitch_eq first stays on own).trans (if_pos (by rw [show (s.tile t).opt.pal c.pal.toNat = none from empty]; rfl))
  · rw [State.tile_modOpt_same]
    exact BitVec.eq_of_toNat_eq (by simp [Optics.activate])
  · exact (paletteSwitch_eq first stays on own).trans (if_neg (by simpa using full))
  · intro b mode pid
    refine ⟨fun owned => ?_, fun other => ?_⟩
    · exact optic_of_modOpt ((decompStart_eq first stays on own mode pid).trans (if_neg (not_not.mpr owned)))
    · rw [decompStart_eq first stays on own mode pid, if_pos other, State.decompEnd, if_neg other]
  · intro s1 f
    rw [decompDone_eq running stays]
    exact ⟨fun fails => if_pos fails, fun good => ⟨_, rfl, rfl, rfl, BitVec.toNat_ofNat c.n 7, rfl, rfl, if_neg (not_not.mpr good)⟩⟩

end Engines

/-! ## The states of a tile -/

/-- Starting waiting calibrations asks for some and takes tiles out of OFF, and changes nothing else of a tile. -/
theorem calibNext_opt (k : Nat) : ∀ (n : Nat) (s : State), ∃ req off,
    ((s.calibNext n).tile k).opt = { (s.tile k).opt with calReq := req, off := off }
  | 0, s => ⟨_, _, rfl⟩
  | n + 1, s => by
    rw [State.calibNext]
    split
    · exact ⟨_, _, rfl⟩
    next t r queue =>
      simp only
      split
      · exact ⟨_, _, rfl⟩
      · obtain ⟨req, off, same⟩ := calibNext_opt k n
          ((s.modPlat (fun p => { p with calQueue := r })).modOpt t (fun o => { o with calReq := true, off := false }))
        refine ⟨req, off, same.trans ?_⟩
        by_cases here : k = t
        · subst here
          rw [State.tile_modOpt_same]
          rfl
        · rw [State.tile_modOpt_of_ne _ _ _ _ here]
          rfl

theorem serviceTiles_tiles (s : State) : s.serviceTiles.tiles = s.tiles := by
  unfold State.serviceTiles
  simp only
  split <;> rfl

theorem tileShown_tiles (s old : State) (t : Nat) : (s.tileShown old t).tiles = s.tiles := by
  unfold State.tileShown
  split <;> rfl

theorem optLight_opt (s : State) (t : Nat) : ((s.optLight t).tile t).opt =
    (if (s.tile t).opt.off || !(s.tile t).opt.calibrated || !s.computeLit then { (s.tile t).opt with state := .dark }
     else if s.plat.switching then { (s.tile t).opt with state := .hold } else (s.tile t).opt.toReady) := by
  rw [State.optLight, State.tile_modOpt_same]

/-- A write of OTCTL.OFF, by the state of the tile. -/
theorem optOff_opt (s : State) (t : Nat) (off : Bool) :
    ((s.tile t).opt.state ≠ .calib → ((s.optOff t off).tile t).opt.off = off) ∧
    (off = true → (s.tile t).opt.state = .ready ∨ (s.tile t).opt.state = .hold ∨ (s.tile t).opt.state = .calib →
      ((s.optOff t off).tile t).opt.state = .dark) ∧
    ((s.tile t).opt.state = .digital → ((s.optOff t off).tile t).opt.state = .digital) ∧
    (off = false → (s.tile t).opt.state = .calib → ((s.optOff t off).tile t).opt.state = .calib) := by
  unfold State.optOff
  rw [tile_congr (serviceTiles_tiles _), tile_congr (tileShown_tiles _ _ _), State.tile_modOpt_same]
  simp only
  cases state : (s.tile t).opt.state with
  | digital => simp [state]
  | dark =>
    cases off
    · simp only [reduceCtorEq, ↓reduceIte, Bool.false_eq_true, optLight_opt, State.tile_modOpt_same]
      refine ⟨fun _ => ?_, by simp, by simp, by simp⟩
      split
      · rfl
      · split <;> rfl
    · simp
  | calib =>
    cases off
    · simp [state]
    · obtain ⟨req, o, same⟩ := calibNext_opt t 4
        ((s.modOpt t (fun o => { o with off := true })).modOpt t (fun o => { o with state := .dark }))
      simp [same]
  | ready => cases off <;> simp
  | hold => cases off <;> simp

theorem optAccept_pals (s : State) (c : OptCmd) (t : Nat) : ((s.optAccept c).tile t).opt.pals = (s.tile t).opt.pals := by
  have queued : ∀ f : Optics → Optics, (∀ o, (f o).pals = o.pals) →
      ((s.modOpt c.tile f).tile t).opt.pals = (s.tile t).opt.pals := by
    intro f keeps
    by_cases here : t = c.tile
    · rw [here, State.tile_modOpt_same, keeps]
    · rw [State.tile_modOpt_of_ne _ _ _ _ here]
  unfold State.optAccept
  simp only
  split
  · exact queued _ fun _ => rfl
  · rw [tile_congr (modStrand_tiles _ _ _)]
    exact queued _ fun _ => rfl

theorem optRoom_pals (s : State) (n t : Nat) : ((s.optRoom n).tile t).opt.pals = (s.tile t).opt.pals := by
  unfold State.optRoom
  split
  · split
    · split
      · exact (congrArg (fun x => Optics.pals (Tile.opt x)) (tile_congr (State.modSlot_tiles _ _ _) t)).trans (optAccept_pals s _ t)
      · rfl
    · rfl
  · rfl

theorem optEnd_pals {s : State} {t i : Nat} {c : OptCmd} (silent : c.ack = none) :
    ((s.optEnd t i c 0 0 0 0).tile t).opt.pals = (s.tile t).opt.pals := by
  unfold State.optEnd
  rw [optRoom_pals, silent]
  simp

theorem pal_setPal_same (o : Optics) (p : Nat) (k : Palette) (room : p < 4) : (o.setPal p (some k)).pal p = some k := by
  simp [Optics.pal, Optics.setPal, room]

theorem pal_setPal_of_ne (o : Optics) {p q : Nat} (v : Option Palette) (other : q ≠ p) : (o.setPal p v).pal q = o.pal q := by
  unfold Optics.pal Optics.setPal
  simp only
  congr 1
  rw [Vector.getElem?_setIfInBounds_ne other.symm]

/-- What a calibration measures stands in the tile before its light is decided. -/
def calibrated (s : State) (ok : Bool) (lv : BitVec 8) (dr : BitVec 16) (o : Optics) : Optics :=
  { o with calgen := o.calgen + 1, calAt := some s.ticks, drate := dr, qmon := 0, oswm := 0, pebc64 := Config.freePebc s.freeCtr,
           calibrated := ok, live := lv, state := .digital }

/-- The active palette of a calibrated tile is converted again. -/
def reconverted (e : BitVec 7) (o : Optics) : Optics :=
  match o.pal o.active.toNat with
  | some k => o.write o.active.toNat k e
  | none => o

theorem reconverted_keeps (e : BitVec 7) (o : Optics) :
    let p := reconverted e o
    p.calgen = o.calgen ∧ p.live = o.live ∧ p.calAt = o.calAt ∧ p.qmon = o.qmon ∧ p.oswm = o.oswm ∧ p.off = o.off ∧
      p.calibrated = o.calibrated ∧ p.state = o.state := by
  unfold reconverted
  cases o.pal o.active.toNat <;> exact ⟨rfl, rfl, rfl, rfl, rfl, rfl, rfl, rfl⟩

theorem reconverted_pal_active {e : BitVec 7} {o : Optics} {k : Palette} (valid : o.pal o.active.toNat = some k)
    (here : o.state = .digital) : (reconverted e o).pal o.active.toNat = some { k with pebc0 := e, conv := some o.calgen } := by
  simp only [reconverted, valid, Optics.write]
  rw [pal_setPal_same _ _ _ o.active.isLt]
  simp [Optics.convert, here]

theorem reconverted_pal_of_ne (e : BitVec 7) (o : Optics) {p : Nat} (other : p ≠ o.active.toNat) :
    (reconverted e o).pal p = o.pal p := by
  unfold reconverted
  split
  · exact pal_setPal_of_ne _ _ other
  · rfl

/-- The light that a calibrated tile takes changes its state and what its swatches count, and nothing of its calibration. -/
theorem optLight_keeps (s : State) (t : Nat) :
    let o := (s.tile t).opt
    let p := ((s.optLight t).tile t).opt
    p.calgen = o.calgen ∧ p.live = o.live ∧ p.calAt = o.calAt ∧ p.qmon = o.qmon ∧ p.oswm = o.oswm ∧ p.pals = o.pals := by
  intro o p
  have eq : p = _ := optLight_opt s t
  rw [eq]
  split
  · exact ⟨rfl, rfl, rfl, rfl, rfl, rfl⟩
  · split <;> exact ⟨rfl, rfl, rfl, rfl, rfl, rfl⟩

theorem tileCalibDone_eq {s : State} {t : Nat} (busy : (s.tile t).opt.state = .calib) (ok : Bool) (lv : BitVec 8) (dr : BitVec 16)
    (e : BitVec 7) : exec (.tileCalibDone t ok (lv, dr) e) s =
      let s2 := (s.tickFree.modOpt t (calibrated s ok lv dr)).modOpt t (reconverted e)
      .next (((if ok then s2.optLight t else s2).tableChange.calibNext 4).serviceTiles) := by
  show execTileCalibDone t ok (lv, dr) e s = _
  simp only [execTileCalibDone, busy]
  rfl

/-- Where a calibration that ends leaves the tile: what it measured, the palettes as converted, and the light it takes. -/
theorem tileCalibDone_opt {s : State} {t : Nat} (busy : (s.tile t).opt.state = .calib) (ok : Bool) (lv : BitVec 8)
    (dr : BitVec 16) (e : BitVec 7) :
    let o := (s.tile t).opt
    let o2 := reconverted e (calibrated s ok lv dr o)
    ∃ u, exec (.tileCalibDone t ok (lv, dr) e) s = .next u ∧
      let p := (u.tile t).opt
      p.calgen = o.calgen + 1 ∧ p.live = lv ∧ p.calAt = some s.ticks ∧ p.qmon = 0 ∧ p.oswm = 0 ∧ p.pals = o2.pals ∧
      (ok = false → p.state = .digital) ∧
      (ok = true → o.off = false → s.plat.cur ≠ 3 → p.state = if s.plat.switching then .hold else .ready) := by
  intro o o2
  refine ⟨_, tileCalibDone_eq busy ok lv dr e, ?_⟩
  rw [tile_congr (serviceTiles_tiles _)]
  obtain ⟨req, off, same⟩ := calibNext_opt t 4 (State.tableChange
    (if ok then ((s.tickFree.modOpt t (calibrated s ok lv dr)).modOpt t (reconverted e)).optLight t
     else (s.tickFree.modOpt t (calibrated s ok lv dr)).modOpt t (reconverted e)))
  have now : (((s.tickFree.modOpt t (calibrated s ok lv dr)).modOpt t (reconverted e)).tile t).opt = o2 := by
    rw [State.tile_modOpt_same, State.tile_modOpt_same]
    rfl
  obtain ⟨gen, live, at_, qmon, oswm, on, whole, state⟩ := reconverted_keeps e (calibrated s ok lv dr o)
  rw [same]
  cases ok with
  | false =>
    simp only [Bool.false_eq_true, if_false]
    rw [show ∀ u : State, u.tableChange.tile t = u.tile t from fun _ => rfl, now]
    exact ⟨gen, live, at_, qmon, oswm, rfl, fun _ => state, fun lit _ => absurd lit (by decide)⟩
  | true =>
    obtain ⟨gen', live', at', qmon', oswm', pals⟩ :=
      optLight_keeps ((s.tickFree.modOpt t (calibrated s true lv dr)).modOpt t (reconverted e)) t
    rw [now] at gen' live' at' qmon' oswm' pals
    simp only [if_true]
    rw [show ∀ u : State, u.tableChange.tile t = u.tile t from fun _ => rfl]
    refine ⟨gen'.trans gen, live'.trans live, at'.trans at_, qmon'.trans qmon, oswm'.trans oswm, pals,
      fun no => absurd no (by decide), fun _ off lit => ?_⟩
    rw [optLight_opt, now, if_neg]
    · show (if s.plat.switching = true then _ else _ : Optics).state = _
      split <;> rfl
    · rw [show o2.off = false from on.trans off, show o2.calibrated = true from whole]
      simp only [Bool.not_true, Bool.or_self, Bool.false_or, Bool.not_eq_true', decide_eq_false_iff_not, State.computeLit]
      exact not_not.mpr lit

/-- The swatch counters and moments that a swatch writes. -/
theorem swatchInject_eq {s : State} {t l : Nat} (m q n : Nat) (ready : (s.tile t).opt.state = .ready) (lane : l < 8)
    (live : (s.tile t).opt.live.getLsbD l = true) : ∃ f : Optics → Optics,
      exec (.swatchInject t l m q n) s = .next (s.modOpt t f) ∧ ∀ o, (f o).swatch = o.swatch + 1 ∧ (f o).swatched = true ∧
        (f o).dm = BitVec.ofNat 16 (satTo 16 n) ∧ (f o).lastSw = o.lastSw.setIfInBounds l (some s.ticks) ∧
        (f o).qmon = if 64 < q then BitVec.ofNat 8 (satTo 8 (o.qmon.toNat + 1)) else o.qmon := by
  refine ⟨_, if_neg ?_, fun o => ⟨rfl, rfl, rfl, rfl, rfl⟩⟩
  simp [ready, lane.not_ge, live]

theorem swatchAt_set {o : Optics} {l : Nat} (lane : l < 8) {v : Option Nat} (p : Optics)
    (set : p.lastSw = o.lastSw.setIfInBounds l v) : p.swatchAt l = v := by
  rw [Optics.swatchAt, set, Vector.getElem?_setIfInBounds]
  simp [lane]

/-- The states of a tile and what its monitors write. -/
theorem opticalTileStates : OpticalTileStates := by
  intro s t i c off ok lv dr e de l m q n o
  refine ⟨fun room => ?_, fun first silent => ?_, optic_of_modOpt rfl, ?_, fun asked on quiet analog lit bright => ?_,
    fun busy => ?_, fun ready lane live => ?_, optic_of_modOpt rfl, optic_of_modOpt rfl⟩
  · refine ⟨_, clrCmd t, if_pos room, ?_, rfl⟩
    rw [State.optAccept, if_pos (by rfl)]
    exact congrArg Tile.opt (State.tile_modOpt_same s t (fun o => { o with queue := o.queue ++ [clrCmd t] }))
  · refine ⟨(s.modOpt t (fun o => { o with pals := Vector.replicate 4 none })).optEnd t i c 0 0 0 0, ?_, fun p => ?_⟩
    · show execOtctlClrEffect t s = _
      simp only [execOtctlClrEffect, show (s.tile t).opt.startable _ = _ from first]
    · rw [Optics.pal, optEnd_pals silent, State.tile_modOpt_same]
      by_cases low : p < 4 <;> simp [low]
  · exact ⟨_, rfl, optOff_opt s t off⟩
  · have enters : exec (.calibEnter t) s =
        .next ((s.modOpt t (fun o => { o with state := .calib, calReq := false })).tableChange) :=
      if_pos (by simp_all [o, State.computeLit])
    exact optic_of_tiles enters rfl rfl rfl
  · obtain ⟨u, meaning, gen, live, at_, qmon, oswm, pals, failed, light⟩ := tileCalibDone_opt busy ok lv dr e
    have pal : ∀ p, (u.tile t).opt.pal p = (reconverted e (calibrated s ok lv dr o)).pal p := fun p => by
      rw [Optics.pal, pals, Optics.pal]
    refine ⟨u, meaning, gen, live, at_, qmon, oswm, fun k valid => (pal _).trans ?_, fun p other => (pal p).trans ?_, failed, light⟩
    · exact reconverted_pal_active (o := calibrated s ok lv dr o) valid rfl
    · exact reconverted_pal_of_ne e (calibrated s ok lv dr o) other
  · obtain ⟨f, meaning, fields⟩ := swatchInject_eq m q n ready lane live
    obtain ⟨swatch, swatched, dm, last, qmon⟩ := fields o
    refine ⟨_, meaning, ?_⟩
    rw [State.tile_modOpt_same]
    refine ⟨swatch, swatched, ?_, swatchAt_set lane _ last, ?_⟩
    · rw [dm, BitVec.toNat_ofNat]
      exact Nat.mod_eq_of_lt (Nat.lt_of_le_of_lt (Nat.min_le_right _ _) (by decide))
    · rw [qmon]
      split
      · rw [BitVec.toNat_ofNat]
        exact Nat.mod_eq_of_lt (Nat.lt_of_le_of_lt (Nat.min_le_right _ _) (by decide))
      · rfl

/-- Settles O53: the engines of a tile and the states it takes. -/
theorem opticalTiles : Obligations.OpticalTiles := ⟨paletteEngines, opticalTileStates⟩

end Sys2Proof.Proofs

namespace Sys2Proof.Proofs

/-!
Optical passes (10 R248 to R257): the start checks, the entry of groups, their output and the end of a pass.
-/

open Sys2Proof.Machine Sys2Proof.Claim

theorem modOpt_modOpt (s : State) (t : Nat) (f g : Optics → Optics) :
    (s.modOpt t f).modOpt t g = s.modOpt t (fun o => g (f o)) :=
  modTile_modTile s t _ _

/-! ## Start -/

section Start

variable {s : State} {t i : Nat} {c : OptCmd} {e : BitVec 7}

/-- A pass whose start checks give a status is ended with it. -/
theorem passStart_ends {inO outO : Bool} {st : Nat} (first : (s.tile t).opt.startable OptKind.isPass = some (i, c))
    (on : s.engineOn t = true) (input : decide ((s.tile t).halfOwner c.ih = 2) = inO)
    (output : decide ((s.tile t).halfOwner c.oh = 2) = outO) (status : s.startStatus c inO outO = st) (fails : st ≠ 0) :
    Optic s (.passStart t e) t (fun o =>
      { o with queue := o.queue.set i { c with running := true },
               runs := o.runs ++ [{ startRun c inO outO with ok := false, ending := true, status := BitVec.ofNat 8 st }] }) := by
  have meaning : exec (.passStart t e) s = .next ((s.modOpt t (fun o => o.markRunning i c)).modOpt t (fun o =>
      { o with runs := o.runs ++ [{ startRun c inO outO with ok := false, ending := true, status := BitVec.ofNat 8 st }] })) := by
    show execPassStart t e s = _
    simp only [execPassStart, first, on, input, output, status]
    exact if_pos fails
  exact optic_of_tiles meaning (congrArg State.tiles (modOpt_modOpt s t _ _)) rfl rfl

/-- A short pass whose checks hold, on a palette that stands, starts. -/
theorem passStart_starts {inO outO : Bool} (first : (s.tile t).opt.startable OptKind.isPass = some (i, c))
    (on : s.engineOn t = true) (input : decide ((s.tile t).halfOwner c.ih = 2) = inO)
    (output : decide ((s.tile t).halfOwner c.oh = 2) = outO) (status : s.startStatus c inO outO = 0)
    (stands : (s.tile t).opt.standing c.pal.toNat = true) (short : c.count ≤ 1024) :
    Optic s (.passStart t e) t (fun o =>
      { o with queue := o.queue.set i { c with running := true }, runs := o.runs ++ [startRun c inO outO] }) := by
  have meaning : exec (.passStart t e) s = .next (((s.modOpt t (fun o => o.markRunning i c)).modOpt t (fun o =>
      if o.standing c.pal.toNat then o else o.activate c.pal.toNat e)).modOpt t (fun o =>
        { o with runs := o.runs ++ [startRun c inO outO] })) := by
    show execPassStart t e s = _
    simp only [execPassStart, first, on, input, output, status]
    exact if_pos short
  obtain ⟨u, next, opt, others, hart, mem⟩ := optic_of_tiles meaning
    (congrArg State.tiles ((congrArg (fun v => State.modOpt v t _) (modOpt_modOpt s t _ _)).trans (modOpt_modOpt s t _ _))) rfl rfl
  refine ⟨u, next, opt.trans ?_, others, hart, mem⟩
  have still : ((s.tile t).opt.markRunning i c).standing c.pal.toNat = true := stands
  simp only [still, if_true]
  rfl

/-- The status of the start checks of a pass that is not cancelled (10 R248). -/
theorem startStatus_eq (s : State) {c : OptCmd} (inO outO : Bool) (stays : c.cancel = false) : s.startStatus c inO outO =
    if !c.legal then 10
    else if !inO || !outO then 3
    else
      match (s.tile c.tile).opt.pal c.pal.toNat with
      | none => 9
      | some k =>
        if k.pid ≠ c.pid then 8
        else if c.isLp && !(s.tile c.tile).opt.standing c.pal.toNat then 12
        else 0 := by
  unfold State.startStatus
  exact if_neg (by simp [stays])

end Start

/-! ## Groups -/

section Entry

variable {s : State} {t : Nat} {r : PassRun}

/-- The next group of a pass that holds its halves, with some vector that is not of scale 0xFF: entry, emulation or the end. -/
theorem groupEntry_eq (first : (s.tile t).opt.entering = some r) (on : s.engineOn t = true) (granted : r.leave = false)
    (lit : (s.tile t).opt.state ≠ .hold) (holds : s.passHolds r.cmd = true) {n : Nat}
    (size : Nat.min (r.cmd.groupSize (s.tile t).opt.live) (r.cmd.count - r.next) = n) (live : s.allNan r.cmd r.next n = false)
    (swatched : (s.tile t).opt.state = .ready → (s.tile t).opt.calReq = false →
      (s.tile t).opt.setDue = false ∧ (s.tile t).opt.swatchFirst (r.cmd.lmask &&& (s.tile t).opt.live) n = false) :
    exec (.groupEntry t) s =
      let o := (s.tile t).opt
      let c := r.cmd
      let k := c.lmask &&& o.live
      let e := o.declared s.ticks c.pal.toNat c.gain
      let below := decide (o.state ≠ .ready) || o.calReq || decide (k = 0) || decide (e < c.floor.toNat)
      if below && !c.emulate then
        .next (s.modOpt t (fun o => o.modRun c.ticket (fun q => { q with status := 11, ending := true })))
      else
        .next (s.modOpt t (fun o => (if below then o else o.carry k n).modRun c.ticket (fun q =>
          { q with next := q.next + n, groups := q.groups ++ [{ first := q.next, count := n, emu := below, ebc := e }] }))) := by
  show execGroupEntry t s = _
  have enters : ¬ (r.leave || !s.engineOn t || decide ((s.tile t).opt.state = .hold) ||
      (decide ((s.tile t).opt.state = .ready) && !(s.tile t).opt.calReq && ((s.tile t).opt.setDue ||
        (s.tile t).opt.swatchFirst (r.cmd.lmask &&& (s.tile t).opt.live) n))) = true := by
    simp only [granted, on, lit, Bool.not_true, Bool.or_false, Bool.false_or, Bool.and_eq_true, Bool.or_eq_true, decide_eq_true_eq,
      Bool.not_eq_true', decide_false, not_and, not_or, Bool.not_eq_true]
    rintro ⟨ready, quiet⟩
    exact swatched ready quiet
  simp only [execGroupEntry, first, size]
  rw [if_neg enters]
  simp only [holds, live, Bool.not_true, Bool.false_eq_true, if_false, Bool.not_false, Bool.true_and, Bool.false_or]

end Entry

/-- The start of a pass, and the entry of its groups. -/
theorem passesStartAndEnter : PassesStartAndEnter := by
  intro s t i c e r on o
  refine ⟨fun first here stays => ?_, fun first granted lit => ?_⟩
  · intro inO outO Ends
    subst here
    have ends : ∀ st : Nat, s.startStatus c inO outO = st → st ≠ 0 → Ends (BitVec.ofNat 8 st) := fun st status fails =>
      passStart_ends first on rfl rfl status fails
    have status := startStatus_eq s inO outO stays
    refine ⟨fun bad => ends 10 ?_ (by decide), fun good missing => ends 3 ?_ (by decide), fun good input output => ?_⟩
    · simpa [bad] using status
    · rcases missing with no | no <;> simpa [good, no] using status
    · simp only [good, input, output, Bool.not_true, Bool.or_self, Bool.false_eq_true, if_false] at status
      refine ⟨fun empty => ends 9 ?_ (by decide), fun k full => ⟨fun foreign => ends 8 ?_ (by decide), fun own stale lp => ends 12 ?_ (by decide),
        fun own stands short => ?_⟩⟩
      · rw [input, output, status, show (s.tile c.tile).opt.pal c.pal.toNat = none from empty]
      · rw [input, output, status, show (s.tile c.tile).opt.pal c.pal.toNat = some k from full]
        exact if_pos foreign
      · rw [input, output, status, show (s.tile c.tile).opt.pal c.pal.toNat = some k from full]
        exact (if_neg (not_not.mpr own)).trans (if_pos (by simp [lp, show (s.tile c.tile).opt.standing c.pal.toNat = false from stale]))
      · refine passStart_starts first on input output ?_ stands short
        rw [status, show (s.tile c.tile).opt.pal c.pal.toNat = some k from full]
        exact (if_neg (not_not.mpr own)).trans (if_neg (by simp [show (s.tile c.tile).opt.standing c.pal.toNat = true from stands]))
  · intro c k n ebc below holds live swatched
    have entry := groupEntry_eq first on granted lit holds rfl live swatched
    simp only at entry
    have test : (decide ((s.tile t).opt.state ≠ .ready) || (s.tile t).opt.calReq ||
        decide (r.cmd.lmask &&& (s.tile t).opt.live = 0) ||
        decide ((s.tile t).opt.declared s.ticks r.cmd.pal.toNat r.cmd.gain < r.cmd.floor.toNat)) = true ↔ below := by
      simp only [Bool.or_eq_true, decide_eq_true_eq, or_assoc]
      rfl
    refine ⟨fun above => ?_, fun under emulate => ?_, fun under fault => ?_⟩
    · rw [Bool.eq_false_iff.mpr (fun t => above (test.mp t))] at entry
      exact optic_of_modOpt entry
    · rw [test.mpr under, show r.cmd.emulate = true from emulate] at entry
      exact optic_of_modOpt entry
    · rw [test.mpr under, show r.cmd.emulate = false from fault] at entry
      exact optic_of_modOpt entry

/-! ## Output and end -/

section Output

variable {s : State} {t : Nat} {r : PassRun} {g : PassGroup} {k : Palette}

/-- Vectors that are not of scale 0xFF, as FP32 without accumulation: one value for each code below n, then zeros. -/
theorem outCodes_fp32 {u : State} {c : OptCmd} {j : Nat} {f : Nat → BitVec 10} (fp32 : c.ofmt = 0) (plain : c.acc = false)
    (scaled : u.inScale c j ≠ 0xFF) :
    (u.outCodes c k j f).1 = u.spWrite (c.vecAddr j) ((List.range 64).flatMap (fun i =>
      natLe 4 (if i < k.n.toNat then codeVal (f i) c.gain k.sw.toNat (u.inScale c j) else 0))) := by
  rw [State.outCodes]
  simp only [if_neg scaled, State.putVec, fp32, plain, Bool.false_eq_true, if_false]
  rw [List.flatMap_map]

theorem passEnd_eq {rs : List PassRun} (runs : (s.tile t).opt.runs = r :: rs) (written : r.groups = []) (entered : r.allIn = true)
    (stays : r.cmd.cancel = false) (status : r.status = 0) (input : r.inOwned = true) (output : r.outOwned = true)
    (held : s.ownerGet (.half t r.cmd.ih) = 2) (own : s.ownerGet (.half t r.cmd.oh) = 2) (legal : r.cmd.legal = true)
    (gives : r.cmd.iafter ≠ 2) (back : r.cmd.okeep = false) :
    exec (.passEnd t) s =
      let c := r.cmd
      let s1 := ((s.spWrite (c.outAddr 0) r.header).flip (.half t c.ih) (BitVec.ofNat 3 c.iafter)).flip (.half t c.oh) 0
      let s2 := (s1.modOpt t (fun o =>
        { o with runs := o.runs.drop 1, pcnt := o.pcnt + 1,
                 queue := o.queue.filter (fun q => !(q.kind.isPass && q.ticket = c.ticket)) })).modStrandKept c.strand (fun x =>
          x.passEnded r)
      .next (((match c.ack with
        | some d => s2.engineReply c.strand d (packFields [(c.ticket.toNat, 32), (r.ebc.toNat, 8), (0, 0)])
        | none => s2).pebcWake c.strand t).optRoom t) := by
  show execPassEnd t s = _
  cases ack : r.cmd.ack <;>
    simp only [execPassEnd, runs, written, entered, stays, Bool.false_and, Bool.false_eq_true, if_false, List.isEmpty_nil, ack,
      Bool.not_true, Bool.or_self, input, output, held, own, legal, back, status, gives, decide_true, decide_false, Bool.and_self,
      Bool.and_false, if_true, Bool.true_or, BitVec.ofNat_eq_ofNat, BitVec.toNat_ofNat, Nat.zero_mod]

theorem passEnded_clean (y : Slot) (status : r.status = 0) :
    y.passEnded r = { y with psum := y.psum.take 0 r.ebc, passOut := y.passOut - 1 } := by
  unfold Slot.passEnded
  rw [status]
  rfl

end Output

/-- The output of groups, and the end of a pass. -/
theorem passesWriteAndEnd : PassesWriteAndEnd := by
  intro s t codes r g k rs o c
  refine ⟨fun first full holds => ⟨fun optical => ?_, fun digital on idle live => ?_⟩, fun n b w => rfl,
    fun u j f fp32 plain scaled => outCodes_fp32 fp32 plain scaled,
    fun runs written entered stays status input output held own legal gives back => ?_⟩
  · intro n cols row code p
    show execGroupOutput t codes s = _
    simp only [execGroupOutput, show (s.tile t).opt.oldestGroup = _ from first,
      show (s.tile t).opt.pal r.cmd.pal.toNat = _ from full, optical, show s.passHolds r.cmd = true from holds]
    rfl
  · intro n rows p
    have free : ((s.tile t).xmms.any (fun c => c.running)) = false := by simpa using idle
    show execGroupEmulate t s = _
    simp only [execGroupEmulate, show (s.tile t).opt.oldestGroup = _ from first,
      show (s.tile t).opt.pal r.cmd.pal.toNat = _ from full, digital, on, free, show s.passHolds r.cmd = true from holds,
      show s.allNan r.cmd g.first g.count = false from live]
    rfl
  · intro s1 s2
    have ends := passEnd_eq runs written entered stays status input output held own legal gives back
    rw [show (fun x : Slot => x.passEnded r) = fun x => { x with psum := x.psum.take 0 r.ebc, passOut := x.passOut - 1 } from
      funext fun x => passEnded_clean x status] at ends
    refine ⟨fun silent => ?_, fun d reply => ?_⟩
    · rw [ends]
      simp only [show r.cmd.ack = none from silent]
      rfl
    · rw [ends]
      simp only [show r.cmd.ack = some d from reply]
      have word : packFields [(r.cmd.ticket.toNat, 32), (r.ebc.toNat, 8), (0, 0)] =
          BitVec.ofNat 64 (r.ebc.toNat * 2 ^ 8 + r.cmd.ticket.toNat * 2 ^ 32) := by
        refine congrArg (BitVec.ofNat 64) ?_
        simp only [List.foldl_cons, List.foldl_nil]
        omega
      rw [word]

/-- Settles O54: passes from their start checks to their end. -/
theorem passes : Obligations.Passes := ⟨passesStartAndEnter, passesWriteAndEnd⟩

end Sys2Proof.Proofs

namespace Sys2Proof.Proofs

/-!
Non-temporal stores, prefetch and cache maintenance (04 R104 to R106), and the stores of logical processes with their log
entries (13 R325).
-/

open Sys2Proof.Machine Sys2Proof.Claim

section Cache

variable {s s0 : State} {a b : BitVec 5} {h : BitVec 2} {x : Xlate}

theorem calm_of_no_pend (ordr : s.hart.ordr = none) (pend : s.hart.pend = []) : Calm s :=
  ⟨ordr, by rw [pend]; exact fun _ => nofun⟩

/-- A strand without deferred accesses has none to perform before an access. -/
theorem settleRange_of_no_pend (pend : s.hart.pend = []) (scratch : Bool) (pa n : Nat) : s.settleRange s.hid scratch pa n = s :=
  settleIf_of_none (by rw [State.slotAt_hid, pend]; exact fun _ => nofun)

theorem ntPlace_of_no_pend {va : Word} {bs : List Byte} (near : Near s x.pa) (pend : s.hart.pend = []) :
    s.ntPlace x va bs = s.wcStore s.coreNo s.hart.sid s.hart.pid va x.pa bs := by
  have same := settleRange_of_no_pend pend false x.pa bs.length
  rw [ntPlace_near (by rw [same]; exact near), same]

/-- A non-temporal store by a strand that is no logical process. -/
theorem scalarNt_plain {n : Nat} (ready : Ready s Need.access) (near : Near s0 x.pa) (calm : Calm s0) (pend : s0.hart.pend = [])
    (plain : s0.hart.record.opt = false) (aligned : (s.hart.getG a).toNat % n = 0)
    (trans : s.translate (quadOf (s.hid / 16)) s.hart.pid s.hart.status.exec (s.hart.getG a) .write = (.ok x, s0)) :
    s.scalarNt a b n h =
      (s0.wcStore s0.coreNo s0.hart.sid s0.hart.pid (s.hart.getG a) x.pa (natLe n (s.hart.getG b).toNat)).done h id := by
  rw [State.scalarNt, issue_of_ready ready, globalCheck_of_aligned aligned, trans]
  simp only
  rw [optstAt_of_plain plain, beforeStore_of_calm calm, storeEntries_of_plain plain, farWords_of_plain plain,
    remoteGate_of_near near]
  exact congrArg (fun u => State.done u h id) (ntPlace_of_no_pend near pend)

/-- A cache-line operation on a line that translates. -/
theorem cacheOp_eq {acc : Acc} {f : State → Xlate → Nat → Nat → State} (ready : Ready s Need.access) (calm : Calm s0)
    (pend : s0.hart.pend = [])
    (trans : s.translate (quadOf (s.hid / 16)) s.hart.pid s.hart.status.exec (s.hart.getG a) acc = (.ok x, s0)) :
    s.cacheOp a acc h f =
      match cacheTile s0.coreNo with
      | none => s0.done h id
      | some t => (if s0.region x.pa = .hbm then f s0 x t (x.pa / 256) else s0).done h id := by
  rw [State.cacheOp, issue_of_ready ready]
  simp only [slotQuad, trans, beforeAccess_of_calm calm, settleRange_of_no_pend pend] <;> rfl

/-- A cache-line operation acts on a line of local HBM4 from a core with a tile cache, and else does nothing. -/
theorem cacheOp_cases {i : Instr} {acc : Acc} {f : State → Xlate → Nat → Nat → State} (meaning : exec i s = s.cacheOp a acc h f)
    (ready : Ready s Need.access) (calm : Calm s0) (pend : s0.hart.pend = [])
    (trans : s.translate (quadOf (s.hid / 16)) s.hart.pid s.hart.status.exec (s.hart.getG a) acc = (.ok x, s0)) :
    (s0.region x.pa = .hbm ∧ isService s0.coreNo = false →
      CompletesFrom s i (f s0 x (tileOf s0.coreNo) (x.pa / 256)) 4 h id) ∧
    (¬(s0.region x.pa = .hbm ∧ isService s0.coreNo = false) → CompletesFrom s i s0 4 h id) := by
  have eq := meaning.trans (cacheOp_eq (f := f) (h := h) ready calm pend trans)
  unfold cacheTile at eq
  refine ⟨fun ⟨hbm, core⟩ => ?_, fun away => ?_⟩
  · simp only [core, Bool.false_eq_true, if_false, hbm, if_true] at eq
    exact eq
  · cases core : isService s0.coreNo with
    | true =>
      simp only [core, if_true] at eq
      exact eq
    | false =>
      have other : s0.region x.pa ≠ .hbm := fun hbm => away ⟨hbm, core⟩
      simp only [core, Bool.false_eq_true, if_false, if_neg other] at eq
      exact eq

theorem pfG_ok (ready : Ready s Need.any)
    (trans : s.translate (quadOf (s.hid / 16)) s.hart.pid s.hart.status.exec (s.hart.getG a + s.hart.getG b) .read = (.ok x, s0)) :
    exec (.pfG a b h) s =
      if s0.region x.pa = .hbm && !x.far then
        ({ s0 with prefetch := s0.prefetch ++
            [{ tile := (s0.pathOf s0.coreNo s0.hart.pid x.cached x.hint).tile, line := x.pa / 256, pid := s0.hart.pid,
               hint := x.hint }] } : State).done h id
      else s0.done h id := by
  refine (issue_of_ready ready _).trans ?_
  simp only [slotQuad, trans]

theorem pfG_error {c : Cause} (ready : Ready s Need.any)
    (trans : s.translate (quadOf (s.hid / 16)) s.hart.pid s.hart.status.exec (s.hart.getG a + s.hart.getG b) .read = (.error c, s0)) :
    exec (.pfG a b h) s = s0.done h id := by
  refine (issue_of_ready ready _).trans ?_
  simp only [slotQuad, trans]

end Cache

theorem cacheForms : CacheForms := by
  intro s s0 a b h x same hid ea q at_ T there Nt
  refine ⟨fun ready => ⟨fun trans => ⟨fun hbm here => ?_, fun away => ?_⟩, fun c s1 trans => pfG_error ready trans⟩,
    fun ready ordr pend => ?_⟩
  · refine ⟨_, (pfG_ok ready trans).trans (if_pos (by simp [hbm, here])), rfl, congrArg Slot.pid same⟩
  · refine (pfG_ok ready trans).trans (if_neg ?_)
    rcases away with other | far
    · simp [other]
    · simp [far]
  · have calm0 : Calm s0 := calm_of_hart same (calm_of_no_pend ordr pend)
    have pend0 : s0.hart.pend = [] := by rw [same]; exact pend
    refine ⟨fun plain near => ?_, fun trans => ?_, fun trans => ?_⟩
    · have plain0 : s0.hart.record.opt = false := by rw [same]; exact plain
      have form {i : Instr} {n : Nat} (meaning : exec i s = s.scalarNt a b n h) : Nt i n := fun aligned trans => by
        have stored := meaning.trans (scalarNt_plain ready near calm0 pend0 plain0 aligned trans)
        rw [same] at stored
        exact stored
      exact ⟨form rfl, form rfl, form rfl, form rfl⟩
    · obtain ⟨back, backNot⟩ := cacheOp_cases (i := .cwb a h) (f := fun c _ t line => c.writeBackLine t line) rfl ready calm0 pend0 trans
      obtain ⟨drop, dropNot⟩ := cacheOp_cases (i := .cwbi a h) (f := fun c _ t line => c.dropCached t line) rfl ready calm0 pend0 trans
      exact ⟨fun here => ⟨back here, drop here⟩, fun away => ⟨backNot away, dropNot away⟩⟩
    · obtain ⟨inv, invNot⟩ := cacheOp_cases (i := .cinv a h)
        (f := fun c x t line => if c.hart.record.opt && x.timed then c.dropCached t line else c.discardLine t line) rfl ready calm0 pend0 trans
      refine ⟨fun here => ?_, invNot⟩
      have acts := inv here
      simp only [same, Bool.and_eq_true] at acts
      exact acts

/-! ## Logical processes -/

section Logs

variable {s s0 : State} {h : BitVec 2} {x : Xlate}

theorem farWords_of_near {pa : Nat} (near : Near s pa) (n : Nat) : s.farWords x pa n = [] := by
  rw [State.farWords, isRemote_of_near near]
  rfl

/-- The entry that a write of the executing logical process makes for a doubleword: what its tile sees there, and LVT. -/
def oldEntry (s : State) (y : Slot) (x : Xlate) (e : Nat) : LogEntry :=
  .store e (BitVec.ofNat 64 (leNat (s.paRead (s.pathOf s.coreNo y.pid x.cached x.hint) e 8).1)) y.lp.lvt

theorem storeEntries_of_handler {pa : Nat} (near : Near s pa) (handler : s.hart.inHandler = true) (timed : x.timed = true) (n : Nat) :
    s.storeEntries x pa n = (dwordsOf pa n).map (oldEntry s s.hart x) := by
  simp only [State.storeEntries, isRemote_of_near near, State.loggedWords, handler, timed, Bool.and_self, if_true, Bool.false_eq_true,
    if_false]
  rfl

theorem dwordsOf_ne_nil {pa n : Nat} (some : 0 < n) : dwordsOf pa n ≠ [] := by
  intro none
  have len : (dwordsOf pa n).length = 0 := by rw [none]; rfl
  rw [dwordsOf, List.length_map, List.length_range] at len
  omega

/-- LogAppend of at least one entry: room, waiting for room, or LOGFULL (13 R325). -/
theorem logThenFar_some {l : List LogEntry} (some : l ≠ []) (k : State → Result) : s.logThenFar h l 0 k =
    if s.logFits s.hart l 0 then k (s.logPush s.hart l)
    else if s.logWait s.hart.pid then .next (s.parkAt h (.logRoom (logUse l)))
    else s.raise .logfull 0 := by
  rw [State.logThenFar, if_neg (by simp [some])]
  rfl

/-- How a write of the logical process `y` at the place `x` ends: OPTST off timed pages; on a timed page with its log entries
`l` made from the state `u`, waiting for room for them, or with LOGFULL (13 R325). -/
def WritesLogged (s s0 : State) (y : Slot) (x : Xlate) (h : BitVec 2) (i : Instr) (u : State) (l : List LogEntry) (xval : Word)
    (f : State → State) (g : Slot → Slot) : Prop :=
  (x.timed = false → exec i s = .next (s0.raiseAt s0.hid Cause.optst.code s0.hart.pc xval false)) ∧
  (x.timed = true → u.hart = y → u.region x.pa = .hbm →
    (u.logFits y l 0 = true → CompletesFrom s i (f (u.logPush y l)) 4 h g) ∧
    (u.logFits y l 0 = false → u.logWait y.pid = true → exec i s = .next (u.parkAt h (.logRoom (logUse l)))) ∧
    (u.logFits y l 0 = false → u.logWait y.pid = false →
      exec i s = .next (u.raiseAt u.hid Cause.logfull.code y.pc 0 false)))

theorem writesLogged_of_cases {i : Instr} {u : State} {y : Slot} {l : List LogEntry} {xval : Word} {f : State → State} {g : Slot → Slot}
    (k : State → Result) (untimed : x.timed = false → exec i s = s0.raise .optst xval)
    (timed : x.timed = true → u.hart = y → u.region x.pa = .hbm →
      l ≠ [] ∧ exec i s = u.logThenFar h l 0 k ∧ k (u.logPush y l) = (f (u.logPush y l)).done h g) :
    WritesLogged s s0 y x h i u l xval f g := by
  refine ⟨untimed, fun time same hbm => ?_⟩
  obtain ⟨some, meaning, stored⟩ := timed time same hbm
  rw [logThenFar_some some, same] at meaning
  refine ⟨fun fits => ?_, fun full waits => ?_, fun full fails => ?_⟩
  · rw [if_pos fits] at meaning
    exact meaning.trans stored
  · rw [if_neg (by simp [full]), if_pos waits] at meaning
    exact meaning
  · rw [if_neg (by simp [full]), if_neg (by simp [fails]), State.raise, same] at meaning
    exact meaning

theorem optstAt_of_untimed (lp : s.hart.record.opt = true) (untimed : x.timed = false) : s.optstAt x = true := by
  simp [State.optstAt, lp, untimed]

theorem optstAt_of_timed (timed : x.timed = true) : s.optstAt x = false := by
  simp [State.optstAt, timed]

/-- A store of a logical process in a handler at a place of local HBM4, by what it does once its entries are made. -/
theorem lpStore_logged {i : Instr} {y : Slot} {xval : Word} {f : State → State} {g : Slot → Slot} (va : Word) (n : Nat) (relaxed : Bool)
    (k : State → Result) (lp : y.record.opt = true) (handler : y.lp.inh = true) (same : s0.hart = y)
    (calm : Calm s0) (hbm : s0.region x.pa = .hbm) (some : 0 < n)
    (meaning : exec i s = if s0.optstAt x then s0.raise .optst xval
      else s0.remoteGate h x va n relaxed
        ((s0.beforeStore [x.pa]).logThenFar h ((s0.beforeStore [x.pa]).storeEntries x x.pa n)
          ((s0.beforeStore [x.pa]).farWords x x.pa n).length k))
    (acts : ∀ l, k (s0.logPush y l) = (f (s0.logPush y l)).done h g) :
    WritesLogged s s0 y x h i s0 ((dwordsOf x.pa n).map (oldEntry s0 y x)) xval f g := by
  subst same
  refine writesLogged_of_cases k (fun untimed => ?_) (fun timed _ _ => ⟨?_, ?_, acts _⟩)
  · exact meaning.trans (if_pos (optstAt_of_untimed lp untimed))
  · simpa using dwordsOf_ne_nil some
  · have near := near_of_hbm hbm
    have inside : s0.hart.inHandler = true := by simp [Slot.inHandler, lp, handler]
    rw [meaning, if_neg (by simp [optstAt_of_timed timed]), remoteGate_of_near near, beforeStore_of_calm calm,
      farWords_of_near near, storeEntries_of_handler near inside timed]
    rfl

/-- After its entries a store of bytes is put at its place, or deferred. -/
theorem putOut_logged (hbm : s0.region x.pa = .hbm) (y : Slot) (l : List LogEntry) (bs : List Byte) :
    (s0.logPush y l).putOut x va bs relaxed h =
      (if relaxed = true then (s0.logPush y l).deferGlobal x .store va bs.length (pieces x.pa (Nat.min 8 bs.length) 0 bs)
       else (s0.logPush y l).storeNow x va x.pa bs).done h id := by
  have hbm1 : (s0.logPush y l).region x.pa = .hbm := hbm
  rw [putOut_near (near_of_hbm hbm1), putPlace_near (near_of_hbm hbm1), hbm1]
  rfl

end Logs

/-! ## Vector stores of logical processes -/

/-- The first occurrences of the entries of a list, as a contiguous store makes them. -/
def firsts (l : List LogEntry) : List LogEntry := l.foldl (fun acc e => if acc.contains e then acc else acc ++ [e]) []

theorem foldl_firsts (l : List LogEntry) : ∀ acc : List LogEntry, acc.Nodup →
    (l.foldl (fun acc e => if acc.contains e then acc else acc ++ [e]) acc).Nodup ∧
    ∀ e, e ∈ l.foldl (fun acc e => if acc.contains e then acc else acc ++ [e]) acc ↔ e ∈ acc ∨ e ∈ l := by
  induction l with
  | nil => exact fun acc nodup => ⟨nodup, fun e => by simp⟩
  | cons a l ih =>
    intro acc nodup
    by_cases present : a ∈ acc
    · obtain ⟨kept, mem⟩ := ih acc nodup
      simp only [List.foldl_cons, List.contains_iff_mem.mpr present, if_true]
      refine ⟨kept, fun e => (mem e).trans ?_⟩
      rw [List.mem_cons]
      constructor
      · rintro (old | new)
        · exact .inl old
        · exact .inr (.inr new)
      · rintro (old | rfl | new)
        · exact .inl old
        · exact .inl present
        · exact .inr new
    · have fresh : (acc ++ [a]).Nodup := by
        rw [List.nodup_append]
        refine ⟨nodup, List.nodup_singleton a, fun b old c new => ?_⟩
        rintro rfl
        exact present (List.mem_singleton.mp new ▸ old)
      obtain ⟨kept, mem⟩ := ih (acc ++ [a]) fresh
      rw [List.foldl_cons, if_neg (by simp [present])]
      refine ⟨kept, fun e => (mem e).trans ?_⟩
      rw [List.mem_append, List.mem_singleton, List.mem_cons, or_assoc]

theorem firsts_nodup (l : List LogEntry) : (firsts l).Nodup := (foldl_firsts l [] List.nodup_nil).1

theorem mem_firsts {l : List LogEntry} {e : LogEntry} : e ∈ firsts l ↔ e ∈ l := by
  have mem := (foldl_firsts l [] List.nodup_nil).2 e
  simpa [firsts] using mem

theorem runsOf_ne_nil {l : List Nat} (some : l ≠ []) : runsOf l ≠ [] := by
  cases l with
  | nil => exact absurd rfl some
  | cons i r =>
    unfold runsOf
    split
    · split <;> exact List.cons_ne_nil _ _
    · exact List.cons_ne_nil _ _

theorem runsOf_length_pos : ∀ {l : List Nat} {e : Nat × Nat}, e ∈ runsOf l → 0 < e.2
  | i :: r, e, h => by
    have tail {k : Nat × Nat} (hk : k ∈ runsOf r) : 0 < k.2 := runsOf_length_pos hk
    unfold runsOf at h
    split at h
    · next j c t hr =>
      split at h
      · rcases List.mem_cons.mp h with rfl | ht
        · exact Nat.succ_pos c
        · exact tail (hr ▸ List.mem_cons_of_mem _ ht)
      · rcases List.mem_cons.mp h with rfl | ht
        · exact Nat.one_pos
        · exact tail (hr ▸ ht)
    · rcases List.mem_singleton.mp h with rfl
      exact Nat.one_pos

section VectorLogs

variable {s s0 : State} {v a b : BitVec 5} {p : BitVec 3} {r t : BitVec 1} {h : BitVec 2} {x : Xlate} {pl : List VPlace}

/-- The entries of the places of a vector store. -/
def placeEntries (s : State) (y : Slot) (pl : List VPlace) : List LogEntry :=
  pl.flatMap (fun c => (dwordsOf c.x.pa c.len).map (oldEntry s y c.x))

theorem placeEntries_ne_nil (y : Slot) (some : pl ≠ []) (long : ∀ c ∈ pl, 0 < c.len) : placeEntries s y pl ≠ [] := by
  obtain ⟨c, l, rfl⟩ := List.exists_cons_of_ne_nil some
  intro none
  have first := List.flatMap_eq_nil_iff.mp none c List.mem_cons_self
  exact dwordsOf_ne_nil (long c List.mem_cons_self) (List.map_eq_nil_iff.mp first)

theorem flatMap_storeEntries (near : ∀ c ∈ pl, Near s0 c.x.pa) (timed : ∀ c ∈ pl, c.x.timed = true)
    (handler : s0.hart.inHandler = true) :
    pl.flatMap (fun c => s0.storeEntries c.x c.x.pa c.len) = placeEntries s0 s0.hart pl :=
  List.flatMap_congr fun c hc => storeEntries_of_handler (near c hc) handler (timed c hc) _

theorem vecFar_of_near (near : ∀ c ∈ pl, Near s0 c.x.pa) : s0.vecFar pl = 0 := by
  have step : ∀ n : Nat, pl.foldl (fun n (e : VPlace) => n + (s0.farWords e.x e.x.pa e.len).length) n = n := by
    induction pl with
    | nil => exact fun _ => rfl
    | cons c pl ih =>
      intro n
      rw [List.foldl_cons, farWords_of_near (near c List.mem_cons_self), List.length_nil, Nat.add_zero]
      exact ih (fun e he => near e (List.mem_cons_of_mem _ he)) n
  exact step 0

/-- After its entries a vector store puts each place in turn. -/
theorem vecPut_logged (near : ∀ c ∈ pl, Near s0 c.x.pa) {y : Slot} (same : s0.hart = y) (l : List LogEntry) :
    (s0.logPush y l).vecPut pl ((s0.logPush y l).hart.getV v) (decide (r = 1)) (decide (t = 1)) h =
      (pl.foldl (fun (u : State) e => u.vecPlace e (y.getV v) (decide (r = 1)) (decide (t = 1))) (s0.logPush y l)).done h id := by
  subst same
  have near1 : ∀ c ∈ pl, Near (s0.logPush s0.hart l) c.x.pa := near
  rw [State.vecPut, not_any_remote near1]
  rfl

theorem vecStG_lp (ready : Ready s { Need.access with vs := [v] }) (near : Near s0 x.pa) (calm : Calm s0)
    (nears : ∀ c ∈ s0.hart.runPlaces (s.hart.getG a + s.hart.getG b) x (s0.hart.active p), Near s0 c.x.pa)
    (some_ : ¬ (s.hart.active p).isEmpty = true) (aligned : (s.hart.getG a + s.hart.getG b).toNat % 256 = 0)
    (trans : s.translate (quadOf (s.hid / 16)) s.hart.pid s.hart.status.exec (s.hart.getG a + s.hart.getG b) .write = (.ok x, s0)) :
    let pl := s0.hart.runPlaces (s.hart.getG a + s.hart.getG b) x (s0.hart.active p)
    s.vecStG v a b p r t h = if s0.optstAt x then s0.raise .optst 0
      else s0.logThenFar h (s0.vecEntries pl true) 0 (fun s2 => s2.vecPut pl (s2.hart.getV v) (decide (r = 1)) (decide (t = 1)) h) := by
  intro pl
  rw [State.vecStG, issue_of_ready ready, if_neg some_, globalCheck_of_aligned aligned, trans]
  simp only
  rw [remoteGate_of_near near, beforeStore_of_calm calm, vecFar_of_near nears]

/-- Each place of a translated scatter takes one element. -/
theorem gatherPlaces_len {acc : Acc} : ∀ (l : List Nat) {s s0 : State} {pl : List VPlace},
    s.gatherPlaces a b acc l = (.ok pl, s0) → s0.hart = s.hart ∧ ∀ c ∈ pl, c.len = s.hart.wb
  | [], s, s0, pl, ok => by
    simp only [State.gatherPlaces, Prod.mk.injEq, Except.ok.injEq] at ok
    obtain ⟨rfl, rfl⟩ := ok
    exact ⟨rfl, fun _ => nofun⟩
  | i :: r, s, s0, pl, ok => by
    rw [State.gatherPlaces] at ok
    split at ok
    · exact absurd (Prod.mk.inj ok).1 nofun
    next x s1 check =>
      have same : s1.hart = s.hart := by
        unfold State.globalCheck at check
        split at check
        · exact absurd (Prod.mk.inj check).1 nofun
        · exact (translate_asks check).hart
      split at ok
      · exact absurd (Prod.mk.inj ok).1 nofun
      · split at ok
        · exact absurd (Prod.mk.inj ok).1 nofun
        next l s2 rest =>
          obtain ⟨hart, lens⟩ := gatherPlaces_len r rest
          simp only [Prod.mk.injEq, Except.ok.injEq] at ok
          obtain ⟨rfl, rfl⟩ := ok
          refine ⟨hart.trans same, fun c hc => ?_⟩
          rcases List.mem_cons.mp hc with rfl | old
          · rfl
          · rw [lens c old, same]

theorem scatterG_lp (ready : Ready s { Need.access with vs := [v, b] }) (near : ∀ c ∈ pl, Near s0 c.x.pa) (calm : Calm s0)
    (some : pl ≠ []) (places : s.gatherPlaces a b .write (s.hart.active p) = (.ok pl, s0)) :
    s.scatterG v a b p r t h =
      s0.logThenFar h (s0.vecEntries pl false) 0 (fun s2 => s2.vecPut pl (s2.hart.getV v) (decide (r = 1)) (decide (t = 1)) h) := by
  have full : ¬ pl.isEmpty = true := fun e => some (List.isEmpty_iff.mp e)
  rw [State.scatterG, issue_of_ready ready, places]
  simp only
  rw [if_neg full, remoteGates_of_near _ _ pl near, beforeStore_of_calm calm, vecFar_of_near near]

end VectorLogs

/-! ## The forms -/

section Forms

variable {s s0 : State} {a b d : BitVec 5} {h : BitVec 2} {x : Xlate}

theorem scalarNt_logged {i : Instr} {n : Nat} (meaning : exec i s = s.scalarNt a b n h) (ready : Ready s Need.access)
    (lp : s.hart.record.opt = true) (handler : s.hart.lp.inh = true) (calm : Calm s0) (pend : s0.hart.pend = [])
    (same : s0.hart = s.hart) (hbm : s0.region x.pa = .hbm) (some : 0 < n) (aligned : (s.hart.getG a).toNat % n = 0)
    (trans : s.translate (quadOf (s.hid / 16)) s.hart.pid s.hart.status.exec (s.hart.getG a) .write = (.ok x, s0)) :
    WritesLogged s s0 s.hart x h i s0 ((dwordsOf x.pa n).map (oldEntry s0 s.hart x)) 0
      (fun u => u.wcStore u.coreNo s.hart.sid s.hart.pid (s.hart.getG a) x.pa (natLe n (s.hart.getG b).toNat)) id := by
  refine lpStore_logged (s.hart.getG a) n true (fun s2 => (s2.ntPlace x (s.hart.getG a) (natLe n (s.hart.getG b).toNat)).done h id)
    lp handler same calm hbm some ?_ (fun l => ?_)
  · rw [meaning, State.scalarNt, issue_of_ready ready, globalCheck_of_aligned aligned, trans]
  · have still : (s0.logPush s.hart l).hart = s.hart := same
    show ((s0.logPush s.hart l).ntPlace x (s.hart.getG a) _).done h id = _
    rw [ntPlace_of_no_pend (near_of_hbm (show (s0.logPush s.hart l).region x.pa = .hbm from hbm))
      (show (s0.logPush s.hart l).hart.pend = [] from pend), still]

theorem stG_logged {o : BitVec 11} {z : BitVec 2} {r : BitVec 1} (ready : Ready s Need.access)
    (lp : s.hart.record.opt = true) (handler : s.hart.lp.inh = true) (calm : Calm s0)
    (same : s0.hart = s.hart) (hbm : s0.region x.pa = .hbm) (aligned : (s.eaOf b o z).toNat % sizeOf_ z = 0)
    (trans : s.translate (quadOf (s.hid / 16)) s.hart.pid s.hart.status.exec (s.eaOf b o z) .write = (.ok x, s0)) :
    WritesLogged s s0 s.hart x h (.stG d b o z r h) s0 ((dwordsOf x.pa (sizeOf_ z)).map (oldEntry s0 s.hart x)) 0
      (fun u => if r = 1 then u.deferGlobal x .store (s.eaOf b o z) (sizeOf_ z)
          (pieces x.pa (sizeOf_ z) 0 (natLe (sizeOf_ z) (s.hart.getG d).toNat))
        else u.storeNow x (s.eaOf b o z) x.pa (natLe (sizeOf_ z) (s.hart.getG d).toNat)) id := by
  refine lpStore_logged (s.eaOf b o z) (sizeOf_ z) (decide (r = 1))
    (fun s2 => s2.putOut x (s.eaOf b o z) (natLe (sizeOf_ z) (s.hart.getG d).toNat) (decide (r = 1)) h)
    lp handler same calm hbm (Nat.two_pow_pos _) ?_ (fun l => ?_)
  · show s.scalarStG d b o z r h = _
    rw [State.scalarStG, issue_of_ready ready, globalCheck_of_aligned aligned, trans]
  · have min : Nat.min 8 (sizeOf_ z) = sizeOf_ z := Nat.min_eq_right (sizeOf_le z)
    show (s0.logPush s.hart l).putOut x _ _ _ h = _
    rw [putOut_logged hbm, length_natLe, min]
    simp only [decide_eq_true_eq]

theorem stfmt_logged (ready : Ready s Need.access) (lp : s.hart.record.opt = true) (handler : s.hart.lp.inh = true) (calm : Calm s0)
    (same : s0.hart = s.hart) (hbm : s0.region x.pa = .hbm) (aligned : (s.hart.getG a).toNat % 16 = 0)
    (trans : s.translate (quadOf (s.hid / 16)) s.hart.pid s.hart.status.exec (s.hart.getG a) .write = (.ok x, s0)) :
    WritesLogged s s0 s.hart x h (.stfmt a h) s0 ((dwordsOf x.pa 16).map (oldEntry s0 s.hart x)) (s.hart.getG a)
      (fun u => u.storeNow x (s.hart.getG a) x.pa (wordsBytes [s.hart.fmt.zeroExtend 64, s.hart.scl])) id := by
  refine lpStore_logged (s.hart.getG a) 16 false
    (fun s2 => s2.putOut x (s.hart.getG a) (wordsBytes [s.hart.fmt.zeroExtend 64, s.hart.scl]) false h)
    lp handler same calm hbm (by decide) ?_ (fun l => putOut_logged hbm s.hart l _)
  show execStfmt a h s = _
  rw [execStfmt, issue_of_ready ready, globalCheck_of_aligned aligned, trans]

theorem redAdd_logged {w : BitVec 1} {k : Nat} (bytes : amoBits w / 8 = k) (some : 0 < k) (ready : Ready s Need.access)
    (lp : s.hart.record.opt = true) (handler : s.hart.lp.inh = true) (calm : Calm s0) (same : s0.hart = s.hart)
    (hbm : s0.region x.pa = .hbm) (aligned : (s.hart.getG a).toNat % k = 0)
    (trans : s.translate (quadOf (s.hid / 16)) s.hart.pid s.hart.status.exec (s.hart.getG a) .write = (.ok x, s0)) :
    WritesLogged s s0 s.hart x h (.redAdd a b w h) (s0.sendHome s0.coreNo x)
      ((dwordsOf x.pa k).map (oldEntry (s0.sendHome s0.coreNo x) s.hart x)) (s.hart.getG a)
      (fun u => u.deferGlobal x (.red 0 (decide (w = 1))) (s.hart.getG a) k
        [{ addr := x.pa, len := k, idx := 0, data := s.hart.getG b }]) id := by
  subst bytes
  have passes := issue_of_ready ready
  refine writesLogged_of_cases (fun s2 =>
      match s2.region x.pa with
      | .remote dev off =>
        (s2.sendRemote dev off (amoBits w / 8) (s.hart.getG a) (.amo (BitVec.ofNat 4 0) (decide (w = 1)) true)
          (natLe 8 (s.hart.getG b).toNat ++ natLe 8 0) .store [] true
          ((s0.sendHome s0.coreNo x).farWords x x.pa (amoBits w / 8))).done h id
      | _ => (s2.deferGlobal x (.red (BitVec.ofNat 4 0) (decide (w = 1))) (s.hart.getG a) (amoBits w / 8)
          [{ addr := x.pa, len := amoBits w / 8, idx := 0, data := s.hart.getG b }]).done h id)
    (fun untimed => ?_) (fun timed same1 hbm1 => ⟨?_, ?_, ?_⟩)
  · show s.red 0 a b w h = _
    rw [State.red, passes, amoCheck_hbm aligned true trans hbm]
    exact if_pos (optstAt_of_untimed (by rw [same]; exact lp) untimed)
  · simpa using dwordsOf_ne_nil some
  · have near1 := near_of_hbm hbm1
    have inside : (s0.sendHome s0.coreNo x).hart.inHandler = true := by rw [same1]; simp [Slot.inHandler, lp, handler]
    show s.red 0 a b w h = _
    rw [State.red, passes, amoCheck_hbm aligned true trans hbm]
    simp only
    rw [if_neg (by simp [optstAt_of_timed timed]), remoteGate_of_near (near_of_hbm hbm), beforeAccess_of_calm calm,
      storeEntries_of_handler near1 inside timed, same1]
    have none_ := farWords_of_near (x := x) near1 (amoBits w / 8)
    simp only [none_, List.length_nil] <;> rfl
  · exact region_match_of_near (near_of_hbm hbm1) _ _

theorem amoSwap_logged (ready : Ready s Need.access) (lp : s.hart.record.opt = true) (handler : s.hart.lp.inh = true) (calm : Calm s0)
    (same : s0.hart = s.hart) (hbm : s0.region x.pa = .hbm) (aligned : (s.hart.getG a).toNat % 8 = 0)
    (trans : s.translate (quadOf (s.hid / 16)) s.hart.pid s.hart.status.exec (s.hart.getG a) .write = (.ok x, s0)) :
    WritesLogged s s0 s.hart x h (.amoSwap d a b 1 h) (s0.beforeHome x 8) ((dwordsOf x.pa 8).map (oldEntry (s0.beforeHome x 8) s.hart x))
      (s.hart.getG a) (fun c => c.homePut s.hart.pid x.pa (natLe 8 (s.hart.getG b).toNat))
      (fun k => (k.orFxf 0).setG d (BitVec.ofNat 64 (leNat ((s0.beforeHome x 8).homeBytes s.hart.pid x.pa 8)))) := by
  refine writesLogged_of_cases (fun s2 => (s2.homePut s2.hart.pid x.pa (natLe 8 ((s.hart.getG b).toNat % 2 ^ 64))).done h
      (fun y => (y.orFxf 0).setG d (BitVec.ofNat 64 (leNat ((s0.beforeHome x 8).homeBytes (s0.beforeHome x 8).hart.pid x.pa 8)))))
    (fun untimed => ?_) (fun timed same1 hbm1 => ⟨?_, ?_, ?_⟩)
  · show s.amo 8 d a b 1 h = _
    rw [State.amo, issue_of_ready ready, amoCheck_hbm (n := amoBits 1 / 8) aligned true trans hbm]
    exact if_pos (optstAt_of_untimed (by rw [same]; exact lp) untimed)
  · simpa using dwordsOf_ne_nil (n := 8) (by decide)
  · have near1 := near_of_hbm hbm1
    have inside : (s0.beforeHome x 8).hart.inHandler = true := by rw [same1]; simp [Slot.inHandler, lp, handler]
    have entries := storeEntries_of_handler near1 inside timed 8
    rw [same1] at entries
    show s.amo 8 d a b 1 h = _
    rw [State.amo, issue_of_ready ready, amoCheck_hbm (n := amoBits 1 / 8) aligned true trans hbm]
    simp only
    rw [if_neg (by simp [optstAt_of_timed timed]), remoteGate_of_near (near_of_hbm hbm), beforeAccess_of_calm calm]
    refine (region_match_of_near near1 _ _).trans ?_
    exact congrArg (fun l => State.logThenFar (s0.beforeHome x 8) h l 0 _) entries
  · have still : ((s0.beforeHome x 8).logPush s.hart ((dwordsOf x.pa 8).map (oldEntry (s0.beforeHome x 8) s.hart x))).hart = s.hart :=
      same1
    have whole : (s.hart.getG b).toNat % 2 ^ 64 = (s.hart.getG b).toNat := Nat.mod_eq_of_lt (s.hart.getG b).isLt
    simp only [still, same1, whole]

variable {v : BitVec 5} {p : BitVec 3} {r t : BitVec 1} {pl : List VPlace}

theorem mem_runPlaces {y : Slot} {ea : Word} {l : List Nat} {c : VPlace} (mem : c ∈ y.runPlaces ea x l) :
    c.x.timed = x.timed ∧ 0 < c.len := by
  obtain ⟨e, he, rfl⟩ := List.mem_map.mp mem
  exact ⟨rfl, Nat.mul_pos (Nat.two_pow_pos _) (runsOf_length_pos he)⟩

theorem vstG_logged (ready : Ready s { Need.access with vs := [v] }) (lp : s.hart.record.opt = true) (handler : s.hart.lp.inh = true)
    (calm : Calm s0) (same : s0.hart = s.hart) (some_ : ¬ (s.hart.active p).isEmpty = true)
    (aligned : (s.hart.getG a + s.hart.getG b).toNat % 256 = 0) (hbm : s0.region x.pa = .hbm)
    (trans : s.translate (quadOf (s.hid / 16)) s.hart.pid s.hart.status.exec (s.hart.getG a + s.hart.getG b) .write = (.ok x, s0))
    (places : ∀ c ∈ s.hart.runPlaces (s.hart.getG a + s.hart.getG b) x (s.hart.active p), s0.region c.x.pa = .hbm) :
    WritesLogged s s0 s.hart x h (.vstG v a b p r t h) s0
      (firsts (placeEntries s0 s.hart (s.hart.runPlaces (s.hart.getG a + s.hart.getG b) x (s.hart.active p)))) 0
      (fun u => (s.hart.runPlaces (s.hart.getG a + s.hart.getG b) x (s.hart.active p)).foldl (fun (c : State) e =>
        c.vecPlace e (s.hart.getV v) (decide (r = 1)) (decide (t = 1))) u) id := by
  have nears : ∀ c ∈ s.hart.runPlaces (s.hart.getG a + s.hart.getG b) x (s.hart.active p), Near s0 c.x.pa :=
    fun c hc => near_of_hbm (places c hc)
  have meaning : exec (.vstG v a b p r t h) s = _ :=
    vecStG_lp ready (near_of_hbm hbm) calm (by rw [same]; exact nears) some_ aligned trans (r := r) (t := t) (h := h)
  simp only [same] at meaning
  refine writesLogged_of_cases (fun s2 =>
      s2.vecPut (s.hart.runPlaces (s.hart.getG a + s.hart.getG b) x (s.hart.active p)) (s2.hart.getV v) (decide (r = 1)) (decide (t = 1)) h)
    (fun untimed => ?_) (fun timed _ _ => ⟨?_, ?_, vecPut_logged nears same _⟩)
  · exact meaning.trans (if_pos (optstAt_of_untimed (by rw [same]; exact lp) untimed))
  · have active : s.hart.active p ≠ [] := fun e => some_ (List.isEmpty_iff.mpr e)
    have filled : s.hart.runPlaces (s.hart.getG a + s.hart.getG b) x (s.hart.active p) ≠ [] := fun e =>
      runsOf_ne_nil active (List.map_eq_nil_iff.mp e)
    obtain ⟨e, he⟩ := List.exists_mem_of_ne_nil _ (placeEntries_ne_nil (s := s0) s.hart filled fun c hc => (mem_runPlaces hc).2)
    exact List.ne_nil_of_mem (mem_firsts.mpr he)
  · have inside : s0.hart.inHandler = true := by rw [same]; simp [Slot.inHandler, lp, handler]
    have entries := flatMap_storeEntries nears (fun c hc => (mem_runPlaces hc).1.trans timed) inside
    rw [same] at entries
    rw [meaning, if_neg (by simp [optstAt_of_timed timed]), State.vecEntries, entries]
    rfl

/-- A scatter of a logical process makes the entries of each of its elements. -/
theorem vsctG_logged (ready : Ready s { Need.access with vs := [v, b] }) (lp : s.hart.record.opt = true) (handler : s.hart.lp.inh = true)
    (calm : Calm s0) (some : pl ≠ []) (places : s.gatherPlaces a b .write (s.hart.active p) = (.ok pl, s0))
    (timed : ∀ c ∈ pl, c.x.timed = true ∧ s0.region c.x.pa = .hbm)
    (fits : s0.logFits s.hart (placeEntries s0 s.hart pl) 0 = true) :
    CompletesFrom s (.vsctG v a b p r t h) (pl.foldl (fun (c : State) e =>
      c.vecPlace e (s.hart.getV v) (decide (r = 1)) (decide (t = 1))) (s0.logPush s.hart (placeEntries s0 s.hart pl))) 4 h id := by
  obtain ⟨same, lens⟩ := gatherPlaces_len _ places
  have nears : ∀ c ∈ pl, Near s0 c.x.pa := fun c hc => near_of_hbm (timed c hc).2
  have inside : s0.hart.inHandler = true := by rw [same]; simp [Slot.inHandler, lp, handler]
  have entries := flatMap_storeEntries nears (fun c hc => (timed c hc).1) inside
  rw [same] at entries
  have listed : s0.vecEntries pl false = placeEntries s0 s.hart pl := entries
  have filled : placeEntries s0 s.hart pl ≠ [] :=
    placeEntries_ne_nil s.hart some fun c hc => (lens c hc).symm ▸ Nat.two_pow_pos _
  refine (scatterG_lp ready nears calm some places).trans ?_
  rw [listed, logThenFar_some filled, same, if_pos fits]
  exact vecPut_logged nears same _

end Forms

/-! ## The statement -/

theorem logicalProcessStores : LogicalProcessStores := by
  intro s s0 d a b v o p z h r t w x pl ready lp ordr pend q y old Logs At n em e2 ev bs fs Nt l put hbm
  have inh : y.lp.inh = true := by
    obtain ⟨-, -, -, -, -, mem⟩ := ready
    exact mem rfl lp
  have near := near_of_hbm hbm
  have kept {ea : Word} (lands : s.translate q y.pid y.status.exec ea .write = (.ok x, s0)) : s0.hart = y := (translate_asks lands).hart
  have calm0 (same : s0.hart = y) : Calm s0 := calm_of_hart same (calm_of_no_pend ordr pend)
  have nt {i : Instr} {k : Nat} (some : 0 < k) (meaning : exec i s = s.scalarNt a b k h) : Nt i k := fun ⟨aligned, lands⟩ =>
    have same := kept lands
    scalarNt_logged meaning ready lp inh (calm0 same) (by rw [same]; exact pend) same hbm some aligned lands
  refine ⟨fun ⟨aligned, lands⟩ => ?_, fun ⟨aligned, lands⟩ => ?_, nt (by decide) rfl, nt (by decide) rfl, nt (by decide) rfl,
    nt (by decide) rfl, fun ⟨aligned, lands⟩ => ?_, fun ⟨aligned, lands⟩ => ?_, fun readyV some ⟨aligned, lands⟩ => ?_,
    fun readyV some places timed => ?_⟩
  · exact stG_logged ready lp inh (calm0 (kept lands)) (kept lands) hbm aligned lands
  · exact stfmt_logged ready lp inh (calm0 (kept lands)) (kept lands) hbm aligned lands
  · exact redAdd_logged ((amoBytes_eq w).trans (by simp)) (by split <;> decide) ready lp inh (calm0 (kept lands)) (kept lands) hbm
      aligned lands
  · exact amoSwap_logged ready lp inh (calm0 (kept lands)) (kept lands) hbm aligned lands
  · have same := kept lands
    have full : ¬ (s.hart.active p).isEmpty = true := fun e => some (List.isEmpty_iff.mp e)
    have form := vstG_logged (r := r) (t := t) (h := h) readyV lp inh (calm0 same) same full aligned hbm lands
    refine ⟨firsts (placeEntries s0 y (y.runPlaces ev x l)), firsts_nodup _, fun _ e => ?_, form⟩
    exact mem_firsts.trans List.mem_flatMap
  · intro es fits
    have same := (gatherPlaces_len _ places).1
    exact vsctG_logged readyV lp inh (calm0 same) some places timed fits

/-- Settles O11: cache maintenance, non-temporal stores and what a logical process logs. -/
theorem cacheControl : Obligations.CacheControl := ⟨cacheForms, logicalProcessStores⟩

end Sys2Proof.Proofs

namespace Sys2Proof.Proofs

/-!
Launching, counting and cancelling (12 R290 to R293, R303), and the instructions that end, pre-empt and move strands
(12 R293, R307; 13 R340; 14 R354).
-/

open Sys2Proof.Machine Sys2Proof.Claim

section

variable {s s0 s2 : State} {a b d : BitVec 5} {h : BitVec 2} {x : Xlate}

/-- A strand that is no logical process makes an irrevocable action as any access. -/
theorem irrevocable_of_ready (ready : Ready s Need.access) (plain : s.hart.record.opt = false) (k : Result) :
    s.irrevocable k = k := by
  rw [State.irrevocable, plain]
  exact issue_of_ready ready k

/-! ## Launching -/

theorem spawn_near {s3 : State} (ready : Ready s Need.access) (plain : s.hart.record.opt = false)
    (check : s.globalCheck (s.hart.getG a) 64 .read = (.ok x, s0)) (near : Near s0 x.pa)
    (near1 : Near ((s0.beforeAccess true).releaseActions s0.hid 4) x.pa)
    (launched : let l := ((s0.beforeAccess true).releaseActions s0.hid 4).loadNow x x.pa 64
      l.2.spawnWords (l.2.launcher l.2.hid) (s.hart.getG a) (bytesWords l.1 8) false = .ok s3) :
    CompletesFrom s (.spawn a h) s3 4 h id := by
  refine (irrevocable_of_ready ready plain _).trans ?_
  simp only at launched
  simp only [check, launched]
  exact remoteGate_of_near near _ _ _ _

theorem spawnWords_alone {l : Launcher} {tmpl : Word} {w : List Word} (good : templateBad w l.exec = false)
    (alone : (Rec.ofWords w).gcb = 0) : s.spawnWords l tmpl w false =
      .ok (s.launchOne ((Rec.ofWords w).member l 0 false) (addr57 (nthW w 0)) 1 0 l.router none) := by
  simp only [State.spawnWords, alone, good, decide_true, Bool.true_or, if_true, Bool.false_eq_true, if_false]

/-- The launch of a group of this device whose block is in order and IDLE. -/
theorem spawnWords_group {l : Launcher} {tmpl : Word} {w : List Word} (good : templateBad w l.exec = false)
    (plain : (Rec.ofWords w).opt = false) (group : (Rec.ofWords w).gcb ≠ 0)
    (check : s.blockCheck l.quad l.pid l.exec (Rec.ofWords w).gcb true = .ok true)
    (legal : gcbBad ((s.probe l.quad l.pid (Rec.ofWords w).gcb 64).blockWordsAt l.quad l.pid (Rec.ofWords w).gcb) = false)
    (idle : blockState ((s.probe l.quad l.pid (Rec.ofWords w).gcb 64).blockWordsAt l.quad l.pid (Rec.ofWords w).gcb) = 0) :
    let t := Rec.ofWords w
    let s0 := s.probe l.quad l.pid t.gcb 64
    let b := s0.blockWordsAt l.quad l.pid t.gcb
    let open_ := decide (fld (nthW b 3) 31 0 = 0)
    let s1 := (s0.setBlockStateAt l.quad l.pid t.gcb (if open_ then 2 else 1)).vaSetWordAt l.quad l.pid (t.gcb + 32) tmpl
    let s2 := s1.knowGroup l.pid t.gcb (fun k =>
      { k with spawned := true, exec := l.exec, prio := l.prio, quiet := false, done := false, ending := none })
    s.spawnWords l tmpl w false = .ok (if open_ then s2.launchFrom l t (addr57 (nthW w 0)) b 0 (groupN b) else s2) := by
  intro t s0 b open_ s1 s2
  have checked : (if decide ((Rec.ofWords w).gcb = 0) || decide ((Rec.ofWords w).gcb.toNat % 64 ≠ 0) then Except.ok true
      else s.blockCheck l.quad l.pid l.exec (Rec.ofWords w).gcb true) = .ok true := by
    rw [check, ite_self]
  unfold State.spawnWords
  simp only
  rw [checked]
  simp only [good, group, plain, legal, idle, Bool.false_and, Bool.not_true, Bool.or_self, Bool.false_eq_true, if_false, ne_eq,
    not_true_eq_false, s2, s1, open_, b, s0, t]
  split <;> simp_all

theorem gdep_of_ok (ready : Ready s Need.access) (plain : s.hart.record.opt = false)
    (ok : (s.beforeAccess true).gdepFor (slotQuad (s.beforeAccess true).hid) (s.beforeAccess true).hart.pid
      (s.beforeAccess true).hart.status.exec (s.hart.getG a) (s.hart.getG b) = .ok s2) :
    CompletesFrom s (.gdep a b h) s2 4 h id := by
  refine (irrevocable_of_ready ready plain _).trans ?_
  simp only [ok]
  rfl

/-! ## Counting -/

theorem gcnt_eq (ready : Ready s Need.access) : exec (.gcnt d a h) s =
    if s.hart.getG a = 0 then (s.beforeAccess false).doneG h d (BitVec.ofNat 64 ((s.beforeAccess false).job (s.beforeAccess false).hart.pid).count)
    else
      match (s.beforeAccess false).blockCheck (slotQuad (s.beforeAccess false).hid) (s.beforeAccess false).hart.pid
        (s.beforeAccess false).hart.status.exec (s.hart.getG a) false with
      | .error (c, v) => (s.beforeAccess false).raise c v
      | .ok inHbm =>
        let s1 := (s.beforeAccess false).probe (slotQuad (s.beforeAccess false).hid) (s.beforeAccess false).hart.pid (s.hart.getG a) 64
        let b := s1.blockWordsAt (slotQuad s1.hid) s1.hart.pid (s.hart.getG a)
        if !inHbm || (gcbBad b && graphBad b) then s1.raise .gcbbad (s.hart.getG a) else s1.doneG h d (blockCount b) :=
  (issue_of_ready ready _).trans rfl

/-! ## Cancels -/

theorem cancelInstr_posts {i : Instr} {level : BitVec 2} (meaning : exec i s = s.cancelInstr level a h) (ready : Ready s Need.access)
    (plain : s.hart.record.opt = false) :
    let ga := s.hart.getG a
    let s1 := s.beforeAccess true
    let pid := s1.hart.pid
    let sp := (s1.probe (slotQuad s1.hid) pid ga 64).freshGroup pid ga
    let b := sp.blockWordsAt (slotQuad s1.hid) pid ga
    let s2 := sp.setBlockStateAt (slotQuad s1.hid) pid ga 4
    s1.blockCheck (slotQuad s1.hid) pid s1.hart.status.exec ga true = .ok true → blockState b < 3 →
    (if level = 0 then gcbBad b else graphBad b) = false →
    CompletesFrom s i { s2 with
      cancels := s2.cancels ++ [{ level := level, pid := pid, addr := ga, prior := blockState b, swept := false }] } 4 h id := by
  intro ga s1 pid sp b s2 check going legal
  refine meaning.trans ((irrevocable_of_ready ready plain _).trans ?_)
  have cancelled : (s.beforeAccess true).cancelBlock (slotQuad (s.beforeAccess true).hid) (s.beforeAccess true).hart.pid
      (s.beforeAccess true).hart.status.exec level (s.hart.getG a) = .ok { s2 with
      cancels := s2.cancels ++ [{ level := level, pid := pid, addr := ga, prior := blockState b, swept := false }] } := by
    simp only [State.cancelBlock, show (s.beforeAccess true).blockCheck (slotQuad (s.beforeAccess true).hid)
      (s.beforeAccess true).hart.pid (s.beforeAccess true).hart.status.exec (s.hart.getG a) true = _ from check]
    refine (if_neg ?_).trans (if_neg going.not_ge)
    rw [legal]
    decide
  simp only [cancelled]
  rfl

theorem cancelJ_eq (ready : Ready s Need.access) (plain : s.hart.record.opt = false)
    (legal : (if s.hart.status.exec then decide (fld (s.hart.getG a) 63 12 ≠ 0) else decide (s.hart.getG a ≠ 0)) = false) :
    CompletesFrom s (.cancelJ a h) ((s.beforeAccess true).cancelJob
      (if (s.beforeAccess true).hart.status.exec then (s.hart.getG a).setWidth 12 else (s.beforeAccess true).hart.pid)) 4 h id :=
  (irrevocable_of_ready ready plain _).trans (if_neg (by rw [legal]; decide))

end

/-- Settles O19. -/
theorem launchInstructions : Obligations.LaunchInstructions := by
  refine ⟨fun s s0 s3 a h x ready plain => ?_, fun s l tmpl w good alone => spawnWords_alone good alone,
    fun s l tmpl w good plain => ?_, fun s s2 a b h ready plain ok => gdep_of_ok ready plain ok, fun s d a h ready => ?_,
    fun s a h ready plain => ?_, fun s a h ready plain => ?_⟩
  · intro ga check s1 near l launched
    exact spawn_near ready plain check (fun dev off => (near dev off).1) (fun dev off => (near dev off).2) launched
  · intro t s0 b group check legal idle open_ s1 s2
    exact spawnWords_group good plain group check legal idle
  · intro ga s1
    refine ⟨fun zero => (gcnt_eq ready).trans (if_pos zero), ?_⟩
    intro s2 b some check legal
    refine (gcnt_eq ready).trans ((if_neg some).trans ?_)
    simp only [show (s.beforeAccess false).blockCheck (slotQuad (s.beforeAccess false).hid) (s.beforeAccess false).hart.pid
      (s.beforeAccess false).hart.status.exec (s.hart.getG a) false = _ from check]
    refine if_neg (Bool.not_eq_true _ ▸ Bool.or_eq_false_iff.mpr ⟨rfl, Bool.and_eq_false_iff.mpr legal⟩)
  · intro ga s1 pid sp b check going s2 posted
    exact ⟨fun legal => cancelInstr_posts rfl ready plain check going legal,
      fun legal => cancelInstr_posts rfl ready plain check going legal⟩
  · intro ga s1 level
    refine ⟨fun user zero => ?_, fun exec_ legal => ?_⟩
    · have done := cancelJ_eq (a := a) (h := h) ready plain (by simp [user, show s.hart.getG a = 0 from zero])
      rw [if_neg (by rw [show (s.beforeAccess true).hart.status.exec = _ from level, user]; decide)] at done
      exact done
    · have done := cancelJ_eq (a := a) (h := h) ready plain (by simp [exec_, show fld (s.hart.getG a) 63 12 = 0 from legal])
      rw [if_pos (by rw [show (s.beforeAccess true).hart.status.exec = _ from level, exec_])] at done
      exact done

/-! ## Leaving -/

section

variable {s s1 : State} {a b : BitVec 5} {h : BitVec 2} {x : Xlate}

theorem exit_plain (ready : Ready s Need.any) (calm : s.hart.floorPend = none) (plain : s.hart.record.opt = false) :
    exec (.exit h) s = .next s.endStrand := by
  refine (issue_of_ready ready _).trans ((if_pos (by rw [plain]; rfl)).trans (floorThen_none calm))

/-- A logical process outside a handler leaves for EXITP. -/
theorem exit_process (ready : Ready s Need.any) (calm : s.hart.floorPend = none) (lp : s.hart.record.opt = true)
    (outside : s.hart.lp.inh = false) (fresh : s.hart.counted = false) : exec (.exit h) s = .next s.exitProcess := by
  refine (issue_of_ready ready _).trans ((if_neg (by rw [lp]; decide)).trans ?_)
  simp only [outside, Bool.false_eq_true, if_false, calm, fresh]

theorem prmt_eq (ready : Ready s { Need.access with priv := true }) (reserved : fld (s.hart.getG b) 63 5 = 0)
    (aligned : (s.hart.getG a).toNat % 32 = 0) (low : (s.hart.getG a).toNat < 0x40000) :
    let s1 := s.beforeAccess false
    let m : Mask := BitVec.ofNat 256 (leNat (s1.localRead (s.hart.getG a).toNat 32))
    let s2 := s1.setRsv m (BitVec.ofNat 4 (fld (s.hart.getG b) 3 0))
    let l := s2.preempted m (fld (s.hart.getG b) 3 0)
    let s3 := l.foldl (fun (k : State) e => k.modSlot e.1 (fun x => { x with bound := { x.bound with preempt := true } }))
      (s2.parkAt h .prmt)
    exec (.prmt a b h) s =
      if bitOf (s.hart.getG b) 4 then (s1.setRsv m 0).done h id
      else if l.isEmpty then s2.done h id
      else .next { s3 with preempts := s3.preempts ++
        [{ issuer := s3.hart.sid, left := l.map (fun e => e.2.sid), since := s3.ticks }] } :=
  (issue_of_ready ready _).trans ((if_neg (not_not.mpr reserved)).trans ((if_neg (not_not.mpr aligned)).trans (if_neg low.not_ge)))

theorem migr_eq (ready : Ready s Need.any)
    (trans : s.translate (slotQuad s.hid) s.hart.pid s.hart.status.exec (s.hart.getG a) .read = (.ok x, s1)) :
    exec (.migr a h) s =
      match s1.region x.pa with
      | .hbm => s1.done h id
      | .remote dev _ => s1.migrateTo h dev (s.hart.getG a)
      | _ => s1.raise .migspace (s.hart.getG a) := by
  refine (issue_of_ready ready _).trans ?_
  simp only [trans] <;> rfl

end

/-- Settles O20. -/
theorem leavingInstructions : Obligations.LeavingInstructions := by
  refine ⟨fun s h ready calm => ?_, fun s a b h ready => ?_, fun s s1 a h x ready => ?_⟩
  · intro n s2 x
    exact ⟨fun plain => exit_plain ready calm plain, fun lp outside fresh => exit_process ready calm lp outside fresh⟩
  · intro ga gb reserved aligned low s1 m s2 l
    have meaning := prmt_eq (h := h) ready reserved aligned low
    refine ⟨fun lift => meaning.trans (if_pos lift), fun keep none_ => ?_, fun keep some => ?_⟩
    · exact meaning.trans ((if_neg (by rw [show bitOf (s.hart.getG b) 4 = _ from keep]; decide)).trans
        (if_pos (List.isEmpty_iff.mpr none_)))
    · exact meaning.trans ((if_neg (by rw [show bitOf (s.hart.getG b) 4 = _ from keep]; decide)).trans
        (if_neg fun e => some (List.isEmpty_iff.mp e)))
  · intro ga lands
    have meaning := migr_eq (h := h) ready lands
    exact ⟨fun hbm => meaning.trans (by simp only [hbm] <;> rfl), fun dev off far => by rw [meaning, far], fun host => by rw [meaning, host]⟩

end Sys2Proof.Proofs

namespace Sys2Proof.Proofs

/-!
Placement, pick-up, deferred launches, cancels and pre-emption as the device performs them (12 R294 to R308; 15 R396).
-/

open Sys2Proof.Machine Sys2Proof.Claim

section Placement

variable {s s1 : State} {k : Nat} {i : Item}

theorem itemHop_moves (item : s.items[k]? = some i) (free : i.taken = none) (placed : i.ovq = none)
    (away : decide (gridDist i.x i.y i.record.hx.toNat i.record.hy.toNat ≤ i.radius) = false ∨
      (s.underTest (gridCore i.x i.y) = false ∧ s.roomFor (gridCore i.x i.y) i.record = none)) :
    exec (.itemHop k) s = .next (if s.routerFirst k i then s.moveItem k i else s) := by
  show execItemHop k s = _
  rcases away with far | ⟨idle, full⟩
  · simp only [execItemHop, item, free, placed, far, Bool.false_and, Bool.false_eq_true, if_false, Option.isSome_none, Bool.or_self]
  · simp only [execItemHop, item, free, placed, idle, full, ite_self, Bool.and_false, Bool.false_and, Bool.false_eq_true, if_false,
      Option.isSome_none, Bool.or_self]

theorem itemHop_takes {n : Nat} (item : s.items[k]? = some i) (free : i.taken = none) (placed : i.ovq = none)
    (near : decide (gridDist i.x i.y i.record.hx.toNat i.record.hy.toNat ≤ i.radius) = true)
    (idle : s.underTest (gridCore i.x i.y) = false) (room : s.roomFor (gridCore i.x i.y) i.record ≠ none)
    (still : (s.offerOverflow (gridCore i.x i.y)).roomFor (gridCore i.x i.y) i.record = some n)
    (first : (s.offerOverflow (gridCore i.x i.y)).outranked k i = false) :
    exec (.itemHop k) s = .next ((s.offerOverflow (gridCore i.x i.y)).takeItem k (gridCore i.x i.y) n) := by
  obtain ⟨m, hm⟩ := Option.ne_none_iff_exists'.mp room
  show execItemHop k s = _
  simp only [execItemHop, item, free, placed, near, idle, hm, still, first, Bool.and_false, Bool.false_and, Bool.false_eq_true, if_false,
    Option.isSome_none, Bool.or_self, if_true]

theorem ringRadiusGrow_grows (item : s.items[k]? = some i) (free : i.taken = none) (placed : i.ovq = none) (ring : i.ring ≠ none)
    (due : i.since + 4000 ≤ s.ticks) (grows : i.radius < i.rmax) : exec (.ringRadiusGrow k) s =
      .next (s.setItem k (({ i with radius := i.radius + 1, since := s.ticks } : Item).atRing 0)) := by
  have circles : i.ring.isSome = true := Option.isSome_iff_ne_none.mpr ring
  show execRingRadiusGrow k s = _
  simp only [execRingRadiusGrow, item]
  exact if_pos (by simp [circles, free, placed, grows, due])

theorem overflowPark_parks (item : s.items[k]? = some i) (free : i.taken = none) (placed : i.ovq = none) (ring : i.ring ≠ none)
    (due : i.since + 4000 ≤ s.ticks) (widest : i.rmax ≤ i.radius) :
    let j : Item := { i with ovq := some (tileOf (gridCore i.record.hx.toNat i.record.hy.toNat)), arrived := s.nextArrival }
    let s1 := ((s.overflowRecord i).setItem k j).leaveOverflow j
    exec (.overflowPark k) s = .next (match s1.coreInReach i with | some m => s1.offerOverflow m | none => s1) := by
  intro j s1
  have circles : i.ring.isSome = true := Option.isSome_iff_ne_none.mpr ring
  show execOverflowPark k s = _
  simp only [execOverflowPark, item]
  refine (if_neg (by simp [free])).trans ((if_neg (by simp [placed])).trans ((if_pos (by simp [circles, widest, due])).trans ?_))
  show (match s1.coreInReach i with | some c => _ | none => _) = _
  cases s1.coreInReach i <;> rfl

/-! ## Pick-up -/

theorem pickup_eq {core slot : Nat} (item : s.items[k]? = some i) (taken : i.taken = some (core, slot)) : exec (.pickup k) s =
    if s.isFrozen i.record.pid || (s.slotAt (16 * core + slot)).occ || (s.core core).hold then .next s
    else
      let s1 := s.pickAsk (16 * core + slot) i.record
      if s1.engineAwaits (pickId (16 * core + slot)) then .next s1
      else if !s1.ftRoom (tileOf core) i.record.pid then
        .next ((s1.engineForget (pickId (16 * core + slot))).setItem k
          { i with taken := none, x := (coreRouter core).1, y := (coreRouter core).2, ring := none, arrived := s1.nextArrival })
      else if (s1.job i.record.pid).ft then
        let s2 := s1.modTile (tileOf core) (fun t => t.reservePin i.record.pid)
        if (s2.tile (tileOf core)).pinned then .next (s2.pickUp k i core slot) else .next s2
      else .next (s1.pickUp k i core slot) := by
  show execPickup k s = _
  simp only [execPickup, item, taken]

/-- The registers of a new strand (12 R299). -/
theorem newStrand_registers (i : Item) :
    let x := i.newStrand
    x.getG 0 = i.record.gidx.setWidth 64 ∧ x.getG 1 = BitVec.ofNat 64 (if i.record.gcb = 0 then 1 else i.total) ∧
    x.getG 2 = i.record.gcb ∧ (∀ n : BitVec 5, 2 < n.toNat → x.getG n = 0) ∧ x.pc = i.pc ∧ x.status.exec = i.record.exec := by
  intro x
  have vacant : ∀ n : BitVec 5, Slot.vacant.getG n = 0 := by decide
  refine ⟨?_, ?_, Slot.getG_setG_same _ _ _, fun n high => ?_, rfl, rfl⟩
  · exact (Slot.getG_setG_of_ne _ _ _ _ (by decide)).trans ((Slot.getG_setG_of_ne _ _ _ _ (by decide)).trans
      (Slot.getG_setG_same _ _ _))
  · exact (Slot.getG_setG_of_ne _ _ _ _ (by decide)).trans (Slot.getG_setG_same _ _ _)
  · have other {d : BitVec 5} (low : d.toNat ≤ 2) : n ≠ d := fun e => by rw [e] at high; omega
    exact (Slot.getG_setG_of_ne _ _ _ _ (other (by decide))).trans ((Slot.getG_setG_of_ne _ _ _ _ (other (by decide))).trans
      ((Slot.getG_setG_of_ne _ _ _ _ (other (by decide))).trans (vacant n)))

/-! ## Eviction, deferred launches, additions to host memory -/

theorem deferredLaunch_eq {pid : BitVec 12} {gcb : Word} {e : Known} {bs : List Byte} (first : s.deferred[k]? = some (pid, gcb))
    (known : s.knownOf pid gcb = some e) (answered : s.engineAwaits (groupId pid gcb) = false)
    (alive : (({ s with deferred := s.deferred.eraseIdx k } : State).job pid).causes = [])
    (read : ({ s with deferred := s.deferred.eraseIdx k } : State).vaGet 0 pid true gcb 64 = (.ok bs, s1)) :
    exec (.deferredLaunch k) s =
      match e.ending with
      | some n => .next (s1.releaseFrom pid gcb (addr57 (nthW (bytesWords bs 8) 5)) n (fld (nthW (bytesWords bs 8) 6) 47 32 - n))
      | none =>
        if blockState (bytesWords bs 8) = 4 then .next (if e.done then s1 else (s1.engineForget (groupId pid gcb)).completeGroup pid gcb)
        else if blockState (bytesWords bs 8) ≠ 2 then .next s1
        else .next (s1.deferredLaunch pid gcb (bytesWords bs 8) e.exec e.prio) := by
  show execDeferredLaunch k s = _
  simp only [execDeferredLaunch, first, known, answered, alive, read] <;> rfl

end Placement

theorem placementEvents : PlacementEvents := by
  refine ⟨fun s k i item free placed => ?_, fun s k core slot i item taken alive vacant => ?_, newStrand_registers,
    fun s n evictable => ?_, fun s s1 k pid gcb e bs first known answered => ?_, fun s s1 pid gcb b exec_ prio r check read => ?_,
    fun s a r queue => ?_⟩
  · intro c near
    refine ⟨fun away => ?_, fun close idle room n still first => itemHop_takes item free placed close idle room still first,
      fun ring due => ⟨fun grows => ringRadiusGrow_grows item free placed ring due grows, fun widest => ?_⟩⟩
    · have moves := itemHop_moves item free placed away
      exact ⟨fun first => moves.trans (congrArg Host.Outcome.next (if_pos first)),
        fun later => moves.trans (congrArg Host.Outcome.next (if_neg (by simp [later])))⟩
    · intro t j s1
      refine (overflowPark_parks item free placed ring due widest).trans (congrArg Host.Outcome.next ?_)
      show (match s1.coreInReach i with | some m => _ | none => _) = _
      cases s1.coreInReach i <;> rfl
  · have picks := pickup_eq item taken
    refine ⟨fun held => picks.trans (if_pos (by simp [held])), fun open_ => ?_⟩
    intro s1
    have reads := picks.trans (if_neg (by simp [alive, vacant, open_]))
    refine ⟨fun waits => reads.trans (if_pos waits), fun answered => ⟨fun full => ?_, fun room => ⟨fun elastic => ?_, fun fixed => ?_⟩⟩⟩
    · exact reads.trans ((if_neg (Bool.eq_false_iff.mp answered)).trans (if_pos (congrArg not full)))
    · exact reads.trans ((if_neg (Bool.eq_false_iff.mp answered)).trans
        ((if_neg (Bool.eq_false_iff.mp (congrArg not room))).trans (if_neg (Bool.eq_false_iff.mp elastic))))
    · intro s2
      refine reads.trans ((if_neg (Bool.eq_false_iff.mp answered)).trans
        ((if_neg (Bool.eq_false_iff.mp (congrArg not room))).trans ((if_pos fixed).trans ?_)))
      by_cases pinned : (s2.tile (tileOf core)).pinned = true
      · exact (if_pos pinned).trans (congrArg Host.Outcome.next (if_pos pinned).symm)
      · exact (if_neg pinned).trans (congrArg Host.Outcome.next (if_neg pinned).symm)
  · exact if_pos evictable
  · intro s0 b alive read
    have meaning := deferredLaunch_eq first known answered alive read
    refine ⟨fun open_ running => ?_, fun open_ cancelled => ?_, fun n ending => ?_⟩
    · rw [open_] at meaning
      exact meaning.trans ((if_neg (by rw [show blockState (bytesWords bs 8) = _ from running]; decide)).trans
        (if_neg (not_not.mpr running)))
    · rw [open_] at meaning
      exact meaning.trans (if_pos cancelled)
    · rw [ending] at meaning
      exact meaning
  · intro s2
    refine ⟨fun waits => ?_, fun c fails => ?_, fun bs copy => ?_⟩
    · subst waits
      simp only [State.deferredLaunch, check, read]
    · subst fails
      simp only [State.deferredLaunch, check, read]
      rfl
    · subst copy
      intro w t quad
      have launch : s.deferredLaunch pid gcb b exec_ prio = s2.deferredFromCopy pid gcb b exec_ prio true bs := by
        simp only [State.deferredLaunch, check, read]
        rfl
      rw [launch]
      refine ⟨fun bad => if_pos bad, fun good legal => ?_⟩
      exact (if_neg (Bool.eq_false_iff.mp good)).trans (if_neg (by simp [legal]))
  · intro n
    refine ⟨fun fresh => ?_, fun old read => ?_⟩
    · show execHostAddition s = _
      simp only [execHostAddition, queue, fresh]
      rfl
    · intro new
      show execHostAddition s = _
      simp only [execHostAddition, queue, read]
      rfl

/-! ## Cancels and pre-emption -/

section Cancel

variable {s : State} {n : Nat}

theorem cancelSweep_first {c : CancelReq} (first : s.cancels.find? (fun k => !k.swept) = some c) : exec .cancelSweep s =
    match s.sweepAsks c with
    | some t => .next t
    | none =>
      let s1 := (s.sweepCancel c).engineForget sweepId
      if c.level = 2 then .next { s1 with cancels := s1.cancels.erase c ++ [{ c with swept := true }] }
      else .next { s1 with cancels := s1.cancels.erase c } := by
  show execCancelSweep s = _
  simp only [execCancelSweep, first] <;> rfl

theorem cancelTrap_eq (occ : (s.slotAt n).occ = true) (cancelled : (s.slotAt n).bound.cancel = true)
    (outside : (s.slotAt n).status.trap = false) (now : s.cancelNow n = true) :
    exec (.cancelTrap n) s = .next (if s.leaveHeld n then s.sendBuffers n else s.trapCancel n) :=
  if_pos (by simp [occ, cancelled, outside, now])

theorem cancelStopTimeout_eq (occ : (s.slotAt n).occ = true) (alive : s.isFrozen (s.slotAt n).pid = false)
    (cancelled : (s.slotAt n).bound.cancel = true) (late : (s.slotAt n).bound.cancelAt + 80000 < s.ticks) :
    let s1 := (((s.leaveActions n).leaveWaits (s.slotAt n).sid).dropReservation (s.slotAt n).sid).countOnce n
    exec (.cancelStopTimeout n) s = .next ((s1.endRecord (slotQuad n) (s1.slotAt n) 5).vacate n) :=
  if_neg (by simp [occ, alive, cancelled, late])

theorem preemptDue_of (occ : (s.slotAt n).occ = true) (driven : (s.slotAt n).bound.preempt = true)
    (stays : (s.slotAt n).bound.cancel = false) (safe : s.atSafePoint n = true) (open_ : (s.core (n / 16)).hold = false) :
    s.preemptDue n = true := by
  simp [State.preemptDue, occ, driven, stays, safe, open_]

theorem preemptWriteback_eq (due : s.preemptDue n = true) : exec (.preemptWriteback n) s =
    if s.leaveHeld n then .next (s.sendBuffers n)
    else
      let x := s.slotAt n
      let s1 := s.modSlot n (fun y => { y with bound := { y.bound with preempt := false } })
      let full := !s.ftRoom (tileOf (n / 16)) x.pid
      .next (if !full && (match x.park with | some p => p.kept | none => false) then s1.writeBackStrand n 2
        else
          let t := ((if full then s1.leaveWaits x.sid else s1).modSlot n (fun y => { y with park := none })).writeBackStrand n 3
          match alGet t.away x.sid with
          | some y => t.enterItem y.record y.pc (coreRouter (n / 16)).1 (coreRouter (n / 16)).2 1 y.rmax
          | none => t) := by
  refine (if_neg (by simp [due])).trans ?_
  rfl

theorem prmto_eq (occ : (s.slotAt n).occ = true) (alive : s.isFrozen (s.slotAt n).pid = false)
    (outside : (s.slotAt n).status.trap = false) (stays : (s.slotAt n).bound.cancel = false)
    (first : (s.slotAt n).bound.prmto = false) (driven : (s.slotAt n).bound.preempt = true)
    (expired : s.prmtoDue (s.slotAt n).sid = true) (stepped : (s.slotAt n).stepDue = false) (busy : s.atSafePoint n = false) :
    exec (.prmto n) s =
      if (match (s.slotAt n).park with
          | some p => !s.parkAbandoned (s.slotAt n).sid p
          | none => !(s.slotAt n).acks.isEmpty) then
        .next ((s.modSlot n (fun y => { y with bound := { y.bound with preempt := false, prmto := true } })).resolve (s.slotAt n).sid)
      else .next ((s.prmtoNow n).resolve (s.slotAt n).sid) :=
  (if_neg (by simp [occ, alive, outside, stays, stepped])).trans ((if_neg (by simp [first])).trans
    ((if_neg (by simp [driven, expired, busy])).trans rfl))

end Cancel

theorem cancelAndPreemptEvents : CancelAndPreemptEvents := by
  refine ⟨fun s c => ⟨fun first => ⟨fun t asks => ?_, fun ready => ?_⟩, fun none_ ended => ?_⟩, fun s c r none_ far => ?_,
    fun s n => ?_⟩
  · rw [cancelSweep_first first, asks]
  · intro s1
    rw [cancelSweep_first first, ready]
    by_cases job : c.level = 2
    · simp only [if_pos job]
      rfl
    · simp only [if_neg job]
      rfl
  · show execCancelSweep s = _
    simp only [execCancelSweep, none_, ended]
  · show execCancelSweep s = _
    simp only [execCancelSweep, none_, far, List.find?_nil]
  · intro x occ
    refine ⟨fun cancelled outside now => cancelTrap_eq occ cancelled outside now,
      fun cancelled alive late => cancelStopTimeout_eq occ alive cancelled late, fun driven stays safe open_ => ?_,
      fun alive outside stays first driven expired stepped busy => ?_⟩
    · intro s1 room
      have meaning := preemptWriteback_eq (preemptDue_of occ driven stays safe open_)
      refine ⟨fun held => meaning.trans (if_pos held), fun free => ?_⟩
      have leaves := meaning.trans (if_neg (by simp [free]))
      have kept_ {f : Bool} (all : ∀ p, x.park = some p → p.kept = f) (parks : f = false ∨ x.park ≠ none) :
          (match x.park with | some p => p.kept | none => false) = f := by
        cases parked : x.park with
        | none => exact (parks.resolve_right (not_not.mpr parked)).symm
        | some p => exact all p parked
      refine ⟨fun tile p parked kept => leaves.trans (congrArg Host.Outcome.next (if_pos ?_)), fun again => ?_⟩
      · exact Bool.and_eq_true_iff.mpr ⟨congrArg not (congrArg not tile), kept_ (fun q hq => (Option.some.inj (hq.symm.trans parked)) ▸ kept)
          (.inr (by rw [parked]; exact nofun))⟩
      · intro s2 t y away
        refine leaves.trans (congrArg Host.Outcome.next ((if_neg (Bool.eq_false_iff.mp ?_)).trans ?_))
        · refine Bool.and_eq_false_iff.mpr ?_
          rcases again with full | unkept
          · exact .inl (congrArg not (congrArg not full))
          · exact .inr (kept_ unkept (.inl rfl))
        · have same : (if !s.ftRoom (tileOf (n / 16)) (s.slotAt n).pid then s1.leaveWaits (s.slotAt n).sid else s1) = s2 := by
            show _ = if s.ftRoom (tileOf (n / 16)) (s.slotAt n).pid then s1 else s1.leaveWaits (s.slotAt n).sid
            cases s.ftRoom (tileOf (n / 16)) (s.slotAt n).pid <;> rfl
          show (match alGet (((if !s.ftRoom (tileOf (n / 16)) (s.slotAt n).pid then s1.leaveWaits (s.slotAt n).sid else s1).modSlot n
            (fun y => { y with park := none })).writeBackStrand n 3).away x.sid with | some y => _ | none => _) = _
          rw [same, show alGet ((s2.modSlot n (fun y => { y with park := none })).writeBackStrand n 3).away x.sid = some y from away]
    · have meaning := prmto_eq occ alive outside stays first driven expired stepped busy
      refine ⟨fun idle => meaning.trans ((if_neg (Bool.eq_false_iff.mp ?_)).trans rfl), fun p parked fixed => meaning.trans (if_pos ?_)⟩
      · show (match x.park with | some p => !s.parkAbandoned x.sid p | none => !x.acks.isEmpty) = false
        rcases idle with ⟨parked, acks⟩ | ⟨p, parked, abandons⟩
        · rw [parked, acks]
          rfl
        · rw [parked]
          exact congrArg not abandons
      · show (match x.park with | some p => !s.parkAbandoned x.sid p | none => !x.acks.isEmpty) = true
        rw [parked]
        exact congrArg not fixed

/-- Settles O56. -/
theorem scheduling : Obligations.Scheduling := ⟨placementEvents, cancelAndPreemptEvents⟩

end Sys2Proof.Proofs

namespace Sys2Proof.Proofs

/-!
Messages, handlers and rollbacks (13 R316, R320 to R323, R325 to R329, R336), and the vanishing point with its registrations
(13 R315, R331 to R333, R338; 14 R356).
-/

open Sys2Proof.Machine Sys2Proof.Claim

section

variable {s : State} {a : BitVec 5} {h : BitVec 2} {pid : BitVec 12} {m : Msg} {k : Nat}

/-! ## The message instructions -/

/-- A send that passes its checks, up to its log entry. -/
theorem msend_eq (ready : Ready s Need.access) (calm : Calm s) :
    let ga := s.hart.getG a
    let m0 := Msg.ofLine s.hart.pid false (bytesV (s.localRead ga.toNat 256))
    let m := s.fillMsg m0
    ga.toNat % 256 = 0 → ga.toNat ≤ 0x3FF00 → (s.job s.hart.pid).vjb ≠ none →
    s.lineBad (bytesV (s.localRead ga.toNat 256)) m0 = false → s.sendPast m0 = false →
    exec (.msend a h) s =
      s.logThen h (if s.hart.record.opt then [.send m.dest m.seq m.inc m.vrt] else []) (fun s2 =>
        ((s2.releaseActions s2.hid 1).sendMsg m).done h (fun x =>
          if x.record.opt then { x with lp := { x.lp with lpseq := x.lp.lpseq + 1 } } else x)) := by
  intro ga m0 m aligned low block good future
  refine (issue_of_ready ready _).trans ((if_neg (not_not.mpr aligned)).trans ((if_neg low.not_gt).trans ?_))
  refine (if_neg (by simpa using block)).trans ((if_neg (Bool.eq_false_iff.mp good)).trans
    ((if_neg (Bool.eq_false_iff.mp future)).trans ?_))
  rw [beforeAccess_of_calm calm]

theorem mrecv_eq (ready : Ready s Need.any) (lp : s.hart.record.opt = true) :
    let s1 := if s.hart.lp.inh then s.endHandler else s.beforeAccess false
    exec (.mrecv h) s = .next ((s1.parkAt h .mrecv).tryRecv s1.hart.sid) :=
  (issue_of_ready ready _).trans (if_neg (by simp [lp]))

/-- The receive of a waiting process, by whether a message may be taken. -/
theorem tryRecv_waiting {sid : Nat} {x : Slot} (strand : s.strandOf sid = some x) (waits : x.park = some .mrecv)
    (due : ((s.job x.pid).lp x.lp.lpid.toNat).due = none) :
    s.tryRecv sid = match s.recvReady x with
      | none => s
      | some q =>
        if s.logFits x [.ckpt (x.checkpoint q.msg)] 0 then
          ((s.logPush x [.ckpt (x.checkpoint q.msg)]).modLp x.pid x.lp.lpid.toNat (fun p => p.mark q.msg.key true)).wake sid
            (unitRouter x.lp.lpid) (fun y => y.beginHandler q.msg (s.poolAddr x.pid q.line))
        else if s.logWait x.pid then s.modStrand sid (fun y => { y with park := some (.logRoom 512) })
        else s.wakeFault sid (unitRouter x.lp.lpid) .logfull 0 := by
  unfold State.tryRecv
  simp only [strand]
  exact if_neg (by simp [waits, due])

theorem beginHandler_regs (x : Slot) (m : Msg) (at_ : Word) :
    let y := x.beginHandler m at_
    y.lp.lvt = m.vrt ∧ y.lp.inh = true ∧ y.getG 20 = at_ ∧ y.getG 21 = m.vrt ∧
    y.getG 22 = packFields [(m.size.toNat, 48), (m.sel.toNat, 32), (m.sender.toNat, 0)] ∧
    (∀ n : BitVec 5, n ≠ 20 → n ≠ 21 → n ≠ 22 → y.getG n = x.getG n) := by
  refine ⟨rfl, rfl, ?_, ?_, ?_, fun n n20 n21 n22 => ?_⟩
  · rw [Slot.beginHandler, Slot.getG_setG_of_ne _ 22 20 _ (by decide), Slot.getG_setG_of_ne _ 21 20 _ (by decide),
      Slot.getG_setG_same]
  · rw [Slot.beginHandler, Slot.getG_setG_of_ne _ 22 21 _ (by decide), Slot.getG_setG_same]
  · rw [Slot.beginHandler, Slot.getG_setG_same]
  · rw [Slot.beginHandler, Slot.getG_setG_of_ne _ _ _ _ n22, Slot.getG_setG_of_ne _ _ _ _ n21, Slot.getG_setG_of_ne _ _ _ _ n20]
    rfl

/-- An action that passes its checks, up to its log entry. -/
theorem varn_eq (ready : Ready s Need.access) (handler : s.hart.inHandler = true) (calm : Calm s) :
    let ga := s.hart.getG a
    let w := bytesWords (s.localRead ga.toNat 32) 4
    ga.toNat % 32 = 0 → ga.toNat < 0x40000 → actionBad w = false →
    let x := s.hart
    let id_ := x.lp.lpid.toNat
    let act : Action :=
      { d0 := nthW w 0, a := nthW w 1, b := nthW w 2, vtime := x.lp.lvt, lp := x.lp.lpid,
        idx := ((s.job x.pid).lp id_).nvarn, prio := x.record.prio }
    exec (.varn a h) s = s.logThen h [.varn act] (fun s2 =>
      (((s2.releaseActions s2.hid 1).modLp x.pid id_ (fun p => { p with nvarn := p.nvarn + 1 })).modJob x.pid (fun j =>
        { j with varnish := j.varnish ++ [act] })).done h (fun y => y)) := by
  intro ga w aligned low good x id_ act
  refine (issue_of_ready ready _).trans ((if_neg (by simp [handler])).trans ((if_neg (not_not.mpr aligned)).trans ?_))
  refine (if_neg low.not_ge).trans ((if_neg (Bool.eq_false_iff.mp good)).trans ?_)
  rw [beforeAccess_of_calm calm]

end

/-- Settles O21. -/
theorem messageInstructions : Obligations.MessageInstructions := by
  refine ⟨fun s a h ready calm => ?_, fun s h ready lp => mrecv_eq ready lp, fun s sid x strand waits due => ⟨?_, ?_⟩,
    beginHandler_regs, fun s h ready handler => ?_, fun s a h ready handler calm => ?_⟩
  · intro ga m0 m aligned low block good future
    have meaning := msend_eq (a := a) (h := h) ready calm aligned low block good future
    refine ⟨fun plain => ?_, fun lp => ?_⟩
    · rw [plain] at meaning
      exact meaning
    · intro e fits
      rw [lp, if_pos rfl] at meaning
      exact meaning.trans ((logThenFar_some (List.cons_ne_nil _ _) _).trans (if_pos fits))
  · intro nothing
    rw [tryRecv_waiting strand waits due, nothing]
  · intro q ready fits
    rw [tryRecv_waiting strand waits due, ready]
    exact if_pos fits
  · exact (issue_of_ready ready _).trans (if_neg (by simp [handler]))
  · intro ga w aligned low good x id_ act fits s2
    exact (varn_eq ready handler calm aligned low good).trans ((logThenFar_some (List.cons_ne_nil _ _) _).trans (if_pos fits))

section

variable {s : State} {pid : BitVec 12} {m : Msg} {k : Nat}

/-! ## Arrival -/

theorem messageArrive_reset (there : s.transit[k]? = some m) (reset : (s.job m.pid).unitsReset = true) :
    exec (.messageArrive k) s = .next ((s.dropTransit k).dropRequest m) := by
  show execMessageArrive k s = _
  simp only [execMessageArrive, there]
  exact if_pos reset

theorem antiMessageArrive_reset (there : s.transit[k]? = some m) (reset : (s.job m.pid).unitsReset = true) :
    exec (.antiMessageArrive k) s = .next ((s.dropTransit k).dropRequest m) := by
  show execAntiMessageArrive k s = _
  simp only [execAntiMessageArrive, there]
  exact if_pos reset

/-- A message of a running context that reaches a process of this device. -/
theorem messageArrive_here (there : s.transit[k]? = some m) (kept : (s.job m.pid).unitsReset = false)
    (block : (s.job m.pid).vjb ≠ none) (here : s.lpDevice m.pid m.dest = none) (positive : m.anti = false) :
    exec (.messageArrive k) s =
      if ((s.job m.pid).lp m.dest.toNat).state = .exited then
        .next (((s.dropTransit k).modJob m.pid (fun j => j.countReceived m)).deadLetter m)
      else if ((s.job m.pid).lp m.dest.toNat).antis.any (fun a => a.twin m) then
        .next ((s.dropTransit k).modJob m.pid (fun j =>
          (j.countReceived m).modLp m.dest.toNat (fun p => { p with antis := p.antis.filter (fun a => !a.twin m) })))
      else .next (s.enterQueue k m) := by
  show execMessageArrive k s = _
  simp only [execMessageArrive, there]
  refine (if_neg (Bool.eq_false_iff.mp kept)).trans ((if_neg ?_).trans (if_neg ?_))
  · simpa [positive] using block
  · simp [here]

/-- An anti-message of a running context that reaches a process of this device. -/
theorem antiMessageArrive_here (there : s.transit[k]? = some m) (kept : (s.job m.pid).unitsReset = false)
    (block : (s.job m.pid).vjb ≠ none) (here : s.lpDevice m.pid m.dest = none) (anti : m.anti = true) :
    let s1 := (s.dropTransit k).modJob m.pid (fun j => j.countReceived m)
    let p := (s1.job m.pid).lp m.dest.toNat
    exec (.antiMessageArrive k) s =
      if p.state = .exited then .next (s1.deadLetter m)
      else
        match p.queue.find? (fun q => q.msg.twin m) with
        | none => .next (s1.modLp m.pid m.dest.toNat (fun p => { p with antis := p.antis ++ [m] }))
        | some q =>
          if q.processed then
            .next (s1.modLp m.pid m.dest.toNat (fun p => ({ p with antis := p.antis ++ [m] } : Lp).trigger q.msg))
          else
            .next (s1.modJob m.pid (fun j =>
              (j.modLp m.dest.toNat (fun p => { p with queue := p.queue.filter (fun r => r.line ≠ q.line) })).freeLines
                [q.line])) := by
  intro s1 p
  show execAntiMessageArrive k s = _
  simp only [execAntiMessageArrive, there]
  refine (if_neg (Bool.eq_false_iff.mp kept)).trans ((if_neg ?_).trans (if_neg ?_))
  · simpa [anti] using block
  · simp [here]

theorem msgfull_due {t : Nat} (full : (s.job pid).fullAt = some t) (unsaid : (s.job pid).fullEvt = false)
    (long : t + 2000000 ≤ s.ticks) :
    exec (.msgfull pid) s = .next ((s.setJob pid { s.job pid with fullEvt := true }).execEvent 0 0x09 pid.toNat pid) := by
  show execMsgfull pid s = _
  simp only [execMsgfull, full]
  exact if_pos (by simp [unsaid, long])

end

theorem messageEvents : MessageEvents := by
  refine ⟨fun s k m there reset => ?_, fun s k m there kept block here => ?_,
    fun s pid t full unsaid long => msgfull_due full unsaid long⟩
  · intro t
    exact ⟨messageArrive_reset there reset, antiMessageArrive_reset there reset⟩
  · intro p held
    refine ⟨fun positive => ?_, fun anti => ?_⟩
    · have meaning := messageArrive_here there kept block here positive
      refine ⟨fun exited => ?_, fun stays twin => ?_, fun stays alone => ?_⟩
      · exact meaning.trans (if_pos exited)
      · exact meaning.trans ((if_neg stays).trans (if_pos twin))
      · exact meaning.trans ((if_neg stays).trans (if_neg (Bool.eq_false_iff.mp alone)))
    · intro s1 r
      have meaning := antiMessageArrive_here there kept block here anti
      refine ⟨fun exited => ?_, fun stays alone => ?_, fun stays q twin => ⟨fun done => ?_, fun waits => ?_⟩⟩
      · exact meaning.trans (if_pos exited)
      · refine meaning.trans ((if_neg stays).trans ?_)
        simp only [show (((s.dropTransit k).modJob m.pid (fun j => j.countReceived m)).job m.pid |>.lp m.dest.toNat).queue.find?
          (fun q => q.msg.twin m) = none from alone]
        rfl
      · refine meaning.trans ((if_neg stays).trans ?_)
        simp only [show (((s.dropTransit k).modJob m.pid (fun j => j.countReceived m)).job m.pid |>.lp m.dest.toNat).queue.find?
          (fun q => q.msg.twin m) = some q from twin]
        exact if_pos done
      · refine meaning.trans ((if_neg stays).trans ?_)
        simp only [show (((s.dropTransit k).modJob m.pid (fun j => j.countReceived m)).job m.pid |>.lp m.dest.toNat).queue.find?
          (fun q => q.msg.twin m) = some q from twin]
        exact if_neg (Bool.eq_false_iff.mp waits)

/-! ## Rollback -/

theorem rollback : Rollback := by
  intro s pid lp v d q c x0 t p ready due strand s1 x u
  have meaning : exec (.rollback pid lp) s =
      match targetOf u.1 with
      | none => .next (s1.modLp pid lp.toNat (fun p => { p with due := none }))
      | some t =>
        let s2 := u.1.foldl (fun (k : State) e => k.undoEntry x t.lvt e) s1
        let s3 := s2.modLp pid lp.toNat (fun p =>
          { p with log := u.2, due := none, state := if p.state = .exitp then .live else p.state })
        let s4 := s3.modStrand p.strand (fun y => y.restore t)
        let s5 := if x.lp.held.isSome then s4.note 0x0B pid (lp.setWidth 64) t.lvt else s4
        .next ((s5.modJob pid (fun j => j.settleAntis lp.toNat)).rollbackEnter x) := by
    show execRollback pid lp s = _
    unfold execRollback
    refine (if_neg (by simp [ready])).trans ?_
    simp only [show ((s.job pid).lp lp.toNat).due = _ from due, show s.strandOf ((s.job pid).lp lp.toNat).strand = _ from strand]
    rfl
  refine ⟨fun nothing => ?_, fun target => ?_⟩
  · rw [meaning, nothing]
  · intro s3 s4 s5
    refine ⟨?_, fun y => ⟨rfl, rfl, rfl, rfl, rfl, rfl, rfl⟩⟩
    rw [meaning, target]

/-- Settles O57. -/
theorem messagesArriveAndRollBack : Obligations.MessagesArriveAndRollBack := ⟨messageEvents, rollback⟩

end Sys2Proof.Proofs

namespace Sys2Proof.Proofs

/-!
The rounds of the vanishing point, the varnish stage, and the registrations of a job block and of a frame pool (13 R315, R331
to R333, R338; 14 R356).
-/

open Sys2Proof.Machine Sys2Proof.Claim

section

variable {s s1 : State} {pid : BitVec 12} {a : Action}

/-! ## Rounds -/

/-- The job of a device round: as it stands in a round, else with the other colour (13 R332). -/
abbrev roundJob (j : Job) : Job := if j.round then j else { j with round := true, colour := !j.colour, mred := none }

theorem vpRound_eq (block : (s.job pid).vjb ≠ none) :
    let j := roundJob (s.job pid)
    let s1 := s.setJob pid j
    let g := s1.localMin pid true
    let low := s1.localMin pid false
    let s2 := s1.setJob pid
      { j with gmin := BitVec.ofNat 64 g, gfree := BitVec.ofNat 64 low, gsum := colourLeft j.fsent j.frecvd (!j.fcolour),
               fround := if j.fround = 1 then 2 else j.fround }
    exec (.vpRound pid) s =
      if colourLeft j.sent j.recvd (!j.colour) ≠ 0 then .next s1
      else .next ((if addr57 (s2.vjbWord pid 12) = 0 then s2.publish pid g low else s2).modJob pid (fun k =>
        { k with round := false, mred := none })) :=
  if_neg (by simpa using block)

theorem vpRoundAbandon_eq (round : (s.job pid).round = true) : exec (.vpRoundAbandon pid) s = .next (s.note 0x08 pid 0 0) :=
  if_pos round

/-- A fabric round of a job whose block names other devices. -/
theorem fabricVpRound_eq {om free : BitVec 64} {sum : Int} (block : (s.job pid).vjb ≠ none) (map : addr57 (s.vjbWord pid 12) ≠ 0) :
    exec (.fabricVpRound pid (om, free) sum) s =
      match (s.job pid).fround with
      | 0 => .next (s.setJob pid { s.job pid with fround := 1, fcolour := !(s.job pid).fcolour, fmred := none })
      | 2 =>
        match (if s.changing then none else s.vpTree pid) with
        | none => .next s
        | some e =>
          if sum + (s.job pid).gsum ≠ 0 then .next ((s.vpSend e).setJob pid { s.job pid with fround := 3 })
          else
            let red := match (s.job pid).fmred with | some m => m.toNat | none => 2 ^ 64 - 1
            .next (((s.vpSend e).setJob pid { s.job pid with fround := 0, fmred := none }).publish pid
              (Nat.min (Nat.min (s.job pid).gmin.toNat red) om.toNat) (Nat.min (Nat.min (s.job pid).gfree.toNat red) free.toNat))
      | _ => .next s := by
  show execFabricVpRound pid (om, free) sum s = _
  unfold execFabricVpRound
  exact if_neg (by simpa using And.intro block map)

/-! ## The varnish stage -/

/-- The job queue without the action that the stage takes, the template of a launch asked for. -/
abbrev varnTaken (s : State) (pid : BitVec 12) (a : Action) : State :=
  if actKind a.d0 = 2 then (s.modJob pid (fun j => { j with varnish := j.varnish.erase a })).engineAsk varnId 0 pid false a.a 64
  else s.modJob pid (fun j => { j with varnish := j.varnish.erase a })

theorem varnishPerform_take (idle : s.varnNow = none) (first : s.varnNext = some (pid, a)) :
    exec .varnishPerform s =
      if (varnTaken s pid a).varnWaits then .next { varnTaken s pid a with varnNow := some (pid, a, false) }
      else .next ((varnTaken s pid a).varnGo pid a) := by
  show execVarnishPerform s = _
  simp only [execVarnishPerform, idle, first]

theorem varnishPerform_under_way {ending : Bool} (busy : s.varnNow = some (pid, a, ending)) (free : s.varnWaits = false) :
    exec .varnishPerform s =
      if ending then .next (s.varnEnd pid a)
      else if (s.job pid).causes.isEmpty then .next (s.varnGo pid a)
      else .next s.varnFree := by
  show execVarnishPerform s = _
  simp only [execVarnishPerform, busy]
  exact if_neg (Bool.eq_false_iff.mp free)

theorem varnGo_waits (full : s.varnPerform pid a = none) : s.varnGo pid a = { s with varnNow := some (pid, a, false) } := by
  rw [State.varnGo, full]

theorem varnGo_ok (done : s.varnPerform pid a = some (.ok s1)) :
    s.varnGo pid a = if s1.varnWaits then { s1 with varnNow := some (pid, a, true) } else s1.varnFree := by
  rw [State.varnGo, done]

theorem varnGo_error {c : Cause} (failed : s.varnPerform pid a = some (.error c)) :
    s.varnGo pid a = s.varnFree.varnFail pid (actKind a.d0) a.a (failStatus c) := by
  rw [State.varnGo, failed]

/-! ## Registrations -/

theorem fld_lt_pow (v : Word) (hi lo : Nat) : fld v hi lo < 2 ^ (hi + 1 - lo) := by
  unfold fld
  exact Nat.mod_lt _ (by positivity)

/-- The block's address is 0 exactly where its field is. -/
theorem vjbAddr_eq_zero_iff (v : Word) : BitVec.ofNat 64 (128 * fld v 51 2) = 0 ↔ fld v 51 2 = 0 := by
  have small : fld v 51 2 < 2 ^ 50 := fld_lt_pow v 51 2
  rw [← BitVec.toNat_inj, BitVec.toNat_ofNat]
  generalize fld v 51 2 = n at *
  show 128 * n % 2 ^ 64 = 0 ↔ _
  omega

end

/-- Settles O22. -/
theorem vanishingPoint : Obligations.VanishingPoint := by
  refine ⟨fun s pid block => ?_, fun s pid round => vpRoundAbandon_eq round, fun s pid om free sum block map => ?_,
    fun s pid a idle first => ?_, fun s pid a busy free => ⟨fun runs => ?_, fun stopped => ?_⟩,
    fun s pid a busy free => ⟨fun good => ?_, fun w failed => ?_⟩, fun s v => ?_⟩
  · intro j0 j s1 g low s2
    refine ⟨fun open_ => ?_, fun balanced alone => ?_, fun balanced more => ?_⟩
    · exact (vpRound_eq block).trans (if_pos open_)
    · refine (vpRound_eq block).trans ((if_neg (not_not.mpr balanced)).trans ?_)
      exact congrArg (fun t => Host.Outcome.next (State.modJob t pid _)) (if_pos alone)
    · refine (vpRound_eq block).trans ((if_neg (not_not.mpr balanced)).trans ?_)
      exact congrArg (fun t => Host.Outcome.next (State.modJob t pid _)) (if_neg more)
  · intro j
    have meaning := fabricVpRound_eq (om := om) (free := free) (sum := sum) block map
    refine ⟨fun start => ?_, fun joined still e tree => ?_, fun again => if_pos again⟩
    · rw [show (s.job pid).fround = 0 from start] at meaning
      exact meaning
    · rw [show (s.job pid).fround = 2 from joined, still, if_neg Bool.false_ne_true, tree] at meaning
      intro s0 red
      exact ⟨fun open_ => meaning.trans (if_pos open_), fun balanced => meaning.trans (if_neg (not_not.mpr balanced))⟩
  · intro s0 s1
    have meaning := varnishPerform_take idle first
    refine ⟨fun waits => meaning.trans (if_pos waits), fun free => ?_⟩
    replace meaning := meaning.trans (if_neg (Bool.eq_false_iff.mp free))
    exact ⟨fun full => meaning.trans (congrArg _ (varnGo_waits full)), fun s2 done => meaning.trans (congrArg _ (varnGo_ok done)),
      fun c failed => meaning.trans (congrArg _ (varnGo_error failed))⟩
  · exact (varnishPerform_under_way busy free).trans ((if_neg Bool.false_ne_true).trans (if_pos (by simp [runs])))
  · exact (varnishPerform_under_way busy free).trans ((if_neg Bool.false_ne_true).trans (if_neg (by simp [stopped])))
  · refine (varnishPerform_under_way busy free).trans ((if_pos rfl).trans (congrArg _ ?_))
    rw [State.varnEnd, good]
  · refine (varnishPerform_under_way busy free).trans ((if_pos rfl).trans (congrArg _ ?_))
    rw [State.varnEnd, failed]
  · intro pid
    refine ⟨fun zero => ?_, fun block => ?_, fun zero => ?_, ?_⟩
    · exact congrArg _ (if_pos ((vjbAddr_eq_zero_iff v).mpr zero))
    · exact congrArg _ (if_neg (mt (vjbAddr_eq_zero_iff v).mp block))
    · exact congrArg _ (if_pos (by rw [zero]))
    · intro pa pool few hbm good
      have block : ¬ 64 * fld v 51 6 = 0 := by omega
      refine congrArg _ ((if_neg block).trans (if_neg ?_))
      simp only [show s.region (64 * fld v 51 6) = _ from hbm, show s.poolBad (64 * fld v 51 6) = false from good, ne_eq,
        not_true_eq_false, decide_false, Bool.or_false, decide_eq_true_eq]
      exact few.not_ge

end Sys2Proof.Proofs

namespace Sys2Proof.Proofs

/-!
`coll` and `cstat`, and the events of a collective: start checks, joining, transfers, the completion wave, and the restart
under a new link table (14 R368 to R371, 19 R431).
-/

open Sys2Proof.Machine Sys2Proof.Claim

section

variable {s : State} {d a : BitVec 5} {h : BitVec 2} {cid : BitVec 16} {c : Coll}

/-! ## `coll` and `cstat` -/

theorem mem_alSet {α : Type} {l : List (Nat × α)} {k : Nat} {v : α} {e : Nat × α} (there : e ∈ alSet l k v) :
    e = (k, v) ∨ e ∈ l := by
  induction l with
  | nil => exact .inl (List.mem_singleton.mp there)
  | cons b r ih =>
    rw [alSet] at there
    split at there
    · rcases List.mem_cons.mp there with same | old
      · exact .inl same
      · exact .inr old
    · split at there
      · rcases List.mem_cons.mp there with same | old
        · exact .inl same
        · exact .inr (List.mem_cons_of_mem _ old)
      · rcases List.mem_cons.mp there with same | old
        · exact .inr (same ▸ List.mem_cons_self)
        · exact (ih old).imp_right (List.mem_cons_of_mem _)

theorem self_mem_alSet {α : Type} (l : List (Nat × α)) (k : Nat) (v : α) : (k, v) ∈ alSet l k v := by
  induction l with
  | nil => exact List.mem_singleton_self _
  | cons b r ih =>
    rw [alSet]
    split
    · exact List.mem_cons_self
    · split
      · exact List.mem_cons_self
      · exact List.mem_cons_of_mem _ ih

/-- Where the executing strand alone is parked as a test selects, it has been parked longest. -/
theorem oldestParked_hart {sel : Park → Bool} {p : Park} (occ : s.hart.occ = true) (park : s.hart.park = some p) (ours : sel p = true)
    (others : ∀ e ∈ s.others, ∀ q, e.2.park = some q → sel q = false) : s.oldestParked sel = some (s.hid, s.hart) := by
  have only : ∀ e ∈ s.occSlots.filter (fun e => match e.2.park with | some p => sel p | none => false), e = (s.hid, s.hart) := by
    intro e there
    obtain ⟨here, selected⟩ := List.mem_filter.mp there
    rcases mem_alSet (List.mem_filter.mp here).1 with same | other
    · exact same
    · split at selected
      · next q at_ => rw [others e other q at_] at selected; exact absurd selected Bool.false_ne_true
      · exact absurd selected Bool.false_ne_true
  have there : (s.hid, s.hart) ∈ s.occSlots.filter (fun e => match e.2.park with | some p => sel p | none => false) :=
    List.mem_filter.mpr ⟨List.mem_filter.mpr ⟨self_mem_alSet _ _ _, occ⟩, by simp only [park, ours]⟩
  unfold State.oldestParked
  generalize s.occSlots.filter (fun e => match e.2.park with | some p => sel p | none => false) = l at *
  have same : l = List.replicate l.length (s.hid, s.hart) := List.eq_replicate_of_mem only
  rw [same]
  cases hl : l.length with
  | zero => rw [List.length_eq_zero_iff.mp hl] at there; exact absurd there List.not_mem_nil
  | succ n =>
    rw [List.replicate_succ, List.foldl_cons]
    clear hl same there only
    induction n with
    | zero => rfl
    | succ n ih =>
      rw [List.replicate_succ, List.foldl_cons]
      simpa using ih

/-- The collective that a strand parked with its descriptor hands to the engine. -/
def queuedColl (x : Slot) (d0 d1 d2 d3 : Word) : Coll :=
  { strand := x.sid, pid := x.pid, exec := x.status.exec, d0 := d0, d1 := d1, d2 := d2, d3 := d3, state := 1,
    status := 0, cancel := false, members := [], trees := [], restarts := 0, version := 0, marks := [], asked := 0,
    granted := 0, flags := 0, inbox := [], outbox := [] }

/-- Where the executing strand alone waits with a descriptor, the engine takes its collective. -/
theorem collRoom_hart {d0 d1 d2 d3 : Word} (occ : s.hart.occ = true) (park : s.hart.park = some (.collQueue d0 d1 d2 d3))
    (others : ∀ e ∈ s.others, ∀ d0 d1 d2 d3, e.2.park ≠ some (.collQueue d0 d1 d2 d3)) :
    s.collRoom.collQ = s.collQ ++ [queuedColl s.hart d0 d1 d2 d3] ∧ s.collRoom.hart = s.hart.finish 4 s.hart.parkSh := by
  unfold State.collRoom
  rw [oldestParked_hart occ park ?ours ?others]
  case ours => rfl
  case others =>
    intro e other q at_
    split
    · next d0 d1 d2 d3 => exact absurd at_ (others e other d0 d1 d2 d3)
    · rfl
  simp only [park]
  refine ⟨?_, ?_⟩ <;> simp only [State.modSlot, State.setSlot, State.slotAt, if_true, queuedColl]

theorem coll_eq (ready : Ready s Need.access) :
    let ga := (s.hart.getG a).toNat
    let s1 := (s.beforeAccess true).releaseActions s.hid 1
    let w := bytesWords (s1.localRead ga 32) 4
    ga % 32 = 0 → ga ≤ 0x3FFE0 → s1.collFree = true →
    exec (.coll a h) s = .next (s1.parkAt h (.collQueue (nthW w 0) (nthW w 1) (nthW w 2) (nthW w 3))).collRoom := by
  intro ga s1 w aligned low free
  exact (issue_of_ready ready _).trans ((if_neg (not_not.mpr aligned)).trans ((if_neg low.not_gt).trans (if_pos free)))

/-- What `cstat` shows of a CID: the collective that runs or has ended, else one in the queue, else 0. -/
def cidWord (s : State) (n : Nat) : Word :=
  match s.coll n with
  | some c => c.word
  | none => match s.collQ.find? (fun c => decide (c.cid = n)) with | some c => c.word | none => 0

theorem cstat_eq (ready : Ready s Need.access) (small : (s.hart.getG a).toNat < 2 ^ 16) :
    CompletesFrom s (.cstat d a h) (s.beforeAccess false) 4 h (fun x => x.setG d (cidWord s (s.hart.getG a).toNat)) := by
  have high : fld (s.hart.getG a) 63 16 = 0 := by
    unfold fld
    rw [Nat.div_eq_of_lt small]
    rfl
  have low : fld (s.hart.getG a) 15 0 = (s.hart.getG a).toNat := by
    unfold fld
    rw [pow_zero, Nat.div_one, Nat.mod_eq_of_lt small]
  refine (issue_of_ready ready _).trans ((if_neg (not_not.mpr high)).trans ?_)
  rw [low]
  rfl

end

theorem collectiveInstructions : CollectiveInstructions := by
  intro s d a h ready ga s1 w
  refine ⟨fun aligned low free occ alone => ?_, fun small => cstat_eq ready small⟩
  have taken := collRoom_hart (s := s1.parkAt h (.collQueue (nthW w 0) (nthW w 1) (nthW w 2) (nthW w 3))) occ rfl alone
  exact ⟨_, _, coll_eq ready aligned low free, taken.1, taken.2, rfl, rfl, rfl⟩

section

variable {s t : State} {cid : BitVec 16} {c : Coll}

/-! ## Start checks -/

/-- A collective whose start checks are made leaves the queue, and its reading of the member table is over. -/
abbrev collTaken (t : State) (c : Coll) : State :=
  { t.remoteEnd (fun q => decide (q.strand = tableId c.cid)) with collQ := t.collQ.erase c }

theorem collStart_waits (first : s.collQ.find? (fun c => decide (c.cid = cid.toNat)) = some c)
    (check : s.collCheck c = (none, t)) : exec (.collStart cid) s = .next t := by
  show execCollStart cid s = _
  simp only [execCollStart, first, check]

theorem collStart_ok {m : List Nat} (first : s.collQ.find? (fun c => decide (c.cid = cid.toNat)) = some c)
    (check : s.collCheck c = (some (.ok m), t)) : exec (.collStart cid) s =
      .next ((collTaken t c).setColl c.cid { c with members := m, marks := List.replicate c.chunks 0 }) := by
  show execCollStart cid s = _
  simp only [execCollStart, first, check]

theorem collStart_error {st : Nat} (first : s.collQ.find? (fun c => decide (c.cid = cid.toNat)) = some c)
    (check : s.collCheck c = (some (.error st), t)) (fresh : (collTaken t c).coll c.cid = none) (free : st ≠ 16) :
    exec (.collStart cid) s = .next ((collTaken t c).collEnd c st true) := by
  show execCollStart cid s = _
  simp only [execCollStart, first, check, fresh, free, ne_eq, not_false_eq_true, decide_true, Bool.true_and]

theorem collCheck_early {st : Nat} (early : s.collEarly c = some st) : s.collCheck c = (some (.error st), s) := by
  rw [State.collCheck, early]

theorem collEarly_cancelled (cancel : c.cancel = true) : s.collEarly c = some 7 := if_pos cancel

theorem collEarly_bad (kept : c.cancel = false) (bad : c.bad = true) : s.collEarly c = some 10 :=
  (if_neg (Bool.eq_false_iff.mp kept)).trans (if_pos bad)

/-- A good collective of a fresh CID is checked by its member table. -/
theorem collCheck_fresh (kept : c.cancel = false) (good : c.bad = false) (fresh : s.coll c.cid = none) :
    s.collCheck c =
      match s.memberTable c with
      | (.error _, t) => (some (.error 2), t)
      | (.ok none, t) => (none, t)
      | (.ok (some none), t) => (some (.error 10), t)
      | (.ok (some (some m)), t) => (some (if t.collForeign c then .error 4 else if !t.collHolds c then .error 3 else .ok m), t) := by
  have early : s.collEarly c = none := by
    unfold State.collEarly
    rw [if_neg (Bool.eq_false_iff.mp kept), if_neg (Bool.eq_false_iff.mp good), fresh]
    rfl
  rw [State.collCheck, early] <;> rfl

/-! ## Joining and transfers -/

section

variable (here : s.coll cid.toNat = some c) (still : s.changing = false) (kept : c.cancel = false)

include here still kept in
theorem collJoined_eq (equal : Bool) (joins : c.state = 1) : exec (.collJoined cid equal) s =
    if !equal then .next (s.collEnd c 13 true)
    else if (s.buildTrees c [] 0 c.kmax).isEmpty then .next (s.collEnd c 17 true)
    else .next ((s.setColl c.cid
      { c with state := 2, trees := s.buildTrees c [] 0 c.kmax, version := s.agreed, inbox := c.current s.agreed }).collGo c.cid) := by
  show execCollJoined cid equal s = _
  unfold execCollJoined
  rw [here]
  exact (if_neg (by simp [joins, still])).trans (if_neg (Bool.eq_false_iff.mp kept))

include here still in
theorem chunkReceive_eq {x : ChunkXfer} (agreed : x.version = s.agreed) : exec (.chunkReceive cid x) s =
    if decide (c.state = 4) || (c.got x.chunk x.pass x.down x.dev.toNat).isSome then .next (s.inject x.dev.toNat 0)
    else .next (((s.inject x.dev.toNat 0).setColl c.cid { c with inbox := c.inbox ++ [x] }).collRun c.cid) := by
  show execChunkReceive cid x s = _
  unfold execChunkReceive
  rw [here]
  exact if_neg (by simp [agreed, still])

include here still in
theorem chunkAckReceive_eq {n : Nat} {dev : BitVec 11} {q : Nat × ChunkXfer}
    (sent : c.outbox.find? (fun e => decide (e.1 = dev.toNat) && decide (e.2.chunk = n)) = some q) :
    exec (.chunkAckReceive cid n dev c.version) s =
      .next (s.setColl c.cid
        (if !q.2.down && decide (q.2.pass = c.lastPass) then Coll.raise { c with outbox := c.outbox.erase q } n 1
         else { c with outbox := c.outbox.erase q })) := by
  show execChunkAckReceive cid n dev c.version s = _
  unfold execChunkAckReceive
  rw [here]
  refine (if_neg (by simp [still])).trans ?_
  rw [sent]

/-! ## The completion wave -/

include here kept in
theorem completionWave_none : exec (.completionWave (cid, none)) s = .next (s.waveGo c.cid) := by
  show execCompletionWave (cid, none) s = _
  unfold execCompletionWave
  rw [here]
  exact if_neg (by simp [kept])

theorem wavePassed_running (runs : c.state = 2) : s.wavePassed c = s.collEnd { c with marks := c.marks.map (fun _ => 3) } 0 true := by
  rw [State.wavePassed, if_neg]
  simp [Coll.over, runs]

theorem waveGo_waits (here : s.coll c.cid = some c) (runs : c.state = 2)
    (waits : c.ready s.plat.dev.toNat = false ∨ c.version ≠ s.agreed) : s.waveGo c.cid = s := by
  unfold State.waveGo
  rw [here]
  refine if_pos ?_
  rcases waits with waits | waits <;> simp [Coll.over, runs, waits]

/-- The wave at a running member whose chunks are all where it may pass. -/
theorem waveGo_ready (here : s.coll c.cid = some c) (still : s.changing = false) (runs : c.state = 2)
    (ready : c.ready s.plat.dev.toNat = true) (agreed : c.version = s.agreed) :
    let kids := childrenOf (c.treeOf 0).2 s.plat.dev.toNat
    let up := !c.waved && kids.all (fun k => c.waves.contains (k, false))
    s.waveGo c.cid =
      match parentOf (c.treeOf 0).2 s.plat.dev.toNat with
      | none => if up then (s.waveSend kids).wavePassed { c with waved := true } else s
      | some p =>
        let s1 := if up then (s.waveSend [p]).setColl c.cid { c with waved := true } else s
        let c1 : Coll := if up then { c with waved := true } else c
        if c.waves.contains (p, true) then (s1.waveSend kids).wavePassed { c1 with waves := c.waves.erase (p, true) } else s1 := by
  intro kids up
  unfold State.waveGo
  rw [here]
  exact if_neg (by simp [still, runs, ready, agreed])

/-! ## Restarts -/

include here still kept in
theorem collRestart_lost (ms : List (BitVec 11 × List Nat)) (state : c.state = 1 ∨ c.state = 3)
    (lost : ∃ d ∈ c.members, d ≠ s.plat.dev.toNat ∧ s.reach d = false) :
    exec (.collRestart cid ms) s = .next (s.collEnd c 15 true) := by
  show execCollRestart cid ms s = _
  unfold execCollRestart
  rw [here]
  refine (if_neg ?_).trans ((if_neg (Bool.eq_false_iff.mp kept)).trans (if_pos ?_))
  · rcases state with state | state <;> simp [state, still]
  · simpa using lost

/-- The state and the collective of a restart, each chunk having gone on or begun again. -/
abbrev restarted (s : State) (c : Coll) (ms : List (BitVec 11 × List Nat)) : State × Coll :=
  (List.range c.chunks).foldl
    (fun (a : State × Coll) i => a.1.restartChunk ((s.plat.dev.toNat, c.marks) :: ms.map (fun e => (e.1.toNat, e.2))) a.2 i)
    (s, { c with state := 2, trees := s.buildTrees c [] 0 c.kmax, version := s.agreed, inbox := c.current s.agreed, outbox := [] })

include here still kept in
theorem collRestart_eq (ms : List (BitVec 11 × List Nat)) (state : c.state = 3)
    (found : ∀ d ∈ c.members, d ≠ s.plat.dev.toNat → s.reach d = true) :
    exec (.collRestart cid ms) s =
      if !s.allMarks c ms then .next s
      else if !s.collHolds c then .next (s.collEnd c 3 true)
      else if (s.buildTrees c [] 0 c.kmax).isEmpty then .next (s.collEnd c 17 true)
      else .next (((restarted s c ms).1.setColl c.cid (restarted s c ms).2).collGo c.cid) := by
  show execCollRestart cid ms s = _
  unfold execCollRestart
  rw [here]
  refine (if_neg (by simp [state, still])).trans ((if_neg (Bool.eq_false_iff.mp kept)).trans ((if_neg ?_).trans ?_))
  · simpa using found
  · simp only [state, show ((3 : BitVec 8) = 1) = False by decide, decide_false, Bool.false_or]

theorem allMarks_iff (ms : List (BitVec 11 × List Nat)) : s.allMarks c ms = true ↔
    ∀ d ∈ c.members, d ≠ s.plat.dev.toNat → ∃ e ∈ ms, e.1.toNat = d ∧ e.2.length = c.chunks := by
  simp only [State.allMarks, List.all_eq_true, Bool.or_eq_true, decide_eq_true_eq, List.any_eq_true, Bool.and_eq_true]
  exact forall₂_congr fun d _ => or_iff_not_imp_left

/-- Two states with the same executing slot and the same memory. -/
abbrev SameHartMem (s t : State) : Prop := t.hart = s.hart ∧ t.mem = s.mem

theorem modPort_sameHartMem (s : State) (n : Nat) (f : Port → Port) : SameHartMem s (s.modPort n f) := by
  unfold State.modPort
  split <;> exact ⟨rfl, rfl⟩

theorem inject_sameHartMem (s : State) (d n : Nat) : SameHartMem s (s.inject d n) := by
  unfold State.inject
  split
  · exact modPort_sameHartMem _ _ _
  · exact ⟨rfl, rfl⟩

theorem sketchAdd_sameHartMem (s : State) (r : SkRec) : SameHartMem s (s.sketchAdd r) := by
  unfold State.sketchAdd
  split <;> exact ⟨rfl, rfl⟩

theorem consume_sameHartMem (s : State) (slot : Option Nat) (pid : BitVec 12) (a n : Nat) : SameHartMem s (s.consume slot pid a n) := by
  unfold State.consume
  split
  · exact ⟨rfl, rfl⟩
  · exact sketchAdd_sameHartMem _ _

theorem chunkSend_sameHartMem (s : State) (c : Coll) (x : ChunkXfer) (dests : List Nat) : SameHartMem s (s.chunkSend c x dests).1 := by
  show SameHartMem s (dests.foldl (fun (t : State) d => t.inject d (8 * x.elems.length)) s)
  refine List.foldlRecOn dests _ (motive := SameHartMem s) ⟨rfl, rfl⟩ fun t same d _ => ?_
  exact ⟨(inject_sameHartMem t d _).1.trans same.1, (inject_sameHartMem t d _).2.trans same.2⟩

theorem restartChunk_sameHartMem (s : State) (marks : List (Nat × List Nat)) (c : Coll) (i : Nat) :
    SameHartMem s (s.restartChunk marks c i).1 := by
  unfold State.restartChunk
  split
  · exact ⟨rfl, rfl⟩
  · next d holder =>
    simp only
    split
    · exact ⟨rfl, rfl⟩
    · have input := consume_sameHartMem s none c.pid (spBase (c.dst + 65536 * i)) (c.chunkLen i)
      refine ⟨(chunkSend_sameHartMem _ _ _ _).1.trans input.1, (chunkSend_sameHartMem _ _ _ _).2.trans input.2⟩

theorem restartChunk_kept (s : State) (marks : List (Nat × List Nat)) (c : Coll) (i : Nat) :
    let k := (s.restartChunk marks c i).2
    k.state = c.state ∧ k.trees = c.trees ∧ k.version = c.version ∧ k.members = c.members := by
  unfold State.restartChunk
  split
  · exact ⟨rfl, rfl, rfl, rfl⟩
  · next d holder =>
    simp only
    split <;> exact ⟨rfl, rfl, rfl, rfl⟩

theorem restarted_sameHartMem (s : State) (c : Coll) (ms : List (BitVec 11 × List Nat)) : SameHartMem s (restarted s c ms).1 := by
  refine List.foldlRecOn _ _ (motive := fun a : State × Coll => SameHartMem s a.1) ⟨rfl, rfl⟩ fun a same i _ => ?_
  have step := restartChunk_sameHartMem a.1 ((s.plat.dev.toNat, c.marks) :: ms.map (fun e => (e.1.toNat, e.2))) a.2 i
  exact ⟨step.1.trans same.1, step.2.trans same.2⟩

theorem restarted_kept (s : State) (c : Coll) (ms : List (BitVec 11 × List Nat)) :
    let k := (restarted s c ms).2
    k.state = 2 ∧ k.trees = s.buildTrees c [] 0 c.kmax ∧ k.version = s.agreed ∧ k.members = c.members := by
  refine List.foldlRecOn _ _ (motive := fun a : State × Coll => a.2.state = 2 ∧ a.2.trees = s.buildTrees c [] 0 c.kmax ∧
    a.2.version = s.agreed ∧ a.2.members = c.members) ⟨rfl, rfl, rfl, rfl⟩ fun a same i _ => ?_
  obtain ⟨state, trees, version, members⟩ :=
    restartChunk_kept a.1 ((s.plat.dev.toNat, c.marks) :: ms.map (fun e => (e.1.toNat, e.2))) a.2 i
  exact ⟨state.trans same.1, trees.trans same.2.1, version.trans same.2.2.1, members.trans same.2.2.2⟩

end

end

theorem collectiveEvents : CollectiveEvents := by
  intro s cid c x n v dev ms
  refine ⟨fun first => ?_, fun here still kept => ?_⟩
  · intro taken
    refine ⟨fun t check => collStart_waits first check, fun m t check => collStart_ok first check,
      fun st t fresh check free => collStart_error first check fresh free, fun cancel => collCheck_early (collEarly_cancelled cancel),
      fun kept bad => collCheck_early (collEarly_bad kept bad), fun kept good fresh => ?_⟩
    have check := collCheck_fresh kept good fresh
    refine ⟨fun e t table => ?_, fun t table => ?_, fun t table => ?_, fun m t table => ?_⟩ <;> rw [table] at check
    · exact check
    · exact check
    · exact check
    · have swap : (if !t.collHolds c then (.error 3 : Except Nat (List Nat)) else .ok m) = if t.collHolds c then .ok m else .error 3 := by
        cases t.collHolds c <;> rfl
      refine check.trans ?_
      show (some (if t.collForeign c then Except.error 4 else if !t.collHolds c then Except.error 3 else Except.ok m), t) = _
      rw [swap]
  · refine ⟨fun joins => ?_, fun joins none_ => ?_, fun joins some_ => ?_, fun agreed => ?_, ?_, fun same runs => ?_,
      fun state lost => collRestart_lost here still kept ms state lost, fun state found => ?_⟩
    · exact (collJoined_eq here still kept false joins).trans (if_pos rfl)
    · exact (collJoined_eq here still kept true joins).trans ((if_neg Bool.false_ne_true).trans (if_pos (by simp [none_])))
    · exact (collJoined_eq here still kept true joins).trans ((if_neg Bool.false_ne_true).trans (if_neg (by simp [some_])))
    · intro s1
      refine ⟨fun known => (chunkReceive_eq here still agreed).trans (if_pos ?_),
        fun runs fresh => (chunkReceive_eq here still agreed).trans (if_neg ?_)⟩
      · rcases known with ended | got
        · simp [ended]
        · simp [got]
      · rw [fresh, decide_eq_false runs]
        exact Bool.false_ne_true
    · intro q version sent
      subst version
      refine ⟨_, chunkAckReceive_eq here still sent, ?_, fun up last => ?_⟩
      · split <;> rfl
      · rw [if_pos (by simp [up, last])]
        rfl
    · intro me edges kids done
      have there : s.coll c.cid = some c := by rw [same]; exact here
      have meaning := completionWave_none here kept
      refine ⟨fun waits => ?_, fun ready agreed first parts => ⟨fun root => ?_, fun p parent waits => ?_⟩,
        fun ready agreed passed p parent back => ?_⟩
      · rw [meaning, waveGo_waits there runs waits]
      · have up : kids.all (fun k => c.waves.contains (k, false)) = true := by simpa using parts
        rw [meaning, waveGo_ready there still runs ready agreed, show parentOf (c.treeOf 0).2 s.plat.dev.toNat = none from root]
        simp only [first, show (childrenOf (c.treeOf 0).2 s.plat.dev.toNat).all _ = true from up, Bool.not_false, Bool.and_self, if_true]
        exact congrArg _ (wavePassed_running runs)
      · have up : kids.all (fun k => c.waves.contains (k, false)) = true := by simpa using parts
        rw [meaning, waveGo_ready there still runs ready agreed, show parentOf (c.treeOf 0).2 s.plat.dev.toNat = some p from parent]
        simp only [first, show (childrenOf (c.treeOf 0).2 s.plat.dev.toNat).all _ = true from up, Bool.not_false, Bool.and_self, if_true]
        rw [if_neg (by simpa using waits)]
      · rw [meaning, waveGo_ready there still runs ready agreed, show parentOf (c.treeOf 0).2 s.plat.dev.toNat = some p from parent]
        simp only [passed, Bool.not_true, Bool.false_and, Bool.false_eq_true, if_false]
        rw [if_pos (by simpa using back)]
        exact congrArg _ (wavePassed_running runs)
    · intro all
      have meaning := collRestart_eq here still kept ms state found
      refine ⟨fun missing => meaning.trans (if_pos ?_), fun come flipped => ?_, fun come holds none_ => ?_, fun come holds some_ => ?_⟩
      · simpa using mt (allMarks_iff ms).mp missing
      all_goals replace meaning := meaning.trans (if_neg (by simpa using (allMarks_iff ms).mpr come))
      · exact meaning.trans (if_pos (by simp [flipped]))
      · exact meaning.trans ((if_neg (by simp [holds])).trans (if_pos (by simp [none_])))
      · obtain ⟨running, trees, version, members⟩ := restarted_kept s c ms
        exact ⟨_, _, meaning.trans ((if_neg (by simp [holds])).trans (if_neg (by simp [some_]))), running, trees, version, members,
          restarted_sameHartMem s c ms⟩

/-- Settles O55. -/
theorem collectives : Obligations.Collectives := ⟨collectiveInstructions, collectiveEvents⟩

end Sys2Proof.Proofs

namespace Sys2Proof.Proofs

/-!
Events of cores and of the dump sequencer: rounds without an issue, illegal words, failed fetches, soft errors, elevators, and
the dump (02 R35, R36; 03 R50; 04 R93; 15 R389 to R393).
-/

open Sys2Proof.Machine Sys2Proof.Claim

section

variable {s : State} {site : SoftSite} {pid : BitVec 12} {addr : BitVec 64}

/-! ## Soft errors -/

/-- A record of the sketchbook changes the sketchbook alone. -/
structure SameButSketch (s t : State) : Prop where
  hid : t.hid = s.hid
  hart : t.hart = s.hart
  others : t.others = s.others
  jobs : t.jobs = s.jobs
  plat : t.plat = s.plat
  mem : t.mem = s.mem
  poison : t.poison = s.poison
  corr : t.corr = s.corr
  uncorr : t.uncorr = s.uncorr

theorem note_same (s : State) (code : Nat) (pid : BitVec 12) (a0 a1 : Word) : SameButSketch s (s.note code pid a0 a1) := by
  rw [State.note, State.noteFrom, State.sketchAdd]
  split <;> exact ⟨rfl, rfl, rfl, rfl, rfl, rfl, rfl, rfl, rfl⟩

theorem softError_corrected : exec (.softError site true pid addr) s =
    .next ({ s with corr := BitVec.ofNat 32 (satTo 32 (s.corr.toNat + 1)) }.note 0x14 pid addr 0) := rfl

/-- What an uncorrectable error counts and records before its site says what it does. -/
abbrev uncorrected (s : State) (pid : BitVec 12) (addr : BitVec 64) : State :=
  { s with uncorr := BitVec.ofNat 32 (satTo 32 (s.uncorr.toNat + 1)) }.note 0x15 pid addr 0

theorem uncorrected_same (s : State) (pid : BitVec 12) (addr : BitVec 64) :
    SameButSketch { s with uncorr := BitVec.ofNat 32 (satTo 32 (s.uncorr.toNat + 1)) } (uncorrected s pid addr) :=
  note_same _ _ _ _ _

theorem slotAt_uncorrected (n : Nat) : (uncorrected s pid addr).slotAt n = s.slotAt n := by
  have same := uncorrected_same s pid addr
  simp only [State.slotAt, same.hid, same.hart, same.others]

theorem deviceFatal_counts (s : State) :
    s.deviceFatal.uncorr = s.uncorr ∧ s.deviceFatal.corr = s.corr ∧ s.deviceFatal.plat.fatal = true := by
  have same := note_same s 0x13 0 0 0
  exact ⟨same.uncorr, same.corr, rfl⟩

/-- An uncorrectable error in the device's own state. -/
theorem softError_device : exec (.softError .deviceState false pid addr) s = .next (uncorrected s pid addr).deviceFatal := rfl

theorem softError_register {n reg : Nat} : exec (.softError (.registerFile n reg) false pid addr) s =
    .next (if (s.slotAt n).occ then
        (uncorrected s pid addr).modSlot n (fun x => { x with badRegs := x.badRegs ++ [(fileReg reg, addr)] })
      else uncorrected s pid addr) := by
  rw [← slotAt_uncorrected (pid := pid) (addr := addr) n]
  rfl

theorem softError_bytes (device : site ≠ .deviceState) (file : ∀ n reg, site ≠ .registerFile n reg) :
    exec (.softError site false pid addr) s =
      .next { uncorrected s pid addr with poison := (uncorrected s pid addr).poison ++ [(pid, addr.toNat)] } := by
  cases site with
  | deviceState => exact absurd rfl device
  | registerFile n reg => exact absurd rfl (file n reg)
  | sram => rfl
  | secondLevel => rfl
  | hbm => rfl

/-- What an uncorrectable error leaves, by its site. -/
theorem softError_uncorrectable : ∃ u, exec (.softError site false pid addr) s = .next u ∧
    u.uncorr = BitVec.ofNat 32 (satTo 32 (s.uncorr.toNat + 1)) ∧ u.corr = s.corr ∧
    (site = .deviceState → u.plat.fatal = true) ∧
    (∀ n reg, site = .registerFile n reg → u.poison = s.poison ∧
      (u.slotAt n).badRegs =
        if (s.slotAt n).occ then (s.slotAt n).badRegs ++ [(fileReg reg, addr)] else (s.slotAt n).badRegs) ∧
    ((site ≠ .deviceState ∧ ∀ n reg, site ≠ .registerFile n reg) → u.poison = s.poison ++ [(pid, addr.toNat)]) := by
  have same := uncorrected_same s pid addr
  by_cases device : site = .deviceState
  · subst device
    obtain ⟨uncorr, corr, fatal⟩ := deviceFatal_counts (uncorrected s pid addr)
    exact ⟨_, softError_device, uncorr.trans same.uncorr, corr.trans same.corr, fun _ => fatal, nofun,
      fun none_ => absurd rfl none_.1⟩
  by_cases file : ∃ n reg, site = .registerFile n reg
  · obtain ⟨n, reg, rfl⟩ := file
    refine ⟨_, softError_register, ?_, ?_, nofun, fun m r at_ => ?_, fun none_ => absurd rfl (none_.2 n reg)⟩
    · split
      · exact (State.modSlot_uncorr _ _ _).trans same.uncorr
      · exact same.uncorr
    · split
      · exact (State.modSlot_corr _ _ _).trans same.corr
      · exact same.corr
    · obtain ⟨rfl, rfl⟩ := SoftSite.registerFile.inj at_
      split
      · next => exact ⟨(State.modSlot_poison _ _ _).trans same.poison, by rw [State.slotAt_modSlot_same, slotAt_uncorrected]⟩
      · next => exact ⟨same.poison, by rw [slotAt_uncorrected]⟩
  · have file' : ∀ n reg, site ≠ .registerFile n reg := fun n reg at_ => file ⟨n, reg, at_⟩
    exact ⟨_, softError_bytes device file', same.uncorr, same.corr, fun at_ => absurd at_ device,
      fun n reg at_ => absurd at_ (file' n reg), fun _ => congrArg (· ++ _) same.poison⟩

/-! ## Elevators -/

theorem elevatorRetire_eq {e : Nat} (there : e < 64) (good : s.elevState e = 0) :
    let s1 := ((s.tickFree.modPlat (fun p => { p with elevs := alSet p.elevs e 1 })).tableChange).note 0x02 0 (BitVec.ofNat 64 e) 0
    let users := (List.range 260).filter (fun n => decide (s.elevOf n = e))
    let s2 := users.foldl (fun (c : State) n =>
      c.modCore n (fun k => { k with hold := true, elev := match s1.nearestElev n with | some f => some (BitVec.ofNat 6 f) | none => k.elev })) s1
    exec (.elevatorRetire e) s = .next ((if Config.freeBit s.freeCtr then
        s2.modPlat (fun p => { p with returned := p.returned ++ users.filter (fun n => s2.packetsOut n) }) else s2).elevatorsRetired) :=
  if_neg (by simp [good, there])

theorem elevatorReissue_eq {core : Nat} (held : (s.core core).hold = true) (retiring : s.plat.elevs.any (fun e => decide (e.2 = 1)) = true)
    (untested : s.plat.scState ≠ 2 ∨ s.plat.runElev = false ∨ s.elevOf core ≠ s.plat.runTarget)
    (back : s.packetsOut core = false ∨ s.plat.returned.contains core = true) :
    exec (.elevatorReissue core) s =
      .next ((s.modCore core (fun k => { k with hold := false })).modPlat (fun p =>
        { p with returned := p.returned.filter (fun r => r ≠ core) })).elevatorsRetired := by
  have tested : (decide (s.plat.scState = 2) && s.plat.runElev && decide (s.elevOf core = s.plat.runTarget)) = false := by
    rcases untested with state | run | target
    · rw [decide_eq_false state, Bool.false_and, Bool.false_and]
    · rw [run, Bool.and_false, Bool.false_and]
    · rw [decide_eq_false target, Bool.and_false]
  have out : (s.packetsOut core && !s.plat.returned.contains core) = false := by
    rcases back with done | returned
    · rw [done, Bool.false_and]
    · rw [returned, Bool.not_true, Bool.and_false]
  refine if_neg ?_
  rw [held, retiring, tested, out]
  exact Bool.false_ne_true

theorem elevatorsRetired_held (held : (List.range 260).any (fun n => (s.core n).hold) = true) : s.elevatorsRetired = s :=
  if_pos (by rw [held, Bool.or_true])

theorem foldl_note_plat {α : Type} (l : List α) (f : α → Word) (s : State) :
    (l.foldl (fun (c : State) e => c.note 0x02 0 (f e) 0) s).plat = s.plat :=
  List.foldlRecOn l _ (motive := fun t : State => t.plat = s.plat) rfl fun t same e _ =>
    (note_same t 0x02 0 (f e) 0).plat.trans same

theorem elevatorsRetired_free (free : (List.range 260).any (fun n => (s.core n).hold) = false) :
    s.elevatorsRetired.plat.elevs = s.plat.elevs.map (fun e => if e.2 = 1 then (e.1, 2) else e) := by
  unfold State.elevatorsRetired
  simp only [free, Bool.or_false]
  split
  · next nothing =>
    have none_ : ∀ e ∈ s.plat.elevs, ¬e.2 = 1 := by simpa [List.isEmpty_iff, List.filter_eq_nil_iff] using nothing
    exact (List.map_id s.plat.elevs).symm.trans (List.map_congr_left fun e there => (if_neg (none_ e there)).symm)
  · exact congrArg Platform.elevs (foldl_note_plat _ (fun e : Nat × _ => BitVec.ofNat 64 e.1) _)

/-! ## The dump sequencer -/

theorem dumpSequence_freezes (first : s.dumpQ.find? (fun p => decide ((s.job p).dumping = 0)) = some pid) :
    exec .dumpSequence s = .next (s.freeze pid) := by
  show execDumpSequence s = _
  simp only [execDumpSequence, first]

/-- The dump of the first context in the queue, once it has settled. -/
theorem dumpSequence_settled {r : List (BitVec 12)} (frozen : s.dumpQ.find? (fun p => decide ((s.job p).dumping = 0)) = none)
    (queue : s.dumpQ = pid :: r) (settled : s.settled pid = true) (dumping : (s.job pid).dumping = 1) :
    exec .dumpSequence s =
      match ((s.settleStrands pid).job pid).dump with
      | none => .next (((s.settleStrands pid).releaseContext pid).reportDump pid)
      | some (area, compat) =>
        if !(s.settleStrands pid).areaOk area then .next ((s.settleStrands pid).dumpFailed pid area)
        else if compat then .next (((s.settleStrands pid).writeDump pid area compat).modJob pid (fun j => { j with dumping := 2, compat := 0 }))
        else .next ((((s.settleStrands pid).writeDump pid area compat).releaseContext pid).reportDump pid) := by
  show execDumpSequence s = _
  unfold execDumpSequence
  rw [frozen]
  simp only [queue]
  refine (if_neg (by simp [dumping, settled])).trans ?_
  rcases ((s.settleStrands pid).job pid).dump with _ | ⟨area, compat⟩ <;> rfl

theorem compatEngineReset_eq {r : List (BitVec 12)} (queue : s.dumpQ = pid :: r) (settled : s.settled pid = true)
    (dumping : (s.job pid).dumping = 2) :
    let s2 := (s.compatStep pid (s.job pid).compat).modJob pid (fun j => { j with compat := j.compat + 1 })
    exec .compatEngineReset s = .next (if (s.job pid).compat < 9 then s2 else s2.reportDump pid) := by
  intro s2
  show execCompatEngineReset s = _
  unfold execCompatEngineReset
  rw [queue]
  refine (if_neg (by simp [dumping, settled])).trans ?_
  exact (apply_ite Host.Outcome.next _ _ _).symm

end

/-- Settles O27. -/
theorem coreEvents : Obligations.CoreEvents := by
  refine ⟨fun s core l => rfl, fun s w c va => ?_, fun s site pid addr => ⟨?_, softError_uncorrectable⟩, fun s n sel => ⟨?_, fun e bad => ?_⟩,
    fun s e there good => ?_, fun s core held retiring untested back => elevatorReissue_eq held retiring untested back,
    fun s => ⟨elevatorsRetired_held, elevatorsRetired_free⟩,
    fun s pid => ⟨dumpSequence_freezes, fun r frozen queue settled => ?_⟩⟩
  · intro Fault
    exact ⟨rfl, fun some_ carrier => (if_neg some_).trans (if_pos carrier),
      fun some_ other => (if_neg some_).trans (if_neg (Bool.eq_false_iff.mp other)), rfl⟩
  · have same := note_same { s with corr := BitVec.ofNat 32 (satTo 32 (s.corr.toNat + 1)) } 0x14 pid addr 0
    exact ⟨_, softError_corrected, same.corr, same.uncorr, same.jobs, same.plat, same.poison, same.mem⟩
  · intro good
    rw [State.consumeRegs, good]
  · rw [State.consumeRegs, bad]
  · intro s1 users s2
    refine ⟨fun alive => (elevatorRetire_eq there good).trans ?_, fun dead => (elevatorRetire_eq there good).trans ?_⟩
    · rw [alive]
      rfl
    · rw [dead]
      rfl
  · intro s1
    refine ⟨fun dumping nowhere => ?_, fun area compat dumping somewhere => ?_, compatEngineReset_eq queue settled⟩
    · rw [dumpSequence_settled frozen queue settled dumping, show ((s.settleStrands pid).job pid).dump = none from nowhere]
    · have meaning := dumpSequence_settled frozen queue settled dumping
      rw [show ((s.settleStrands pid).job pid).dump = some (area, compat) from somewhere] at meaning
      refine ⟨fun bad => meaning.trans (if_pos (congrArg not bad)), fun ok => ?_⟩
      intro s2
      refine meaning.trans ((if_neg (Bool.eq_false_iff.mp (congrArg not ok))).trans ?_)
      exact (apply_ite Host.Outcome.next _ _ _).symm

end Sys2Proof.Proofs

namespace Sys2Proof.Proofs

/-!
Resets, the boot steps, the device registers, keys and the memory window (16 R409 to R413, R416, R418).
-/

open Sys2Proof.Machine Sys2Proof.Claim

section

variable {s : State}

/-! ## Resets -/

theorem retiredDigital_same (s : State) : s.retiredDigital.plat = s.plat ∧ s.retiredDigital.ticks = s.ticks ∧
    s.retiredDigital.sketch = s.sketch ∧ s.retiredDigital.skHead = s.skHead ∧ s.retiredDigital.jobs = s.jobs := by
  refine List.foldlRecOn (List.range 16) _ (motive := fun t : State => t.plat = s.plat ∧ t.ticks = s.ticks ∧
    t.sketch = s.sketch ∧ t.skHead = s.skHead ∧ t.jobs = s.jobs) ⟨rfl, rfl, rfl, rfl, rfl⟩ fun t same k _ => ?_
  split <;> exact same

/-- What a warm reset keeps. -/
theorem warmReset_keeps (s : State) : s.warmReset.plat.image = s.plat.image ∧ s.warmReset.ticks = s.ticks ∧
    s.warmReset.sketch = s.sketch ∧ s.warmReset.skHead = s.skHead ∧ s.warmReset.plat.fabv = s.plat.fabv ∧
    s.warmReset.plat.dev = s.plat.dev ∧ s.warmReset.plat.coreMap = s.plat.coreMap ∧ s.warmReset.jobs = [] ∧
    s.warmReset.plat.boot = 0 := by
  unfold State.warmReset
  generalize warmed : ({ s.coldReset with
    ticks := s.ticks, sketch := s.sketch, skHead := s.skHead, skFrozen := s.skFrozen, corr := s.corr, uncorr := s.uncorr
    tiles := s.tiles.map (fun e => (e.1, e.2.warm))
    plat := { s.coldReset.plat with
      image := s.plat.image, verified := s.plat.verified, timeOff := s.ticks, fabv := s.plat.fabv, dev := s.plat.dev,
      ncm1 := s.plat.ncm1, ndm1 := s.plat.ndm1, coreMap := s.plat.coreMap } } : State) = t
  obtain ⟨plat, ticks, sketch, skHead, jobs⟩ := retiredDigital_same t
  simp only [warmed, plat, ticks, sketch, skHead, jobs]
  subst warmed
  exact ⟨rfl, rfl, rfl, rfl, rfl, rfl, rfl, rfl, rfl⟩

/-! ## Boot -/

theorem verdict_eq {err : BitVec 8} {ver : Nat} (known : s.plat.verified ≠ none ∨ err = 0 ∨ err = 1 ∨ err = 2 ∨ err = 4) :
    s.plat.verdict err ver = some (s.plat.verified.getD (err, ver)) := by
  unfold Platform.verdict
  cases verified : s.plat.verified with
  | some v => rfl
  | none =>
    refine if_pos ?_
    rcases known with found | rfl | rfl | rfl | rfl
    · exact absurd verified found
    all_goals rfl

/-- The state of a booting module before its elevators and the executive: steps 1 to 3 of 16 R413. -/
def bootTables (s : State) (v : BitVec 8 × Nat) (m : BitVec 256) (sl hst : List Nat) : State :=
  (((s.modPlat (fun p => { p with verified := some v })).modPlat (fun p =>
    { p with boot := 3, minVer := v.2, fwVer := v.2, coreMap := p.coreMap &&& m
             slices := if slicesOk sl && hstOk sl hst then sl else p.slices
             hst := if slicesOk sl && hstOk sl hst then hst else p.hst })).tableChange.retiredDigital)

theorem bootSequence_eq {err : BitVec 8} {ver : Nat} {m : BitVec 256} {bad : List (BitVec 6)} {sl hst : List Nat}
    {l : List (BitVec 2 × BitVec 512)} (off : s.plat.boot = 0) (good : s.plat.bootErr = 0)
    (known : s.plat.verified ≠ none ∨ err = 0 ∨ err = 1 ∨ err = 2 ∨ err = 4) :
    let v := s.plat.verified.getD (err, ver)
    let s0 := s.modPlat (fun p => { p with verified := some v })
    exec (.bootSequence err ver (m, bad) (sl, hst) l) s =
      if v.1 ≠ 0 then .next (s0.modPlat (fun p => { p with bootErr := v.1 }))
      else if v.2 < s.plat.minVer then .next (s0.modPlat (fun p => { p with bootErr := 3 }))
      else .next (l.foldl (fun (t : State) e => t.startExecutive e) ((bootTables s v m sl hst).retireElevs bad)) := by
  intro v s0
  show execBootSequence err ver (m, bad) (sl, hst) l s = _
  unfold execBootSequence
  refine (if_neg (by simp [off, good])).trans ?_
  rw [verdict_eq known]
  rfl

theorem bootSequence_unknown {err : BitVec 8} {ver : Nat} {m : BitVec 256 × List (BitVec 6)} {tables : List Nat × List Nat}
    {l : List (BitVec 2 × BitVec 512)} (unverified : s.plat.verified = none) (e0 : err ≠ 0) (e1 : err ≠ 1) (e2 : err ≠ 2)
    (e4 : err ≠ 4) : exec (.bootSequence err ver m tables l) s = .next s := by
  have none_ : s.plat.verdict err ver = none := by
    rw [Platform.verdict, unverified]
    refine if_neg ?_
    rw [decide_eq_false e0, decide_eq_false e1, decide_eq_false e2, decide_eq_false e4]
    exact Bool.false_ne_true
  show execBootSequence err ver m tables l s = _
  unfold execBootSequence
  rw [none_]
  exact ite_self _

theorem retireElevs_cons (e : BitVec 6) (r : List (BitVec 6)) {u : State} (retired : exec (.elevatorRetire e.toNat) s = .next u) :
    s.retireElevs (e :: r) = u.retireElevs r := by
  have retired' : execElevatorRetire e.toNat s = .next u := retired
  unfold State.retireElevs
  rw [List.foldl_cons, retired']

theorem elevatorRetire_again {e : Nat} (state : s.elevState e ≠ 0) : exec (.elevatorRetire e) s = .next s :=
  if_pos (by simp [state])

/-- A strand of the executive started in a vacant slot of a service core. -/
theorem startExecutive_slot {q : BitVec 2} {r : BitVec 512} :
    let n := 16 * (256 + q.toNat)
    let words := (List.range 8).map (fun k => r.extractLsb' (64 * k) 64)
    (s.slotAt n).occ = false → s.strandOf (strandId (Rec.ofWords words).pid (Rec.ofWords words).frame) = none →
    (s.startExecutive (q, r)).slotAt n = { Slot.vacant with
      occ := true, pc := nthW words 0, rstate := 1, since := s.ticks, status := { Slot.vacant.status with exec := true }
      record := { Rec.ofWords words with exec := true, opt := false, new := false, mode := (s.core (n / 16)).mode } } := by
  intro n words vacant fresh
  have free : ¬ ((s.slotAt n).occ || (s.strandOf (strandId (Rec.ofWords words).pid (Rec.ofWords words).frame)).isSome) = true := by
    rw [vacant, fresh]
    exact Bool.false_ne_true
  exact (congrArg (fun t : State => t.slotAt n) (if_neg free)).trans (State.slotAt_setSlot_same _ _ _)

theorem fabcfgWrite_eq (v : BitVec 64) (fresh : s.plat.fabv = false) :
    let s1 := s.modPlat (fun p =>
      { p with dev := v.setWidth 11, ncm1 := BitVec.ofNat 4 (fld v 25 22), ndm1 := BitVec.ofNat 4 (fld v 29 26), fabv := bitOf v 30 })
    exec (.fabcfgWrite v) s =
      .next (if bitOf v 30 then (if 4 ≤ s.plat.boot then s1.tableChange.trainAll else s1.tableChange) else s1) := by
  intro s1
  refine congrArg Host.Outcome.next ((if_neg (Bool.eq_false_iff.mp fresh)).trans ?_)
  by_cases valid : bitOf v 30 = true
  · exact (if_neg (by simp [valid])).trans (if_pos valid).symm
  · exact (if_pos (by simpa using valid)).trans (if_neg valid).symm

/-! ## Device registers -/

theorem regWrite_unaligned (off : Nat) (v : Word) (odd : off % 8 ≠ 0) : s.regWrite off v = s := if_pos odd

/-- The launch queues' registers. -/
theorem regWrite_queue {q : Nat} (v : Word) (there : q < 4096) : s.regWrite (0x20000 + 8 * q) v = s.qctlPut q v := by
  unfold State.regWrite
  rw [if_neg (by omega), if_neg (by omega), if_neg (by omega), if_neg (by omega), if_neg (by omega), if_neg (by omega),
    if_pos (by simp only [Bool.and_eq_true, decide_eq_true_eq]; omega),
    show (0x20000 + 8 * q - 0x20000) / 8 = q by omega]

/-- The first register of a port is LCTL. -/
theorem regWrite_port {p : Nat} (v : Word) (there : p < 8) : s.regWrite (0x30000 + 0x100 * p) v = s.lctlPut p v := by
  unfold State.regWrite
  rw [if_neg (by omega), if_neg (by omega), if_neg (by omega), if_neg (by omega), if_neg (by omega), if_neg (by omega),
    if_neg (by simp only [Bool.and_eq_true, decide_eq_true_eq]; omega), if_pos (by simp only [Bool.and_eq_true, decide_eq_true_eq]; omega)]
  rw [State.portPut, show (0x30000 + 0x100 * p - 0x30000) / 0x100 = p by omega]
  exact if_pos (by omega)

/-- The mailbox. -/
theorem regWrite_mail {k : Nat} (v : Word) (there : k < 0x400) : s.regWrite (0x70000 + 8 * k) v = s.mailPut (8 * k) v := by
  unfold State.regWrite
  rw [if_neg (by omega), if_neg (by omega), if_neg (by omega), if_neg (by omega), if_neg (by omega), if_neg (by omega),
    if_neg (by simp only [Bool.and_eq_true, decide_eq_true_eq]; omega), if_neg (by simp only [Bool.and_eq_true, decide_eq_true_eq]; omega),
    if_neg (by omega), if_neg (by omega), if_neg (by omega), if_pos (by simp only [Bool.and_eq_true, decide_eq_true_eq]; omega),
    Nat.add_sub_cancel_left]

/-- The discovery table is read only. -/
theorem regWrite_table {off : Nat} (v : Word) (lo : 0x10000 ≤ off) (hi : off < 0x11000) : s.regWrite off v = s := by
  by_cases odd : off % 8 ≠ 0
  · exact regWrite_unaligned off v odd
  · unfold State.regWrite
    rw [if_neg odd, if_neg (by omega), if_neg (by omega), if_neg (by omega), if_neg (by omega), if_neg (by omega),
      if_neg (by simp only [Bool.and_eq_true, decide_eq_true_eq]; omega), if_neg (by simp only [Bool.and_eq_true, decide_eq_true_eq]; omega),
      if_neg (by omega), if_neg (by omega), if_neg (by omega), if_neg (by simp only [Bool.and_eq_true, decide_eq_true_eq]; omega)]

/-! ## Keys and the window -/

theorem keyctlDone_generate (busy : s.plat.keyOp = 1) : exec .keyctlDone s =
    .next (((s.modPlat (fun q => { q with keyOp := 0 })).modJob s.plat.keyPid (fun j => { j with key := some s.plat.keyGen })).modPlat
      (fun q => { q with keyGen := q.keyGen + 1 })) := by
  show execKeyctlDone s = _
  simp only [execKeyctlDone, busy]
  rfl

theorem keyctlDone_erase (busy : s.plat.keyOp = 2) : exec .keyctlDone s =
    .next ((s.modPlat (fun q => { q with keyOp := 0 })).modJob s.plat.keyPid (fun j => { j with key := none })) := by
  show execKeyctlDone s = _
  simp only [execKeyctlDone, busy]
  rfl

theorem windowRead_eq (off len : Nat) (good : s.plat.bootErr = 0) : exec (.windowRead off len) s =
    if s.windowOk off len then .next (s.modPlat (fun p => { p with winData := s.homeBytes s.plat.winPid off len }))
    else .next (s.windowRefuse.modPlat (fun p => { p with winData := List.replicate len 0xFF })) :=
  if_neg (not_not.mpr good)

theorem windowWrite_eq (off : Nat) (bs : List (BitVec 8)) (good : s.plat.bootErr = 0) : exec (.windowWrite off bs) s =
    if s.windowOk off bs.length then .next (s.homePut s.plat.winPid off bs) else .next s.windowRefuse :=
  if_neg (not_not.mpr good)

end

/-- Settles O28. -/
theorem bringUp : Obligations.BringUp := by
  refine ⟨fun s => ?_, fun s err ver m bad sl hst l off good => ?_, fun s e r => ⟨rfl, fun state => ?_, fun u => retireElevs_cons e r⟩,
    fun s q r => ?_, fun s boot => ?_, fun s v => ⟨fun valid => ?_, fabcfgWrite_eq v⟩, fun s off v => rfl, fun s v => ?_,
    fun s pid idle => ?_, fun s => ⟨fun busy => ?_, fun busy => ?_⟩, fun s off len bs failed => ⟨if_pos failed, if_pos failed⟩,
    fun s off len bs good => ?_⟩
  · obtain ⟨image, ticks, sketch, skHead, fabv, dev, coreMap, jobs, boot⟩ := warmReset_keeps s
    exact ⟨rfl, rfl, rfl, rfl, rfl, rfl, rfl, rfl, rfl, image, rfl, rfl, rfl, ticks, sketch, skHead, fabv, dev, coreMap, jobs, boot⟩
  · intro i v s0
    refine ⟨fun known => ?_, fun unverified e0 e1 e2 e4 => bootSequence_unknown unverified e0 e1 e2 e4⟩
    have meaning := bootSequence_eq (m := m) (bad := bad) (sl := sl) (hst := hst) (l := l) (ver := ver) off good known
    refine ⟨fun failed => meaning.trans (if_pos failed), fun fine old => ?_, fun fine new => ?_⟩
    · exact meaning.trans ((if_neg (not_not.mpr fine)).trans (if_pos old))
    · have plat := (retiredDigital_same (((s.modPlat (fun p => { p with verified := some v })).modPlat (fun p =>
        { p with boot := 3, minVer := v.2, fwVer := v.2, coreMap := p.coreMap &&& m
                 slices := if slicesOk sl && hstOk sl hst then sl else p.slices
                 hst := if slicesOk sl && hstOk sl hst then hst else p.hst })).tableChange)).1
      refine ⟨bootTables s v m sl hst, meaning.trans ((if_neg (not_not.mpr fine)).trans (if_neg new.not_gt)), ?_⟩
      simp only [bootTables, plat]
      exact ⟨rfl, rfl, rfl, rfl, rfl, rfl, rfl, rfl⟩
  · exact retireElevs_cons e r (elevatorRetire_again state)
  · intro n words vacant fresh x
    have slot : x = _ := startExecutive_slot vacant fresh
    rw [slot]
    exact ⟨rfl, rfl, rfl, rfl, rfl, rfl⟩
  · exact if_neg (not_not.mpr boot)
  · exact congrArg Host.Outcome.next (if_pos valid)
  · exact ⟨rfl, rfl, rfl, rfl, rfl, rfl, rfl, fun q => regWrite_queue v, fun p => regWrite_port v, fun k => regWrite_mail v,
      fun off => regWrite_unaligned off v, rfl, rfl, rfl, fun off => regWrite_table v⟩
  · exact ⟨congrArg Host.Outcome.next (if_neg (not_not.mpr idle)), congrArg Host.Outcome.next (if_neg (not_not.mpr idle))⟩
  · exact ⟨_, keyctlDone_generate busy, by simp [State.job, State.modJob, State.setJob, State.modPlat], rfl, rfl⟩
  · exact ⟨_, keyctlDone_erase busy, by simp [State.job, State.modJob, State.setJob, State.modPlat], rfl⟩
  · refine ⟨fun ok => ⟨_, (windowRead_eq off len good).trans (if_pos ok), rfl, rfl⟩,
      fun bad => ⟨_, (windowRead_eq off len good).trans (if_neg (Bool.eq_false_iff.mp bad)), rfl, rfl⟩,
      fun ok => (windowWrite_eq off bs good).trans (if_pos ok),
      fun bad => ⟨_, (windowWrite_eq off bs good).trans (if_neg (Bool.eq_false_iff.mp bad)), rfl, rfl⟩⟩

end Sys2Proof.Proofs

namespace Sys2Proof.Proofs

/-!
Launch queues, the mailbox and the in-field scan test (12 R309 to R311; 16 R413, R415 to R417, R419).
-/

open Sys2Proof.Machine Sys2Proof.Claim

section

variable {s : State}

/-! ## What the device writes for an item leaves the platform unchanged -/

theorem translate_plat (s : State) (q : Nat) (pid : BitVec 12) (exec : Bool) (va : Word) (acc : Acc) :
    (s.translate q pid exec va acc).2.plat = s.plat := by
  unfold State.translate
  split
  · rfl
  · simp only
    split
    · rfl
    · split <;> rfl

theorem inject_plat (s : State) (d n : Nat) : (s.inject d n).plat = s.plat := by
  unfold State.inject State.modPort
  split
  · split <;> rfl
  · rfl

theorem remoteSend_plat (s : State) (r : RemoteOut) : (s.remoteSend r).plat = s.plat := by
  unfold State.remoteSend
  simp only
  split
  · rfl
  · exact inject_plat _ _ _

theorem modStrand_plat (s : State) (sid : Nat) (f : Slot → Slot) : (s.modStrand sid f).plat = s.plat := by
  unfold State.modStrand
  split
  · exact State.modSlot_plat _ _ _
  · split <;> rfl

theorem homePut_plat (pid : BitVec 12) (bs : List Byte) : ∀ (s : State) (pa : Nat), (s.homePut pid pa bs).plat = s.plat := by
  induction bs with
  | nil => exact fun _ _ => rfl
  | cons b bs ih =>
    intro s pa
    refine (ih _ _).trans ?_
    show (s.claim pid (pa / 64)).plat = s.plat
    unfold State.claim
    split
    · split
      · rfl
      · split <;> rfl
    · rfl

theorem homeStore_plat (s : State) (strand : Nat) (pid : BitVec 12) (va : Word) (pa : Nat) (bs : List Byte) :
    (s.homeStore strand pid va pa bs).plat = s.plat := by
  unfold State.homeStore
  split
  · exact homePut_plat _ _ _ _
  · rfl
  · split <;> rfl
  · split
    · exact remoteSend_plat _ _
    · exact modStrand_plat _ _ _
  · rfl

theorem writePath_home_plat {p : Path} (home : p.tile = none) (fuel : Nat) :
    ∀ (s : State) (pa : Nat) (bs : List Byte), (s.writePath p pa bs fuel).plat = s.plat := by
  induction fuel with
  | zero => exact fun _ _ _ => rfl
  | succ fuel ih =>
    intro s pa bs
    unfold State.writePath
    split
    · rfl
    · refine (ih _ _ _).trans ?_
      rw [State.writeSector, home]
      exact homePut_plat _ _ _ _

theorem vaSetWord_plat (s : State) (pid : BitVec 12) (va v : Word) : (s.vaSetWord pid va v).plat = s.plat := by
  have walked := translate_plat s 0 pid true va .write
  unfold State.vaSetWord State.vaSetWordAt State.vaPut
  rcases found : s.translate 0 pid true va .write with ⟨c | x, s1⟩
  · rfl
  · rw [found] at walked
    refine Eq.trans ?_ walked
    show (s1.paWrite { tile := none, pid := pid, hint := x.hint } noStrand va x.pa (natLe 8 v.toNat)).plat = s1.plat
    unfold State.paWrite
    split
    · exact writePath_home_plat (p := { tile := none, pid := pid, hint := x.hint }) rfl _ _ _ _
    · exact homeStore_plat _ _ _ _ _ _

theorem chainItems_plat (l : List Item) : ∀ s : State, (s.chainItems l).plat = s.plat := by
  induction l with
  | nil => exact fun _ => rfl
  | cons a r ih => exact fun s => (ih _).trans (vaSetWord_plat _ _ _ _)

theorem takeItem_plat (s : State) (k core n : Nat) : (s.takeItem k core n).plat = s.plat := by
  unfold State.takeItem
  split
  · rfl
  · simp only
    unfold State.leaveOverflow
    split
    · refine (chainItems_plat _ _).trans ?_
      split <;> rfl
    · split <;> rfl

theorem offerOverflow_plat (s : State) (core : Nat) : (s.offerOverflow core).plat = s.plat := by
  unfold State.offerOverflow
  simp only
  split
  · rfl
  · split
    · exact takeItem_plat _ _ _ _
    · rfl

/-! ## Launch queues -/

theorem launchRecordWrite_eq {q off : Nat} {bs : List (BitVec 8)} (there : q < 4096) (good : s.plat.bootErr = 0) :
    exec (.launchRecordWrite q off bs) s =
      if off % 64 = 0 && decide (0 < bs.length) && decide (bs.length % 64 = 0) && decide (off + bs.length ≤ 4096) then
        .next ((blocksOf (bs.length / 64) bs).foldl (fun (t : State) r => t.launchRecord q r) s)
      else .next (s.modQueue q (fun k => k.dropped 1)) :=
  if_neg (by simp [there, good])

theorem launchRecord_joins {q : Nat} {r : BitVec 512} (serves : s.plat.svc ≠ 0) (enabled : (s.queue q).en = true)
    (room : (s.queue q).fifo.length < 256) (runs : s.isFrozen (s.queue q).pid = false) :
    s.launchRecord q r = s.modQueue q (fun k => { k with fifo := k.fifo ++ [r] }) :=
  if_neg (by rw [decide_eq_false serves, enabled, decide_eq_false room.not_ge, runs]; decide)

theorem launchRecord_drops {q : Nat} {r : BitVec 512}
    (shut : s.plat.svc = 0 ∨ (s.queue q).en = false ∨ 256 ≤ (s.queue q).fifo.length) :
    s.launchRecord q r = s.modQueue q (fun k => k.dropped 1) := by
  refine if_pos ?_
  rcases shut with off | off | full
  · rw [decide_eq_true off, Bool.true_or, Bool.true_or, Bool.true_or]
  · rw [off, Bool.not_false, Bool.or_true, Bool.true_or, Bool.true_or]
  · rw [decide_eq_true full, Bool.or_true, Bool.true_or]

/-- The service core launches the oldest record of a queue. -/
theorem serviceLaunch_eq {q : Nat} {r : BitVec 512} {rest : List (BitVec 512)} (queue : (s.queue q).fifo = r :: rest)
    (runs : (s.modQueue q (fun k => { k with fifo := rest })).isFrozen (s.queue q).pid = false) :
    let k := s.queue q
    let s1 := s.modQueue q (fun k => { k with fifo := rest })
    let l : Launcher := { pid := k.pid, exec := false, prio := k.pmax, router := coreRouter (256 + k.quad.toNat), quad := k.quad.toNat }
    exec (.serviceLaunch q) s =
      match s1.spawnWords l 0 (recordWords r) true with
      | .ok s2 => .next s2
      | .error (c, v) => .next ((s1.modQueue q (fun k => k.dropped 1)).note 0x05 k.pid (c.code.setWidth 64) v) := by
  intro k s1 l
  show execServiceLaunch q s = _
  unfold execServiceLaunch
  simp only [queue]
  refine (if_neg (Bool.eq_false_iff.mp runs)).trans ?_
  show _ = match s1.spawnWords l 0 (recordWords r) true with
    | .ok s2 => _
    | .error (c, v) => _
  rcases s1.spawnWords l 0 (recordWords r) true with ⟨c, v⟩ | s2 <;> rfl

/-! ## The mailbox -/

theorem attest_eq (pending : s.mailPending 1 = true) : exec .attest s =
    if s.plat.lmsLeft = 0 then .next (s.modPlat (fun p => { p with mbRes := some 2 }))
    else .next (s.tickFree.modPlat (fun p =>
      { p with mbRes := some 0, lmsLeft := p.lmsLeft - 1, mbResp := p.report (freeResponse s.freeCtr) })) :=
  if_neg (by simp [pending])

theorem ident_eq (pending : s.mailPending 2 = true) : exec .ident s =
    .next (s.modPlat (fun p =>
      { p with mbRes := some 0, mbResp := (List.range 0xF00).map (fun k => Config.freeIdent p.identKey k) })) :=
  if_neg (by simp [pending])

theorem fwwrite_eq (pending : s.mailPending 3 = true) : exec .fwwrite s =
    if 4096 < s.plat.mbArg.toNat / 2 ^ 64 % 2 ^ 64 then .next (s.modPlat (fun p => { p with mbRes := some 1 }))
    else .next (s.modPlat (fun p => { p with
      mbRes := some 0,
      flash := p.flash ++ [(s.plat.mbArg.toNat % 2 ^ 64, p.staged (s.plat.mbArg.toNat / 2 ^ 64 % 2 ^ 64))] })) :=
  if_neg (by simp [pending])

theorem length_reportHead (p : Platform) : p.reportHead.length = 17 := by
  simp only [Platform.reportHead, List.length_append, length_natLe]

/-- A report begins with the fields that the spec defines. -/
theorem take_report (p : Platform) (l : List Byte) : (p.report l).take 17 = p.reportHead := by
  have head := length_reportHead p
  rw [Platform.report, List.take_take, List.append_assoc, List.append_assoc, List.take_append_of_le_length (by rw [head]; decide)]
  exact List.take_of_length_le (by rw [head]; decide)

/-- A command in progress ends with the code of its result. -/
theorem mailboxCommandDone_eq {ok : Bool} {r : BitVec 8} (busy : bitOf s.plat.mbStat 0 = false)
    (code : (if (decide (s.plat.mbCmd.toNat = 3) && decide (s.plat.mbRes = some 0) && !ok) = true then some 3
      else if (1 ≤ s.plat.mbCmd.toNat && s.plat.mbCmd.toNat ≤ 3) = true then s.plat.mbRes else some 1) = some r) :
    ∃ u, exec (.mailboxCommandDone ok) s = .next u ∧ u.plat.mbStat = packFields [(r.toNat, 8), (1, 0)] := by
  have meaning : exec (.mailboxCommandDone ok) s = .next (s.modPlat (fun p =>
      { p with mbStat := packFields [(r.toNat, 8), (1, 0)],
               flash := if decide (s.plat.mbCmd.toNat = 3) && decide (s.plat.mbRes = some 0) && !ok then p.flash.dropLast else p.flash })) := by
    refine (if_neg (Bool.eq_false_iff.mp busy)).trans ?_
    simp only [code]
  exact ⟨_, meaning, rfl⟩

/-! ## The scan test -/

/-- A field above bit 0 does not see bit 0. -/
theorem fld_or_one (v : Word) (hi lo : Nat) (low : 1 ≤ lo) : fld (v ||| 1) hi lo = fld v hi lo := by
  have gone : 1 >>> lo = 0 := by
    rw [Nat.shiftRight_eq_div_pow]
    exact Nat.div_eq_of_lt (Nat.one_lt_two_pow (by omega))
  unfold fld
  rw [BitVec.toNat_or, ← Nat.shiftRight_eq_div_pow, Nat.shiftRight_or_distrib, show (1 : Word).toNat = 1 from rfl, gone, Nat.or_zero,
    Nat.shiftRight_eq_div_pow]

theorem scanStart_eq (v : BitVec 64) : exec (.scanStart v) s =
    .next ((s.modPlat (fun p =>
      { p with scElev := bitOf v 20, scPrio := BitVec.ofNat 4 (fld v 19 16), scTarget := BitVec.ofNat 8 (fld v 15 8) })).scanBegin) := by
  show Host.Outcome.next (s.scanctlPut (v ||| 1)) = _
  have elev : bitOf (v ||| 1) 20 = bitOf v 20 := by simp [bitOf]
  have start : bitOf (v ||| 1) 0 = true := by simp [bitOf]
  rw [State.scanctlPut, elev, start, fld_or_one v 19 16 (by decide), fld_or_one v 15 8 (by decide)]
  rfl

theorem scanEnd_plat (result : BitVec 4) (counts : Bool) : (s.scanEnd result counts).plat =
    { s.plat with
      scState := 0, scResult := result
      scRuns := if counts then BitVec.ofNat 32 (satTo 32 (s.plat.scRuns.toNat + 1)) else s.plat.scRuns } :=
  (apply_ite State.plat _ _ _).trans (ite_self _)

/-- A strand of the core under test has missed its bound. -/
theorem scanDrainTimeout_late (drains : s.plat.scState = 1) (late : s.plat.scAt + 80000 < s.ticks) :
    ∃ u, exec .scanDrainTimeout s = .next u ∧ u.plat.scState = 0 ∧ u.plat.scResult = 4 := by
  refine ⟨_, if_neg (by simp [drains, late]), ?_⟩
  rw [offerOverflow_plat, scanEnd_plat]
  exact ⟨rfl, rfl⟩

/-- An item that aborts the test of the core it has come to. -/
theorem scanAbort_eq {k : Nat} {i : Item} (there : s.items[k]? = some i) (untaken : i.taken = none) (queued : i.ovq = none)
    (test : s.underTest (gridCore i.x i.y) = true)
    (near : gridDist i.x i.y i.record.hx.toNat i.record.hy.toNat ≤ i.radius) (prio : s.plat.scPrio.toNat ≤ i.record.prio.toNat) :
    let c := gridCore i.x i.y
    let s0 := if s.plat.scState = 1 then s.scanDrain c else s
    let s1 := s0.scanEnd 3 false
    exec (.scanAbort k) s =
      if !(s0.usedSlots c).isEmpty then .next s0
      else .next (match s1.roomFor c i.record with | some n => s1.takeItem k c n | none => s1) := by
  intro c s0 s1
  show execScanAbort k s = _
  unfold execScanAbort
  simp only [there]
  refine (if_neg (by simp [test, near, untaken, queued, prio])).trans ?_
  show (if !(s0.usedSlots c).isEmpty then Host.Outcome.next s0 else match s1.roomFor c i.record with
    | some n => .next (s1.takeItem k c n)
    | none => .next s1) = _
  cases s1.roomFor c i.record <;> rfl

theorem scanPatternDone_core (pass : Bool) (runs : s.plat.scState = 2) (core : s.plat.runElev = false) :
    let s1 := s.scanEnd (if pass then 1 else 2) true
    exec (.scanPatternDone pass) s =
      .next (if pass then s1.offerOverflow s.plat.runTarget else s1.coreFails s.plat.runTarget) :=
  (if_neg (not_not.mpr runs)).trans ((if_neg (Bool.eq_false_iff.mp core)).trans (apply_ite Host.Outcome.next _ _ _).symm)

end

/-- Settles O29. -/
theorem hostServices : Obligations.HostServices := by
  refine ⟨fun s q off bs there => ⟨fun failed => ?_, fun good a0 some_ a1 fits => ?_, fun good bad => ?_, if_pos there, fun v => ?_⟩,
    fun s q r => ⟨launchRecord_joins, launchRecord_drops⟩, fun s q r rest queue => ?_, fun s pending => ⟨fun spent => ?_, fun left => ?_⟩,
    fun p l => take_report p l, fun s pending => ⟨_, ident_eq pending, rfl, rfl, ?_, rfl⟩, fun s pending => ?_,
    fun s r ok busy => ⟨fun lo hi res => ?_, fun unknown => ?_⟩, fun s v => scanStart_eq v,
    fun s drains late => scanDrainTimeout_late drains late, fun s k i there untaken queued => ?_,
    fun s pass runs core => scanPatternDone_core pass runs core⟩
  · exact if_pos (by rw [decide_eq_true failed, Bool.or_true])
  · exact (launchRecordWrite_eq there good).trans (if_pos (by simp [a0, some_, a1, fits]))
  · refine (launchRecordWrite_eq there good).trans (if_neg ?_)
    simp only [Bool.and_eq_true, decide_eq_true_eq]
    omega
  · exact congrArg Host.Outcome.next (if_neg there.not_ge)
  · intro k s1 l runs
    have meaning : exec (.serviceLaunch q) s = match s1.spawnWords l 0 (recordWords r) true with
      | .ok s2 => .next s2
      | .error (c, v) => .next ((s1.modQueue q (fun k => k.dropped 1)).note 0x05 k.pid (c.code.setWidth 64) v) :=
      serviceLaunch_eq queue runs
    refine ⟨fun s2 ok => ?_, fun c v failed => ?_⟩
    · rw [ok] at meaning
      exact meaning
    · rw [failed] at meaning
      exact meaning
  · exact (attest_eq pending).trans (if_pos spent)
  · exact ⟨_, (attest_eq pending).trans (if_neg left), rfl, rfl, rfl⟩
  · simp only [State.modPlat_plat]
  · intro off len
    exact ⟨fun long => (fwwrite_eq pending).trans (if_pos long),
      fun short => ⟨_, (fwwrite_eq pending).trans (if_neg short.not_gt), rfl, rfl⟩⟩
  · refine mailboxCommandDone_eq busy ?_
    rw [if_neg (by simp only [Bool.and_eq_true, decide_eq_true_eq]; omega),
      if_pos (by simp only [Bool.and_eq_true, decide_eq_true_eq]; omega), res]
  · refine mailboxCommandDone_eq (r := 1) busy ?_
    rw [if_neg (by simp only [Bool.and_eq_true, decide_eq_true_eq]; omega),
      if_neg (by simp only [Bool.and_eq_true, decide_eq_true_eq]; omega)]
  · intro c test near prio s0 s1
    have meaning := scanAbort_eq there untaken queued test near prio
    exact ⟨fun used => meaning.trans (if_pos (congrArg not (List.isEmpty_eq_false_iff.mpr used))), 
      fun empty => meaning.trans (if_neg (Bool.eq_false_iff.mp (congrArg not (List.isEmpty_iff.mpr empty))))⟩

end Sys2Proof.Proofs

namespace Sys2Proof.Proofs

/-!
Links and the laser: training, groups, NAKs, lanes, widths, the link table, and the laser's power states
(01 R7; 14 R358 to R367).
-/

open Sys2Proof.Machine Sys2Proof.Claim

section

variable {s : State} {n : Nat} {p : Port}

/-! ## Ports -/

theorem lt_of_port (there : s.ports[n]? = some p) : n < 8 := (Vector.getElem?_eq_some_iff.mp there).1

/-- A port changes by what it is. -/
theorem modPort_eq (there : s.ports[n]? = some p) (f : Port → Port) : s.modPort n f = s.modPort n (fun _ => f p) := by
  obtain ⟨lt, eq⟩ := Vector.getElem?_eq_some_iff.mp there
  unfold State.modPort
  simp only [lt, dif_pos, eq]

theorem ports_modPort (there : s.ports[n]? = some p) (f : Port → Port) : (s.modPort n f).ports[n]? = some (f p) := by
  obtain ⟨lt, eq⟩ := Vector.getElem?_eq_some_iff.mp there
  unfold State.modPort
  simp only [lt, dif_pos, eq]
  exact Vector.getElem?_set_self lt

theorem reroute_modPort (s : State) (n : Nat) (f : Port → Port) : (s.modPort n f).reroute = s.reroute := by
  unfold State.modPort
  split <;> rfl

/-! ## Training, widths and falls -/

theorem leaveGroups_eq (there : s.ports[n]? = some p) : s.leaveGroups n =
    ({ s with reroute := s.reroute ++ (p.unacked.map Prod.snd).filter (fun d => decide (d ≠ everyone)) } : State).modPort n
      (fun k => { k with unacked := [], out := 0 }) := by
  rw [State.leaveGroups, there]

theorem linkTrainDone_eq {peer : BitVec 11} {pp : BitVec 3} {lit : Nat} (there : s.ports[n]? = some p) (trains : p.state = 1) :
    let up : Port :=
      { p with state := 3, peer := peer, pport := pp, txSeq := 0, rxSeq := 0, unacked := [], out := 0, nakked := false, retrainDue := false,
               txBad := [], txIdle := [], lanes := p.lanes.map (fun l => { l with state := 1, back := false }) }
    let s1 := (((s.leaveGroups n).modPort n (fun _ => up)).rxNegotiated n (List.range (4 * (lit / 4))) lit).report n true
    ∀ q, s1.ports[n]? = some q → exec (.linkTrainDone n (peer, pp) lit) s = .next (if q.state = 3 then s1.negotiated n else s1) := by
  intro up s1 q trained
  show execLinkTrainDone n (peer, pp) lit s = _
  unfold execLinkTrainDone
  rw [there]
  refine (if_neg (not_not.mpr trains)).trans ?_
  show Host.Outcome.next (match s1.ports[n]? with | some q => if q.state = 3 then s1.negotiated n else s1 | none => s1) = _
  rw [trained]

theorem narrowNegotiateDone_tx (there : s.ports[n]? = some p) (frozen : p.state = 3) :
    exec (.narrowNegotiateDone (n, none)) s = .next (s.negotiated n) := by
  show execNarrowNegotiateDone (n, none) s = _
  simp only [execNarrowNegotiateDone, there]
  exact if_pos frozen

theorem narrowNegotiateDone_rx (there : s.ports[n]? = some p) (stands : p.stands = true) (m : List Nat) (lit : Nat) :
    exec (.narrowNegotiateDone (n, some (m, lit))) s = .next (s.rxNegotiated n m lit) := by
  show execNarrowNegotiateDone (n, some (m, lit)) s = _
  simp only [execNarrowNegotiateDone, there]
  exact if_pos stands

theorem negotiated_eq (there : s.ports[n]? = some p) :
    let q := p.settleWidth (litLanes s.plat.cur)
    s.negotiated n = if q.txw = 0 then s.linkFall n 5
      else s.modPort n (fun _ => (({ q with state := 2 } : Port).replayed q.out).pump) := by
  rw [State.negotiated, there]

/-! ## Health -/

theorem laneFailingReport_eq (there : s.ports[n]? = some p) (stands : p.stands = true) {lane : Nat} (lt : lane < 16) :
    exec (.laneFailingReport n lane) s =
      .next (s.modPort n (fun _ =>
        { p with state := if p.state = 4 then 4 else 3, txBad := p.txBad.filter (fun e => e.1 ≠ lane) ++ [(lane, s.ticks)] })) := by
  refine congrArg Host.Outcome.next ((modPort_eq there _).trans ?_)
  rw [if_pos (by simp [stands, lt])]

theorem lutilWindow_eq (there : s.ports[n]? = some p) (ends : p.window < s.ticks / 200000) :
    exec (.lutilWindow n) s =
      .next (s.modPort n (fun _ =>
        { p with txf := BitVec.ofNat 32 (satTo 32 p.txNow), rxf := BitVec.ofNat 32 (satTo 32 p.rxNow), txNow := 0, rxNow := 0,
                 window := s.ticks / 200000 })) := by
  refine congrArg Host.Outcome.next ((modPort_eq there _).trans ?_)
  rw [if_pos ends]

theorem laneHealthUpdate_eq {lane : Nat} {l : Lane} {power margin : BitVec 12} {fails slots recent : Nat} (there : s.ports[n]? = some p)
    (found : p.lanes[lane]? = some l) (stands : p.stands = true) (lit : l.state ≠ 4) :
    let m : Lane :=
      { l with power := power, margin := margin, ber := BitVec.ofNat 8 (berField fails slots), lcerr := BitVec.ofNat 16 (satTo 16 (l.lcerr.toNat + recent)) }
    let k : Lane :=
      if m.failing s.plat then (if l.state = 0 ∨ l.state = 1 then { m with state := 2 } else { m with badAt := s.ticks }) else m
    exec (.laneHealthUpdate n lane power margin fails slots recent) s =
      .next (s.modPort n (fun _ => { p with lanes := p.lanes.setIfInBounds lane k })) := by
  intro m k
  refine congrArg Host.Outcome.next ((modPort_eq there _).trans (congrArg (fun q => s.modPort n (fun _ => q)) ?_))
  simp only [found]
  refine (if_pos (by rw [stands, decide_eq_true lit]; rfl)).trans ?_
  simp only [Bool.or_eq_true, decide_eq_true_eq]
  rfl

/-- A lane that has not been failing for 100 ms is spare again, and no longer counts as bad. -/
theorem laneRecover_spare {lane : Nat} {l : Lane} (there : s.ports[n]? = some p) (found : p.lanes[lane]? = some l) (failed : l.state = 3)
    (long : l.badAt + 200000000 ≤ s.ticks) : ∃ u q, exec (.laneRecover n lane) s = .next u ∧ u.ports[n]? = some q ∧
      (∃ k, q.lanes[lane]? = some k ∧ k.state = 1 ∧ k.back = true) ∧ (∀ e ∈ q.txBad, e.1 = lane → s.ticks < e.2 + 200000000) := by
  obtain ⟨lt, _⟩ := Vector.getElem?_eq_some_iff.mp found
  refine ⟨_, _, rfl, ports_modPort there _, ?_⟩
  simp only [found]
  rw [if_pos (by rw [decide_eq_true failed, decide_eq_true long]; rfl)]
  refine ⟨⟨{ l with state := 1, back := true }, Vector.getElem?_setIfInBounds_self_of_lt lt, rfl, rfl⟩, fun e bad here => ?_⟩
  have young := (List.mem_filter.mp bad).2
  rw [decide_eq_true here, Bool.true_and] at young
  simpa using young

/-! ## Groups -/

theorem groupReceive_eq {g : LinkGroup} (there : s.ports[n]? = some p) (stands : p.stands = true) :
    let s1 := s.modPort n (fun k => (if g.tagOk then k.acked g.ack else k).slotsIn g.checks)
    exec (.groupReceive n g) s =
      if g.seq ≠ p.rxSeq then .next s1
      else if !g.tagOk then
        let s2 := s1.modPort n (fun k => { k with nakked := true })
        .next (if p.skid && !p.nakked && (s2.inTransit g).isNone then s2.skidRepair g else s2)
      else .next ((s1.modPort n (fun k => { k with rxSeq := k.rxSeq + 1, nakked := false, rxNow := k.rxNow + g.flits })).groupIn g) := by
  intro s1
  show execGroupReceive n g s = _
  simp only [execGroupReceive, there]
  exact if_neg (by simp [stands])

theorem groupIn_passes {g : LinkGroup} {d : BitVec 11} (dest : g.dest = some d) (other : s.plat.fabv = false ∨ d ≠ s.plat.dev) :
    s.groupIn g = s.inject d.toNat 1 := by
  have away : s.inTransit g = some d.toNat := by
    rw [State.inTransit, dest]
    refine if_neg ?_
    rcases other with fresh | away
    · rw [fresh, Bool.false_and]
      exact Bool.false_ne_true
    · rw [decide_eq_false away, Bool.and_false]
      exact Bool.false_ne_true
  rw [State.groupIn, away]

theorem groupIn_here {g : LinkGroup} (here : g.dest = none ∨ (s.plat.fabv = true ∧ g.dest = some s.plat.dev)) :
    s.groupIn g = if g.cls = .msg then s.linesIn g.pid g.lines else s.cancelsIn g.cancels := by
  have stays : s.inTransit g = none := by
    rcases here with nowhere | ⟨valid, dest⟩
    · rw [State.inTransit, nowhere]
    · rw [State.inTransit, dest]
      exact if_pos (by rw [valid, decide_eq_true rfl]; rfl)
  rw [State.groupIn, stays]

theorem nakReceive_eq {q : BitVec 16} (there : s.ports[n]? = some p) : exec (.nakReceive n q) s =
    .next (s.modPort n (fun _ =>
      if p.state = 2 && (p.unacked.take p.out).any (fun k => k.1 = q) then
        p.replayed (((p.unacked.take p.out).dropWhile (fun k => k.1 ≠ q)).length)
      else p)) :=
  congrArg Host.Outcome.next (modPort_eq there _)

/-! ## The link table -/

theorem newer_iff (a b : LinkRec) : newer a b = true ↔ b.epoch < a.epoch ∨ (b.epoch = a.epoch ∧ b.reporter.toNat < a.reporter.toNat) := by
  simp only [newer, Bool.or_eq_true, Bool.and_eq_true, decide_eq_true_eq, eq_comm (a := a.epoch)]

theorem linkRecordReceive_new {r : LinkRec} (unknown : s.linkRec (r.dev.toNat, r.port.toNat) = none) :
    exec (.linkRecordReceive r) s = .next (s.takeRecord r) := by
  show execLinkRecordReceive r s = _
  simp only [execLinkRecordReceive, unknown]

theorem linkRecordReceive_held {r l : LinkRec} (held : s.linkRec (r.dev.toNat, r.port.toNat) = some l) :
    exec (.linkRecordReceive r) s =
      .next (if l.epoch < r.epoch ∨ (l.epoch = r.epoch ∧ l.reporter.toNat < r.reporter.toNat) then s.takeRecord r else s) := by
  show execLinkRecordReceive r s = _
  simp only [execLinkRecordReceive, held, newer_iff]
  exact (apply_ite Host.Outcome.next _ _ _).symm

theorem sameDigest_of_all {d : BitVec 64} {theirs : List (Nat × BitVec 64)}
    (all : ∀ (n : Nat) (p : Port), s.ports[n]? = some p → p.stands = true → (n, d) ∈ theirs) : s.sameDigest d theirs = true := by
  refine List.all_eq_true.mpr fun n _ => ?_
  cases there : s.ports[n]? with
  | none => rfl
  | some p =>
    cases stands : p.stands with
    | false => simp [stands]
    | true => simpa [stands] using all n p there stands

theorem tableAgree_eq {d : BitVec 64} {theirs : List (Nat × BitVec 64)} (changing : s.changing = true) (old : s.lastRec + 100000 ≤ s.ticks)
    (all : ∀ (n : Nat) (p : Port), s.ports[n]? = some p → p.stands = true → (n, d) ∈ theirs) :
    exec (.tableAgree (d, theirs)) s =
      .next ((({ s with table := s.links, agreed := s.agreed + 1, changing := false } : State).abandonFabric.leaveFallen.sendRerouted.collsAgree).execEvent
        0 0x0E (fld d 47 0) 0) :=
  if_neg (by simp [changing, old, sameDigest_of_all all])

/-! ## The laser -/

theorem laserReq_eq (r : BitVec 2) : let s1 := s.modPlat (fun p => { p with req := r })
    exec (.laserRequest r) s =
      .next (if s.plat.busy = true ∨ r = s.plat.cur then s1 else s1.modPlat (fun p => { p with busy := true, target := some r })) := by
  intro s1
  refine congrArg Host.Outcome.next ?_
  unfold State.laserReq
  simp only [Bool.or_eq_true, decide_eq_true_eq]
  rfl

theorem laserTransitionDone_eq {t : BitVec 2} (target : s.plat.target = some t)
    (ready : t ≠ 2 ∨ ∀ p ∈ s.ports.toList, p.state ≠ 3 ∧ p.out = 0) :
    let s1 := (s.modPlat (fun p => { p with busy := false, target := none })).laserEnter t
    exec .laserTransitionDone s = .next (if s1.plat.req = t then s1 else s1.laserBegin s1.plat.req) := by
  intro s1
  show execLaserTransitionDone s = _
  simp only [execLaserTransitionDone, target]
  refine if_neg ?_
  rw [Bool.and_eq_true, decide_eq_true_eq]
  rintro ⟨sleep, busy⟩
  rcases ready with wake | idle
  · exact wake sleep
  · rw [← Vector.any_toList] at busy
    obtain ⟨p, there, active⟩ := List.any_eq_true.mp busy
    obtain ⟨thawed, empty⟩ := idle p there
    rw [decide_eq_false thawed, Bool.false_or, decide_eq_true_eq] at active
    exact active empty

theorem laserWake_eq (sleeps : s.plat.cur = 2) (idle : s.plat.busy = false)
    (queued : ∃ p ∈ s.ports.toList, p.state = 4 ∧ p.unacked ≠ []) : exec .laserWake s = .next (s.laserReq 0) := by
  have waits : s.ports.any (fun p => p.state = 4 && !p.unacked.isEmpty) = true := by
    obtain ⟨p, there, asleep, some_⟩ := queued
    rw [← Vector.any_toList]
    exact List.any_eq_true.mpr ⟨p, there, by simp [asleep, some_]⟩
  exact if_pos (by rw [sleeps, idle, waits]; rfl)

end

theorem linkEvents : LinkEvents := by
  refine ⟨fun s n p peer pp there => ⟨fun trains lit => linkTrainDone_eq there trains, narrowNegotiateDone_tx there,
      fun stands m lit => ⟨narrowNegotiateDone_rx there stands m lit, fun few => if_pos few⟩, ?_, congrArg Host.Outcome.next (modPort_eq there _), ?_, ?_,
      fun st => ⟨rfl, rfl, rfl, rfl, rfl⟩, rfl, rfl, fun lane stands lt => laneFailingReport_eq there stands lt, lutilWindow_eq there⟩,
    fun s n lane p l power margin fails slots recent there found => ⟨laneHealthUpdate_eq there found, laneRecover_spare there found⟩,
    fun s n p g there stands => ?_, fun s g => ⟨fun d => groupIn_passes, groupIn_here⟩, fun s n p q there => ⟨fun runs some_ => ?_, fun none_ => ?_⟩,
    fun s r l => ⟨linkRecordReceive_new, linkRecordReceive_held⟩, fun s d theirs changing old all => tableAgree_eq changing old all,
    fun s d left => ?_⟩
  · intro q
    exact ⟨fun narrow => (negotiated_eq there).trans (if_pos narrow), fun wide => (negotiated_eq there).trans (if_neg wide)⟩
  · rw [leaveGroups_eq there]
    exact ports_modPort (s := { s with reroute := s.reroute ++ (p.unacked.map Prod.snd).filter (fun d => decide (d ≠ everyone)) }) there _
  · rw [leaveGroups_eq there, reroute_modPort]
  · intro s1
    have meaning := groupReceive_eq (g := g) there stands
    refine ⟨fun other => meaning.trans (if_pos other), fun next bad => ?_, fun next good => ?_⟩
    · exact meaning.trans ((if_neg (not_not.mpr next)).trans (if_pos (congrArg not bad)))
    · exact meaning.trans ((if_neg (not_not.mpr next)).trans (if_neg (Bool.eq_false_iff.mp (congrArg not good))))
  · rw [nakReceive_eq there, if_pos (by rw [decide_eq_true runs, some_]; rfl)]
  · rw [nakReceive_eq there, if_neg]
    rcases none_ with other | none_
    · rw [decide_eq_false other, Bool.false_and]
      exact Bool.false_ne_true
    · rw [none_, Bool.and_false]
      exact Bool.false_ne_true
  · intro s1
    refine ⟨fun p way => ?_, fun nowhere => ?_⟩
    · rw [State.sendRerouted, left]
      simp only [List.foldl_cons, List.foldl_nil]
      rw [show ({ s with reroute := [] } : State).route d = some p from way]
    · rw [State.sendRerouted, left]
      simp only [List.foldl_cons, List.foldl_nil]
      rw [show ({ s with reroute := [] } : State).route d = none from nowhere]
      show ({ s with reroute := [d] } : State) = s
      rw [← left]

theorem laserEvents : LaserEvents :=
  ⟨fun _ r => laserReq_eq r, fun _ _ target ready => laserTransitionDone_eq target ready,
    fun _ sleeps idle queued => laserWake_eq sleeps idle queued,
    fun _ spare steady => if_neg (by simp [spare, steady]), fun _ switching => if_neg (by simp [switching])⟩

/-- Settles O59. -/
theorem linksAndLaser : Obligations.LinksAndLaser := ⟨linkEvents, laserEvents⟩

end Sys2Proof.Proofs

namespace Sys2Proof.Proofs

/-!
Remote accesses at their target and their source, and migration packets (14 R349 to R352, R355, R356).
-/

open Sys2Proof.Machine Sys2Proof.Claim

section

variable {s : State} {r : RemoteReq}

/-! ## At the target -/

theorem remoteRequestArrive_load (served : s.reqRefused r = false) (load : r.kind = .load) :
    let s1 := s.consume none r.pid r.offset.toNat r.len
    exec (.remoteRequestArrive r) s = .next (s1.replyTo r.src (s1.homeBytes r.pid r.offset.toNat r.len)) := by
  intro s1
  show execRemoteRequestArrive r s = _
  simp only [execRemoteRequestArrive, load]
  exact if_neg (Bool.eq_false_iff.mp served)

theorem remoteRequestArrive_store (served : s.reqRefused r = false) (store : r.kind = .store) :
    exec (.remoteRequestArrive r) s =
      .next ((s.homePut r.pid r.offset.toNat (r.data.take r.len)).replyTo r.src (s.oldBytes r)) := by
  show execRemoteRequestArrive r s = _
  simp only [execRemoteRequestArrive, store]
  exact if_neg (Bool.eq_false_iff.mp served)

theorem remoteRequestArrive_known {op : BitVec 4} {dbl red : Bool} {e : ReplyEntry} (served : s.reqRefused r = false)
    (amo : r.kind = .amo op dbl red) (known : s.replied r.src r.tag = some e) :
    exec (.remoteRequestArrive r) s = .next (s.replyTo r.src e.reply) := by
  show execRemoteRequestArrive r s = _
  simp only [execRemoteRequestArrive, amo, known]
  exact if_neg (Bool.eq_false_iff.mp served)

theorem remoteRequestArrive_amo {op : BitVec 4} {dbl red : Bool} (served : s.reqRefused r = false)
    (amo : r.kind = .amo op dbl red) (fresh : s.replied r.src r.tag = none) :
    exec (.remoteRequestArrive r) s =
      if replyCap ≤ s.replies.length then .next (s.replyTo r.src [])
      else .next (s.remoteAtomic r op.toNat (if dbl then 64 else 32)) := by
  show execRemoteRequestArrive r s = _
  simp only [execRemoteRequestArrive, amo, fresh]
  exact if_neg (Bool.eq_false_iff.mp served)

/-- An entry of the reply cache is freed 2 ms after its reply. -/
theorem replyCacheExpiry_replies (src : BitVec 11) (tag : BitVec 16) : ∃ u, exec (.replyCacheExpiry src tag) s = .next u ∧
    ∀ e, e ∈ u.replies ↔ e ∈ s.replies ∧ ¬ (e.src = src ∧ e.tag = tag ∧ e.since + 4000000 ≤ s.ticks) := by
  refine ⟨_, rfl, fun e => List.mem_filter.trans (and_congr_right fun _ => ?_)⟩
  simp only [Bool.not_eq_true', Bool.and_eq_false_iff, decide_eq_false_iff_not]
  tauto

/-! ## At the source -/

theorem remoteReplyArrive_eq {tag : BitVec 16} {r : RemoteOut} {refused : Bool} {bs : List (BitVec 8)} (asked : s.request tag = some r)
    (flies : r.inFlight = true) : exec (.remoteReplyArrive tag refused bs) s =
      if refused then .next (s.remoteFail r .refused) else .next (s.remoteAnswer r bs) := by
  show execRemoteReplyArrive tag refused bs s = _
  simp only [execRemoteReplyArrive, asked]
  exact if_neg (by simp [flies])

theorem remoteReissue_eq {tag : BitVec 16} {r : RemoteOut} (asked : s.request tag = some r) (sent : r.attempts ≠ 0)
    (late : r.since + 500000 ≤ s.ticks) : exec (.remoteReissue tag) s =
      if !s.reach r.dev.toNat then .next (s.remoteFail r .unreachable)
      else if 4 ≤ r.attempts then .next (s.remoteFail r .timedOut)
      else
        .next ((s.modRequest tag (fun k => { k with attempts := k.attempts + 1, since := s.ticks, inFlight := true })).inject
          r.dev.toNat r.data.length) := by
  show execRemoteReissue tag s = _
  simp only [execRemoteReissue, asked]
  refine if_neg ?_
  rw [decide_eq_false sent, Bool.false_or, decide_eq_true_eq]
  exact late.not_gt

theorem replyCacheRetry_amo {tag : BitVec 16} {r : RemoteOut} {op : BitVec 4} {dbl red : Bool} (asked : s.request tag = some r)
    (sent : r.attempts ≠ 0) (amo : r.kind = .amo op dbl red) : exec (.replyCacheRetry tag) s =
      .next ((s.modRequest tag (fun k => { k with since := s.ticks, inFlight := true })).inject r.dev.toNat r.data.length) := by
  show execReplyCacheRetry tag s = _
  simp only [execReplyCacheRetry, asked, amo]
  exact if_neg sent

end

theorem remoteEvents : RemoteEvents := by
  refine ⟨fun s r => ?_, fun s src tag => replyCacheExpiry_replies src tag, fun s tag r asked => ⟨fun flies => ⟨fun bs => ?_, fun bs => ?_⟩,
    fun sent late => ?_, fun op dbl red sent amo => replyCacheRetry_amo asked sent amo⟩, fun s tag => rfl⟩
  · intro pa
    refine ⟨fun refused => if_pos refused, fun served => ⟨remoteRequestArrive_load served, remoteRequestArrive_store served,
      fun op dbl red amo => ⟨fun e known => remoteRequestArrive_known served amo known, fun fresh full => ?_, fun fresh room => ?_⟩⟩⟩
    · exact (remoteRequestArrive_amo served amo fresh).trans (if_pos full)
    · exact (remoteRequestArrive_amo served amo fresh).trans (if_neg room.not_ge)
  · exact (remoteReplyArrive_eq asked flies).trans (if_pos rfl)
  · exact (remoteReplyArrive_eq asked flies).trans (if_neg Bool.false_ne_true)
  · have meaning := remoteReissue_eq asked sent late
    refine ⟨fun lost => meaning.trans (if_pos (congrArg not lost)), fun way last => ?_, fun way again => ?_⟩
    · exact meaning.trans ((if_neg (Bool.eq_false_iff.mp (congrArg not way))).trans (if_pos last))
    · exact meaning.trans ((if_neg (Bool.eq_false_iff.mp (congrArg not way))).trans (if_neg again.not_ge))

section

variable {s : State} {p : MigPacket} {tag : BitVec 16} {m : MigOut}

/-! ## Migration -/

theorem migrationArrive_known (known : (s.replied p.src p.tag).isSome = true) :
    exec (.migrationArrive p) s = .next (s.inject p.src.toNat 0) := if_pos known

theorem migrationArrive_refused (fresh : s.replied p.src p.tag = none) (full : s.canArrive (packetSlot p).pid = none) :
    exec (.migrationArrive p) s = .next (s.inject p.src.toNat 0) := by
  show execMigrationArrive p s = _
  simp only [execMigrationArrive, full, fresh]
  rfl

theorem migrationArrive_taken {pa : Nat} (fresh : s.replied p.src p.tag = none) (room : s.canArrive (packetSlot p).pid = some pa) :
    let x0 := packetSlot p
    let f := (s.takeFrame pa).1
    let s1 := (s.takeFrame pa).2
    let x : Slot :=
      { x0 with record := { x0.record with frame := f, hx := BitVec.ofNat 4 (s1.sliceRouter p.target.toNat).1, hy := 7, hrad := 8 }, pooled := some (s1.job x0.pid).poolGen, rmax := 15 }
    let s2 := (s1.modJob x0.pid (fun j => { j with count := j.count + 1 })).recordReply p.src x0.pid p.tag []
    let s3 := ({ s2 with away := alSet s2.away x.sid x } : State).awayFrame x.sid 3
    let e := edgeRouter ((Config.freeWord s3.freeCtr).toNat % 60)
    let item : Item :=
      { record := x.record, pc := x.pc, x := e.1, y := e.2, radius := 8, rmax := 15, ring := none, ovq := none, taken := none, total := 1, since := s3.ticks, arrived := s3.nextArrival }
    exec (.migrationArrive p) s =
      .next (({ s3 with items := s3.items ++ [item], freeCtr := s3.freeCtr + 1 } : State).inject p.src.toNat 0) := by
  intro x0 f s1 x s2 s3 e item
  show execMigrationArrive p s = _
  unfold execMigrationArrive
  refine (if_neg (by simp [fresh])).trans ?_
  simp only [room]
  rfl

/-- The source's state once a migration is acknowledged, before the old frame's record is written. -/
abbrev acknowledged (s : State) (tag : BitVec 16) (m : MigOut) : State :=
  let s1 := ({ s with migOut := s.migOut.filter (fun k => k.tag ≠ tag) } : State).modJob m.slot.pid (fun j =>
    { j with count := j.count - 1, farDevs := setInsert j.farDevs m.dev.toNat })
  if m.slot.bound.cancel then s1.inject m.dev.toNat 64 else s1

theorem migrationAck_ok {s3 : State} (there : s.migOut.find? (fun m => m.tag = tag) = some m)
    (written : (acknowledged s tag m).recordWrite 0 m.slot 7 m.dev.toNat = .ok s3) :
    exec (.migrationAck tag) s = .next (s3.returnFrame m.slot) := by
  show execMigrationAck tag s = _
  simp only [execMigrationAck, there, written]

theorem migrationAck_error {e : Cause} (there : s.migOut.find? (fun m => m.tag = tag) = some m)
    (failed : (acknowledged s tag m).recordWrite 0 m.slot 7 m.dev.toNat = .error e) :
    exec (.migrationAck tag) s = .next ((acknowledged s tag m).fatalCause m.slot.pid
      { cause := Cause.framef.code, src := 0xFFFF, flags := 0, xpc := m.slot.pc, xval := m.slot.record.frame,
        time := (acknowledged s tag m).timeNs }) := by
  show execMigrationAck tag s = _
  simp only [execMigrationAck, there, failed]

theorem migrationRefused_eq {why : MigFail} (there : s.migOut.find? (fun m => m.tag = tag) = some m) (failed : s.migFailed m why = true) :
    let x := m.slot
    let s1 : State := { s with migOut := s.migOut.filter (fun k => k.tag ≠ tag) }
    let f : HeldFault := { cause := (migCause why).code, xpc := x.pc, xval := m.va, late := false, final := false }
    let y : Slot := { x with park := none, bound := { x.bound with late := some f } }
    let s4 : State := { s1 with away := alSet s.away x.sid y }
    exec (.migrationRefused tag why) s =
      .next ((s4.awayFrame x.sid 3).enterItem y.record y.pc y.record.hx.toNat y.record.hy.toNat 1 y.rmax) := by
  intro x s1 f y s4
  show execMigrationRefused tag why s = _
  simp only [execMigrationRefused, there]
  exact if_neg (by simp [failed])

end

theorem migrationEvents : MigrationEvents := by
  refine ⟨fun s p => ?_, fun s tag m there => ?_⟩
  · intro x0
    refine ⟨migrationArrive_known, migrationArrive_refused, fun pa fresh room => ?_⟩
    intro f s1 x s2 s3 e edge
    subst edge
    exact migrationArrive_taken fresh room
  · intro x s1 s2' s2
    exact ⟨fun s3 written => migrationAck_ok there written, fun e failed => migrationAck_error there failed,
      fun why failed => migrationRefused_eq there failed⟩

/-- Settles O60. -/
theorem remoteAndMigration : Obligations.RemoteAndMigration := ⟨remoteEvents, migrationEvents⟩

end Sys2Proof.Proofs

namespace Sys2Proof.Proofs

/-!
THE FORM OF THE MEMORY, AND THAT EVERY INSTRUCTION ANSWERS A STATE. Two claims about every function of the model that
gives a state: it keeps the memory in its canonical form (00 R2, 04 R94), and no arm of `exec` answers a fault of the model
or a refusal (02 R36). Both follow the definitions branch by branch, so they are proved at once: `Canon P s` says that the
memory of `s` is canonical where `P` holds, and `Answers P r` that the result `r` is a next state with such a memory. With
`P` false nothing is asked of the memory, and `Answers` says only that there is a next state. The rules below are for the shapes
that results take; after them each `foo_canon` or `foo_answers` says this of the model's `foo`, in the order of the model.
-/

open Sys2Proof.Machine Sys2Proof.Claim

/-- The memory of a state is in its canonical form, as far as `P` asks. -/
def Canon (P : Prop) (s : State) : Prop := P → Memory.wf s.mem = true

/-- A result is a next state, whose memory is canonical as far as `P` asks. -/
def Answers (P : Prop) (r : Result) : Prop := ∃ t, r = .next t ∧ Canon P t

/-- A state that an operation gives where it does not fail. -/
def OkCanon (P : Prop) {ε : Type} (r : Except ε State) : Prop := ∀ t, r = .ok t → Canon P t

/-- A state that an operation gives where it gives any. -/
def SomeCanon (P : Prop) (r : Option State) : Prop := ∀ t, r = some t → Canon P t

/-- A state that an operation gives where it gives any and does not fail. -/
def SomeOkCanon (P : Prop) {ε : Type} (r : Option (Except ε State)) : Prop := ∀ t, r = some (.ok t) → Canon P t

/-- A result that stands where there is any. -/
def SomeAnswers (P : Prop) (r : Option Result) : Prop := ∀ t, r = some t → Answers P t

/-- The state in which an operation ends, and the one it gives where it does not fail. -/
def BothCanon (P : Prop) {ε : Type} (r : Except ε State × State) : Prop := OkCanon P r.1 ∧ Canon P r.2

section Rules

variable {P : Prop} {α β ε : Type}

/-! ## States -/

theorem canon_same {s t : State} (hs : Canon P s) (same : t.mem = s.mem) : Canon P t :=
  fun p => same ▸ hs p

theorem canon_put {s t : State} {a : Nat} {bs : List Byte} (hs : Canon P s) (put : t.mem = memPut s.mem a bs) : Canon P t :=
  fun p => put ▸ memPut_wf bs s.mem a (hs p)

theorem canon_set {s t : State} {a : Nat} {b : Byte} (hs : Canon P s) (set : t.mem = memSet s.mem a b) : Canon P t :=
  fun p => set ▸ memSet_wf s.mem a b (hs p)

theorem canon_filter {s t : State} {f : Host.Cell → Bool} (hs : Canon P s) (filter : t.mem = s.mem.filter f) : Canon P t :=
  fun p => filter ▸ filter_wfFrom f s.mem 0 (hs p)

theorem canon_of_empty {t : State} (empty : t.mem = []) : Canon P t := fun _ => empty ▸ rfl

theorem canon_ite {c : Prop} [Decidable c] {s t : State} (hs : Canon P s) (ht : Canon P t) : Canon P (if c then s else t) :=
  iteInduction (fun _ => hs) (fun _ => ht)

/-! ## Pairs of a value and a state -/

theorem canon_ite_snd {c : Prop} [Decidable c] {s t : α × State} (hs : Canon P s.2) (ht : Canon P t.2) :
    Canon P (if c then s else t).2 :=
  iteInduction (motive := fun r : α × State => Canon P r.2) (fun _ => hs) (fun _ => ht)

theorem canon_ite_fst {c : Prop} [Decidable c] {s t : State × α} (hs : Canon P s.1) (ht : Canon P t.1) :
    Canon P (if c then s else t).1 :=
  iteInduction (motive := fun r : State × α => Canon P r.1) (fun _ => hs) (fun _ => ht)

theorem canon_of_snd {r : α × State} {a : α} {t : State} (hr : Canon P r.2) (e : r = (a, t)) : Canon P t := by
  subst e
  exact hr

theorem canon_of_fst {r : State × α} {a : α} {t : State} (hr : Canon P r.1) (e : r = (t, a)) : Canon P t := by
  subst e
  exact hr

theorem canon_foldl {f : State → α → State} (hf : ∀ t a, Canon P t → Canon P (f t a)) {l : List α} {s : State}
    (hs : Canon P s) : Canon P (l.foldl f s) :=
  List.foldlRecOn l f hs (fun t ht a _ => hf t a ht)

theorem canon_foldl_fst {f : State × β → α → State × β} (hf : ∀ t a, Canon P t.1 → Canon P (f t a).1) {l : List α}
    {s : State × β} (hs : Canon P s.1) : Canon P (l.foldl f s).1 :=
  List.foldlRecOn (motive := fun r => Canon P r.1) l f hs (fun t ht a _ => hf t a ht)

/-! ## Results -/

theorem answers_next {s : State} (hs : Canon P s) : Answers P (.next s) := ⟨s, rfl, hs⟩

theorem answers_ite {c : Prop} [Decidable c] {q r : Result} (hq : Answers P q) (hr : Answers P r) :
    Answers P (if c then q else r) :=
  iteInduction (fun _ => hq) (fun _ => hr)

theorem canon_of_next {r : Result} {t : State} (hr : Answers P r) (e : r = .next t) : Canon P t := by
  obtain ⟨u, eq, hu⟩ := hr
  cases e.symm.trans eq
  exact hu

theorem answers_getD {o : Option Result} {r : Result} (ho : SomeAnswers P o) (hr : Answers P r) : Answers P (o.getD r) := by
  cases o with
  | none => exact hr
  | some q => exact ho q rfl

/-! ## States that may be missing -/

theorem okCanon_ok {t : State} (ht : Canon P t) : OkCanon P (.ok t : Except ε State) := by
  rintro u ⟨⟩
  exact ht

theorem okCanon_error {e : ε} : OkCanon P (.error e) := fun _ h => nomatch h

theorem okCanon_ite {c : Prop} [Decidable c] {q r : Except ε State} (hq : OkCanon P q) (hr : OkCanon P r) :
    OkCanon P (if c then q else r) :=
  iteInduction (fun _ => hq) (fun _ => hr)

theorem someCanon_some {t : State} (ht : Canon P t) : SomeCanon P (some t) := by
  rintro u ⟨⟩
  exact ht

theorem someCanon_none : SomeCanon P none := fun _ h => nomatch h

theorem someCanon_ite {c : Prop} [Decidable c] {q r : Option State} (hq : SomeCanon P q) (hr : SomeCanon P r) :
    SomeCanon P (if c then q else r) :=
  iteInduction (fun _ => hq) (fun _ => hr)

theorem someOkCanon_some {r : Except ε State} (hr : OkCanon P r) : SomeOkCanon P (some r) :=
  fun t h => hr t (Option.some.inj h)

theorem someOkCanon_none : SomeOkCanon P (none : Option (Except ε State)) := fun _ h => nomatch h

theorem someOkCanon_ite {c : Prop} [Decidable c] {q r : Option (Except ε State)} (hq : SomeOkCanon P q)
    (hr : SomeOkCanon P r) : SomeOkCanon P (if c then q else r) :=
  iteInduction (fun _ => hq) (fun _ => hr)

theorem bothCanon_ite {c : Prop} [Decidable c] {q r : Except ε State × State} (hq : BothCanon P q) (hr : BothCanon P r) :
    BothCanon P (if c then q else r) :=
  iteInduction (fun _ => hq) (fun _ => hr)

theorem both_ok {r : Except ε State × State} {t u : State} (hr : BothCanon P r) (e : r = (.ok t, u)) : Canon P t := by
  subst e
  exact hr.1 t rfl

theorem both_snd {r : Except ε State × State} {o : Except ε State} {u : State} (hr : BothCanon P r) (e : r = (o, u)) :
    Canon P u := by
  subst e
  exact hr.2

end Rules

end Sys2Proof.Proofs

namespace Sys2Proof.Proofs

/-!
The form of the memory: the plain operations, the accesses to memory, and those on strands (04, 05, 12 R283 to R301).
-/

open Sys2Proof.Machine Sys2Proof.Claim

section

variable {P : Prop}

/-! ## The reset state -/

theorem reset_canon : Canon P State.reset := canon_of_empty rfl

/-! ## The plainest operations -/

theorem setSlot_canon {s : State} {n : Nat} {x : Slot} (hs : Canon P s) : Canon P (s.setSlot n x) := by
  unfold State.setSlot
  exact canon_ite (canon_same hs rfl) (canon_same hs rfl)

theorem modSlot_canon {s : State} {n : Nat} {f : Slot → Slot} (hs : Canon P s) : Canon P (s.modSlot n f) := by
  unfold State.modSlot
  exact setSlot_canon hs

theorem modHart_canon {s : State} {f : Slot → Slot} (hs : Canon P s) : Canon P (s.modHart f) := by
  unfold State.modHart
  exact canon_same hs rfl

theorem setFocus_canon {s : State} {n : Nat} (hs : Canon P s) : Canon P (s.setFocus n) := by
  unfold State.setFocus
  exact canon_ite hs (canon_same hs rfl)

theorem modStrand_canon {s : State} {sid : Nat} {f : Slot → Slot} (hs : Canon P s) : Canon P (s.modStrand sid f) := by
  unfold State.modStrand
  split
  · exact modSlot_canon hs
  · split
    · exact canon_same hs rfl
    · exact hs

theorem setCore_canon {s : State} {n : Nat} {c : Core} (hs : Canon P s) : Canon P (s.setCore n c) := by
  unfold State.setCore
  exact canon_same hs rfl

theorem modCore_canon {s : State} {n : Nat} {f : Core → Core} (hs : Canon P s) : Canon P (s.modCore n f) := by
  unfold State.modCore
  exact setCore_canon hs

theorem setTile_canon {s : State} {n : Nat} {t : Tile} (hs : Canon P s) : Canon P (s.setTile n t) := by
  unfold State.setTile
  exact canon_same hs rfl

theorem modTile_canon {s : State} {n : Nat} {f : Tile → Tile} (hs : Canon P s) : Canon P (s.modTile n f) := by
  unfold State.modTile
  exact setTile_canon hs

theorem modOpt_canon {s : State} {n : Nat} {f : Optics → Optics} (hs : Canon P s) : Canon P (s.modOpt n f) := by
  unfold State.modOpt
  exact modTile_canon hs

theorem setJob_canon {s : State} {pid : BitVec 12} {j : Job} (hs : Canon P s) : Canon P (s.setJob pid j) := by
  unfold State.setJob
  exact canon_same hs rfl

theorem modJob_canon {s : State} {pid : BitVec 12} {f : Job → Job} (hs : Canon P s) : Canon P (s.modJob pid f) := by
  unfold State.modJob
  exact setJob_canon hs

theorem modLp_canon {s : State} {pid : BitVec 12} {id : Nat} {f : Lp → Lp} (hs : Canon P s) : Canon P (s.modLp pid id f) := by
  unfold State.modLp
  exact modJob_canon hs

theorem modQueue_canon {s : State} {n : Nat} {f : LaunchQueue → LaunchQueue} (hs : Canon P s) : Canon P (s.modQueue n f) := by
  unfold State.modQueue
  exact canon_same hs rfl

theorem modPort_canon {s : State} {n : Nat} {f : Port → Port} (hs : Canon P s) : Canon P (s.modPort n f) := by
  unfold State.modPort
  split
  · exact canon_same hs rfl
  · exact hs

theorem modPlat_canon {s : State} {f : Platform → Platform} (hs : Canon P s) : Canon P (s.modPlat f) := by
  unfold State.modPlat
  exact canon_same hs rfl

theorem tableChange_canon {s : State} (hs : Canon P s) : Canon P s.tableChange := by
  unfold State.tableChange
  exact modPlat_canon hs

theorem tickFree_canon {s : State} (hs : Canon P s) : Canon P s.tickFree := by
  unfold State.tickFree
  exact canon_same hs rfl

theorem sketchAdd_canon {s : State} {r : SkRec} (hs : Canon P s) : Canon P (s.sketchAdd r) := by
  unfold State.sketchAdd
  exact canon_ite hs (canon_same hs rfl)

theorem noteFrom_canon {s : State} {kind : BitVec 8} {src : BitVec 16} {code : Nat} {pid : BitVec 12} {a0 a1 : Word}
    (hs : Canon P s) : Canon P (s.noteFrom kind src code pid a0 a1) := by
  unfold State.noteFrom
  exact sketchAdd_canon hs

theorem note_canon {s : State} {code : Nat} {pid : BitVec 12} {a0 a1 : Word} (hs : Canon P s) :
    Canon P (s.note code pid a0 a1) := by
  unfold State.note
  exact noteFrom_canon hs

theorem noteEngine_canon {s : State} {code : Nat} {pid : BitVec 12} {a0 a1 : Word} (hs : Canon P s) :
    Canon P (s.noteEngine code pid a0 a1) := by
  unfold State.noteEngine
  exact noteFrom_canon hs

theorem signalHost_canon {s : State} {v : BitVec 6} (hs : Canon P s) : Canon P (s.signalHost v) := by
  unfold State.signalHost
  exact modPlat_canon hs

theorem execEvent_canon {s : State} {q code arg : Nat} {pid : BitVec 12} (hs : Canon P s) :
    Canon P (s.execEvent q code arg pid) := by
  unfold State.execEvent
  extract_lets c s1
  have hs1 : Canon P s1 := signalHost_canon (note_canon hs)
  exact canon_ite (setCore_canon hs1) (note_canon hs1)

/-! ## Link records -/

theorem inject_canon {s : State} {dev bytes : Nat} (hs : Canon P s) : Canon P (s.inject dev bytes) := by
  unfold State.inject
  split
  · exact modPort_canon hs
  · exact hs

theorem sendRerouted_canon {s : State} (hs : Canon P s) : Canon P s.sendRerouted := by
  unfold State.sendRerouted
  exact canon_foldl (fun _ _ ht => by
      split
      · exact modPort_canon ht
      · exact canon_same ht rfl) (canon_same hs rfl)

/-! ## Memory and translation -/

theorem claim_canon {s : State} {pid : BitVec 12} {sec : Nat} (hs : Canon P s) : Canon P (s.claim pid sec) := by
  unfold State.claim
  refine canon_ite ?_ hs
  split
  · exact canon_same hs rfl
  · refine canon_ite hs (canon_put (a := 64 * sec) (bs := s.homeBytes pid (64 * sec) 64) hs ?_)
    dsimp only

theorem homePutByte_canon {s : State} {pid : BitVec 12} {pa : Nat} {b : Byte} (hs : Canon P s) :
    Canon P (s.homePutByte pid pa b) := by
  unfold State.homePutByte
  extract_lets s1
  have hs1 : Canon P s1 := claim_canon hs
  exact canon_set hs1 rfl

theorem homePut_canon {s : State} {pid : BitVec 12} {pa : Nat} {l : List Byte} (hs : Canon P s) :
    Canon P (s.homePut pid pa l) := by
  induction l generalizing s pid pa with
  | nil =>
    rw [State.homePut]
    exact hs
  | cons b bs ih =>
    rw [State.homePut]
    exact ih (homePutByte_canon hs)

theorem homePutMask_canon {s : State} {pid : BitVec 12} {line : Nat} {mask : Mask} {data : VReg} {i left : Nat}
    (hs : Canon P s) : Canon P (s.homePutMask pid line mask data i left) := by
  induction left generalizing s pid line mask data i with
  | zero =>
    rw [State.homePutMask]
    exact hs
  | succ left ih =>
    rw [State.homePutMask]
    exact ih (canon_ite (homePutByte_canon hs) hs)

theorem flushLine_canon {s : State} {c : CLine} (hs : Canon P s) : Canon P (s.flushLine c) := by
  unfold State.flushLine
  exact homePutMask_canon hs

theorem writeBackLine_canon {s : State} {t line : Nat} (hs : Canon P s) : Canon P (s.writeBackLine t line) := by
  unfold State.writeBackLine
  split
  · exact hs
  · exact modTile_canon (flushLine_canon hs)

theorem dropCached_canon {s : State} {t line : Nat} (hs : Canon P s) : Canon P (s.dropCached t line) := by
  unfold State.dropCached
  split
  · exact hs
  · exact modTile_canon (flushLine_canon hs)

theorem writeBackTile_canon {s : State} {t : Nat} (hs : Canon P s) : Canon P (s.writeBackTile t) := by
  unfold State.writeBackTile
  extract_lets s1
  have hs1 : Canon P s1 := canon_foldl (fun _ _ ha => flushLine_canon ha) hs
  exact modTile_canon hs1

theorem invalidateTile_canon {s : State} {t : Nat} {mask : BitVec 2} (hs : Canon P s) : Canon P (s.invalidateTile t mask) := by
  unfold State.invalidateTile
  extract_lets s1
  have hs1 : Canon P s1 := canon_foldl (fun _ _ ha => canon_ite (flushLine_canon ha) ha) hs
  exact modTile_canon hs1

theorem dropWay_canon {s : State} {t way : Nat} (hs : Canon P s) : Canon P (s.dropWay t way) := by
  unfold State.dropWay
  extract_lets s1
  have hs1 : Canon P s1 := canon_foldl (fun _ _ ha => canon_ite (flushLine_canon ha) ha) hs
  exact modTile_canon hs1

theorem fillSector_canon {s : State} {t : Nat} {pid : BitVec 12} {hint : BitVec 2} {line sec : Nat} (hs : Canon P s) :
    Canon P (s.fillSector t pid hint line sec) := by
  unfold State.fillSector
  split
  · exact canon_ite hs (modTile_canon hs)
  · refine canon_ite hs ?_
    split
    extract_lets s1
    have hs1 : Canon P s1 := by
      unfold s1
      split
      · exact tickFree_canon (dropCached_canon hs)
      · exact hs
    exact modTile_canon hs1

theorem readSector_canon {s : State} {p : Path} {pa n : Nat} (hs : Canon P s) : Canon P (s.readSector p pa n).2 := by
  unfold State.readSector
  split
  · exact hs
  · extract_lets line sec
    split
    · exact canon_ite_snd (canon_ite (dropCached_canon hs) hs) (canon_ite_snd hs (fillSector_canon hs))
    · exact canon_ite_snd hs (fillSector_canon hs)

theorem writeSector_canon {s : State} {p : Path} {pa : Nat} {bs : List Byte} (hs : Canon P s) :
    Canon P (s.writeSector p pa bs) := by
  unfold State.writeSector
  split
  · exact homePut_canon hs
  · extract_lets line sec merge
    have hmerge : ∀ x0, Canon P x0 → Canon P (merge x0) :=
      (fun _ ha => by
        unfold merge
        split
        · exact modTile_canon ha
        · exact ha)
    split
    · refine canon_ite (canon_ite (dropCached_canon (hmerge _ hs)) (homePut_canon hs)) ?_
      exact hmerge _ (fillSector_canon hs)
    · exact canon_ite (homePut_canon hs) (hmerge _ (fillSector_canon hs))

theorem readPath_canon {s : State} {p : Path} {pa n left : Nat} (hs : Canon P s) : Canon P (s.readPath p pa n left).2 := by
  induction left generalizing s p pa n with
  | zero =>
    rw [State.readPath]
    exact hs
  | succ left ih =>
    rw [State.readPath]
    refine canon_ite_snd hs ?_
    extract_lets k
    split
    next _ _ e0 =>
    split
    next _ _ e1 =>
    exact canon_of_snd (ih (canon_of_snd (readSector_canon hs) e0)) e1

theorem writePath_canon {s : State} {p : Path} {pa : Nat} {bs : List Byte} {left : Nat} (hs : Canon P s) :
    Canon P (s.writePath p pa bs left) := by
  induction left generalizing s p pa bs with
  | zero =>
    rw [State.writePath]
    exact hs
  | succ left ih =>
    rw [State.writePath]
    exact canon_ite hs (ih (writeSector_canon hs))

theorem tlbAdd_canon {s : State} {e : TlbEntry} (hs : Canon P s) : Canon P (s.tlbAdd e) := by
  unfold State.tlbAdd
  extract_lets l full
  exact canon_same hs rfl

theorem translate_canon {s : State} {q : Nat} {pid : BitVec 12} {exec : Bool} {va : Word} {acc : Acc} (hs : Canon P s) :
    Canon P (s.translate q pid exec va acc).2 := by
  unfold State.translate
  refine canon_ite_snd hs ?_
  extract_lets a
  split
  · exact hs
  · split
    · exact hs
    · exact tlbAdd_canon hs

theorem remoteSend_canon {s : State} {r : RemoteOut} (hs : Canon P s) : Canon P (s.remoteSend r) := by
  unfold State.remoteSend
  extract_lets wait q s1
  have hs1 : Canon P s1 := canon_same hs rfl
  exact canon_ite hs1 (inject_canon hs1)

theorem remoteRelease_canon {s : State} {before l : List RemoteOut} (hs : Canon P s) : Canon P (s.remoteRelease before l) := by
  induction l generalizing s before with
  | nil =>
    rw [State.remoteRelease]
    exact canon_same hs rfl
  | cons r rest ih =>
    rw [State.remoteRelease]
    exact canon_ite (ih (inject_canon hs)) (ih hs)

theorem remoteEnd_canon {s : State} {sel : RemoteOut → Bool} (hs : Canon P s) : Canon P (s.remoteEnd sel) := by
  unfold State.remoteEnd
  exact remoteRelease_canon hs

theorem homeStore_canon {s : State} {strand : Nat} {pid : BitVec 12} {va : Word} {pa : Nat} {bs : List Byte} (hs : Canon P s) :
    Canon P (s.homeStore strand pid va pa bs) := by
  unfold State.homeStore
  split
  · exact homePut_canon hs
  · exact canon_put hs rfl
  · exact canon_ite (canon_same hs rfl) hs
  · exact canon_ite (remoteSend_canon hs) (modStrand_canon hs)
  · exact hs

theorem storeRuns_canon {s : State} {strand : Nat} {pid : BitVec 12} {va : Word} {line : Nat} {mask : Mask} {data : VReg}
    {i : Nat} {run : List Byte} {left : Nat} (hs : Canon P s) :
    Canon P (s.storeRuns strand pid va line mask data i run left) := by
  induction left generalizing s strand pid va line mask data i run with
  | zero =>
    rw [State.storeRuns]
    exact canon_ite hs (homeStore_canon hs)
  | succ left ih =>
    rw [State.storeRuns]
    exact canon_ite (ih hs) (ih (canon_ite hs (homeStore_canon hs)))

theorem drainBuf_canon {s : State} {core : Nat} {b : WcBuf} (hs : Canon P s) : Canon P (s.drainBuf core b) := by
  unfold State.drainBuf
  split
  · exact homePutMask_canon (dropCached_canon hs)
  · exact storeRuns_canon hs

theorem drainAt_canon {s : State} {core idx : Nat} (hs : Canon P s) : Canon P (s.drainAt core idx) := by
  unfold State.drainAt
  split
  · exact hs
  · exact modCore_canon (drainBuf_canon hs)

theorem drainWcIf_canon {s : State} {core : Nat} {sel : WcBuf → Bool} (hs : Canon P s) : Canon P (s.drainWcIf core sel) := by
  unfold State.drainWcIf
  extract_lets s1
  have hs1 : Canon P s1 := canon_foldl (fun _ _ ha => drainBuf_canon ha) hs
  exact modCore_canon hs1

theorem drainWc_canon {s : State} {core strand : Nat} (hs : Canon P s) : Canon P (s.drainWc core strand) := by
  unfold State.drainWc
  exact drainWcIf_canon hs

theorem drainFar_canon {s : State} {core strand : Nat} (hs : Canon P s) : Canon P (s.drainFar core strand) := by
  unfold State.drainFar
  exact canon_ite (drainWcIf_canon hs) hs

theorem wcStore_canon {s : State} {core strand : Nat} {pid : BitVec 12} {va : Word} {pa : Nat} {bs : List Byte}
    (hs : Canon P s) : Canon P (s.wcStore core strand pid va pa bs) := by
  unfold State.wcStore
  extract_lets line wc old base new s1
  have hs1 : Canon P s1 := canon_ite (drainAt_canon hs) hs
  exact canon_ite (modCore_canon (drainBuf_canon hs1)) (modCore_canon hs1)

/-! ## Scratchpad -/

theorem modBank_canon {s : State} {t b : Nat} {f : Bank → Bank} (hs : Canon P s) : Canon P (s.modBank t b f) := by
  unfold State.modBank
  exact modTile_canon hs

theorem ownerPut_canon {s : State} {o : Owned} {c : BitVec 3} (hs : Canon P s) : Canon P (s.ownerPut o c) := by
  unfold State.ownerPut
  split
  · exact modTile_canon hs
  · exact modTile_canon hs

theorem spWrite_canon {s : State} {a : Nat} {bs : List Byte} (hs : Canon P s) : Canon P (s.spWrite a bs) := by
  unfold State.spWrite
  extract_lets s1
  have hs1 : Canon P s1 := canon_put hs rfl
  exact canon_ite (modTile_canon hs1) hs1

theorem bankPass_canon {s : State} {sid : Nat} {a : Word} (hs : Canon P s) : Canon P (s.bankPass sid a) := by
  unfold State.bankPass
  split
  · exact canon_ite (modBank_canon hs) hs
  · exact hs

theorem dropWaits_canon {s : State} {sid : Nat} (hs : Canon P s) : Canon P (s.dropWaits sid) := by
  unfold State.dropWaits
  exact canon_same hs rfl

/-! ## Operations on strands -/

theorem done_answers {s : State} {h : BitVec 2} {f : Slot → Slot} (hs : Canon P s) : Answers P (s.done h f) := by
  unfold State.done
  exact answers_next (modHart_canon hs)

theorem doneG_answers {s : State} {h : BitVec 2} {d : BitVec 5} {v : Word} (hs : Canon P s) : Answers P (s.doneG h d v) := by
  unfold State.doneG
  exact done_answers hs

theorem parkAt_canon {s : State} {h : BitVec 2} {p : Park} (hs : Canon P s) : Canon P (s.parkAt h p) := by
  unfold State.parkAt
  exact modHart_canon hs

theorem chainCause_canon {s : State} {pid : BitVec 12} {e : CauseEntry} (hs : Canon P s) : Canon P (s.chainCause pid e) := by
  unfold State.chainCause
  extract_lets s1
  have hs1 : Canon P s1 := canon_same hs rfl
  exact modJob_canon hs1

theorem fatalRecord_canon {s : State} {pid : BitVec 12} {src : BitVec 16} {a0 a1 : Word} (hs : Canon P s) :
    Canon P (s.fatalRecord pid src a0 a1) := by
  unfold State.fatalRecord
  exact sketchAdd_canon hs

theorem fatalCause_canon {s : State} {pid : BitVec 12} {e : CauseEntry} (hs : Canon P s) : Canon P (s.fatalCause pid e) := by
  unfold State.fatalCause
  exact fatalRecord_canon (chainCause_canon hs)

theorem fatalSlot_canon {s : State} {n : Nat} {cause : BitVec 16} {xval : Word} {flags : BitVec 32} (hs : Canon P s) :
    Canon P (s.fatalSlot n cause xval flags) := by
  unfold State.fatalSlot
  exact fatalCause_canon hs

theorem fatalNested_canon {s : State} {n : Nat} {code : BitVec 16} {xval : Word} (hs : Canon P s) :
    Canon P (s.fatalNested n code xval) := by
  unfold State.fatalNested
  extract_lets x first
  exact fatalRecord_canon (chainCause_canon (chainCause_canon hs))

theorem consume_canon {s : State} {slot : Option Nat} {pid : BitVec 12} {a n : Nat} (hs : Canon P s) :
    Canon P (s.consume slot pid a n) := by
  unfold State.consume
  split
  · exact hs
  · extract_lets s1
    have hs1 : Canon P s1 := canon_same hs rfl
    split
    exact fatalCause_canon hs1

theorem consumeHart_canon {s : State} {a n : Nat} (hs : Canon P s) : Canon P (s.consumeHart a n) := by
  unfold State.consumeHart
  exact consume_canon hs

theorem consumeRegs_canon {s : State} {n : Nat} {sel : RegName → Bool} (hs : Canon P s) : Canon P (s.consumeRegs n sel) := by
  unfold State.consumeRegs
  split
  · exact hs
  · exact fatalSlot_canon (modSlot_canon hs)

theorem paRead_canon {s : State} {p : Path} {pa n : Nat} (hs : Canon P s) : Canon P (s.paRead p pa n).2 := by
  unfold State.paRead
  split
  · exact readPath_canon hs
  · exact hs
  · exact hs
  · exact canon_same hs rfl

theorem paWrite_canon {s : State} {p : Path} {strand : Nat} {va : Word} {pa : Nat} {bs : List Byte} (hs : Canon P s) :
    Canon P (s.paWrite p strand va pa bs) := by
  unfold State.paWrite
  split
  · exact writePath_canon hs
  · exact homeStore_canon hs

theorem vaGet_canon {s : State} {q : Nat} {pid : BitVec 12} {exec : Bool} {va : Word} {n : Nat} (hs : Canon P s) :
    Canon P (s.vaGet q pid exec va n).2 := by
  unfold State.vaGet
  split
  · next _ _ e0 =>
      exact canon_of_snd (translate_canon hs) e0
  · next _ _ e1 =>
      split
      next _ _ e2 =>
      exact canon_of_snd (paRead_canon (consume_canon (canon_of_snd (translate_canon hs) e1))) e2

theorem vaPut_canon {s : State} {q : Nat} {pid : BitVec 12} {exec : Bool} {va : Word} {bs : List Byte} (hs : Canon P s) :
    OkCanon P (s.vaPut q pid exec va bs) := by
  unfold State.vaPut
  split
  · exact okCanon_error
  · next _ _ e0 =>
      exact okCanon_ok (paWrite_canon (canon_of_snd (translate_canon hs) e0))

theorem vaSetWordAt_canon {s : State} {q : Nat} {pid : BitVec 12} {va v : Word} (hs : Canon P s) :
    Canon P (s.vaSetWordAt q pid va v) := by
  unfold State.vaSetWordAt
  split
  · next _ e0 =>
      exact (vaPut_canon hs) _ e0
  · exact hs

theorem vaSetWord_canon {s : State} {pid : BitVec 12} {va v : Word} (hs : Canon P s) : Canon P (s.vaSetWord pid va v) := by
  unfold State.vaSetWord
  exact vaSetWordAt_canon hs

theorem farAdd_canon {s : State} {dev off : Nat} {va : Word} {op : BitVec 4} {dbl : Bool} {v : Word} (hs : Canon P s) :
    Canon P (s.farAdd dev off va op dbl v) := by
  unfold State.farAdd
  exact canon_ite (remoteSend_canon hs) hs

theorem engineForget_canon {s : State} {id : Nat} (hs : Canon P s) : Canon P (s.engineForget id) := by
  unfold State.engineForget
  extract_lets gone
  exact canon_ite (remoteEnd_canon hs) hs

theorem engineAsk_canon {s : State} {id q : Nat} {pid : BitVec 12} {exec : Bool} {a : Word} {n : Nat} (hs : Canon P s) :
    Canon P (s.engineAsk id q pid exec a n) := by
  unfold State.engineAsk
  split
  · next _ _ e0 =>
      exact canon_of_snd (translate_canon hs) e0
  · next _ _ e1 =>
      split
      · refine canon_ite (remoteSend_canon (canon_of_snd (translate_canon hs) e1)) ?_
        exact canon_of_snd (translate_canon hs) e1
      · exact canon_of_snd (translate_canon hs) e1

theorem engineRead_canon {s : State} {id q : Nat} {pid : BitVec 12} {exec : Bool} {a : Word} {n : Nat} (hs : Canon P s) :
    Canon P (s.engineRead id q pid exec a n).2 := by
  unfold State.engineRead
  split
  · next _ _ e0 =>
      exact canon_of_snd (translate_canon hs) e0
  · next _ _ e1 =>
      split
      · split
        · split
          · exact canon_of_snd (translate_canon hs) e1
          · exact canon_of_snd (translate_canon hs) e1
          · exact canon_of_snd (translate_canon hs) e1
        · refine canon_ite_snd (engineAsk_canon (canon_of_snd (translate_canon hs) e1)) ?_
          exact canon_of_snd (translate_canon hs) e1
      · split
        next _ _ e2 =>
        exact canon_of_snd (paRead_canon (consume_canon (canon_of_snd (translate_canon hs) e1))) e2

theorem probe_canon {s : State} {q : Nat} {pid : BitVec 12} {va : Word} {n : Nat} (hs : Canon P s) :
    Canon P (s.probe q pid va n) := by
  unfold State.probe
  exact vaGet_canon hs

theorem placeRead_canon {s : State} {core : Nat} {pid : BitVec 12} {p : Pend} {a n : Nat} (hs : Canon P s) :
    Canon P (s.placeRead core pid p a n).2 := by
  unfold State.placeRead
  refine canon_ite_snd ?_ (paRead_canon hs)
  split
  · exact hs
  · exact hs

theorem placeWrite_canon {s : State} {core strand : Nat} {pid : BitVec 12} {p : Pend} {a : Nat} {bs : List Byte}
    (hs : Canon P s) : Canon P (s.placeWrite core strand pid p a bs) := by
  unfold State.placeWrite
  refine canon_ite ?_ (paWrite_canon hs)
  split
  · exact modTile_canon hs
  · exact spWrite_canon hs

theorem redAt_canon {s : State} {tile : Option Nat} {pid : BitVec 12} {pa op : Nat} {dbl : Bool} {v : Word} (hs : Canon P s) :
    Canon P (s.redAt tile pid pa op dbl v) := by
  unfold State.redAt
  extract_lets s1 k old
  have hs1 : Canon P s1 := by
    unfold s1
    split
    · exact dropCached_canon hs
    · exact hs
  exact homePut_canon hs1

theorem performElem_canon {s : State} {n : Nat} {p : Pend} {e : PendElem} (hs : Canon P s) : Canon P (s.performElem n p e) := by
  unfold State.performElem
  extract_lets +onlyGivenNames x
  split
  · exact modSlot_canon hs
  · split
    · exact placeWrite_canon hs
    · exact redAt_canon (consume_canon hs)
    · extract_lets flat
      split
      next _ _ e0 =>
      exact modSlot_canon (canon_of_snd (placeRead_canon (consume_canon hs)) e0)

theorem performPend_canon {s : State} {n : Nat} {p : Pend} (hs : Canon P s) : Canon P (s.performPend n p) := by
  unfold State.performPend
  exact canon_foldl (fun _ _ ha => performElem_canon ha) hs

theorem performAt_canon {s : State} {n idx : Nat} (hs : Canon P s) : Canon P (s.performAt n idx) := by
  unfold State.performAt
  split
  · exact hs
  · exact canon_ite hs (performPend_canon (modSlot_canon hs))

theorem packetPerform_canon {s : State} {n idx : Nat} (hs : Canon P s) : Canon P (s.packetPerform n idx) := by
  unfold State.packetPerform
  extract_lets far
  exact canon_ite hs (performAt_canon hs)

theorem performAll_canon {s : State} {n : Nat} (hs : Canon P s) : Canon P (s.performAll n) := by
  unfold State.performAll
  exact canon_foldl (fun _ _ ha => performPend_canon ha) (modSlot_canon hs)

theorem performIf_canon {s : State} {n : Nat} {sel : Pend → Bool} (hs : Canon P s) : Canon P (s.performIf n sel) := by
  unfold State.performIf
  extract_lets l
  exact canon_foldl (fun _ _ ha => performPend_canon ha) (modSlot_canon hs)

theorem settleIf_canon {s : State} {n : Nat} {sel : Pend → Bool} (hs : Canon P s) : Canon P (s.settleIf n sel) := by
  unfold State.settleIf
  exact canon_ite (performIf_canon hs) hs

theorem settleRange_canon {s : State} {n : Nat} {scratch : Bool} {a len : Nat} (hs : Canon P s) :
    Canon P (s.settleRange n scratch a len) := by
  unfold State.settleRange
  exact settleIf_canon hs

theorem settleLine_canon {s : State} {n a len : Nat} (hs : Canon P s) : Canon P (s.settleLine n a len) := by
  unfold State.settleLine
  exact canon_ite (drainWcIf_canon hs) hs

theorem coreWriteBack_canon {s : State} {core : Nat} (hs : Canon P s) : Canon P (s.coreWriteBack core) := by
  unfold State.coreWriteBack
  split
  · exact writeBackTile_canon hs
  · exact hs

theorem coreInvalidate_canon {s : State} {core : Nat} {mask : BitVec 2} (hs : Canon P s) :
    Canon P (s.coreInvalidate core mask) := by
  unfold State.coreInvalidate
  split
  · exact invalidateTile_canon hs
  · exact hs

theorem releaseActions_canon {s : State} {n x : Nat} (hs : Canon P s) : Canon P (s.releaseActions n x) := by
  unfold State.releaseActions
  extract_lets s1 s2
  have hs1 : Canon P s1 := performAll_canon hs
  have hs2 : Canon P s2 := canon_ite (coreWriteBack_canon hs1) hs1
  exact canon_ite (drainWc_canon hs2) hs2

theorem acquireActions_canon {s : State} {n x : Nat} {mask : BitVec 2} (hs : Canon P s) :
    Canon P (s.acquireActions n x mask) := by
  unfold State.acquireActions
  extract_lets s1
  have hs1 : Canon P s1 := settleIf_canon hs
  exact canon_ite (coreInvalidate_canon hs1) hs1

theorem orderingDone_canon {s : State} {n : Nat} (hs : Canon P s) : Canon P (s.orderingDone n) := by
  unfold State.orderingDone
  split
  · exact hs
  · extract_lets s1 s2
    have hs1 : Canon P s1 := canon_ite hs (releaseActions_canon hs)
    have hs2 : Canon P s2 := canon_ite hs1 (acquireActions_canon hs1)
    exact modSlot_canon hs2

theorem orderedBefore_canon {s : State} {writes : Bool} (hs : Canon P s) : Canon P (s.orderedBefore writes) := by
  unfold State.orderedBefore
  split
  · exact canon_ite (orderingDone_canon hs) hs
  · exact hs

theorem beforeAccess_canon {s : State} {writes : Bool} (hs : Canon P s) : Canon P (s.beforeAccess writes) := by
  unfold State.beforeAccess
  exact orderedBefore_canon (settleIf_canon hs)

theorem beforeStore_canon {s : State} {l : List Nat} (hs : Canon P s) : Canon P (s.beforeStore l) := by
  unfold State.beforeStore
  exact canon_ite (orderedBefore_canon hs) (beforeAccess_canon hs)

theorem takeTrap_canon {s : State} {n : Nat} {code : BitVec 16} {xpc xval : Word} {late : Bool} (hs : Canon P s) :
    Canon P (s.takeTrap n code xpc xval late) := by
  unfold State.takeTrap
  extract_lets s1
  have hs1 : Canon P s1 := drainWc_canon (performAll_canon (orderingDone_canon hs))
  exact modSlot_canon hs1

theorem sendBuffers_canon {s : State} {n : Nat} (hs : Canon P s) : Canon P (s.sendBuffers n) := by
  unfold State.sendBuffers
  exact drainFar_canon hs

theorem raiseFault_canon {s : State} {n : Nat} {f : HeldFault} (hs : Canon P s) : Canon P (s.raiseFault n f) := by
  unfold State.raiseFault
  extract_lets x
  refine canon_ite (fatalNested_canon hs) ?_
  exact canon_ite (modSlot_canon (sendBuffers_canon hs)) (canon_ite (modSlot_canon hs) (takeTrap_canon hs))

theorem raiseAt_canon {s : State} {n : Nat} {code : BitVec 16} {xpc xval : Word} {late : Bool} (hs : Canon P s) :
    Canon P (s.raiseAt n code xpc xval late) := by
  unfold State.raiseAt
  exact raiseFault_canon hs

theorem raise_answers {s : State} {c : Cause} {xval : Word} (hs : Canon P s) : Answers P (s.raise c xval) := by
  unfold State.raise
  exact answers_next (raiseAt_canon hs)

theorem fetchBy_canon {s : State} {id n : Nat} {a : Word} (hs : Canon P s) : Canon P (s.fetchBy id n a).2 := by
  unfold State.fetchBy
  extract_lets x
  split
  · next _ _ e0 =>
      exact canon_of_snd (translate_canon hs) e0
  · next _ _ e1 =>
      split
      · exact canon_of_snd (translate_canon hs) e1
      · split
        next _ _ e2 =>
        exact canon_of_snd (paRead_canon (consume_canon (canon_of_snd (translate_canon hs) e1))) e2

theorem fetchWord_canon {s : State} {n : Nat} {a : Word} (hs : Canon P s) : Canon P (s.fetchWord n a).2 := by
  unfold State.fetchWord
  exact fetchBy_canon hs

theorem fetchAsk_canon {s : State} {id n : Nat} {va : Word} (hs : Canon P s) : Canon P (s.fetchAsk id n va) := by
  unfold State.fetchAsk
  extract_lets +onlyGivenNames x
  refine canon_ite hs ?_
  extract_lets a
  split
  · next _ _ e0 =>
      exact canon_of_snd (translate_canon hs) e0
  · next _ _ e1 =>
      split
      · refine canon_ite (remoteSend_canon (engineForget_canon (canon_of_snd (translate_canon hs) e1))) ?_
        exact canon_of_snd (translate_canon hs) e1
      · exact canon_of_snd (translate_canon hs) e1

theorem targetBy_canon {s : State} {id n : Nat} {a : Word} (hs : Canon P s) : Canon P (s.targetBy id n a).2 := by
  unfold State.targetBy
  extract_lets x
  split
  · next _ _ e0 =>
      exact canon_of_snd (translate_canon hs) e0
  · next _ _ e1 =>
      refine canon_ite_snd (canon_of_snd (translate_canon hs) e1) ?_
      refine canon_ite_snd ?_ (canon_of_snd (translate_canon hs) e1)
      split
      · next _ _ e2 =>
          exact canon_of_snd (fetchBy_canon (canon_of_snd (translate_canon hs) e1)) e2
      · next _ _ e3 =>
          exact canon_of_snd (fetchBy_canon (canon_of_snd (translate_canon hs) e1)) e3

theorem targetFault_canon {s : State} {n : Nat} {a : Word} (hs : Canon P s) : Canon P (s.targetFault n a).2 := by
  unfold State.targetFault
  exact targetBy_canon hs

theorem jump_answers {s : State} {h : BitVec 2} {a : Word} {l : Option (BitVec 5)} (hs : Canon P s) :
    Answers P (s.jump h a l) := by
  unfold State.jump
  refine answers_ite (answers_next (parkAt_canon (fetchAsk_canon hs))) ?_
  split
  next _ _ e0 =>
  extract_lets cyc
  exact answers_next (modHart_canon (engineForget_canon (canon_of_snd (targetFault_canon hs) e0)))

theorem issue_answers {s : State} {c : Need} {k : Result} (hs : Canon P s) (hk : Answers P k) : Answers P (s.issue c k) := by
  unfold State.issue
  split
  · exact raise_answers hs
  · exact hk

theorem frameVecs_canon {s : State} {q : Nat} {x : Slot} {v left : Nat} (hs : Canon P s) :
    OkCanon P (s.frameVecs q x v left) := by
  induction left generalizing s q x v with
  | zero =>
    rw [State.frameVecs]
    exact okCanon_ok hs
  | succ left ih =>
    rw [State.frameVecs]
    split
    · exact okCanon_error
    · next _ e0 =>
        exact ih ((vaPut_canon hs) _ e0)

theorem recordWrite_canon {s : State} {q : Nat} {x : Slot} {st link : Nat} (hs : Canon P s) :
    OkCanon P (s.recordWrite q x st link) := by
  unfold State.recordWrite
  exact okCanon_ite okCanon_error (vaPut_canon hs)

theorem frameBody_canon {s : State} {q : Nat} {x : Slot} (hs : Canon P s) : OkCanon P (s.frameBody q x) := by
  unfold State.frameBody
  refine okCanon_ite okCanon_error ?_
  split
  · exact okCanon_error
  · next _ e0 =>
      exact frameVecs_canon (canon_same ((vaPut_canon hs) _ e0) rfl)

theorem frameWrite_canon {s : State} {q : Nat} {x : Slot} {st : Nat} (hs : Canon P s) : OkCanon P (s.frameWrite q x st) := by
  unfold State.frameWrite
  split
  · exact okCanon_error
  · next _ e0 =>
      exact recordWrite_canon ((frameBody_canon hs) _ e0)

theorem frameReadVecs_canon {s : State} {q : Nat} {x : Slot} {v left : Nat} (hs : Canon P s) :
    Canon P (s.frameReadVecs q x v left).2 := by
  induction left generalizing s q x v with
  | zero =>
    rw [State.frameReadVecs]
    exact hs
  | succ left ih =>
    rw [State.frameReadVecs]
    split
    · next _ _ e0 =>
        exact ih (canon_of_snd (vaGet_canon hs) e0)
    · next _ _ e1 =>
        exact ih (canon_of_snd (vaGet_canon hs) e1)

theorem frameRead_canon {s : State} {q : Nat} {x : Slot} (hs : Canon P s) : Canon P (s.frameRead q x).2 := by
  have body : Canon P (match s.vaGet q x.pid x.record.exec (x.record.frame + 0x40) 0x268 with
      | (.ok bs, s1) => (x.ofFrame (bytesWords bs 77), s1)
      | (.error _, s1) => (x, s1)).2 := by
    split
    · next _ _ e => exact canon_of_snd (vaGet_canon hs) e
    · next _ _ e => exact canon_of_snd (vaGet_canon hs) e
  exact frameReadVecs_canon body

theorem enterItem_canon {s : State} {r : Rec} {pc : Word} {x y total rmax lpid : Nat} (hs : Canon P s) :
    Canon P (s.enterItem r pc x y total rmax lpid) := by
  unfold State.enterItem
  exact canon_same hs rfl

theorem scanEmpty_canon {s : State} (hs : Canon P s) : Canon P s.scanEmpty := by
  unfold State.scanEmpty
  exact canon_ite (modCore_canon (modPlat_canon hs)) hs

theorem chainItem_canon {s : State} {i : Item} {next : Word} (hs : Canon P s) : Canon P (s.chainItem i next) := by
  unfold State.chainItem
  exact vaSetWord_canon hs

theorem chainItems_canon {s : State} {l : List Item} (hs : Canon P s) : Canon P (s.chainItems l) := by
  induction l generalizing s with
  | nil => exact hs
  | cons a r ih => exact ih (chainItem_canon hs)

theorem leaveOverflow_canon {s : State} {i : Item} (hs : Canon P s) : Canon P (s.leaveOverflow i) := by
  unfold State.leaveOverflow
  split
  · exact chainItems_canon hs
  · exact hs

theorem takeItem_canon {s : State} {idx core slot : Nat} (hs : Canon P s) : Canon P (s.takeItem idx core slot) := by
  unfold State.takeItem
  split
  · exact hs
  · extract_lets s1 s2
    have hs1 : Canon P s1 := modCore_canon (canon_same hs rfl)
    have hs2 : Canon P s2 := canon_ite (modTile_canon hs1) hs1
    exact leaveOverflow_canon hs2

theorem offerOverflow_canon {s : State} {core : Nat} (hs : Canon P s) : Canon P (s.offerOverflow core) := by
  unfold State.offerOverflow
  extract_lets +onlyGivenNames can
  split
  · exact hs
  · extract_lets b
    split
    · exact takeItem_canon hs
    · exact hs

theorem dropReservation_canon {s : State} {sid : Nat} (hs : Canon P s) : Canon P (s.dropReservation sid) := by
  unfold State.dropReservation
  extract_lets held cut s1
  have hs1 : Canon P s1 := canon_same hs rfl
  exact modStrand_canon hs1

theorem revokeHeld_canon {s : State} {sid : Nat} (hs : Canon P s) : Canon P (s.revokeHeld sid) := by
  unfold State.revokeHeld
  exact canon_ite (dropReservation_canon hs) hs

theorem awayRecord_canon {s : State} {sid st : Nat} (hs : Canon P s) : Canon P (s.awayRecord sid st) := by
  unfold State.awayRecord
  split
  · exact hs
  · split
    · next _ e0 =>
        exact canon_same ((recordWrite_canon hs) _ e0) rfl
    · exact fatalCause_canon hs

theorem awayFrame_canon {s : State} {sid st : Nat} (hs : Canon P s) : Canon P (s.awayFrame sid st) := by
  unfold State.awayFrame
  split
  · exact hs
  · split
    · next _ e0 =>
        exact canon_same ((frameWrite_canon hs) _ e0) rfl
    · exact fatalCause_canon hs

theorem setLink_canon {s : State} {sid : Nat} {next : Word} (hs : Canon P s) : Canon P (s.setLink sid next) := by
  unfold State.setLink
  split
  · exact vaSetWord_canon hs
  · exact hs

theorem linkAll_canon {s : State} {l : List Nat} (hs : Canon P s) : Canon P (s.linkAll l) := by
  induction l generalizing s with
  | nil => exact hs
  | cons a r ih => exact ih (setLink_canon hs)

theorem reenter_canon {s : State} {y : Slot} {router : Nat × Nat} {whole : Bool} (hs : Canon P s) :
    Canon P (s.reenter y router whole) := by
  unfold State.reenter
  extract_lets sid st s1 s2
  have hs1 : Canon P s1 := canon_same hs rfl
  have hs2 : Canon P s2 := canon_ite (awayFrame_canon hs1) (awayRecord_canon hs1)
  exact canon_ite hs2 (enterItem_canon hs2)

theorem wake_canon {s : State} {sid : Nat} {router : Nat × Nat} {f : Slot → Slot} (hs : Canon P s) :
    Canon P (s.wake sid router f) := by
  unfold State.wake
  split
  · exact modSlot_canon hs
  · split
    · exact hs
    · exact reenter_canon hs

theorem wakeIf_canon {s : State} {sid : Nat} {router : Nat × Nat} {sel : Park → Bool} (hs : Canon P s) :
    Canon P (s.wakeIf sid router sel) := by
  unfold State.wakeIf
  split
  · exact canon_ite (wake_canon hs) hs
  · exact hs

theorem unpark_canon {s : State} {sid : Nat} {router : Nat × Nat} (hs : Canon P s) : Canon P (s.unpark sid router) := by
  unfold State.unpark
  split
  · exact modSlot_canon hs
  · split
    · exact hs
    · exact reenter_canon hs

theorem wakeFault_canon {s : State} {sid : Nat} {router : Nat × Nat} {c : Cause} {xval : Word} (hs : Canon P s) :
    Canon P (s.wakeFault sid router c xval) := by
  unfold State.wakeFault
  split
  · exact raiseAt_canon (modSlot_canon hs)
  · split
    · exact hs
    · extract_lets lf
      exact canon_ite (canon_same hs rfl) (reenter_canon hs)

theorem modLeaving_canon {s : State} {sid : Nat} {f : Slot → Slot} (hs : Canon P s) : Canon P (s.modLeaving sid f) := by
  unfold State.modLeaving
  exact canon_same hs rfl

theorem modStrandKept_canon {s : State} {sid : Nat} {f : Slot → Slot} (hs : Canon P s) : Canon P (s.modStrandKept sid f) := by
  unfold State.modStrandKept
  split
  · exact modSlot_canon hs
  · split
    · exact modLeaving_canon hs
    · extract_lets y s1
      have hs1 : Canon P s1 := canon_same hs rfl
      split
      · next _ e0 =>
          exact (frameBody_canon hs1) _ e0
      · exact fatalCause_canon hs1

theorem resolve_canon {s : State} {sid : Nat} (hs : Canon P s) : Canon P (s.resolve sid) := by
  unfold State.resolve
  extract_lets cut l s1
  have hs1 : Canon P s1 := canon_same hs rfl
  exact canon_foldl (fun _ _ hc => wakeIf_canon hc) hs1

theorem vacate_canon {s : State} {n : Nat} (hs : Canon P s) : Canon P (s.vacate n) := by
  unfold State.vacate
  exact resolve_canon (offerOverflow_canon (scanEmpty_canon (setSlot_canon hs)))

theorem leaveActions_canon {s : State} {n : Nat} (hs : Canon P s) : Canon P (s.leaveActions n) := by
  unfold State.leaveActions
  extract_lets sid
  exact modSlot_canon (revokeHeld_canon (coreWriteBack_canon (drainWc_canon (performAll_canon (orderingDone_canon hs)))))

theorem writeBackStrand_canon {s : State} {n st : Nat} (hs : Canon P s) : Canon P (s.writeBackStrand n st) := by
  unfold State.writeBackStrand
  extract_lets +onlyGivenNames s1 x
  have hs1 : Canon P s1 := consumeRegs_canon (leaveActions_canon hs)
  split
  · next _ e0 =>
      extract_lets y
      exact vacate_canon (canon_same ((frameWrite_canon hs1) _ e0) rfl)
  · exact fatalSlot_canon hs1

/-! ## Remote accesses -/

theorem sendRemote_canon {s : State} {dev off len : Nat} {va : Word} {kind : RemoteKind} {data : List Byte} {dst : PendKind}
    {elems : List PendElem} {relaxed : Bool} {logs : List Nat} (hs : Canon P s) :
    Canon P (s.sendRemote dev off len va kind data dst elems relaxed logs) := by
  unfold State.sendRemote
  exact canon_ite (remoteSend_canon hs) (modHart_canon hs)

theorem heldRead_canon {s : State} {va : Word} {bs : List Byte} {dst : PendKind} {idx : Nat} (hs : Canon P s) :
    Canon P (s.heldRead va bs dst idx) := by
  unfold State.heldRead
  exact canon_same hs rfl

theorem awaitRemote_answers {s : State} {h : BitVec 2} {relaxed : Bool} (hs : Canon P s) :
    Answers P (s.awaitRemote h relaxed) := by
  unfold State.awaitRemote
  exact answers_ite (done_answers hs) (answers_next (parkAt_canon hs))

theorem migrateTo_answers {s : State} {h : BitVec 2} {dev : Nat} {va : Word} (hs : Canon P s) :
    Answers P (s.migrateTo h dev va) := by
  unfold State.migrateTo
  extract_lets +onlyGivenNames x sid
  refine answers_ite (raise_answers hs) ?_
  refine answers_ite (raise_answers hs) ?_
  refine answers_ite (answers_next (parkAt_canon (sendBuffers_canon hs))) ?_
  refine answers_ite (raise_answers hs) ?_
  extract_lets s1 _ y m
  have hs1 : Canon P s1 := dropReservation_canon (leaveActions_canon hs)
  exact answers_next (vacate_canon (inject_canon (canon_same hs1 rfl)))

theorem remoteGate_answers {s : State} {h : BitVec 2} {x : Xlate} {va : Word} {len : Nat} {relaxed : Bool} {k : Result}
    (hs : Canon P s) (hk : Answers P k) : Answers P (s.remoteGate h x va len relaxed k) := by
  unfold State.remoteGate
  split
  · refine answers_ite (migrateTo_answers hs) ?_
    refine answers_ite (answers_next (parkAt_canon hs)) ?_
    exact answers_ite (answers_next (parkAt_canon (settleLine_canon hs))) (answers_ite (raise_answers hs) hk)
  · exact hk

end

end Sys2Proof.Proofs

namespace Sys2Proof.Proofs

/-!
The form of the memory: accesses and memory instructions, atomics, and synchronisation (04 to 06).
-/

open Sys2Proof.Machine Sys2Proof.Claim

section

variable {P : Prop}

/-! ## Accesses -/

theorem varnFail_canon {s : State} {pid : BitVec 12} {kind : Nat} {a : Word} {st : Nat} (hs : Canon P s) :
    Canon P (s.varnFail pid kind a st) := by
  unfold State.varnFail
  extract_lets s1
  have hs1 : Canon P s1 := by
    unfold s1
    split
    · exact canon_ite (vaSetWord_canon (vaSetWord_canon hs)) hs
    · exact hs
  exact execEvent_canon hs1

theorem logPush_canon {s : State} {x : Slot} {l : List LogEntry} (hs : Canon P s) : Canon P (s.logPush x l) := by
  unfold State.logPush
  exact modLp_canon hs

theorem logThenFar_answers {s : State} {h : BitVec 2} {l : List LogEntry} {later : Nat} {k : State → Result} (hs : Canon P s)
    (hk : ∀ x0, Canon P x0 → Answers P (k x0)) : Answers P (s.logThenFar h l later k) := by
  unfold State.logThenFar
  refine answers_ite (hk _ hs) ?_
  refine answers_ite (hk _ (logPush_canon hs)) ?_
  exact answers_ite (answers_next (parkAt_canon hs)) (raise_answers hs)

theorem logThen_answers {s : State} {h : BitVec 2} {l : List LogEntry} {k : State → Result} (hs : Canon P s)
    (hk : ∀ x0, Canon P x0 → Answers P (k x0)) : Answers P (s.logThen h l k) := by
  unfold State.logThen
  exact logThenFar_answers hs hk

theorem writeBackChained_canon {s : State} {n t : Nat} {b : Option Nat} (hs : Canon P s) :
    Canon P (s.writeBackChained n t b) := by
  unfold State.writeBackChained
  exact canon_ite (sendBuffers_canon hs) (linkAll_canon (writeBackStrand_canon hs))

theorem waitJoin_canon {s : State} {h : BitVec 2} {t : Nat} {b : Option Nat} {p : Park} (hs : Canon P s) :
    Canon P (s.waitJoin h t b p) := by
  unfold State.waitJoin
  extract_lets l full s1
  have hs1 : Canon P s1 := modTile_canon (parkAt_canon hs)
  exact canon_ite (writeBackChained_canon hs1) hs1

theorem waitLeave_canon {s : State} {t : Nat} {b : Option Nat} {sid : Nat} (hs : Canon P s) :
    Canon P (s.waitLeave t b sid) := by
  unfold State.waitLeave
  extract_lets s1
  have hs1 : Canon P s1 := modTile_canon hs
  exact linkAll_canon hs1

theorem serveFifo_canon {s : State} {t b left : Nat} (hs : Canon P s) : Canon P (s.serveFifo t b left) := by
  induction left generalizing s t b with
  | zero =>
    rw [State.serveFifo]
    exact hs
  | succ left ih =>
    rw [State.serveFifo]
    split
    · split
      · refine canon_ite (ih (wake_canon (waitLeave_canon (modBank_canon hs)))) ?_
        split
        · split
          · exact canon_ite (ih (wake_canon (waitLeave_canon (modBank_canon hs)))) hs
          · exact canon_ite (ih (wake_canon (waitLeave_canon (modBank_canon hs)))) hs
          · exact hs
        · exact hs
      · refine canon_ite (ih (wake_canon (waitLeave_canon (modBank_canon hs)))) ?_
        split
        · split
          · exact canon_ite (ih (wake_canon (waitLeave_canon (modBank_canon hs)))) hs
          · exact canon_ite (ih (wake_canon (waitLeave_canon (modBank_canon hs)))) hs
          · exact hs
        · exact hs
      · split
        · split
          · exact canon_ite (ih (wake_canon (waitLeave_canon (modBank_canon hs)))) hs
          · exact canon_ite (ih (wake_canon (waitLeave_canon (modBank_canon hs)))) hs
          · exact hs
        · exact hs
    · split
      · split
        · exact canon_ite (ih (wake_canon (waitLeave_canon (modBank_canon hs)))) hs
        · exact canon_ite (ih (wake_canon (waitLeave_canon (modBank_canon hs)))) hs
        · exact hs
      · exact hs

theorem serveFifoAll_canon {s : State} {t b : Nat} (hs : Canon P s) : Canon P (s.serveFifoAll t b) := by
  unfold State.serveFifoAll
  exact serveFifo_canon hs

theorem fifoAccess_answers {s : State} {h : BitVec 2} {t b : Nat} {p : Park} (hs : Canon P s) :
    Answers P (s.fifoAccess h t b p) := by
  unfold State.fifoAccess
  extract_lets s1 s2
  have hs1 : Canon P s1 := modTile_canon hs
  have hs2 : Canon P s2 := serveFifoAll_canon (parkAt_canon hs1)
  exact answers_ite (answers_next (waitJoin_canon (waitLeave_canon hs2))) (answers_next hs2)

theorem localWrite_canon {s : State} {a : Nat} {bs : List Byte} (hs : Canon P s) : Canon P (s.localWrite a bs) := by
  unfold State.localWrite
  exact canon_put hs rfl

theorem globalCheck_canon {s : State} {a : Word} {align : Nat} {acc : Acc} (hs : Canon P s) :
    Canon P (s.globalCheck a align acc).2 := by
  unfold State.globalCheck
  exact canon_ite_snd hs (translate_canon hs)

theorem settle_canon {s : State} {pa n : Nat} (hs : Canon P s) : Canon P (s.settle pa n) := by
  unfold State.settle
  exact settleLine_canon (settleRange_canon hs)

theorem scalarLdL_answers {s : State} {d b : BitVec 5} {o : BitVec 11} {z h : BitVec 2} (hs : Canon P s) :
    Answers P (s.scalarLdL d b o z h) := by
  unfold State.scalarLdL
  extract_lets +onlyGivenNames ea
  refine issue_answers hs ?_
  split
  · exact raise_answers hs
  · extract_lets s1
    have hs1 : Canon P s1 := consumeHart_canon (beforeAccess_canon hs)
    exact doneG_answers hs1

theorem scalarStL_answers {s : State} {d b : BitVec 5} {o : BitVec 11} {z h : BitVec 2} (hs : Canon P s) :
    Answers P (s.scalarStL d b o z h) := by
  unfold State.scalarStL
  extract_lets ea
  refine issue_answers hs ?_
  split
  · exact raise_answers hs
  · exact done_answers (localWrite_canon (beforeAccess_canon hs))

theorem bankWait_canon {s : State} {h : BitVec 2} {t b : Nat} (hs : Canon P s) : Canon P (s.bankWait h t b) := by
  unfold State.bankWait
  exact modBank_canon (parkAt_canon hs)

theorem bankGate_answers {s : State} {h : BitVec 2} {a : Word} {k : State → Result} (hs : Canon P s)
    (hk : ∀ x0, Canon P x0 → Answers P (k x0)) : Answers P (s.bankGate h a k) := by
  unfold State.bankGate
  split
  · exact answers_next (bankWait_canon hs)
  · exact hk _ (bankPass_canon hs)

theorem deferPend_answers {s : State} {h : BitVec 2} {p : Pend} (hs : Canon P s) : Answers P (s.deferPend h p) := by
  unfold State.deferPend
  exact done_answers hs

theorem scalarLdS_answers {s : State} {d b : BitVec 5} {o : BitVec 11} {z : BitVec 2} {r : BitVec 1} {h : BitVec 2}
    (hs : Canon P s) : Answers P (s.scalarLdS d b o z r h) := by
  unfold State.scalarLdS
  extract_lets +onlyGivenNames ea n
  exact issue_answers hs (bankGate_answers hs (fun _ hs => by
      split
      · exact raise_answers hs
      · extract_lets +onlyGivenNames s1
        have hs1 : Canon P s1 := beforeAccess_canon hs
        refine answers_ite (fifoAccess_answers hs1) ?_
        refine answers_ite (deferPend_answers hs1) ?_
        extract_lets s2
        have hs2 : Canon P s2 := settleRange_canon hs1
        split
        · exact doneG_answers hs2
        · split
          · exact raise_answers hs2
          · exact doneG_answers (consumeHart_canon hs2)))

theorem scalarStS_answers {s : State} {d b : BitVec 5} {o : BitVec 11} {z : BitVec 2} {r : BitVec 1} {h : BitVec 2}
    (hs : Canon P s) : Answers P (s.scalarStS d b o z r h) := by
  unfold State.scalarStS
  extract_lets +onlyGivenNames ea n v
  exact issue_answers hs (bankGate_answers hs (fun _ hs => by
      split
      · exact raise_answers hs
      · extract_lets +onlyGivenNames s1
        have hs1 : Canon P s1 := beforeAccess_canon hs
        refine answers_ite (fifoAccess_answers hs1) ?_
        refine answers_ite (deferPend_answers hs1) ?_
        extract_lets s2
        have hs2 : Canon P s2 := settleRange_canon hs1
        split
        · exact done_answers (modTile_canon hs2)
        · exact done_answers (spWrite_canon hs2)))

theorem loadNow_canon {s : State} {x : Xlate} {pa n : Nat} (hs : Canon P s) : Canon P (s.loadNow x pa n).2 := by
  unfold State.loadNow
  exact paRead_canon (consumeHart_canon (settle_canon hs))

theorem storeNow_canon {s : State} {x : Xlate} {va : Word} {pa : Nat} {bs : List Byte} (hs : Canon P s) :
    Canon P (s.storeNow x va pa bs) := by
  unfold State.storeNow
  exact paWrite_canon (settle_canon hs)

theorem deferGlobal_canon {s : State} {x : Xlate} {kind : PendKind} {va : Word} {n : Nat} {elems : List PendElem}
    {plain : Bool} (hs : Canon P s) : Canon P (s.deferGlobal x kind va n elems plain) := by
  unfold State.deferGlobal
  exact modHart_canon (settleLine_canon hs)

theorem scalarLdG_answers {s : State} {d b : BitVec 5} {o : BitVec 11} {z : BitVec 2} {r : BitVec 1} {h : BitVec 2}
    (hs : Canon P s) : Answers P (s.scalarLdG d b o z r h) := by
  unfold State.scalarLdG
  extract_lets +onlyGivenNames ea n
  refine issue_answers hs ?_
  split
  · next _ _ e0 =>
      exact raise_answers (canon_of_snd (globalCheck_canon hs) e0)
  · next _ _ e1 =>
      refine remoteGate_answers (canon_of_snd (globalCheck_canon hs) e1) ?_
      extract_lets s1
      have hs1 : Canon P s1 := beforeAccess_canon (canon_of_snd (globalCheck_canon hs) e1)
      split
      · exact awaitRemote_answers (sendRemote_canon hs1)
      · refine answers_ite (done_answers (deferGlobal_canon hs1)) ?_
        split
        next _ _ e2 =>
        exact doneG_answers (canon_of_snd (loadNow_canon hs1) e2)

theorem putPlace_canon {s : State} {x : Xlate} {va : Word} {w idx : Nat} {bs : List Byte} {relaxed : Bool} (hs : Canon P s) :
    Canon P (s.putPlace x va w idx bs relaxed) := by
  unfold State.putPlace
  split
  · exact sendRemote_canon hs
  · exact canon_ite (deferGlobal_canon hs) (storeNow_canon (settleIf_canon hs))
  · exact canon_ite (deferGlobal_canon hs) (storeNow_canon hs)

theorem putDone_answers {s : State} {far relaxed : Bool} {h : BitVec 2} (hs : Canon P s) :
    Answers P (s.putDone far relaxed h) := by
  unfold State.putDone
  exact answers_ite (awaitRemote_answers hs) (done_answers hs)

theorem putOut_answers {s : State} {x : Xlate} {va : Word} {bs : List Byte} {relaxed : Bool} {h : BitVec 2} (hs : Canon P s) :
    Answers P (s.putOut x va bs relaxed h) := by
  unfold State.putOut
  exact putDone_answers (putPlace_canon hs)

theorem scalarStG_answers {s : State} {d b : BitVec 5} {o : BitVec 11} {z : BitVec 2} {r : BitVec 1} {h : BitVec 2}
    (hs : Canon P s) : Answers P (s.scalarStG d b o z r h) := by
  unfold State.scalarStG
  extract_lets ea n bs
  refine issue_answers hs ?_
  split
  · next _ _ e0 =>
      exact raise_answers (canon_of_snd (globalCheck_canon hs) e0)
  · next _ _ e1 =>
      refine answers_ite (raise_answers (canon_of_snd (globalCheck_canon hs) e1)) ?_
      exact remoteGate_answers (canon_of_snd (globalCheck_canon hs) e1) (logThenFar_answers (beforeStore_canon (canon_of_snd
          (globalCheck_canon hs) e1)) (fun _ hs2 => putOut_answers hs2))

theorem ntPlace_canon {s : State} {x : Xlate} {va : Word} {bs : List Byte} (hs : Canon P s) : Canon P (s.ntPlace x va bs) := by
  unfold State.ntPlace
  extract_lets s1
  have hs1 : Canon P s1 := settleRange_canon hs
  split
  · exact sendRemote_canon hs1
  · exact wcStore_canon hs1

theorem scalarNt_answers {s : State} {a b : BitVec 5} {n : Nat} {h : BitVec 2} (hs : Canon P s) :
    Answers P (s.scalarNt a b n h) := by
  unfold State.scalarNt
  extract_lets ea bs
  refine issue_answers hs ?_
  split
  · next _ _ e0 =>
      exact raise_answers (canon_of_snd (globalCheck_canon hs) e0)
  · next _ _ e1 =>
      refine answers_ite (raise_answers (canon_of_snd (globalCheck_canon hs) e1)) ?_
      exact remoteGate_answers (canon_of_snd (globalCheck_canon hs) e1) (logThenFar_answers (beforeStore_canon (canon_of_snd
          (globalCheck_canon hs) e1)) (fun _ hs2 => done_answers (ntPlace_canon hs2)))

theorem vecLdL_answers {s : State} {v a b : BitVec 5} {p : BitVec 3} {h : BitVec 2} (hs : Canon P s) :
    Answers P (s.vecLdL v a b p h) := by
  unfold State.vecLdL
  extract_lets +onlyGivenNames ea
  refine issue_answers hs ?_
  refine answers_ite (done_answers hs) ?_
  split
  · exact raise_answers hs
  · extract_lets s1 new
    have hs1 : Canon P s1 := consumeHart_canon (beforeAccess_canon hs)
    exact done_answers hs1

theorem vecStL_answers {s : State} {v a b : BitVec 5} {p : BitVec 3} {h : BitVec 2} (hs : Canon P s) :
    Answers P (s.vecStL v a b p h) := by
  unfold State.vecStL
  extract_lets ea x
  refine issue_answers hs ?_
  refine answers_ite (done_answers hs) ?_
  split
  · exact raise_answers hs
  · exact done_answers (canon_foldl (fun _ _ ht => localWrite_canon ht) (beforeAccess_canon hs))

theorem landScratch_canon {s : State} {v : BitVec 5} {l : List PendElem} (hs : Canon P s) : Canon P (s.landScratch v l) := by
  unfold State.landScratch
  exact modHart_canon (canon_foldl (fun _ _ ht => consumeHart_canon ht) hs)

theorem vecLdS_answers {s : State} {v a b : BitVec 5} {p : BitVec 3} {r : BitVec 1} {h : BitVec 2} (hs : Canon P s) :
    Answers P (s.vecLdS v a b p r h) := by
  unfold State.vecLdS
  extract_lets +onlyGivenNames ea
  exact issue_answers hs (answers_ite (done_answers hs) (bankGate_answers hs (fun _ hs => by
      split
      · exact raise_answers hs
      · extract_lets +onlyGivenNames s1 el
        have hs1 : Canon P s1 := beforeAccess_canon hs
        refine answers_ite (fifoAccess_answers hs1) ?_
        refine answers_ite (deferPend_answers hs1) ?_
        extract_lets s2
        have hs2 : Canon P s2 := settleRange_canon hs1
        split
        · exact raise_answers hs2
        · exact done_answers (landScratch_canon hs2))))

theorem vecStS_answers {s : State} {v a b : BitVec 5} {p : BitVec 3} {r : BitVec 1} {h : BitVec 2} (hs : Canon P s) :
    Answers P (s.vecStS v a b p r h) := by
  unfold State.vecStS
  extract_lets +onlyGivenNames ea
  exact issue_answers hs (answers_ite (done_answers hs) (bankGate_answers hs (fun _ hs => by
      split
      · exact raise_answers hs
      · extract_lets s1 el
        have hs1 : Canon P s1 := beforeAccess_canon hs
        refine answers_ite (fifoAccess_answers hs1) ?_
        refine answers_ite (deferPend_answers hs1) ?_
        exact done_answers (canon_foldl (fun _ _ ht => spWrite_canon ht) (settleRange_canon hs1)))))

theorem vecLdG_answers {s : State} {v a b : BitVec 5} {p : BitVec 3} {r : BitVec 1} {h : BitVec 2} (hs : Canon P s) :
    Answers P (s.vecLdG v a b p r h) := by
  unfold State.vecLdG
  extract_lets +onlyGivenNames ea
  refine issue_answers hs ?_
  refine answers_ite (done_answers hs) ?_
  split
  · next _ _ e0 =>
      exact raise_answers (canon_of_snd (globalCheck_canon hs) e0)
  · next _ _ e1 =>
      refine remoteGate_answers (canon_of_snd (globalCheck_canon hs) e1) ?_
      extract_lets s1 el k
      have hs1 : Canon P s1 := beforeAccess_canon (canon_of_snd (globalCheck_canon hs) e1)
      split
      · exact awaitRemote_answers (sendRemote_canon hs1)
      · refine answers_ite (done_answers (deferGlobal_canon hs1)) ?_
        split
        next _ _ e2 =>
        exact done_answers (canon_of_snd (loadNow_canon hs1) e2)

theorem remoteGates_answers {s : State} {h : BitVec 2} {relaxed : Bool} {k : Result} {l : List VPlace} (hs : Canon P s)
    (hk : Answers P k) : Answers P (s.remoteGates h relaxed k l) := by
  induction l generalizing s h relaxed k with
  | nil =>
    rw [State.remoteGates]
    exact hk
  | cons e r ih =>
    rw [State.remoteGates]
    exact remoteGate_answers hs (ih hs hk)

theorem vecPlace_canon {s : State} {e : VPlace} {v : VReg} {relaxed nt : Bool} (hs : Canon P s) :
    Canon P (s.vecPlace e v relaxed nt) := by
  unfold State.vecPlace
  extract_lets bs
  exact canon_ite (ntPlace_canon hs) (putPlace_canon hs)

theorem vecPut_answers {s : State} {l : List VPlace} {v : VReg} {relaxed nt : Bool} {h : BitVec 2} (hs : Canon P s) :
    Answers P (s.vecPut l v relaxed nt h) := by
  unfold State.vecPut
  exact putDone_answers (canon_foldl (fun _ _ ht => vecPlace_canon ht) hs)

theorem vecStG_answers {s : State} {v a b : BitVec 5} {p : BitVec 3} {r t : BitVec 1} {h : BitVec 2} (hs : Canon P s) :
    Answers P (s.vecStG v a b p r t h) := by
  unfold State.vecStG
  extract_lets ea
  refine issue_answers hs ?_
  refine answers_ite (done_answers hs) ?_
  split
  · next _ _ e0 =>
      exact raise_answers (canon_of_snd (globalCheck_canon hs) e0)
  · next _ _ e1 =>
      refine answers_ite (raise_answers (canon_of_snd (globalCheck_canon hs) e1)) ?_
      exact remoteGate_answers (canon_of_snd (globalCheck_canon hs) e1) (logThenFar_answers (beforeStore_canon (canon_of_snd
          (globalCheck_canon hs) e1)) (fun _ hs2 => vecPut_answers hs2))

theorem gatherPass_canon {s : State} {a b : BitVec 5} {l : List Nat} (hs : Canon P s) : Canon P (s.gatherPass a b l) := by
  unfold State.gatherPass
  exact canon_foldl (fun _ _ ht => bankPass_canon ht) hs

theorem settleElems_canon {s : State} {l : List PendElem} (hs : Canon P s) : Canon P (s.settleElems l) := by
  unfold State.settleElems
  exact settleIf_canon hs

theorem gatherS_answers {s : State} {v a b : BitVec 5} {p : BitVec 3} {r : BitVec 1} {h : BitVec 2} (hs : Canon P s) :
    Answers P (s.gatherS v a b p r h) := by
  unfold State.gatherS
  extract_lets +onlyGivenNames l
  refine issue_answers hs ?_
  split
  · exact answers_next (bankWait_canon hs)
  · extract_lets +onlyGivenNames s'
    have hs' : Canon P s' := gatherPass_canon hs
    split
    · exact raise_answers hs'
    · refine answers_ite (done_answers hs') ?_
      extract_lets +onlyGivenNames s1 el
      have hs1 : Canon P s1 := beforeAccess_canon hs'
      refine answers_ite (deferPend_answers hs1) ?_
      extract_lets s2
      have hs2 : Canon P s2 := settleElems_canon hs1
      split
      · exact raise_answers hs2
      · exact done_answers (landScratch_canon hs2)

theorem scatterS_answers {s : State} {v a b : BitVec 5} {p : BitVec 3} {r : BitVec 1} {h : BitVec 2} (hs : Canon P s) :
    Answers P (s.scatterS v a b p r h) := by
  unfold State.scatterS
  extract_lets +onlyGivenNames l
  refine issue_answers hs ?_
  split
  · exact answers_next (bankWait_canon hs)
  · extract_lets +onlyGivenNames s'
    have hs' : Canon P s' := gatherPass_canon hs
    split
    · exact raise_answers hs'
    · refine answers_ite (done_answers hs') ?_
      extract_lets s1 el
      have hs1 : Canon P s1 := beforeAccess_canon hs'
      refine answers_ite (deferPend_answers hs1) ?_
      exact done_answers (canon_foldl (fun _ _ ht => spWrite_canon ht) (settleElems_canon hs1))

theorem gatherPlaces_canon {s : State} {a b : BitVec 5} {acc : Acc} {l : List Nat} (hs : Canon P s) :
    Canon P (s.gatherPlaces a b acc l).2 := by
  induction l generalizing s a b acc with
  | nil =>
    rw [State.gatherPlaces]
    exact hs
  | cons n r ih =>
    rw [State.gatherPlaces]
    split
    · next _ _ e0 =>
        exact canon_of_snd (globalCheck_canon hs) e0
    · next _ _ e1 =>
        refine canon_ite_snd (canon_of_snd (globalCheck_canon hs) e1) ?_
        split
        · next _ _ e2 =>
            exact canon_of_snd (ih (canon_of_snd (globalCheck_canon hs) e1)) e2
        · next _ _ e3 =>
            exact canon_of_snd (ih (canon_of_snd (globalCheck_canon hs) e1)) e3

theorem gatherG_answers {s : State} {v a b : BitVec 5} {p : BitVec 3} {r : BitVec 1} {h : BitVec 2} (hs : Canon P s) :
    Answers P (s.gatherG v a b p r h) := by
  unfold State.gatherG
  extract_lets +onlyGivenNames l
  refine issue_answers hs ?_
  split
  · next _ _ _ e0 =>
      exact raise_answers (canon_of_snd (gatherPlaces_canon hs) e0)
  · next _ _ e1 =>
      refine answers_ite (done_answers (canon_of_snd (gatherPlaces_canon hs) e1)) ?_
      refine remoteGates_answers (canon_of_snd (gatherPlaces_canon hs) e1) ?_
      extract_lets +onlyGivenNames s1 wb k relaxed far step1
      have hs1 : Canon P s1 := beforeAccess_canon (canon_of_snd (gatherPlaces_canon hs) e1)
      have hstep1 : ∀ x0 x1, Canon P x0.1 → Canon P (step1 x0 x1).1 :=
        (fun _ _ ht => by
          unfold step1
          split
          · exact sendRemote_canon ht
          · refine canon_ite_fst (deferGlobal_canon ht) ?_
            split
            next _ _ e2 =>
            refine canon_ite_fst (heldRead_canon (canon_of_snd (loadNow_canon ht) e2)) ?_
            exact canon_of_snd (loadNow_canon ht) e2)
      split
      next _ _ e3 =>
      extract_lets s3
      have hs3 : Canon P s3 := modHart_canon (canon_of_fst (canon_foldl_fst (fun _ _ ht => hstep1 _ _ ht) hs1) e3)
      exact answers_ite (awaitRemote_answers hs3) (done_answers hs3)

theorem scatterG_answers {s : State} {v a b : BitVec 5} {p : BitVec 3} {r t : BitVec 1} {h : BitVec 2} (hs : Canon P s) :
    Answers P (s.scatterG v a b p r t h) := by
  unfold State.scatterG
  extract_lets l
  refine issue_answers hs ?_
  split
  · next _ _ _ e0 =>
      exact raise_answers (canon_of_snd (gatherPlaces_canon hs) e0)
  · next _ _ e1 =>
      refine answers_ite (done_answers (canon_of_snd (gatherPlaces_canon hs) e1)) ?_
      exact remoteGates_answers (canon_of_snd (gatherPlaces_canon hs) e1) (logThenFar_answers (beforeStore_canon (canon_of_snd
          (gatherPlaces_canon hs) e1)) (fun _ hs2 => vecPut_answers hs2))

/-! ## Flags -/

theorem doneFlags_answers {s : State} {len : Nat} {h : BitVec 2} {d : BitVec 5} {v : Word} {fl : BitVec 6} (hs : Canon P s) :
    Answers P (s.doneFlags len h d v fl) := by
  unfold State.doneFlags
  exact answers_next (modHart_canon hs)

theorem doneFp_answers {s : State} {len : Nat} {h : BitVec 2} {d : BitVec 5} {rm : Nat} {r : FRes} (hs : Canon P s) :
    Answers P (s.doneFp len h d rm r) := by
  unfold State.doneFp
  exact doneFlags_answers hs

/-! ## Operands -/

theorem vecMap_answers {s : State} {h : BitVec 2} {v : BitVec 5} {p : BitVec 3} {f : Nat → Nat × BitVec 6} (hs : Canon P s) :
    Answers P (s.vecMap h v p f) := by
  unfold State.vecMap
  exact done_answers hs

theorem vecFp_answers {s : State} {h : BitVec 2} {v : BitVec 5} {p : BitVec 3} {f : Elt → Nat → Nat × BitVec 6}
    (hs : Canon P s) : Answers P (s.vecFp h v p f) := by
  unfold State.vecFp
  split
  · exact raise_answers hs
  · exact vecMap_answers hs

/-! ## Ordering -/

theorem order_answers {s : State} {h : BitVec 2} {o : Machine.Ordering} (hs : Canon P s) : Answers P (s.order h o) := by
  unfold State.order
  exact issue_answers hs (done_answers (orderingDone_canon hs))

theorem execOrderingActionsDone_answers {slot : Nat} {s : State} (hs : Canon P s) :
    Answers P (execOrderingActionsDone slot s) := by
  unfold execOrderingActionsDone
  split
  · exact answers_next hs
  · refine answers_ite (answers_next (sendBuffers_canon hs)) ?_
    exact answers_ite (answers_next hs) (answers_next (orderingDone_canon hs))

/-! ## Memory instructions -/

theorem execPfG_answers {a b : BitVec 5} {h : BitVec 2} {s : State} (hs : Canon P s) : Answers P (execPfG a b h s) := by
  unfold execPfG
  refine issue_answers hs ?_
  split
  · next _ _ e0 =>
      exact done_answers (canon_of_snd (translate_canon hs) e0)
  · next _ _ e1 =>
      refine answers_ite (done_answers (canon_same (canon_of_snd (translate_canon hs) e1) rfl)) ?_
      exact done_answers (canon_of_snd (translate_canon hs) e1)

theorem fillPrefetch_canon {s : State} {p : Prefetch} (hs : Canon P s) : Canon P (s.fillPrefetch p) := by
  unfold State.fillPrefetch
  split
  · exact hs
  · exact canon_ite hs (canon_foldl (fun _ _ hc => fillSector_canon hc) hs)

theorem execPrefetchFill_answers {idx : Nat} {s : State} (hs : Canon P s) : Answers P (execPrefetchFill idx s) := by
  unfold execPrefetchFill
  split
  · exact answers_next hs
  · exact answers_next (fillPrefetch_canon (canon_same hs rfl))

theorem discardLine_canon {s : State} {t line : Nat} (hs : Canon P s) : Canon P (s.discardLine t line) := by
  unfold State.discardLine
  exact modTile_canon hs

theorem cacheOp_answers {s : State} {a : BitVec 5} {acc : Acc} {h : BitVec 2} {f : State → Xlate → Nat → Nat → State}
    (hs : Canon P s) (hf : ∀ x0 x1 x2 x3, Canon P x0 → Canon P (f x0 x1 x2 x3)) : Answers P (s.cacheOp a acc h f) := by
  unfold State.cacheOp
  extract_lets +onlyGivenNames ea
  refine issue_answers hs ?_
  split
  · next _ _ e0 =>
      exact raise_answers (canon_of_snd (translate_canon hs) e0)
  · next _ _ e1 =>
      extract_lets s1
      have hs1 : Canon P s1 := settleRange_canon (beforeAccess_canon (canon_of_snd (translate_canon hs) e1))
      split
      · exact done_answers hs1
      · exact done_answers (canon_ite (hf _ _ _ _ hs1) hs1)

theorem execCwb_answers {a : BitVec 5} {h : BitVec 2} {s : State} (hs : Canon P s) : Answers P (execCwb a h s) := by
  unfold execCwb
  exact cacheOp_answers hs (fun _ _ _ _ hc => writeBackLine_canon hc)

theorem execCinv_answers {a : BitVec 5} {h : BitVec 2} {s : State} (hs : Canon P s) : Answers P (execCinv a h s) := by
  unfold execCinv
  exact cacheOp_answers hs (fun _ _ _ _ hc => canon_ite (dropCached_canon hc) (discardLine_canon hc))

theorem execCwbi_answers {a : BitVec 5} {h : BitVec 2} {s : State} (hs : Canon P s) : Answers P (execCwbi a h s) := by
  unfold execCwbi
  exact cacheOp_answers hs (fun _ _ _ _ hc => dropCached_canon hc)

theorem clearBank_canon {s : State} {t b : Nat} (hs : Canon P s) : Canon P (s.clearBank t b) := by
  unfold State.clearBank
  extract_lets lo
  exact canon_filter hs rfl

theorem settleBank_canon {s : State} {t b : Nat} (hs : Canon P s) : Canon P (s.settleBank t b) := by
  unfold State.settleBank
  exact canon_foldl (fun _ _ hc => settleIf_canon hc) hs

theorem switchBank_canon {s : State} {t b : Nat} {m : BitVec 2} (hs : Canon P s) : Canon P (s.switchBank t b m) := by
  unfold State.switchBank
  extract_lets s1 k s2 s3 s4
  have hs1 : Canon P s1 := settleBank_canon hs
  have hs2 : Canon P s2 := canon_ite (dropWay_canon hs1) hs1
  have hs3 : Canon P s3 := canon_foldl (fun _ _ hc => wakeFault_canon (waitLeave_canon hc)) hs2
  have hs4 : Canon P s4 := canon_ite (modTile_canon (clearBank_canon hs3)) (canon_ite (modBank_canon hs3) hs3)
  exact modBank_canon hs4

theorem bankStep_canon {s : State} {t b : Nat} (hs : Canon P s) : Canon P (s.bankStep t b) := by
  unfold State.bankStep
  split
  · exact hs
  · refine canon_ite hs ?_
    extract_lets s1 s2
    have hs1 : Canon P s1 := modBank_canon hs
    have hs2 : Canon P s2 := canon_ite (modBank_canon hs1) (switchBank_canon hs1)
    exact wakeIf_canon hs2

theorem execLoadReturn_answers {slot idx : Nat} {s : State} (hs : Canon P s) : Answers P (execLoadReturn slot idx s) := by
  unfold execLoadReturn
  split
  · split
    · exact answers_next (packetPerform_canon hs)
    · exact answers_next (packetPerform_canon hs)
    · exact answers_next hs
  · exact answers_next hs

theorem execStorePerform_answers {slot idx : Nat} {s : State} (hs : Canon P s) : Answers P (execStorePerform slot idx s) := by
  unfold execStorePerform
  split
  · split
    · exact answers_next (packetPerform_canon hs)
    · exact answers_next hs
  · exact answers_next hs

theorem execTranslationWalkDone_answers {station : Nat} {pid : BitVec 12} {va : BitVec 64} {s : State} (hs : Canon P s) :
    Answers P (execTranslationWalkDone station pid va s) := by
  unfold execTranslationWalkDone
  refine answers_ite (answers_next hs) ?_
  split
  · exact answers_next (tlbAdd_canon hs)
  · exact answers_next hs

theorem tsinvPage_canon {s : State} {pid : BitVec 12} {vpn : Nat} (hs : Canon P s) : Canon P (s.tsinvPage pid vpn) := by
  unfold State.tsinvPage
  exact canon_same hs rfl

theorem execTsinvPid_answers {pid : BitVec 12} {s : State} (hs : Canon P s) : Answers P (execTsinvPid pid s) := by
  unfold execTsinvPid
  exact answers_next (canon_same hs rfl)

theorem execTsinvAll_answers {s : State} (hs : Canon P s) : Answers P (execTsinvAll s) := by
  unfold execTsinvAll
  exact answers_next (canon_same hs rfl)

theorem elevatorsRetired_canon {s : State} (hs : Canon P s) : Canon P s.elevatorsRetired := by
  unfold State.elevatorsRetired
  extract_lets gone
  exact canon_ite hs (canon_foldl (fun _ _ hc => note_canon hc) (tableChange_canon (modPlat_canon hs)))

theorem execElevatorRetire_answers {elev : Nat} {s : State} (hs : Canon P s) : Answers P (execElevatorRetire elev s) := by
  unfold execElevatorRetire
  refine answers_ite (answers_next hs) ?_
  extract_lets dead s1 users s2 s3
  have hs1 : Canon P s1 := note_canon (tableChange_canon (modPlat_canon (tickFree_canon hs)))
  have hs2 : Canon P s2 := canon_foldl (fun _ _ hc => modCore_canon hc) hs1
  have hs3 : Canon P s3 := canon_ite (modPlat_canon hs2) hs2
  exact answers_next (elevatorsRetired_canon hs3)

theorem execElevatorReissue_answers {core : Nat} {s : State} (hs : Canon P s) : Answers P (execElevatorReissue core s) := by
  unfold execElevatorReissue
  extract_lets retiring tested
  refine answers_ite (answers_next hs) ?_
  exact answers_next (elevatorsRetired_canon (modPlat_canon (modCore_canon hs)))

/-! ## Atomics -/

theorem sendHome_canon {s : State} {core : Nat} {x : Xlate} (hs : Canon P s) : Canon P (s.sendHome core x) := by
  unfold State.sendHome
  split
  · exact canon_ite (dropCached_canon hs) hs
  · exact hs

theorem amoCheck_canon {s : State} {ea : Word} {align : Nat} {remoteOk : Bool} (hs : Canon P s) :
    Canon P (s.amoCheck ea align remoteOk).2 := by
  unfold State.amoCheck
  split
  · next _ _ e0 =>
      exact canon_of_snd (globalCheck_canon hs) e0
  · next _ _ e1 =>
      split
      · exact canon_of_snd (globalCheck_canon hs) e1
      · exact canon_ite_snd (canon_of_snd (globalCheck_canon hs) e1) (canon_of_snd (globalCheck_canon hs) e1)
      · exact canon_of_snd (globalCheck_canon hs) e1

theorem beforeHome_canon {s : State} {x : Xlate} {n : Nat} (hs : Canon P s) : Canon P (s.beforeHome x n) := by
  unfold State.beforeHome
  extract_lets line
  exact consumeHart_canon (sendHome_canon (settle_canon (settleIf_canon hs)))

theorem amo_answers {s : State} {op : Nat} {d a b : BitVec 5} {w : BitVec 1} {h : BitVec 2} (hs : Canon P s) :
    Answers P (s.amo op d a b w h) := by
  unfold State.amo
  extract_lets +onlyGivenNames ea n v cmp
  refine issue_answers hs ?_
  split
  · next _ _ e0 =>
      exact raise_answers (canon_of_snd (amoCheck_canon hs) e0)
  · next _ _ e1 =>
      refine answers_ite (raise_answers (canon_of_snd (amoCheck_canon hs) e1)) ?_
      refine remoteGate_answers (canon_of_snd (amoCheck_canon hs) e1) ?_
      extract_lets +onlyGivenNames s1
      have hs1 : Canon P s1 := beforeHome_canon (beforeAccess_canon (canon_of_snd (amoCheck_canon hs) e1))
      split
      · extract_lets logs
        exact logThenFar_answers hs1 (fun _ hs2 => awaitRemote_answers (sendRemote_canon hs2))
      · extract_lets old r
        exact logThen_answers hs1 (fun _ hs2 => done_answers (canon_ite (homePut_canon hs2) hs2))

theorem red_answers {s : State} {op : Nat} {a b : BitVec 5} {w : BitVec 1} {h : BitVec 2} (hs : Canon P s) :
    Answers P (s.red op a b w h) := by
  unfold State.red
  extract_lets ea n v
  refine issue_answers hs ?_
  split
  · next _ _ e0 =>
      exact raise_answers (canon_of_snd (amoCheck_canon hs) e0)
  · next _ _ e1 =>
      refine answers_ite (raise_answers (canon_of_snd (amoCheck_canon hs) e1)) ?_
      exact remoteGate_answers (canon_of_snd (amoCheck_canon hs) e1) (logThenFar_answers (sendHome_canon (beforeAccess_canon
          (canon_of_snd (amoCheck_canon hs) e1))) (fun _ hs2 => by
          split
          · exact done_answers (sendRemote_canon hs2)
          · exact done_answers (deferGlobal_canon hs2)))

theorem execAmoHomePerform_answers {slot idx : Nat} {s : State} (hs : Canon P s) :
    Answers P (execAmoHomePerform slot idx s) := by
  unfold execAmoHomePerform
  split
  · split
    · exact answers_next (packetPerform_canon hs)
    · exact answers_next hs
  · exact answers_next hs

theorem rsvJoin_canon {s : State} {sid line : Nat} (hs : Canon P s) : Canon P (s.rsvJoin sid line) := by
  unfold State.rsvJoin
  split
  · exact canon_same hs rfl
  · exact canon_same hs rfl

theorem rsvPass_canon {s : State} {line : Nat} (hs : Canon P s) : Canon P (s.rsvPass line) := by
  unfold State.rsvPass
  extract_lets next
  exact canon_same hs rfl

theorem execLrw_answers {d a : BitVec 5} {h : BitVec 2} {s : State} (hs : Canon P s) : Answers P (execLrw d a h s) := by
  unfold execLrw
  extract_lets ea
  refine issue_answers hs ?_
  refine answers_ite (raise_answers hs) ?_
  split
  · next _ _ e0 =>
      exact raise_answers (canon_of_snd (amoCheck_canon hs) e0)
  · next _ _ e1 =>
      exact remoteGate_answers (canon_of_snd (amoCheck_canon hs) e1) (answers_ite (doneG_answers (modHart_canon (rsvJoin_canon
          (beforeHome_canon (beforeAccess_canon (canon_of_snd (amoCheck_canon hs) e1)))))) (answers_next (parkAt_canon
          (modHart_canon (rsvJoin_canon (beforeHome_canon (beforeAccess_canon (canon_of_snd (amoCheck_canon hs) e1))))))))

theorem execScr_answers {d a b : BitVec 5} {h : BitVec 2} {s : State} (hs : Canon P s) : Answers P (execScr d a b h s) := by
  unfold execScr
  extract_lets ea v
  refine issue_answers hs ?_
  split
  · next _ _ e0 =>
      exact raise_answers (canon_of_snd (amoCheck_canon hs) e0)
  · next _ _ e1 =>
      refine answers_ite (raise_answers (canon_of_snd (amoCheck_canon hs) e1)) ?_
      exact remoteGate_answers (canon_of_snd (amoCheck_canon hs) e1) (answers_ite (doneG_answers (sendHome_canon (settle_canon
          (settleIf_canon (beforeAccess_canon (canon_of_snd (amoCheck_canon hs) e1)))))) (logThen_answers (sendHome_canon
          (settle_canon (settleIf_canon (beforeAccess_canon (canon_of_snd (amoCheck_canon hs) e1))))) (fun _ hs2 =>
          done_answers (rsvPass_canon (homePut_canon hs2)))))

theorem grantHome_canon {s : State} {sid pa : Nat} (hs : Canon P s) : Canon P (s.grantHome sid pa) := by
  unfold State.grantHome
  split
  · exact canon_ite hs (dropCached_canon hs)
  · exact hs

theorem execReservationGrant_answers {line : Nat} {s : State} (hs : Canon P s) : Answers P (execReservationGrant line s) := by
  unfold execReservationGrant
  split
  · exact answers_next hs
  · split
    · extract_lets +onlyGivenNames take s1
      have hs1 : Canon P s1 := canon_same hs rfl
      split
      · split
        · extract_lets s1'
          have hs1' : Canon P s1' := consume_canon (grantHome_canon hs1)
          exact answers_next (wake_canon hs1')
        · exact answers_next hs1
      · exact answers_next (rsvPass_canon hs1)
    · exact answers_next hs

theorem execReservationTimeout_answers {line : Nat} {s : State} (hs : Canon P s) :
    Answers P (execReservationTimeout line s) := by
  unfold execReservationTimeout
  split
  · exact answers_next hs
  · split
    · exact answers_ite (answers_next hs) (answers_next (dropReservation_canon hs))
    · exact answers_next hs

/-! ## Formats -/

theorem execSetfmt_answers {a : BitVec 5} {h : BitVec 2} {s : State} (hs : Canon P s) : Answers P (execSetfmt a h s) := by
  unfold execSetfmt
  extract_lets +onlyGivenNames ea
  refine issue_answers hs ?_
  split
  · next _ _ e0 =>
      exact raise_answers (canon_of_snd (globalCheck_canon hs) e0)
  · next _ _ e1 =>
      refine remoteGate_answers (canon_of_snd (globalCheck_canon hs) e1) ?_
      extract_lets +onlyGivenNames s1
      have hs1 : Canon P s1 := beforeAccess_canon (canon_of_snd (globalCheck_canon hs) e1)
      split
      · exact awaitRemote_answers (sendRemote_canon hs1)
      · split
        next _ _ e2 =>
        extract_lets f c
        refine answers_ite (raise_answers (canon_of_snd (loadNow_canon hs1) e2)) ?_
        exact done_answers (canon_of_snd (loadNow_canon hs1) e2)

theorem execStfmt_answers {a : BitVec 5} {h : BitVec 2} {s : State} (hs : Canon P s) : Answers P (execStfmt a h s) := by
  unfold execStfmt
  extract_lets ea bs
  refine issue_answers hs ?_
  split
  · next _ _ e0 =>
      exact raise_answers (canon_of_snd (globalCheck_canon hs) e0)
  · next _ _ e1 =>
      refine answers_ite (raise_answers (canon_of_snd (globalCheck_canon hs) e1)) ?_
      exact remoteGate_answers (canon_of_snd (globalCheck_canon hs) e1) (logThenFar_answers (beforeStore_canon (canon_of_snd
          (globalCheck_canon hs) e1)) (fun _ hs2 => putOut_answers hs2))

/-! ## Profiling -/

theorem rawPut_canon {s : State} {pa : Nat} {bs : List Byte} (hs : Canon P s) : Canon P (s.rawPut pa bs) := by
  unfold State.rawPut
  exact canon_ite (canon_put hs rfl) hs

theorem spill_canon {s : State} {tile : Nat} {e : ProfEntry} (hs : Canon P s) : Canon P (s.spill tile e) := by
  unfold State.spill
  extract_lets next full pos wrap s1 s2
  have hs1 : Canon P s1 := rawPut_canon hs
  have hs2 : Canon P s2 := rawPut_canon hs1
  exact canon_same hs2 rfl

theorem spillIf_canon {s : State} {tile : Nat} {sel : ProfEntry → Bool} (hs : Canon P s) : Canon P (s.spillIf tile sel) := by
  unfold State.spillIf
  extract_lets l s1
  have hs1 : Canon P s1 := canon_ite hs (modTile_canon hs)
  exact canon_foldl (fun _ _ ht => spill_canon ht) hs1

theorem profVisit_canon {s : State} {tile : Nat} {pid : BitVec 12} {pc : Word} {r : Nat} (hs : Canon P s) :
    Canon P (s.profVisit tile pid pc r) := by
  unfold State.profVisit
  extract_lets +onlyGivenNames t'
  refine canon_ite hs ?_
  extract_lets i put new
  have hput : ∀ x0 x1, Canon P x0 → Canon P (put x0 x1) :=
    (fun _ _ ha => modTile_canon ha)
  split
  · exact hput _ _ hs
  · exact canon_ite (canon_ite (hput _ _ (spill_canon hs)) (hput _ _ hs)) (hput _ _ (spill_canon hs))

theorem spillPid_canon {s : State} {pid : BitVec 12} (hs : Canon P s) : Canon P (s.spillPid pid) := by
  unfold State.spillPid
  exact canon_ite (canon_foldl (fun _ _ ha => spillIf_canon ha) hs) hs

theorem profctlPut_canon {s : State} {tile : Nat} {v : Word} (hs : Canon P s) : Canon P (s.profctlPut tile v) := by
  unfold State.profctlPut
  extract_lets w s1
  have hs1 : Canon P s1 := canon_ite (spillIf_canon hs) hs
  exact modTile_canon hs1

/-! ## Synchronisation -/

theorem takeWord_canon {s : State} {a : Nat} (hs : Canon P s) : Canon P (s.takeWord a) := by
  unfold State.takeWord
  exact modTile_canon hs

theorem ldeWord_canon {s : State} {a : Nat} (hs : Canon P s) : Canon P (s.ldeWord a) := by
  unfold State.ldeWord
  exact modTile_canon hs

theorem fillWord_canon {s : State} {a : Nat} {v : Word} (hs : Canon P s) : Canon P (s.fillWord a v) := by
  unfold State.fillWord
  exact modTile_canon (spWrite_canon hs)

theorem serveWord_canon {s : State} {a left : Nat} (hs : Canon P s) : Canon P (s.serveWord a left) := by
  induction left generalizing s a with
  | zero =>
    rw [State.serveWord]
    exact hs
  | succ left ih =>
    rw [State.serveWord]
    split
    · exact hs
    · split
      · extract_lets v
        exact ih (wake_canon (waitLeave_canon (ldeWord_canon hs)))
      · exact ih (wake_canon (waitLeave_canon (fillWord_canon hs)))
      · exact hs

theorem serveWordAll_canon {s : State} {a : Nat} (hs : Canon P s) : Canon P (s.serveWordAll a) := by
  unfold State.serveWordAll
  exact serveWord_canon hs

theorem fullEmpty_answers {s : State} {a : BitVec 5} {h : BitVec 2} {writes : Bool} {reads : Bool → Bool}
    {k : State → Nat → Bool → Result} (hs : Canon P s) (hk : ∀ x0 x1 x2, Canon P x0 → Answers P (k x0 x1 x2)) :
    Answers P (s.fullEmpty a h writes reads k) := by
  unfold State.fullEmpty
  extract_lets +onlyGivenNames ea
  exact issue_answers hs (bankGate_answers hs (fun _ hs => by
      split
      · exact raise_answers hs
      · extract_lets s1 full
        have hs1 : Canon P s1 := settleRange_canon (beforeAccess_canon hs)
        exact answers_ite (raise_answers hs1) (hk _ _ _ hs1)))

theorem execLde_answers {d a : BitVec 5} {h : BitVec 2} {s : State} (hs : Canon P s) : Answers P (execLde d a h s) := by
  unfold execLde
  exact fullEmpty_answers hs (fun _ _ _ hs1 => answers_ite (answers_next (serveWordAll_canon (modHart_canon (ldeWord_canon
      (consumeHart_canon hs1))))) (answers_next (waitJoin_canon hs1)))

theorem execStf_answers {a b : BitVec 5} {h : BitVec 2} {s : State} (hs : Canon P s) : Answers P (execStf a b h s) := by
  unfold execStf
  exact fullEmpty_answers hs (fun _ _ _ hs1 => answers_ite (answers_next (waitJoin_canon hs1)) (answers_next
      (serveWordAll_canon (modHart_canon (fillWord_canon hs1)))))

theorem execLdew_answers {d a b : BitVec 5} {h : BitVec 2} {s : State} (hs : Canon P s) : Answers P (execLdew d a b h s) := by
  unfold execLdew
  exact fullEmpty_answers hs (fun _ _ _ hs1 => answers_ite (answers_next (serveWordAll_canon (modHart_canon (takeWord_canon
      (consumeHart_canon hs1))))) (doneG_answers hs1))

theorem execStfw_answers {d a b : BitVec 5} {h : BitVec 2} {s : State} (hs : Canon P s) : Answers P (execStfw d a b h s) := by
  unfold execStfw
  exact fullEmpty_answers hs (fun _ _ _ hs1 => answers_ite (doneG_answers hs1) (answers_next (serveWordAll_canon (modHart_canon
      (fillWord_canon hs1)))))

theorem execFeq_answers {d a : BitVec 5} {h : BitVec 2} {s : State} (hs : Canon P s) : Answers P (execFeq d a h s) := by
  unfold execFeq
  exact fullEmpty_answers hs (fun _ _ _ hs1 => doneG_answers hs1)

theorem execGive_answers {a b : BitVec 5} {h : BitVec 2} {s : State} (hs : Canon P s) : Answers P (execGive a b h s) := by
  unfold execGive
  extract_lets ea gb
  exact issue_answers hs (answers_ite (raise_answers hs) (bankGate_answers hs (fun _ hs => by
      split
      · exact raise_answers hs
      · refine answers_ite (raise_answers hs) ?_
        exact done_answers (ownerPut_canon (settleIf_canon (beforeAccess_canon hs))))))

theorem serveOwner_canon {s : State} {o : Owned} (hs : Canon P s) : Canon P (s.serveOwner o) := by
  unfold State.serveOwner
  refine canon_ite hs ?_
  split
  exact canon_foldl (fun _ _ hc => by
      split
      · exact canon_ite (wake_canon (waitLeave_canon hc)) hc
      · exact hc) hs

theorem flip_canon {s : State} {o : Owned} {c : BitVec 3} (hs : Canon P s) : Canon P (s.flip o c) := by
  unfold State.flip
  exact serveOwner_canon (ownerPut_canon hs)

theorem flipOwned_canon {s : State} {l : List Owned} {engine c : BitVec 3} (hs : Canon P s) :
    Canon P (s.flipOwned l engine c) := by
  unfold State.flipOwned
  exact canon_foldl (fun _ _ ht => canon_ite (flip_canon ht) ht) hs

theorem execOwnw_answers {a : BitVec 5} {h : BitVec 2} {s : State} (hs : Canon P s) : Answers P (execOwnw a h s) := by
  unfold execOwnw
  extract_lets +onlyGivenNames ea
  exact issue_answers hs (bankGate_answers hs (fun _ hs => by
      split
      · exact raise_answers hs
      · extract_lets s1
        have hs1 : Canon P s1 := beforeAccess_canon hs
        exact answers_ite (done_answers hs1) (answers_next (waitJoin_canon hs1))))

theorem openBarrier_canon {s : State} {q : Nat} {pid : BitVec 12} {gcb w1 : Word} (hs : Canon P s) :
    Canon P (s.openBarrier q pid gcb w1) := by
  unfold State.openBarrier
  extract_lets +onlyGivenNames s1 go s2
  have hs1 : Canon P s1 := vaSetWordAt_canon hs
  have hs2 : Canon P s2 := canon_same hs1 rfl
  exact canon_foldl (fun _ _ hc => by
      extract_lets c1
      have hc1 : Canon P c1 := by
        unfold c1
        split
        · exact coreInvalidate_canon hc
        · exact hc
      exact wake_canon hc1) hs2

theorem tryBarrier_canon {s : State} {q : Nat} {pid : BitVec 12} {gcb : Word} (hs : Canon P s) :
    Canon P (s.tryBarrier q pid gcb) := by
  unfold State.tryBarrier
  split
  · exact canon_ite (openBarrier_canon hs) hs
  · exact hs

theorem farBar_answers {s : State} {h : BitVec 2} {dev off : Nat} {va : Word} (hs : Canon P s) :
    Answers P (s.farBar h dev off va) := by
  unfold State.farBar
  exact answers_ite (raise_answers hs) (awaitRemote_answers (sendRemote_canon hs))

theorem barPoll_canon {s : State} {sid dev off : Nat} {va : Word} (hs : Canon P s) : Canon P (s.barPoll sid dev off va) := by
  unfold State.barPoll
  exact remoteSend_canon hs

theorem farBarArrived_canon {s : State} {sid dev off : Nat} {va w : Word} (hs : Canon P s) :
    Canon P (s.farBarArrived sid dev off va w) := by
  unfold State.farBarArrived
  extract_lets gen
  split
  · exact hs
  · exact barPoll_canon (modSlot_canon hs)

theorem farBarRead_canon {s : State} {sid dev off : Nat} {va w : Word} (hs : Canon P s) :
    Canon P (s.farBarRead sid dev off va w) := by
  unfold State.farBarRead
  split
  · exact hs
  · split
    · exact hs
    · refine canon_ite (barPoll_canon hs) ?_
      extract_lets s1
      have hs1 : Canon P s1 := by
        unfold s1
        split
        · exact coreInvalidate_canon hs
        · exact hs
      exact wake_canon hs1

theorem farBarFailed_canon {s : State} {sid : Nat} {c : Cause} {va : Word} (hs : Canon P s) :
    Canon P (s.farBarFailed sid c va) := by
  unfold State.farBarFailed
  split
  · exact hs
  · exact canon_ite hs (wakeFault_canon (modStrand_canon hs))

theorem execBar_answers {h : BitVec 2} {s : State} (hs : Canon P s) : Answers P (execBar h s) := by
  unfold execBar
  refine issue_answers hs ?_
  extract_lets +onlyGivenNames s1 r q
  have hs1 : Canon P s1 := acquireActions_canon (releaseActions_canon (orderingDone_canon hs))
  refine answers_ite (done_answers hs1) ?_
  split
  · exact farBar_answers hs1
  · split
    · exact done_answers hs1
    · extract_lets s2 s3
      have hs2 : Canon P s2 := vaSetWordAt_canon hs1
      have hs3 : Canon P s3 := parkAt_canon hs2
      exact answers_next (tryBarrier_canon (canon_same hs3 rfl))

end

end Sys2Proof.Proofs

namespace Sys2Proof.Proofs

/-!
The form of the memory: the copy, palette and decomposition engines, passes, and the matrix unit (04 R107 to R109, 09 to 11).
-/

open Sys2Proof.Machine Sys2Proof.Claim

section

variable {P : Prop}

/-! ## Copy engines -/

theorem copyAccept_canon {s : State} {c : CopyCmd} (hs : Canon P s) : Canon P (s.copyAccept c) := by
  unfold State.copyAccept
  exact modStrand_canon (modTile_canon hs)

theorem execCp_answers {a b : BitVec 5} {h : BitVec 2} {s : State} (hs : Canon P s) : Answers P (execCp a b h s) := by
  unfold execCp
  extract_lets +onlyGivenNames ga gb
  refine issue_answers hs ?_
  split
  · exact raise_answers hs
  · extract_lets w c0 r c1 s1
    have hs1 : Canon P s1 := releaseActions_canon (beforeAccess_canon hs)
    exact answers_ite (done_answers (copyAccept_canon hs1)) (answers_next (parkAt_canon hs1))

theorem execCopyStart_answers {tile : Nat} {s : State} (hs : Canon P s) : Answers P (execCopyStart tile s) := by
  unfold execCopyStart
  split
  · exact answers_next hs
  · exact answers_ite (answers_next hs) (answers_next (modTile_canon hs))

theorem copyRead_canon {s : State} {c : CopyCmd} {a : Word} {n : Nat} (hs : Canon P s) : Canon P (s.copyRead c a n).2 := by
  unfold State.copyRead
  refine canon_ite_snd ?_ ?_
  · split
    · exact hs
    · exact consume_canon hs
  · split
    · next _ _ e0 =>
        exact canon_of_snd (translate_canon hs) e0
    · next _ _ e1 =>
        split
        · split
          · exact canon_of_snd (translate_canon hs) e1
          · exact canon_of_snd (translate_canon hs) e1
        · split
          next _ _ e2 =>
          exact canon_of_snd (paRead_canon (consume_canon (canon_of_snd (translate_canon hs) e1))) e2

theorem copyWrite_canon {s : State} {c : CopyCmd} {a : Word} {bs : List Byte} (hs : Canon P s) :
    BothCanon P (s.copyWrite c a bs) := by
  unfold State.copyWrite
  refine bothCanon_ite ?_ ?_
  · split
    · exact ⟨okCanon_error, hs⟩
    · exact ⟨(okCanon_ok (spWrite_canon hs)), hs⟩
  · split
    · next _ _ e0 =>
        exact ⟨okCanon_error, (canon_of_snd (translate_canon hs) e0)⟩
    · next _ _ e1 =>
        split
        · refine bothCanon_ite ?_ ⟨okCanon_error, (canon_of_snd (translate_canon hs) e1)⟩
          exact ⟨(okCanon_ok (remoteSend_canon (canon_of_snd (translate_canon hs) e1))), (canon_of_snd (translate_canon hs) e1)⟩
        · extract_lets s2
          have hs2 : Canon P s2 := paWrite_canon (canon_of_snd (translate_canon hs) e1)
          exact ⟨(okCanon_ok (writeBackLine_canon hs2)), (canon_of_snd (translate_canon hs) e1)⟩

theorem copyPieces_canon {s : State} {c : CopyCmd} {l : List (Nat × Nat × Nat)} (hs : Canon P s) :
    Canon P (s.copyPieces c l).2 := by
  induction l generalizing s c with
  | nil =>
    rw [State.copyPieces]
    exact hs
  | cons _ rest ih =>
    rw [State.copyPieces]
    split
    · next _ _ e0 =>
        exact canon_of_snd (copyRead_canon hs) e0
    · next _ _ e1 =>
        split
        · next _ _ e2 =>
            exact both_snd (copyWrite_canon (canon_of_snd (copyRead_canon hs) e1)) e2
        · next _ _ e3 =>
            exact ih (both_ok (copyWrite_canon (canon_of_snd (copyRead_canon hs) e1)) e3)

theorem copyMove_canon {s : State} {c : CopyCmd} (hs : Canon P s) : Canon P (s.copyMove c).2 := by
  unfold State.copyMove
  split
  · exact hs
  · exact copyPieces_canon hs

theorem setCopy_canon {s : State} {tile : Nat} {c : CopyCmd} (hs : Canon P s) : Canon P (s.setCopy tile c) := by
  unfold State.setCopy
  exact modTile_canon hs

theorem copyAsk_canon {s : State} {c : CopyCmd} (hs : Canon P s) : Canon P (s.copyAsk c) := by
  unfold State.copyAsk
  exact canon_ite hs (setCopy_canon (canon_foldl (fun _ _ ht => engineAsk_canon ht) hs))

theorem copyStatus_canon {s : State} {c : CopyCmd} {e : CopyStop} (hs : Canon P s) : Canon P (s.copyStatus c e) := by
  unfold State.copyStatus
  extract_lets w
  exact canon_put hs rfl

theorem copyLeave_canon {s : State} {tile : Nat} (hs : Canon P s) : Canon P (s.copyLeave tile) := by
  unfold State.copyLeave
  extract_lets s1
  have hs1 : Canon P s1 := modTile_canon hs
  split
  · split
    · exact modSlot_canon (copyAccept_canon hs1)
    · exact hs1
  · exact hs1

theorem copyEnd_canon {s : State} {c : CopyCmd} {e : CopyStop} (hs : Canon P s) : Canon P (s.copyEnd c e) := by
  unfold State.copyEnd
  extract_lets s2 s3 s4
  have hs2 : Canon P s2 := copyStatus_canon hs
  have hs3 : Canon P s3 := canon_ite (flipOwned_canon (flipOwned_canon hs2)) (flipOwned_canon (flipOwned_canon hs2))
  have hs4 : Canon P s4 := modStrand_canon hs3
  exact copyLeave_canon hs4

theorem execCopyComplete_answers {tile : Nat} {s : State} (hs : Canon P s) : Answers P (execCopyComplete tile s) := by
  unfold execCopyComplete
  split
  · exact answers_next hs
  · refine answers_ite (answers_next hs) ?_
    extract_lets +onlyGivenNames s0
    have hs0 : Canon P s0 := copyAsk_canon hs
    refine answers_ite (answers_next hs0) ?_
    extract_lets +onlyGivenNames fail
    split
    · exact answers_next (copyEnd_canon hs0)
    · split
      next _ _ e0 =>
      extract_lets e s2
      have hs2 : Canon P s2 := engineForget_canon (canon_of_snd (copyMove_canon hs0) e0)
      exact answers_ite (answers_next (setCopy_canon hs2)) (answers_next (copyEnd_canon hs2))

/-! ## Optical tiles -/

theorem optAccept_canon {s : State} {c : OptCmd} (hs : Canon P s) : Canon P (s.optAccept c) := by
  unfold State.optAccept
  extract_lets tk pass c1 s1
  have hs1 : Canon P s1 := modOpt_canon hs
  exact canon_ite hs1 (modStrand_canon hs1)

theorem optIssue_answers {s : State} {h : BitVec 2} {c : OptCmd} (hs : Canon P s) : Answers P (s.optIssue h c) := by
  unfold State.optIssue
  extract_lets s1
  have hs1 : Canon P s1 := releaseActions_canon (beforeAccess_canon hs)
  exact answers_ite (done_answers (optAccept_canon hs1)) (answers_next (parkAt_canon hs1))

theorem optRoom_canon {s : State} {tile : Nat} (hs : Canon P s) : Canon P (s.optRoom tile) := by
  unfold State.optRoom
  refine canon_ite ?_ hs
  split
  · split
    · exact modSlot_canon (optAccept_canon hs)
    · exact hs
  · exact hs

theorem engineReply_canon {s : State} {strand : Nat} {d : BitVec 5} {v : Word} (hs : Canon P s) :
    Canon P (s.engineReply strand d v) := by
  unfold State.engineReply
  exact modStrandKept_canon hs

theorem optFailure_canon {s : State} {c : OptCmd} {status tcause : Nat} {addr : Word} (hs : Canon P s) :
    Canon P (s.optFailure c status tcause addr) := by
  unfold State.optFailure
  extract_lets w s1
  have hs1 : Canon P s1 := canon_ite (modOpt_canon hs) (noteEngine_canon hs)
  exact canon_ite (noteEngine_canon hs1) hs1

theorem optEnd_canon {s : State} {tile idx : Nat} {c : OptCmd} {status febc tcause : Nat} {addr : Word} (hs : Canon P s) :
    Canon P (s.optEnd tile idx c status febc tcause addr) := by
  unfold State.optEnd
  extract_lets s1 ebc s2
  have hs1 : Canon P s1 := modOpt_canon hs
  have hs2 : Canon P s2 := by
    unfold s2
    refine canon_ite (canon_ite hs1 (varnFail_canon (optFailure_canon hs1))) ?_
    split
    · exact engineReply_canon hs1
    · exact canon_ite hs1 (optFailure_canon hs1)
  exact optRoom_canon hs2

theorem imageCmd_answers {s : State} {k : OptKind} {ack : Option (BitVec 5)} {a b : BitVec 5} {h : BitVec 2} (hs : Canon P s) :
    Answers P (s.imageCmd k ack a b h) := by
  unfold State.imageCmd
  extract_lets ga gb
  exact issue_answers hs (answers_ite (raise_answers hs) (answers_ite (raise_answers hs) (optIssue_answers hs)))

theorem selCmd_answers {s : State} {ack : Option (BitVec 5)} {a : BitVec 5} {h : BitVec 2} (hs : Canon P s) :
    Answers P (s.selCmd ack a h) := by
  unfold State.selCmd
  extract_lets ga
  exact issue_answers hs (answers_ite (raise_answers hs) (optIssue_answers hs))

theorem decompCmd_answers {s : State} {ack : Option (BitVec 5)} {a b : BitVec 5} {h : BitVec 2} (hs : Canon P s) :
    Answers P (s.decompCmd ack a b h) := by
  unfold State.decompCmd
  extract_lets ga gb n
  exact issue_answers hs (answers_ite (raise_answers hs) (answers_ite (raise_answers hs) (answers_ite (raise_answers hs)
      (optIssue_answers hs))))

theorem engineFailed_canon {s : State} {id : Nat} {va : Word} (hs : Canon P s) : Canon P (s.engineFailed id va) := by
  unfold State.engineFailed
  extract_lets k
  exact canon_ite (modTile_canon hs) (canon_ite hs (modOpt_canon hs))

theorem loaderRead_canon {s : State} {tile : Nat} {pid : BitVec 12} {exec : Bool} {a : Word} {n left : Nat} (hs : Canon P s) :
    Canon P (s.loaderRead tile pid exec a n left).2 := by
  induction left generalizing s a n with
  | zero => exact hs
  | succ left ih =>
    unfold State.loaderRead
    refine canon_ite_snd hs ?_
    extract_lets k
    split
    · next _ _ e => exact canon_of_snd (translate_canon hs) e
    · next x s1 e =>
      have hs1 : Canon P s1 := canon_of_snd (translate_canon hs) e
      have got : Canon P (match s1.region x.pa with
          | .remote dev off => (s1.engineGot (loaderId tile) dev off k, s1)
          | _ =>
            let (bs, t) := (s1.consume none pid x.pa k).paRead (s1.pathOf (coreAt tile 0) pid x.cached x.hint) x.pa k
            (some bs, t)).2 := by
        split
        · exact hs1
        · exact paRead_canon (consume_canon hs1)
      split
      next _ _ e2 =>
      split
      · exact canon_of_snd got e2
      · split
        · next _ _ e3 => exact canon_of_snd (ih (canon_of_snd got e2)) e3
        · next _ _ e3 => exact canon_of_snd (ih (canon_of_snd got e2)) e3

theorem engineWrite_canon {s : State} {tile : Nat} {pid : BitVec 12} {exec : Bool} {a : Word} {bs : List Byte} {left : Nat}
    (hs : Canon P s) : Canon P (s.engineWrite tile pid exec a bs left).2 := by
  induction left generalizing s tile pid exec a bs with
  | zero =>
    rw [State.engineWrite]
    exact hs
  | succ left ih =>
    rw [State.engineWrite]
    refine canon_ite_snd hs ?_
    extract_lets +onlyGivenNames k
    split
    · next _ _ e0 =>
        exact canon_of_snd (translate_canon hs) e0
    · next _ _ e1 =>
        split
        · refine canon_ite_snd (ih (remoteSend_canon (canon_of_snd (translate_canon hs) e1))) ?_
          exact canon_of_snd (translate_canon hs) e1
        · extract_lets s2
          have hs2 : Canon P s2 := paWrite_canon (canon_of_snd (translate_canon hs) e1)
          exact ih (writeBackLine_canon hs2)

theorem loaderStart_answers {s : State} {tile : Nat} {k : OptKind} (hs : Canon P s) : Answers P (s.loaderStart tile k) := by
  unfold State.loaderStart
  split
  · exact answers_ite (answers_next (modOpt_canon hs)) (answers_next hs)
  · exact answers_next hs

theorem imageAsk_canon {s : State} {tile i : Nat} {c : OptCmd} (hs : Canon P s) : Canon P (s.imageAsk tile i c) := by
  unfold State.imageAsk
  exact canon_ite hs (modOpt_canon (canon_foldl (fun _ _ ht => engineAsk_canon ht) hs))

theorem execPaletteLoadDone_answers {tile : Nat} {pebc : BitVec 7} {s : State} (hs : Canon P s) :
    Answers P (execPaletteLoadDone tile pebc s) := by
  unfold execPaletteLoadDone
  split
  · exact answers_next hs
  · refine answers_ite (answers_next (optEnd_canon (remoteEnd_canon hs))) ?_
    refine answers_ite (answers_next (optEnd_canon hs)) ?_
    extract_lets +onlyGivenNames s0
    have hs0 : Canon P s0 := imageAsk_canon hs
    refine answers_ite (answers_next hs0) ?_
    split
    · next _ _ e0 =>
        exact answers_next (optEnd_canon (engineForget_canon (canon_of_snd (loaderRead_canon hs0) e0)))
    · next _ _ e1 =>
        extract_lets s2
        have hs2 : Canon P s2 := engineForget_canon (canon_of_snd (loaderRead_canon hs0) e1)
        exact answers_ite (answers_next (optEnd_canon hs2)) (answers_next (optEnd_canon (modOpt_canon hs2)))

theorem storeDone_canon {s : State} {tile i : Nat} {c : OptCmd} {st : Nat × Nat × Word} (hs : Canon P s) :
    Canon P (s.storeDone tile i c st) := by
  unfold State.storeDone
  split
  · exact optEnd_canon hs
  · exact optEnd_canon hs

theorem execPaletteStoreDone_answers {tile : Nat} {s : State} (hs : Canon P s) : Answers P (execPaletteStoreDone tile s) := by
  unfold execPaletteStoreDone
  split
  · exact answers_next hs
  · refine answers_ite (answers_next hs) ?_
    refine answers_ite (answers_next (optEnd_canon hs)) ?_
    split
    · exact answers_next (storeDone_canon hs)
    · refine answers_ite (answers_next (optEnd_canon hs)) ?_
      split
      · exact answers_next (optEnd_canon hs)
      · split
        next _ _ e0 =>
        extract_lets st
        refine answers_ite (answers_next (modOpt_canon (canon_of_snd (engineWrite_canon hs) e0))) ?_
        exact answers_next (storeDone_canon (canon_of_snd (engineWrite_canon hs) e0))

theorem execPaletteSwitch_answers {tile : Nat} {pebc : BitVec 7} {s : State} (hs : Canon P s) :
    Answers P (execPaletteSwitch tile pebc s) := by
  unfold execPaletteSwitch
  split
  · exact answers_next hs
  · extract_lets o
    refine answers_ite (answers_next (optEnd_canon hs)) ?_
    refine answers_ite (answers_next hs) ?_
    refine answers_ite (answers_next (optEnd_canon hs)) ?_
    exact answers_ite (answers_next (optEnd_canon hs)) (answers_next (optEnd_canon (modOpt_canon hs)))

theorem decompEnd_canon {s : State} {tile i : Nat} {c : OptCmd} {status febc : Nat} (hs : Canon P s) :
    Canon P (s.decompEnd tile i c status febc) := by
  unfold State.decompEnd
  exact optEnd_canon (canon_ite (flip_canon hs) hs)

theorem execDecompStart_answers {tile : Nat} {s : State} (hs : Canon P s) : Answers P (execDecompStart tile s) := by
  unfold execDecompStart
  split
  · exact answers_next hs
  · extract_lets b
    refine answers_ite (answers_next (optEnd_canon hs)) ?_
    refine answers_ite (answers_next hs) ?_
    refine answers_ite (answers_next (decompEnd_canon hs)) ?_
    refine answers_ite (answers_next (decompEnd_canon hs)) ?_
    exact answers_ite (answers_next (decompEnd_canon hs)) (answers_next (modOpt_canon hs))

theorem decompInput_canon {s : State} {c : OptCmd} (hs : Canon P s) : Canon P (s.decompInput c) := by
  unfold State.decompInput
  exact canon_foldl (fun _ _ ht => consume_canon ht) hs

theorem execDecompDone_answers {tile : Nat} {pebc : BitVec 7} {s : State} (hs : Canon P s) :
    Answers P (execDecompDone tile pebc s) := by
  unfold execDecompDone
  split
  · exact answers_next hs
  · refine answers_ite (answers_next (decompEnd_canon hs)) ?_
    extract_lets s' f
    have hs' : Canon P s' := decompInput_canon hs
    exact answers_ite (answers_next (decompEnd_canon hs')) (answers_next (decompEnd_canon (modOpt_canon hs')))

theorem optLight_canon {s : State} {tile : Nat} (hs : Canon P s) : Canon P (s.optLight tile) := by
  unfold State.optLight
  extract_lets lit sw
  exact modOpt_canon hs

theorem tileShown_canon {s old : State} {tile : Nat} (hs : Canon P s) (hold : Canon P old) :
    Canon P (s.tileShown old tile) := by
  unfold State.tileShown
  exact canon_ite hs (tableChange_canon hs)

theorem calibNext_canon {s : State} {left : Nat} (hs : Canon P s) : Canon P (s.calibNext left) := by
  induction left generalizing s with
  | zero =>
    rw [State.calibNext]
    exact hs
  | succ left ih =>
    rw [State.calibNext]
    split
    · exact hs
    · extract_lets busy
      exact canon_ite hs (ih (modOpt_canon (modPlat_canon hs)))

theorem serviceTiles_canon {s : State} (hs : Canon P s) : Canon P s.serviceTiles := by
  unfold State.serviceTiles
  extract_lets settled
  exact canon_ite (tableChange_canon (modPlat_canon hs)) hs

theorem optOff_canon {s : State} {tile : Nat} {off : Bool} (hs : Canon P s) : Canon P (s.optOff tile off) := by
  unfold State.optOff
  extract_lets s1 s2
  have hs1 : Canon P s1 := modOpt_canon hs
  have hs2 : Canon P s2 := by
    unfold s2
    split
    · exact hs1
    · exact canon_ite hs1 (optLight_canon hs1)
    · exact canon_ite (calibNext_canon (modOpt_canon hs1)) hs1
    · exact canon_ite (modOpt_canon hs1) hs1
  exact serviceTiles_canon (tileShown_canon hs2 hs)

theorem optCal_canon {s : State} {tile : Nat} (hs : Canon P s) : Canon P (s.optCal tile) := by
  unfold State.optCal
  exact modOpt_canon hs

theorem execOtctlClrEffect_answers {tile : Nat} {s : State} (hs : Canon P s) : Answers P (execOtctlClrEffect tile s) := by
  unfold execOtctlClrEffect
  split
  · exact answers_next hs
  · exact answers_next (optEnd_canon (modOpt_canon hs))

theorem modOptics_canon {s : State} {f : Optics → Optics} (hs : Canon P s) : Canon P (s.modOptics f) := by
  unfold State.modOptics
  exact canon_foldl (fun _ _ ht => modOpt_canon ht) hs

theorem calibAll_canon {s : State} (hs : Canon P s) : Canon P s.calibAll := by
  unfold State.calibAll
  extract_lets l
  exact calibNext_canon (modPlat_canon hs)

theorem retiredDigital_canon {s : State} (hs : Canon P s) : Canon P s.retiredDigital := by
  unfold State.retiredDigital
  exact canon_foldl (fun _ _ ht => canon_ite ht (modOpt_canon ht)) hs

theorem execTileCalibDone_answers {tile : Nat} {ok : Bool} {found : BitVec 8 × BitVec 16} {pebc : BitVec 7} {s : State}
    (hs : Canon P s) : Answers P (execTileCalibDone tile ok found pebc s) := by
  unfold execTileCalibDone
  refine answers_ite (answers_next hs) ?_
  extract_lets now p64 s1 s2 s3
  have hs1 : Canon P s1 := modOpt_canon (tickFree_canon hs)
  have hs2 : Canon P s2 := modOpt_canon hs1
  have hs3 : Canon P s3 := canon_ite (optLight_canon hs2) hs2
  exact answers_next (serviceTiles_canon (calibNext_canon (tableChange_canon hs3)))

/-! ## Passes -/

theorem passInput_canon {s : State} {c : OptCmd} {j n : Nat} (hs : Canon P s) : Canon P (s.passInput c j n) := by
  unfold State.passInput
  exact consume_canon (consume_canon hs)

theorem leaveGranted_canon {s : State} {tile : Nat} (hs : Canon P s) : Canon P (s.leaveGranted tile) := by
  unfold State.leaveGranted
  exact modTile_canon hs

theorem askLeave_canon {s : State} {tile : Nat} {pid : BitVec 12} {kind : Nat} (hs : Canon P s) :
    Canon P (s.askLeave tile pid kind).2 := by
  unfold State.askLeave
  exact canon_ite_snd (leaveGranted_canon hs) (modTile_canon hs)

theorem execPassStart_answers {tile : Nat} {pebc : BitVec 7} {s : State} (hs : Canon P s) :
    Answers P (execPassStart tile pebc s) := by
  unfold execPassStart
  split
  · exact answers_next hs
  · refine answers_ite (answers_next hs) ?_
    extract_lets +onlyGivenNames inO outO st s1
    have hs1 : Canon P s1 := modOpt_canon hs
    refine answers_ite (answers_next (modOpt_canon hs1)) ?_
    extract_lets +onlyGivenNames s2
    have hs2 : Canon P s2 := modOpt_canon hs1
    refine answers_ite (answers_next (modOpt_canon hs2)) ?_
    split
    next _ _ e0 =>
    extract_lets _ r
    exact answers_next (modOpt_canon (canon_of_snd (askLeave_canon hs2) e0))

theorem passLost_canon {s : State} {c : OptCmd} (hs : Canon P s) : Canon P (s.passLost c) := by
  unfold State.passLost
  exact modOpt_canon hs

theorem execGroupEntry_answers {tile : Nat} {s : State} (hs : Canon P s) : Answers P (execGroupEntry tile s) := by
  unfold execGroupEntry
  extract_lets +onlyGivenNames o
  split
  · exact answers_next hs
  · extract_lets +onlyGivenNames c k n
    refine answers_ite (answers_next hs) ?_
    refine answers_ite (answers_next (passLost_canon hs)) ?_
    extract_lets nan e below dark
    exact answers_ite (answers_next (modOpt_canon hs)) (answers_next (modOpt_canon hs))

theorem putVec_canon {s : State} {c : OptCmd} {j : Nat} {ys : VecOut} {nan : Bool} {n : Nat} (hs : Canon P s) :
    Canon P (s.putVec c j ys nan n).1 := by
  unfold State.putVec
  split
  · exact canon_ite_fst (spWrite_canon hs) (spWrite_canon hs)
  · extract_lets rs
    exact spWrite_canon hs
  · split
    extract_lets s1
    have hs1 : Canon P s1 := spWrite_canon hs
    exact spWrite_canon hs1

theorem outNan_canon {s : State} {c : OptCmd} {j n : Nat} (hs : Canon P s) : Canon P (s.outNan c j n).1 := by
  unfold State.outNan
  split
  next _ _ e0 =>
  exact canon_of_fst (putVec_canon hs) e0

theorem outCodes_canon {s : State} {c : OptCmd} {k : Palette} {j : Nat} {codes : Nat → BitVec 10} (hs : Canon P s) :
    Canon P (s.outCodes c k j codes).1 := by
  unfold State.outCodes
  extract_lets +onlyGivenNames n sx
  refine canon_ite_fst (outNan_canon hs) ?_
  extract_lets ys sat
  split
  next _ _ e0 =>
  exact canon_of_fst (putVec_canon hs) e0

theorem outEmu_canon {s : State} {c : OptCmd} {n : Nat} {rows : List (List Nat)} {j : Nat} (hs : Canon P s) :
    Canon P (s.outEmu c n rows j).1 := by
  unfold State.outEmu
  extract_lets +onlyGivenNames sx
  refine canon_ite_fst (outNan_canon hs) ?_
  extract_lets xs es ys
  split
  next _ _ e0 =>
  exact canon_of_fst (putVec_canon hs) e0

theorem outGroup_canon {s : State} {w : State → Nat → State × VecSum} {q left : Nat} (hs : Canon P s)
    (hw : ∀ x0 x1, Canon P x0 → Canon P (w x0 x1).1) : Canon P (s.outGroup w q left).1 := by
  induction left generalizing s w q with
  | zero =>
    rw [State.outGroup]
    exact hs
  | succ left ih =>
    rw [State.outGroup]
    split
    next _ _ e0 =>
    split
    next _ _ e1 =>
    exact canon_of_fst (ih (canon_of_fst (hw _ _ hs) e0) hw) e1

theorem execGroupOutput_answers {tile : Nat} {codes : List (BitVec 10)} {s : State} (hs : Canon P s) :
    Answers P (execGroupOutput tile codes s) := by
  unfold execGroupOutput
  split
  · exact answers_next hs
  · split
    · exact answers_next hs
    · refine answers_ite (answers_next hs) ?_
      refine answers_ite (answers_next (passLost_canon hs)) ?_
      extract_lets ctr n cols row ins code
      split
      next _ _ e0 =>
      exact answers_next (modOpt_canon (canon_same (canon_of_fst (outGroup_canon (passInput_canon hs) (fun _ _ ht =>
          outCodes_canon ht)) e0) rfl))

theorem execGroupEmulate_answers {tile : Nat} {s : State} (hs : Canon P s) : Answers P (execGroupEmulate tile s) := by
  unfold execGroupEmulate
  split
  · exact answers_next hs
  · split
    · exact answers_next hs
    · refine answers_ite (answers_next hs) ?_
      refine answers_ite (answers_next (passLost_canon hs)) ?_
      extract_lets n cols rows
      split
      next _ _ e0 =>
      exact answers_next (modOpt_canon (canon_of_fst (outGroup_canon (passInput_canon hs) (fun _ _ ht => outEmu_canon ht)) e0))

theorem pebcWake_canon {s : State} {sid tile : Nat} (hs : Canon P s) : Canon P (s.pebcWake sid tile) := by
  unfold State.pebcWake
  split
  · exact hs
  · split
    · exact canon_ite (wake_canon hs) hs
    · exact hs

theorem execPassEnd_answers {tile : Nat} {s : State} (hs : Canon P s) : Answers P (execPassEnd tile s) := by
  unfold execPassEnd
  split
  · exact answers_next hs
  · refine answers_ite (answers_next hs) ?_
    extract_lets r c good iO oO iOwned oOwned s1 s2 s3 s4 s5 s6
    have hs1 : Canon P s1 := canon_ite (spWrite_canon hs) hs
    have hs2 : Canon P s2 := canon_ite hs1 (flip_canon hs1)
    have hs3 : Canon P s3 := canon_ite hs2 (flip_canon hs2)
    have hs4 : Canon P s4 := modOpt_canon hs3
    have hs5 : Canon P s5 := modStrandKept_canon hs4
    have hs6 : Canon P s6 := by
      unfold s6
      split
      · exact engineReply_canon hs5
      · exact canon_ite hs5 (optFailure_canon hs5)
    exact answers_next (optRoom_canon (pebcWake_canon hs6))

theorem floorThen_answers {s : State} {k : Result} (hs : Canon P s) (hk : Answers P k) : Answers P (s.floorThen k) := by
  unfold State.floorThen
  split
  · extract_lets s1
    have hs1 : Canon P s1 := modHart_canon hs
    exact answers_next (raiseFault_canon hs1)
  · exact hk

theorem passCmd_answers {s : State} {k : OptKind} {ack : Option (BitVec 5)} {a : BitVec 5} {h : BitVec 2} (hs : Canon P s) :
    Answers P (s.passCmd k ack a h) := by
  unfold State.passCmd
  extract_lets ga
  exact issue_answers hs (floorThen_answers hs (answers_ite (raise_answers hs) (answers_ite (raise_answers hs)
      (optIssue_answers hs))))

/-! ## Vector floating point -/

theorem vecCmp_answers {s : State} {d : BitVec 3} {a b : BitVec 5} {p : BitVec 3} {c : Nat} {h : BitVec 2} (hs : Canon P s) :
    Answers P (s.vecCmp d a b p c h) := by
  unfold State.vecCmp
  extract_lets +onlyGivenNames x
  refine issue_answers hs ?_
  split
  · exact raise_answers hs
  · extract_lets rel m fl
    exact done_answers hs

theorem vecReduce_answers {s : State} {v : BitVec 5} {vs : List (BitVec 5)} {p : BitVec 3} {isCol : Bool} {h : BitVec 2}
    {f : Elt → List Nat → Nat × BitVec 6} (hs : Canon P s) : Answers P (s.vecReduce v vs p isCol h f) := by
  unfold State.vecReduce
  extract_lets x n
  refine issue_answers hs ?_
  refine answers_ite (raise_answers hs) ?_
  split
  · exact raise_answers hs
  · exact done_answers hs

/-! ## The exact matrix unit -/

theorem xmmInput_canon {s : State} {c : XmmCmd} (hs : Canon P s) : Canon P (s.xmmInput c) := by
  unfold State.xmmInput
  exact canon_foldl (fun _ _ ht => by
      split
      · exact consume_canon ht
      · exact ht) hs

theorem execXmmStart_answers {tile : Nat} {s : State} (hs : Canon P s) : Answers P (execXmmStart tile s) := by
  unfold execXmmStart
  split
  · exact answers_next hs
  · refine answers_ite (answers_next hs) ?_
    extract_lets st slabs
    split
    next _ _ e0 =>
    exact answers_next (modTile_canon (canon_of_snd (canon_ite_snd (askLeave_canon hs) hs) e0))

theorem xmmReport_canon {s : State} {c : XmmCmd} {prods : Nat} {flags : BitVec 6} {st npois : Nat} (hs : Canon P s) :
    Canon P (s.xmmReport c prods flags st npois) := by
  unfold State.xmmReport
  extract_lets w
  exact canon_put hs rfl

theorem xmmAccept_canon {s : State} {c : XmmCmd} (hs : Canon P s) : Canon P (s.xmmAccept c) := by
  unfold State.xmmAccept
  exact modStrand_canon (modTile_canon hs)

theorem xmmLeave_canon {s : State} {tile : Nat} (hs : Canon P s) : Canon P (s.xmmLeave tile) := by
  unfold State.xmmLeave
  extract_lets s1
  have hs1 : Canon P s1 := modTile_canon hs
  split
  · split
    · exact modSlot_canon (xmmAccept_canon hs1)
    · exact hs1
  · exact hs1

theorem xmmWrite_canon {s : State} {tile : Nat} {c : XmmCmd} (hs : Canon P s) : Canon P (s.xmmWrite tile c) := by
  unfold State.xmmWrite
  extract_lets out c1
  exact modTile_canon (spWrite_canon (xmmInput_canon hs))

theorem execXmmComplete_answers {tile : Nat} {s : State} (hs : Canon P s) : Answers P (execXmmComplete tile s) := by
  unfold execXmmComplete
  split
  · exact answers_next hs
  · refine answers_ite (answers_next hs) ?_
    refine answers_ite (answers_next (xmmWrite_canon hs)) ?_
    extract_lets st s2 s3 s4 s5
    have hs2 : Canon P s2 := xmmReport_canon hs
    have hs3 : Canon P s3 := canon_ite hs2 (flipOwned_canon hs2)
    have hs4 : Canon P s4 := modStrand_canon hs3
    have hs5 : Canon P s5 := by
      unfold s5
      split
      · exact engineReply_canon hs4
      · exact hs4
    exact answers_next (xmmLeave_canon hs5)

theorem xmmCmd_answers {s : State} {strict : Bool} {ack : Option (BitVec 5)} {a : BitVec 5} {h : BitVec 2} (hs : Canon P s) :
    Answers P (s.xmmCmd strict ack a h) := by
  unfold State.xmmCmd
  extract_lets ga
  exact issue_answers hs (answers_ite (raise_answers hs) (answers_ite (raise_answers hs) (answers_ite (done_answers
      (xmmAccept_canon (releaseActions_canon (beforeAccess_canon hs)))) (answers_next (parkAt_canon (releaseActions_canon
      (beforeAccess_canon hs)))))))

end

end Sys2Proof.Proofs

namespace Sys2Proof.Proofs

/-!
The form of the memory: launching, virtual time, and what happens to strands (12, 13).
-/

open Sys2Proof.Machine Sys2Proof.Claim

section

variable {P : Prop}

/-! ## Launching -/

theorem setBlockStateAt_canon {s : State} {q : Nat} {pid : BitVec 12} {va : Word} {st : Nat} (hs : Canon P s) :
    Canon P (s.setBlockStateAt q pid va st) := by
  unfold State.setBlockStateAt
  split
  · exact vaSetWordAt_canon hs
  · exact hs

theorem setBlockState_canon {s : State} {pid : BitVec 12} {va : Word} {st : Nat} (hs : Canon P s) :
    Canon P (s.setBlockState pid va st) := by
  unfold State.setBlockState
  exact setBlockStateAt_canon hs

theorem knowGroup_canon {s : State} {pid : BitVec 12} {gcb : Word} {f : Known → Known} (hs : Canon P s) :
    Canon P (s.knowGroup pid gcb f) := by
  unfold State.knowGroup
  extract_lets old
  exact canon_same hs rfl

theorem freshGroup_canon {s : State} {pid : BitVec 12} {gcb : Word} (hs : Canon P s) : Canon P (s.freshGroup pid gcb) := by
  unfold State.freshGroup
  exact canon_ite (canon_same hs rfl) hs

theorem deviceAdd_canon {s : State} {pid : BitVec 12} {va : Word} {op : BitVec 4} {dbl : Bool} {v : Word} {far : Bool}
    (hs : Canon P s) : Canon P (s.deviceAdd pid va op dbl v far) := by
  unfold State.deviceAdd
  extract_lets n
  refine canon_ite (note_canon hs) ?_
  split
  · next _ _ e0 =>
      exact note_canon (canon_of_snd (translate_canon hs) e0)
  · next _ _ e1 =>
      split
      · exact redAt_canon (canon_of_snd (translate_canon hs) e1)
      · exact canon_same (canon_of_snd (translate_canon hs) e1) rfl
      · refine canon_ite (farAdd_canon (canon_of_snd (translate_canon hs) e1)) ?_
        exact note_canon (canon_of_snd (translate_canon hs) e1)
      · exact note_canon (canon_of_snd (translate_canon hs) e1)

theorem execHostAddition_answers {s : State} (hs : Canon P s) : Answers P (execHostAddition s) := by
  unfold execHostAddition
  split
  · exact answers_next hs
  · extract_lets +onlyGivenNames n
    split
    · exact answers_next (canon_same hs rfl)
    · extract_lets new
      exact answers_next (canon_put hs rfl)

theorem fireSignal_canon {s : State} {pid : BitVec 12} {sig tgt : Word} {v : Nat} (hs : Canon P s) :
    Canon P (s.fireSignal pid sig tgt v) := by
  unfold State.fireSignal
  extract_lets q
  exact canon_ite hs (canon_ite (modQueue_canon hs) (deviceAdd_canon hs))

theorem releaseSucc_canon {s : State} {pid : BitVec 12} {succ : Word} (hs : Canon P s) : Canon P (s.releaseSucc pid succ) := by
  unfold State.releaseSucc
  extract_lets +onlyGivenNames s'
  have hs' : Canon P s' := probe_canon hs
  split
  · extract_lets deps s1
    have hs1 : Canon P s1 := vaSetWord_canon hs'
    exact canon_ite (canon_same (vaSetWord_canon hs1) rfl) hs1
  · exact hs'

theorem graphEnded_canon {s : State} {pid : BitVec 12} {g : Word} (hs : Canon P s) : Canon P (s.graphEnded pid g) := by
  unfold State.graphEnded
  extract_lets s' b live
  have hs' : Canon P s' := probe_canon hs
  exact canon_ite (note_canon hs') (canon_ite (vaSetWord_canon hs') (fireSignal_canon (vaSetWord_canon hs')))

theorem completeRest_canon {s : State} {pid : BitVec 12} {gcb : Word} (hs : Canon P s) : Canon P (s.completeRest pid gcb) := by
  unfold State.completeRest
  extract_lets b g s1 s2
  have hs1 : Canon P s1 := canon_ite hs (graphEnded_canon hs)
  have hs2 : Canon P s2 := knowGroup_canon hs1
  exact canon_ite hs2 (fireSignal_canon hs2)

theorem releaseFrom_canon {s : State} {pid : BitVec 12} {gcb slist : Word} {k left : Nat} (hs : Canon P s) :
    Canon P (s.releaseFrom pid gcb slist k left) := by
  induction left generalizing s pid gcb slist k with
  | zero =>
    rw [State.releaseFrom]
    exact completeRest_canon hs
  | succ left ih =>
    rw [State.releaseFrom]
    split
    · next _ e0 =>
        extract_lets s2
        have hs2 : Canon P s2 := knowGroup_canon (canon_of_snd (engineRead_canon hs) e0)
        exact canon_ite hs2 (canon_same hs2 rfl)
    · next _ _ e1 =>
        exact ih (releaseSucc_canon (engineForget_canon (canon_of_snd (engineRead_canon hs) e1)))
    · next _ _ e2 =>
        exact ih (engineForget_canon (canon_of_snd (engineRead_canon hs) e2))

theorem completeGroup_canon {s : State} {pid : BitVec 12} {gcb : Word} (hs : Canon P s) :
    Canon P (s.completeGroup pid gcb) := by
  unfold State.completeGroup
  extract_lets s' b
  have hs' : Canon P s' := probe_canon hs
  exact releaseFrom_canon (spillPid_canon (setBlockState_canon hs'))

theorem groupMoved_canon {s : State} {pid : BitVec 12} {gcb : Word} (hs : Canon P s) : Canon P (s.groupMoved pid gcb) := by
  unfold State.groupMoved
  extract_lets s1
  have hs1 : Canon P s1 := tryBarrier_canon hs
  split
  · exact canon_ite (completeGroup_canon hs1) hs1
  · exact hs1

theorem countEnd_canon {s : State} {q : Nat} {r : Rec} (hs : Canon P s) : Canon P (s.countEnd q r) := by
  unfold State.countEnd
  extract_lets +onlyGivenNames s1
  have hs1 : Canon P s1 := modJob_canon hs
  refine canon_ite hs1 ?_
  split
  · exact farAdd_canon hs1
  · extract_lets s2
    have hs2 : Canon P s2 := probe_canon hs1
    split
    · exact groupMoved_canon (vaSetWordAt_canon hs2)
    · exact hs2

theorem groupTouched_canon {s : State} {pid : BitVec 12} {pa : Nat} (hs : Canon P s) : Canon P (s.groupTouched pid pa) := by
  unfold State.groupTouched
  split
  · exact groupMoved_canon hs
  · exact hs

theorem setPoolWord_canon {s : State} {pa off v : Nat} (hs : Canon P s) : Canon P (s.setPoolWord pa off v) := by
  unfold State.setPoolWord
  exact canon_put hs rfl

theorem returnFrame_canon {s : State} {x : Slot} (hs : Canon P s) : Canon P (s.returnFrame x) := by
  unfold State.returnFrame
  split
  · exact hs
  · extract_lets +onlyGivenNames j
    split
    · exact note_canon hs
    · extract_lets n s1
      have hs1 : Canon P s1 := canon_put hs rfl
      exact setPoolWord_canon (setPoolWord_canon hs1)

theorem endRecord_canon {s : State} {q : Nat} {x : Slot} {st : Nat} (hs : Canon P s) : Canon P (s.endRecord q x st) := by
  unfold State.endRecord
  split
  · next _ e0 =>
      exact returnFrame_canon ((recordWrite_canon hs) _ e0)
  · exact canon_ite hs (fatalCause_canon hs)

theorem launchOne_canon {s : State} {r : Rec} {pc : Word} {total rmax : Nat} {router : Nat × Nat} {lp : Option Nat}
    (hs : Canon P s) : Canon P (s.launchOne r pc total rmax router lp) := by
  unfold State.launchOne
  extract_lets s1 s2
  have hs1 : Canon P s1 := modJob_canon hs
  have hs2 : Canon P s2 := by
    unfold s2
    split
    · exact modLp_canon hs1
    · exact hs1
  exact enterItem_canon hs2

theorem launchFrom_canon {s : State} {l : Launcher} {t : Rec} {pc : Word} {b : List Word} {i left : Nat} (hs : Canon P s) :
    Canon P (s.launchFrom l t pc b i left) := by
  induction left generalizing s l t pc b i with
  | zero =>
    rw [State.launchFrom]
    exact hs
  | succ left ih =>
    rw [State.launchFrom]
    exact ih (launchOne_canon hs)

theorem spawnWords_canon {s : State} {l : Launcher} {tmpl : Word} {w : List Word} {host : Bool} (hs : Canon P s) :
    OkCanon P (s.spawnWords l tmpl w host) := by
  unfold State.spawnWords
  extract_lets +onlyGivenNames t' pc blk
  clear_value blk
  split
  · exact okCanon_error
  · refine okCanon_ite okCanon_error ?_
    refine okCanon_ite (okCanon_ok (launchOne_canon hs)) ?_
    extract_lets +onlyGivenNames s' b
    have hs' : Canon P s' := probe_canon hs
    refine okCanon_ite okCanon_error ?_
    refine okCanon_ite okCanon_error ?_
    refine okCanon_ite okCanon_error ?_
    refine okCanon_ite okCanon_error ?_
    extract_lets +onlyGivenNames s0
    have hs0 : OkCanon P s0 := by
      unfold s0
      refine okCanon_ite ?_ (okCanon_ok hs')
      split
      · exact okCanon_error
      · next _ e0 =>
          exact okCanon_ok ((vaPut_canon hs') _ e0)
    clear_value s0
    split
    · exact okCanon_error
    · extract_lets st s1 s2
      have hs1 : Canon P s1 := vaSetWordAt_canon (setBlockStateAt_canon (hs0 _ rfl))
      have hs2 : Canon P s2 := knowGroup_canon hs1
      exact okCanon_ok (canon_ite (launchFrom_canon hs2) hs2)

theorem deferredFrom_canon {s : State} {l : Launcher} {t : Rec} {pc : Word} {b : List Word} {i left : Nat} (hs : Canon P s) :
    Canon P (s.deferredFrom l t pc b i left) := by
  induction left generalizing s l t pc b i with
  | zero =>
    rw [State.deferredFrom]
    exact hs
  | succ left ih =>
    rw [State.deferredFrom]
    exact ih (canon_ite (note_canon (endRecord_canon (countEnd_canon (modJob_canon hs)))) (launchOne_canon hs))

theorem deferredFail_canon {s : State} {pid : BitVec 12} {gcb : Word} {c : Cause} (hs : Canon P s) :
    Canon P (s.deferredFail pid gcb c) := by
  unfold State.deferredFail
  extract_lets b s1
  have hs1 : Canon P s1 := vaSetWord_canon (setBlockState_canon hs)
  exact note_canon (completeGroup_canon hs1)

theorem deferredFromCopy_canon {s : State} {pid : BitVec 12} {gcb : Word} {b : List Word} {exec : Bool} {prio : BitVec 4}
    {inHbm : Bool} {bs : List Byte} (hs : Canon P s) : Canon P (s.deferredFromCopy pid gcb b exec prio inHbm bs) := by
  unfold State.deferredFromCopy
  extract_lets w t' quad l
  exact canon_ite (deferredFail_canon hs) (canon_ite (deferredFail_canon hs) (deferredFrom_canon hs))

theorem deferredLaunch_canon {s : State} {pid : BitVec 12} {gcb : Word} {b : List Word} {exec : Bool} {prio : BitVec 4}
    (hs : Canon P s) : Canon P (s.deferredLaunch pid gcb b exec prio) := by
  unfold State.deferredLaunch
  split
  · exact deferredFail_canon hs
  · split
    · next _ _ e0 =>
        exact deferredFail_canon (engineForget_canon (canon_of_snd (engineRead_canon hs) e0))
    · next _ e1 =>
        exact canon_same (canon_of_snd (engineRead_canon hs) e1) rfl
    · next _ _ e2 =>
        exact deferredFromCopy_canon (engineForget_canon (canon_of_snd (engineRead_canon hs) e2))

theorem execDeferredLaunch_answers {idx : Nat} {s : State} (hs : Canon P s) : Answers P (execDeferredLaunch idx s) := by
  unfold execDeferredLaunch
  split
  · exact answers_next hs
  · extract_lets +onlyGivenNames s0 k
    have hs0 : Canon P s0 := canon_same hs rfl
    refine answers_ite (answers_next hs) ?_
    refine answers_ite (answers_next (note_canon (engineForget_canon hs0))) ?_
    split
    · next _ _ e0 =>
        exact answers_next (note_canon (canon_of_snd (vaGet_canon hs0) e0))
    · next _ _ e1 =>
        extract_lets b
        split
        · exact answers_next (releaseFrom_canon (canon_of_snd (vaGet_canon hs0) e1))
        · refine answers_ite ?_ ?_
          · exact answers_next (canon_ite (canon_of_snd (vaGet_canon hs0) e1) (completeGroup_canon (engineForget_canon
                (canon_of_snd (vaGet_canon hs0) e1))))
          · refine answers_ite (answers_next (canon_of_snd (vaGet_canon hs0) e1)) ?_
            exact answers_next (deferredLaunch_canon (canon_of_snd (vaGet_canon hs0) e1))

theorem leaveFarBarrier_canon {s : State} {sid : Nat} (hs : Canon P s) : Canon P (s.leaveFarBarrier sid) := by
  unfold State.leaveFarBarrier
  split
  · exact hs
  · refine canon_ite hs ?_
    extract_lets va s1
    have hs1 : Canon P s1 := remoteEnd_canon (modStrand_canon hs)
    split
    · exact farAdd_canon hs1
    · exact hs1

theorem leaveBarrier_canon {s : State} {sid : Nat} (hs : Canon P s) : Canon P (s.leaveBarrier sid) := by
  unfold State.leaveBarrier
  split
  · exact leaveFarBarrier_canon hs
  · extract_lets s1
    have hs1 : Canon P s1 := canon_same hs rfl
    split
    · exact vaSetWord_canon hs1
    · exact hs1

theorem leaveBankQueue_canon {s : State} {sid : Nat} (hs : Canon P s) : Canon P (s.leaveBankQueue sid) := by
  unfold State.leaveBankQueue
  exact canon_same hs rfl

theorem leaveWaits_canon {s : State} {sid : Nat} (hs : Canon P s) : Canon P (s.leaveWaits sid) := by
  unfold State.leaveWaits
  exact leaveBankQueue_canon (leaveBarrier_canon (dropWaits_canon hs))

theorem gdepFor_canon {s : State} {q : Nat} {pid : BitVec 12} {exec : Bool} {a b : Word} (hs : Canon P s) :
    OkCanon P (s.gdepFor q pid exec a b) := by
  unfold State.gdepFor
  refine okCanon_ite okCanon_error ?_
  refine okCanon_ite okCanon_error ?_
  split
  · exact okCanon_error
  · exact okCanon_error
  · extract_lets +onlyGivenNames s' wa wb
    have hs' : Canon P s' := freshGroup_canon (freshGroup_canon (probe_canon (probe_canon hs)))
    refine okCanon_ite okCanon_error ?_
    refine okCanon_ite okCanon_error ?_
    refine okCanon_ite okCanon_error ?_
    extract_lets +onlyGivenNames s1 scnt
    have hs1 : Canon P s1 := knowGroup_canon (knowGroup_canon hs')
    refine okCanon_ite (okCanon_ok hs1) ?_
    refine okCanon_ite okCanon_error ?_
    extract_lets +onlyGivenNames at_
    split
    · exact okCanon_error
    · next _ e0 =>
        extract_lets s3
        have hs3 : Canon P s3 := vaSetWordAt_canon ((vaPut_canon hs1) _ e0)
        exact okCanon_ok (vaSetWordAt_canon hs3)

/-! ## Virtual time -/

theorem devicePut_canon {s : State} {pid : BitVec 12} {va : Word} {bs : List Byte} (hs : Canon P s) :
    Canon P (s.devicePut pid va bs) := by
  unfold State.devicePut
  split
  · next _ _ e0 =>
      exact homeStore_canon (canon_of_snd (translate_canon hs) e0)
  · next _ _ e1 =>
      exact canon_of_snd (translate_canon hs) e1

theorem sendMsg_canon {s : State} {m : Msg} (hs : Canon P s) : Canon P (s.sendMsg m) := by
  unfold State.sendMsg
  extract_lets +onlyGivenNames j
  split
  · extract_lets j1 s1
    have hs1 : Canon P s1 := setJob_canon hs
    exact inject_canon (canon_same hs1 rfl)
  · extract_lets j1' x0
    have hx0 : Canon P x0 := setJob_canon hs
    exact canon_same hx0 rfl

theorem setVjbWord_canon {s : State} {pid : BitVec 12} {k : Nat} {v : Word} (hs : Canon P s) :
    Canon P (s.setVjbWord pid k v) := by
  unfold State.setVjbWord
  split
  · exact vaSetWord_canon hs
  · exact hs

theorem countDead_canon {s : State} {pid : BitVec 12} (hs : Canon P s) : Canon P (s.countDead pid) := by
  unfold State.countDead
  extract_lets w n
  exact setVjbWord_canon (modJob_canon hs)

theorem letterFinal_canon {s : State} {pid : BitVec 12} {lp : BitVec 32} (hs : Canon P s) : Canon P (s.letterFinal pid lp) := by
  unfold State.letterFinal
  extract_lets s1 sig s2
  have hs1 : Canon P s1 := countDead_canon hs
  have hs2 : Canon P s2 := canon_ite hs1 (deviceAdd_canon hs1)
  exact canon_ite hs2 (execEvent_canon (modJob_canon hs2))

theorem deadLetter_canon {s : State} {m : Msg} (hs : Canon P s) : Canon P (s.deadLetter m) := by
  unfold State.deadLetter
  extract_lets +onlyGivenNames j
  refine canon_ite (setJob_canon hs) ?_
  extract_lets n k
  exact canon_ite (note_canon (countDead_canon hs)) (devicePut_canon (setJob_canon hs))

theorem finalDead_canon {s : State} {pid : BitVec 12} (hs : Canon P s) : Canon P (s.finalDead pid) := by
  unfold State.finalDead
  extract_lets j now s1
  have hs1 : Canon P s1 := setJob_canon hs
  exact canon_foldl (fun _ _ hc => letterFinal_canon hc) hs1

theorem tryRecv_canon {s : State} {sid : Nat} (hs : Canon P s) : Canon P (s.tryRecv sid) := by
  unfold State.tryRecv
  split
  · exact hs
  · refine canon_ite hs ?_
    split
    · exact hs
    · extract_lets e at_
      refine canon_ite (wake_canon (modLp_canon (logPush_canon hs))) ?_
      exact canon_ite (modStrand_canon hs) (wakeFault_canon hs)

theorem endHandler_canon {s : State} (hs : Canon P s) : Canon P s.endHandler := by
  unfold State.endHandler
  exact modHart_canon (revokeHeld_canon (performAll_canon (orderingDone_canon hs)))

theorem execMsend_answers {a : BitVec 5} {h : BitVec 2} {s : State} (hs : Canon P s) : Answers P (execMsend a h s) := by
  unfold execMsend
  extract_lets ga
  exact issue_answers hs (answers_ite (raise_answers hs) (answers_ite (raise_answers hs) (answers_ite (raise_answers hs)
      (answers_ite (raise_answers hs) (answers_ite (raise_answers hs) (logThen_answers (beforeAccess_canon hs) (fun _ hs2 =>
      done_answers (sendMsg_canon (releaseActions_canon hs2)))))))))

theorem execVarn_answers {a : BitVec 5} {h : BitVec 2} {s : State} (hs : Canon P s) : Answers P (execVarn a h s) := by
  unfold execVarn
  extract_lets ga x
  exact issue_answers hs (answers_ite (raise_answers hs) (answers_ite (raise_answers hs) (answers_ite (raise_answers hs)
      (answers_ite (raise_answers hs) (logThen_answers (beforeAccess_canon hs) (fun _ hs2 => done_answers (modJob_canon
      (modLp_canon (releaseActions_canon hs2)))))))))

theorem dropTransit_canon {s : State} {idx : Nat} (hs : Canon P s) : Canon P (s.dropTransit idx) := by
  unfold State.dropTransit
  exact canon_same hs rfl

theorem enterQueue_canon {s : State} {idx : Nat} {m : Msg} (hs : Canon P s) : Canon P (s.enterQueue idx m) := by
  unfold State.enterQueue
  extract_lets +onlyGivenNames j id n
  refine canon_ite (canon_ite hs (setJob_canon hs)) ?_
  extract_lets late j1 s1
  have hs1 : Canon P s1 := devicePut_canon (setJob_canon (dropTransit_canon hs))
  exact tryRecv_canon hs1

theorem dropRequest_canon {s : State} {m : Msg} (hs : Canon P s) : Canon P (s.dropRequest m) := by
  unfold State.dropRequest
  exact note_canon hs

theorem execMessageArrive_answers {idx : Nat} {s : State} (hs : Canon P s) : Answers P (execMessageArrive idx s) := by
  unfold execMessageArrive
  split
  · exact answers_next hs
  · refine answers_ite (answers_next (dropRequest_canon (dropTransit_canon hs))) ?_
    refine answers_ite (answers_next hs) ?_
    refine answers_ite (answers_next (dropTransit_canon hs)) ?_
    extract_lets p
    refine answers_ite (answers_next (deadLetter_canon (modJob_canon (dropTransit_canon hs)))) ?_
    exact answers_ite (answers_next (modJob_canon (dropTransit_canon hs))) (answers_next (enterQueue_canon hs))

theorem execAntiMessageArrive_answers {idx : Nat} {s : State} (hs : Canon P s) : Answers P (execAntiMessageArrive idx s) := by
  unfold execAntiMessageArrive
  split
  · exact answers_next hs
  · refine answers_ite (answers_next (dropRequest_canon (dropTransit_canon hs))) ?_
    refine answers_ite (answers_next hs) ?_
    refine answers_ite (answers_next (dropTransit_canon hs)) ?_
    extract_lets id s1 p
    have hs1 : Canon P s1 := modJob_canon (dropTransit_canon hs)
    refine answers_ite (answers_next (deadLetter_canon hs1)) ?_
    split
    · exact answers_next (modLp_canon hs1)
    · exact answers_ite (answers_next (modLp_canon hs1)) (answers_next (modJob_canon hs1))

theorem execMsgfull_answers {pid : BitVec 12} {s : State} (hs : Canon P s) : Answers P (execMsgfull pid s) := by
  unfold execMsgfull
  extract_lets j
  split
  · exact answers_ite (answers_next (execEvent_canon (setJob_canon hs))) (answers_next hs)
  · exact answers_next hs

theorem undoEntry_canon {s : State} {x : Slot} {lvt : Word} {e : LogEntry} (hs : Canon P s) :
    Canon P (s.undoEntry x lvt e) := by
  unfold State.undoEntry
  split
  · exact homeStore_canon hs
  · exact sendMsg_canon hs
  · exact modJob_canon hs
  · exact modLp_canon hs

theorem rollbackStop_canon {s : State} {sid : Nat} (hs : Canon P s) : Canon P (s.rollbackStop sid) := by
  unfold State.rollbackStop
  split
  · exact coreInvalidate_canon (drainWc_canon (performAll_canon (orderingDone_canon hs)))
  · exact hs

theorem rollbackEnter_canon {s : State} {x : Slot} (hs : Canon P s) : Canon P (s.rollbackEnter x) := by
  unfold State.rollbackEnter
  refine canon_ite hs ?_
  extract_lets +onlyGivenNames s1
  have hs1 : Canon P s1 := awayFrame_canon hs
  refine canon_ite hs1 ?_
  extract_lets r
  split
  · exact enterItem_canon hs1
  · exact hs1

theorem execRollback_answers {pid : BitVec 12} {lp : BitVec 32} {s : State} (hs : Canon P s) :
    Answers P (execRollback pid lp s) := by
  unfold execRollback
  extract_lets +onlyGivenNames id p
  refine answers_ite (answers_next hs) ?_
  split
  · extract_lets +onlyGivenNames s1 x u
    have hs1 : Canon P s1 := dropReservation_canon (leaveWaits_canon (rollbackStop_canon hs))
    split
    · exact answers_next (modLp_canon hs1)
    · extract_lets s2 s3 s4 s5
      have hs2 : Canon P s2 := canon_foldl (fun _ _ hk => undoEntry_canon hk) hs1
      have hs3 : Canon P s3 := modLp_canon hs2
      have hs4 : Canon P s4 := modStrand_canon hs3
      have hs5 : Canon P s5 := canon_ite (note_canon hs4) hs4
      exact answers_next (rollbackEnter_canon (modJob_canon hs5))
  · exact answers_next hs

theorem fossil_canon {s : State} {pid : BitVec 12} {g id : Nat} (hs : Canon P s) : Canon P (s.fossil pid g id) := by
  unfold State.fossil
  extract_lets p inh old
  exact modJob_canon hs

theorem commitExit_canon {s : State} {pid : BitVec 12} {id : Nat} (hs : Canon P s) : Canon P (s.commitExit pid id) := by
  unfold State.commitExit
  extract_lets +onlyGivenNames p
  split
  · exact hs
  · refine canon_ite hs ?_
    extract_lets s1 s2 left s3
    have hs1 : Canon P s1 := endRecord_canon (countEnd_canon hs)
    have hs2 : Canon P s2 := modJob_canon hs1
    have hs3 : Canon P s3 := canon_same hs2 rfl
    exact canon_foldl (fun _ _ hc => deadLetter_canon hc) hs3

theorem deliverHeld_canon {s : State} {sid : Nat} (hs : Canon P s) : Canon P (s.deliverHeld sid) := by
  unfold State.deliverHeld
  split
  · exact hs
  · split
    · exact hs
    · split
      · exact canon_ite (sendBuffers_canon hs) (takeTrap_canon (modSlot_canon hs))
      · exact unpark_canon (modStrand_canon hs)

theorem deliverFaults_canon {s : State} {pid : BitVec 12} {low : Nat} (hs : Canon P s) : Canon P (s.deliverFaults pid low) := by
  unfold State.deliverFaults
  exact canon_foldl (fun _ _ hc => by
      split
      · exact canon_ite (deliverHeld_canon hc) hc
      · exact hc) hs

theorem logRetry_canon {s : State} {sid : Nat} (hs : Canon P s) : Canon P (s.logRetry sid) := by
  unfold State.logRetry
  split
  · exact hs
  · split
    · exact canon_ite (unpark_canon hs) (canon_ite (wakeFault_canon hs) hs)
    · exact hs

theorem afterVpt_canon {s : State} {pid : BitVec 12} (hs : Canon P s) : Canon P (s.afterVpt pid) := by
  unfold State.afterVpt
  extract_lets ids g s1 s2 s3 s4
  have hs1 : Canon P s1 := canon_foldl (fun _ _ hc => fossil_canon hc) hs
  have hs2 : Canon P s2 := canon_foldl (fun _ _ hc => commitExit_canon hc) hs1
  have hs3 : Canon P s3 := canon_foldl (fun _ _ hc => logRetry_canon hc) hs2
  have hs4 : Canon P s4 := canon_foldl (fun _ _ hc => tryRecv_canon hc) hs3
  exact finalDead_canon hs4

theorem publish_canon {s : State} {pid : BitVec 12} {g low : Nat} (hs : Canon P s) : Canon P (s.publish pid g low) := by
  unfold State.publish
  extract_lets s1
  have hs1 : Canon P s1 := modJob_canon hs
  exact deliverFaults_canon (afterVpt_canon hs1)

theorem execVpRound_answers {pid : BitVec 12} {s : State} (hs : Canon P s) : Answers P (execVpRound pid s) := by
  unfold execVpRound
  extract_lets +onlyGivenNames j0
  refine answers_ite (answers_next hs) ?_
  extract_lets +onlyGivenNames j s1
  have hs1 : Canon P s1 := setJob_canon hs
  refine answers_ite (answers_next hs1) ?_
  extract_lets g low s2 s3
  have hs2 : Canon P s2 := setJob_canon hs1
  have hs3 : Canon P s3 := canon_ite (publish_canon hs2) hs2
  exact answers_next (modJob_canon hs3)

theorem mapRead_canon {s : State} {pid : BitVec 12} {a : Word} {n left : Nat} (hs : Canon P s) :
    Canon P (s.mapRead pid a n left).2 := by
  induction left generalizing s pid a n with
  | zero =>
    rw [State.mapRead]
    exact hs
  | succ left ih =>
    rw [State.mapRead]
    refine canon_ite_snd hs ?_
    extract_lets k
    split
    · next _ _ e0 =>
        exact canon_of_snd (engineRead_canon hs) e0
    · next _ _ e1 =>
        split
        next _ _ _ e2 =>
        exact canon_of_snd (ih (canon_of_snd (engineRead_canon hs) e1)) e2

theorem mapLand_canon {s : State} {pid : BitVec 12} (hs : Canon P s) : Canon P (s.mapLand pid) := by
  unfold State.mapLand
  extract_lets +onlyGivenNames d
  refine canon_ite hs ?_
  split
  next _ _ _ e0 =>
  refine canon_ite (canon_of_snd (mapRead_canon hs) e0) ?_
  extract_lets s2
  have hs2 : Canon P s2 := engineForget_canon (canon_of_snd (mapRead_canon hs) e0)
  exact canon_ite (note_canon (modJob_canon hs2)) (canon_ite (modJob_canon hs2) hs2)

theorem vjbRegister_canon {s : State} {pid : BitVec 12} {va : Word} (hs : Canon P s) : Canon P (s.vjbRegister pid va) := by
  unfold State.vjbRegister
  extract_lets +onlyGivenNames refuse
  have hrefuse : Canon P refuse := note_canon hs
  split
  · exact hrefuse
  · extract_lets w others
    exact canon_ite hrefuse (mapLand_canon (modJob_canon (remoteEnd_canon hs)))

theorem vjbset_canon {s : State} {v : Word} (hs : Canon P s) : Canon P (s.vjbset v) := by
  unfold State.vjbset
  extract_lets pid va
  exact canon_ite (modJob_canon hs) (vjbRegister_canon hs)

/-! ## Strands -/

theorem irrevocable_answers {s : State} {k : Result} (hs : Canon P s) (hk : Answers P k) : Answers P (s.irrevocable k) := by
  unfold State.irrevocable
  exact answers_ite (raise_answers hs) (issue_answers hs hk)

theorem execSpawn_answers {a : BitVec 5} {h : BitVec 2} {s : State} (hs : Canon P s) : Answers P (execSpawn a h s) := by
  unfold execSpawn
  extract_lets +onlyGivenNames ga
  refine irrevocable_answers hs ?_
  split
  · next _ _ e0 =>
      exact raise_answers (canon_of_snd (globalCheck_canon hs) e0)
  · next _ _ e1 =>
      refine remoteGate_answers (canon_of_snd (globalCheck_canon hs) e1) ?_
      extract_lets s1
      have hs1 : Canon P s1 := releaseActions_canon (beforeAccess_canon (canon_of_snd (globalCheck_canon hs) e1))
      split
      · exact awaitRemote_answers (sendRemote_canon hs1)
      · split
        next _ _ e2 =>
        split
        · exact raise_answers (canon_of_snd (loadNow_canon hs1) e2)
        · next _ e3 =>
            exact done_answers ((spawnWords_canon (canon_of_snd (loadNow_canon hs1) e2)) _ e3)

theorem spawnAnswer_canon {s : State} {sid : Nat} {tmpl : Word} {bs : List Byte} (hs : Canon P s) :
    Canon P (s.spawnAnswer sid tmpl bs) := by
  unfold State.spawnAnswer
  split
  · exact hs
  · split
    · exact wakeFault_canon hs
    · next _ e0 =>
        exact wake_canon ((spawnWords_canon hs) _ e0)

theorem execGdep_answers {a b : BitVec 5} {h : BitVec 2} {s : State} (hs : Canon P s) : Answers P (execGdep a b h s) := by
  unfold execGdep
  extract_lets +onlyGivenNames ga gb
  refine irrevocable_answers hs ?_
  extract_lets s1
  have hs1 : Canon P s1 := beforeAccess_canon hs
  split
  · exact raise_answers hs1
  · next _ e0 =>
      exact done_answers ((gdepFor_canon hs1) _ e0)

theorem execGcnt_answers {d a : BitVec 5} {h : BitVec 2} {s : State} (hs : Canon P s) : Answers P (execGcnt d a h s) := by
  unfold execGcnt
  extract_lets +onlyGivenNames ga
  refine issue_answers hs ?_
  extract_lets +onlyGivenNames s1
  have hs1 : Canon P s1 := beforeAccess_canon hs
  refine answers_ite (doneG_answers hs1) ?_
  split
  · exact raise_answers hs1
  · extract_lets s1' b
    have hs1' : Canon P s1' := probe_canon hs1
    exact answers_ite (raise_answers hs1') (doneG_answers hs1')

theorem countOnce_canon {s : State} {n : Nat} (hs : Canon P s) : Canon P (s.countOnce n) := by
  unfold State.countOnce
  extract_lets x
  exact canon_ite hs (countEnd_canon hs)

theorem endStrand_canon {s : State} (hs : Canon P s) : Canon P s.endStrand := by
  unfold State.endStrand
  extract_lets n s1 s2 x
  have hs1 : Canon P s1 := dropReservation_canon (leaveActions_canon hs)
  have hs2 : Canon P s2 := countOnce_canon hs1
  exact vacate_canon (endRecord_canon hs2)

theorem exitProcess_canon {s : State} (hs : Canon P s) : Canon P s.exitProcess := by
  unfold State.exitProcess
  extract_lets x id s1 s2
  have hs1 : Canon P s1 := modLp_canon hs
  have hs2 : Canon P s2 := writeBackStrand_canon (modHart_canon hs1)
  exact commitExit_canon hs2

theorem execExit_answers {h : BitVec 2} {s : State} (hs : Canon P s) : Answers P (execExit h s) := by
  unfold execExit
  refine issue_answers hs ?_
  refine answers_ite (floorThen_answers hs (answers_next (endStrand_canon hs))) ?_
  extract_lets +onlyGivenNames s1
  have hs1 : Canon P s1 := canon_ite (endHandler_canon hs) hs
  split
  · extract_lets f
    exact answers_next (parkAt_canon (modHart_canon hs1))
  · exact answers_ite (answers_next (endStrand_canon hs1)) (answers_next (exitProcess_canon hs1))

theorem cancelBlock_canon {s : State} {q : Nat} {pid : BitVec 12} {exec : Bool} {level : BitVec 2} {a : Word} (hs : Canon P s) :
    OkCanon P (s.cancelBlock q pid exec level a) := by
  unfold State.cancelBlock
  split
  · exact okCanon_error
  · extract_lets s' b
    have hs' : Canon P s' := freshGroup_canon (probe_canon hs)
    refine okCanon_ite okCanon_error ?_
    exact okCanon_ite (okCanon_ok hs') (okCanon_ok (canon_same (setBlockStateAt_canon hs') rfl))

theorem cancelJob_canon {s : State} {pid : BitVec 12} (hs : Canon P s) : Canon P (s.cancelJob pid) := by
  unfold State.cancelJob
  exact canon_ite hs (canon_same hs rfl)

theorem cancelInstr_answers {s : State} {level : BitVec 2} {a : BitVec 5} {h : BitVec 2} (hs : Canon P s) :
    Answers P (s.cancelInstr level a h) := by
  unfold State.cancelInstr
  extract_lets +onlyGivenNames ga
  refine irrevocable_answers hs ?_
  extract_lets s1
  have hs1 : Canon P s1 := beforeAccess_canon hs
  split
  · exact raise_answers hs1
  · next _ e0 =>
      exact done_answers ((cancelBlock_canon hs1) _ e0)

theorem pickOver_canon {s : State} {i : Item} (hs : Canon P s) : Canon P (s.pickOver i) := by
  unfold State.pickOver
  split
  · exact remoteEnd_canon hs
  · exact hs

theorem discardStrand_canon {s : State} {x : Slot} (hs : Canon P s) : Canon P (s.discardStrand x) := by
  unfold State.discardStrand
  extract_lets sid s1 mine s2 s2' s3
  have hs1 : Canon P s1 := dropReservation_canon (leaveWaits_canon hs)
  have hs2 : Canon P s2 := canon_same hs1 rfl
  have hs2' : Canon P s2' := canon_foldl (fun _ _ hk => pickOver_canon (leaveOverflow_canon hk)) hs2
  have hs3 : Canon P s3 := canon_ite hs2' (countEnd_canon hs2')
  exact endRecord_canon hs3

theorem cancelResident_canon {s : State} {sel : Rec → Bool} (hs : Canon P s) : Canon P (s.cancelResident sel) := by
  unfold State.cancelResident
  extract_lets due s1
  have hs1 : Canon P s1 := canon_same hs rfl
  exact canon_foldl (fun _ _ hc => modSlot_canon hc) hs1

theorem cancelCommands_canon {s : State} {sel : Rec → Bool} (hs : Canon P s) : Canon P (s.cancelCommands sel) := by
  unfold State.cancelCommands
  extract_lets by_ opt tile
  exact canon_same hs rfl

theorem markGroups_canon {s : State} {pid : BitVec 12} {named : Option Word} {l : List Word} (hs : Canon P s) :
    Canon P (s.markGroups pid named l).2 := by
  induction l generalizing s pid named with
  | nil =>
    rw [State.markGroups]
    exact hs
  | cons g r ih =>
    rw [State.markGroups]
    refine canon_ite_snd (ih hs) ?_
    extract_lets +onlyGivenNames st
    refine canon_ite_snd (ih hs) ?_
    extract_lets s1
    have hs1 : Canon P s1 := knowGroup_canon (setBlockState_canon hs)
    split
    next _ _ e0 =>
    exact canon_of_snd (ih hs1) e0

theorem passCancel_canon {s : State} {c : CancelReq} (hs : Canon P s) : Canon P (s.passCancel c) := by
  unfold State.passCancel
  exact canon_foldl (fun _ _ hk => inject_canon hk) hs

theorem sweepCancel_canon {s : State} {c : CancelReq} (hs : Canon P s) : Canon P (s.sweepCancel c) := by
  unfold State.sweepCancel
  extract_lets +onlyGivenNames groups sel
  split
  next _ _ e0 =>
  extract_lets first s2 s3 s4
  have hs2 : Canon P s2 := cancelCommands_canon (canon_of_snd (markGroups_canon hs) e0)
  have hs3 : Canon P s3 := canon_foldl (fun _ _ hk => discardStrand_canon hk) hs2
  have hs4 : Canon P s4 := passCancel_canon (cancelResident_canon hs3)
  exact canon_foldl (fun _ _ hk => completeGroup_canon hk) hs4

theorem sweepFar_canon {s : State} {c : CancelReq} (hs : Canon P s) : Canon P (s.sweepFar c) := by
  unfold State.sweepFar
  extract_lets sel s1
  have hs1 : Canon P s1 := cancelCommands_canon hs
  exact passCancel_canon (cancelResident_canon (canon_foldl (fun _ _ hk => discardStrand_canon hk) hs1))

theorem cancelsIn_canon {s : State} {l : List (BitVec 2 × BitVec 12 × Word × List Nat)} (hs : Canon P s) :
    Canon P (s.cancelsIn l) := by
  unfold State.cancelsIn
  exact canon_same hs rfl

theorem sweepAsks_canon {s : State} {c : CancelReq} (hs : Canon P s) : SomeCanon P (s.sweepAsks c) := by
  unfold State.sweepAsks
  refine someCanon_ite (someCanon_some hs) ?_
  refine someCanon_ite someCanon_none ?_
  split
  · exact someCanon_none
  · exact someCanon_some (canon_foldl (fun _ _ ht => engineAsk_canon ht) hs)

theorem execCancelSweep_answers {s : State} (hs : Canon P s) : Answers P (execCancelSweep s) := by
  unfold execCancelSweep
  split
  · split
    · next _ e0 =>
        exact answers_next ((sweepAsks_canon hs) _ e0)
    · extract_lets s1 rest
      have hs1 : Canon P s1 := engineForget_canon (sweepCancel_canon hs)
      exact answers_ite (answers_next (canon_same hs1 rfl)) (answers_next (canon_same hs1 rfl))
  · split
    · exact answers_next (execEvent_canon (canon_same hs rfl))
    · split
      · exact answers_next hs
      · exact answers_next (sweepFar_canon (canon_same hs rfl))

theorem trapCancel_canon {s : State} {n : Nat} (hs : Canon P s) : Canon P (s.trapCancel n) := by
  unfold State.trapCancel
  extract_lets x s1 s2 s3
  have hs1 : Canon P s1 := countOnce_canon (dropReservation_canon (leaveWaits_canon (leaveActions_canon hs)))
  have hs2 : Canon P s2 := modSlot_canon hs1
  have hs3 : Canon P s3 := resolve_canon (endRecord_canon hs2)
  exact takeTrap_canon hs3

theorem execCancelStopTimeout_answers {slot : Nat} {s : State} (hs : Canon P s) : Answers P (execCancelStopTimeout slot s) := by
  unfold execCancelStopTimeout
  extract_lets +onlyGivenNames x
  refine answers_ite (answers_next hs) ?_
  extract_lets s1
  have hs1 : Canon P s1 := countOnce_canon (dropReservation_canon (leaveWaits_canon (leaveActions_canon hs)))
  exact answers_next (vacate_canon (endRecord_canon hs1))

theorem setRsv_canon {s : State} {m : Mask} {p : BitVec 4} (hs : Canon P s) : Canon P (s.setRsv m p) := by
  unfold State.setRsv
  exact canon_foldl (fun _ _ hk => modCore_canon hk) hs

theorem execPrmt_answers {a b : BitVec 5} {h : BitVec 2} {s : State} (hs : Canon P s) : Answers P (execPrmt a b h s) := by
  unfold execPrmt
  extract_lets ga gb p
  exact issue_answers hs (answers_ite (raise_answers hs) (answers_ite (raise_answers hs) (answers_ite (raise_answers hs)
      (answers_ite (done_answers (setRsv_canon (beforeAccess_canon hs))) (answers_ite (done_answers (setRsv_canon
      (beforeAccess_canon hs))) (answers_next (canon_same (canon_foldl (fun _ _ hk => modSlot_canon hk) (parkAt_canon
      (setRsv_canon (beforeAccess_canon hs)))) rfl)))))))

theorem execPreemptWriteback_answers {slot : Nat} {s : State} (hs : Canon P s) : Answers P (execPreemptWriteback slot s) := by
  unfold execPreemptWriteback
  extract_lets +onlyGivenNames x
  refine answers_ite (answers_next hs) (answers_ite (answers_next (sendBuffers_canon hs)) ?_)
  extract_lets sid s1 full s2 t r s3
  have hs1 : Canon P s1 := modSlot_canon hs
  have hs2 : Canon P s2 := canon_ite (leaveWaits_canon hs1) hs1
  have ht : Canon P t := writeBackStrand_canon (modSlot_canon hs2)
  refine answers_next (canon_ite (writeBackStrand_canon hs1) ?_)
  split
  · exact enterItem_canon ht
  · exact ht

theorem abandonPark_canon {s : State} {n : Nat} (hs : Canon P s) : Canon P (s.abandonPark n) := by
  unfold State.abandonPark
  extract_lets x s1
  have hs1 : Canon P s1 := modSlot_canon (remoteEnd_canon (leaveWaits_canon hs))
  exact canon_ite hs1 (dropReservation_canon hs1)

theorem trapPrmto_canon {s : State} {n : Nat} (hs : Canon P s) : Canon P (s.trapPrmto n) := by
  unfold State.trapPrmto
  extract_lets x s1
  have hs1 : Canon P s1 := modSlot_canon (abandonPark_canon hs)
  exact takeTrap_canon hs1

theorem prmtoNow_canon {s : State} {n : Nat} (hs : Canon P s) : Canon P (s.prmtoNow n) := by
  unfold State.prmtoNow
  exact canon_ite (sendBuffers_canon (abandonPark_canon hs)) (trapPrmto_canon hs)

theorem execPrmto_answers {slot : Nat} {s : State} (hs : Canon P s) : Answers P (execPrmto slot s) := by
  unfold execPrmto
  extract_lets +onlyGivenNames x
  refine answers_ite (answers_next hs) ?_
  refine answers_ite (answers_ite (answers_next (prmtoNow_canon hs)) (answers_next hs)) ?_
  refine answers_ite (answers_next hs) ?_
  extract_lets wait
  refine answers_ite (answers_next (resolve_canon (modSlot_canon hs))) ?_
  exact answers_next (resolve_canon (prmtoNow_canon hs))

theorem execParkEvict_answers {slot : Nat} {s : State} (hs : Canon P s) : Answers P (execParkEvict slot s) := by
  unfold execParkEvict
  extract_lets x
  refine answers_ite (answers_next (canon_ite (sendBuffers_canon hs) (writeBackStrand_canon hs))) ?_
  refine answers_ite ?_ (answers_next hs)
  split
  · exact answers_next (writeBackChained_canon hs)
  · exact answers_next hs

theorem setItem_canon {s : State} {idx : Nat} {i : Item} (hs : Canon P s) : Canon P (s.setItem idx i) := by
  unfold State.setItem
  exact canon_same hs rfl

theorem moveItem_canon {s : State} {idx : Nat} {i : Item} (hs : Canon P s) : Canon P (s.moveItem idx i) := by
  unfold State.moveItem
  exact setItem_canon hs

theorem execItemHop_answers {item : Nat} {s : State} (hs : Canon P s) : Answers P (execItemHop item s) := by
  unfold execItemHop
  split
  · exact answers_next hs
  · refine answers_ite (answers_next hs) ?_
    extract_lets +onlyGivenNames c near
    refine answers_ite (answers_next hs) ?_
    split
    · exact answers_next (canon_ite (moveItem_canon hs) hs)
    · extract_lets s1
      have hs1 : Canon P s1 := offerOverflow_canon hs
      split
      · exact answers_ite (answers_next hs1) (answers_next (takeItem_canon hs1))
      · exact answers_next (canon_ite (moveItem_canon hs1) hs1)

theorem execRingRadiusGrow_answers {item : Nat} {s : State} (hs : Canon P s) : Answers P (execRingRadiusGrow item s) := by
  unfold execRingRadiusGrow
  split
  · exact answers_next hs
  · exact answers_ite (answers_next (setItem_canon hs)) (answers_next hs)

theorem overflowRecord_canon {s : State} {i : Item} (hs : Canon P s) : Canon P (s.overflowRecord i) := by
  unfold State.overflowRecord
  split
  · exact fatalCause_canon hs
  · next _ e0 =>
      exact (recordWrite_canon hs) _ e0

theorem execOverflowPark_answers {item : Nat} {s : State} (hs : Canon P s) : Answers P (execOverflowPark item s) := by
  unfold execOverflowPark
  split
  · exact answers_next hs
  · refine answers_ite (answers_next hs) ?_
    refine answers_ite ?_ ?_
    · split
      · exact answers_next (offerOverflow_canon hs)
      · exact answers_next hs
    · refine answers_ite ?_ (answers_next hs)
      extract_lets t' j s1
      have hs1 : Canon P s1 := leaveOverflow_canon (setItem_canon (overflowRecord_canon hs))
      split
      · exact answers_next (offerOverflow_canon hs1)
      · exact answers_next hs1

theorem pickGet_canon {s : State} {n : Nat} {pid : BitVec 12} {exec : Bool} {a : Word} {len : Nat} (hs : Canon P s) :
    Canon P (s.pickGet n pid exec a len).2 := by
  unfold State.pickGet
  extract_lets q
  split
  · next _ _ e0 =>
      exact canon_of_snd (translate_canon hs) e0
  · next _ _ e1 =>
      split
      · exact canon_of_snd (translate_canon hs) e1
      · exact vaGet_canon (canon_of_snd (translate_canon hs) e1)

theorem pickRead_canon {s : State} {n : Nat} {pid : BitVec 12} {exec : Bool} {a : Word} {left : Nat} (hs : Canon P s) :
    Canon P (s.pickRead n pid exec a left).2 := by
  induction left generalizing s n pid exec a with
  | zero =>
    rw [State.pickRead]
    exact hs
  | succ left ih =>
    rw [State.pickRead]
    split
    · next _ _ e0 =>
        exact canon_of_snd (pickGet_canon hs) e0
    · next _ _ e1 =>
        split
        · next _ _ e2 =>
            exact canon_of_snd (ih (canon_of_snd (pickGet_canon hs) e1)) e2
        · next _ _ e3 =>
            exact canon_of_snd (ih (canon_of_snd (pickGet_canon hs) e1)) e3

theorem pickFmt_canon {s : State} {n : Nat} {x : Slot} (hs : Canon P s) : Canon P (s.pickFmt n x).2 := by
  unfold State.pickFmt
  extract_lets +onlyGivenNames a
  refine canon_ite_snd hs ?_
  refine canon_ite_snd hs ?_
  split
  · next _ _ e0 =>
      exact canon_of_snd (pickGet_canon hs) e0
  · next _ _ e1 =>
      extract_lets f c
      exact canon_of_snd (pickGet_canon hs) e1

theorem pickBank_canon {s : State} {n : Nat} {x : Slot} (hs : Canon P s) : Canon P (s.pickBank n x).2 := by
  unfold State.pickBank
  refine canon_ite_snd hs ?_
  split
  · next _ _ e0 =>
      exact canon_of_snd (pickRead_canon hs) e0
  · next _ _ e1 =>
      exact canon_of_snd (pickRead_canon hs) e1

theorem pickAsk_canon {s : State} {n : Nat} {r : Rec} (hs : Canon P s) : Canon P (s.pickAsk n r) := by
  unfold State.pickAsk
  refine canon_ite hs ?_
  extract_lets ask s1
  have hask : ∀ x0 x1 x2, Canon P x0 → Canon P (ask x0 x1 x2) :=
    (fun _ _ _ ht => engineAsk_canon ht)
  have hs1 : Canon P s1 := canon_ite (hask _ _ _ hs) hs
  exact canon_ite hs1 (canon_foldl (fun _ _ ht => hask _ _ _ ht) hs1)

theorem pickSlot_canon {s : State} {n : Nat} {i : Item} (hs : Canon P s) : Canon P (s.pickSlot n i).2 := by
  unfold State.pickSlot
  refine canon_ite_snd (pickFmt_canon hs) ?_
  split
  next _ _ e0 =>
  exact canon_of_snd (frameRead_canon hs) e0

theorem pickUp_canon {s : State} {idx : Nat} {i : Item} {core slot : Nat} (hs : Canon P s) :
    Canon P (s.pickUp idx i core slot) := by
  unfold State.pickUp
  extract_lets +onlyGivenNames n
  split
  next _ _ _ e0 =>
  split
  next _ _ _ e1 =>
  extract_lets s1 cyc x s2 s3
  have hs1 : Canon P s1 := remoteEnd_canon (engineForget_canon (canon_of_snd (pickBank_canon (canon_of_snd (pickSlot_canon
      (coreInvalidate_canon hs)) e0)) e1))
  have hs2 : Canon P s2 := canon_same hs1 rfl
  have hs3 : Canon P s3 := modCore_canon (setSlot_canon hs2)
  split
  · exact raiseAt_canon hs3
  · exact raiseAt_canon hs3
  · exact hs3

theorem execPickup_answers {item : Nat} {s : State} (hs : Canon P s) : Answers P (execPickup item s) := by
  unfold execPickup
  split
  · exact answers_next hs
  · split
    · exact answers_next hs
    · extract_lets +onlyGivenNames t' n
      refine answers_ite (answers_next hs) ?_
      extract_lets +onlyGivenNames s'
      have hs' : Canon P s' := pickAsk_canon hs
      refine answers_ite (answers_next hs') ?_
      refine answers_ite (answers_next (setItem_canon (engineForget_canon hs'))) ?_
      refine answers_ite ?_ (answers_next (pickUp_canon hs'))
      extract_lets s1
      have hs1 : Canon P s1 := modTile_canon hs'
      exact answers_ite (answers_next (pickUp_canon hs1)) (answers_next hs1)

/-! ## Varnish -/

theorem varnSend_canon {s : State} {dev off : Nat} {a : Action} {kind : RemoteKind} {n : Nat} {data : List Byte}
    (hs : Canon P s) : OkCanon P (s.varnSend dev off a kind n data) := by
  unfold State.varnSend
  exact okCanon_ite (okCanon_ok (remoteSend_canon hs)) okCanon_error

theorem varnStore_canon {s : State} {pid : BitVec 12} {a : Action} (hs : Canon P s) : OkCanon P (s.varnStore pid a) := by
  unfold State.varnStore
  split
  · exact okCanon_error
  · next _ _ e0 =>
      extract_lets bs
      split
      · exact varnSend_canon (canon_of_snd (translate_canon hs) e0)
      · exact okCanon_ok (homeStore_canon (canon_of_snd (translate_canon hs) e0))

theorem varnRed_canon {s : State} {pid : BitVec 12} {a : Action} (hs : Canon P s) : OkCanon P (s.varnRed pid a) := by
  unfold State.varnRed
  extract_lets dbl op
  split
  · exact okCanon_error
  · next _ _ e0 =>
      split
      · exact okCanon_ok (redAt_canon (canon_of_snd (translate_canon hs) e0))
      · exact okCanon_ok (canon_same (canon_of_snd (translate_canon hs) e0) rfl)
      · exact varnSend_canon (canon_of_snd (translate_canon hs) e0)
      · exact okCanon_error

theorem varnSpawn_canon {s : State} {pid : BitVec 12} {a : Action} (hs : Canon P s) : OkCanon P (s.varnSpawn pid a) := by
  unfold State.varnSpawn
  refine okCanon_ite okCanon_error ?_
  split
  · exact okCanon_error
  · next _ _ e0 =>
      extract_lets l launch
      have hlaunch : ∀ x0 x1, Canon P x1 → OkCanon P (launch x0 x1) :=
        (fun _ _ hs2 => by
          unfold launch
          split
          · exact okCanon_error
          · next _ e1 =>
              exact okCanon_ok ((spawnWords_canon hs2) _ e1))
      split
      · split
        · split
          · exact hlaunch _ _ (engineForget_canon (canon_of_snd (translate_canon hs) e0))
          · exact okCanon_error
          · exact okCanon_error
        · exact okCanon_error
      · split
        next _ _ e2 =>
        exact hlaunch _ _ (canon_of_snd (paRead_canon (consume_canon (canon_of_snd (translate_canon hs) e0))) e2)

theorem dropValue_canon {r : Except Failure State} (hr : OkCanon P r) : OkCanon P (dropValue r) := by
  unfold dropValue
  split
  · exact okCanon_error
  · exact okCanon_ok (hr _ rfl)

theorem varnCancel_canon {s : State} {pid : BitVec 12} {a : Action} (hs : Canon P s) : OkCanon P (s.varnCancel pid a) := by
  unfold State.varnCancel
  refine okCanon_ite (okCanon_ite okCanon_error (okCanon_ok (cancelJob_canon hs))) ?_
  exact dropValue_canon (cancelBlock_canon hs)

theorem varnPalette_canon {s : State} {pid : BitVec 12} {a : Action} (hs : Canon P s) :
    SomeOkCanon P (s.varnPalette pid a) := by
  unfold State.varnPalette
  split
  · exact someOkCanon_some okCanon_error
  · exact someOkCanon_ite (someOkCanon_some (okCanon_ok (optAccept_canon hs))) someOkCanon_none

theorem varnPerform_canon {s : State} {pid : BitVec 12} {a : Action} (hs : Canon P s) :
    SomeOkCanon P (s.varnPerform pid a) := by
  unfold State.varnPerform
  split
  · exact someOkCanon_some (varnStore_canon hs)
  · exact someOkCanon_some (varnRed_canon hs)
  · exact someOkCanon_some (varnSpawn_canon hs)
  · exact someOkCanon_some (dropValue_canon (gdepFor_canon hs))
  · exact someOkCanon_some (varnCancel_canon hs)
  · exact varnPalette_canon hs

theorem varnFree_canon {s : State} (hs : Canon P s) : Canon P s.varnFree := by
  unfold State.varnFree
  extract_lets x0
  have hx0 : Canon P x0 := engineForget_canon hs
  exact canon_same hx0 rfl

theorem varnGo_canon {s : State} {pid : BitVec 12} {a : Action} (hs : Canon P s) : Canon P (s.varnGo pid a) := by
  unfold State.varnGo
  split
  · exact canon_same hs rfl
  · next _ e0 =>
      refine canon_ite (canon_same ((varnPerform_canon hs) _ e0) rfl) ?_
      exact varnFree_canon ((varnPerform_canon hs) _ e0)
  · exact varnFail_canon (varnFree_canon hs)

theorem varnEnd_canon {s : State} {pid : BitVec 12} {a : Action} (hs : Canon P s) : Canon P (s.varnEnd pid a) := by
  unfold State.varnEnd
  split
  · exact varnFail_canon (varnFree_canon hs)
  · exact varnFree_canon hs

theorem execVarnishPerform_answers {s : State} (hs : Canon P s) : Answers P (execVarnishPerform s) := by
  unfold execVarnishPerform
  split
  · refine answers_ite (answers_next hs) ?_
    refine answers_ite (answers_next (varnEnd_canon hs)) ?_
    exact answers_ite (answers_next (varnGo_canon hs)) (answers_next (varnFree_canon hs))
  · split
    · exact answers_next hs
    · extract_lets s0 s1
      have hs0 : Canon P s0 := modJob_canon hs
      have hs1 : Canon P s1 := canon_ite (engineAsk_canon hs0) hs0
      exact answers_ite (answers_next (canon_same hs1 rfl)) (answers_next (varnGo_canon hs1))

end

end Sys2Proof.Proofs

namespace Sys2Proof.Proofs

/-!
The form of the memory: fabric, collectives, ports, and system registers (14, 15).
-/

open Sys2Proof.Machine Sys2Proof.Claim

section

variable {P : Prop}

/-! ## Fabric -/

theorem recordReply_canon {s : State} {src : BitVec 11} {pid : BitVec 12} {tag : BitVec 16} {reply : List Byte}
    (hs : Canon P s) : Canon P (s.recordReply src pid tag reply) := by
  unfold State.recordReply
  exact canon_same hs rfl

theorem replyTo_canon {s : State} {dev : BitVec 11} {bs : List Byte} (hs : Canon P s) : Canon P (s.replyTo dev bs) := by
  unfold State.replyTo
  exact inject_canon (canon_same hs rfl)

theorem remoteAtomic_canon {s : State} {r : RemoteReq} {op n : Nat} (hs : Canon P s) : Canon P (s.remoteAtomic r op n) := by
  unfold State.remoteAtomic
  extract_lets pa s0 old v cmp k bs s1
  have hs0 : Canon P s0 := consume_canon hs
  have hs1 : Canon P s1 := canon_ite (homePut_canon hs0) hs0
  exact replyTo_canon (groupTouched_canon (recordReply_canon hs1))

theorem execRemoteRequestArrive_answers {req : RemoteReq} {s : State} (hs : Canon P s) :
    Answers P (execRemoteRequestArrive req s) := by
  unfold execRemoteRequestArrive
  extract_lets +onlyGivenNames pa
  refine answers_ite (answers_next (replyTo_canon hs)) ?_
  split
  · extract_lets s1
    have hs1 : Canon P s1 := consume_canon hs
    exact answers_next (replyTo_canon hs1)
  · exact answers_next (replyTo_canon (homePut_canon hs))
  · split
    · exact answers_next (replyTo_canon hs)
    · exact answers_ite (answers_next (replyTo_canon hs)) (answers_next (remoteAtomic_canon hs))

theorem execReplyCacheExpiry_answers {src : BitVec 11} {tag : BitVec 16} {s : State} (hs : Canon P s) :
    Answers P (execReplyCacheExpiry src tag s) := by
  unfold execReplyCacheExpiry
  extract_lets old
  exact answers_next (canon_same hs rfl)

theorem modRequest_canon {s : State} {tag : BitVec 16} {f : RemoteOut → RemoteOut} (hs : Canon P s) :
    Canon P (s.modRequest tag f) := by
  unfold State.modRequest
  exact canon_same hs rfl

theorem requestOver_canon {s : State} {r : RemoteOut} (hs : Canon P s) : Canon P (s.requestOver r) := by
  unfold State.requestOver
  exact remoteEnd_canon hs

theorem requestKept_canon {s : State} {r : RemoteOut} {bs : List Byte} {w : Option MigFail} (hs : Canon P s) :
    Canon P (s.requestKept r bs w) := by
  unfold State.requestKept
  exact remoteEnd_canon (modRequest_canon hs)

theorem dropPlain_canon {s : State} {sid : Nat} (hs : Canon P s) : Canon P (s.dropPlain sid) := by
  unfold State.dropPlain
  exact remoteEnd_canon hs

theorem answerKept_canon {s : State} {id : Nat} (hs : Canon P s) : Canon P (s.answerKept id) := by
  unfold State.answerKept
  extract_lets pid
  exact canon_ite (mapLand_canon hs) hs

theorem remoteFail_canon {s : State} {r : RemoteOut} {w : MigFail} (hs : Canon P s) : Canon P (s.remoteFail r w) := by
  unfold State.remoteFail
  refine canon_ite ?_ ?_
  · refine canon_ite (farBarFailed_canon (requestOver_canon hs)) ?_
    refine canon_ite (answerKept_canon (requestKept_canon hs)) ?_
    exact canon_ite (requestOver_canon hs) (engineFailed_canon (requestOver_canon hs))
  · exact canon_ite (modStrand_canon (requestOver_canon hs)) (wakeFault_canon (dropPlain_canon hs))

theorem logReply_canon {s : State} {r : RemoteOut} {bs : List Byte} (hs : Canon P s) : Canon P (s.logReply r bs) := by
  unfold State.logReply
  refine canon_ite hs ?_
  split
  · exact logPush_canon hs
  · exact hs

theorem plainAnswer_canon {s : State} {r : RemoteOut} {bs : List Byte} (hs : Canon P s) : Canon P (s.plainAnswer r bs) := by
  unfold State.plainAnswer
  refine canon_ite (wakeFault_canon (dropPlain_canon hs)) ?_
  split
  · exact farBarArrived_canon (requestOver_canon hs)
  · exact spawnAnswer_canon (requestOver_canon hs)
  · extract_lets s1 l
    have hs1 : Canon P s1 := requestKept_canon hs
    exact canon_ite hs1 (wake_canon (canon_foldl (fun _ _ ht => logReply_canon ht) (dropPlain_canon hs1)))

theorem remoteAnswer_canon {s : State} {r : RemoteOut} {bs : List Byte} (hs : Canon P s) : Canon P (s.remoteAnswer r bs) := by
  unfold State.remoteAnswer
  refine canon_ite ?_ ?_
  · refine canon_ite (farBarRead_canon (requestOver_canon hs)) ?_
    exact canon_ite (answerKept_canon (requestKept_canon hs)) (requestOver_canon hs)
  · exact canon_ite (modStrand_canon (logReply_canon (requestOver_canon hs))) (plainAnswer_canon hs)

theorem execRemoteReplyArrive_answers {tag : BitVec 16} {refused : Bool} {data : List (BitVec 8)} {s : State} (hs : Canon P s) :
    Answers P (execRemoteReplyArrive tag refused data s) := by
  unfold execRemoteReplyArrive
  split
  · exact answers_next hs
  · refine answers_ite (answers_next hs) ?_
    exact answers_ite (answers_next (remoteFail_canon hs)) (answers_next (remoteAnswer_canon hs))

theorem execRemoteReissue_answers {tag : BitVec 16} {s : State} (hs : Canon P s) : Answers P (execRemoteReissue tag s) := by
  unfold execRemoteReissue
  split
  · refine answers_ite (answers_next hs) ?_
    refine answers_ite (answers_next (remoteFail_canon hs)) ?_
    exact answers_ite (answers_next (remoteFail_canon hs)) (answers_next (inject_canon (modRequest_canon hs)))
  · split
    · exact answers_next hs
    · exact answers_ite (answers_next hs) (answers_next (inject_canon (canon_same hs rfl)))

theorem execReplyCacheRetry_answers {tag : BitVec 16} {s : State} (hs : Canon P s) : Answers P (execReplyCacheRetry tag s) := by
  unfold execReplyCacheRetry
  split
  · refine answers_ite (answers_next hs) ?_
    split
    · exact answers_next (inject_canon (modRequest_canon hs))
    · exact answers_next hs
  · exact answers_next hs

theorem execMigr_answers {a : BitVec 5} {h : BitVec 2} {s : State} (hs : Canon P s) : Answers P (execMigr a h s) := by
  unfold execMigr
  extract_lets ga
  refine issue_answers hs ?_
  split
  · next _ _ e0 =>
      exact raise_answers (canon_of_snd (translate_canon hs) e0)
  · next _ _ e1 =>
      split
      · exact done_answers (canon_of_snd (translate_canon hs) e1)
      · exact migrateTo_answers (canon_of_snd (translate_canon hs) e1)
      · exact raise_answers (canon_of_snd (translate_canon hs) e1)

theorem execMigrationAck_answers {tag : BitVec 16} {s : State} (hs : Canon P s) : Answers P (execMigrationAck tag s) := by
  unfold execMigrationAck
  split
  · exact answers_next hs
  · extract_lets x s1 s2 s2'
    have hs1 : Canon P s1 := canon_same hs rfl
    have hs2 : Canon P s2 := modJob_canon hs1
    have hs2' : Canon P s2' := canon_ite (inject_canon hs2) hs2
    split
    · next _ e0 =>
        exact answers_next (returnFrame_canon ((recordWrite_canon hs2') _ e0))
    · exact answers_next (fatalCause_canon hs2')

theorem execMigrationRefused_answers {tag : BitVec 16} {why : MigFail} {s : State} (hs : Canon P s) :
    Answers P (execMigrationRefused tag why s) := by
  unfold execMigrationRefused
  split
  · exact answers_next hs
  · exact answers_ite (answers_next hs) (answers_next (enterItem_canon (awayFrame_canon (canon_same hs rfl))))

theorem takeFrame_canon {s : State} {pa : Nat} (hs : Canon P s) : Canon P (s.takeFrame pa).2 := by
  unfold State.takeFrame
  extract_lets k f
  exact setPoolWord_canon (setPoolWord_canon hs)

theorem execMigrationArrive_answers {packet : MigPacket} {s : State} (hs : Canon P s) :
    Answers P (execMigrationArrive packet s) := by
  unfold execMigrationArrive
  extract_lets +onlyGivenNames x0 pid back
  have hback : ∀ x0, Canon P x0 → Answers P (back x0) :=
    (fun _ ht => answers_next (inject_canon ht))
  refine answers_ite (hback _ hs) ?_
  split
  · exact hback _ hs
  · split
    next _ _ e0 =>
    extract_lets c _ x s2 s3 e item
    have hs2 : Canon P s2 := recordReply_canon (modJob_canon (canon_of_snd (takeFrame_canon hs) e0))
    have hs3 : Canon P s3 := awayFrame_canon (canon_same hs2 rfl)
    exact hback _ (canon_same hs3 rfl)

theorem mpset_canon {s : State} {v : Word} (hs : Canon P s) : Canon P (s.mpset v) := by
  unfold State.mpset
  extract_lets pid pa others
  refine canon_ite (modJob_canon hs) ?_
  exact canon_ite (note_canon hs) (modJob_canon (setPoolWord_canon (setPoolWord_canon hs)))

/-! ## Collectives -/

theorem memberWords_canon {s : State} {c : Coll} {k left : Nat} (hs : Canon P s) : Canon P (s.memberWords c k left).2 := by
  induction left generalizing s c k with
  | zero =>
    rw [State.memberWords]
    exact hs
  | succ left ih =>
    rw [State.memberWords]
    split
    · next _ _ e0 =>
        exact canon_of_snd (engineRead_canon hs) e0
    · next _ _ e1 =>
        split
        · next _ _ e2 =>
            exact canon_of_snd (ih (canon_of_snd (engineRead_canon hs) e1)) e2
        · next _ _ e3 =>
            exact canon_of_snd (ih (canon_of_snd (engineRead_canon hs) e1)) e3

theorem memberTable_canon {s : State} {c : Coll} (hs : Canon P s) : Canon P (s.memberTable c).2 := by
  unfold State.memberTable
  split
  · next _ _ e0 =>
      exact canon_of_snd (memberWords_canon hs) e0
  · next _ e1 =>
      exact canon_of_snd (memberWords_canon hs) e1
  · next _ _ e2 =>
      extract_lets m
      refine canon_ite_snd (canon_of_snd (memberWords_canon hs) e2) ?_
      split
      · next _ _ e3 =>
          exact canon_of_snd (memberWords_canon (canon_of_snd (memberWords_canon hs) e2)) e3
      · next _ e4 =>
          exact canon_of_snd (memberWords_canon (canon_of_snd (memberWords_canon hs) e2)) e4
      · next _ _ e5 =>
          exact canon_of_snd (memberWords_canon (canon_of_snd (memberWords_canon hs) e2)) e5

theorem setColl_canon {s : State} {cid : Nat} {c : Coll} (hs : Canon P s) : Canon P (s.setColl cid c) := by
  unfold State.setColl
  exact canon_same hs rfl

theorem chunkInput_canon {s : State} {c : Coll} {i a : Nat} (hs : Canon P s) : Canon P (s.chunkInput c i a) := by
  unfold State.chunkInput
  exact consume_canon hs

theorem chunkWrite_canon {s : State} {c : Coll} {i : Nat} {l : List Word} (hs : Canon P s) : Canon P (s.chunkWrite c i l) := by
  unfold State.chunkWrite
  exact spWrite_canon hs

theorem chunkSend_canon {s : State} {c : Coll} {x : ChunkXfer} {dests : List Nat} (hs : Canon P s) :
    Canon P (s.chunkSend c x dests).1 := by
  unfold State.chunkSend
  exact canon_foldl (fun _ _ ht => inject_canon ht) hs

theorem upPass_canon {s : State} {c : Coll} {i pass : Nat} (hs : Canon P s) : Canon P (s.upPass c i pass).1 := by
  unfold State.upPass
  extract_lets +onlyGivenNames me
  split
  extract_lets +onlyGivenNames first mine
  refine canon_ite_fst hs ?_
  split
  · exact hs
  · extract_lets +onlyGivenNames s' c1
    have hs' : Canon P s' := chunkInput_canon hs
    refine canon_ite_fst (chunkSend_canon hs') ?_
    extract_lets +onlyGivenNames c2
    refine canon_ite_fst (chunkSend_canon hs') ?_
    split
    extract_lets c3 s1
    have hs1 : Canon P s1 := chunkWrite_canon hs'
    exact canon_ite_fst hs1 (chunkSend_canon hs1)

theorem downPass_canon {s : State} {c : Coll} {i pass : Nat} (hs : Canon P s) : Canon P (s.downPass c i pass).1 := by
  unfold State.downPass
  extract_lets me edges
  split
  · exact hs
  · exact canon_ite_fst hs (chunkSend_canon (canon_ite (chunkWrite_canon hs) hs))

theorem castChunk_canon {s : State} {c : Coll} {i : Nat} (hs : Canon P s) : Canon P (s.castChunk c i).1 := by
  unfold State.castChunk
  extract_lets me
  split
  exact canon_ite_fst hs (chunkSend_canon (chunkWrite_canon (chunkInput_canon hs)))

theorem chunkRun_canon {s : State} {c : Coll} {i : Nat} (hs : Canon P s) : Canon P (s.chunkRun c i).1 := by
  unfold State.chunkRun
  refine canon_ite_fst (downPass_canon (castChunk_canon hs)) ?_
  extract_lets a b d
  have ha : Canon P a.1 := canon_ite_fst (upPass_canon hs) hs
  have hb : Canon P b.1 := canon_ite_fst (downPass_canon ha) ha
  have hd : Canon P d.1 := upPass_canon hb
  exact downPass_canon hd

theorem chunksOpen_canon {s : State} {c : Coll} (hs : Canon P s) : Canon P (s.chunksOpen c) := by
  unfold State.chunksOpen
  refine canon_foldl (fun t i ht => canon_foldl (fun u e hu => ?_) ht) hs
  exact canon_same (s := u.spWrite e.1 (freeBytes u.freeCtr e.2)) (spWrite_canon hu) rfl

theorem collRoom_canon {s : State} (hs : Canon P s) : Canon P s.collRoom := by
  unfold State.collRoom
  split
  · exact hs
  · split
    · extract_lets c old
      exact modSlot_canon (canon_same hs rfl)
    · exact hs

theorem collEnd_canon {s : State} {c : Coll} {st : Nat} {shown : Bool} (hs : Canon P s) : Canon P (s.collEnd c st shown) := by
  unfold State.collEnd
  extract_lets s1 s2 s3
  have hs1 : Canon P s1 := canon_ite (chunksOpen_canon hs) hs
  have hs2 : Canon P s2 := canon_ite (setColl_canon hs1) hs1
  have hs3 : Canon P s3 := flipOwned_canon hs2
  exact collRoom_canon (canon_ite (noteEngine_canon hs3) hs3)

theorem collRun_canon {s : State} {cid : Nat} (hs : Canon P s) : Canon P (s.collRun cid) := by
  unfold State.collRun
  split
  · exact hs
  · refine canon_ite hs ?_
    exact canon_ite (collEnd_canon hs) (setColl_canon (canon_foldl_fst (fun _ _ ha => chunkRun_canon ha) hs))

theorem collLeave_canon {s : State} {cid left : Nat} (hs : Canon P s) : Canon P (s.collLeave cid left) := by
  induction left generalizing s cid with
  | zero =>
    rw [State.collLeave]
    exact hs
  | succ left ih =>
    rw [State.collLeave]
    split
    · exact hs
    · refine canon_ite hs ?_
      split
      next _ _ e0 =>
      refine canon_ite (ih (setColl_canon (canon_of_snd (askLeave_canon hs) e0))) ?_
      exact setColl_canon (canon_of_snd (askLeave_canon hs) e0)

theorem collGo_canon {s : State} {cid : Nat} (hs : Canon P s) : Canon P (s.collGo cid) := by
  unfold State.collGo
  exact collRun_canon (collLeave_canon hs)

theorem collCheck_canon {s : State} {c : Coll} (hs : Canon P s) : Canon P (s.collCheck c).2 := by
  unfold State.collCheck
  split
  · exact hs
  · split
    · next _ _ e0 =>
        exact canon_of_snd (memberTable_canon hs) e0
    · next _ e1 =>
        exact canon_of_snd (memberTable_canon hs) e1
    · next _ e2 =>
        exact canon_of_snd (memberTable_canon hs) e2
    · next _ _ e3 =>
        exact canon_of_snd (memberTable_canon hs) e3

theorem execCollStart_answers {cid : BitVec 16} {s : State} (hs : Canon P s) : Answers P (execCollStart cid s) := by
  unfold execCollStart
  split
  · exact answers_next hs
  · split
    · next _ e0 =>
        exact answers_next (canon_of_snd (collCheck_canon hs) e0)
    · next _ _ e1 =>
        extract_lets _ s2
        have hs2 : Canon P s2 := canon_same (remoteEnd_canon (canon_of_snd (collCheck_canon hs) e1)) rfl
        split
        · exact answers_next (collEnd_canon hs2)
        · exact answers_next (setColl_canon hs2)

theorem execCollJoined_answers {cid : BitVec 16} {digestsEqual : Bool} {s : State} (hs : Canon P s) :
    Answers P (execCollJoined cid digestsEqual s) := by
  unfold execCollJoined
  split
  · exact answers_next hs
  · refine answers_ite (answers_next hs) ?_
    refine answers_ite (answers_next (collEnd_canon hs)) ?_
    refine answers_ite (answers_next (collEnd_canon hs)) ?_
    extract_lets tr
    exact answers_ite (answers_next (collEnd_canon hs)) (answers_next (collGo_canon (setColl_canon hs)))

theorem execChunkReceive_answers {cid : BitVec 16} {xfer : ChunkXfer} {s : State} (hs : Canon P s) :
    Answers P (execChunkReceive cid xfer s) := by
  unfold execChunkReceive
  split
  · exact answers_next hs
  · refine answers_ite (answers_next hs) ?_
    extract_lets s1
    have hs1 : Canon P s1 := inject_canon hs
    exact answers_ite (answers_next hs1) (answers_next (collRun_canon (setColl_canon hs1)))

theorem execChunkAckReceive_answers {cid : BitVec 16} {chunk : Nat} {dev : BitVec 11} {version : Nat} {s : State}
    (hs : Canon P s) : Answers P (execChunkAckReceive cid chunk dev version s) := by
  unfold execChunkAckReceive
  split
  · exact answers_next hs
  · refine answers_ite (answers_next hs) ?_
    split
    · exact answers_next hs
    · extract_lets c1
      exact answers_next (setColl_canon hs)

theorem wavePassed_canon {s : State} {c : Coll} (hs : Canon P s) : Canon P (s.wavePassed c) := by
  unfold State.wavePassed
  exact canon_ite (setColl_canon hs) (collEnd_canon hs)

theorem waveSend_canon {s : State} {l : List Nat} (hs : Canon P s) : Canon P (s.waveSend l) := by
  unfold State.waveSend
  exact canon_foldl (fun _ _ ht => inject_canon ht) hs

theorem waveGo_canon {s : State} {cid : Nat} (hs : Canon P s) : Canon P (s.waveGo cid) := by
  unfold State.waveGo
  split
  · exact hs
  · extract_lets +onlyGivenNames me
    refine canon_ite hs ?_
    extract_lets +onlyGivenNames edges kids up
    split
    · exact canon_ite (wavePassed_canon (waveSend_canon hs)) hs
    · extract_lets s1 c1
      have hs1 : Canon P s1 := canon_ite (setColl_canon (waveSend_canon hs)) hs
      exact canon_ite (wavePassed_canon (waveSend_canon hs1)) hs1

theorem waveIn_canon {s : State} {c : Coll} {m : BitVec 11 × Bool × Nat} (hs : Canon P s) : Canon P (s.waveIn c m) := by
  unfold State.waveIn
  exact canon_ite hs (setColl_canon hs)

theorem execCompletionWave_answers {cid : BitVec 16 × Option (BitVec 11 × Bool × Nat)} {s : State} (hs : Canon P s) :
    Answers P (execCompletionWave cid s) := by
  unfold execCompletionWave
  split
  · exact answers_next hs
  · refine answers_ite (answers_next (collEnd_canon hs)) ?_
    extract_lets s1
    have hs1 : Canon P s1 := by
      unfold s1
      split
      · exact waveIn_canon hs
      · exact hs
    exact answers_next (waveGo_canon hs1)

theorem collsStop_canon {s : State} (hs : Canon P s) : Canon P s.collsStop := by
  unfold State.collsStop
  extract_lets stop
  exact canon_same hs rfl

theorem restartChunk_canon {s : State} {marks : List (Nat × List Nat)} {c : Coll} {i : Nat} (hs : Canon P s) :
    Canon P (s.restartChunk marks c i).1 := by
  unfold State.restartChunk
  extract_lets +onlyGivenNames me edges
  split
  · exact hs
  · extract_lets made c1
    exact canon_ite_fst hs (chunkSend_canon (chunkInput_canon hs))

theorem marksSend_canon {s : State} {c : Coll} (hs : Canon P s) : Canon P (s.marksSend c) := by
  unfold State.marksSend
  exact canon_foldl (fun _ _ ht => inject_canon ht) hs

theorem collsAgree_canon {s : State} (hs : Canon P s) : Canon P s.collsAgree := by
  unfold State.collsAgree
  exact canon_foldl (fun _ _ ht => canon_ite (marksSend_canon ht) (canon_ite (waveGo_canon (setColl_canon (marksSend_canon
      ht))) ht)) hs

theorem execCollRestart_answers {cid : BitVec 16} {marks : List (BitVec 11 × List Nat)} {s : State} (hs : Canon P s) :
    Answers P (execCollRestart cid marks s) := by
  unfold execCollRestart
  split
  · exact answers_next hs
  · refine answers_ite (answers_next hs) ?_
    refine answers_ite (answers_next (collEnd_canon hs)) ?_
    refine answers_ite (answers_next (collEnd_canon hs)) ?_
    refine answers_ite (answers_next hs) ?_
    refine answers_ite (answers_next (collEnd_canon hs)) ?_
    extract_lets +onlyGivenNames tr
    refine answers_ite (answers_next (collEnd_canon hs)) ?_
    extract_lets c1 all r
    have hr : Canon P r.1 := canon_foldl_fst (fun _ _ ha => restartChunk_canon ha) hs
    exact answers_next (collGo_canon (setColl_canon hr))

theorem chunkAgain_canon {s : State} {cid : Nat} {x : ChunkXfer} (hs : Canon P s) : Canon P (s.chunkAgain cid x) := by
  unfold State.chunkAgain
  split
  · exact hs
  · exact canon_ite hs (collRun_canon (setColl_canon hs))

theorem vpSend_canon {s : State} {edges : List (Nat × Nat)} (hs : Canon P s) : Canon P (s.vpSend edges) := by
  unfold State.vpSend
  extract_lets me
  exact canon_foldl (fun _ _ ht => inject_canon ht) hs

theorem execFabricVpRound_answers {pid : BitVec 12} {others : BitVec 64 × BitVec 64} {othersSum : Int} {s : State}
    (hs : Canon P s) : Answers P (execFabricVpRound pid others othersSum s) := by
  unfold execFabricVpRound
  extract_lets +onlyGivenNames j
  refine answers_ite (answers_next hs) ?_
  split
  · exact answers_next (setJob_canon hs)
  · split
    · exact answers_next hs
    · extract_lets s0
      have hs0 : Canon P s0 := vpSend_canon hs
      exact answers_ite (answers_next (setJob_canon hs0)) (answers_next (publish_canon (setJob_canon hs0)))
  · exact answers_next hs

/-! ## Ports -/

theorem takeRecord_canon {s : State} {r : LinkRec} (hs : Canon P s) : Canon P (s.takeRecord r) := by
  unfold State.takeRecord
  extract_lets s0 s1 flood
  have hs0 : Canon P s0 := canon_ite hs (collsStop_canon hs)
  have hs1 : Canon P s1 := canon_same hs0 rfl
  exact canon_same hs1 rfl

theorem report_canon {s : State} {port : Nat} {up : Bool} (hs : Canon P s) : Canon P (s.report port up) := by
  unfold State.report
  extract_lets +onlyGivenNames me
  split
  · exact hs
  · extract_lets n e
    exact canon_ite hs (takeRecord_canon hs)

theorem execLinkRecordReceive_answers {record : LinkRec} {s : State} (hs : Canon P s) :
    Answers P (execLinkRecordReceive record s) := by
  unfold execLinkRecordReceive
  split
  · exact answers_ite (answers_next (takeRecord_canon hs)) (answers_next hs)
  · exact answers_next (takeRecord_canon hs)

theorem abandonFabric_canon {s : State} (hs : Canon P s) : Canon P s.abandonFabric := by
  unfold State.abandonFabric
  exact canon_foldl (fun _ _ ht => note_canon (modJob_canon ht)) hs

theorem leaveGroups_canon {s : State} {port : Nat} (hs : Canon P s) : Canon P (s.leaveGroups port) := by
  unfold State.leaveGroups
  split
  · exact hs
  · exact modPort_canon (canon_same hs rfl)

theorem leaveFallen_canon {s : State} (hs : Canon P s) : Canon P s.leaveFallen := by
  unfold State.leaveFallen
  exact canon_foldl (fun _ _ ht => by
      split
      · exact canon_ite ht (leaveGroups_canon ht)
      · exact ht) hs

theorem execTableAgree_answers {digests : BitVec 64 × List (Nat × BitVec 64)} {s : State} (hs : Canon P s) :
    Answers P (execTableAgree digests s) := by
  unfold execTableAgree
  refine answers_ite (answers_next hs) ?_
  extract_lets s1
  have hs1 : Canon P s1 := canon_same hs rfl
  exact answers_next (execEvent_canon (collsAgree_canon (sendRerouted_canon (leaveFallen_canon (abandonFabric_canon hs1)))))

theorem linesIn_canon {s : State} {pid : BitVec 12} {lines : List VReg} (hs : Canon P s) : Canon P (s.linesIn pid lines) := by
  unfold State.linesIn
  exact canon_same hs rfl

theorem skidRepair_canon {s : State} {grp : LinkGroup} (hs : Canon P s) : Canon P (s.skidRepair grp) := by
  unfold State.skidRepair
  split
  · extract_lets ms
    exact canon_same hs rfl
  · exact chunkAgain_canon hs
  · exact hs

theorem groupIn_canon {s : State} {grp : LinkGroup} (hs : Canon P s) : Canon P (s.groupIn grp) := by
  unfold State.groupIn
  split
  · exact inject_canon hs
  · exact canon_ite (linesIn_canon hs) (cancelsIn_canon hs)

theorem execGroupReceive_answers {port : Nat} {grp : LinkGroup} {s : State} (hs : Canon P s) :
    Answers P (execGroupReceive port grp s) := by
  unfold execGroupReceive
  split
  · exact answers_next hs
  · refine answers_ite (answers_next hs) ?_
    extract_lets +onlyGivenNames s1
    have hs1 : Canon P s1 := modPort_canon hs
    refine answers_ite (answers_next hs1) ?_
    refine answers_ite ?_ (answers_next (groupIn_canon (modPort_canon hs1)))
    extract_lets s2
    have hs2 : Canon P s2 := modPort_canon hs1
    exact answers_next (canon_ite (skidRepair_canon hs2) hs2)

theorem linkFall_canon {s : State} {port : Nat} {st : BitVec 3} (hs : Canon P s) : Canon P (s.linkFall port st) := by
  unfold State.linkFall
  exact report_canon (modPort_canon (leaveGroups_canon hs))

theorem negotiated_canon {s : State} {port : Nat} (hs : Canon P s) : Canon P (s.negotiated port) := by
  unfold State.negotiated
  split
  · exact hs
  · extract_lets q
    exact canon_ite (linkFall_canon hs) (modPort_canon hs)

theorem rxNegotiated_canon {s : State} {port : Nat} {map : List Nat} {lit : Nat} (hs : Canon P s) :
    Canon P (s.rxNegotiated port map lit) := by
  unfold State.rxNegotiated
  exact canon_ite (linkFall_canon hs) (modPort_canon hs)

theorem execNarrowNegotiateDone_answers {dir : Nat × Option (List Nat × Nat)} {s : State} (hs : Canon P s) :
    Answers P (execNarrowNegotiateDone dir s) := by
  unfold execNarrowNegotiateDone
  split
  · exact answers_next hs
  · exact answers_ite (answers_next (negotiated_canon hs)) (answers_next hs)
  · exact answers_ite (answers_next (rxNegotiated_canon hs)) (answers_next hs)

theorem retrain_canon {s : State} {port : Nat} (hs : Canon P s) : Canon P (s.retrain port) := by
  unfold State.retrain
  exact modPort_canon hs

theorem train_canon {s : State} {port : Nat} (hs : Canon P s) : Canon P (s.train port) := by
  unfold State.train
  exact canon_ite (modPort_canon hs) hs

theorem trainAll_canon {s : State} (hs : Canon P s) : Canon P s.trainAll := by
  unfold State.trainAll
  exact canon_foldl (fun _ _ ht => train_canon ht) hs

theorem execLinkTrainDone_answers {port : Nat} {peer : BitVec 11 × BitVec 3} {farLit : Nat} {s : State} (hs : Canon P s) :
    Answers P (execLinkTrainDone port peer farLit s) := by
  unfold execLinkTrainDone
  split
  · exact answers_next hs
  · refine answers_ite (answers_next hs) ?_
    extract_lets up s1
    have hs1 : Canon P s1 := report_canon (rxNegotiated_canon (modPort_canon (leaveGroups_canon hs)))
    refine answers_next ?_
    split
    · exact canon_ite (negotiated_canon hs1) hs1
    · exact hs1

theorem portEnable_canon {s : State} {port : Nat} {en : Bool} (hs : Canon P s) : Canon P (s.portEnable port en) := by
  unfold State.portEnable
  extract_lets s1
  have hs1 : Canon P s1 := modPort_canon hs
  exact canon_ite (train_canon hs1) (linkFall_canon hs1)

theorem laserEnter_canon {s : State} {t : BitVec 2} (hs : Canon P s) : Canon P (s.laserEnter t) := by
  unfold State.laserEnter
  extract_lets +onlyGivenNames old s1
  have hs1 : Canon P s1 := modPlat_canon hs
  refine canon_ite ?_ ?_
  · extract_lets s2
    have hs2 : Canon P s2 := modOptics_canon hs1
    exact tableChange_canon (canon_foldl (fun _ _ hu => linkFall_canon hu) hs2)
  · extract_lets change s2' s3
    have hs2' : Canon P s2' := canon_same hs1 rfl
    have hs3 : Canon P s3 := (canon_ite (canon_foldl (fun _ _ hu => by
        split
        · exact canon_ite (negotiated_canon hu) hu
        · exact hu) hs2') hs2')
    exact canon_ite (canon_ite (trainAll_canon hs3) (calibAll_canon (trainAll_canon hs3))) hs3

theorem laserBegin_canon {s : State} {t : BitVec 2} (hs : Canon P s) : Canon P (s.laserBegin t) := by
  unfold State.laserBegin
  exact modPlat_canon hs

theorem laserReq_canon {s : State} {req : BitVec 2} (hs : Canon P s) : Canon P (s.laserReq req) := by
  unfold State.laserReq
  extract_lets s1
  have hs1 : Canon P s1 := modPlat_canon hs
  exact canon_ite hs1 (laserBegin_canon hs1)

theorem execLaserTransitionDone_answers {s : State} (hs : Canon P s) : Answers P (execLaserTransitionDone s) := by
  unfold execLaserTransitionDone
  split
  · exact answers_next hs
  · refine answers_ite (answers_next hs) ?_
    extract_lets s1
    have hs1 : Canon P s1 := laserEnter_canon (modPlat_canon hs)
    exact answers_next (canon_ite hs1 (laserBegin_canon hs1))

theorem execLaserSwitchover_answers {s : State} (hs : Canon P s) : Answers P (execLaserSwitchover s) := by
  unfold execLaserSwitchover
  refine answers_ite (answers_next hs) ?_
  extract_lets s1
  have hs1 : Canon P s1 := modOptics_canon (modPlat_canon hs)
  exact answers_next (tableChange_canon (canon_same hs1 rfl))

theorem execLaserSwitchoverDone_answers {s : State} (hs : Canon P s) : Answers P (execLaserSwitchoverDone s) := by
  unfold execLaserSwitchoverDone
  refine answers_ite (answers_next hs) ?_
  extract_lets s1
  have hs1 : Canon P s1 := modOptics_canon (modPlat_canon hs)
  exact answers_next (note_canon (serviceTiles_canon (tableChange_canon hs1)))

/-! ## System registers -/

theorem evpop_canon {s : State} {core : Nat} (hs : Canon P s) : Canon P (s.evpop core).2 := by
  unfold State.evpop
  split
  · exact hs
  · exact modCore_canon hs

theorem leaveFt_canon {s : State} {pid : BitVec 12} (hs : Canon P s) : Canon P (s.leaveFt pid) := by
  unfold State.leaveFt
  extract_lets s1
  have hs1 : Canon P s1 := modJob_canon hs
  exact canon_same hs1 rfl

theorem ftset_canon {s : State} {v : Word} (hs : Canon P s) : Canon P (s.ftset v) := by
  unfold State.ftset
  extract_lets pid s1
  have hs1 : Canon P s1 := modJob_canon hs
  exact canon_ite hs1 (leaveFt_canon hs1)

theorem dumpset_canon {s : State} {v : Word} (hs : Canon P s) : Canon P (s.dumpset v) := by
  unfold State.dumpset
  extract_lets area
  exact modJob_canon hs

theorem freeKept_canon {s : State} {core slot : Nat} (hs : Canon P s) : Canon P (s.freeKept core slot) := by
  unfold State.freeKept
  exact offerOverflow_canon (modCore_canon hs)

theorem dbgstop_canon {s : State} {v : Word} (hs : Canon P s) : Canon P (s.dbgstop v) := by
  unfold State.dbgstop
  extract_lets core slot
  exact canon_ite (freeKept_canon hs) (canon_ite (modSlot_canon hs) hs)

theorem sresume_canon {s : State} {v : Word} (hs : Canon P s) : Canon P (s.sresume v) := by
  unfold State.sresume
  split
  · exact note_canon hs
  · extract_lets s1
    have hs1 : Canon P s1 := leaveWaits_canon hs
    split
    · exact hs1
    · exact note_canon (reenter_canon hs1)

theorem timeadj_canon {s : State} {v : Word} (hs : Canon P s) : Canon P (s.timeadj v) := by
  unfold State.timeadj
  exact canon_ite (modPlat_canon (canon_same hs rfl)) (note_canon hs)

theorem tsinv_canon {s : State} {v : Word} (hs : Canon P s) : Canon P (s.tsinv v) := by
  unfold State.tsinv
  extract_lets pid
  split
  · exact tsinvPage_canon hs
  · exact canon_same hs rfl
  · exact canon_same hs rfl
  · exact hs

theorem skctlPut_canon {s : State} {v : Word} (hs : Canon P s) : Canon P (s.skctlPut v) := by
  unfold State.skctlPut
  exact canon_same hs rfl

theorem profbufPut_canon {s : State} {v : Word} (hs : Canon P s) : Canon P (s.profbufPut v) := by
  unfold State.profbufPut
  exact canon_same hs rfl

theorem sysPut_canon {s : State} {n : Nat} {rw one : Word} {srw : Bool} (hs : Canon P s) : Canon P (s.sysPut n rw one srw) := by
  unfold State.sysPut
  extract_lets +onlyGivenNames t'
  split
  · exact modTile_canon hs
  · exact modOpt_canon hs
  · exact canon_same hs rfl
  · exact sresume_canon hs
  · exact modCore_canon hs
  · exact modTile_canon hs
  · exact tsinv_canon hs
  · exact canon_same hs rfl
  · extract_lets s1
    have hs1 : Canon P s1 := canon_ite hs (optOff_canon hs)
    exact canon_ite (optCal_canon hs1) hs1
  · exact vjbset_canon hs
  · exact mpset_canon hs
  · exact dumpset_canon hs
  · exact ftset_canon hs
  · exact dbgstop_canon hs
  · exact profctlPut_canon hs
  · exact profbufPut_canon hs
  · exact skctlPut_canon hs
  · exact timeadj_canon hs
  · exact canon_ite (canon_ite (modCore_canon hs) hs) (modHart_canon hs)

end

end Sys2Proof.Proofs

namespace Sys2Proof.Proofs

/-!
The form of the memory: the system and the platform, every instruction and event, and every step (15, 16).
-/

open Sys2Proof.Machine Sys2Proof.Claim

section

variable {P : Prop}

/-! ## System -/

theorem sysreg_answers {s : State} {n : Nat} {writes : Bool} {k : Result} (hs : Canon P s) (hk : Answers P k) :
    Answers P (s.sysreg n writes k) := by
  unfold State.sysreg
  exact answers_ite (raise_answers hs) (answers_ite (raise_answers hs) (issue_answers hs hk))

theorem execSrr_answers {d : BitVec 5} {sr : BitVec 12} {h : BitVec 2} {s : State} (hs : Canon P s) :
    Answers P (execSrr d sr h s) := by
  unfold execSrr
  refine sysreg_answers hs ?_
  refine answers_ite ?_ (doneG_answers hs)
  split
  next _ _ e0 =>
  exact doneG_answers (canon_of_snd (evpop_canon hs) e0)

theorem trapReturn_answers {s : State} {k : State → State} (hs : Canon P s) (hk : ∀ x0, Canon P x0 → Canon P (k x0)) :
    Answers P (s.trapReturn k) := by
  unfold State.trapReturn
  refine answers_ite (raise_answers hs) ?_
  exact answers_ite (answers_next (fatalSlot_canon hs)) (answers_next (hk _ (modHart_canon hs)))

theorem xhold_answers {s : State} (hs : Canon P s) : Answers P s.xhold := by
  unfold State.xhold
  exact trapReturn_answers hs (fun _ hs1 => writeBackStrand_canon hs1)

theorem xfatal_answers {s : State} {h : BitVec 2} {v : Word} (hs : Canon P s) : Answers P (s.xfatal h v) := by
  unfold State.xfatal
  exact answers_ite (raise_answers hs) (done_answers (fatalSlot_canon hs))

theorem sysWrite_answers {s : State} {n : Nat} {rw one : Word} {srw : Bool} {h : BitVec 2} (hs : Canon P s) :
    Answers P (s.sysWrite n rw one srw h) := by
  unfold State.sysWrite
  exact sysreg_answers hs (answers_ite (xhold_answers hs) (answers_ite (xfatal_answers hs) (answers_ite (answers_next
      (parkAt_canon (sysPut_canon hs))) (answers_ite (answers_ite (done_answers (optAccept_canon (sysPut_canon hs)))
      (answers_next (parkAt_canon (sysPut_canon hs)))) (done_answers (sysPut_canon hs))))))

theorem execRtx_answers {h : BitVec 2} {s : State} (hs : Canon P s) : Answers P (execRtx h s) := by
  unfold execRtx
  exact issue_answers hs (trapReturn_answers hs (fun _ hs1 => modHart_canon hs1))

theorem enterFtTile_canon {s : State} {pid : BitVec 12} {t : Nat} (hs : Canon P s) : Canon P (s.enterFtTile pid t) := by
  unfold State.enterFtTile
  exact canon_ite (canon_foldl (fun _ _ ha => modSlot_canon ha) (canon_same hs rfl)) (modTile_canon hs)

theorem execClkm_answers {a : BitVec 5} {h : BitVec 2} {s : State} (hs : Canon P s) : Answers P (execClkm a h s) := by
  unfold execClkm
  extract_lets ga pid
  exact issue_answers hs (answers_ite (raise_answers hs) (answers_ite (answers_ite (done_answers (leaveFt_canon hs))
      (done_answers hs)) (answers_ite (done_answers hs) (answers_ite (raise_answers hs) (answers_ite (raise_answers hs)
      (answers_ite (done_answers (canon_foldl (fun _ _ ht => enterFtTile_canon ht) (canon_ite (modJob_canon hs) (modTile_canon
      (modJob_canon hs))))) (answers_next (parkAt_canon (canon_foldl (fun _ _ ht => enterFtTile_canon ht) (canon_ite
      (modJob_canon hs) (modTile_canon (modJob_canon hs))))))))))))

theorem execTilePin_answers {tile : Nat} {s : State} (hs : Canon P s) : Answers P (execTilePin tile s) := by
  unfold execTilePin
  refine answers_ite (answers_next hs) ?_
  extract_lets now s1
  have hs1 : Canon P s1 := modTile_canon hs
  exact answers_next (canon_foldl (fun _ _ ha => modSlot_canon ha) hs1)

theorem execLeaveGrant_answers {tile : Nat} {s : State} (hs : Canon P s) : Answers P (execLeaveGrant tile s) := by
  unfold execLeaveGrant
  split
  · exact answers_next hs
  · extract_lets +onlyGivenNames s1
    have hs1 : Canon P s1 := leaveGranted_canon (modTile_canon hs)
    refine answers_ite ?_ ?_
    · extract_lets first
      clear_value first
      split
      · exact answers_next (modOpt_canon hs1)
      · exact answers_next hs1
    · refine answers_ite (answers_next (modTile_canon hs1)) ?_
      split
      · exact answers_next (collGo_canon (setColl_canon hs1))
      · exact answers_next hs1

theorem deviceFatal_canon {s : State} (hs : Canon P s) : Canon P s.deviceFatal := by
  unfold State.deviceFatal
  exact signalHost_canon (modPlat_canon (canon_same (note_canon hs) rfl))

theorem execEvpopRead_answers {core : Nat} {d : BitVec 5} {s : State} (hs : Canon P s) :
    Answers P (execEvpopRead core d s) := by
  unfold execEvpopRead
  split
  next _ _ e0 =>
  exact answers_next (modHart_canon (canon_of_snd (evpop_canon hs) e0))

theorem execDbgstopStop_answers {slot : Nat} {s : State} (hs : Canon P s) : Answers P (execDbgstopStop slot s) := by
  unfold execDbgstopStop
  refine answers_ite (answers_next hs) ?_
  refine answers_ite (answers_next (sendBuffers_canon hs)) ?_
  extract_lets x s1 s2
  have hs1 : Canon P s1 := canon_ite (modCore_canon hs) hs
  have hs2 : Canon P s2 := modSlot_canon hs1
  exact answers_next (noteFrom_canon (writeBackStrand_canon hs2))

/-! ## Dumps -/

theorem dropDeferred_canon {s : State} {pid : BitVec 12} (hs : Canon P s) : Canon P (s.dropDeferred pid) := by
  unfold State.dropDeferred
  extract_lets l s1
  have hs1 : Canon P s1 := canon_same hs rfl
  exact canon_foldl (fun _ _ ht => note_canon ht) hs1

theorem freeze_canon {s : State} {pid : BitVec 12} (hs : Canon P s) : Canon P (s.freeze pid) := by
  unfold State.freeze
  extract_lets clear s1 s2 hold s3 away
  have hs1 : Canon P s1 := canon_same hs rfl
  have hs2 : Canon P s2 := cancelCommands_canon (dropDeferred_canon hs1)
  have hs3 : Canon P s3 := canon_foldl (fun _ _ ht => modSlot_canon ht) hs2
  exact modJob_canon hs3

theorem settleStrands_canon {s : State} {pid : BitVec 12} (hs : Canon P s) : Canon P (s.settleStrands pid) := by
  unfold State.settleStrands
  exact canon_foldl (fun _ _ ht => leaveActions_canon ht) hs

theorem dumpPut_canon {s : State} {d : DumpOut} {off : Nat} {bs : List Byte} (hs : Canon P s) :
    Canon P (s.dumpPut d off bs) := by
  unfold State.dumpPut
  exact rawPut_canon hs

theorem dumpImage_canon {r : State × DumpOut} {bs : List Byte} (hr : Canon P r.1) : Canon P (State.dumpImage r bs).1 := by
  unfold State.dumpImage
  split
  next _ _ =>
  exact canon_ite_fst (canon_of_fst hr rfl) (dumpPut_canon (canon_of_fst hr rfl))

theorem canon_freeCtr {s : State} {n : Nat} (hs : Canon P s) : Canon P { s with freeCtr := n } := canon_same hs rfl

/-- A dump in progress, with the state it is written in; a definition, so that the kernel compares pairs and not their states. -/
def DumpCanon (P : Prop) (r : State × DumpOut) : Prop := Canon P r.1

theorem dumpCanon_foldl {α : Type} {f : State × DumpOut → α → State × DumpOut}
    (hf : ∀ r a, Canon P r.1 → Canon P (f r a).1) {l : List α} {r : State × DumpOut} (hr : DumpCanon P r) :
    DumpCanon P (l.foldl f r) :=
  canon_foldl_fst hf hr

theorem dumpCanon_ite {c : Prop} [Decidable c] {q r : State × DumpOut} (hq : DumpCanon P q) (hr : DumpCanon P r) :
    DumpCanon P (if c then q else r) :=
  canon_ite_fst hq hr

theorem dumpCanon_pair {s : State} {d : DumpOut} (hs : Canon P s) : DumpCanon P (s, d) := hs

theorem canon_of_dump {r : State × DumpOut} {d : DumpOut} {t : State} (hr : DumpCanon P r) (e : r = (t, d)) : Canon P t :=
  canon_of_fst hr e

theorem writeDump_canon {s : State} {pid : BitVec 12} {area : Nat} {compat : Bool} (hs : Canon P s) :
    Canon P (s.writeDump pid area compat) := by
  unfold State.writeDump
  extract_lets size d0 tiles t1 imgs r1
  have htiles : Canon P tiles := canon_foldl (fun _ _ ht => dumpPut_canon ht) hs
  have ht1 : Canon P t1 := canon_freeCtr htiles
  have himgs : ∀ r n, Canon P r.1 → Canon P (imgs r n).1 := by
    intro r n hr
    exact dumpImage_canon (r := (_, r.2)) (canon_freeCtr hr)
  have hr1 : DumpCanon P r1 := dumpCanon_foldl himgs (dumpCanon_pair ht1)
  have all := dumpCanon_ite (c := compat = true) (dumpCanon_pair (d := d0) hs)
    (dumpCanon_foldl (l := r1.1.outsideSorted pid) (f := fun r x => State.dumpImage r (r.1.outsideImage x))
      (fun _ _ hr => dumpImage_canon hr) hr1)
  split
  next s1 d e =>
  have hs1 : Canon P s1 := canon_of_dump all e
  exact modJob_canon (dumpPut_canon (dumpPut_canon (dumpPut_canon hs1)))

theorem discardAll_canon {s : State} {pid : BitVec 12} (hs : Canon P s) : Canon P (s.discardAll pid) := by
  unfold State.discardAll
  extract_lets drop s1 s2 s3
  have hdrop : ∀ x0 x1, Canon P x0 → Canon P (drop x0 x1) :=
    (fun _ _ ht => vacate_canon (endRecord_canon (countOnce_canon (dropReservation_canon (leaveWaits_canon (leaveActions_canon
        ht))))))
  have hs1 : Canon P s1 := canon_foldl (fun _ _ ht => hdrop _ _ ht) hs
  have hs2 : Canon P s2 := canon_foldl (fun _ _ ht => discardStrand_canon ht) hs1
  have hs3 : Canon P s3 := canon_same hs2 rfl
  exact modJob_canon (dropDeferred_canon hs3)

theorem flipAll_canon {s : State} {pid : BitVec 12} (hs : Canon P s) : Canon P (s.flipAll pid) := by
  unfold State.flipAll
  extract_lets owned
  exact canon_foldl (fun _ _ ht => flip_canon ht) hs

theorem dropVirtual_canon {s : State} {pid : BitVec 12} (hs : Canon P s) : Canon P (s.dropVirtual pid) := by
  unfold State.dropVirtual
  have hs1 : Canon P { s with transit := s.transit.filter (fun m => m.pid ≠ pid) } := canon_same hs rfl
  exact modJob_canon hs1

theorem releaseContext_canon {s : State} {pid : BitVec 12} (hs : Canon P s) : Canon P (s.releaseContext pid) := by
  unfold State.releaseContext
  extract_lets s1 s2 s3
  have hs1 : Canon P s1 := dropVirtual_canon (flipAll_canon (discardAll_canon hs))
  have hs2 : Canon P s2 := modOptics_canon hs1
  have hs3 : Canon P s3 := leaveFt_canon (modJob_canon hs2)
  exact canon_same hs3 (by dsimp only)

theorem reportDump_canon {s : State} {pid : BitVec 12} (hs : Canon P s) : Canon P (s.reportDump pid) := by
  unfold State.reportDump
  extract_lets s1
  have hs1 : Canon P s1 := execEvent_canon hs
  exact modJob_canon (canon_same hs1 rfl)

theorem dumpFailed_canon {s : State} {pid : BitVec 12} {area : Nat} (hs : Canon P s) : Canon P (s.dumpFailed pid area) := by
  unfold State.dumpFailed
  exact deviceFatal_canon (note_canon hs)

theorem execDumpSequence_answers {s : State} (hs : Canon P s) : Answers P (execDumpSequence s) := by
  unfold execDumpSequence
  split
  · exact answers_next (freeze_canon hs)
  · split
    · exact answers_next hs
    · refine answers_ite (answers_next hs) ?_
      extract_lets +onlyGivenNames s1
      have hs1 : Canon P s1 := settleStrands_canon hs
      split
      · exact answers_next (reportDump_canon (releaseContext_canon hs1))
      · refine answers_ite (answers_next (dumpFailed_canon hs1)) ?_
        extract_lets s2
        have hs2 : Canon P s2 := writeDump_canon hs1
        refine answers_ite (answers_next (modJob_canon hs2)) ?_
        exact answers_next (reportDump_canon (releaseContext_canon hs2))

theorem compatStep_canon {s : State} {pid : BitVec 12} {k : Nat} (hs : Canon P s) : Canon P (s.compatStep pid k) := by
  unfold State.compatStep
  split
  · exact canon_same hs rfl
  · exact discardAll_canon hs
  · exact canon_foldl (fun _ _ ht => dropRequest_canon ht) (dropVirtual_canon hs)
  · exact modOptics_canon hs
  · exact flipAll_canon hs
  · exact canon_same hs rfl
  · exact canon_same hs rfl
  · exact hs

theorem execCompatEngineReset_answers {s : State} (hs : Canon P s) : Answers P (execCompatEngineReset s) := by
  unfold execCompatEngineReset
  split
  · exact answers_next hs
  · extract_lets +onlyGivenNames j
    refine answers_ite (answers_next hs) ?_
    extract_lets s1
    have hs1 : Canon P s1 := modJob_canon (compatStep_canon hs)
    exact answers_ite (answers_next hs1) (answers_next (reportDump_canon hs1))

/-! ## Platform -/

theorem coldReset_canon {s : State} (hs : Canon P s) : Canon P s.coldReset := by
  unfold State.coldReset
  extract_lets p x0
  have hx0 : Canon P x0 := reset_canon
  exact canon_filter hs rfl

theorem warmReset_canon {s : State} (hs : Canon P s) : Canon P s.warmReset := by
  unfold State.warmReset
  extract_lets p c
  have hc : Canon P c := coldReset_canon hs
  exact retiredDigital_canon (canon_same hc rfl)

theorem startExecutive_canon {s : State} {e : BitVec 2 × BitVec 512} (hs : Canon P s) : Canon P (s.startExecutive e) := by
  unfold State.startExecutive
  extract_lets n words _ r
  exact canon_ite hs (modJob_canon (setSlot_canon hs))

theorem retireElevs_canon {s : State} {l : List (BitVec 6)} (hs : Canon P s) : Canon P (s.retireElevs l) := by
  unfold State.retireElevs
  exact canon_foldl (fun _ _ ht => by
      split
      · next _ e0 =>
          exact canon_of_next (execElevatorRetire_answers ht) e0
      · exact ht) hs

theorem execBootSequence_answers {err : BitVec 8} {version : Nat} {coreMap : BitVec 256 × List (BitVec 6)}
    {tables : List Nat × List Nat} {starts : List (BitVec 2 × BitVec 512)} {s : State} (hs : Canon P s) :
    Answers P (execBootSequence err version coreMap tables starts s) := by
  unfold execBootSequence
  refine answers_ite (answers_next hs) ?_
  split
  · exact answers_next hs
  · extract_lets +onlyGivenNames s0
    have hs0 : Canon P s0 := modPlat_canon hs
    refine answers_ite (answers_next (modPlat_canon hs0)) ?_
    refine answers_ite (answers_next (modPlat_canon hs0)) ?_
    extract_lets fit s1
    have hs1 : Canon P s1 := retireElevs_canon (retiredDigital_canon (tableChange_canon (modPlat_canon hs0)))
    exact answers_next (canon_foldl (fun _ _ ht => startExecutive_canon ht) hs1)

theorem execAperturesOpen_answers {s : State} (hs : Canon P s) : Answers P (execAperturesOpen s) := by
  unfold execAperturesOpen
  refine answers_ite (answers_next hs) ?_
  extract_lets s1
  have hs1 : Canon P s1 := tableChange_canon (modPlat_canon hs)
  exact answers_next (trainAll_canon (serviceTiles_canon (calibAll_canon hs1)))

theorem fabcfgPut_canon {s : State} {v : Word} (hs : Canon P s) : Canon P (s.fabcfgPut v) := by
  unfold State.fabcfgPut
  refine canon_ite hs ?_
  extract_lets s1
  have hs1 : Canon P s1 := modPlat_canon hs
  exact canon_ite hs1 (canon_ite (trainAll_canon (tableChange_canon hs1)) (tableChange_canon hs1))

theorem keyBegin_canon {s : State} {pid : BitVec 12} {op : BitVec 2} (hs : Canon P s) : Canon P (s.keyBegin pid op) := by
  unfold State.keyBegin
  exact canon_ite hs (modPlat_canon hs)

theorem execKeyctlDone_answers {s : State} (hs : Canon P s) : Answers P (execKeyctlDone s) := by
  unfold execKeyctlDone
  extract_lets p s1
  have hs1 : Canon P s1 := modPlat_canon hs
  split
  · exact answers_next (modPlat_canon (modJob_canon hs1))
  · exact answers_next (modJob_canon hs1)
  · exact answers_next hs

theorem windowRefuse_canon {s : State} (hs : Canon P s) : Canon P s.windowRefuse := by
  unfold State.windowRefuse
  exact modPlat_canon hs

theorem execWindowRead_answers {off len : Nat} {s : State} (hs : Canon P s) : Answers P (execWindowRead off len s) := by
  unfold execWindowRead
  refine answers_ite (answers_next (modPlat_canon hs)) ?_
  exact answers_ite (answers_next (modPlat_canon hs)) (answers_next (modPlat_canon (windowRefuse_canon hs)))

theorem execWindowWrite_answers {off : Nat} {data : List (BitVec 8)} {s : State} (hs : Canon P s) :
    Answers P (execWindowWrite off data s) := by
  unfold execWindowWrite
  refine answers_ite (answers_next hs) ?_
  exact answers_ite (answers_next (homePut_canon hs)) (answers_next (windowRefuse_canon hs))

theorem launchRecord_canon {s : State} {queue : Nat} {r : BitVec 512} (hs : Canon P s) : Canon P (s.launchRecord queue r) := by
  unfold State.launchRecord
  extract_lets q
  exact canon_ite (modQueue_canon hs) (modQueue_canon hs)

theorem execLaunchRecordWrite_answers {queue off : Nat} {data : List (BitVec 8)} {s : State} (hs : Canon P s) :
    Answers P (execLaunchRecordWrite queue off data s) := by
  unfold execLaunchRecordWrite
  refine answers_ite (answers_next hs) ?_
  refine answers_ite (answers_next (canon_foldl (fun _ _ ht => launchRecord_canon ht) hs)) ?_
  exact answers_next (modQueue_canon hs)

theorem execServiceLaunch_answers {queue : Nat} {s : State} (hs : Canon P s) : Answers P (execServiceLaunch queue s) := by
  unfold execServiceLaunch
  extract_lets +onlyGivenNames q
  split
  · exact answers_next hs
  · extract_lets +onlyGivenNames s1
    have hs1 : Canon P s1 := modQueue_canon hs
    refine answers_ite (answers_next (modQueue_canon hs1)) ?_
    extract_lets l
    split
    · next _ e0 =>
        exact answers_next ((spawnWords_canon hs1) _ e0)
    · exact answers_next (note_canon (modQueue_canon hs1))

theorem qctlPut_canon {s : State} {queue : Nat} {v : Word} (hs : Canon P s) : Canon P (s.qctlPut queue v) := by
  unfold State.qctlPut
  exact canon_ite hs (modQueue_canon hs)

theorem mailCommand_canon {s : State} {v : Word} (hs : Canon P s) : Canon P (s.mailCommand v) := by
  unfold State.mailCommand
  exact canon_ite (modPlat_canon hs) hs

theorem execAttest_answers {s : State} (hs : Canon P s) : Answers P (execAttest s) := by
  unfold execAttest
  refine answers_ite (answers_next hs) ?_
  exact answers_ite (answers_next (modPlat_canon hs)) (answers_next (modPlat_canon (tickFree_canon hs)))

theorem execFwwrite_answers {s : State} (hs : Canon P s) : Answers P (execFwwrite s) := by
  unfold execFwwrite
  refine answers_ite (answers_next hs) ?_
  extract_lets off len
  exact answers_ite (answers_next (modPlat_canon hs)) (answers_next (modPlat_canon hs))

theorem execMailboxCommandDone_answers {flashOk : Bool} {s : State} (hs : Canon P s) :
    Answers P (execMailboxCommandDone flashOk s) := by
  unfold execMailboxCommandDone
  extract_lets +onlyGivenNames p c
  refine answers_ite (answers_next hs) ?_
  extract_lets bad code
  clear_value code
  split
  · exact answers_next hs
  · exact answers_next (modPlat_canon hs)

theorem mailPut_canon {s : State} {off : Nat} {v : Word} (hs : Canon P s) : Canon P (s.mailPut off v) := by
  unfold State.mailPut
  exact canon_ite (mailCommand_canon hs) (canon_ite (modPlat_canon hs) (canon_ite (modPlat_canon hs) hs))

theorem scanBegin_canon {s : State} (hs : Canon P s) : Canon P s.scanBegin := by
  unfold State.scanBegin
  extract_lets +onlyGivenNames p n
  refine canon_ite hs ?_
  extract_lets +onlyGivenNames run
  have hrun : ∀ st, Canon P (run st) := fun _ => modPlat_canon hs
  refine canon_ite (canon_foldl (fun _ _ ht => canon_ite (modCore_canon ht) ht) (hrun _)) ?_
  extract_lets back _ s1 here
  have hs1 : Canon P s1 := canon_same (hrun 1) rfl
  exact scanEmpty_canon (canon_foldl (fun _ _ ht => modSlot_canon ht) hs1)

theorem scanctlPut_canon {s : State} {v : Word} (hs : Canon P s) : Canon P (s.scanctlPut v) := by
  unfold State.scanctlPut
  extract_lets s1
  have hs1 : Canon P s1 := modPlat_canon hs
  exact canon_ite (scanBegin_canon hs1) hs1

theorem scanEnd_canon {s : State} {result : BitVec 4} {counts : Bool} (hs : Canon P s) : Canon P (s.scanEnd result counts) := by
  unfold State.scanEnd
  extract_lets p s1
  have hs1 : Canon P s1 := modPlat_canon hs
  exact canon_ite (modCore_canon hs1) hs1

theorem execScanDrainTimeout_answers {s : State} (hs : Canon P s) : Answers P (execScanDrainTimeout s) := by
  unfold execScanDrainTimeout
  extract_lets +onlyGivenNames p
  refine answers_ite (answers_next hs) ?_
  extract_lets mine s1
  have hs1 : Canon P s1 := canon_foldl (fun _ _ ht => modSlot_canon ht) hs
  exact answers_next (offerOverflow_canon (scanEnd_canon hs1))

theorem scanDrain_canon {s : State} {core : Nat} (hs : Canon P s) : Canon P (s.scanDrain core) := by
  unfold State.scanDrain
  exact canon_foldl (fun _ _ ht => by
      split
      · next _ e0 =>
          exact canon_of_next (execPreemptWriteback_answers ht) e0
      · exact ht) hs

theorem execScanAbort_answers {item : Nat} {s : State} (hs : Canon P s) : Answers P (execScanAbort item s) := by
  unfold execScanAbort
  split
  · exact answers_next hs
  · extract_lets +onlyGivenNames c near
    refine answers_ite (answers_next hs) ?_
    extract_lets +onlyGivenNames s0
    have hs0 : Canon P s0 := canon_ite (scanDrain_canon hs) hs
    refine answers_ite (answers_next hs0) ?_
    extract_lets s1
    have hs1 : Canon P s1 := scanEnd_canon hs0
    split
    · exact answers_next (takeItem_canon hs1)
    · exact answers_next hs1

theorem coreFails_canon {s : State} {core : Nat} (hs : Canon P s) : Canon P (s.coreFails core) := by
  unfold State.coreFails
  exact serviceTiles_canon (retiredDigital_canon (tableChange_canon (modPlat_canon hs)))

theorem execScanPatternDone_answers {pass : Bool} {s : State} (hs : Canon P s) : Answers P (execScanPatternDone pass s) := by
  unfold execScanPatternDone
  extract_lets +onlyGivenNames p
  refine answers_ite (answers_next hs) ?_
  extract_lets +onlyGivenNames s1
  have hs1 : Canon P s1 := scanEnd_canon hs
  refine answers_ite ?_ ?_
  · extract_lets s2
    have hs2 : Canon P s2 := canon_foldl (fun _ _ ht => canon_ite (modCore_canon ht) ht) hs1
    exact answers_ite (answers_next hs2) (execElevatorRetire_answers hs2)
  · exact answers_ite (answers_next (offerOverflow_canon hs1)) (answers_next (coreFails_canon hs1))

theorem lctlPut_canon {s : State} {port : Nat} {v : Word} (hs : Canon P s) : Canon P (s.lctlPut port v) := by
  unfold State.lctlPut
  split
  · exact hs
  · extract_lets s1 s2
    have hs1 : Canon P s1 := modPort_canon hs
    have hs2 : Canon P s2 := canon_ite hs1 (portEnable_canon hs1)
    exact canon_ite (retrain_canon hs2) hs2

theorem portPut_canon {s : State} {port off : Nat} {v : Word} (hs : Canon P s) : Canon P (s.portPut port off v) := by
  unfold State.portPut
  exact canon_ite (lctlPut_canon hs) (canon_ite (modPort_canon hs) hs)

theorem devctlPut_canon {s : State} {v : Word} (hs : Canon P s) : Canon P (s.devctlPut v) := by
  unfold State.devctlPut
  exact canon_ite (coldReset_canon hs) (canon_ite (warmReset_canon hs) hs)

theorem winctlPut_canon {s : State} {v : Word} (hs : Canon P s) : Canon P (s.winctlPut v) := by
  unfold State.winctlPut
  exact modPlat_canon hs

theorem keyctlPut_canon {s : State} {v : Word} (hs : Canon P s) : Canon P (s.keyctlPut v) := by
  unfold State.keyctlPut
  exact canon_ite hs (modPlat_canon hs)

theorem regWrite_canon {s : State} {off : Nat} {v : Word} (hs : Canon P s) : Canon P (s.regWrite off v) := by
  unfold State.regWrite
  refine canon_ite hs ?_
  refine canon_ite (devctlPut_canon hs) ?_
  refine canon_ite (fabcfgPut_canon hs) ?_
  refine canon_ite (winctlPut_canon hs) ?_
  refine canon_ite (keyctlPut_canon hs) ?_
  refine canon_ite (scanctlPut_canon hs) ?_
  refine canon_ite (qctlPut_canon hs) ?_
  refine canon_ite (portPut_canon hs) ?_
  refine canon_ite (modPlat_canon hs) ?_
  exact canon_ite (laserReq_canon hs) (canon_ite (skctlPut_canon hs) (canon_ite (mailPut_canon hs) hs))

/-! ## The barrel -/

theorem fetchAt_canon {s : State} {n : Nat} {a : Word} (hs : Canon P s) : Canon P (s.fetchAt n a).2 := by
  unfold State.fetchAt
  split
  · exact hs
  · split
    · next _ _ e =>
        exact modSlot_canon (canon_of_snd (fetchWord_canon hs) e)
    · exact fetchWord_canon hs

theorem fetchRest_canon {s : State} {n : Nat} {pc : Word} {w : BitVec 32} (hs : Canon P s) :
    Canon P (s.fetchRest n pc w).2 := by
  unfold State.fetchRest
  extract_lets found
  refine canon_ite_snd hs ?_
  refine canon_ite_snd hs ?_
  split
  · next _ _ e0 =>
      exact canon_of_snd (fetchAt_canon hs) e0
  · next _ e1 =>
      exact canon_of_snd (fetchAt_canon hs) e1
  · next _ _ e2 =>
      exact canon_of_snd (fetchAt_canon hs) e2

theorem fetchNext_canon {s : State} {n : Nat} (hs : Canon P s) : Canon P (s.fetchNext n).2 := by
  unfold State.fetchNext
  extract_lets x pc
  refine canon_ite_snd ?_ ?_
  · split
    · next _ _ e0 =>
        exact canon_of_snd (translate_canon hs) e0
    · next _ _ e1 =>
        exact canon_of_snd (translate_canon hs) e1
  · split
    · next _ _ e2 =>
        exact canon_of_snd (fetchAt_canon hs) e2
    · next _ e3 =>
        exact canon_of_snd (fetchAt_canon hs) e3
    · next _ _ e4 =>
        refine canon_ite_snd (canon_of_snd (fetchAt_canon hs) e4) ?_
        split
        · next _ _ e5 =>
            exact canon_of_snd (canon_ite_snd (targetBy_canon (canon_of_snd (fetchAt_canon hs) e4)) (canon_of_snd
                (fetchAt_canon hs) e4)) e5
        · next _ e6 =>
            exact fetchRest_canon (canon_of_snd (canon_ite_snd (targetBy_canon (canon_of_snd (fetchAt_canon hs) e4))
                (canon_of_snd (fetchAt_canon hs) e4)) e6)

theorem countVisit_canon {s : State} {n : Nat} {reason : Option Nat} {slc : Nat} (hs : Canon P s) :
    Canon P (s.countVisit n reason slc) := by
  unfold State.countVisit
  extract_lets x s1
  have hs1 : Canon P s1 := by
    unfold s1
    split
    · exact canon_ite hs (profVisit_canon hs)
    · exact hs
  exact modCore_canon hs1

theorem passSlot_canon {s : State} {n : Nat} {p : SlotPass} (hs : Canon P s) : Canon P (s.passSlot n p) := by
  unfold State.passSlot
  extract_lets s1
  have hs1 : Canon P s1 := countVisit_canon hs
  exact canon_ite (modSlot_canon hs1) (canon_ite (fetchAsk_canon hs1) (canon_ite (sendBuffers_canon hs1) hs1))

theorem passAll_canon {s : State} {l : List (Nat × SlotPass)} (hs : Canon P s) : Canon P (s.passAll l) := by
  unfold State.passAll
  exact canon_foldl (fun _ _ ht => passSlot_canon ht) hs

theorem startRound_canon {s : State} {core ready : Nat} (hs : Canon P s) : Canon P (s.startRound core ready) := by
  unfold State.startRound
  extract_lets c
  exact canon_ite (modCore_canon hs) hs

theorem follow_canon {s : State} {core : Nat} (hs : Canon P s) : Canon P (s.follow core) := by
  unfold State.follow
  exact canon_same hs rfl

theorem tick_canon {s : State} {core : Nat} (hs : Canon P s) : Canon P (s.tick core) := by
  unfold State.tick
  exact follow_canon (modCore_canon hs)

theorem endRound_canon {s : State} {core : Nat} (hs : Canon P s) : Canon P (s.endRound core) := by
  unfold State.endRound
  exact modCore_canon hs

theorem idleRound_canon {s : State} {core : Nat} {passes : List (Nat × SlotPass)} (hs : Canon P s) :
    Canon P (s.idleRound core passes) := by
  unfold State.idleRound
  exact endRound_canon (tick_canon (passAll_canon (startRound_canon hs)))

theorem enterVisit_canon {s : State} {core n : Nat} {passes : List (Nat × SlotPass)} (hs : Canon P s) :
    Canon P (s.enterVisit core n passes) := by
  unfold State.enterVisit
  exact setFocus_canon (modCore_canon (countVisit_canon (passAll_canon (startRound_canon hs))))

theorem fetched_canon {s : State} {n : Nat} {hintFault : Bool} (hs : Canon P s) : Canon P (s.fetched n hintFault) := by
  unfold State.fetched
  exact modSlot_canon (engineForget_canon (fetchNext_canon hs))

theorem issued_canon {s : State} {core n : Nat} {pre : Slot} {u : Use} (hs : Canon P s) : Canon P (s.issued core n pre u) := by
  unfold State.issued
  extract_lets +onlyGivenNames x c done
  refine canon_ite hs ?_
  extract_lets l keep s1
  have hs1 : Canon P s1 := modSlot_canon hs
  split
  · exact hs1
  · exact modCore_canon hs1
  · exact modCore_canon hs1

theorem takeLate_canon {s : State} {n : Nat} {f : HeldFault} (hs : Canon P s) : Canon P (s.takeLate n f) := by
  unfold State.takeLate
  extract_lets clear s1 pc
  have hs1 : Canon P s1 := modSlot_canon hs
  exact canon_ite (takeTrap_canon hs1) (raiseFault_canon hs1)

theorem takeStep_canon {s : State} {n : Nat} (hs : Canon P s) : Canon P (s.takeStep n) := by
  unfold State.takeStep
  exact raiseAt_canon (modSlot_canon hs)

/-! ## Constant and literal operands -/

theorem constFadd_answers {s : State} {len : Nat} {d a : BitVec 5} {k : BitVec 32} {h : BitVec 2} (hs : Canon P s) :
    Answers P (s.constFadd len d a k h) := by
  unfold State.constFadd
  exact issue_answers hs (doneFp_answers hs)

theorem constFsub_answers {s : State} {len : Nat} {d a : BitVec 5} {k : BitVec 32} {h : BitVec 2} (hs : Canon P s) :
    Answers P (s.constFsub len d a k h) := by
  unfold State.constFsub
  exact issue_answers hs (doneFp_answers hs)

theorem constFmul_answers {s : State} {len : Nat} {d a : BitVec 5} {k : BitVec 32} {h : BitVec 2} (hs : Canon P s) :
    Answers P (s.constFmul len d a k h) := by
  unfold State.constFmul
  exact issue_answers hs (doneFp_answers hs)

theorem constFma_answers {s : State} {len : Nat} {d a : BitVec 5} {k : BitVec 32} {h : BitVec 2} (hs : Canon P s) :
    Answers P (s.constFma len d a k h) := by
  unfold State.constFma
  exact issue_answers hs (doneFp_answers hs)

theorem constFnma_answers {s : State} {len : Nat} {d a : BitVec 5} {k : BitVec 32} {h : BitVec 2} (hs : Canon P s) :
    Answers P (s.constFnma len d a k h) := by
  unfold State.constFnma
  exact issue_answers hs (doneFp_answers hs)

theorem constFmin_answers {s : State} {len : Nat} {d a : BitVec 5} {k : BitVec 32} {h : BitVec 2} (hs : Canon P s) :
    Answers P (s.constFmin len d a k h) := by
  unfold State.constFmin
  exact issue_answers hs (doneFp_answers hs)

theorem constFmax_answers {s : State} {len : Nat} {d a : BitVec 5} {k : BitVec 32} {h : BitVec 2} (hs : Canon P s) :
    Answers P (s.constFmax len d a k h) := by
  unfold State.constFmax
  exact issue_answers hs (doneFp_answers hs)

theorem constFmov_answers {s : State} {len : Nat} {d : BitVec 5} {k : BitVec 32} {h : BitVec 2} (hs : Canon P s) :
    Answers P (s.constFmov len d k h) := by
  unfold State.constFmov
  exact issue_answers hs (doneFlags_answers hs)

theorem constAdd_answers {s : State} {len : Nat} {d a : BitVec 5} {k : BitVec 32} {h : BitVec 2} (hs : Canon P s) :
    Answers P (s.constAdd len d a k h) := by
  unfold State.constAdd
  exact issue_answers hs (doneFlags_answers hs)

theorem constAnd_answers {s : State} {len : Nat} {d a : BitVec 5} {k : BitVec 32} {h : BitVec 2} (hs : Canon P s) :
    Answers P (s.constAnd len d a k h) := by
  unfold State.constAnd
  exact issue_answers hs (doneFlags_answers hs)

theorem constOr_answers {s : State} {len : Nat} {d a : BitVec 5} {k : BitVec 32} {h : BitVec 2} (hs : Canon P s) :
    Answers P (s.constOr len d a k h) := by
  unfold State.constOr
  exact issue_answers hs (doneFlags_answers hs)

theorem constXor_answers {s : State} {len : Nat} {d a : BitVec 5} {k : BitVec 32} {h : BitVec 2} (hs : Canon P s) :
    Answers P (s.constXor len d a k h) := by
  unfold State.constXor
  exact issue_answers hs (doneFlags_answers hs)

theorem constMov_answers {s : State} {len : Nat} {d : BitVec 5} {k : BitVec 32} {h : BitVec 2} (hs : Canon P s) :
    Answers P (s.constMov len d k h) := by
  unfold State.constMov
  exact issue_answers hs (doneFlags_answers hs)

theorem constMovn_answers {s : State} {len : Nat} {d : BitVec 5} {k : BitVec 32} {h : BitVec 2} (hs : Canon P s) :
    Answers P (s.constMovn len d k h) := by
  unfold State.constMovn
  exact issue_answers hs (doneFlags_answers hs)

theorem constCmpEq_answers {s : State} {len : Nat} {d a : BitVec 5} {k : BitVec 32} {h : BitVec 2} (hs : Canon P s) :
    Answers P (s.constCmpEq len d a k h) := by
  unfold State.constCmpEq
  exact issue_answers hs (doneFlags_answers hs)

theorem constCmpLt_answers {s : State} {len : Nat} {d a : BitVec 5} {k : BitVec 32} {h : BitVec 2} (hs : Canon P s) :
    Answers P (s.constCmpLt len d a k h) := by
  unfold State.constCmpLt
  exact issue_answers hs (doneFlags_answers hs)

/-! ## Control -/

theorem branch_answers {s : State} {h : BitVec 2} {taken : Bool} {off : BitVec 14} (hs : Canon P s) :
    Answers P (s.branch h taken off) := by
  unfold State.branch
  exact answers_ite (jump_answers hs) (done_answers hs)

theorem loopAny_answers {s : State} {n : BitVec 5} {count : Word} {m : BitVec 14} {h : BitVec 2} (hs : Canon P s) :
    Answers P (s.loopAny n count m h) := by
  unfold State.loopAny
  extract_lets +onlyGivenNames x n2 lastW id
  split
  · next _ _ e0 =>
      exact raise_answers (engineForget_canon (canon_of_snd (fetchBy_canon hs) e0))
  · next _ e1 =>
      exact answers_next (parkAt_canon (fetchAsk_canon (canon_of_snd (fetchBy_canon hs) e1)))
  · next _ _ e2 =>
      extract_lets s1 fin
      have hs1 : Canon P s1 := engineForget_canon (canon_of_snd (fetchBy_canon hs) e2)
      refine answers_ite (raise_answers hs1) ?_
      exact answers_ite (raise_answers hs1) (answers_ite (raise_answers hs1) (answers_next (modHart_canon hs1)))

/-! ## Events of cores -/

theorem execSoftError_answers {site : SoftSite} {correctable : Bool} {pid : BitVec 12} {addr : BitVec 64} {s : State}
    (hs : Canon P s) : Answers P (execSoftError site correctable pid addr s) := by
  unfold execSoftError
  refine answers_ite (answers_next (note_canon (canon_same hs rfl))) ?_
  extract_lets s1
  have hs1 : Canon P s1 := note_canon (canon_same hs rfl)
  split
  · exact answers_next (deviceFatal_canon hs1)
  · exact answers_next (canon_ite (modSlot_canon hs1) hs1)
  · exact answers_next (canon_same hs1 rfl)

/-! ## Vector integers -/

theorem vecCmpInt_answers {s : State} {d : BitVec 3} {a b : BitVec 5} {p : BitVec 3} {h : BitVec 2} {signed : Bool}
    {rel : Int → Int → Bool} (hs : Canon P s) : Answers P (s.vecCmpInt d a b p h signed rel) := by
  unfold State.vecCmpInt
  extract_lets x val
  exact issue_answers hs (done_answers hs)

/-! ## Other vector instructions -/

theorem execVrngf_answers {v a b : BitVec 5} {p : BitVec 3} {h : BitVec 2} {s : State} (hs : Canon P s) :
    Answers P (execVrngf v a b p h s) := by
  unfold execVrngf
  extract_lets x
  refine issue_answers hs ?_
  split
  · exact vecMap_answers hs
  · exact raise_answers hs

/-! ## Steps -/

theorem exec_answers {i : Instr} {s : State} (hs : Canon P s) : Answers P (exec i s) := by
  cases i with
  | add | sub | and | or | xor | andn | orn | xnor | sll | srl | sra | rol | mul | mulh | mulhn | div | divn | rem | remn
  | min | max | minn | maxn | clz | ctz | popc | brev | bswap | sextB | sextH | sextW | zextB | zextH | zextW | cmpEq
  | cmpNe | cmpLt | cmpGe | cmpLtn | cmpGen | sel | sllImm | srlImm | sraImm | rolImm | addW | subW | sllW | srlW | sraW
  | rolW | mulW | divW | divnW | remW | remnW | sllWImm | srlWImm | sraWImm | rolWImm | addImm | andImm | orImm | xorImm
  | cmpLtImm | cmpLtnImm | fabs | fneg | fmov | pcnt | vext =>
    exact issue_answers hs (doneG_answers hs)
  | adds | subs | addsn | subsn | fcmpEq | fcmpLt | fcmpLe | fcmpUn | fcvtI32F | fcvtI64F | fcvtN32F | fcvtN64F | fcvtFI32
  | fcvtFI64 | fcvtFN32 | fcvtFN64 =>
    exact issue_answers hs (doneFlags_answers hs)
  | fadd | fsub | fmul | fdiv | fma | fnma | fsqrt | fmin | fmax =>
    exact issue_answers hs (doneFp_answers hs)
  | faddK | faddLit =>
    exact constFadd_answers hs
  | fsubK | fsubLit =>
    exact constFsub_answers hs
  | fmulK | fmulLit =>
    exact constFmul_answers hs
  | fmaK | fmaLit =>
    exact constFma_answers hs
  | fnmaK | fnmaLit =>
    exact constFnma_answers hs
  | fminK | fminLit =>
    exact constFmin_answers hs
  | fmaxK | fmaxLit =>
    exact constFmax_answers hs
  | fmovK | fmovLit =>
    exact constFmov_answers hs
  | addK | addLit =>
    exact constAdd_answers hs
  | andK | andLit =>
    exact constAnd_answers hs
  | orK | orLit =>
    exact constOr_answers hs
  | xorK | xorLit =>
    exact constXor_answers hs
  | movK | movLit =>
    exact constMov_answers hs
  | movnK | movnLit =>
    exact constMovn_answers hs
  | cmpEqK | cmpEqLit =>
    exact constCmpEq_answers hs
  | cmpLtK | cmpLtLit =>
    exact constCmpLt_answers hs
  | beqz | bnez | bltz | bgez | bgtz | blez | bany | ball | bnone =>
    exact issue_answers hs (branch_answers hs)
  | j | call | jr | callr =>
    exact issue_answers hs (jump_answers hs)
  | loop | loopi =>
    exact issue_answers hs (loopAny_answers hs)
  | nop | pand | por | pxor | pandn | pnot | pfirst | pset | vpkBfp8 | vupkBfp8 | vins | vzero =>
    exact issue_answers hs (done_answers hs)
  | ldL =>
    exact scalarLdL_answers hs
  | stL =>
    exact scalarStL_answers hs
  | ldS =>
    exact scalarLdS_answers hs
  | stS =>
    exact scalarStS_answers hs
  | ldG =>
    exact scalarLdG_answers hs
  | stG =>
    exact scalarStG_answers hs
  | vldL =>
    exact vecLdL_answers hs
  | vstL =>
    exact vecStL_answers hs
  | vldS =>
    exact vecLdS_answers hs
  | vstS =>
    exact vecStS_answers hs
  | vldG =>
    exact vecLdG_answers hs
  | vstG =>
    exact vecStG_answers hs
  | vgthS =>
    exact gatherS_answers hs
  | vsctS =>
    exact scatterS_answers hs
  | vgthG =>
    exact gatherG_answers hs
  | vsctG =>
    exact scatterG_answers hs
  | pfG =>
    exact execPfG_answers hs
  | cwb =>
    exact execCwb_answers hs
  | cinv =>
    exact execCinv_answers hs
  | cwbi =>
    exact execCwbi_answers hs
  | bankcfg =>
    exact issue_answers hs (answers_ite (raise_answers hs) (answers_ite (raise_answers hs) (answers_ite (answers_ite
        (done_answers hs) (answers_next (modBank_canon (parkAt_canon hs)))) (answers_ite (raise_answers hs) (answers_next
        (modBank_canon (parkAt_canon (beforeAccess_canon hs))))))))
  | bankSwitch =>
    exact answers_next (bankStep_canon hs)
  | stGBNt | stGHNt | stGWNt | stGDNt =>
    exact scalarNt_answers hs
  | vadd | vsub | vmul | vfma | vfnma | vmin | vmax | vabs | vneg | vdiv | vsqrt | vrcp | vrsqrt | vexp2 | vlog2 | vscale
  | vfmov =>
    exact issue_answers hs (vecFp_answers hs)
  | vaddI | vsubI | vmulI | vmlaI | vminI | vminN | vmaxI | vmaxN | vandI | vorI | vxorI | vsllI | vsrlI | vsraI | vaddsI
  | vaddsN | vsubsI | vsubsN | vabsI | vmulhI | vmulhN | vtrn | vbcast | vperm | vmov | vsel | vrng =>
    exact issue_answers hs (vecMap_answers hs)
  | vcmpEq | vcmpNe | vcmpLt | vcmpLe | vcmpGt | vcmpGe | vcmpUn =>
    exact vecCmp_answers hs
  | vcmpEqI | vcmpNeI | vcmpLtI | vcmpLeI | vcmpGtI | vcmpGeI | vcmpEqN | vcmpNeN | vcmpLtN | vcmpLeN | vcmpGtN | vcmpGeN =>
    unfold exec
    exact vecCmpInt_answers hs
  | vrsum | vcsum | vrmax | vcmax | vrmin | vcmin | vdot =>
    exact vecReduce_answers hs
  | vcvt | vpk =>
    exact issue_answers hs (answers_ite (raise_answers hs) (done_answers hs))
  | vupk =>
    exact issue_answers hs (answers_ite (raise_answers hs) (vecMap_answers hs))
  | vrngf =>
    exact execVrngf_answers hs
  | vshape =>
    exact issue_answers hs (answers_ite (done_answers hs) (raise_answers hs))
  | vwin =>
    exact answers_ite (raise_answers hs) (issue_answers hs (done_answers hs))
  | setfmt =>
    exact execSetfmt_answers hs
  | stfmt =>
    exact execStfmt_answers hs
  | cp =>
    exact execCp_answers hs
  | cpstat =>
    exact issue_answers hs (done_answers (beforeAccess_canon hs))
  | copyStart =>
    exact execCopyStart_answers hs
  | copyComplete =>
    exact execCopyComplete_answers hs
  | pass | passAck | passr | passrAck =>
    exact passCmd_answers hs
  | pebc =>
    exact issue_answers hs (floorThen_answers hs (answers_ite (done_answers (beforeAccess_canon hs)) (answers_next
        (parkAt_canon (beforeAccess_canon hs)))))
  | pflr =>
    exact issue_answers hs (floorThen_answers hs (answers_ite (raise_answers hs) (done_answers hs)))
  | ptkt =>
    exact issue_answers hs (floorThen_answers hs (doneG_answers (beforeAccess_canon hs)))
  | phld | phldAck | phst | phstAck =>
    exact imageCmd_answers hs
  | psel | pselAck =>
    exact selCmd_answers hs
  | dcmp | dcmpAck =>
    exact decompCmd_answers hs
  | paletteLoadStart | paletteStoreStart =>
    exact loaderStart_answers hs
  | paletteLoadDone =>
    exact execPaletteLoadDone_answers hs
  | paletteStoreDone =>
    exact execPaletteStoreDone_answers hs
  | paletteSwitch =>
    exact execPaletteSwitch_answers hs
  | decompStart =>
    exact execDecompStart_answers hs
  | decompDone =>
    exact execDecompDone_answers hs
  | xmm | xmmAck | xmmStrict | xmmStrictAck =>
    exact xmmCmd_answers hs
  | xmmStart =>
    exact execXmmStart_answers hs
  | xmmComplete =>
    exact execXmmComplete_answers hs
  | coll =>
    exact issue_answers hs (answers_ite (raise_answers hs) (answers_ite (raise_answers hs) (answers_ite (answers_next
        (collRoom_canon (parkAt_canon (releaseActions_canon (beforeAccess_canon hs))))) (answers_next (parkAt_canon
        (releaseActions_canon (beforeAccess_canon hs)))))))
  | cstat =>
    exact issue_answers hs (answers_ite (raise_answers hs) (doneG_answers (beforeAccess_canon hs)))
  | migr =>
    exact execMigr_answers hs
  | spawn =>
    exact execSpawn_answers hs
  | exit =>
    unfold exec
    exact execExit_answers hs
  | cancelG | cancelGr =>
    exact cancelInstr_answers hs
  | cancelJ =>
    exact irrevocable_answers hs (answers_ite (raise_answers hs) (done_answers (cancelJob_canon (beforeAccess_canon hs))))
  | prmt =>
    exact execPrmt_answers hs
  | gdep =>
    exact execGdep_answers hs
  | gcnt =>
    exact execGcnt_answers hs
  | amoAdd | amoAnd | amoOr | amoXor | amoMin | amoMax | amoMinn | amoMaxn | amoSwap | amoCas | amoFadd =>
    exact amo_answers hs
  | redAdd | redAnd | redOr | redXor | redMin | redMax | redMinn | redMaxn | redFadd =>
    exact red_answers hs
  | amoHomePerform =>
    exact execAmoHomePerform_answers hs
  | lrw =>
    exact execLrw_answers hs
  | scr =>
    exact execScr_answers hs
  | reservationGrant =>
    exact execReservationGrant_answers hs
  | reservationTimeout =>
    exact execReservationTimeout_answers hs
  | lde =>
    exact execLde_answers hs
  | stf =>
    exact execStf_answers hs
  | ldew =>
    exact execLdew_answers hs
  | stfw =>
    exact execStfw_answers hs
  | feq =>
    exact execFeq_answers hs
  | give =>
    exact execGive_answers hs
  | ownw =>
    exact execOwnw_answers hs
  | bar =>
    exact execBar_answers hs
  | fence | rel | acq =>
    exact order_answers hs
  | orderingActionsDone =>
    exact execOrderingActionsDone_answers hs
  | msend =>
    exact execMsend_answers hs
  | mrecv =>
    exact issue_answers hs (answers_ite (raise_answers hs) (answers_next (tryRecv_canon (parkAt_canon (canon_ite
        (endHandler_canon hs) (beforeAccess_canon hs))))))
  | mend =>
    exact issue_answers hs (answers_ite (raise_answers hs) (done_answers (endHandler_canon hs)))
  | varn =>
    exact execVarn_answers hs
  | srr =>
    exact execSrr_answers hs
  | srw | srset | srclr =>
    exact sysWrite_answers hs
  | rtx =>
    exact execRtx_answers hs
  | sys =>
    exact issue_answers hs (answers_next (raiseAt_canon (modHart_canon hs)))
  | brk =>
    exact issue_answers hs (raise_answers hs)
  | clkm =>
    exact execClkm_answers hs
  | loadReturn =>
    exact execLoadReturn_answers hs
  | storePerform =>
    exact execStorePerform_answers hs
  | translationWalkDone =>
    exact execTranslationWalkDone_answers hs
  | wcDrain =>
    exact answers_next (canon_ite hs (drainAt_canon hs))
  | sysregEffectDone =>
    exact answers_ite (answers_next (modSlot_canon hs)) (answers_next hs)
  | tsinvPage =>
    exact answers_next (tsinvPage_canon hs)
  | tsinvPid =>
    exact execTsinvPid_answers hs
  | tsinvAll =>
    exact execTsinvAll_answers hs
  | elevatorRetire =>
    exact execElevatorRetire_answers hs
  | elevatorReissue =>
    exact execElevatorReissue_answers hs
  | passStart =>
    exact execPassStart_answers hs
  | leaveGrant =>
    exact execLeaveGrant_answers hs
  | groupEntry =>
    exact execGroupEntry_answers hs
  | groupOutput =>
    exact execGroupOutput_answers hs
  | groupEmulate =>
    exact execGroupEmulate_answers hs
  | passEnd =>
    exact execPassEnd_answers hs
  | swatchInject =>
    exact answers_ite (answers_next hs) (answers_next (modOpt_canon hs))
  | thermalLoop | debcEval =>
    exact answers_next (modOpt_canon hs)
  | otctlClr =>
    exact answers_ite (answers_next (optAccept_canon hs)) (answers_next hs)
  | otctlClrEffect =>
    exact execOtctlClrEffect_answers hs
  | otctlCal =>
    exact answers_next (optCal_canon hs)
  | calibEnter =>
    exact answers_ite (answers_next (tableChange_canon (modOpt_canon hs))) (answers_next hs)
  | otctlOff =>
    exact answers_next (optOff_canon hs)
  | tileCalibDone =>
    exact execTileCalibDone_answers hs
  | messageArrive =>
    exact execMessageArrive_answers hs
  | antiMessageArrive =>
    exact execAntiMessageArrive_answers hs
  | msgfull =>
    exact execMsgfull_answers hs
  | rollback =>
    exact execRollback_answers hs
  | vpRound =>
    exact execVpRound_answers hs
  | vpRoundAbandon =>
    exact answers_ite (answers_next (note_canon hs)) (answers_next hs)
  | fabricVpRound =>
    exact execFabricVpRound_answers hs
  | fabricVpRetry =>
    exact answers_ite (answers_next (modJob_canon hs)) (answers_next hs)
  | varnishPerform =>
    exact execVarnishPerform_answers hs
  | vjbsetWrite =>
    exact answers_next (vjbset_canon hs)
  | mpsetWrite =>
    exact answers_next (mpset_canon hs)
  | itemHop =>
    exact execItemHop_answers hs
  | ringRadiusGrow =>
    exact execRingRadiusGrow_answers hs
  | overflowPark =>
    exact execOverflowPark_answers hs
  | pickup =>
    exact execPickup_answers hs
  | parkEvict =>
    exact execParkEvict_answers hs
  | deferredLaunch =>
    exact execDeferredLaunch_answers hs
  | hostAddition =>
    exact execHostAddition_answers hs
  | cancelSweep =>
    exact execCancelSweep_answers hs
  | cancelTrap =>
    exact answers_ite (answers_next (canon_ite (sendBuffers_canon hs) (trapCancel_canon hs))) (answers_next hs)
  | cancelStopTimeout =>
    exact execCancelStopTimeout_answers hs
  | preemptWriteback =>
    exact execPreemptWriteback_answers hs
  | prmto =>
    exact execPrmto_answers hs
  | tilePin =>
    exact execTilePin_answers hs
  | tileUnpin =>
    exact answers_ite (answers_next (modTile_canon hs)) (answers_next hs)
  | droopDetect | governorAdjust =>
    exact answers_next (modTile_canon hs)
  | junctionOvertemp =>
    exact answers_next (deviceFatal_canon hs)
  | xholdWrite =>
    exact xhold_answers hs
  | xfatalWrite =>
    exact xfatal_answers hs
  | sresumeWrite =>
    exact answers_next (sresume_canon hs)
  | ftsetWrite =>
    exact answers_next (ftset_canon hs)
  | dumpsetWrite =>
    exact answers_next (dumpset_canon hs)
  | dumpSequence =>
    exact execDumpSequence_answers hs
  | compatEngineReset =>
    exact execCompatEngineReset_answers hs
  | dbgstopStop =>
    exact execDbgstopStop_answers hs
  | dbgstopFree =>
    exact answers_next (freeKept_canon hs)
  | profctlWrite =>
    exact answers_next (profctlPut_canon hs)
  | profileCounterClear =>
    exact answers_ite (answers_next (modCore_canon hs)) (answers_next hs)
  | evpopRead =>
    exact execEvpopRead_answers hs
  | registerWrite =>
    exact answers_next (regWrite_canon hs)
  | coldReset =>
    exact answers_next (coldReset_canon hs)
  | warmReset =>
    exact answers_next (warmReset_canon hs)
  | bootSequence =>
    exact execBootSequence_answers hs
  | aperturesOpen =>
    exact execAperturesOpen_answers hs
  | timeadjWrite =>
    exact answers_next (timeadj_canon hs)
  | fabcfgWrite =>
    exact answers_next (fabcfgPut_canon hs)
  | linkTrainDone =>
    exact execLinkTrainDone_answers hs
  | keyctlGenerate | keyctlErase =>
    exact answers_next (keyBegin_canon hs)
  | keyctlDone =>
    exact execKeyctlDone_answers hs
  | windowRead =>
    exact execWindowRead_answers hs
  | windowWrite =>
    exact execWindowWrite_answers hs
  | launchRecordWrite =>
    exact execLaunchRecordWrite_answers hs
  | serviceLaunch =>
    exact execServiceLaunch_answers hs
  | qctlWrite =>
    exact answers_next (qctlPut_canon hs)
  | qctlTear =>
    exact answers_ite (answers_next (modQueue_canon hs)) (answers_next hs)
  | attest =>
    exact execAttest_answers hs
  | ident =>
    exact answers_ite (answers_next hs) (answers_next (modPlat_canon hs))
  | fwwrite =>
    exact execFwwrite_answers hs
  | mailboxCommandDone =>
    exact execMailboxCommandDone_answers hs
  | scanStart =>
    exact answers_next (scanctlPut_canon hs)
  | scanDrainTimeout =>
    exact execScanDrainTimeout_answers hs
  | scanAbort =>
    exact execScanAbort_answers hs
  | scanPatternDone =>
    exact execScanPatternDone_answers hs
  | laserSwitchover =>
    exact execLaserSwitchover_answers hs
  | laserSwitchoverDone =>
    exact execLaserSwitchoverDone_answers hs
  | laserRequest =>
    exact answers_next (laserReq_canon hs)
  | laserTransitionDone =>
    exact execLaserTransitionDone_answers hs
  | laserWake =>
    exact answers_ite (answers_next (laserReq_canon hs)) (answers_next hs)
  | lctlRetrain =>
    exact answers_next (retrain_canon hs)
  | lctlEnable =>
    exact answers_next (portEnable_canon hs)
  | laneFailingReport | laneHealthUpdate | laneRecover | lutilWindow | nakReceive =>
    exact answers_next (modPort_canon hs)
  | narrowNegotiateDone =>
    exact execNarrowNegotiateDone_answers hs
  | groupReceive =>
    exact execGroupReceive_answers hs
  | linkRecordReceive =>
    exact execLinkRecordReceive_answers hs
  | tableAgree =>
    exact execTableAgree_answers hs
  | remoteRequestArrive =>
    exact execRemoteRequestArrive_answers hs
  | remoteReplyArrive =>
    exact execRemoteReplyArrive_answers hs
  | remoteReissue =>
    exact execRemoteReissue_answers hs
  | requestAgeDiscard =>
    exact answers_next (modRequest_canon hs)
  | replyCacheRetry =>
    exact execReplyCacheRetry_answers hs
  | migrationArrive =>
    exact execMigrationArrive_answers hs
  | migrationAck =>
    exact execMigrationAck_answers hs
  | migrationRefused =>
    exact execMigrationRefused_answers hs
  | collStart =>
    exact execCollStart_answers hs
  | collJoined =>
    exact execCollJoined_answers hs
  | chunkReceive =>
    exact execChunkReceive_answers hs
  | chunkAckReceive =>
    exact execChunkAckReceive_answers hs
  | completionWave =>
    exact execCompletionWave_answers hs
  | collRestart =>
    exact execCollRestart_answers hs
  | idleRound =>
    exact answers_next (idleRound_canon hs)
  | illegalInstruction =>
    exact answers_ite (raise_answers hs) (answers_ite (raise_answers hs) (raise_answers hs))
  | fetchFault =>
    exact raise_answers hs
  | prefetchFill =>
    exact execPrefetchFill_answers hs
  | replyCacheExpiry =>
    exact execReplyCacheExpiry_answers hs
  | softError =>
    exact execSoftError_answers hs

theorem andThen_answers {o : Result} {f : State → State} (ho : Answers P o) (hf : ∀ t, Canon P t → Canon P (f t)) :
    Answers P (andThen o f) := by
  obtain ⟨t, rfl, ht⟩ := ho
  exact answers_next (hf t ht)

theorem perform_answers {s : State} {core n : Nat} {passes : List (Nat × SlotPass)} {a : Act} (hs : Canon P s) :
    Answers P (s.perform core n passes a) := by
  unfold State.perform
  extract_lets +onlyGivenNames s1
  have hs1 : Canon P s1 := enterVisit_canon hs
  split
  · exact answers_next (tick_canon (takeStep_canon hs1))
  · exact andThen_answers (exec_answers hs1) (fun _ ht => tick_canon ht)
  · exact answers_next (tick_canon (takeLate_canon hs1))
  · exact andThen_answers (exec_answers (fetched_canon hs1)) (fun _ ht => tick_canon ht)
  · exact andThen_answers (exec_answers (fetched_canon hs1)) (fun _ ht => tick_canon ht)
  · extract_lets s2 pre
    have hs2 : Canon P s2 := consumeRegs_canon (fetched_canon hs1)
    exact andThen_answers (exec_answers hs2) (fun _ ht => tick_canon (issued_canon ht))

theorem firstChange_answers {s : State} {l : List Instr} (hs : Canon P s) : SomeAnswers P (firstChange s l) := by
  induction l with
  | nil => exact fun _ h => nomatch h
  | cons i r ih =>
    obtain ⟨t, eq, ht⟩ := exec_answers (i := i) hs
    simp only [firstChange, eq]
    split
    · exact ih
    · exact fun _ h => Option.some.inj h ▸ answers_next ht

theorem internal_answers {s : State} (hs : Canon P s) : SomeAnswers P s.internal := by
  unfold State.internal
  exact firstChange_answers (canon_same hs rfl)

theorem coreTurn_answers {s : State} {core : Nat} (hs : Canon P s) : Answers P (s.coreTurn core) := by
  unfold State.coreTurn
  split
  · exact perform_answers hs
  · next passes _ =>
    extract_lets done
    have hdone : Answers P done := answers_ite (answers_next (endRound_canon (passAll_canon hs))) (exec_answers hs)
    obtain ⟨t, eq, ht⟩ := hdone
    rw [eq]
    exact answers_getD (internal_answers ht) (answers_next ht)

theorem turn_canon {s t : State} (hs : Canon P s) (stepped : s.turn = .next t) : Canon P t := by
  unfold State.turn at stepped
  split at stepped
  · next i r _ =>
    have hs1 : Canon P { s with agenda := r } := canon_same hs rfl
    exact canon_of_next (answers_ite (exec_answers hs1) (answers_next hs1)) stepped
  · next n r _ =>
    have hs1 : Canon P { s with agenda := r } := canon_same hs rfl
    exact canon_of_next (answers_ite (answers_next hs1) (coreTurn_answers hs1)) stepped
  · split at stepped
    · cases stepped
    · refine canon_of_next ?_ stepped
      split
      · exact coreTurn_answers hs
      · exact andThen_answers (answers_getD (internal_answers hs) (answers_next hs)) (fun _ ht => canon_same ht rfl)

theorem step_canon {s t : State} (hs : Canon P s) (stepped : step s = .next t) : Canon P t := by
  unfold step at stepped
  split at stepped
  · next off v r _ =>
    have hs1 : Canon P { s with regq := r } := canon_same hs rfl
    exact canon_of_next (answers_ite (exec_answers hs1) (answers_next hs1)) stepped
  · exact turn_canon hs stepped

end

/-- Settles O34. -/
theorem stepKeepsMemoryForm : Obligations.StepKeepsMemoryForm := by
  unfold Obligations.StepKeepsMemoryForm
  intro s t canonical stepped
  exact step_canon (P := Memory.wf s.mem = true) id stepped canonical

end Sys2Proof.Proofs

namespace Sys2Proof.Proofs

/-!
What a word raises whose stall hint has failed: it has none of its effect, and raises SBHINT or a fault that comes before it
(02 R36).
-/

open Sys2Proof.Machine Sys2Proof.Claim

/-- The faults that come before SBHINT, and SBHINT (02 R36). -/
def earlyCauses : List Cause := [.illop, .vregn, .priv, .notiss, .optim, .optst, .sbhint]

/-- A result that only raises a fault of the executing word no later than SBHINT. -/
def RaisesEarly (s : State) (r : Result) : Prop :=
  ∃ c ∈ earlyCauses, r = .next (s.raiseAt s.hid c.code s.hart.pc 0 false)

theorem raisesEarly_raise {s : State} {c : Cause} (early : c ∈ earlyCauses) : RaisesEarly s (s.raise c 0) := ⟨c, early, rfl⟩

/-- With the stall hint failed one of the checks of an instruction does not pass, and none that comes after the hint's. -/
theorem needFault_early {s : State} (hint : s.hart.sbHint = true) (c : Need) : ∃ f ∈ earlyCauses, s.needFault c = some f := by
  unfold State.needFault
  extract_lets x
  split
  · exact ⟨.vregn, by decide, rfl⟩
  split
  · exact ⟨.priv, by decide, rfl⟩
  split
  · exact ⟨.notiss, by decide, rfl⟩
  split
  · exact ⟨.optim, by decide, rfl⟩
  · exact ⟨.sbhint, by decide, rfl⟩

theorem raisesEarly_issue {s : State} (hint : s.hart.sbHint = true) {c : Need} {k : Result} : RaisesEarly s (s.issue c k) := by
  obtain ⟨f, early, fault⟩ := needFault_early hint c
  unfold State.issue
  rw [fault]
  exact raisesEarly_raise early

theorem raisesEarly_ite {s : State} {p : Prop} [Decidable p] {q r : Result} (hq : RaisesEarly s q) (hr : RaisesEarly s r) :
    RaisesEarly s (if p then q else r) :=
  iteInduction (fun _ => hq) (fun _ => hr)

theorem raisesEarly_irrevocable {s : State} (hint : s.hart.sbHint = true) {k : Result} : RaisesEarly s (s.irrevocable k) :=
  raisesEarly_ite (raisesEarly_raise (by decide)) (raisesEarly_issue hint)

theorem raisesEarly_sysreg {s : State} (hint : s.hart.sbHint = true) {n : Nat} {writes : Bool} {k : Result} :
    RaisesEarly s (s.sysreg n writes k) :=
  raisesEarly_ite (raisesEarly_raise (by decide)) (raisesEarly_ite (raisesEarly_raise (by decide)) (raisesEarly_issue hint))

theorem raisesEarly_vwin {s : State} (hint : s.hart.sbHint = true) {b h : BitVec 2} : RaisesEarly s (execVwin b h s) :=
  raisesEarly_ite (raisesEarly_raise (by decide)) (raisesEarly_issue hint)

/-- Every instruction whose stall hint has failed; an event is no word. -/
theorem exec_raisesEarly {i : Instr} {s : State} (wf : i.wf = true) (hint : s.hart.sbHint = true) :
    RaisesEarly s (exec i s) := by
  cases i with
  | vwin =>
    exact raisesEarly_vwin hint
  | srr | srw | srset | srclr =>
    unfold exec
    exact raisesEarly_sysreg hint
  | spawn | gdep | cancelG | cancelGr | cancelJ =>
    unfold exec
    exact raisesEarly_irrevocable hint
  | bankSwitch | copyStart | copyComplete | paletteLoadStart | paletteLoadDone | paletteStoreStart | paletteStoreDone
  | paletteSwitch | decompStart | decompDone | xmmStart | xmmComplete | amoHomePerform | reservationGrant
  | reservationTimeout | orderingActionsDone | loadReturn | storePerform | translationWalkDone | wcDrain | sysregEffectDone
  | tsinvPage | tsinvPid | tsinvAll | elevatorRetire | elevatorReissue | passStart | leaveGrant | groupEntry | groupOutput
  | groupEmulate | passEnd | swatchInject | thermalLoop | debcEval | otctlClr | otctlClrEffect | otctlCal | calibEnter
  | otctlOff | tileCalibDone | messageArrive | antiMessageArrive | msgfull | rollback | vpRound | vpRoundAbandon
  | fabricVpRound | fabricVpRetry | varnishPerform | vjbsetWrite | mpsetWrite | itemHop | ringRadiusGrow | overflowPark
  | pickup | parkEvict | deferredLaunch | hostAddition | cancelSweep | cancelTrap | cancelStopTimeout | preemptWriteback
  | prmto | tilePin | tileUnpin | droopDetect | governorAdjust | junctionOvertemp | xholdWrite | xfatalWrite | sresumeWrite
  | ftsetWrite | dumpsetWrite | dumpSequence | compatEngineReset | dbgstopStop | dbgstopFree | profctlWrite
  | profileCounterClear | evpopRead | registerWrite | coldReset | warmReset | bootSequence | aperturesOpen | timeadjWrite
  | fabcfgWrite | linkTrainDone | keyctlGenerate | keyctlErase | keyctlDone | windowRead | windowWrite | launchRecordWrite
  | serviceLaunch | qctlWrite | qctlTear | attest | ident | fwwrite | mailboxCommandDone | scanStart | scanDrainTimeout
  | scanAbort | scanPatternDone | laserSwitchover | laserSwitchoverDone | laserRequest | laserTransitionDone | laserWake
  | lctlRetrain | lctlEnable | laneFailingReport | narrowNegotiateDone | laneHealthUpdate | laneRecover | lutilWindow
  | groupReceive | nakReceive | linkRecordReceive | tableAgree | remoteRequestArrive | remoteReplyArrive | remoteReissue
  | requestAgeDiscard | replyCacheRetry | migrationArrive | migrationAck | migrationRefused | collStart | collJoined
  | chunkReceive | chunkAckReceive | completionWave | collRestart | idleRound | illegalInstruction | fetchFault
  | prefetchFill | replyCacheExpiry | softError =>
    exact nomatch wf
  | _ =>
    unfold exec
    exact raisesEarly_issue hint

end Sys2Proof.Proofs

namespace Sys2Proof.Proofs

/-!
What a raised fault leaves: a fatal context while a trap is being handled, a fault that waits for earlier remote accesses, one
that a logical process holds, or a trap taken (15 R381; 05 R123; 13 R339).
-/

open Sys2Proof.Machine Sys2Proof.Claim

section Raised

variable {s : State} {code : BitVec 16} {xpc xval : Word}

/-! ## The executing slot after the accesses before a trap -/

theorem sendBuffers_settles (s : State) (n : Nat) : Settles s (s.sendBuffers n) := by
  unfold State.sendBuffers State.drainFar
  split
  · exact drainWcIf_settles s _ _
  · exact .refl s

theorem settles_hart_pc {t : State} (settled : Settles s t) : t.hart.pc = s.hart.pc := by
  obtain ⟨l, _, served⟩ := settled.hart
  exact served.pc

theorem orderingDone_hid (s : State) (n : Nat) : (s.orderingDone n).hid = s.hid := by
  cases waiting : (s.slotAt n).ordr with
  | none =>
    unfold State.orderingDone
    rw [waiting]
  | some o =>
    rw [orderingDone_of_some s n o waiting, State.modSlot_hid, (acquired_settles s n o).hid, (released_settles s n o).hid]

theorem hart_modSlot {t : State} {n : Nat} (f : Slot → Slot) (here : t.hid = n) : (t.modSlot n f).hart = f t.hart := by
  subst here
  rw [← State.slotAt_hid, State.modSlot_hid, State.slotAt_modSlot_same, State.slotAt_hid]

/-- A trap taken in the executing slot enters it on the slot's registers as the earlier accesses leave them (15 R381). -/
theorem takeTrap_hart (s : State) (code : BitVec 16) (xpc xval : Word) (late : Bool) :
    ∃ (x : Slot) (xvec : Word) (cycle : Nat),
      (s.takeTrap s.hid code xpc xval late).hart = x.takeTrap xvec cycle code xpc xval late := by
  refine ⟨_, _, _, hart_modSlot _ ?_⟩
  exact ((drainWcIf_settles _ _ _).hid.trans (performAll_settles _ _).hid).trans (orderingDone_hid s s.hid)

/-! ## Fatal contexts -/

theorem sketchAdd_job (s : State) (r : SkRec) (pid : BitVec 12) : (s.sketchAdd r).job pid = s.job pid := by
  unfold State.sketchAdd
  split <;> rfl

theorem chainCause_causes (s : State) (pid : BitVec 12) (e : CauseEntry) :
    ((s.chainCause pid e).job pid).causes ≠ [] := by
  unfold State.chainCause
  rw [State.job_modJob_same]
  exact List.append_ne_nil_of_right_ne_nil _ (List.cons_ne_nil e [])

theorem fatalNested_causes (s : State) (n : Nat) (code : BitVec 16) (xval : Word) :
    ((s.fatalNested n code xval).job (s.slotAt n).pid).causes ≠ [] := by
  unfold State.fatalNested State.fatalRecord
  rw [sketchAdd_job]
  exact chainCause_causes _ _ _

/-! ## The four cases of a fault of the executing instruction -/

/-- While a trap is being handled the context becomes fatal (15 R381). -/
theorem raiseAt_fatal (handling : s.hart.status.trap = true) :
    ((s.raiseAt s.hid code xpc xval false).job s.hart.pid).causes ≠ [] := by
  rw [raiseAt_nested _ _ _ _ (by rwa [State.slotAt_hid]), ← State.slotAt_hid s]
  exact fatalNested_causes _ _ _ _

/-- With remote accesses unanswered the fault waits at the instruction, whose address stands (05 R123). -/
theorem raiseAt_awaits (user : s.hart.status.trap = false) (waits : s.trapWaits s.hid = true) :
    let t := s.raiseAt s.hid code xpc xval false
    t.hart.bound.late = some { cause := code, xpc := xpc, xval := xval, late := false, final := false } ∧
      t.hart.park = none ∧ t.hart.pc = s.hart.pc := by
  intro t
  have same := hart_modSlot (t := s.sendBuffers s.hid) (fun y => { y with
      bound := { y.bound with late := some { cause := code, xpc := xpc, xval := xval, late := false, final := false } }
      park := none })
    (sendBuffers_settles s s.hid).hid
  have left : t.hart = _ :=
    (congrArg State.hart (raiseAt_waits code xpc xval false (by rwa [State.slotAt_hid]) waits)).trans same
  rw [left]
  exact ⟨rfl, rfl, settles_hart_pc (sendBuffers_settles s s.hid)⟩

/-- A logical process holds the fault and parks (13 R339). -/
theorem raiseAt_holds (user : s.hart.status.trap = false) (ready : s.trapWaits s.hid = false)
    (held : s.holdsFault s.hart code = true) :
    let t := s.raiseAt s.hid code xpc xval false
    t.hart.lp.held = some { cause := code, xpc := xpc, xval := xval, late := false, final := false } ∧
      t.hart.park = some .held ∧ t.hart.pc = s.hart.pc := by
  intro t
  have left : t.hart = _ :=
    (congrArg State.hart (raiseAt_held code xpc xval false (by rwa [State.slotAt_hid]) ready (by rwa [State.slotAt_hid]))).trans
      (hart_modSlot _ rfl)
  rw [left]
  exact ⟨rfl, rfl, rfl⟩

/-- Else the trap is taken (15 R381). -/
theorem raiseAt_traps (user : s.hart.status.trap = false) (ready : s.trapWaits s.hid = false)
    (free : s.holdsFault s.hart code = false) :
    let t := s.raiseAt s.hid code xpc xval false
    t.hart.status.trap = true ∧ t.hart.status.exec = true ∧ t.hart.xcause = code.setWidth 17 ∧ t.hart.xpc = xpc ∧
      t.hart.xval = xval := by
  intro t
  obtain ⟨x, xvec, cycle, entry⟩ := takeTrap_hart s code xpc xval false
  have left : t.hart = _ :=
    (congrArg State.hart (raiseAt_takeTrap code xpc xval false (by rwa [State.slotAt_hid]) (by rwa [State.slotAt_hid]) ready)).trans
      entry
  rw [left]
  exact ⟨rfl, rfl, by simp [Slot.takeTrap], rfl, rfl⟩

end Raised

/-- Every instruction and event answers a next state; a failed stall hint; and what a fault leaves. -/
theorem answersAndFaults : AnswersAndFaults := by
  unfold AnswersAndFaults
  refine ⟨fun i s => ?_, fun i s wf hint => exec_raisesEarly wf hint, fun s code xpc xval => ?_⟩
  · obtain ⟨t, next, _⟩ := exec_answers (P := False) (i := i) (s := s) False.elim
    exact ⟨t, next⟩
  · exact ⟨raiseAt_fatal, raiseAt_awaits, raiseAt_holds, raiseAt_traps⟩

end Sys2Proof.Proofs

namespace Sys2Proof.Proofs

/-!
The faults of the memory forms in their order, with the faulting address as XVAL (04 R82, R84, R86, R87, R98, R100, R102, R103,
R109), and that every instruction and event answers a next state.
-/

open Sys2Proof.Machine Sys2Proof.Claim

section Checks

variable {s : State} {ea : Word} {n : Nat} {q : Result}

/-! ## What the checks of one access find -/

/-- LSRANGE goes before MALN (04 R109). -/
theorem localCheck_faults (fault : ∀ c, localCheck ea n = some c → q = s.raise c ea) :
    (0x40000 ≤ ea.toNat → q = s.raise .lsrange ea) ∧
      (ea.toNat < 0x40000 → ea.toNat % n ≠ 0 → q = s.raise .maln ea) :=
  ⟨fun outside => fault _ (if_pos outside),
   fun inside odd => fault _ ((if_neg (Nat.not_le.mpr inside)).trans (if_pos odd))⟩

/-- MALN goes before the faults of the translation (04 R109). -/
theorem globalCheck_faults {acc : Acc} (fault : ∀ c s1, s.globalCheck ea n acc = (.error c, s1) → q = s1.raise c ea) :
    (ea.toNat % n ≠ 0 → q = s.raise .maln ea) ∧
      (ea.toNat % n = 0 → ∀ c s1,
        s.translate (quadOf (s.hid / 16)) s.hart.pid s.hart.status.exec ea acc = (.error c, s1) → q = s1.raise c ea) :=
  ⟨fun odd => fault _ _ (if_pos odd), fun even _ _ found => fault _ _ ((if_neg (not_not_intro even)).trans found)⟩

/-- A place is a device register, as the check of the translation asks it. -/
def isDevreg (g : Region) : Bool := match g with | .devreg _ => true | _ => false

theorem isDevreg_iff (g : Region) : isDevreg g = true ↔ ∃ off, g = .devreg off := by
  cases g <;> simp [isDevreg]

/-- The checks of a translation, in their order (04 R98). -/
theorem checkXlate_faults (s : State) (pid : BitVec 12) (exec_ : Bool) (acc : Acc) (va : Nat) (e : TlbEntry) :
    let g := s.region (e.base + va % (e.span * 2 ^ 16))
    let user := exec_ = false ∧ (e.u = false ∨ ∃ off, g = .devreg off)
    let perm := (acc = .write ∧ e.w = false) ∨ (acc = .fetch ∧ e.x = false)
    let none_ := g = .nomem ∨ (g = .hbm ∧ (s.job pid).key = none)
    (user → s.checkXlate pid exec_ acc va e = .error .tuser) ∧
    (¬user → perm → s.checkXlate pid exec_ acc va e = .error .tperm) ∧
    (¬user → ¬perm → none_ → s.checkXlate pid exec_ acc va e = .error .tnomem) ∧
    (¬user → ¬perm → ¬none_ → ∃ x, s.checkXlate pid exec_ acc va e = .ok x) := by
  intro g user perm none_
  have userIff : (!exec_ && (!e.u || isDevreg g)) = true ↔ user := by
    simp only [Bool.and_eq_true, Bool.or_eq_true, Bool.not_eq_true', isDevreg_iff, user]
  have permIff : ((decide (acc = .write) && !e.w) || (decide (acc = .fetch) && !e.x)) = true ↔ perm := by
    simp only [Bool.and_eq_true, Bool.or_eq_true, Bool.not_eq_true', decide_eq_true_eq, perm]
  have noneIff : (decide (g = .nomem) || (decide (g = .hbm) && (s.job pid).key.isNone)) = true ↔ none_ := by
    simp only [Bool.and_eq_true, Bool.or_eq_true, decide_eq_true_eq, Option.isNone_iff_eq_none, none_]
  refine ⟨fun u => if_pos (userIff.mpr u), fun u p => ?_, fun u p m => ?_, fun u p m => ?_⟩
  · exact (if_neg (mt userIff.mp u)).trans (if_pos (permIff.mpr p))
  · exact (if_neg (mt userIff.mp u)).trans ((if_neg (mt permIff.mp p)).trans (if_pos (noneIff.mpr m)))
  · exact ⟨_, (if_neg (mt userIff.mp u)).trans ((if_neg (mt permIff.mp p)).trans (if_neg (mt noneIff.mp m)))⟩

/-- TNC goes before what the station holds, which is checked without a change of the state (04 R96, R98). -/
theorem translate_faults (s : State) (q : Nat) (pid : BitVec 12) (exec_ : Bool) (va : Word) (acc : Acc) :
    (fld va 63 57 ≠ 0 → (s.translate q pid exec_ va acc).1 = .error .tnc) ∧
    (∀ e, fld va 63 57 = 0 → s.tlbFind (stationOf q va.toNat) pid va.toNat = some e →
      s.translate q pid exec_ va acc = (s.checkXlate pid exec_ acc va.toNat e, s)) := by
  refine ⟨fun high => congrArg Prod.fst (if_pos high), fun e low found => ?_⟩
  simp only [State.translate, low, ne_eq, not_true_eq_false, if_false, found]

/-! ## Scratchpad -/

section Scratchpad

variable {r : SpReq}

theorem fifoMode_ne_plain : ¬ (2 : BitVec 2) = 1 := by decide

section Pid

variable {exec_ : Bool} {own pid : BitVec 12} {q u : Except Cause SpLoc}

theorem pidCheck_foreign (user : exec_ = false) (foreign : own ≠ pid) :
    (if !exec_ && decide (own ≠ pid) then .error .sppid else q) = .error .sppid :=
  if_pos (by rw [user, decide_eq_true foreign]; rfl)

theorem pidCheck_passes (mine : exec_ = true ∨ own = pid) (rest : q = u) :
    (if !exec_ && decide (own ≠ pid) then .error .sppid else q) = u := by
  refine (if_neg ?_).trans rest
  rcases mine with level | same
  · rw [level]
    exact Bool.false_ne_true
  · rw [decide_eq_false (not_not_intro same), Bool.and_false]
    exact Bool.false_ne_true

end Pid

theorem spCheck_nowhere (nowhere : spLoc r.addr = none) : s.spCheck r = .error .sprange := by
  simp only [State.spCheck, nowhere]

theorem spCheck_unaligned {l : SpLoc} (found : spLoc r.addr = some l) (odd : r.addr.toNat % r.form.align ≠ 0) :
    s.spCheck r = .error .maln := by
  simp only [State.spCheck, found, ne_eq, odd, not_false_eq_true, if_true]

variable (even : r.addr.toNat % r.form.align = 0)

include even

/-- A control word is accessed by a scalar access of 8 bytes, and written at executive level from word 1028 on (04 R84). -/
theorem spCheck_ctl {t n : Nat} (found : spLoc r.addr = some (.ctl t n)) (plain : r.form ≠ .fullEmpty)
    (bad : r.form ≠ .scalar 8 ∨ (r.write = true ∧ (r.exec = false ∨ n < 1028))) : s.spCheck r = .error .spro := by
  simp only [State.spCheck, found, even, ne_eq, not_true_eq_false, if_false]
  split
  · next form => exact absurd form plain
  · next form =>
    obtain ⟨write, level⟩ := bad.resolve_left (not_not_intro form)
    have refused : (r.write && !(r.exec && decide (1028 ≤ n))) = true := by
      rcases level with user | low
      · rw [write, user]
        rfl
      · rw [write, decide_eq_false (Nat.not_le.mpr low), Bool.and_false]
        rfl
    exact if_pos refused
  · rfl

/-- A half checks its PID, then its owner (04 R86, R87). -/
theorem spCheck_half {t k off : Nat} {sc : Bool} (found : spLoc r.addr = some (.half t k sc off)) (plain : r.form ≠ .fullEmpty) :
    (r.exec = false → (s.tile t).pbPid ≠ r.pid → s.spCheck r = .error .sppid) ∧
    (r.exec = true ∨ (s.tile t).pbPid = r.pid → (s.tile t).halfOwner k ≠ 0 → s.spCheck r = .error .owner) := by
  have body : s.spCheck r = if !r.exec && decide ((s.tile t).pbPid ≠ r.pid) then .error .sppid
      else if (s.tile t).halfOwner k ≠ 0 then .error .owner else .ok (.half t k sc off) := by
    simp only [State.spCheck, found, even, ne_eq, not_true_eq_false, plain, if_false]
  rw [body]
  exact ⟨pidCheck_foreign, fun mine owned => pidCheck_passes mine (if_pos owned)⟩

section Bank

variable {t b off : Nat} (found : spLoc r.addr = some (.sram t b off))

include found

/-- A bank takes scratchpad accesses in scratchpad mode, and in FIFO mode those of the FIFO's sizes (04 R82). -/
theorem spCheck_mode : (((s.tile t).bank b).mode ≠ 1 → ((s.tile t).bank b).mode ≠ 2 → s.spCheck r = .error .spmode) ∧
    (((s.tile t).bank b).mode = 2 → (∃ w, r.form = .element w) → s.spCheck r = .error .spmode) := by
  refine ⟨fun plain fifo => ?_, fun fifo element => ?_⟩
  · simp only [State.spCheck, found, even, ne_eq, not_true_eq_false, if_false, plain, fifo]
  · obtain ⟨w, form⟩ := element
    rw [form] at even
    simp only [State.spCheck, found, form, even, ne_eq, not_true_eq_false, if_false, fifo, fifoMode_ne_plain, if_true]

theorem spCheck_size (fifo : ((s.tile t).bank b).mode = 2) (unsized : ¬ (r.form = .vector true ∨ r.form = .scalar 8))
    (whole : ∀ w, r.form ≠ .element w) (plain : r.form ≠ .fullEmpty) : s.spCheck r = .error .fifosz := by
  obtain ⟨notVector, notScalar⟩ := not_or.mp unsized
  cases form : r.form with
  | scalar n =>
    have other : n ≠ 8 := fun eight => notScalar (by rw [form, eight])
    rw [form] at even
    simp only [State.spCheck, found, form, even, ne_eq, not_true_eq_false, if_false, fifo, fifoMode_ne_plain, if_true, other]
  | vector m =>
    have masked : m = false := Bool.eq_false_iff.mpr (fun full => notVector (by rw [form, full]))
    subst masked
    rw [form] at even
    simp only [State.spCheck, found, form, even, ne_eq, not_true_eq_false, if_false, fifo, fifoMode_ne_plain, if_true,
      Bool.false_eq_true]
  | element w => exact absurd form (whole w)
  | fullEmpty => exact absurd form plain

/-- Past the mode a bank checks its PID, then the owner of the slab (04 R86, R87). -/
theorem spCheck_bank (passes : ((s.tile t).bank b).mode = 1 ∨
      (((s.tile t).bank b).mode = 2 ∧ (r.form = .vector true ∨ r.form = .scalar 8))) :
    s.spCheck r = if !r.exec && decide (((s.tile t).bank b).pid ≠ r.pid) then .error .sppid
      else if (decide (((s.tile t).bank b).mode = 1) && decide ((s.tile t).ownerOf (slabOf b off) ≠ 0)) = true then .error .owner
      else .ok (.sram t b off) := by
  rcases passes with mode | ⟨mode, form | form⟩
  · simp only [State.spCheck, found, even, ne_eq, not_true_eq_false, if_false, mode, if_true]
  · rw [form] at even
    simp only [State.spCheck, found, form, even, ne_eq, not_true_eq_false, if_false, mode, fifoMode_ne_plain, if_true]
  · rw [form] at even
    simp only [State.spCheck, found, form, even, ne_eq, not_true_eq_false, if_false, mode, fifoMode_ne_plain, if_true]

end Bank

/-- A bank checks its mode, its PID and the owner of the slab, in this order (04 R82, R86, R87). -/
theorem spCheck_sram {t b off : Nat} (found : spLoc r.addr = some (.sram t b off)) (plain : r.form ≠ .fullEmpty) :
    let k := (s.tile t).bank b
    let sized := r.form = .vector true ∨ r.form = .scalar 8
    (k.mode ≠ 1 → k.mode ≠ 2 → s.spCheck r = .error .spmode) ∧
    (k.mode = 2 → (∃ w, r.form = .element w) → s.spCheck r = .error .spmode) ∧
    (k.mode = 2 → ¬sized → (∀ w, r.form ≠ .element w) → s.spCheck r = .error .fifosz) ∧
    (k.mode = 1 ∨ (k.mode = 2 ∧ sized) →
      (r.exec = false → k.pid ≠ r.pid → s.spCheck r = .error .sppid) ∧
      (r.exec = true ∨ k.pid = r.pid → k.mode = 1 → (s.tile t).ownerOf (slabOf b off) ≠ 0 →
        s.spCheck r = .error .owner)) := by
  intro k sized
  obtain ⟨none_, element⟩ := spCheck_mode even found
  refine ⟨none_, element, fun fifo unsized whole => spCheck_size even found fifo unsized whole plain, fun passes => ?_⟩
  rw [spCheck_bank even found passes]
  refine ⟨pidCheck_foreign, fun mine mode owned => ?_⟩
  refine pidCheck_passes mine (if_pos ?_)
  rw [decide_eq_true mode, decide_eq_true owned]
  rfl

end Scratchpad

end Checks

section Forms

variable {s : State} {d a b v : BitVec 5} {o : BitVec 11} {p : BitVec 3} {z h : BitVec 2} {r t : BitVec 1} {c : Cause}
  {s1 : State} {va : Word}

/-! ## Scalar forms -/

theorem scalarLdL_fault (ready : Ready s Need.access) (fault : localCheck (s.eaOf b o z) (sizeOf_ z) = some c) :
    s.scalarLdL d b o z h = s.raise c (s.eaOf b o z) := by
  simp only [State.scalarLdL, issue_of_ready ready, fault]

theorem scalarStL_fault (ready : Ready s Need.access) (fault : localCheck (s.eaOf b o z) (sizeOf_ z) = some c) :
    s.scalarStL d b o z h = s.raise c (s.eaOf b o z) := by
  simp only [State.scalarStL, issue_of_ready ready, fault]

theorem scalarLdG_fault (ready : Ready s Need.access)
    (fault : s.globalCheck (s.eaOf b o z) (sizeOf_ z) .read = (.error c, s1)) :
    s.scalarLdG d b o z r h = s1.raise c (s.eaOf b o z) := by
  simp only [State.scalarLdG, issue_of_ready ready, fault]

theorem scalarStG_fault (ready : Ready s Need.access)
    (fault : s.globalCheck (s.eaOf b o z) (sizeOf_ z) .write = (.error c, s1)) :
    s.scalarStG d b o z r h = s1.raise c (s.eaOf b o z) := by
  simp only [State.scalarStG, issue_of_ready ready, fault]

theorem scalarNt_fault {n : Nat} (ready : Ready s Need.access) (fault : s.globalCheck (s.hart.getG a) n .write = (.error c, s1)) :
    s.scalarNt a b n h = s1.raise c (s.hart.getG a) := by
  simp only [State.scalarNt, issue_of_ready ready, fault]

theorem scalarLdS_fault (ready : Ready s Need.access) (free : s.bankBusy s.hart.sid (s.eaOf b o z) = none) {u : State}
    (passed : s.bankPass s.hart.sid (s.eaOf b o z) = u)
    (fault : u.spCheck (u.spReq (s.eaOf b o z) false (.scalar (sizeOf_ z))) = .error c) :
    s.scalarLdS d b o z r h = u.raise c (s.eaOf b o z) := by
  simp only [State.scalarLdS, issue_of_ready ready, bankGate_of_free free, passed, fault]

theorem scalarStS_fault (ready : Ready s Need.access) (free : s.bankBusy s.hart.sid (s.eaOf b o z) = none) {u : State}
    (passed : s.bankPass s.hart.sid (s.eaOf b o z) = u)
    (fault : u.spCheck (u.spReq (s.eaOf b o z) true (.scalar (sizeOf_ z))) = .error c) :
    s.scalarStS d b o z r h = u.raise c (s.eaOf b o z) := by
  simp only [State.scalarStS, issue_of_ready ready, bankGate_of_free free, passed, fault]

/-! ## Contiguous vector forms with an active element -/

section Contiguous

variable {ea : Word} (place : s.hart.getG a + s.hart.getG b = ea) (ready : Ready s { Need.access with vs := [v] })
  (active : s.hart.active p ≠ [])

include place ready active

theorem vecLdL_fault (fault : localCheck ea 256 = some c) : s.vecLdL v a b p h = s.raise c ea := by
  simp only [State.vecLdL, issue_of_ready ready, List.isEmpty_iff, active, if_false, place, fault]

theorem vecStL_fault (fault : localCheck ea 256 = some c) : s.vecStL v a b p h = s.raise c ea := by
  simp only [State.vecStL, issue_of_ready ready, List.isEmpty_iff, active, if_false, place, fault]

theorem vecLdG_fault (fault : s.globalCheck ea 256 .read = (.error c, s1)) : s.vecLdG v a b p r h = s1.raise c ea := by
  simp only [State.vecLdG, issue_of_ready ready, List.isEmpty_iff, active, if_false, place, fault]

theorem vecStG_fault (fault : s.globalCheck ea 256 .write = (.error c, s1)) : s.vecStG v a b p r t h = s1.raise c ea := by
  simp only [State.vecStG, issue_of_ready ready, List.isEmpty_iff, active, if_false, place, fault]

theorem vecLdS_fault (free : s.bankBusy s.hart.sid ea = none) {u : State} (passed : s.bankPass s.hart.sid ea = u)
    (fault : u.spCheck (u.spReq ea false (.vector (p = 0))) = .error c) : s.vecLdS v a b p r h = u.raise c ea := by
  simp only [State.vecLdS, issue_of_ready ready, List.isEmpty_iff, active, if_false, place, bankGate_of_free free, passed, fault]

theorem vecStS_fault (free : s.bankBusy s.hart.sid ea = none) {u : State} (passed : s.bankPass s.hart.sid ea = u)
    (fault : u.spCheck (u.spReq ea true (.vector (p = 0))) = .error c) : s.vecStS v a b p r h = u.raise c ea := by
  simp only [State.vecStS, issue_of_ready ready, List.isEmpty_iff, active, if_false, place, bankGate_of_free free, passed, fault]

end Contiguous

/-! ## Gathers and scatters -/

section Indexed

variable (ready : Ready s { Need.access with vs := [v, b] })

include ready

theorem gatherG_fault (fault : s.gatherPlaces a b .read (s.hart.active p) = (.error (c, va), s1)) :
    s.gatherG v a b p r h = s1.raise c va := by
  simp only [State.gatherG, issue_of_ready ready, fault]

theorem scatterG_fault (fault : s.gatherPlaces a b .write (s.hart.active p) = (.error (c, va), s1)) :
    s.scatterG v a b p r t h = s1.raise c va := by
  simp only [State.scatterG, issue_of_ready ready, fault]

variable {u : State} (free : s.gatherGate a b (s.hart.active p) = none) (passed : s.gatherPass a b (s.hart.active p) = u)

include free passed

theorem gatherS_fault (fault : u.gatherCheckS a b false (s.hart.active p) = some (c, va)) :
    s.gatherS v a b p r h = u.raise c va := by
  simp only [State.gatherS, issue_of_ready ready, free, passed, fault]

theorem scatterS_fault (fault : u.gatherCheckS a b true (s.hart.active p) = some (c, va)) :
    s.scatterS v a b p r h = u.raise c va := by
  simp only [State.scatterS, issue_of_ready ready, free, passed, fault]

end Indexed

/-! ## The first faulting element -/

theorem gatherCheckS_step (s : State) (a b : BitVec 5) (i : Nat) (l : List Nat) (write : Bool) :
    let ea := s.hart.gatherAddr a b i
    (∀ c, s.spCheck (s.spReq ea write (.element s.hart.wb)) = .error c → s.gatherCheckS a b write (i :: l) = some (c, ea)) ∧
    (∀ k, s.spCheck (s.spReq ea write (.element s.hart.wb)) = .ok k →
      s.gatherCheckS a b write (i :: l) = s.gatherCheckS a b write l) := by
  refine ⟨fun c fault => ?_, fun k passes => ?_⟩
  · simp only [State.gatherCheckS, fault]
  · simp only [State.gatherCheckS, passes]

theorem gatherPlaces_step (s s1 : State) (a b : BitVec 5) (i : Nat) (l : List Nat) (acc : Acc) :
    let ea := s.hart.gatherAddr a b i
    (∀ c, s.globalCheck ea s.hart.wb acc = (.error c, s1) → s.gatherPlaces a b acc (i :: l) = (.error (c, ea), s1)) ∧
    (∀ x, s.globalCheck ea s.hart.wb acc = (.ok x, s1) →
      (acc = .write → s1.hart.record.opt = true → x.timed = false →
        s.gatherPlaces a b acc (i :: l) = (.error (.optst, ea), s1)) ∧
      ((acc ≠ .write ∨ s1.hart.record.opt = false ∨ x.timed = true) → ∀ e s2,
        s1.gatherPlaces a b acc l = (.error e, s2) → s.gatherPlaces a b acc (i :: l) = (.error e, s2))) := by
  refine ⟨fun c fault => ?_, fun x passes => ⟨fun write opt untimed => ?_, fun plain e s2 rest => ?_⟩⟩
  · simp only [State.gatherPlaces, fault]
  · have refused : (decide (acc = .write) && s1.optstAt x) = true := by
      simp only [State.optstAt, write, opt, untimed, decide_true, Bool.not_false, Bool.and_self]
    simp only [State.gatherPlaces, passes, refused, if_true]
  · have allowed : (decide (acc = .write) && s1.optstAt x) = false := by
      rcases plain with other | sure | timed
      · rw [decide_eq_false other, Bool.false_and]
      · simp only [State.optstAt, sure, Bool.false_and, Bool.and_false]
      · simp only [State.optstAt, timed, Bool.not_true, Bool.and_false]
    simp only [State.gatherPlaces, passes, allowed, if_false, rest, Bool.false_eq_true]

end Forms

/-! ## The forms together -/

/-- Every memory form raises its first fault, in the order of 04 R109. -/
theorem memoryFaults : MemoryFaults := by
  unfold MemoryFaults
  refine ⟨fun s d a b v o p z h r t ready => ?_, gatherCheckS_step, gatherPlaces_step, fun s q pid exec_ va acc => ?_,
    fun s r => ?_⟩
  · intro em ev l V G Local Global Pad n
    refine ⟨localCheck_faults fun c => scalarLdL_fault ready, localCheck_faults fun c => scalarStL_fault ready,
      globalCheck_faults fun c s1 => scalarLdG_fault ready, globalCheck_faults fun c s1 => scalarStG_fault ready,
      globalCheck_faults fun c s1 => scalarNt_fault ready, globalCheck_faults fun c s1 => scalarNt_fault ready,
      globalCheck_faults fun c s1 => scalarNt_fault ready, globalCheck_faults fun c s1 => scalarNt_fault ready,
      fun free c => scalarLdS_fault ready free rfl, fun free c => scalarStS_fault ready free rfl, ?_, ?_, ?_⟩
    · rintro ⟨readyV, active⟩
      exact ⟨localCheck_faults fun c => vecLdL_fault rfl readyV active,
        localCheck_faults fun c => vecStL_fault rfl readyV active,
        globalCheck_faults fun c s1 => vecLdG_fault rfl readyV active,
        globalCheck_faults fun c s1 => vecStG_fault rfl readyV active,
        fun free c => vecLdS_fault rfl readyV active free rfl, fun free c => vecStS_fault rfl readyV active free rfl⟩
    · exact fun readyG c va s1 => ⟨gatherG_fault readyG, scatterG_fault readyG⟩
    · exact fun readyG free c va => ⟨gatherS_fault readyG free rfl, scatterS_fault readyG free rfl⟩
  · obtain ⟨high, low⟩ := translate_faults s q pid exec_ va acc
    refine ⟨high, fun e inside found => ?_⟩
    obtain ⟨user, perm, missing, passes⟩ := checkXlate_faults s pid exec_ acc va.toNat e
    rw [low e inside found]
    refine ⟨user, perm, missing, fun a b c => ?_⟩
    obtain ⟨x, ok⟩ := passes a b c
    exact ⟨x, congrArg (·, s) ok⟩
  · refine ⟨spCheck_nowhere, fun l found => ⟨spCheck_unaligned found, fun even plain => ⟨?_, ?_, ?_⟩⟩⟩
    · rintro t n rfl bad
      exact spCheck_ctl even found plain bad
    · rintro t k sc off rfl
      exact spCheck_half even found plain
    · rintro t b off rfl
      exact spCheck_sram even found plain

/-- Settles O36: that every word answers a state follows its definition branch by branch; the faults, their checks. -/
theorem execAnswersNext : Obligations.ExecAnswersNext := by
  unfold Obligations.ExecAnswersNext
  exact ⟨answersAndFaults, memoryFaults⟩

end Sys2Proof.Proofs

end
